-- ==== Sys2Proof/Word.lean ====
section
/-! DEFINITION. The word types of the NB-9416 and the shape of its sparse tables.

Set-up registers are 32 bits wide (R3); every memory of the node is a memory of bytes. -/

namespace Sys2Proof

/-- A set-up register's contents (R3). -/
abbrev Word := BitVec 32

/-- One byte of a memory, a packet, a frame or a character. -/
abbrev Byte := BitVec 8

/-- A sparse table: keys strictly rising, no entry equal to what an unlisted key reads as.
The operations that keep this form are in `Machine/Table.lean`. -/
abbrev Table (α : Type) := List (Nat × α)

end Sys2Proof
end

