-- ==== Sys2Proof/Machine/Bits.lean ====
section
/-! DEFINITION. Bit fields, byte orders and small list helpers the units share. -/

namespace Sys2Proof.Machine

/-- Bits [hi:lo] of a word as a number. -/
def bitsOf (w : Word) (hi lo : Nat) : Nat := (w.toNat / 2 ^ lo) % 2 ^ (hi - lo + 1)

/-- Bit `i` of a word. -/
def bitOf (w : Word) (i : Nat) : Bool := w.toNat.testBit i

/-- The word with bits [hi:lo] replaced by `v` (taken modulo the field's width). -/
def setBits (w : Word) (hi lo v : Nat) : Word :=
  let width := hi - lo + 1
  BitVec.ofNat 32 (w.toNat % 2 ^ lo + (v % 2 ^ width) * 2 ^ lo + (w.toNat / 2 ^ (lo + width)) * 2 ^ (lo + width))

/-- Bits [hi:lo] of a number. -/
def nbits (n hi lo : Nat) : Nat := (n / 2 ^ lo) % 2 ^ (hi - lo + 1)

/-- A Bool as a bit. -/
def b2n (b : Bool) : Nat := if b then 1 else 0

/-- `n` bytes of a number, least significant first (the fabric is little-endian). -/
def leBytes : Nat → Nat → List Byte
  | 0, _ => []
  | k + 1, n => BitVec.ofNat 8 n :: leBytes k (n / 256)

/-- The number little-endian bytes spell. -/
def leNum : List Byte → Nat
  | [] => 0
  | b :: bs => b.toNat + 256 * leNum bs

/-- The number big-endian bytes spell. -/
def beNum (bs : List Byte) : Nat := leNum bs.reverse

/-- `n` bytes of a number, most significant first. -/
def beBytes (k n : Nat) : List Byte := (leBytes k n).reverse

/-- The list with element `i` replaced, unchanged where there is no such element. -/
def setAt {α : Type} : List α → Nat → α → List α
  | [], _, _ => []
  | _ :: t, 0, v => v :: t
  | x :: t, i + 1, v => x :: setAt t i v

/-- Element `i`, or `d`. -/
def getAt {α : Type} (d : α) : List α → Nat → α
  | [], _ => d
  | x :: _, 0 => x
  | _ :: t, i + 1 => getAt d t i

/-- `n` bytes of a list from position `a`, missing bytes as zero. -/
def slice (bs : List Byte) (a n : Nat) : List Byte := (List.range n).map (fun i => getAt 0 bs (a + i))

/-- `bs` with `new` laid over it from position `a`. -/
def overlay (bs : List Byte) (a : Nat) (new : List Byte) : List Byte :=
  (List.range bs.length).map (fun i =>
    if a ≤ i ∧ i < a + new.length then getAt 0 new (i - a) else getAt 0 bs i)

/-- Keep the elements after the first that satisfies `p` is taken out: that element and the rest. -/
def takeFirst {α : Type} (p : α → Bool) : List α → Option (α × List α)
  | [] => none
  | x :: t => if p x then some (x, t) else
    match takeFirst p t with
    | some (y, r) => some (y, x :: r)
    | none => none

/-- Ranges [a, a+n) and [b, b+m) share an element. -/
def rangesMeet (a n b m : Nat) : Bool := decide (a < b + m) && decide (b < a + n) && decide (0 < n) && decide (0 < m)

/-- Two's complement of a 16-bit field. -/
def signed16 (n : Nat) : Int := if n % 65536 < 32768 then (n % 65536 : Nat) else (n % 65536 : Nat) - (65536 : Int)

/-- A counter that stops at its all-ones value (R11). -/
def satAdd (width a n : Nat) : Nat := min (2 ^ width - 1) (a + n)

/-- Groups of eight bytes. -/
def chunks8 : Nat → List Byte → List (List Byte)
  | 0, _ => []
  | k + 1, bs => match bs with
    | [] => []
    | _ => bs.take 8 :: chunks8 k (bs.drop 8)

end Sys2Proof.Machine
end

