-- ==== Sys2Proof/Machine/Packet.lean ====
section
/-! DEFINITION. Packets and link frames (R236, R237, R251 to R254), the CRC-32C, and two operands that commands share with them. -/

namespace Sys2Proof.Machine

/-- One packet: header words 0 and 1 and the payload (R251 to R253). -/
structure Packet where
  w0 : BitVec 64
  w1 : BitVec 64
  payload : List Byte
  deriving DecidableEq, Repr

/-- One link frame as it crosses a lane: header, body, CRC (R236). -/
structure Frame where
  hdr : BitVec 64
  body : List Byte
  crc : Word
  deriving DecidableEq, Repr

/-- A word written to a set-up register, and the node and agent that write it (R437, R460). -/
structure RegWrite where
  value : Word
  node : Nat
  agent : Nat
  deriving DecidableEq, Repr

/-- Enables a configuration write sets beside Bus Master Enable (R221, R434): AtomicOp requester, MSI-X and its function mask, and
whether the power state is D3hot. -/
structure PcieEnables where
  atomicEn : Bool
  msixEn : Bool
  funcMask : Bool
  d3 : Bool
  deriving DecidableEq, Repr

/-! ### CRC-32C (R237) -/

/-- One bit of the reflected Castagnoli division. -/
def crcBit (c : Word) : Word := if bitOf c 0 then (c >>> 1) ^^^ 0x82F63B78#32 else c >>> 1

/-- `n` bits. -/
def crcBits : Nat → Word → Word
  | 0, c => c
  | n + 1, c => crcBits n (crcBit c)

/-- One byte. -/
def crcByte (c : Word) (b : Byte) : Word := crcBits 8 (c ^^^ b.zeroExtend 32)

/-- The CRC-32C of a byte string (R237). -/
def crc32c (bs : List Byte) : Word := (bs.foldl crcByte 0xFFFFFFFF#32) ^^^ 0xFFFFFFFF#32

/-! ### Packet fields (R251, R252) -/

def Packet.dst (p : Packet) : Nat := nbits p.w0.toNat 63 53
def Packet.src (p : Packet) : Nat := nbits p.w0.toNat 52 42
def Packet.tag (p : Packet) : Nat := nbits p.w0.toNat 41 30
def Packet.cls (p : Packet) : Nat := nbits p.w0.toNat 29 28
def Packet.kind (p : Packet) : Nat := nbits p.w0.toNat 27 25
def Packet.ord (p : Packet) : Bool := p.w0.toNat.testBit 24
def Packet.inj (p : Packet) : Nat := nbits p.w0.toNat 23 23
def Packet.agent (p : Packet) : Nat := nbits p.w0.toNat 22 15
def Packet.op (p : Packet) : Nat := nbits p.w0.toNat 14 8
def Packet.lenm1 (p : Packet) : Nat := nbits p.w0.toNat 7 0
/-- ADDR of a REQUEST. -/
def Packet.addr (p : Packet) : Nat := p.w1.toNat
/-- STATUS and BYTES_DONE of a RESPONSE. -/
def Packet.status (p : Packet) : Nat := nbits p.w1.toNat 63 56
def Packet.bytesDone (p : Packet) : Nat := nbits p.w1.toNat 55 32
/-- MTYPE of a MESSAGE or MGMT packet, ETYPE of an EPOCH packet. -/
def Packet.mtype (p : Packet) : Nat := nbits p.w1.toNat 63 56
def Packet.cring (p : Packet) : Nat := nbits p.w1.toNat 55 48
def Packet.msixVec (p : Packet) : Nat := nbits p.w1.toNat 47 40
def Packet.msixEn (p : Packet) : Bool := p.w1.toNat.testBit 39
/-- BWID of an EPOCH packet, ID of a MGMT packet. -/
def Packet.subject (p : Packet) : Nat := nbits p.w1.toNat 55 45
def Packet.hops (p : Packet) : Nat := nbits p.w1.toNat 44 34
def Packet.side (p : Packet) : Nat := nbits p.w1.toNat 33 32
def Packet.mcap (p : Packet) : Bool := p.w1.toNat.testBit 31
def Packet.eseq (p : Packet) : Nat := nbits p.w1.toNat 31 0

/-- Packet kinds (R251). -/
def Kind.REQUEST : Nat := 0
def Kind.RESPONSE : Nat := 1
def Kind.MESSAGE : Nat := 2
def Kind.EPOCH : Nat := 3
def Kind.LEASE : Nat := 4
def Kind.MIRROR : Nat := 5
def Kind.MGMT : Nat := 6

/-- Word 0 of a packet. -/
def mkW0 (dst src tag cls kind : Nat) (ord : Bool) (inj agent op lenm1 : Nat) : BitVec 64 :=
  BitVec.ofNat 64 ((dst % 2048) * 2 ^ 53 + (src % 2048) * 2 ^ 42 + (tag % 4096) * 2 ^ 30 + (cls % 4) * 2 ^ 28 +
    (kind % 8) * 2 ^ 25 + b2n ord * 2 ^ 24 + (inj % 2) * 2 ^ 23 + (agent % 256) * 2 ^ 15 + (op % 128) * 2 ^ 8 + lenm1 % 256)

/-- Word 1 of a RESPONSE. -/
def mkRspW1 (status bytesDone : Nat) : BitVec 64 :=
  BitVec.ofNat 64 ((status % 256) * 2 ^ 56 + (bytesDone % 2 ^ 24) * 2 ^ 32)

/-- Word 1 of a MGMT packet. -/
def mkMgmtW1 (mtype id hops side : Nat) (mcap : Bool) : BitVec 64 :=
  BitVec.ofNat 64 ((mtype % 256) * 2 ^ 56 + (id % 2048) * 2 ^ 45 + (hops % 2048) * 2 ^ 34 + (side % 4) * 2 ^ 32 + b2n mcap * 2 ^ 31)

/-- Word 1 of an EPOCH packet. -/
def mkEpochW1 (etype bwid hops eseq : Nat) : BitVec 64 :=
  BitVec.ofNat 64 ((etype % 256) * 2 ^ 56 + (bwid % 2048) * 2 ^ 45 + (hops % 2048) * 2 ^ 34 + eseq % 2 ^ 32)

/-- Word 1 of a MESSAGE. -/
def mkMsgW1 (mtype cring vec : Nat) (en : Bool) : BitVec 64 :=
  BitVec.ofNat 64 ((mtype % 256) * 2 ^ 56 + (cring % 256) * 2 ^ 48 + (vec % 256) * 2 ^ 40 + b2n en * 2 ^ 39)

/-- The packet with its ring of injection set. -/
def Packet.withInj (p : Packet) (ring : Nat) : Packet :=
  { p with w0 := BitVec.ofNat 64 (p.w0.toNat - p.inj * 2 ^ 23 + (ring % 2) * 2 ^ 23) }

/-- The packet with HOPS raised by one. -/
def Packet.incHops (p : Packet) : Packet := { p with w1 := p.w1 + BitVec.ofNat 64 (2 ^ 34) }

/-! ### Well-formed packets (R254) -/

/-- Opcodes a REQUEST may carry: those for which R253 gives a payload (DEDUCED, log entry 8). -/
def requestOps : List Nat := [0x01, 0x02, 0x03, 0x10, 0x11, 0x12, 0x13, 0x14, 0x7F]

/-- A status under which the work was performed: OK or LATE (R218). -/
def performed (status : Nat) : Bool := status == 0x00 || status == 0x01

/-- The payload lengths of a RESPONSE (R253): the bytes read, unless the access ended in error (R77); nothing or the 8-byte RESULT for a
descriptor; nothing for the other opcodes. -/
def responseLen (p : Packet) (n : Nat) : Bool :=
  if p.op = 0x01 ∨ p.op = 0x10 ∨ p.op = 0x12 then decide (n = if performed p.status then p.lenm1 + 1 else 0)
  else if p.op = 0x7F then decide (n = 0 ∨ n = 8)
  else decide (n = 0)

/-- The payload length R253 gives; that of a RESPONSE is judged by `responseLen`, that of a MIRROR packet by `mirrorOk`. -/
def payloadLen (p : Packet) : Option Nat :=
  if p.kind = Kind.REQUEST then
    if p.op = 0x02 ∨ p.op = 0x03 ∨ p.op = 0x11 then some (p.lenm1 + 1)
    else if p.op = 0x12 then some 24
    else if p.op = 0x7F then some 64
    else some 0
  else if p.kind = Kind.MESSAGE then
    some (if p.mtype = 1 then 16 else if p.mtype = 3 then 4 else 0)
  else if p.kind = Kind.EPOCH then some (if p.mtype = 2 then 0 else 16)
  else if p.kind = Kind.MGMT then some (if p.mtype = 4 ∨ p.mtype = 6 then 0 else 8)
  else if p.kind = Kind.LEASE then some 8
  else none

/-- A MIRROR packet is as R351 lays it down: MTYPE, RTYPE, RSEQ and the payload's length. -/
def mirrorOk (w1 : Nat) (bs : List Byte) : Bool :=
  let m := nbits w1 63 60
  let r := nbits w1 59 56
  let n := bs.length
  if m = 1 then
    (match r with
     | 1 => decide (n % 8 = 0 ∧ 8 ≤ n ∧ n ≤ 256)
     | 2 => decide (9 ≤ n ∧ n ≤ 256)
     | 3 => decide (n = 24)
     | 4 => let k := nbits (leNum (bs.take 8)) 19 16
            decide (1 ≤ k ∧ n = 8 + 16 * k)
     | 5 => decide (n = 8)
     | 6 => decide (n = 80)
     | 7 => decide (n = 72)
     | 8 => decide (n = 0)
     | _ => false)
  else decide (2 ≤ m ∧ m ≤ 4) && decide (nbits w1 59 32 = 0) && decide (n = if m = 2 then 32 else 0)

/-- LENM1 is zero for an opcode without a length (R251). -/
def lenm1Ok (p : Packet) : Bool :=
  decide (p.op = 0x01 ∨ p.op = 0x02 ∨ p.op = 0x03 ∨ p.op = 0x10 ∨ p.op = 0x11 ∨ p.op = 0x12) || decide (p.lenm1 = 0)

/-- Bits of the payload that R253 and R340 give as zero. -/
def payloadZero (p : Packet) : Bool :=
  let n := leNum p.payload
  if p.kind = Kind.EPOCH ∧ p.mtype = 1 then decide (n / 2 ^ 80 = 0)
  else if p.kind = Kind.MGMT then
    if p.mtype ≤ 2 then decide (nbits n 63 48 = 0)
    else if p.mtype = 3 then decide (nbits n 63 8 = 0)
    else if p.mtype = 5 then decide (nbits n 15 9 = 0) && decide (nbits n 63 27 = 0)
    else true
  else true

/-- Reserved bits of the header are zero (R251, R252). -/
def reservedZero (p : Packet) : Bool :=
  let w1 := p.w1.toNat
  let reqRsp := decide (p.kind = Kind.REQUEST ∨ p.kind = Kind.RESPONSE)
  (if reqRsp then lenm1Ok p else decide (p.agent = 0) && decide (p.op = 0) && decide (p.lenm1 = 0)) &&
    (if p.kind = Kind.RESPONSE then decide (nbits w1 31 0 = 0)
     else if p.kind = Kind.MESSAGE then decide (nbits w1 38 0 = 0)
     else if p.kind = Kind.EPOCH then decide (nbits w1 33 32 = 0)
     else if p.kind = Kind.MGMT then decide (nbits w1 30 0 = 0)
     else if p.kind = Kind.LEASE then decide (nbits w1 51 48 = 0)
     else true)

/-- A packet that a drop point keeps (R254). -/
def Packet.ok (p : Packet) : Bool :=
  decide (p.cls < 3) && decide (p.kind < 7) && reservedZero p && payloadZero p &&
    (if p.kind = Kind.REQUEST ∨ p.kind = Kind.RESPONSE then decide (p.op ∈ requestOps) else true) &&
    (if p.kind = Kind.RESPONSE then responseLen p p.payload.length else true) &&
    (if p.kind = Kind.REQUEST ∧ p.op = 0x12 then decide (leNum (p.payload.take 1) ≤ 2) else true) &&
    (if p.kind = Kind.MESSAGE then decide (1 ≤ p.mtype ∧ p.mtype ≤ 3) else true) &&
    (if p.kind = Kind.EPOCH then decide (1 ≤ p.mtype ∧ p.mtype ≤ 3) else true) &&
    (if p.kind = Kind.MGMT then decide (1 ≤ p.mtype ∧ p.mtype ≤ 6) && decide (p.side < 2) else true) &&
    (if p.kind = Kind.LEASE then decide (1 ≤ p.mtype ∧ p.mtype ≤ 4) else true) &&
    (if p.kind = Kind.MIRROR then mirrorOk p.w1.toNat p.payload else true) &&
    (match payloadLen p with | none => decide (p.payload.length ≤ 256) | some n => decide (p.payload.length = n))

/-! ### Frames (R236) -/

/-- The bytes of a packet on the wire. -/
def Packet.bytes (p : Packet) : List Byte := leBytes 8 p.w0.toNat ++ leBytes 8 p.w1.toNat ++ p.payload

/-- The packet a DATA body carries. -/
def packetOf (body : List Byte) : Packet :=
  ⟨BitVec.ofNat 64 (leNum (body.take 8)), BitVec.ofNat 64 (leNum ((body.drop 8).take 8)), body.drop 16⟩

def Frame.kind (f : Frame) : Nat := nbits f.hdr.toNat 63 60
def Frame.seq (f : Frame) : Nat := nbits f.hdr.toNat 59 52
def Frame.ackseq (f : Frame) : Nat := nbits f.hdr.toNat 51 44
def Frame.ackv (f : Frame) : Bool := f.hdr.toNat.testBit 43
def Frame.len (f : Frame) : Nat := nbits f.hdr.toNat 40 32
def Frame.cred (f : Frame) : Nat := nbits f.hdr.toNat 31 0

/-- The CRC a frame's header and body call for. -/
def Frame.good (f : Frame) : Word := crc32c (leBytes 8 f.hdr.toNat ++ f.body)

/-- A frame with its right CRC. -/
def mkFrame (kind seq ackseq : Nat) (ackv : Bool) (cred : Nat) (body : List Byte) : Frame :=
  let h : BitVec 64 := BitVec.ofNat 64 ((kind % 16) * 2 ^ 60 + (seq % 256) * 2 ^ 52 + (ackseq % 256) * 2 ^ 44 +
    b2n ackv * 2 ^ 43 + (body.length % 512) * 2 ^ 32 + cred % 2 ^ 32)
  ⟨h, body, crc32c (leBytes 8 h.toNat ++ body)⟩

/-! ### Blocks on lanes (R233, R236) -/

/-- A 66-bit block: the start block carries a frame's first 7 bytes, the terminate block its last 0 to 7 (DEDUCED, log entry 59). -/
inductive Block where
  | start (d : List Byte)
  | data (d : List Byte)
  | term (d : List Byte)
  | idle
  deriving DecidableEq, Repr

/-- A block on a lane: the lane's number in its link, the count of the last marker before it and its place after that marker. -/
structure LaneBlock where
  lane : Nat
  marker : Nat
  index : Nat
  block : Block
  deriving DecidableEq, Repr

/-- The data blocks of a byte string and the terminate block with the rest. -/
def dataBlocks : Nat → List Byte → List Block
  | 0, bs => [.term bs]
  | n + 1, bs => if bs.length < 8 then [.term bs] else .data (bs.take 8) :: dataBlocks n (bs.drop 8)

/-- The bytes of a frame: header, body, CRC (R236). -/
def Frame.bytes (f : Frame) : List Byte := leBytes 8 f.hdr.toNat ++ f.body ++ leBytes 4 f.crc.toNat

/-- The blocks of a frame, from its start block to its terminate block (R236). -/
def Frame.blocks (f : Frame) : List Block := .start (f.bytes.take 7) :: dataBlocks f.bytes.length (f.bytes.drop 7)

/-- Deal blocks to `lanes` in turn, the first of them at place `pos` after marker `marker` (R233). -/
def dealBlocks (lanes : List Nat) (marker : Nat) : Nat → List Block → List LaneBlock
  | _, [] => []
  | pos, b :: bs => ⟨getAt 0 lanes (pos % lanes.length), marker, pos / lanes.length, b⟩ :: dealBlocks lanes marker (pos + 1) bs

/-- Block `a` was dealt before block `b`: by marker count, place and lane (R233). -/
def LaneBlock.before (a b : LaneBlock) : Bool :=
  let d := (b.marker + 2 ^ 32 - a.marker) % 2 ^ 32
  if d = 0 then decide (a.index < b.index) || (a.index == b.index && decide (a.lane < b.lane)) else decide (d < 2 ^ 31)

/-- Put a block where it belongs. -/
def insertBlock (b : LaneBlock) : List LaneBlock → List LaneBlock
  | [] => [b]
  | x :: xs => if x.before b then x :: insertBlock b xs else b :: x :: xs

/-- Deskewed and in the order they were dealt in, without the idle blocks, which a receiver inserts and deletes (R233). -/
def restoreBlocks (bs : List LaneBlock) : List Block :=
  ((bs.foldr insertBlock []).map (fun b => b.block)).filter (fun b => b != .idle)

/-- The bytes up to the terminate block. -/
def bytesToTerm : List Block → Option (List Byte)
  | .data d :: bs => (bytesToTerm bs).map (d ++ ·)
  | [.term d] => some d
  | _ => none

/-- The frame between a start and a terminate block. -/
def frameOf : List Block → Option Frame
  | .start d :: bs =>
    match bytesToTerm bs with
    | some rest =>
      let x := d ++ rest
      if 12 ≤ x.length then
        some ⟨BitVec.ofNat 64 (leNum (x.take 8)), (x.drop 8).take (x.length - 12), BitVec.ofNat 32 (leNum (x.drop (x.length - 4)))⟩
      else none
    | none => none
  | _ => none

/-- KIND and LEN are those of R236. -/
def Frame.formOk (f : Frame) : Bool :=
  if f.kind = 0 then decide (16 ≤ f.len ∧ f.len ≤ 272) else decide (f.kind ≤ 5 ∧ f.len = 8)

/-- The class a sending side serves a packet in (R257). One forwarded with the reserved class 3 goes as BULK (DESIGN CHOICE, log
entry 60). -/
def Packet.sendCls (p : Packet) : Nat := min p.cls 2

/-- Credit pool of a packet (R258): 0 CTRL, 1 RSP, 2 DATA, 3 BULK. -/
def Packet.pool (p : Packet) : Nat :=
  if p.cls = 0 then 0 else if p.kind = Kind.RESPONSE then 1 else if p.cls = 1 then 2 else 3

/-- Units a frame of this packet occupies (R258): its link header, body and CRC by 64 bytes, rounded up. -/
def Packet.units (p : Packet) : Nat := (8 + 16 + p.payload.length + 4 + 63) / 64

end Sys2Proof.Machine
end

