-- ==== Sys2Proof/Syntax.lean ====
section
/-! DEFINITION. The commands of the NB-9416: one constructor for each row of spec/opcode_table.json, in the table's order.

A command is an event at the block's boundary or inside it. Its operands are what the outside supplies (an index, levels, bytes,
a frame); what the device itself holds is in State. -/

namespace Sys2Proof
open Sys2Proof.Machine

/-- The commands. -/
inductive Instr where
  /-- SETUP_WRITE (R8): A write to a set-up register that has no row of its own, checked and applied under R3, R7, R8 and R9 in the order of R460. -/
  | setupWrite (offset : Nat) (data : List Byte) (node : Nat) (agent : Nat)
  /-- SETUP_LATCH_READ (R463): A read of the latching register of a latch group returns its value and copies the partner registers into the group's latch. -/
  | setupLatchRead (offset : Nat) (len : Nat)
  /-- CROSSBAR_TRANSFER (R16): A crossbar transfer starts once its class holds credits for all its beats at the destination port and is granted under R13, R14 and R17. Destination region; beats freed there since the last transfer, by class; transfers waiting, as (region × 16 + slot, cell, class, beats). -/
  | crossbarTransfer (dest : Nat) (freed : List Nat) (waiting : List (Nat × Nat × Nat × Nat))
  /-- RING_REQUEST_DROP (R32): A REQUEST packet taken at the drop point is decoded against the node-local map and written as a RING task into a drover fold. -/
  | ringRequestDrop (queue : Nat)
  /-- STILE_WAIT_CLEAR (R132): A task creation held by a stile limit proceeds once the limit clears. -/
  | stileWaitClear
  /-- TASK_RUN (R127): A drover pops the oldest task of its own fold and runs it through the perform gate, its resources and the action. -/
  | taskRun (drover : Nat)
  /-- DROVER_STEAL (R129): An idle drover sweeps victims and moves the oldest eligible tasks of the first qualifying fold to itself. -/
  | droverSteal (drover : Nat)
  /-- DROVER_SLEEP_END (R127): A sleeping drover wakes when its fold becomes non-empty or IDLE_10NS has passed, within the wake limit of R421. -/
  | droverSleepEnd (drover : Nat)
  /-- STILE_RESULT (R135): A task's result reaches its stile's release gate and is sent, releasing any parked results in sequence, or parked. 0 to 63: the drover whose result it is; 64: a result that another unit built. -/
  | stileResult (drover : Nat)
  /-- DRV_STILE_SKIP (R136): The release gate's TO_US count for a lost sequence expires and the gate skips that sequence. -/
  | drvStileSkip (stile : Nat)
  /-- DRV_WDOG (R137): A drover's watchdog expires after TL_US without progress and the drover is revoked. -/
  | drvWdog (drover : Nat)
  /-- DRV_MEM_UE (R137): An uncorrectable error in a drover's own memory revokes the drover. -/
  | drvMemUe (drover : Nat)
  /-- DRV_TRAP (R137): An illegal instruction or address in drover firmware revokes the drover. -/
  | drvTrap (drover : Nat)
  /-- DRV_RELOAD_DONE (R140): A drover's reload completes and it rejoins in RUNNING, or is removed when the code check fails. Whether the code check passes. -/
  | drvReloadDone (drover : Nat) (ok : Bool)
  /-- DRV_EN_WRITE (R141): A write of DRV_EN_LO or DRV_EN_HI enables or stops drovers, and a 1 for a removed drover reloads it. -/
  | drvEnWrite (value : Nat) (node : Nat) (agent : Nat)
  /-- PWQ_SPACE_FREE (R69): A posted write piece waiting for a full queue enters it once an entry frees. -/
  | pwqSpaceFree
  /-- VME_BUS_GRANT (R72): A grant arriving on BGnIN is taken with BBSY asserted, or passed on when no request is pending. -/
  | vmeBusGrant (level : Nat)
  /-- VME_BR_OTHER (R73): Another master asserts a bus request while the device idles holding BBSY under ROR, and the device releases. -/
  | vmeBrOther (level : Nat) (asserted : Bool)
  /-- VME_BCLR_IN (R73): BCLR is asserted and the device releases the bus at the end of the task in progress. -/
  | vmeBclrIn
  /-- VME_DTACK_IN (R67): DTACK terminates a cycle or beat the device masters, advancing the piece, the posted write engine, a cache fill or an RMW phase. The bytes of the cycle or beat in ascending VME order; empty for a write. -/
  | vmeDtackIn (data : List Byte)
  /-- VME_BERR_OUT (R76): BERR without RETRY ends an outbound cycle, beat or address phase and the piece completes with VME_BERR. -/
  | vmeBerrOut
  /-- VME_RETRY_IN (R78): RETRY at the termination sample ends a cycle as a retry, releases the bus and counts against MAX. -/
  | vmeRetryIn
  /-- VME_RETRY_GAP (R78): GAP_US after a retry or early end expires and the device requests the bus again to reissue. 0 to 63: a drover; 64: the posted write engine. -/
  | vmeRetryGap (owner : Nat)
  /-- VME_2E_EARLY_END (R65): A 2eVME or 2eSST transfer ends early without BERR, completed beats stand and the rest is reissued after GAP_US. -/
  | vme2eEarlyEnd
  /-- VME_DATA_TO (R76): DATA_TO_US expires with no termination, the device negates its strobes, releases the bus and ends the piece with VME_TIMEOUT. -/
  | vmeDataTo
  /-- VME_ARB_TO (R76): No grant arrives within ARB_TO_US of the bus request and the piece completes with VME_ARB_TIMEOUT. -/
  | vmeArbTo
  /-- VME_BTO_OUT (R81): The system controller's bus timer expires on a cycle and BERR is asserted, ending a device cycle with VME_TIMEOUT. -/
  | vmeBtoOut
  /-- VME_ARBITER_GRANT (R81): As system controller, the arbiter grants a pending bus request level while BBSY is negated. Whether another master asserts BBSY. -/
  | vmeArbiterGrant (busy : Bool)
  /-- VME_GRANT_TO (R81): A grant not followed by BBSY within GRANT_TO_US is withdrawn and the arbiter re-arbitrates. -/
  | vmeGrantTo
  /-- SYSRST_PULSE (R81): A write of 1 to SYSRST_PULSE drives SYSRESET low. -/
  | sysrstPulse
  /-- SYSRST_PULSE_END (R81): The 200 ms SYSRESET pulse ends. -/
  | sysrstPulseEnd
  /-- VME_IN_AS (R26): A master asserts AS with an address and AM code and the inbound lens lookup starts. The cycle as its address phase and its lines describe it: the bytes of the cycle or of one beat (0 when A01, LWORD, DS1 and DS0 form none of the kinds of R59) and the beats announced. -/
  | vmeInAs (am : Nat) (xam : Nat) (addr : Nat) (write : Bool) (rmw : Bool) (size : Nat) (beats : Nat)
  /-- VME_IN_LENS_DECISION (R86): The inbound lens decision completes 40 ns after AS and decides no response, BERR, posted acceptance or a held split request. -/
  | vmeInLensDecision
  /-- VME_IN_DATA_STROBE (R91): The master's data strobes arrive for an inbound cycle or beat, starting latching of posted data or the hold timer. Write phase of an RMW cycle; the bytes driven, in ascending VME order, empty for a read. -/
  | vmeInDataStrobe (wphase : Bool) (data : List Byte)
  /-- VME_IN_QUEUE_SPACE (R91): A write held for a full inbound posted write queue is accepted and acknowledged once an entry frees. -/
  | vmeInQueueSpace
  /-- VME_IN_SPLIT_ISSUE (R96): A held inbound cycle takes a retry slot and issues its ring request once earlier posted entries have completed. -/
  | vmeInSplitIssue
  /-- VME_IN_RING_RESULT (R103): The ring result of a held inbound cycle arrives and ends the cycle with DTACK, BERR or RETRY, or is parked in its slot. -/
  | vmeInRingResult (slot : Nat)
  /-- VME_HOLD_TO (R94): The hold timer of a held inbound cycle expires and the cycle ends with RETRY or BERR. -/
  | vmeHoldTo
  /-- VME_IN_YIELD (R101): A local owner has waited YIELD_US for tenure and the device ends the held cycle with RETRY. -/
  | vmeInYield
  /-- VME_IN_ABANDON (R97): AS negated or foreign BERR while a cycle is held releases the lines and parks any issued request's result. BERR from another source, rather than AS negated. -/
  | vmeInAbandon (berr : Bool)
  /-- VME_RSLOT_DISCARD (R96): A parked result not taken within KEEP_US is discarded. -/
  | vmeRslotDiscard (slot : Nat)
  /-- VME_IN_POSTED_DONE (R93): The ring write of an inbound posted entry completes, freeing the entry, and a failure counts its bytes lost. -/
  | vmeInPostedDone
  /-- VME_INTR_RORA_WRITE (R113): A cycle at the RORA release location is answered, and a write releases the oldest taken vector. -/
  | vmeIntrRoraWrite
  /-- VME_IRQ_IN (R104): An enabled VME interrupt level becomes pending and the device runs an IACK cycle as a local owner. -/
  | vmeIrqIn (level : Nat) (asserted : Bool)
  /-- VME_ROAK_REARM (R105): 500 ns after its IACK a ROAK level is re-armed once its message has been acknowledged. -/
  | vmeRoakRearm (level : Nat)
  /-- VME_RORA_REARM (R105): A RORA level is re-armed once IRQn is seen negated in two consecutive samples. -/
  | vmeRoraRearm (level : Nat)
  /-- INTERRUPTER_IACK (R111): An IACK cycle reaching the asserting interrupter takes the oldest queued vector, else IACKIN is passed on. Width in bytes: 1, 2 or 4. -/
  | interrupterIack (level : Nat) (width : Nat)
  /-- INTR_REASSERT (R112): Under ROAK, IRQn is reasserted 500 ns after an IACK if a vector remains. -/
  | intrReassert
  /-- VME_IRQ_NOACK (R114): A vector not taken or released within ACK_TO_MS is withdrawn and its raise completes IRQ_TIMEOUT. -/
  | vmeIrqNoack
  /-- READ (R211): Descriptor opcode READ moves bytes from ADDR to BUF as ring requests per 256-byte block. -/
  | read (drover : Nat)
  /-- WRITE (R211): Descriptor opcode WRITE writes bytes from BUF or inline data to ADDR as ring requests. -/
  | write (drover : Nat)
  /-- WRITE_NT (R155): Descriptor opcode WRITE_NT merges bytes into the combining buffer and completes OK once they are in it. -/
  | writeNt (drover : Nat)
  /-- COPY (R211): Descriptor opcode COPY reads each block from BUF then writes it to ADDR. -/
  | copy (drover : Nat)
  /-- FILL (R209): Descriptor opcode FILL writes the pattern of OP0 over LEN bytes at ADDR. -/
  | fill (drover : Nat)
  /-- CLAIM (R162): Descriptor opcode CLAIM reads the target and takes a reservation on its granule at the home node. -/
  | claim (drover : Nat)
  /-- COMMIT (R165): Descriptor opcode COMMIT writes its data only while the reservation is held, else completes CLAIM_LOST. -/
  | commit (drover : Nat)
  /-- FETCH_ADD (R71): ATOMIC with SUBOP FETCH_ADD adds OP0 to the target indivisibly and returns the old bytes. -/
  | fetchAdd (drover : Nat)
  /-- SWAP (R71): ATOMIC with SUBOP SWAP writes OP0 to the target indivisibly and returns the old bytes. -/
  | swap (drover : Nat)
  /-- CMP_SWAP (R71): ATOMIC with SUBOP CMP_SWAP writes OP0 only when the target equals OP1 and returns the old bytes. -/
  | cmpSwap (drover : Nat)
  /-- FENCE (R149): Descriptor opcode FENCE flushes the agent's combining lines and holds later accesses until earlier ones of its scope complete. -/
  | fence (drover : Nat)
  /-- DONE (R151): Descriptor opcode DONE sends a DONE request to each node stored to and completes once every covered store is confirmed. -/
  | done (drover : Nat)
  /-- DONE_TIMEOUT (R153): A DONE not completed within DONE_TO_MS completes DONE_TIMEOUT and releases the agent's later accesses. -/
  | doneTimeout (drover : Nat)
  /-- PHASE_WAIT (R209): Descriptor opcode PHASE_WAIT is held by a cadence unit and completes at release with OK or LATE. -/
  | phaseWait (drover : Nat)
  /-- SEND (R209): Descriptor opcode SEND pushes its bytes as one packet into a send fold at the port's node. -/
  | send (drover : Nat)
  /-- RECV_POST (R209): Descriptor opcode RECV_POST is held by the fold manager until a whole packet is visible or its wait limit expires. -/
  | recvPost (drover : Nat)
  /-- RECV_POST_EXPIRY (R209): A RECV_POST's wait limit expires and it completes with zero bytes. Which of the posts held, oldest first. -/
  | recvPostExpiry (post : Nat)
  /-- IRQ_RAISE (R110): Descriptor opcode IRQ_RAISE queues a vector for the VME interrupter of the named node. -/
  | irqRaise (drover : Nat)
  /-- STATUS_REG (R209): STATUS with SUBOP REG returns the value of a set-up register. -/
  | statusReg (drover : Nat)
  /-- STATUS_NONCE (R395): STATUS with SUBOP NONCE returns the node's recorder nonce. -/
  | statusNonce (drover : Nat)
  /-- LOG_READ (R394): Descriptor opcode LOG_READ moves recorder records to BUF and counts slots failing their check. -/
  | logRead (drover : Nat)
  /-- LOG_CLEAR_CLEAR (R398): An authorised LOG_CLEAR CLEAR starts zeroing the recorder areas. -/
  | logClearClear (drover : Nat)
  /-- MON_UNLOCK (R448): An authorised LOG_CLEAR MON_UNLOCK clears the service monitor lock. -/
  | monUnlock (drover : Nat)
  /-- LOG_CLEAR_RESET (R428): An authorised LOG_CLEAR RESET queues CHIP_RESET_CMD, responds OK and schedules RING_CMD. -/
  | logClearReset (drover : Nat)
  /-- CONFIG_STAGE (R209): Descriptor opcode CONFIG_STAGE writes a set-up register at any node, completing CFG_REFUSED on refusal. -/
  | configStage (drover : Nat)
  /-- CONFIG_COMMIT_NEXT (R440): CONFIG_COMMIT NEXT completes at the next commit with its RESULT. -/
  | configCommitNext (drover : Nat)
  /-- CONFIG_COMMIT_NAMED (R440): CONFIG_COMMIT NAMED raises TARGET to its period number and completes at the commit. -/
  | configCommitNamed (drover : Nat)
  /-- MIRROR_MARK (R354): Descriptor opcode MIRROR_MARK places a mark in the open mirror epoch and completes when that epoch is committed. -/
  | mirrorMark (drover : Nat)
  /-- DESC_FWD_RX (R253): A REQUEST carrying a forwarded descriptor is executed at the named node and answered with one RESPONSE. -/
  | descFwdRx (queue : Nat)
  /-- DOORBELL_POLL (R204): The poll interval passes and the descriptor fetcher reads the doorbell page. -/
  | doorbellPoll
  /-- DOORBELL_READ_DONE (R204): The doorbell page reads end, rings are restarted, stopped or fetched, consumer indices taken and the interval set. -/
  | doorbellReadDone
  /-- DESC_FETCH_DONE (R207): A descriptor fetch READ completes and each descriptor becomes a DESC task, or a failure stops the ring. -/
  | descFetchDone (ring : Nat)
  /-- HST_WAKE (R205): Any write to HST_WAKE sets the poll interval to MIN. -/
  | hstWake
  /-- CQ_SPACE_FREE (R215): A waiting completion entry is written once the consumer index frees space. -/
  | cqSpaceFree (ring : Nat)
  /-- MSIX_COAL_EXPIRY (R217): The coalescing interval ends and one deferred MSI-X signal is sent. -/
  | msixCoalExpiry (ring : Nat)
  /-- BAR0_TLP (R222): A memory TLP to BAR0 is served as set-up accesses. The bytes of a write, or the length of a read with its tag. -/
  | bar0Tlp (write : Bool) (tag : Nat) (offset : Nat) (len : Nat) (data : List Byte)
  /-- BAR2_TLP (R223): A memory TLP to BAR2 becomes ring requests of the BAR2 agent and is answered per the fabric outcome. The bytes of a write, or the length of a read with its tag. -/
  | bar2Tlp (write : Bool) (tag : Nat) (offset : Nat) (len : Nat) (data : List Byte)
  /-- UNSUPPORTED_TLP (R223): An I/O, locked, AtomicOp or forbidden BAR0 request is answered Unsupported Request. -/
  | unsupportedTlp (tag : Nat)
  /-- HOST_WINDOW_COMPLETION (R224): A completion for a host window read or AtomicOp arrives and completes its request, HOST_ABORT on error. Status 0 is a Successful Completion. -/
  | hostWindowCompletion (id : Nat) (status : Nat) (data : List Byte)
  /-- HOST_COMPLETION_TIMEOUT (R224): A host window read or AtomicOp reaches its completion timeout and completes HOST_ABORT. -/
  | hostCompletionTimeout (id : Nat)
  /-- PCIE_FLR (R225): A Function Level Reset or loss of link drops pending TLPs, aborts host window requests and resets configuration space. -/
  | pcieFlr (linkLoss : Bool)
  /-- DDR_SCRUB (R226): The patrol scrubber reads the next word and corrects or reports ECC errors. -/
  | ddrScrub
  /-- DDR_INJ_ARM (R228): A write of 1 to DDR_INJ.ARM inverts check bits of the next word written. The word written. -/
  | ddrInjArm (value : Word)
  /-- WC_TIMEOUT (R156): A combining line's TO_100NS passes and the line is flushed. The line's fabric address. -/
  | wcTimeout (base : Nat)
  /-- WC_FLUSH_DONE (R156): A flush write of a combining line completes, freeing the line when all its writes are done. -/
  | wcFlushDone
  /-- WC_EN_CLEAR (R156): Writing CHIP_WC_CTL.EN 0 flushes every combining line. -/
  | wcEnClear
  /-- CLAIM_TIMEOUT (R163): CLAIM_TO_US passes since a CLAIM and its reservation is lost. -/
  | claimTimeout (node : Nat) (agent : Nat)
  /-- LC_SNOOP_WRITE (R169): A write by another master seen on the backplane invalidates matching lens cache lines. The bytes the cycle or transfer writes; whether the snoop queue has no room for it. -/
  | lcSnoopWrite (am : Nat) (xam : Nat) (addr : Nat) (len : Nat) (overflow : Bool)
  /-- LC_INV_ALL (R169): A write of 1 to CHIP_LC_CTL.INV_ALL invalidates every lens cache line. -/
  | lcInvAll
  /-- LC_EN_CLEAR (R169): Writing CHIP_LC_CTL.EN 0 invalidates every lens cache line. -/
  | lcEnClear
  /-- PF_DRAIN_EMPTY (R174): The power-fail drain empties and the PF_DRAIN record is written. -/
  | pfDrainEmpty
  /-- PF_DRAIN_DEADLINE (R174): DRAIN_US passes since the warning, remaining writes are discarded and STATE becomes STOPPED. -/
  | pfDrainDeadline
  /-- FOLD_PUSH_GRANT (R184): A push held for a new cell lands once QUOTA and the pool allow. -/
  | foldPushGrant
  /-- FOLD_HEAD_READ (R188): A read of a receive fold head pops up to k words. The drover whose task reads the head. -/
  | foldHeadRead (drover : Nat)
  /-- FOLD_HEAD_WRITE (R188): A write to a send fold head pushes its entries in order. The drover whose task writes the head. -/
  | foldHeadWrite (drover : Nat)
  /-- FOLD_HEAD_COUNT (R188): An 8-byte read at head offset 0x800 returns word and packet counts without popping. The drover whose task reads the counts. -/
  | foldHeadCount (drover : Nat)
  /-- FOLD_STALE (R191): A fold's stale-tail timer expires without a pop and sets STALE_N. -/
  | foldStale (fold : Nat)
  /-- FOLD_FLUSH (R193): A write of 1 to FLD_F_CTL.FLUSH empties the selected fold without a fault. -/
  | foldFlush
  /-- FLOOR_RST (R190): A write of 1 to FLD_F_CTL.FLOOR_RST restarts FLOOR from the current word count. -/
  | floorRst
  /-- SWEEP_PASS_END (R194): A background sweep pass ends, returning old-generation cells, and a pending pass starts. -/
  | sweepPassEnd
  /-- FLD_INJ_ARM (R197): A write of 1 to FLD_INJ.ARM inverts one pointer copy of the named fold at its next access. The word written. -/
  | fldInjArm (value : Word)
  /-- LINK_ENABLE (R234): A write of LNK_CTL enables a link's training or takes it down. -/
  | linkEnable (value : Word)
  /-- LANE_MARKER_RX (R232): A lane marker is received, advancing codeword lock and the lane identity check. -/
  | laneMarkerRx (lane : Nat) (w0 : Nat) (w1 : Nat) (w2 : Nat) (w3 : Nat)
  /-- INIT_RX (R234): An INIT frame is received and the link comes up with sequences and retry buffers reset. -/
  | initRx (link : Nat) (rx : List LaneBlock)
  /-- LINK_INIT_TX (R234): A training end sends an INIT frame every 1 µs. -/
  | linkInitTx (link : Nat)
  /-- LNK_TRAIN_FAIL (R234): A link not up within TRAIN_MS raises LNK_TRAIN_FAIL. -/
  | lnkTrainFail (link : Nat)
  /-- LINK_RETRAIN (R234): RETRAIN_MS passes and a link that is not up restarts training from step 1. -/
  | linkRetrain (link : Nat)
  /-- FLOW_RX (R258): A FLOW frame gives the receiver's pool limits to the sender. -/
  | flowRx (link : Nat) (rx : List LaneBlock)
  /-- DATA_FRAME_RX (R238): A DATA link frame arrives and is checked on the fast path, forwarded, delivered, stomped or moved to the corrected path. -/
  | dataFrameRx (link : Nat) (rx : List LaneBlock)
  /-- CODEWORD_DECODED (R239): The decoder output of a codeword is available and frames on the corrected path are checked, or a NAK is sent. The symbols in error among its data symbols and among its check symbols; each frame that ends in the codeword, after correction, with whether a symbol within it was corrected; whether an idle block follows with the decoder drained. -/
  | codewordDecoded (lane : Nat) (inData : Nat) (inCheck : Nat) (frames : List (Frame × Bool)) (drained : Bool)
  /-- ACK_RX (R242): An acknowledgement frees every buffered frame before ACKSEQ. -/
  | ackRx (link : Nat) (rx : List LaneBlock)
  /-- NAK_RX (R243): A NAK makes the sender replay from ACKSEQ after the frame in progress. -/
  | nakRx (link : Nat) (rx : List LaneBlock)
  /-- ACK_TIMER (R242): ACK_10NS passes without a frame carrying the changed acknowledgement and an ACK frame is sent. -/
  | ackTimer (link : Nat)
  /-- REPLAY_TIMEOUT (R244): REPLAY_US passes without an advancing acknowledgement and the sender replays from the oldest frame. -/
  | replayTimeout (link : Nat)
  /-- LANE_LOCK_LOSS (R246): A lane out of block lock for LOCK_US leaves its bond. -/
  | laneLockLoss (lane : Nat)
  /-- LANE_DEGRADE_CHECK (R246): At the end of each 1 ms interval a lane with more than DEG_UE uncorrectable codewords leaves its bond. -/
  | laneDegradeCheck (lane : Nat)
  /-- LANE_RX (R246): A LANE frame names the lanes the receiver accepts and the sender moves to the new bond. -/
  | laneRx (link : Nat) (rx : List LaneBlock)
  /-- LNK_INJ_ARM (R250): A write of 1 to LNK_INJ.ARM injects a CRC or FEC error on the next frame or codeword of the lane. -/
  | lnkInjArm (word : RegWrite)
  /-- PACKET_RX (R256): A receiving side treats a packet by its header: strip, take, forward, broadcast or drop. -/
  | packetRx (side : Nat)
  /-- DROP_ADMIT (R259): A frame waiting at the drop point is admitted once the drop path can take it. -/
  | dropAdmit (side : Nat)
  /-- NET_DROP_STALL (R259): A drop frame has waited STALL_US and NET_DROP_STALL is raised. -/
  | netDropStall (side : Nat)
  /-- RESPONSE_RX (R148): A RESPONSE arrives for an open tag and the reorder buffer delivers it in issue order. -/
  | responseRx (queue : Nat)
  /-- NET_TAG_TO (R255): A tag open for TO_MS is closed and its request completes TAG_TIMEOUT. -/
  | netTagTo (tag : Nat)
  /-- DUP_ENTRY_EXPIRE (R261): A duplicate filter entry or DUP tag expires after DUP_US. -/
  | dupEntryExpire (src : Nat) (tag : Nat) (kind : Nat)
  /-- INTERRUPT_RX (R107): A MESSAGE INTERRUPT is written as a completion entry at the target and acknowledged with INT_ACK. -/
  | interruptRx (queue : Nat)
  /-- INT_ACK_RX (R255): An INT_ACK closes the message's tag and lets the source re-arm or send a merged message. -/
  | intAckRx (queue : Nat)
  /-- VECTOR_RX (R110): A MESSAGE VECTOR queues a vector for the interrupter. -/
  | vectorRx (queue : Nat)
  /-- BROADCAST_RX (R264): A broadcast set-up write is applied once at the node, if BCAST_EN is 1, and sent on. -/
  | broadcastRx (queue : Nat)
  /-- NET_JOIN_START (R262): With JOIN_EN and links up the node sends JOIN on ring A. -/
  | netJoinStart
  /-- JOIN_RX (R262): A JOIN is recorded in the node table and forwarded, or its return completes the node's join. -/
  | joinRx (queue : Nat)
  /-- JOIN_TIMEOUT (R262): JOIN_MS passes: an unreturned JOIN is resent and unannounced entries are cleared at rebuild. -/
  | joinTimeout
  /-- JOIN_DUP_RX (R263): A JOIN_DUP carrying the node's serial makes it DUPLICATE. -/
  | joinDupRx (queue : Nat)
  /-- WRAP_RX (R266): A WRAP is forwarded, and the partner's WRAP lets the node resend its held frames. -/
  | wrapRx (queue : Nat)
  /-- NET_WRAP_LOST (R266): No partner WRAP within HOLD_US discards the held frames. -/
  | netWrapLost (side : Nat)
  /-- UNWRAP_RX (R267): An UNWRAP is forwarded and the node re-announces its JOIN. -/
  | unwrapRx (queue : Nat)
  /-- ELECT_START (R269): A master-capable node enters CANDIDATE and sends ELECT. -/
  | electStart
  /-- ELECT_RX (R269): An ELECT is forwarded with a lower candidate substituted, or its return decides bellwether or follower. -/
  | electRx (queue : Nat)
  /-- ELECTED_RX (R270): ELECTED sets BWID and a bellwether with a higher ID becomes follower. -/
  | electedRx (queue : Nat)
  /-- ELECT_TIMEOUT (R269): ELECT_MS without ELECTED starts an election or repeats it with the next ROUND. -/
  | electTimeout
  /-- EPOCH_TX (R274): The bellwether sends an EPOCH packet on both rings every PERIOD_US. -/
  | epochTx
  /-- EPOCH_RX (R274): An EPOCH packet on the selected ring trims or steps epoch time and is sent on. -/
  | epochRx (queue : Nat)
  /-- NET_EPOCH_LOSS (R274): LOSS_N periods without an epoch packet clear VALID. -/
  | netEpochLoss
  /-- DELAY_MEASURE (R272): Every DLY_MS the node sends DELAY_REQ on each up link. -/
  | delayMeasure (side : Nat)
  /-- DELAY_REQ_RX (R272): A DELAY_REQ is answered with DELAY_RESP carrying arrival and departure times. -/
  | delayReqRx (queue : Nat)
  /-- DELAY_RESP_RX (R272): A DELAY_RESP completes one link delay measurement. -/
  | delayRespRx (queue : Nat)
  /-- NET_EPOCH_SET (R275): A write of NET_EPOCH_SET_HI at the bellwether requests an epoch step at its next epoch packet. -/
  | netEpochSet (value : Word) (node : Nat) (agent : Nat)
  /-- SERIAL_RX_CHAR (R288): A character is received on a serial port and fed to its framer, echo check or buffer. Whether the stop bit was zero and whether parity failed. -/
  | serialRxChar (port : Nat) (byte : Byte) (framing : Bool) (parity : Bool)
  /-- SERIAL_IDLE_TIMEOUT (R288): Line silence of IDLE_CH, T1.5 or T3.5 closes a frame or flags a gap. 0: IDLE_CH; 1: T1.5; 2: T3.5. -/
  | serialIdleTimeout (port : Nat) (kind : Nat)
  /-- SERIAL_TX_START (R280): A serial port pops the next whole packet and begins transmission, asserting DE in HALF wiring. -/
  | serialTxStart (port : Nat)
  /-- SERIAL_TX_DONE (R285): The last stop bit of a packet leaves the pin and its reply wait or confirmation begins. -/
  | serialTxDone (port : Nat)
  /-- SERIAL_DE_LAG_END (R285): LAG eighths of a bit after the last stop bit DE is negated. -/
  | serialDeLagEnd (port : Nat)
  /-- SP_ECHO (R286): The echo deadline passes without the transmitted character and the packet fails its echo check. -/
  | spEcho (port : Nat)
  /-- SP_NO_REPLY (R293): REPLY_MS passes without a reply frame and the turnaround ends. -/
  | spNoReply (port : Nat)
  /-- MODBUS_POLL_PERIOD (R294): PERIOD_MS passes and the poll script starts a pass or the period is skipped. -/
  | modbusPollPeriod (port : Nat)
  /-- SERIAL_DISABLE (R296): Writing SP_n_CTL.EN 0 stops the port after the character in progress. -/
  | serialDisable (port : Nat)
  /-- CAN_RX_FRAME (R300): A received CAN FD frame is filtered and buffered, then pushed to the receive fold. The frame word of R301 as received (its FILT field is ignored), and the data bytes. -/
  | canRxFrame (ctl : Nat) (word : Nat) (data : List Byte)
  /-- CAN_TX_START (R302): A controller takes frames from its send fold and contends for the bus. -/
  | canTxStart (ctl : Nat)
  /-- CAN_TX_DONE (R302): A frame is transmitted to end of frame and confirmed. -/
  | canTxDone (ctl : Nat)
  /-- CAN_TX_ERROR (R303): A transmission ends in error, updating counters, states and the retransmission limit. The kind of error, and whether ISO 11898-1 adds eight to TEC for it. -/
  | canTxError (ctl : Nat) (lec : Nat) (counts : Bool)
  /-- CAN_RECOVER (R303): A write of 1 to CF_n_CTL.RECOVER starts bus-off recovery. -/
  | canRecover (ctl : Nat)
  /-- CAN_RECOVERY_DONE (R303): 128 occurrences of 11 recessive bits complete bus-off recovery. -/
  | canRecoveryDone (ctl : Nat)
  /-- CAN_DISABLE (R304): Writing CF_n_CTL.EN 0 finishes the frame in progress and abandons buffered sends. -/
  | canDisable (ctl : Nat)
  /-- DC_FRAME_START (R307): A chain frame starts on the FREE period or a PSTEP phase crossing, carrying the output image. -/
  | dcFrameStart (chain : Nat)
  /-- DC_FRAME_END (R306): A chain frame ends: outputs latch, the input image and edge stamps update and readback is compared. The 128 levels captured at the frame's start, line i at bit i. -/
  | dcFrameEnd (chain : Nat) (din : Nat)
  /-- CAD_TICK (R317): The cadence position is updated in an EDGE cycle, checking releases, fires, gates and boundaries. -/
  | cadTick
  /-- CAD_ZC_EDGE (R319): An accepted rising edge on CAD_ZC is a valid mains crossing or is ignored. -/
  | cadZcEdge
  /-- CAD_ENC_COUNT (R320): An accepted change of A or B counts one forward or backward, or is an illegal transition. The accepted levels of A and B after the change. -/
  | cadEncCount (a : Bool) (b : Bool)
  /-- CAD_ENC_INDEX (R320): A rising index edge is checked against the count and corrected or treated as loss. -/
  | cadEncIndex
  /-- CAD_MAINS_LOSS (R321): No valid crossing within 1.5 periods and the mains source is lost. -/
  | cadMainsLoss
  /-- CAD_FALLBACK (R321): COAST_MS passes in COASTING and the unit enters FALLBACK. -/
  | cadFallback
  /-- CAD_SCH_COPY_DONE (R329): A schedule entry's descriptor copy from DDR4 to the shadow completes. -/
  | cadSchCopyDone (entry : Nat)
  /-- CAD_SCH_RELOAD (R329): A write of 1 to CAD_SCH_RELOAD copies every entry's descriptor. The writer. -/
  | cadSchReload (node : Nat) (agent : Nat)
  /-- CAD_MAX_MS (R323): MAX_MS after the previous boundary makes a period boundary. -/
  | cadMaxMs
  /-- BANK_RETIRE (R441): The old bank retires and is reloaded as the shadow once no task or lookup uses it. -/
  | bankRetire
  /-- STAT_SNAPSHOT_COPY (R331): A MAINT task copies the latched snapshot bank into the next statistics ring slot. -/
  | statSnapshotCopy
  /-- TWN_BEACON (R339): BEACON_MS passes and a BEACON is sent on every path to the peer. -/
  | twnBeacon
  /-- BEACON_RX (R339): A BEACON is received, updating T_heard, acknowledging an active holder or detecting conflict. The queue of taken packets: 0 side W, 1 side E, 2 the node itself, 3 link P. -/
  | beaconRx (queue : Nat)
  /-- LEASE_ACK_RX (R341): An ACK renews the holder's T_renew. -/
  | leaseAckRx (queue : Nat)
  /-- TWN_LEASE_LAPSE (R343): The holder's lease lapses and it fences or keeps the crook alone by HOLD_IN. -/
  | twnLeaseLapse
  /-- TWN_WAIT_END (R342): The standby's wait ends and it starts a claim if the conditions hold. -/
  | twnWaitEnd
  /-- TAKE_RX (R342): A TAKE from the peer is noted for claim arbitration. -/
  | takeRx (queue : Nat)
  /-- TWN_CLAIM_END (R342): The 3 ms claim wait ends and the device takes the crook or returns to STANDBY. -/
  | twnClaimEnd
  /-- TWN_FENCE_DONE (R343): Chain pins reach high impedance, CROOK clears and STATE becomes FENCED. -/
  | twnFenceDone
  /-- TWN_FENCE_REARM (R344): W passes since a fence with HOLD_EN set and the device becomes STANDBY. -/
  | twnFenceRearm
  /-- TWN_REARM (R344): A write of 1 to TWN_CTL.REARM moves FENCED to STANDBY. -/
  | twnRearm
  /-- TWN_RESUME (R342): A write of 1 to TWN_CTL.RESUME lets chains leave the post-takeover safe state. -/
  | twnResume
  /-- TWN_YIELD (R348): A write of 1 to TWN_CTL.YIELD starts a planned handover, or is refused without SYNC. -/
  | twnYield
  /-- TWN_YIELD_REFUSED (R348): No COMMITTED within LEASE_MS of the handover CLOSE returns the holder to ACTIVE. -/
  | twnYieldRefused
  /-- HANDOVER_RX (R348): A HANDOVER lets the standby take the crook after the claim. -/
  | handoverRx (queue : Nat)
  /-- TWN_HOLD_TOGGLE (R346): Every 250 µs a non-holder toggles HOLD_OUT. -/
  | twnHoldToggle
  /-- TWN_HOLD_IN_CLASSIFY (R346): A change on HOLD_IN, or 1 ms without one, reclassifies it as LOW, HIGH or ALIVE. The level, and whether it has changed within the last 1 ms. -/
  | twnHoldInClassify (level : Bool) (changed : Bool)
  /-- MIRROR_RECORD_RX (R352): A mirror RECORD is staged in the bank of its epoch or discarded. -/
  | mirrorRecordRx (queue : Nat)
  /-- MIRROR_CLOSE_RX (R352): A CLOSE is received and, when the epoch is intact, the standby starts committing it. -/
  | mirrorCloseRx (queue : Nat)
  /-- MIRROR_RECORD_WAIT_END (R352): LEASE_MS after a CLOSE with records still missing makes the epoch not intact. -/
  | mirrorRecordWaitEnd (epoch : Nat)
  /-- MIRROR_COMMIT_DONE (R353): The standby finishes applying an epoch's records and sends COMMITTED. -/
  | mirrorCommitDone
  /-- COMMITTED_RX (R354): COMMITTED completes the epoch's MIRROR_MARKs and a handover proceeds. -/
  | committedRx (queue : Nat)
  /-- RESYNC_RX (R357): A RESYNC makes the holder start a full copy at its next boundary. -/
  | resyncRx (queue : Nat)
  /-- MIRROR_QUEUE_SPACE (R349): A change waiting for mirror queue space enters the queue. -/
  | mirrorQueueSpace
  /-- FAULT_RAISE (R362): A fault reaches the chip collector and is merged, escalated, recorded and reacted to by severity. The oldest `count` faults raised reach the collector in one cycle. -/
  | faultRaise (count : Nat)
  /-- ERR_N_PULSE_END (R376): PULSE_US passes without a qualifying fault and the ERR_N pulse ends. -/
  | errNPulseEnd
  /-- FAULT_NOTE_AGE (R371): A NOTE entry clears itself once NOTE_AGE_MS has passed and PRESENT is 0. -/
  | faultNoteAge (entry : Nat)
  /-- FLT_ACT_CLEAR (R377): A write of 1 to VALID of an active entry clears it only while PRESENT is 0. -/
  | fltActClear (entry : Nat)
  /-- SAFE_EXIT (R366): A write of 1 to FLT_CTL.SAFE_EXIT leaves SAFE if no SAFE entry remains. -/
  | safeExit
  /-- UNFENCE (R366): A write of 1 to a bit of FLT_CTL.UNFENCE releases that region if no FENCE entry remains. The four bits of FLT_CTL.UNFENCE. -/
  | unfence (mask : Nat)
  /-- FLT_INJ_ARM (R379): A write of 1 to FLT_INJ.ARM injects inverted check bits into the named SRAM area or crossbar port. The word written and the writer. -/
  | fltInjArm (value : Word) (node : Nat) (agent : Nat)
  /-- REC_WRITE_DONE (R399): An MRAM write and its read-back end, advancing NEXT or repeating or failing the area. Whether the read-back was equal. -/
  | recWriteDone (good : Bool)
  /-- REC_SECOND_TICK (R390): Each MGMT second increments SECONDS and updates the control copies. -/
  | recSecondTick
  /-- REC_CLEAR_DONE (R398): Zeroing ends, CLEARED is written as record 0 and the LOG_CLEAR completes OK. -/
  | recClearDone
  /-- AUTH_HOLD_END (R397): The 10 s AUTH_HOLD after four failures ends. -/
  | authHoldEnd
  /-- REC_RETEST (R401): A write of 1 to REC_CTL.RETEST clears the area failure bits. -/
  | recRetest
  /-- REC_INJ_ARM (R404): A write of 1 to REC_INJ.ARM injects a check or read-back failure on the next record. The word written. -/
  | recInjArm (value : Word)
  /-- PWR_ENABLE (R406): PWR_CTL.EN rising writes the PMBus limits and image writes to every device. The word written and the writer. -/
  | pwrEnable (value : Word) (node : Nat) (agent : Nat)
  /-- PWR_SAMPLE_CYCLE (R407): Every 1 ms each PMBus port starts a sample cycle, counting missing samples of the previous one. -/
  | pwrSampleCycle
  /-- PMBUS_TRANSACTION_DONE (R408): A PMBus transaction completes, converting the reading and accumulating energy, or is retried. Cause 0 for completed, 1 NACK, 2 PEC, 3 timeout; the word or byte read. -/
  | pmbusTransactionDone (port : Nat) (cause : Nat) (word : Nat)
  /-- PMB_ALERT (R409): An accepted ALERT low makes the port read the responder's STATUS_WORD and clear its faults. -/
  | pmbAlert (port : Nat)
  /-- PWR_FEED_UV (R410): A change on a feed's UV input, after FILT_US, marks the feed low or not low. -/
  | pwrFeedUv (feed : Nat) (low : Bool)
  /-- PWR_FAIL_END (R411): A feed stays not low for CLR_US and the warning is withdrawn. -/
  | pwrFailEnd
  /-- SLOT_PRESENT_CHANGE (R413): An accepted change of SLOTn_PRESENT_N inserts or removes a module. -/
  | slotPresentChange (slot : Nat) (present : Bool)
  /-- SLOT_INSERT_SETTLED (R413): A module present for INS_MS makes an EMPTY slot ready to start. -/
  | slotInsertSettled (slot : Nat)
  /-- SLOT_START (R416): A ready slot raises EN_OUT and enters STARTING, subject to the stagger. -/
  | slotStart (slot : Nat)
  /-- SLOT_FAULT_IN (R414): An accepted change of FAULT_N or PG_IN starts or stops the fault timer or sets PG. -/
  | slotFaultIn (slot : Nat) (faultLow : Bool) (pgIn : Bool)
  /-- SLOT_TRIP (R415): The fault timer expires and the slot trips into RETRY. -/
  | slotTrip (slot : Nat)
  /-- SLOT_START_TIMEOUT (R415): START_MS in STARTING without PG trips the slot. -/
  | slotStartTimeout (slot : Nat)
  /-- SLOT_RETRY_EXPIRY (R415): The retry timer expires and the slot moves to OFF, HELD, STARTING or EMPTY. -/
  | slotRetryExpiry (slot : Nat)
  /-- SLOT_EN_WRITE (R413): A write of PWR_SLOTn_CTL.EN allows or removes power from a slot. The word written to PWR_SLOTn_CTL. -/
  | slotEnWrite (slot : Nat) (value : Word)
  /-- DROOP_DETECT (R419): VDD below 0.760 V switches CLK_CORE to 400 MHz. -/
  | droopDetect
  /-- DROOP_CLEAN (R420): CLEAN_US at or above 0.768 V returns CLK_CORE to 800 MHz. -/
  | droopClean
  /-- POWER_ON (R424): A supply below its threshold asserts POWER_ON, resetting every part. -/
  | powerOn
  /-- RESET_N (R424): RESET_N low holds every part except the recorder state in reset. -/
  | resetN
  /-- PERST_N (R424): PERST_N low at a head node holds the PCI Express endpoint in reset. -/
  | perstN
  /-- RING_CMD (R428): 20 µs after a RESET command's response the device resets itself for 10 µs. -/
  | ringCmd
  /-- CHIP_WDOG (R429): The chip watchdog expires after TO_MS and asserts the WATCHDOG reset. -/
  | chipWdog
  /-- RESET_RELEASE (R433): A reset releases, straps are sampled and bring-up enters its first stage. The code of the source released, and the strap levels. -/
  | resetRelease (source : Nat) (nid : Nat) (idsrc : Bool) (mcap : Bool) (syscon : Bool) (head : Bool) (primary : Bool) (monlock : Bool)
  /-- BOOT_LOAD_DONE (R433): The image is checked, DDR4 trained, drovers loaded and IMMEDIATE preloads applied. The two copies in the boot flash, the result of DDR4 training, and the writes of the PMBUS_WRITES section (device, command, value). -/
  | bootLoadDone (copyA : List Byte) (copyB : List Byte) (trained : Bool) (pmbus : List (Nat × Nat × Nat))
  /-- BOOT_STAGE_TIMEOUT (R433): STAGE_TO_MS passes in stage JOIN, ELECT or LOCK and bring-up moves on. -/
  | bootStageTimeout
  /-- BOOT_OPEN (R435): On entry to OPEN the OPEN preload entries are staged and LIVE entries held. -/
  | bootOpen
  /-- CHIP_HALT_WRITE (R436): A write of CHIP_HALT halts or releases halt groups. -/
  | chipHaltWrite (value : Word) (node : Nat) (agent : Nat)
  /-- HALT_DRAINED (R436): A halted group's work in progress ends and its HALTED bit is set. -/
  | haltDrained (group : Nat)
  /-- SVC_RX_CHAR (R446): A character on SVC_RX is echoed, edited or buffered, and CR ends the line. The character, and whether its stop bit was a one. -/
  | svcRxChar (c : Byte) (stop : Bool)
  /-- SVC_HELP (R450): Monitor command help lists the commands. -/
  | svcHelp
  /-- SVC_PEEK (R450): Monitor command peek reads set-up registers. -/
  | svcPeek
  /-- SVC_POKE (R450): Monitor command poke writes a set-up register, refused while locked. -/
  | svcPoke
  /-- SVC_LENS (R450): Monitor command lens shows an outbound or inbound lens's registers. -/
  | svcLens
  /-- SVC_FOLD (R450): Monitor command fold shows a fold's settings and counts. -/
  | svcFold
  /-- SVC_DROVER (R450): Monitor command drover shows live drovers or one drover's counters. -/
  | svcDrover
  /-- SVC_RING (R450): Monitor command ring shows link and network status. -/
  | svcRing
  /-- SVC_CAD (R450): Monitor command cad shows cadence state and position. -/
  | svcCad
  /-- SVC_FAULT (R450): Monitor command fault shows chip status and active entries. -/
  | svcFault
  /-- SVC_FAULT_CLR (R450): Monitor command fault clr clears an active entry, refused while locked. -/
  | svcFaultClr
  /-- SVC_LOG (R450): Monitor command log lists the newest recorder records. -/
  | svcLog
  /-- SVC_STAT (R450): Monitor command stat shows the last snapshot header. -/
  | svcStat
  /-- SVC_TWIN (R450): Monitor command twin shows twin state. -/
  | svcTwin
  /-- SVC_PWR (R450): Monitor command pwr shows power and slot status. -/
  | svcPwr
  /-- SVC_ATB_SET (R450): Monitor command atb with a node selects a test bus node, refused while locked. -/
  | svcAtbSet
  /-- SVC_ATB_READ (R450): Monitor command atb without a node converts a test bus once. The code the converter finds. -/
  | svcAtbRead (code : Nat)
  /-- SVC_LOCK (R448): Monitor command lock sets LOCKED. -/
  | svcLock
  /-- SVC_VER (R450): Monitor command ver shows identity, boot status and reset cause. -/
  | svcVer
  /-- SVC_LOCK_NOW (R448): A write of 1 to SVC_CTL.LOCK_NOW locks the monitor. The writer. -/
  | svcLockNow (node : Nat) (agent : Nat)
  /-- TST_ATB_WRITE (R451): A write of TST_ATB0 or TST_ATB1 connects an internal node to its test bus. The word written to TST_ATB0 or TST_ATB1, and the writer. -/
  | tstAtbWrite (bus : Nat) (value : Word) (node : Nat) (agent : Nat)
  /-- TST_ADC_START (R452): A write of 1 to TST_ADC.START begins a 10 µs conversion. The bus to convert, and the writer. -/
  | tstAdcStart (bus : Bool) (node : Nat) (agent : Nat)
  /-- TST_ADC_DONE (R452): A conversion ends, CODE updates and BUSY clears. The code the converter finds. -/
  | tstAdcDone (code : Nat)
  /-- TAP_RESET (R454): Test-Logic-Reset selects IDCODE and returns pins to their reset state. -/
  | tapReset
  /-- IDCODE (R454): JTAG instruction IDCODE shifts out 0x1941656F. -/
  | idcode
  /-- SAMPLE_PRELOAD (R454): JTAG instruction SAMPLE/PRELOAD captures and loads the boundary register. The levels captured and the bits shifted in. -/
  | samplePreload (pins : List Bool) (load : List Bool)
  /-- EXTEST (R454): JTAG instruction EXTEST drives pins from the boundary register. The levels captured and the bits shifted in. -/
  | extest (pins : List Bool) (load : List Bool)
  /-- CLAMP (R454): JTAG instruction CLAMP holds pins and selects bypass. -/
  | clamp
  /-- HIGHZ (R454): JTAG instruction HIGHZ floats the pins and selects bypass. -/
  | highz
  /-- ATB_SEL (R453): JTAG instruction ATB_SEL writes both test bus node fields at Update-DR. The 12 bits of the data register. -/
  | atbSel (value : Nat)
  /-- MFG_SECONDS (R393): JTAG instruction MFG_SECONDS raises SECONDS when the value is higher, writing SECONDS_RAISED. -/
  | mfgSeconds (value : Nat)
  /-- OTP_KEY (R455): JTAG instruction OTP_KEY programs the recorder key once while RESET_N is low. The 256 bits shifted in. -/
  | otpKey (key : List Byte)
  /-- BYPASS (R454): JTAG instruction BYPASS selects the 1-bit bypass register. The instruction code. -/
  | bypass (ir : Nat)
  /-- PLL_LOCK (R433): Every PLL locks after reset release, completing stage RESET so that LOAD begins and, at a head node, the endpoint may start link training. -/
  | pllLock
  /-- CLOCK_RECOVERED (R234): A training lane's PLL has locked and its receiver has recovered the clock and adapted its equalisation, completing training steps 1 and 2. -/
  | clockRecovered (lane : Nat)
  /-- BLOCK_LOCK (R246): A lane gains block lock after 64 valid sync headers, or loses it, which counts LOCK_LOSS and starts or stops the LOCK_US timer. -/
  | blockLock (lane : Nat) (gained : Bool)
  /-- PCIE_LINK_UP (R224): The PCI Express link trains up, setting LINK_UP, SPEED and WIDTH, so that host window accesses and MSI-X signalling become possible. -/
  | pcieLinkUp (speed : Nat) (width : Nat)
  /-- PCIE_CONFIG_REQUEST (R434): A configuration request from the root complex is answered with CRS until the end of LOAD, and otherwise sets fields such as Bus Master Enable, AtomicOp Requester Enable, Max Read Request Size and the power state. A read or write of the register at byte offset `reg`: its tag; the value a base address register is written with; the values of the fields after a write of any other register. -/
  | pcieConfigRequest (write : Bool) (tag : Nat) (reg : Nat) (value : Word) (bme : Bool) (enables : PcieEnables) (mrrs : Nat) (mps : Nat)
  /-- BAR4_TLP (R222): A memory TLP to BAR4 reads or writes the MSI-X table or pending bit array, masking or unmasking vectors as PCI Express Base 4.0 lays down. The bytes of a write, or the length of a read with its tag. -/
  | bar4Tlp (write : Bool) (tag : Nat) (offset : Nat) (len : Nat) (data : List Byte)
  /-- PCIE_FLOW_CONTROL_UPDATE (R224): The link partner returns posted-request credits, and a host window write waiting for them begins transmission. Counted in memory write TLPs. -/
  | pcieFlowControlUpdate (credits : Nat)
  /-- TAG_QUARANTINE_END (R255): A further TO_MS after a tag was closed by timeout, the tag becomes allocatable again and a request waiting for a free tag may proceed. -/
  | tagQuarantineEnd (tag : Nat)
  /-- CAN_RX_ERROR (R303): A CAN FD controller detects an error while receiving, raising REC and possibly setting WARN or PASSIVE and LEC. The kind of error, and what ISO 11898-1 adds to REC for it (1 or 8). -/
  | canRxError (ctl : Nat) (lec : Nat) (inc : Nat)
  /-- ARBITER_BCLR (R81): As system controller with BCLR_EN set, a bus request arriving at a higher level (PRI) or any other level (RRS) while the bus is held makes the arbiter assert BCLR. Whether another master holds the bus. -/
  | arbiterBclr (held : Bool)
  /-- FAIR_REQUEST (R72): With FAIR set, a waiting local owner's bus request is asserted once every other master has negated BRn at the device's level. -/
  | fairRequest
  /-- SERVICE_LOOP_COMPLETE (R429): The management processor completes its service loop and restarts the chip watchdog. -/
  | serviceLoopComplete
  deriving DecidableEq, Repr

end Sys2Proof
end

