-- ==== Sys2Proof/Machine/Address.lean ====
section
/-! DEFINITION. The fabric address and the node-local map (R28 to R38). -/

namespace Sys2Proof.Machine

/-- NODE of a fabric address: bits [58:48] (R28). -/
def faNode (a : Nat) : Nat := nbits a 58 48
/-- OFFSET of a fabric address: bits [47:0] (R28). -/
def faOffset (a : Nat) : Nat := a % 2 ^ 48
/-- Bits [63:59], zero in a valid address (R28, R29). -/
def faHigh (a : Nat) : Nat := nbits a 63 59
/-- A fabric address from its node and offset. -/
def faMake (node off : Nat) : Nat := (node % 2048) * 2 ^ 48 + off % 2 ^ 48

/-- The broadcast node (R30). -/
def bcastNode : Nat := 0x7FF

/-- The rows of the node-local map (R32) and the parts of field port space (R36). -/
inductive Region where
  | outbound
  | ddr
  | recvHead (h : Nat)
  | sendHead (h : Nat)
  | dcIn (n : Nat)
  | dcOut (n : Nat)
  | dcStamp (n : Nat)
  | setup
  | recorder
  | hostWin (seg : Nat)
  | reserved
  deriving DecidableEq, Repr

/-- The base of a row of R32, so that a request over two rows shows (R33). -/
def mapRow (off : Nat) : Nat :=
  if off ≤ 0x0FFFFFFFFF then 0
  else if off ≤ 0x13FFFFFFFF then 1
  else if off ≤ 0x1FFFFFFFFF then 2
  else if off ≤ 0x2000FFFFFF then 3
  else if off ≤ 0x2FFFFFFFFF then 4
  else if off ≤ 0x300000FFFF then 5
  else if off ≤ 0x3FFFFFFFFF then 6
  else if off ≤ 0x4000FFFFFF then 7
  else if off ≤ 0x7FFFFFFFFF then 8
  else if off ≤ 0xFFFFFFFFFF then 9
  else 10

/-- The part of field port space at a relative offset (R36). Heads are numbered as R179 numbers them. -/
def fieldPart (r : Nat) : Region :=
  if r < 0x400000 then
    let n := r / 0x10000
    let e := r % 0x10000
    if e < 0x1000 then .recvHead n else if e < 0x2000 then .sendHead (64 + n) else .reserved
  else if r < 0x500000 then
    let n := (r - 0x400000) / 0x10000
    let e := (r - 0x400000) % 0x10000
    if e < 0x1000 then .recvHead (128 + n) else if e < 0x2000 then .sendHead (144 + n) else .reserved
  else if r < 0x508000 then
    (if (r - 0x500000) % 0x1000 < 16 then .dcIn ((r - 0x500000) / 0x1000) else .reserved)
  else if r < 0x510000 then .reserved
  else if r < 0x518000 then
    (if (r - 0x510000) % 0x1000 < 16 then .dcOut ((r - 0x510000) / 0x1000) else .reserved)
  else if r < 0x520000 then .reserved
  else if r < 0x524000 then .dcStamp ((r - 0x520000) / 0x800)
  else .reserved

/-- The region of one offset. -/
def regionOf (off : Nat) : Region :=
  match mapRow off with
  | 0 => .outbound
  | 1 => .ddr
  | 3 => fieldPart (off - 0x2000000000)
  | 5 => .setup
  | 7 => .recorder
  | 9 => .hostWin ((off - 0x8000000000) / 0x1000000000)
  | _ => .reserved

/-- The packet class of a request (R25, R264): CTRL for a set-up access and for a broadcast, else the requester's `cls`. -/
def classOf (cls addr : Nat) : Nat :=
  if faNode addr = bcastNode ∨ regionOf (faOffset addr) = .setup then 0 else cls

/-- The bytes `off` to `off + len − 1` all lie in one row, and in one segment of the host window (R33). -/
def oneRow (off len : Nat) : Bool :=
  let last := off + (len - 1)
  decide (mapRow off = mapRow last) &&
    (if mapRow off = 9 then decide ((off - 0x8000000000) / 0x1000000000 = (last - 0x8000000000) / 0x1000000000)
     else true)

/-- An access R3 permits in set-up space: 4 bytes at a multiple of 4 or 8 bytes at a multiple of 8. -/
def setupSizeOk (off len : Nat) : Bool :=
  (decide (len = 4) && decide (off % 4 = 0)) || (decide (len = 8) && decide (off % 8 = 0))

end Sys2Proof.Machine
end

