-- ==== Sys2Proof/Machine/Descriptor.lean ====
section
/-! DEFINITION. The fields of a descriptor and what makes one malformed (R208 to R210). -/

namespace Sys2Proof.Machine

/-- A descriptor's word `i`. -/
def descWord (d : List Byte) (i : Nat) : Nat := leNum (slice d (8 * i) 8)

def dOp (d : List Byte) : Nat := nbits (descWord d 0) 63 56
def dClass (d : List Byte) : Nat := nbits (descWord d 0) 55 54
def dPh (d : List Byte) : Bool := (descWord d 0).testBit 53
def dHold (d : List Byte) : Bool := (descWord d 0).testBit 52
def dQuiet (d : List Byte) : Bool := (descWord d 0).testBit 51
def dInline (d : List Byte) : Bool := (descWord d 0).testBit 50
def dSub (d : List Byte) : Nat := nbits (descWord d 0) 47 40
def dLen (d : List Byte) : Nat := nbits (descWord d 0) 31 0
def dAddr (d : List Byte) : Nat := descWord d 1
def dBuf (d : List Byte) : Nat := descWord d 2
/-- OP0 to OP3. -/
def dOperand (d : List Byte) (i : Nat) : Nat := descWord d (3 + i)

/-- The highest SUBOP of an opcode; none for a code that R209 does not list. -/
def subopMax (op : Nat) : Option Nat :=
  if op ∈ [0x01, 0x02, 0x03, 0x04, 0x05, 0x10, 0x11, 0x14, 0x15, 0x20, 0x21, 0x22, 0x31, 0x40, 0x50] then some 0
  else if op = 0x12 ∨ op = 0x13 ∨ op = 0x32 then some 2
  else if op = 0x30 ∨ op = 0x41 then some 1
  else none

/-- LEN lies in the range of its opcode (R209). -/
def lenOk (op sub n : Nat) : Bool :=
  if op ∈ [0x01, 0x02, 0x03, 0x20] then decide (1 ≤ n ∧ n ≤ 4096)
  else if op = 0x04 ∨ op = 0x05 then decide (1 ≤ n ∧ n ≤ 16777215)
  else if op ∈ [0x10, 0x11, 0x12] then n == 1 || n == 2 || n == 4 || n == 8
  else if op = 0x21 then decide (16 ≤ n ∧ n ≤ 4096 ∧ n % 16 = 0)
  else if op = 0x31 then decide (32 ≤ n ∧ n ≤ 4096 ∧ n % 32 = 0)
  else if op = 0x40 ∨ (op = 0x30 ∧ sub = 0) then n == 4 || n == 8
  else n == 0

/-- Words 2 to 6 that an opcode names: BUF and OP0 to OP3 (R209). -/
def named (op sub : Nat) : List Nat :=
  if op ∈ [0x01, 0x02, 0x03, 0x04, 0x20, 0x31] then [2]
  else if op ∈ [0x05, 0x11, 0x22, 0x40, 0x50] then [3]
  else if op = 0x12 then (if sub = 2 then [3, 4] else [3])
  else if op = 0x21 then [2, 3]
  else if op = 0x32 then [2, 3, 4, 5, 6]
  else if op = 0x41 ∧ sub = 1 then [3]
  else []

/-- ADDR is a node with every other bit zero, or zero, where R209 asks for it. -/
def addrOk (op sub addr : Nat) : Bool :=
  if op = 0x14 ∨ (op = 0x13 ∧ sub ≠ 0) then addr == 0
  else if op ∈ [0x13, 0x15, 0x22, 0x32, 0x41, 0x50] ∨ (op = 0x30 ∧ sub = 1) then addr == faNode addr * 2 ^ 48
  else true

/-- The descriptor is malformed (R210). -/
def descBad (d : List Byte) : Bool :=
  let op := dOp d
  let sub := dSub d
  let inl := dInline d
  let ok := fun i => (named op sub).contains i || (inl && (i == 2 || i == 3 || i == 4)) || descWord d i == 0
  !((match subopMax op with | some m => decide (sub ≤ m) | none => false) && decide (dClass d ≠ 3) &&
    lenOk op sub (dLen d) &&
    decide (nbits (descWord d 0) 49 48 = 0) && decide (nbits (descWord d 0) 39 32 = 0) && decide (nbits (descWord d 7) 15 0 = 0) &&
    [2, 3, 4, 5, 6].all ok &&
    (!(op == 0x21 || op == 0x22 || op == 0x41) || decide (dOperand d 0 < 2 ^ 32)) &&
    (!inl || (decide (dLen d ≤ 16) && (op == 0x02 || op == 0x03 || op == 0x20))) &&
    addrOk op sub (dAddr d) && (op != 0x15 || dPh d))

end Sys2Proof.Machine
end

