-- ==== Sys2Proof/Config.lean ====
section
/-! DEFINITION. The free values: what the spec leaves open, as constants without a body. -/

namespace Sys2Proof.Config

/-- A value the spec leaves undefined. The machine applies it to a counter that rises at each use, so nothing relates one
use to another and no proof can see a value (log entry 6). -/
opaque freeValue (w : Nat) : Nat → BitVec w

end Sys2Proof.Config
end

