-- ==== Sys2Proof/Machine/FaultCodes.lean ====
section
/-! DEFINITION. The fault codes of R380 with their default severities, the record codes of R403 and the source numbers
of R360 and R494. -/

namespace Sys2Proof.Machine

def Code.ADR_FORMAT : Nat := 0x0101
def Code.ADR_BCAST : Nat := 0x0102
def Code.ADR_SPAN : Nat := 0x0103
def Code.ADR_RESERVED : Nat := 0x0104
def Code.ADR_NO_LENS : Nat := 0x0105
def Code.ADR_DDR_ABSENT : Nat := 0x0106
def Code.ADR_RECORDER : Nat := 0x0107
def Code.ADR_HOST_WINDOW : Nat := 0x0108
def Code.ADR_SETUP : Nat := 0x0109
def Code.ADR_ATOMIC : Nat := 0x010A
def Code.ADR_SAFE : Nat := 0x010B
def Code.CFG_LATE : Nat := 0x0201
def Code.CFG_RANGE : Nat := 0x0202
def Code.CFG_LENS : Nat := 0x0203
def Code.CFG_FOLD : Nat := 0x0204
def Code.CFG_COMMIT_WAIT : Nat := 0x0205
def Code.VME_ATOMIC_WIDTH : Nat := 0x0301
def Code.VME_BERR_OUT : Nat := 0x0302
def Code.VME_BTO_OUT : Nat := 0x0303
def Code.VME_DATA_TO : Nat := 0x0304
def Code.VME_ARB_TO : Nat := 0x0305
def Code.VME_RETRY_OUT : Nat := 0x0306
def Code.VME_MASTER_OFF : Nat := 0x0307
def Code.VME_POSTED_LOST : Nat := 0x0308
def Code.VME_IN_UNSUPP : Nat := 0x0309
def Code.VME_IN_RMW_LOST : Nat := 0x030A
def Code.VME_IN_POSTED_LOST : Nat := 0x030B
def Code.VME_HOLD_TO : Nat := 0x030C
def Code.VME_RSLOT_DISCARD : Nat := 0x030D
def Code.VME_IN_ABANDON : Nat := 0x030E
def Code.VME_LOOP : Nat := 0x030F
def Code.VME_IACK_BERR : Nat := 0x0310
def Code.VME_IRT_OFF : Nat := 0x0311
def Code.VME_IRQ_NOACK : Nat := 0x0312
def Code.LNS_PARITY : Nat := 0x0401
def Code.DRV_TASK_BAD : Nat := 0x0501
def Code.DRV_PLACE_EMPTY : Nat := 0x0502
def Code.DRV_STILE_SKIP : Nat := 0x0503
def Code.DRV_WDOG : Nat := 0x0504
def Code.DRV_MEM_UE : Nat := 0x0505
def Code.DRV_TRAP : Nat := 0x0506
def Code.DRV_RELOAD_FAIL : Nat := 0x0507
def Code.DRV_REMOVED : Nat := 0x0508
def Code.WC_FLUSH_LOST : Nat := 0x0601
def Code.FLD_SPLIT : Nat := 0x0701
def Code.FLD_PTR : Nat := 0x0702
def Code.HST_RING_ERR : Nat := 0x0801
def Code.HST_FETCH_ERR : Nat := 0x0802
def Code.HST_DESC_BAD : Nat := 0x0803
def Code.HST_CQ_FULL : Nat := 0x0804
def Code.HST_CQ_OFF : Nat := 0x0805
def Code.HST_B2_WRLOST : Nat := 0x0806
def Code.HST_HOST_ABORT : Nat := 0x0807
def Code.HST_ATOMIC_OFF : Nat := 0x0808
def Code.DDR_CE : Nat := 0x0901
def Code.DDR_UE : Nat := 0x0902
def Code.LNK_TRAIN_FAIL : Nat := 0x0A01
def Code.LNK_MISWIRE : Nat := 0x0A02
def Code.LNK_FRAME_BAD : Nat := 0x0A03
def Code.LNK_CRC_ESCAPE : Nat := 0x0A04
def Code.LNK_RETRY_FAIL : Nat := 0x0A05
def Code.LNK_LANE_DOWN : Nat := 0x0A06
def Code.LNK_LANE_UP : Nat := 0x0A07
def Code.LNK_DOWN : Nat := 0x0A08
def Code.NET_PKT_BAD : Nat := 0x0B01
def Code.NET_TAG_TO : Nat := 0x0B02
def Code.NET_DROP_STALL : Nat := 0x0B03
def Code.NET_ID_BAD : Nat := 0x0B04
def Code.NET_DUP_ID : Nat := 0x0B05
def Code.NET_NO_NODE : Nat := 0x0B06
def Code.NET_WRAP : Nat := 0x0B07
def Code.NET_WRAP_LOST : Nat := 0x0B08
def Code.NET_NO_BELLWETHER : Nat := 0x0B09
def Code.NET_EPOCH_ASYM : Nat := 0x0B0A
def Code.NET_EPOCH_STEP : Nat := 0x0B0B
def Code.NET_EPOCH_LOSS : Nat := 0x0B0C
def Code.SP_ECHO : Nat := 0x0C01
def Code.SP_OVERRUN : Nat := 0x0C02
def Code.SP_TX_BAD : Nat := 0x0C03
def Code.SP_NO_REPLY : Nat := 0x0C04
def Code.SP_POLL_SKIP : Nat := 0x0C05
def Code.SP_POLL_FAIL : Nat := 0x0C06
def Code.SP_MB_EXCEPT : Nat := 0x0C07
def Code.SP_POLL_BAD : Nat := 0x0C08
def Code.CF_RX_OVR : Nat := 0x0D01
def Code.CF_TX_BAD : Nat := 0x0D02
def Code.CF_WARN : Nat := 0x0D03
def Code.CF_ERR_PASSIVE : Nat := 0x0D04
def Code.CF_TX_ABANDON : Nat := 0x0D05
def Code.CF_BUS_OFF : Nat := 0x0D06
def Code.DC_OVERRUN : Nat := 0x0E01
def Code.DC_MISMATCH : Nat := 0x0E02
def Code.CAD_ZC_BAD : Nat := 0x0F01
def Code.CAD_QERR : Nat := 0x0F02
def Code.CAD_IDX_SLIP : Nat := 0x0F03
def Code.CAD_LOSS : Nat := 0x0F04
def Code.CAD_FALLBACK : Nat := 0x0F05
def Code.CAD_RELOCK : Nat := 0x0F06
def Code.CAD_STEP : Nat := 0x0F07
def Code.CAD_PSUPP : Nat := 0x0F08
def Code.CAD_HOLD_FULL : Nat := 0x0F09
def Code.TWN_NOT_HOLDER : Nat := 0x1001
def Code.TWN_CFG_MISMATCH : Nat := 0x1002
def Code.TWN_TAKEOVER : Nat := 0x1003
def Code.TWN_HOLD_STUCK : Nat := 0x1004
def Code.TWN_PEER_LOST : Nat := 0x1005
def Code.TWN_FENCE : Nat := 0x1006
def Code.TWN_CONFLICT : Nat := 0x1007
def Code.TWN_PEER_DOWN : Nat := 0x1008
def Code.TWN_YIELD_REFUSED : Nat := 0x1009
def Code.TWN_STAGE_FULL : Nat := 0x100A
def Code.TWN_EPOCH_BAD : Nat := 0x100B
def Code.REC_P_FAIL : Nat := 0x1101
def Code.REC_C_FAIL : Nat := 0x1102
def Code.REC_BOTH_FAIL : Nat := 0x1103
def Code.REC_AUTH_FAIL : Nat := 0x1104
def Code.PWR_PMBUS : Nat := 0x1201
def Code.PWR_FEED_LOW : Nat := 0x1202
def Code.PWR_FEED_EVENT : Nat := 0x1203
def Code.PWR_SLOT_TRIP : Nat := 0x1204
def Code.PWR_SLOT_PRESENT : Nat := 0x1205
def Code.PWR_FAIL_WARN : Nat := 0x1206
def Code.PWR_FAIL_END : Nat := 0x1207
def Code.CLK_DROOP : Nat := 0x1208
def Code.CHIP_SRAM_CE : Nat := 0x1301
def Code.CHIP_SRAM_UE : Nat := 0x1302
def Code.CHIP_XBAR_PARITY : Nat := 0x1303
def Code.CHIP_SAFE_DISCARD : Nat := 0x1304
def Code.CHIP_WDOG : Nat := 0x1305
def Code.CHIP_IMAGE_BAD : Nat := 0x1306
def Code.CHIP_RESET_CMD : Nat := 0x1307
def Code.SVC_UNLOCK : Nat := 0x1401
def Code.FLT_CHIP_STAT : Nat := 0x8008
def RecCode.POWER_ON : Nat := 0xF001
def RecCode.WRITES_DISCARDED : Nat := 0xF002
def RecCode.PF_DRAIN : Nat := 0xF003
def RecCode.CLEARED : Nat := 0xF004
def RecCode.RECORDS_LOST : Nat := 0xF005
def RecCode.SECONDS_RAISED : Nat := 0xF006

/-- Severities of R362. -/
def Sev.IGNORE : Nat := 0
def Sev.NOTE : Nat := 1
def Sev.WARN : Nat := 2
def Sev.DEGRADE : Nat := 3
def Sev.FENCE : Nat := 4
def Sev.SAFE : Nat := 5

/-- Codes 0x01xx with their default severity (R380). -/
def codes01 : List (Nat × Nat) :=
  [(0x0101, 1), (0x0102, 1), (0x0103, 1), (0x0104, 1), (0x0105, 1), (0x0106, 1), (0x0107, 1), (0x0108, 1), (0x0109, 1), (0x010A, 1), (0x010B, 1)]
/-- Codes 0x02xx with their default severity (R380). -/
def codes02 : List (Nat × Nat) :=
  [(0x0201, 2), (0x0202, 2), (0x0203, 2), (0x0204, 2), (0x0205, 1)]
/-- Codes 0x03xx with their default severity (R380). -/
def codes03 : List (Nat × Nat) :=
  [(0x0301, 1), (0x0302, 1), (0x0303, 1), (0x0304, 2), (0x0305, 2), (0x0306, 1), (0x0307, 1), (0x0308, 2), (0x0309, 1), (0x030A, 1), (0x030B, 2), (0x030C, 1), (0x030D, 2), (0x030E, 1), (0x030F, 2), (0x0310, 1), (0x0311, 2), (0x0312, 2)]
/-- Codes 0x04xx with their default severity (R380). -/
def codes04 : List (Nat × Nat) :=
  [(0x0401, 3)]
/-- Codes 0x05xx with their default severity (R380). -/
def codes05 : List (Nat × Nat) :=
  [(0x0501, 2), (0x0502, 2), (0x0503, 2), (0x0504, 2), (0x0505, 2), (0x0506, 2), (0x0507, 3), (0x0508, 3)]
/-- Codes 0x06xx with their default severity (R380). -/
def codes06 : List (Nat × Nat) :=
  [(0x0601, 2)]
/-- Codes 0x07xx with their default severity (R380). -/
def codes07 : List (Nat × Nat) :=
  [(0x0701, 1), (0x0702, 2)]
/-- Codes 0x08xx with their default severity (R380). -/
def codes08 : List (Nat × Nat) :=
  [(0x0801, 2), (0x0802, 2), (0x0803, 1), (0x0804, 1), (0x0805, 2), (0x0806, 2), (0x0807, 2), (0x0808, 1)]
/-- Codes 0x09xx with their default severity (R380). -/
def codes09 : List (Nat × Nat) :=
  [(0x0901, 1), (0x0902, 2)]
/-- Codes 0x0Axx with their default severity (R380). -/
def codes0A : List (Nat × Nat) :=
  [(0x0A01, 2), (0x0A02, 2), (0x0A03, 1), (0x0A04, 2), (0x0A05, 2), (0x0A06, 3), (0x0A07, 1), (0x0A08, 2)]
/-- Codes 0x0Bxx with their default severity (R380). -/
def codes0B : List (Nat × Nat) :=
  [(0x0B01, 1), (0x0B02, 2), (0x0B03, 2), (0x0B04, 2), (0x0B05, 2), (0x0B06, 1), (0x0B07, 2), (0x0B08, 2), (0x0B09, 2), (0x0B0A, 2), (0x0B0B, 1), (0x0B0C, 2)]
/-- Codes 0x0Cxx with their default severity (R380). -/
def codes0C : List (Nat × Nat) :=
  [(0x0C01, 2), (0x0C02, 1), (0x0C03, 1), (0x0C04, 1), (0x0C05, 1), (0x0C06, 1), (0x0C07, 1), (0x0C08, 2)]
/-- Codes 0x0Dxx with their default severity (R380). -/
def codes0D : List (Nat × Nat) :=
  [(0x0D01, 1), (0x0D02, 1), (0x0D03, 1), (0x0D04, 2), (0x0D05, 2), (0x0D06, 2)]
/-- Codes 0x0Exx with their default severity (R380). -/
def codes0E : List (Nat × Nat) :=
  [(0x0E01, 2), (0x0E02, 2)]
/-- Codes 0x0Fxx with their default severity (R380). -/
def codes0F : List (Nat × Nat) :=
  [(0x0F01, 1), (0x0F02, 1), (0x0F03, 1), (0x0F04, 2), (0x0F05, 2), (0x0F06, 1), (0x0F07, 1), (0x0F08, 1), (0x0F09, 2)]
/-- Codes 0x10xx with their default severity (R380). -/
def codes10 : List (Nat × Nat) :=
  [(0x1001, 1), (0x1002, 2), (0x1003, 2), (0x1004, 2), (0x1005, 2), (0x1006, 2), (0x1007, 2), (0x1008, 2), (0x1009, 1), (0x100A, 2), (0x100B, 2)]
/-- Codes 0x11xx with their default severity (R380). -/
def codes11 : List (Nat × Nat) :=
  [(0x1101, 2), (0x1102, 2), (0x1103, 2), (0x1104, 2)]
/-- Codes 0x12xx with their default severity (R380). -/
def codes12 : List (Nat × Nat) :=
  [(0x1201, 2), (0x1202, 2), (0x1203, 2), (0x1204, 2), (0x1205, 1), (0x1206, 2), (0x1207, 1), (0x1208, 1)]
/-- Codes 0x13xx with their default severity (R380). -/
def codes13 : List (Nat × Nat) :=
  [(0x1301, 1), (0x1302, 5), (0x1303, 5), (0x1304, 2), (0x1305, 2), (0x1306, 2), (0x1307, 1)]
/-- Codes 0x14xx with their default severity (R380). -/
def codes14 : List (Nat × Nat) :=
  [(0x1401, 1)]

/-- The codes R380 assigns under one high byte. -/
def codesOf (high : Nat) : List (Nat × Nat) :=
  if high = 0x01 then codes01
  else if high = 0x02 then codes02
  else if high = 0x03 then codes03
  else if high = 0x04 then codes04
  else if high = 0x05 then codes05
  else if high = 0x06 then codes06
  else if high = 0x07 then codes07
  else if high = 0x08 then codes08
  else if high = 0x09 then codes09
  else if high = 0x0A then codes0A
  else if high = 0x0B then codes0B
  else if high = 0x0C then codes0C
  else if high = 0x0D then codes0D
  else if high = 0x0E then codes0E
  else if high = 0x0F then codes0F
  else if high = 0x10 then codes10
  else if high = 0x11 then codes11
  else if high = 0x12 then codes12
  else if high = 0x13 then codes13
  else if high = 0x14 then codes14
  else []

/-- The default severity of a code; none where R380 does not assign the code (R462). -/
def defaultSev (code : Nat) : Option Nat :=
  match (codesOf (code / 256)).find? (fun p => p.1 == code) with
  | some p => some p.2
  | none => none

/-- A 12-bit source number: area [11:9], block [8:3], cell [2:0] (R360). -/
def srcNum (area block cell : Nat) : Nat := area * 512 + block * 8 + cell

def Src.lane (l : Nat) : Nat := srcNum 0 0 l
def Src.link (k : Nat) : Nat := srcNum 0 1 k
def Src.forward (side : Nat) : Nat := srcNum 0 2 side
def Src.packet : Nat := srcNum 0 3 0
def Src.epoch : Nat := srcNum 0 4 0
def Src.twin : Nat := srcNum 0 5 0
def Src.pcie : Nat := srcNum 1 0 0
def Src.fetcher : Nat := srcNum 1 1 0
def Src.ddr : Nat := srcNum 1 2 0
def Src.drover (d : Nat) : Nat := srcNum 2 (d / 8) (d % 8)
def Src.fold (f : Nat) : Nat := srcNum 2 8 (f % 8)
def Src.lensCache : Nat := srcNum 2 9 0
def Src.combining : Nat := srcNum 2 10 0
def Src.stile : Nat := srcNum 2 11 0
def Src.lnso (n : Nat) : Nat := srcNum 2 (12 + n / 8) (n % 8)
def Src.lnsi (n : Nat) : Nat := srcNum 2 (20 + n / 8) (n % 8)
def Src.vmeMaster : Nat := srcNum 3 0 0
def Src.vmeSlave : Nat := srcNum 3 0 1
def Src.vmeIh : Nat := srcNum 3 0 2
def Src.vmeIntr : Nat := srcNum 3 0 3
def Src.vmeSys : Nat := srcNum 3 0 4
def Src.serial (n : Nat) : Nat := srcNum 3 (1 + n / 8) (n % 8)
def Src.can (n : Nat) : Nat := srcNum 3 (9 + n / 8) (n % 8)
def Src.chain (n : Nat) : Nat := srcNum 3 11 n
def Src.cadence : Nat := srcNum 3 12 0
def Src.feed (f : Nat) : Nat := srcNum 3 13 f
def Src.pmbus : Nat := srcNum 3 13 2
def Src.slot (n : Nat) : Nat := srcNum 3 14 n
def Src.collector : Nat := srcNum 4 0 0
def Src.recorder : Nat := srcNum 4 1 0
def Src.mgmt : Nat := srcNum 4 2 0
def Src.monitor : Nat := srcNum 4 3 0
def Src.droop : Nat := srcNum 4 4 0
def Src.setup : Nat := srcNum 4 5 0
def Src.sram (area : Nat) : Nat := srcNum 4 6 area
def Src.xbar (port : Nat) : Nat := srcNum 4 7 port

end Sys2Proof.Machine
end

