-- ==== Sys2Proof/Machine/Registers.lean ====
section
/-! DEFINITION. The set-up register map (R471): every register with its offset, its reset value and its fields.

One row stands for every register the map lists at once (index `i` with `stride`, index `j` with `stride2`).
A window register exists once per entry of its selector (R461); its key is `winKey`. Each field carries its access
type (R4), its configuration class (R8) and the lowest and highest value R9 accepts. The rows follow the field tables
of the chapters that own the registers. -/

namespace Sys2Proof.Machine

/-- Access type of a field (R4). -/
inductive Acc where | ro | rw | w1c | wo | rc
  deriving DecidableEq, Repr

/-- Configuration class of a field (R8); `fixed` where the table gives none. -/
inductive Cls where | fixed | static | staged | live
  deriving DecidableEq, Repr

/-- A field of a row: bits [hi:lo], its access, its class, and the values R9 accepts. -/
structure FieldRow where
  hi : Nat
  lo : Nat
  acc : Acc
  cls : Cls
  min : Nat
  max : Nat
  deriving DecidableEq, Repr

/-- The selector through which a register is seen (R461). -/
inductive Win where
  | plain | ntSel | crSel | cqSel | fldSel | schSel | sevSel | aSel | hSel | measSel
  deriving DecidableEq, Repr

/-- A row of the map. -/
structure RegRow where
  base : Nat
  stride : Nat
  count : Nat
  stride2 : Nat
  count2 : Nat
  win : Win
  reset : Nat
  fields : List FieldRow
  deriving DecidableEq, Repr

/-- The key of a register: its offset, or for a window register its offset beside the entry shown. -/
def winKey (off entry : Nat) : Nat := (entry + 1) * 0x10000 + off

/-- The offset part of a key. -/
def keyOff (key : Nat) : Nat := key % 0x10000

/-- A row for a register that stands once. -/
def reg1 (base : Nat) (win : Win) (reset : Nat) (fields : List FieldRow) : RegRow :=
  ⟨base, 0, 1, 0, 1, win, reset, fields⟩

/-- A field that accepts every value of its width. -/
def fld (hi lo : Nat) (acc : Acc) (cls : Cls) : FieldRow := ⟨hi, lo, acc, cls, 0, 2 ^ (hi - lo + 1) - 1⟩

/-- A field with a stated range (R9). -/
def fldR (hi lo : Nat) (acc : Acc) (cls : Cls) (min max : Nat) : FieldRow := ⟨hi, lo, acc, cls, min, max⟩

/-- A counter register: one 32-bit RC field (R11). -/
def ctr : List FieldRow := [fld 31 0 .rc .fixed]

/-- The chip rows. -/
def chipRegs : List RegRow := [
  -- CHIP_ID (R464)
  reg1 0x0 .plain 0x6D3A9416 [fld 31 16 .ro .fixed, fld 15 0 .ro .fixed],
  -- CHIP_REV (R465)
  reg1 0x4 .plain 0x10000102 [fld 31 28 .ro .fixed, fld 15 8 .ro .fixed, fld 7 0 .ro .fixed],
  -- CHIP_SERIAL_LO (R466)
  reg1 0x8 .plain 0x0 [fld 31 0 .ro .fixed],
  -- CHIP_SERIAL_HI (R466)
  reg1 0xC .plain 0x0 [fld 15 0 .ro .fixed],
  -- CHIP_STRAP (R467)
  reg1 0x10 .plain 0x0 [fld 31 31 .ro .fixed, fld 30 30 .ro .fixed, fld 29 29 .ro .fixed, fld 28 28 .ro .fixed, fld 27 27 .ro .fixed, fld 26 26 .ro .fixed, fld 10 0 .ro .fixed],
  -- CHIP_CTL (R468)
  reg1 0x14 .plain 0x80000000 [fld 31 31 .rw .live],
  -- CHIP_SCRATCHi (R469)
  ⟨0x20, 0x4, 4, 0x0, 1, .plain, 0x0, [fld 31 0 .rw .live]⟩,
  -- CHIP_ARBW_LINK_LO (R19)
  reg1 0x200 .plain 0x4444 [fld 15 12 .rw .live, fld 11 8 .rw .live, fld 7 4 .rw .live, fld 3 0 .rw .live],
  -- CHIP_ARBW_LINK_HI (R19)
  reg1 0x204 .plain 0x0 [],
  -- CHIP_ARBW_HOST_LO (R19)
  reg1 0x208 .plain 0x444 [fld 11 8 .rw .live, fld 7 4 .rw .live, fld 3 0 .rw .live],
  -- CHIP_ARBW_HOST_HI (R19)
  reg1 0x20C .plain 0x0 [],
  -- CHIP_ARBW_CORE_LO (R19)
  reg1 0x210 .plain 0x44444444 [fld 31 28 .rw .live, fld 27 24 .rw .live, fld 23 20 .rw .live, fld 19 16 .rw .live, fld 15 12 .rw .live, fld 11 8 .rw .live, fld 7 4 .rw .live, fld 3 0 .rw .live],
  -- CHIP_ARBW_CORE_HI (R19)
  reg1 0x214 .plain 0x4444 [fld 15 12 .rw .live, fld 11 8 .rw .live, fld 7 4 .rw .live, fld 3 0 .rw .live],
  -- CHIP_ARBW_EDGE_LO (R19)
  reg1 0x218 .plain 0x44444444 [fld 31 28 .rw .live, fld 27 24 .rw .live, fld 23 20 .rw .live, fld 19 16 .rw .live, fld 15 12 .rw .live, fld 11 8 .rw .live, fld 7 4 .rw .live, fld 3 0 .rw .live],
  -- CHIP_ARBW_EDGE_HI (R19)
  reg1 0x21C .plain 0x444444 [fld 23 20 .rw .live, fld 19 16 .rw .live, fld 15 12 .rw .live, fld 11 8 .rw .live, fld 7 4 .rw .live, fld 3 0 .rw .live],
  -- CHIP_XBAR_CREDIT (R21)
  reg1 0x220 .plain 0x10101010 [fldR 28 24 .rw .staged 4 22, fldR 20 16 .rw .staged 4 22, fldR 12 8 .rw .staged 4 22, fldR 4 0 .rw .staged 4 22],
  -- CHIP_ORD_CTL (R176)
  reg1 0x300 .plain 0xFFFE03E8 [fld 31 24 .rw .static, fld 23 16 .rw .static, fldR 15 0 .rw .live 1 65535],
  -- CHIP_WC_CTL (R176)
  reg1 0x304 .plain 0x80400014 [fld 31 31 .rw .live, fldR 22 16 .rw .static 1 64, fldR 7 0 .rw .live 1 255],
  -- CHIP_WC_STAT (R176)
  reg1 0x308 .plain 0x0 [fld 14 8 .rc .fixed, fld 6 0 .ro .fixed],
  -- CHIP_CLM_CTL (R176)
  reg1 0x30C .plain 0x3E8 [fldR 15 0 .rw .live 1 65535],
  -- CHIP_CLM_STAT (R176)
  reg1 0x310 .plain 0x0 [fld 25 16 .ro .fixed, fld 9 0 .rc .fixed],
  -- CHIP_LC_CTL (R176)
  reg1 0x314 .plain 0x0 [fld 31 31 .rw .live, fld 30 30 .wo .live],
  -- CHIP_LC_STAT (R176)
  reg1 0x318 .plain 0x0 [fld 15 0 .ro .fixed],
  -- CHIP_PF_CTL (R176)
  reg1 0x31C .plain 0x5DC [fldR 10 0 .rw .live 100 1800],
  -- CHIP_PF_STAT (R176)
  reg1 0x320 .plain 0x0 [fld 31 30 .ro .fixed],
  -- CHIP_CNT_LC_HIT (R176)
  reg1 0x340 .plain 0x0 ctr,
  -- CHIP_CNT_LC_MISS (R176)
  reg1 0x344 .plain 0x0 ctr,
  -- CHIP_CNT_LC_TTL (R176)
  reg1 0x348 .plain 0x0 ctr,
  -- CHIP_CNT_LC_SNOOP_INV (R176)
  reg1 0x34C .plain 0x0 ctr,
  -- CHIP_CNT_LC_INV_ALL (R176)
  reg1 0x350 .plain 0x0 ctr,
  -- CHIP_CNT_CLM_OK (R176)
  reg1 0x354 .plain 0x0 ctr,
  -- CHIP_CNT_CLM_LOST (R176)
  reg1 0x358 .plain 0x0 ctr,
  -- CHIP_CNT_WC_FLUSH (R176)
  reg1 0x35C .plain 0x0 ctr,
  -- CHIP_CNT_WC_LOST_BYTES (R176)
  reg1 0x360 .plain 0x0 ctr,
  -- CHIP_CNT_DONE_OK (R176)
  reg1 0x364 .plain 0x0 ctr,
  -- CHIP_CNT_DONE_FAIL (R176)
  reg1 0x368 .plain 0x0 ctr,
  -- CHIP_CNT_PF_LOST_BYTES (R176)
  reg1 0x36C .plain 0x0 ctr]

/-- The boot rows. -/
def bootRegs : List RegRow := [
  -- CHIP_RST_CAUSE (R443)
  reg1 0x400 .plain 0x1000001 [fld 31 24 .ro .fixed, fld 4 0 .w1c .fixed],
  -- CHIP_BOOT_STAT (R443)
  reg1 0x404 .plain 0x0 [fld 31 29 .ro .fixed, fld 28 28 .ro .fixed, fld 27 27 .ro .fixed, fld 26 26 .ro .fixed, fld 25 25 .ro .fixed, fld 24 24 .ro .fixed, fld 23 23 .ro .fixed, fld 15 0 .ro .fixed],
  -- CHIP_BOOT_TIME (R443)
  reg1 0x408 .plain 0x0 [fld 15 0 .ro .fixed],
  -- CHIP_WDOG (R443)
  reg1 0x40C .plain 0x80000064 [fld 31 31 .rw .static, fldR 15 0 .rw .static 10 65535],
  -- CHIP_HALT (R443)
  reg1 0x410 .plain 0x0 [fld 6 0 .rw .live],
  -- CHIP_HALTED (R443)
  reg1 0x414 .plain 0x0 [fld 6 0 .ro .fixed],
  -- CHIP_COMMIT_CTL (R443)
  reg1 0x418 .plain 0x0 [fld 31 31 .rw .live],
  -- CHIP_COMMIT_STAT (R443)
  reg1 0x41C .plain 0x0 [fld 31 31 .ro .fixed, fld 30 30 .ro .fixed, fld 29 29 .ro .fixed, fld 28 28 .ro .fixed, fld 27 24 .ro .fixed],
  -- CHIP_COMMIT_LAST_LO (R443)
  reg1 0x420 .plain 0x0 [fld 31 0 .ro .fixed],
  -- CHIP_COMMIT_LAST_HI (R443)
  reg1 0x424 .plain 0x0 [fld 31 0 .ro .fixed],
  -- CHIP_COMMIT_TARGET_LO (R443)
  reg1 0x428 .plain 0x0 [fld 31 0 .ro .fixed],
  -- CHIP_COMMIT_TARGET_HI (R443)
  reg1 0x42C .plain 0x0 [fld 31 0 .ro .fixed],
  -- CHIP_CNT_COMMIT (R443)
  reg1 0x430 .plain 0x0 ctr,
  -- CHIP_CNT_COMMIT_WAIT (R443)
  reg1 0x434 .plain 0x0 ctr]

/-- The clk rows. -/
def clkRegs : List RegRow := [
  -- CLK_STAT (R423)
  reg1 0x800 .plain 0x0 [fld 31 31 .ro .fixed, fld 30 30 .ro .fixed, fld 29 29 .ro .fixed, fld 28 28 .ro .fixed, fld 27 27 .ro .fixed],
  -- CLK_DROOP_CTL (R423)
  reg1 0x804 .plain 0x8000000A [fld 31 31 .rw .live, fldR 7 0 .rw .live 2 255],
  -- CLK_WAKE (R423)
  reg1 0x808 .plain 0x2 [fldR 3 0 .rw .live 1 8],
  -- CLK_CNT_DROOP (R423)
  reg1 0x80C .plain 0x0 ctr,
  -- CLK_CNT_HALF_US (R423)
  reg1 0x810 .plain 0x0 ctr]

/-- The lnk rows. -/
def lnkRegs : List RegRow := [
  -- LNK_CTL (R250)
  reg1 0x1000 .plain 0x10000000 [fld 31 31 .rw .live, fld 30 30 .rw .live, fld 29 29 .rw .live, fld 28 28 .rw .live],
  -- LNK_RETRY (R250)
  reg1 0x1004 .plain 0x8320014 [fldR 31 24 .rw .live 1 255, fldR 23 16 .rw .live 1 255, fldR 7 0 .rw .live 2 255],
  -- LNK_TRAIN (R250)
  reg1 0x1008 .plain 0x640A0410 [fldR 31 24 .rw .live 1 255, fldR 23 16 .rw .live 1 255, fldR 15 8 .rw .live 1 255, fldR 7 0 .rw .live 1 255],
  -- LNK_INJ (R250)
  reg1 0x100C .plain 0x100 [fld 31 31 .wo .live, fld 30 30 .rw .live, fldR 11 8 .rw .live 1 15, fldR 2 0 .rw .live 0 4],
  -- LNK_LINKk_STAT (R250)
  ⟨0x1100, 0x80, 3, 0x0, 1, .plain, 0x0, [fld 31 29 .ro .fixed, fld 28 27 .ro .fixed, fld 26 25 .ro .fixed, fld 24 24 .ro .fixed, fld 23 16 .ro .fixed]⟩,
  -- LNK_LINKk_CNT_RXOK (R250)
  ⟨0x1104, 0x80, 3, 0x0, 1, .plain, 0x0, ctr⟩,
  -- LNK_LINKk_CNT_CRC (R250)
  ⟨0x1108, 0x80, 3, 0x0, 1, .plain, 0x0, ctr⟩,
  -- LNK_LINKk_CNT_STOMP_RX (R250)
  ⟨0x110C, 0x80, 3, 0x0, 1, .plain, 0x0, ctr⟩,
  -- LNK_LINKk_CNT_STOMP_TX (R250)
  ⟨0x1110, 0x80, 3, 0x0, 1, .plain, 0x0, ctr⟩,
  -- LNK_LINKk_CNT_FIXED (R250)
  ⟨0x1114, 0x80, 3, 0x0, 1, .plain, 0x0, ctr⟩,
  -- LNK_LINKk_CNT_NAK_TX (R250)
  ⟨0x1118, 0x80, 3, 0x0, 1, .plain, 0x0, ctr⟩,
  -- LNK_LINKk_CNT_NAK_RX (R250)
  ⟨0x111C, 0x80, 3, 0x0, 1, .plain, 0x0, ctr⟩,
  -- LNK_LINKk_CNT_REPLAY (R250)
  ⟨0x1120, 0x80, 3, 0x0, 1, .plain, 0x0, ctr⟩,
  -- LNK_LINKk_CNT_ESCAPE (R250)
  ⟨0x1124, 0x80, 3, 0x0, 1, .plain, 0x0, ctr⟩,
  -- LNK_LINKk_CNT_DOWN (R250)
  ⟨0x1128, 0x80, 3, 0x0, 1, .plain, 0x0, ctr⟩,
  -- LNK_LANEl_STAT (R250)
  ⟨0x1300, 0x40, 5, 0x0, 1, .plain, 0x0, [fld 31 31 .ro .fixed, fld 30 30 .ro .fixed, fld 29 29 .ro .fixed, fld 28 28 .ro .fixed, fld 27 26 .ro .fixed, fld 25 25 .ro .fixed, fld 10 0 .ro .fixed]⟩,
  -- LNK_LANEl_CNT_CW_CORR (R250)
  ⟨0x1304, 0x40, 5, 0x0, 1, .plain, 0x0, ctr⟩,
  -- LNK_LANEl_CNT_CW_UNCORR (R250)
  ⟨0x1308, 0x40, 5, 0x0, 1, .plain, 0x0, ctr⟩,
  -- LNK_LANEl_CNT_SYM_CORR (R250)
  ⟨0x130C, 0x40, 5, 0x0, 1, .plain, 0x0, ctr⟩,
  -- LNK_LANEl_CNT_LOCK_LOSS (R250)
  ⟨0x1310, 0x40, 5, 0x0, 1, .plain, 0x0, ctr⟩]

/-- The net rows. -/
def netRegs : List RegRow := [
  -- NET_CTL (R277)
  reg1 0x1800 .plain 0x0 [fld 31 31 .rw .live, fld 30 30 .rw .static],
  -- NET_ID (R277)
  reg1 0x1804 .plain 0x0 [fld 31 31 .ro .fixed, fld 30 28 .ro .fixed, fld 10 0 .ro .fixed],
  -- NET_ROUTE (R277)
  reg1 0x1808 .plain 0x94000004 [fldR 31 30 .rw .live 0 2, fldR 29 28 .rw .live 0 1, fldR 27 26 .rw .live 0 1, fld 7 0 .rw .live],
  -- NET_TAG (R277)
  reg1 0x180C .plain 0x64 [fld 28 16 .ro .fixed, fldR 15 0 .rw .live 1 65535],
  -- NET_DUP (R277)
  reg1 0x1810 .plain 0x400 [fld 26 16 .ro .fixed, fldR 15 0 .rw .live 10 65535],
  -- NET_WRAP (R277)
  reg1 0x1814 .plain 0x7D0 [fldR 15 0 .rw .live 100 65535],
  -- NET_JOIN (R277)
  reg1 0x1818 .plain 0xA140064 [fldR 31 24 .rw .live 1 255, fldR 23 16 .rw .live 1 255, fldR 15 0 .rw .live 1 65535],
  -- NET_STAT (R277)
  reg1 0x181C .plain 0xC7FF0000 [fld 31 30 .ro .fixed, fld 29 29 .ro .fixed, fld 28 28 .ro .fixed, fld 27 27 .ro .fixed, fld 26 16 .ro .fixed, fld 10 0 .ro .fixed],
  -- NET_EPOCH_CTL (R277)
  reg1 0x1820 .plain 0x30A03E8 [fldR 31 24 .rw .live 2 255, fldR 23 16 .rw .live 1 255, fldR 13 0 .rw .staged 10 10000],
  -- NET_EPOCH_STEP (R277)
  reg1 0x1824 .plain 0x3E8 [fldR 19 0 .rw .live 10 1000000],
  -- NET_EPOCH_SET_LO (R277)
  reg1 0x1828 .plain 0x0 [fld 31 0 .rw .live],
  -- NET_EPOCH_SET_HI (R277)
  reg1 0x182C .plain 0x0 [fld 31 0 .rw .live],
  -- NET_EPOCH_NOW_LO (R277)
  reg1 0x1830 .plain 0x0 [fld 31 0 .ro .fixed],
  -- NET_EPOCH_NOW_HI (R277)
  reg1 0x1834 .plain 0x0 [fld 31 0 .ro .fixed],
  -- NET_EPOCH_STAT (R277)
  reg1 0x1838 .plain 0x0 [fld 31 31 .ro .fixed, fld 30 30 .ro .fixed, fld 26 16 .ro .fixed, fld 15 0 .ro .fixed],
  -- NET_DLY_W (R277)
  reg1 0x183C .plain 0x0 [fld 31 31 .ro .fixed, fld 30 30 .ro .fixed, fld 19 0 .ro .fixed],
  -- NET_DLY_E (R277)
  reg1 0x1840 .plain 0x0 [fld 31 31 .ro .fixed, fld 30 30 .ro .fixed, fld 19 0 .ro .fixed],
  -- NET_NT_SEL (R277)
  reg1 0x1844 .plain 0x0 [fld 10 0 .rw .live],
  -- NET_NT (R277)
  reg1 0x1848 .ntSel 0x0 [fld 31 31 .ro .fixed, fld 30 30 .ro .fixed, fld 10 0 .ro .fixed],
  -- NET_CNT_TX (R277)
  reg1 0x1850 .plain 0x0 ctr,
  -- NET_CNT_DROP (R277)
  reg1 0x1854 .plain 0x0 ctr,
  -- NET_CNT_DUP (R277)
  reg1 0x1858 .plain 0x0 ctr,
  -- NET_CNT_DUP_EVICT (R277)
  reg1 0x185C .plain 0x0 ctr,
  -- NET_CNT_STRIP (R277)
  reg1 0x1860 .plain 0x0 ctr,
  -- NET_CNT_TAG_TO (R277)
  reg1 0x1864 .plain 0x0 ctr,
  -- NET_CNT_LATE_RSP (R277)
  reg1 0x1868 .plain 0x0 ctr,
  -- NET_CNT_NO_NODE (R277)
  reg1 0x186C .plain 0x0 ctr,
  -- NET_CNT_WRAP (R277)
  reg1 0x1870 .plain 0x0 ctr,
  -- NET_CNT_WRAP_LOST (R277)
  reg1 0x1874 .plain 0x0 ctr,
  -- NET_CNT_STEP (R277)
  reg1 0x1878 .plain 0x0 ctr,
  -- NET_CNT_PKT_BAD (R277)
  reg1 0x187C .plain 0x0 ctr,
  -- NET_CNT_DROP_STALL (R277)
  reg1 0x1880 .plain 0x0 ctr]

/-- The hst rows. -/
def hstRegs : List RegRow := [
  -- HST_CTL (R227)
  reg1 0x2000 .plain 0x0 [fld 31 31 .rw .live, fld 0 0 .ro .fixed],
  -- HST_POLL (R227)
  reg1 0x2004 .plain 0x8040032 [fldR 31 20 .rw .live 1 4095, fldR 19 16 .rw .live 1 15, fldR 9 0 .rw .live 10 1000],
  -- HST_WAKE (R227)
  reg1 0x2008 .plain 0x0 [fld 31 0 .wo .live],
  -- HST_STAT (R227)
  reg1 0x200C .plain 0x32 [fld 18 0 .ro .fixed],
  -- HST_DB_BASE_LO (R227)
  reg1 0x2010 .plain 0x0 [fld 31 12 .rw .staged],
  -- HST_DB_BASE_HI (R227)
  reg1 0x2014 .plain 0x0 [fld 31 0 .rw .staged],
  -- HST_SH_BASE_LO (R227)
  reg1 0x2018 .plain 0x0 [fld 31 12 .rw .staged],
  -- HST_SH_BASE_HI (R227)
  reg1 0x201C .plain 0x0 [fld 31 0 .rw .staged],
  -- HST_B2_BASE (R227)
  reg1 0x2020 .plain 0x0 [fldR 26 16 .rw .live 0 2046, fld 11 0 .rw .live],
  -- HST_PCIE_CTL (R227)
  reg1 0x2024 .plain 0x0 [fld 31 31 .rw .live],
  -- HST_PCIE_STAT (R227)
  reg1 0x2028 .plain 0x0 [fld 31 31 .ro .fixed, fld 30 30 .ro .fixed, fld 29 26 .ro .fixed, fld 25 20 .ro .fixed],
  -- HST_EVR_BASE_LO (R227)
  reg1 0x2030 .plain 0x0 [fld 31 12 .rw .staged],
  -- HST_EVR_BASE_HI (R227)
  reg1 0x2034 .plain 0x0 [fld 31 0 .rw .staged],
  -- HST_EVR_CTL (R227)
  reg1 0x2038 .plain 0x4 [fld 31 31 .rw .staged, fld 30 30 .rw .live, fld 23 16 .rw .live, fldR 4 0 .rw .staged 4 16],
  -- HST_STR_BASE_LO (R227)
  reg1 0x2040 .plain 0x0 [fld 31 12 .rw .staged],
  -- HST_STR_BASE_HI (R227)
  reg1 0x2044 .plain 0x0 [fld 31 0 .rw .staged],
  -- HST_STR_CTL (R227)
  reg1 0x2048 .plain 0x2 [fld 31 31 .rw .staged, fldR 3 0 .rw .staged 2 8],
  -- HST_CR_SEL (R227)
  reg1 0x2050 .plain 0x0 [fld 7 0 .rw .live],
  -- HST_CR_BASE_LO (R227)
  reg1 0x2054 .crSel 0x0 [fld 31 12 .rw .staged],
  -- HST_CR_BASE_HI (R227)
  reg1 0x2058 .crSel 0x0 [fld 31 0 .rw .staged],
  -- HST_CR_CTL (R227)
  reg1 0x205C .crSel 0x4 [fld 31 31 .rw .staged, fld 30 30 .rw .staged, fld 23 16 .rw .staged, fldR 4 0 .rw .staged 4 16],
  -- HST_CR_STAT (R227)
  reg1 0x2060 .crSel 0x0 [fld 31 31 .ro .fixed, fld 15 0 .ro .fixed],
  -- HST_CR_CI (R227)
  reg1 0x2064 .crSel 0x0 [fld 31 0 .ro .fixed],
  -- HST_CQ_SEL (R227)
  reg1 0x2070 .plain 0x0 [fld 7 0 .rw .live],
  -- HST_CQ_BASE_LO (R227)
  reg1 0x2074 .cqSel 0x0 [fld 31 12 .rw .staged],
  -- HST_CQ_BASE_HI (R227)
  reg1 0x2078 .cqSel 0x0 [fld 31 0 .rw .staged],
  -- HST_CQ_CTL (R227)
  reg1 0x207C .cqSel 0x4 [fld 31 31 .rw .staged, fld 30 30 .rw .live, fld 23 16 .rw .live, fld 15 8 .rw .live, fldR 4 0 .rw .staged 4 16],
  -- HST_CQ_PI (R227)
  reg1 0x2080 .cqSel 0x0 [fld 31 0 .ro .fixed],
  -- HST_CNT_POLL (R227)
  reg1 0x2100 .plain 0x0 ctr,
  -- HST_CNT_DESC (R227)
  reg1 0x2104 .plain 0x0 ctr,
  -- HST_CNT_DESC_BAD (R227)
  reg1 0x2108 .plain 0x0 ctr,
  -- HST_CNT_CQ_FULL (R227)
  reg1 0x210C .plain 0x0 ctr,
  -- HST_CNT_CQ_OFF (R227)
  reg1 0x2110 .plain 0x0 ctr,
  -- HST_CNT_EV_LOST (R227)
  reg1 0x2114 .plain 0x0 ctr,
  -- HST_CNT_ST_LOST (R227)
  reg1 0x2118 .plain 0x0 ctr,
  -- HST_CNT_B2_LOST_BYTES (R227)
  reg1 0x211C .plain 0x0 ctr,
  -- HST_CNT_HOST_ABORT (R227)
  reg1 0x2120 .plain 0x0 ctr,
  -- HST_HWINs_CTL (R39)
  ⟨0x2400, 0x10, 8, 0x0, 1, .plain, 0x0, [fld 31 31 .rw .staged, fld 0 0 .rw .staged]⟩,
  -- HST_HWINs_BASE_LO (R39)
  ⟨0x2404, 0x10, 8, 0x0, 1, .plain, 0x0, [fld 31 12 .rw .staged]⟩,
  -- HST_HWINs_BASE_HI (R39)
  ⟨0x2408, 0x10, 8, 0x0, 1, .plain, 0x0, [fld 31 0 .rw .staged]⟩]

/-- The ddr rows. -/
def ddrRegs : List RegRow := [
  -- DDR_CTL (R228)
  reg1 0x2800 .plain 0x80000018 [fld 31 31 .rw .live, fldR 7 0 .rw .live 1 255],
  -- DDR_CFG (R228)
  reg1 0x2804 .plain 0x0 [fld 31 30 .ro .fixed, fld 29 29 .ro .fixed, fld 28 28 .ro .fixed, fld 15 0 .ro .fixed],
  -- DDR_STAT (R228)
  reg1 0x2808 .plain 0x0 [fld 31 31 .ro .fixed, fld 30 30 .ro .fixed, fld 29 29 .ro .fixed],
  -- DDR_CNT_CE (R228)
  reg1 0x280C .plain 0x0 ctr,
  -- DDR_CNT_UE (R228)
  reg1 0x2810 .plain 0x0 ctr,
  -- DDR_UE_ADDR_LO (R228)
  reg1 0x2814 .plain 0x0 [fld 31 3 .ro .fixed],
  -- DDR_UE_ADDR_HI (R228)
  reg1 0x2818 .plain 0x0 [fld 1 0 .ro .fixed],
  -- DDR_INJ (R228)
  reg1 0x281C .plain 0x0 [fld 31 31 .wo .live, fld 0 0 .rw .live]]

/-- The drv rows. -/
def drvRegs : List RegRow := [
  -- DRV_CTL (R142)
  reg1 0x3000 .plain 0x10300 [fld 16 16 .rw .live, fldR 11 8 .rw .live 1 15],
  -- DRV_STEAL (R142)
  reg1 0x3004 .plain 0x1220105 [fldR 27 24 .rw .live 1 15, fldR 23 20 .rw .live 1 15, fldR 18 16 .rw .live 1 4, fld 8 8 .rw .live, fldR 7 0 .rw .live 1 255],
  -- DRV_WDOG (R142)
  reg1 0x3008 .plain 0x14 [fldR 9 0 .rw .live 1 1000],
  -- DRV_PLACE (R142)
  reg1 0x300C .plain 0xFFFFFFFF [fld 31 24 .rw .staged, fld 23 16 .rw .staged, fld 15 8 .rw .staged, fld 7 0 .rw .staged],
  -- DRV_RSV_LO (R142)
  reg1 0x3010 .plain 0x0 [fld 31 0 .rw .staged],
  -- DRV_RSV_HI (R142)
  reg1 0x3014 .plain 0x0 [fld 31 0 .rw .staged],
  -- DRV_EN_LO (R142)
  reg1 0x3018 .plain 0xFFFFFFFF [fld 31 0 .rw .live],
  -- DRV_EN_HI (R142)
  reg1 0x301C .plain 0xFFFFFFFF [fld 31 0 .rw .live],
  -- DRV_STILE (R142)
  reg1 0x3020 .plain 0x3E8 [fldR 15 0 .rw .live 1 65535],
  -- DRV_STILE_STAT (R142)
  reg1 0x3024 .plain 0x0 [fld 25 16 .ro .fixed, fld 9 0 .rc .fixed],
  -- DRV_LIVE_LO (R142)
  reg1 0x3028 .plain 0x0 [fld 31 0 .ro .fixed],
  -- DRV_LIVE_HI (R142)
  reg1 0x302C .plain 0x0 [fld 31 0 .ro .fixed],
  -- DRV_CNT_STILE_SKIP (R142)
  reg1 0x3030 .plain 0x0 ctr,
  -- DRV_CNT_STILE_WAIT (R142)
  reg1 0x3034 .plain 0x0 ctr,
  -- DRV_CNT_RERUN (R142)
  reg1 0x3038 .plain 0x0 ctr,
  -- DRV_CNT_UNSAFE (R142)
  reg1 0x303C .plain 0x0 ctr,
  -- DRV_BLK_b_LOCAL (R142)
  ⟨0x3040, 0x8, 8, 0x0, 1, .plain, 0x0, ctr⟩,
  -- DRV_BLK_b_CROSS (R142)
  ⟨0x3044, 0x8, 8, 0x0, 1, .plain, 0x0, ctr⟩,
  -- DRV_d_STAT (R142)
  ⟨0x3100, 0x10, 64, 0x0, 1, .plain, 0x0, [fld 31 30 .ro .fixed, fld 23 16 .ro .fixed, fld 15 0 .ro .fixed]⟩,
  -- DRV_d_RUN (R142)
  ⟨0x3104, 0x10, 64, 0x0, 1, .plain, 0x0, ctr⟩,
  -- DRV_d_STOLE (R142)
  ⟨0x3108, 0x10, 64, 0x0, 1, .plain, 0x0, ctr⟩,
  -- DRV_d_LOSS (R142)
  ⟨0x310C, 0x10, 64, 0x0, 1, .plain, 0x0, ctr⟩]

/-- The fld rows. -/
def fldRegs : List RegRow := [
  -- FLD_POOL (R197)
  reg1 0x3800 .plain 0x1B000 [fld 16 0 .ro .fixed],
  -- FLD_POOL_RSV (R197)
  reg1 0x3804 .plain 0x680 [fld 16 0 .ro .fixed],
  -- FLD_POOL_PEAK (R197)
  reg1 0x3808 .plain 0x0 [fld 16 0 .rc .fixed],
  -- FLD_SWEEP (R197)
  reg1 0x380C .plain 0x0 [fld 31 31 .ro .fixed, fld 12 0 .ro .fixed],
  -- FLD_SEL (R197)
  reg1 0x3810 .plain 0x0 [fld 11 0 .rw .live],
  -- FLD_COMMIT_STAT (R197)
  reg1 0x3814 .plain 0x0 [fld 31 31 .ro .fixed, fld 23 16 .ro .fixed, fld 11 0 .ro .fixed],
  -- FLD_INJ (R197)
  reg1 0x3818 .plain 0x0 [fld 31 31 .wo .live, fld 12 12 .rw .live, fld 11 0 .rw .live],
  -- FLD_F_CTL (R197)
  reg1 0x3820 .fldSel 0x0 [fld 31 31 .rw .staged, fld 30 30 .wo .live, fld 29 29 .wo .live],
  -- FLD_F_QUOTA (R197)
  reg1 0x3824 .fldSel 0x0 [fldR 16 0 .rw .staged 1 110592],
  -- FLD_F_RSV (R197)
  reg1 0x3828 .fldSel 0x0 [fldR 16 0 .rw .staged 0 110592],
  -- FLD_F_WM (R197)
  reg1 0x382C .fldSel 0x0 [fld 31 16 .rw .staged, fld 15 0 .rw .staged],
  -- FLD_F_STALE (R197)
  reg1 0x3830 .fldSel 0x0 [fldR 19 0 .rw .staged 0 1000000],
  -- FLD_F_LEVEL (R197)
  reg1 0x3834 .fldSel 0x0 [fld 19 0 .ro .fixed],
  -- FLD_F_PKT (R197)
  reg1 0x3838 .fldSel 0x0 [fld 19 0 .ro .fixed],
  -- FLD_F_CELLS (R197)
  reg1 0x383C .fldSel 0x0 [fld 16 0 .ro .fixed],
  -- FLD_F_STAT (R197)
  reg1 0x3840 .fldSel 0x0 [fld 31 31 .w1c .fixed, fld 30 30 .w1c .fixed, fld 29 29 .w1c .fixed, fld 28 28 .ro .fixed, fld 7 0 .ro .fixed],
  -- FLD_F_PEAK (R197)
  reg1 0x3844 .fldSel 0x0 [fld 19 0 .rc .fixed],
  -- FLD_F_FLOOR (R197)
  reg1 0x3848 .fldSel 0x0 [fld 19 0 .ro .fixed],
  -- FLD_CNT_QUOTA_WAIT (R197)
  reg1 0x3860 .plain 0x0 ctr,
  -- FLD_CNT_POOL_WAIT (R197)
  reg1 0x3864 .plain 0x0 ctr,
  -- FLD_CNT_RESET (R197)
  reg1 0x3868 .plain 0x0 ctr,
  -- FLD_CNT_LOST_WORDS (R197)
  reg1 0x386C .plain 0x0 ctr,
  -- FLD_CNT_SPLIT (R197)
  reg1 0x3870 .plain 0x0 ctr,
  -- FLD_CNT_FLUSH_WORDS (R197)
  reg1 0x3874 .plain 0x0 ctr,
  -- FLD_NS_k (R197)
  ⟨0x3900, 0x4, 256, 0x0, 1, .plain, 0x0, [fld 31 31 .rw .live, fld 30 30 .rw .live, fld 29 29 .rw .live, fld 28 24 .rw .live, fld 11 0 .rw .live]⟩,
  -- FLD_HMAP_h (R197)
  ⟨0x3D00, 0x4, 160, 0x0, 1, .plain, 0x0, [fld 11 0 .rw .staged]⟩]

/-- The lnso rows. -/
def lnsoRegs : List RegRow := [
  -- LNSO_n_CTL (R49)
  ⟨0x4000, 0x40, 64, 0x0, 1, .plain, 0xC00, [fld 31 31 .rw .staged, fld 30 30 .rw .staged, fldR 13 8 .rw .staged 12 36, fldR 2 0 .rw .staged 0 4]⟩,
  -- LNSO_n_FBASE (R49)
  ⟨0x4004, 0x40, 64, 0x0, 1, .plain, 0x0, [fld 23 0 .rw .staged]⟩,
  -- LNSO_n_VBASE_LO (R49)
  ⟨0x4008, 0x40, 64, 0x0, 1, .plain, 0x0, [fld 31 12 .rw .staged]⟩,
  -- LNSO_n_VBASE_HI (R49)
  ⟨0x400C, 0x40, 64, 0x0, 1, .plain, 0x0, [fld 31 0 .rw .staged]⟩,
  -- LNSO_n_ATTR (R49)
  ⟨0x4010, 0x40, 64, 0x0, 1, .plain, 0x0, [fld 31 31 .rw .staged, fld 30 30 .rw .staged, fld 29 29 .rw .staged, fldR 26 24 .rw .staged 0 4, fldR 23 22 .rw .staged 0 2, fldR 19 18 .rw .staged 0 2, fldR 17 16 .rw .staged 0 2, fld 9 8 .rw .staged, fld 5 0 .rw .staged]⟩,
  -- LNSO_n_TTL (R49)
  ⟨0x4014, 0x40, 64, 0x0, 1, .plain, 0x3E8, [fldR 19 0 .rw .staged 1 1000000]⟩,
  -- LNSO_n_RETRY (R49)
  ⟨0x4018, 0x40, 64, 0x0, 1, .plain, 0x40008, [fld 23 16 .rw .staged, fld 7 0 .rw .staged]⟩,
  -- LNSO_n_PHOPEN (R49)
  ⟨0x401C, 0x40, 64, 0x0, 1, .plain, 0x0, [fld 31 0 .rw .staged]⟩,
  -- LNSO_n_PHCLOSE (R49)
  ⟨0x4020, 0x40, 64, 0x0, 1, .plain, 0x0, [fld 31 0 .rw .staged]⟩,
  -- LNSO_n_STAT (R49)
  ⟨0x4024, 0x40, 64, 0x0, 1, .plain, 0x0, [fld 31 31 .ro .fixed, fld 30 30 .ro .fixed, fld 23 16 .ro .fixed, fld 11 0 .ro .fixed]⟩]

/-- The lnsi rows. -/
def lnsiRegs : List RegRow := [
  -- LNSI_n_CTL (R52)
  ⟨0x5000, 0x40, 32, 0x0, 1, .plain, 0xC00, [fld 31 31 .rw .staged, fldR 13 8 .rw .staged 12 32, fld 1 0 .rw .staged]⟩,
  -- LNSI_n_VBASE_LO (R52)
  ⟨0x5004, 0x40, 32, 0x0, 1, .plain, 0x0, [fld 31 12 .rw .staged]⟩,
  -- LNSI_n_VBASE_HI (R52)
  ⟨0x5008, 0x40, 32, 0x0, 1, .plain, 0x0, [fld 31 0 .rw .staged]⟩,
  -- LNSI_n_FADDR_LO (R52)
  ⟨0x500C, 0x40, 32, 0x0, 1, .plain, 0x0, [fld 31 12 .rw .staged]⟩,
  -- LNSI_n_FADDR_HI (R52)
  ⟨0x5010, 0x40, 32, 0x0, 1, .plain, 0x0, [fldR 26 16 .rw .staged 0 2046, fld 15 0 .rw .staged]⟩,
  -- LNSI_n_AMSEL (R52)
  ⟨0x5014, 0x40, 32, 0x0, 1, .plain, 0x0, [fld 12 12 .rw .staged, fld 11 11 .rw .staged, fld 10 10 .rw .staged, fld 9 9 .rw .staged, fld 8 8 .rw .staged, fld 3 3 .rw .staged, fld 2 2 .rw .staged, fld 1 1 .rw .staged, fld 0 0 .rw .staged]⟩,
  -- LNSI_n_ATTR (R52)
  ⟨0x5018, 0x40, 32, 0x0, 1, .plain, 0x80000, [fld 31 31 .rw .staged, fld 30 30 .rw .staged, fldR 27 16 .rw .staged 1 4095, fldR 3 2 .rw .staged 0 2, fldR 1 0 .rw .staged 0 2]⟩,
  -- LNSI_n_STAT (R52)
  ⟨0x501C, 0x40, 32, 0x0, 1, .plain, 0x0, [fld 31 31 .ro .fixed, fld 30 30 .ro .fixed, fld 23 16 .ro .fixed, fld 11 0 .ro .fixed]⟩]

/-- The vme rows. -/
def vmeRegs : List RegRow := [
  -- VME_CTL (R84)
  reg1 0x5800 .plain 0xC000000 [fld 31 31 .rw .static, fld 30 30 .ro .fixed, fld 27 26 .rw .static, fld 25 25 .rw .live, fld 24 24 .rw .static, fld 23 23 .rw .live],
  -- VME_TIMEOUT (R84)
  reg1 0x5804 .plain 0x640100 [fldR 31 16 .rw .live 1 65535, fldR 15 0 .rw .live 1 65535],
  -- VME_BUS_TIMER (R84)
  reg1 0x5808 .plain 0x40 [fldR 15 0 .rw .static 4 4096],
  -- VME_SYSCTL (R84)
  reg1 0x580C .plain 0xCE080000 [fld 31 31 .rw .static, fld 30 30 .rw .static, fldR 29 28 .rw .static 0 1, fld 27 27 .rw .static, fld 26 26 .rw .static, fld 25 25 .rw .static, fld 24 24 .wo .live, fldR 23 16 .rw .static 1 255],
  -- VME_PWQ (R84)
  reg1 0x5810 .plain 0x2000000 [fldR 25 20 .rw .static 1 32, fld 13 8 .rc .fixed, fld 5 0 .ro .fixed],
  -- VME_MSTAT (R84)
  reg1 0x5814 .plain 0x0 [fld 31 31 .ro .fixed, fld 30 30 .ro .fixed, fld 29 29 .ro .fixed, fld 5 0 .ro .fixed],
  -- VME_CNT_SINGLE (R84)
  reg1 0x5820 .plain 0x0 ctr,
  -- VME_CNT_BURST (R84)
  reg1 0x5824 .plain 0x0 ctr,
  -- VME_CNT_DEGRADE (R84)
  reg1 0x5828 .plain 0x0 ctr,
  -- VME_CNT_BERR (R84)
  reg1 0x582C .plain 0x0 ctr,
  -- VME_CNT_RETRY (R84)
  reg1 0x5830 .plain 0x0 ctr,
  -- VME_CNT_TIMEOUT (R84)
  reg1 0x5834 .plain 0x0 ctr,
  -- VME_CNT_ARB_TO (R84)
  reg1 0x5838 .plain 0x0 ctr,
  -- VME_CNT_LOST_BYTES (R84)
  reg1 0x583C .plain 0x0 ctr,
  -- VME_ISLV (R116)
  reg1 0x5840 .plain 0x40020064 [fld 31 31 .rw .static, fld 30 30 .rw .live, fld 23 16 .rw .live, fldR 11 0 .rw .live 1 4095],
  -- VME_IPWQ (R116)
  reg1 0x5844 .plain 0x40000000 [fldR 30 24 .rw .static 1 64, fld 22 16 .rc .fixed, fld 6 0 .ro .fixed],
  -- VME_ISTAT (R116)
  reg1 0x5848 .plain 0x0 [fld 31 31 .ro .fixed, fld 27 24 .ro .fixed, fld 4 0 .ro .fixed],
  -- VME_IH_CTL (R116)
  reg1 0x5850 .plain 0x0 [fldR 17 16 .rw .static 0 2, fld 15 9 .rw .static, fld 7 1 .rw .live],
  -- VME_IH_ROUTE_LO (R116)
  reg1 0x5854 .plain 0x0 [fld 28 24 .rw .live, fld 20 16 .rw .live, fld 12 8 .rw .live, fld 4 0 .rw .live],
  -- VME_IH_ROUTE_HI (R116)
  reg1 0x5858 .plain 0x0 [fld 20 16 .rw .live, fld 12 8 .rw .live, fld 4 0 .rw .live],
  -- VME_IH_STAT (R116)
  reg1 0x585C .plain 0x0 [fld 15 9 .ro .fixed, fld 7 1 .ro .fixed],
  -- VME_INTR (R116)
  reg1 0x5860 .plain 0x3E8 [fld 30 28 .rw .static, fld 27 27 .rw .static, fld 20 16 .ro .fixed, fldR 15 0 .rw .live 1 65535],
  -- VME_INTR_RORA (R116)
  reg1 0x5864 .plain 0x0 [fld 15 1 .rw .static, fld 0 0 .rw .static],
  -- VME_CNT_IN_CYCLES (R116)
  reg1 0x5880 .plain 0x0 ctr,
  -- VME_CNT_IN_RETRY (R116)
  reg1 0x5884 .plain 0x0 ctr,
  -- VME_CNT_IN_BERR (R116)
  reg1 0x5888 .plain 0x0 ctr,
  -- VME_CNT_IN_HOLD_TO (R116)
  reg1 0x588C .plain 0x0 ctr,
  -- VME_CNT_IN_LOOP (R116)
  reg1 0x5890 .plain 0x0 ctr,
  -- VME_CNT_IN_LOST_BYTES (R116)
  reg1 0x5894 .plain 0x0 ctr,
  -- VME_CNT_RSLOT_DISCARD (R116)
  reg1 0x5898 .plain 0x0 ctr,
  -- VME_CNT_IACK (R116)
  reg1 0x589C .plain 0x0 ctr,
  -- VME_CNT_IACK_SPUR (R116)
  reg1 0x58A0 .plain 0x0 ctr,
  -- VME_CNT_INTR_TAKEN (R116)
  reg1 0x58A4 .plain 0x0 ctr,
  -- VME_IRT_r_LO (R116)
  ⟨0x5900, 0x8, 32, 0x0, 1, .plain, 0x0, [fld 31 31 .rw .live, fld 30 30 .rw .live, fldR 26 16 .rw .live 0 2046, fld 7 0 .rw .live]⟩,
  -- VME_IRT_r_HI (R116)
  ⟨0x5904, 0x8, 32, 0x0, 1, .plain, 0x0, [fld 7 0 .rw .live]⟩]

/-- The sp rows. -/
def spRegs : List RegRow := [
  -- SP_n_CTL (R314)
  ⟨0x6000, 0x20, 64, 0x0, 1, .plain, 0x0, [fld 31 31 .rw .live, fld 30 30 .rw .live, fld 28 24 .rw .live, fldR 22 20 .rw .staged 0 4, fldR 17 16 .rw .staged 0 1, fld 15 15 .rw .staged, fld 14 14 .rw .staged, fld 13 13 .rw .staged]⟩,
  -- SP_n_LINE (R314)
  ⟨0x6004, 0x20, 64, 0x0, 1, .plain, 0x1002580, [fld 27 27 .rw .staged, fldR 26 25 .rw .staged 0 2, fld 24 24 .rw .staged, fldR 23 0 .rw .staged 300 12000000]⟩,
  -- SP_n_TIMING (R314)
  ⟨0x6008, 0x20, 64, 0x0, 1, .plain, 0x40408, [fldR 23 16 .rw .staged 1 255, fld 15 8 .rw .staged, fld 7 0 .rw .staged]⟩,
  -- SP_n_FRAME (R314)
  ⟨0x600C, 0x20, 64, 0x0, 1, .plain, 0xA0100, [fld 23 16 .rw .staged, fldR 11 0 .rw .staged 1 4095]⟩,
  -- SP_n_REPLY (R314)
  ⟨0x6010, 0x20, 64, 0x0, 1, .plain, 0x640000, [fldR 31 16 .rw .live 1 65535, fld 15 0 .rw .staged]⟩,
  -- SP_n_POLL (R314)
  ⟨0x6014, 0x20, 64, 0x0, 1, .plain, 0x103E8, [fld 31 31 .rw .live, fldR 23 16 .rw .staged 1 255, fldR 15 0 .rw .staged 1 65535]⟩,
  -- SP_n_POLLB (R314)
  ⟨0x6018, 0x20, 64, 0x0, 1, .plain, 0x0, [fld 21 0 .rw .staged]⟩,
  -- SP_n_STAT (R314)
  ⟨0x601C, 0x20, 64, 0x0, 1, .plain, 0x0, [fld 31 31 .w1c .fixed, fld 30 30 .w1c .fixed, fld 29 29 .w1c .fixed, fld 28 28 .w1c .fixed, fld 27 27 .w1c .fixed, fld 26 26 .w1c .fixed, fld 25 25 .w1c .fixed, fld 24 24 .ro .fixed, fld 15 0 .rc .fixed]⟩]

/-- The cf rows. -/
def cfRegs : List RegRow := [
  -- CF_n_CTL (R315)
  ⟨0x6800, 0x40, 16, 0x0, 1, .plain, 0x280000, [fld 31 31 .rw .live, fld 30 30 .rw .live, fld 28 24 .rw .live, fld 23 23 .rw .staged, fld 22 22 .rw .staged, fld 21 21 .rw .staged, fld 20 20 .rw .staged, fld 19 19 .rw .staged, fld 18 18 .rw .staged, fld 17 17 .wo .live, fld 11 8 .rw .staged]⟩,
  -- CF_n_NBT (R315)
  ⟨0x6804, 0x40, 16, 0x0, 1, .plain, 0x10F3E0F, [fld 28 24 .rw .staged, fld 22 16 .rw .staged, fld 15 8 .rw .staged, fld 6 0 .rw .staged]⟩,
  -- CF_n_DBT (R315)
  ⟨0x6808, 0x40, 16, 0x0, 1, .plain, 0x71E07, [fld 28 24 .rw .staged, fld 19 16 .rw .staged, fld 12 8 .rw .staged, fld 3 0 .rw .staged]⟩,
  -- CF_n_TDC (R315)
  ⟨0x680C, 0x40, 16, 0x0, 1, .plain, 0x0, [fld 30 24 .ro .fixed, fld 6 0 .rw .staged]⟩,
  -- CF_n_ERR (R315)
  ⟨0x6810, 0x40, 16, 0x0, 1, .plain, 0x0, [fld 31 30 .ro .fixed, fld 23 16 .ro .fixed, fld 15 15 .ro .fixed, fld 14 8 .ro .fixed, fld 2 0 .ro .fixed]⟩,
  -- CF_n_STAT (R315)
  ⟨0x6814, 0x40, 16, 0x0, 1, .plain, 0x0, [fld 31 31 .w1c .fixed, fld 30 30 .w1c .fixed, fld 29 29 .w1c .fixed, fld 28 28 .w1c .fixed, fld 27 27 .w1c .fixed, fld 26 26 .w1c .fixed, fld 15 0 .rc .fixed]⟩,
  -- CF_n_FLTk_ID (R315)
  ⟨0x6820, 0x40, 16, 0x8, 4, .plain, 0x0, [fld 31 31 .rw .staged, fld 29 29 .rw .staged, fld 28 0 .rw .staged]⟩,
  -- CF_n_FLTk_MASK (R315)
  ⟨0x6824, 0x40, 16, 0x8, 4, .plain, 0x1FFFFFFF, [fld 28 0 .rw .staged]⟩]

/-- The dc rows. -/
def dcRegs : List RegRow := [
  -- DC_n_CTL (R316)
  ⟨0x6C00, 0x80, 8, 0x0, 1, .plain, 0x4, [fld 31 31 .rw .live, fld 30 30 .rw .live, fld 29 29 .rw .live, fld 28 24 .rw .live, fld 20 20 .rw .staged, fld 19 16 .rw .staged, fldR 6 0 .rw .staged 4 100]⟩,
  -- DC_n_PERIOD (R316)
  ⟨0x6C04, 0x80, 8, 0x0, 1, .plain, 0x3E8, [fld 19 0 .rw .staged]⟩,
  -- DC_n_PSTEP (R316)
  ⟨0x6C08, 0x80, 8, 0x0, 1, .plain, 0x1000000, [fldR 31 0 .rw .staged 1 4294967295]⟩,
  -- DC_n_STAT (R316)
  ⟨0x6C0C, 0x80, 8, 0x0, 1, .plain, 0x0, [fld 31 31 .w1c .fixed, fld 30 30 .w1c .fixed, fld 29 29 .ro .fixed, fld 28 28 .ro .fixed]⟩,
  -- DC_n_OUTMASKi (R316)
  ⟨0x6C10, 0x80, 8, 0x4, 4, .plain, 0x0, [fld 31 0 .rw .staged]⟩,
  -- DC_n_SAFEi (R316)
  ⟨0x6C20, 0x80, 8, 0x4, 4, .plain, 0x0, [fld 31 0 .rw .staged]⟩,
  -- DC_n_EDGERi (R316)
  ⟨0x6C30, 0x80, 8, 0x4, 4, .plain, 0x0, [fld 31 0 .rw .live]⟩,
  -- DC_n_EDGEFi (R316)
  ⟨0x6C40, 0x80, 8, 0x4, 4, .plain, 0x0, [fld 31 0 .rw .live]⟩,
  -- DC_n_MISMi (R316)
  ⟨0x6C50, 0x80, 8, 0x4, 4, .plain, 0x0, [fld 31 0 .w1c .fixed]⟩,
  -- DC_n_CNT_SCAN (R316)
  ⟨0x6C60, 0x80, 8, 0x0, 1, .plain, 0x0, ctr⟩,
  -- DC_n_CNT_MISM (R316)
  ⟨0x6C64, 0x80, 8, 0x0, 1, .plain, 0x0, ctr⟩,
  -- DC_n_CNT_OVERRUN (R316)
  ⟨0x6C68, 0x80, 8, 0x0, 1, .plain, 0x0, ctr⟩]

/-- The cad rows. -/
def cadRegs : List RegRow := [
  -- CAD_CTL (R334)
  reg1 0x7000 .plain 0x8000FD00 [fld 31 31 .rw .live, fldR 26 24 .rw .staged 0 3, fld 15 8 .rw .static],
  -- CAD_STAT (R334)
  reg1 0x7004 .plain 0x40000000 [fld 31 30 .ro .fixed, fld 29 27 .ro .fixed, fld 26 26 .ro .fixed, fld 10 0 .ro .fixed],
  -- CAD_PERIOD (R334)
  reg1 0x7008 .plain 0x7D003E7 [fldR 31 16 .rw .staged 10 65535, fld 15 0 .rw .staged],
  -- CAD_COAST (R334)
  reg1 0x700C .plain 0x40001F4 [fldR 31 24 .rw .live 1 255, fld 15 0 .rw .live],
  -- CAD_EPF (R334)
  reg1 0x7010 .plain 0xF4240 [fldR 31 0 .rw .staged 1000 4294967295],
  -- CAD_MAINS (R334)
  reg1 0x7014 .plain 0x32 [fld 31 16 .rw .live, fld 7 0 .rw .live],
  -- CAD_ENC (R334)
  reg1 0x7018 .plain 0x1000 [fld 31 31 .rw .staged, fld 30 30 .rw .staged, fldR 23 0 .rw .staged 4 16777215],
  -- CAD_ENC_TOL (R334)
  reg1 0x701C .plain 0x4 [fld 7 0 .rw .live],
  -- CAD_HYST (R334)
  reg1 0x7020 .plain 0x0 [fld 31 0 .rw .live],
  -- CAD_NOW_PH (R334)
  reg1 0x7024 .plain 0x0 [fld 31 0 .ro .fixed],
  -- CAD_NOW_FR_LO (R334)
  reg1 0x7028 .plain 0x0 [fld 31 0 .ro .fixed],
  -- CAD_NOW_FR_HI (R334)
  reg1 0x702C .plain 0x0 [fld 15 0 .ro .fixed],
  -- CAD_PNUM_LO (R334)
  reg1 0x7030 .plain 0x0 [fld 31 0 .ro .fixed],
  -- CAD_PNUM_HI (R334)
  reg1 0x7034 .plain 0x0 [fld 31 0 .ro .fixed],
  -- CAD_RATE (R334)
  reg1 0x7038 .plain 0x418937 [fld 31 0 .ro .fixed],
  -- CAD_ENC_CNT (R334)
  reg1 0x703C .plain 0x0 [fld 23 0 .ro .fixed],
  -- CAD_FLAGS (R334)
  reg1 0x7040 .plain 0x0 [fld 31 31 .w1c .fixed, fld 30 30 .w1c .fixed, fld 29 29 .w1c .fixed, fld 28 28 .w1c .fixed, fld 27 27 .w1c .fixed, fld 26 26 .w1c .fixed, fld 25 25 .w1c .fixed, fld 24 24 .w1c .fixed],
  -- CAD_SNAP (R334)
  reg1 0x7044 .plain 0x0 [fld 31 31 .ro .fixed, fld 30 30 .ro .fixed],
  -- CAD_SCHB (R334)
  reg1 0x7048 .plain 0x0 [fld 21 0 .rw .staged],
  -- CAD_SCH_RELOAD (R334)
  reg1 0x704C .plain 0x0 [fld 0 0 .wo .staged],
  -- CAD_SCH_SEL (R334)
  reg1 0x7050 .plain 0x0 [fld 7 0 .rw .live],
  -- CAD_SCH_CTL (R334)
  reg1 0x7054 .schSel 0x0 [fld 31 31 .rw .staged, fld 30 30 .rw .staged, fld 23 16 .rw .staged, fld 15 0 .rw .staged],
  -- CAD_SCH_FRM (R334)
  reg1 0x7058 .schSel 0x0 [fld 15 0 .rw .staged],
  -- CAD_SCH_PH (R334)
  reg1 0x705C .schSel 0x0 [fld 31 0 .rw .staged],
  -- CAD_SCH_STAT (R334)
  reg1 0x7060 .schSel 0x0 [fld 31 31 .ro .fixed, fld 30 30 .ro .fixed],
  -- CAD_CNT_REL_OK (R334)
  reg1 0x7080 .plain 0x0 ctr,
  -- CAD_CNT_REL_LATE (R334)
  reg1 0x7084 .plain 0x0 ctr,
  -- CAD_CNT_FIRE (R334)
  reg1 0x7088 .plain 0x0 ctr,
  -- CAD_CNT_HOLD_WAIT (R334)
  reg1 0x708C .plain 0x0 ctr,
  -- CAD_CNT_LOSS (R334)
  reg1 0x7090 .plain 0x0 ctr,
  -- CAD_CNT_STEP (R334)
  reg1 0x7094 .plain 0x0 ctr,
  -- CAD_CNT_QERR (R334)
  reg1 0x7098 .plain 0x0 ctr,
  -- CAD_CNT_IDX_SLIP (R334)
  reg1 0x709C .plain 0x0 ctr,
  -- CAD_CNT_ZC_BAD (R334)
  reg1 0x70A0 .plain 0x0 ctr,
  -- CAD_CNT_PSUPP (R334)
  reg1 0x70A4 .plain 0x0 ctr,
  -- CAD_CNT_TIMEOUT (R334)
  reg1 0x70A8 .plain 0x0 ctr]

/-- The twn rows. -/
def twnRegs : List RegRow := [
  -- TWN_CTL (R359)
  reg1 0x7800 .plain 0x540007FF [fld 31 31 .rw .static, fld 30 30 .rw .live, fld 29 29 .rw .static, fld 28 28 .rw .live, fld 27 27 .rw .live, fld 26 26 .rw .live, fld 25 25 .ro .fixed, fld 24 24 .wo .live, fld 23 23 .wo .live, fld 22 22 .wo .live, fld 10 0 .rw .static],
  -- TWN_LEASE (R359)
  reg1 0x7804 .plain 0x3200A05 [fldR 31 20 .rw .static 10 4000, fldR 19 8 .rw .static 2 1999, fldR 7 0 .rw .static 1 255],
  -- TWN_STAT (R359)
  reg1 0x7808 .plain 0x0 [fld 31 29 .ro .fixed, fld 28 28 .ro .fixed, fld 27 27 .ro .fixed, fld 26 26 .ro .fixed, fld 25 25 .ro .fixed, fld 24 24 .ro .fixed, fld 23 22 .ro .fixed, fld 21 21 .ro .fixed, fld 15 0 .ro .fixed],
  -- TWN_EPOCH (R359)
  reg1 0x780C .plain 0x0 [fld 31 0 .ro .fixed],
  -- TWN_MARK_LO (R359)
  reg1 0x7810 .plain 0x0 [fld 31 0 .ro .fixed],
  -- TWN_MARK_HI (R359)
  reg1 0x7814 .plain 0x0 [fld 31 0 .ro .fixed],
  -- TWN_TAKE_EP (R359)
  reg1 0x7818 .plain 0x0 [fld 31 0 .ro .fixed],
  -- TWN_SEL (R359)
  reg1 0x781C .plain 0x3F [fld 5 0 .rw .staged],
  -- TWN_STG_BASE (R359)
  reg1 0x7820 .plain 0x0 [fld 21 0 .rw .static],
  -- TWN_STG_SIZE (R359)
  reg1 0x7824 .plain 0x40 [fldR 8 0 .rw .static 16 256],
  -- TWN_MQ (R359)
  reg1 0x7828 .plain 0x0 [fld 31 16 .rc .fixed, fld 15 0 .ro .fixed],
  -- TWN_RNGr_BASE (R359)
  ⟨0x7830, 0x8, 8, 0x0, 1, .plain, 0x0, [fld 31 31 .rw .staged, fld 21 0 .rw .staged]⟩,
  -- TWN_RNGr_SIZE (R359)
  ⟨0x7834, 0x8, 8, 0x0, 1, .plain, 0x1, [fldR 14 0 .rw .staged 1 16384]⟩,
  -- TWN_CNT_TAKE (R359)
  reg1 0x7880 .plain 0x0 ctr,
  -- TWN_CNT_FENCE (R359)
  reg1 0x7884 .plain 0x0 ctr,
  -- TWN_CNT_EP_COMMIT (R359)
  reg1 0x7888 .plain 0x0 ctr,
  -- TWN_CNT_EP_DISCARD (R359)
  reg1 0x788C .plain 0x0 ctr,
  -- TWN_CNT_RESYNC (R359)
  reg1 0x7890 .plain 0x0 ctr,
  -- TWN_CNT_MQ_WAIT (R359)
  reg1 0x7894 .plain 0x0 ctr,
  -- TWN_CNT_FENCE_LOST_BYTES (R359)
  reg1 0x7898 .plain 0x0 ctr,
  -- TWN_CNT_PEER_DOWN (R359)
  reg1 0x789C .plain 0x0 ctr]

/-- The flt rows. -/
def fltRegs : List RegRow := [
  -- FLT_CTL (R381)
  reg1 0x8000 .plain 0x800003E8 [fld 31 31 .rw .live, fld 30 30 .wo .live, fld 27 24 .wo .live, fld 15 0 .rw .live],
  -- FLT_ERR (R381)
  reg1 0x8004 .plain 0x200000A [fld 31 31 .rw .live, fldR 26 24 .rw .live 1 5, fldR 13 0 .rw .live 1 10000],
  -- FLT_CHIP_STAT (R381)
  reg1 0x8008 .plain 0x0 [fld 31 31 .ro .fixed, fld 30 27 .ro .fixed, fld 26 26 .ro .fixed, fld 25 25 .ro .fixed, fld 24 24 .ro .fixed, fld 8 0 .ro .fixed],
  -- FLT_FIRST (R381)
  reg1 0x800C .plain 0x0 [fld 31 31 .w1c .fixed, fld 30 28 .ro .fixed, fld 27 16 .ro .fixed, fld 15 0 .ro .fixed],
  -- FLT_CYC_LO (R381)
  reg1 0x8010 .plain 0x0 [fld 31 0 .ro .fixed],
  -- FLT_CYC_HI (R381)
  reg1 0x8014 .plain 0x0 [fld 31 0 .ro .fixed],
  -- FLT_REG_LINK (R381)
  reg1 0x8020 .plain 0x0 [fld 23 0 .w1c .fixed],
  -- FLT_REG_HOST (R381)
  reg1 0x8024 .plain 0x0 [fld 23 0 .w1c .fixed],
  -- FLT_REG_CORE (R381)
  reg1 0x8028 .plain 0x0 [fld 23 0 .w1c .fixed],
  -- FLT_REG_EDGE (R381)
  reg1 0x802C .plain 0x0 [fld 23 0 .w1c .fixed],
  -- FLT_REG_CHIP (R381)
  reg1 0x8030 .plain 0x0 [fld 23 0 .w1c .fixed],
  -- FLT_SEV_SEL (R381)
  reg1 0x8040 .plain 0x0 [fld 15 0 .rw .live],
  -- FLT_SEV (R381)
  reg1 0x8044 .sevSel 0x0 [fld 31 31 .rw .live, fldR 2 0 .rw .live 0 5],
  -- FLT_INJ (R381)
  reg1 0x8050 .plain 0x0 [fld 31 31 .wo .live, fld 30 30 .rw .live, fld 29 29 .ro .fixed, fldR 26 24 .rw .live 0 6, fld 16 0 .rw .live],
  -- FLT_ASEL (R381)
  reg1 0x8060 .plain 0x0 [fld 7 0 .rw .live],
  -- FLT_ACT_W0 (R381)
  reg1 0x8064 .aSel 0x0 [fld 31 31 .w1c .fixed, fld 30 30 .ro .fixed, fld 29 29 .ro .fixed, fld 28 26 .ro .fixed, fld 23 12 .ro .fixed],
  -- FLT_ACT_W1 (R381)
  reg1 0x8068 .aSel 0x0 [fld 31 16 .ro .fixed, fld 15 0 .ro .fixed],
  -- FLT_ACT_W2 (R381)
  reg1 0x806C .aSel 0x0 [fld 31 0 .ro .fixed],
  -- FLT_ACT_W3 (R381)
  reg1 0x8070 .aSel 0x0 [fld 31 16 .ro .fixed],
  -- FLT_HSEL (R381)
  reg1 0x8080 .plain 0x0 [fld 8 0 .rw .live],
  -- FLT_ACT_MAPi (R381)
  ⟨0x80A0, 0x4, 8, 0x0, 1, .plain, 0x0, [fld 31 0 .ro .fixed]⟩,
  -- FLT_HIST_e_W0 (R381)
  ⟨0x8100, 0x10, 8, 0x0, 1, .hSel, 0x0, [fld 31 16 .ro .fixed, fld 15 13 .ro .fixed, fld 12 10 .ro .fixed, fld 9 9 .ro .fixed, fld 8 8 .ro .fixed]⟩,
  -- FLT_HIST_e_W1 (R381)
  ⟨0x8104, 0x10, 8, 0x0, 1, .hSel, 0x0, [fld 31 0 .ro .fixed]⟩,
  -- FLT_HIST_e_W2 (R381)
  ⟨0x8108, 0x10, 8, 0x0, 1, .hSel, 0x0, [fld 31 16 .ro .fixed, fld 15 0 .ro .fixed]⟩,
  -- FLT_HIST_e_W3 (R381)
  ⟨0x810C, 0x10, 8, 0x0, 1, .hSel, 0x0, [fld 31 0 .ro .fixed]⟩,
  -- FLT_OVRk_A (R381)
  ⟨0x8200, 0x8, 32, 0x0, 1, .plain, 0x0, [fld 31 31 .rw .live, fldR 30 28 .rw .live 0 5, fld 27 16 .rw .live, fld 15 0 .rw .live]⟩,
  -- FLT_OVRk_B (R381)
  ⟨0x8204, 0x8, 32, 0x0, 1, .plain, 0xFFF, [fld 11 0 .rw .live]⟩,
  -- FLT_CAPu_STAT (R381)
  ⟨0x8400, 0x20, 6, 0x0, 1, .plain, 0x0, [fld 31 31 .w1c .fixed, fld 23 8 .ro .fixed, fld 7 0 .ro .fixed]⟩,
  -- FLT_CAPu_ADDR_LO (R381)
  ⟨0x8404, 0x20, 6, 0x0, 1, .plain, 0x0, [fld 31 0 .ro .fixed]⟩,
  -- FLT_CAPu_ADDR_HI (R381)
  ⟨0x8408, 0x20, 6, 0x0, 1, .plain, 0x0, [fld 31 0 .ro .fixed]⟩,
  -- FLT_CAPu_MASTER (R381)
  ⟨0x840C, 0x20, 6, 0x0, 1, .plain, 0x0, [fld 26 16 .ro .fixed, fld 15 8 .ro .fixed]⟩,
  -- FLT_CAPu_ACCESS (R381)
  ⟨0x8410, 0x20, 6, 0x0, 1, .plain, 0x0, [fld 31 25 .ro .fixed, fld 23 16 .ro .fixed, fld 15 14 .ro .fixed, fld 13 8 .ro .fixed]⟩,
  -- FLT_CAPu_CYC (R381)
  ⟨0x8414, 0x20, 6, 0x0, 1, .plain, 0x0, [fld 31 0 .ro .fixed]⟩,
  -- FLT_CAPu_FRM (R381)
  ⟨0x8418, 0x20, 6, 0x0, 1, .plain, 0x0, [fld 31 16 .ro .fixed, fld 15 0 .ro .fixed]⟩,
  -- FLT_CAPu_PHASE (R381)
  ⟨0x841C, 0x20, 6, 0x0, 1, .plain, 0x0, [fld 31 0 .ro .fixed]⟩,
  -- FLT_CNT_RAISED (R381)
  reg1 0x8600 .plain 0x0 ctr,
  -- FLT_CNT_MERGED (R381)
  reg1 0x8604 .plain 0x0 ctr,
  -- FLT_CNT_ESCALATED (R381)
  reg1 0x8608 .plain 0x0 ctr,
  -- FLT_CNT_TABLE_OVF (R381)
  reg1 0x860C .plain 0x0 ctr,
  -- FLT_CNT_ERR_PULSE (R381)
  reg1 0x8610 .plain 0x0 ctr,
  -- FLT_CNT_CLR_REFUSED (R381)
  reg1 0x8614 .plain 0x0 ctr]

/-- The rec rows. -/
def recRegs : List RegRow := [
  -- REC_CTL (R404); CHECK goes back to 2 at every reset, REC_INJ to 0 (DEDUCED, log entry 77)
  reg1 0x9000 .plain 0x2 [fld 31 31 .wo .live, fldR 1 0 .rw .live 0 2],
  -- REC_CFG (R404)
  reg1 0x9004 .plain 0x0 [fld 1 0 .ro .fixed],
  -- REC_STAT (R404)
  reg1 0x9008 .plain 0x0 [fld 31 31 .ro .fixed, fld 30 30 .ro .fixed, fld 29 29 .ro .fixed, fld 28 28 .ro .fixed, fld 27 27 .ro .fixed, fld 26 26 .ro .fixed, fld 25 25 .ro .fixed, fld 24 23 .ro .fixed, fld 6 0 .ro .fixed],
  -- REC_NEXT (R404)
  reg1 0x900C .plain 0x0 [fld 31 0 .ro .fixed],
  -- REC_SEC_LO (R404)
  reg1 0x9010 .plain 0x0 [fld 31 0 .ro .fixed],
  -- REC_SEC_HI (R404)
  reg1 0x9014 .plain 0x0 [fld 31 8 .ro .fixed, fld 7 0 .ro .fixed],
  -- REC_CLEARS (R404)
  reg1 0x9018 .plain 0x0 [fld 15 0 .ro .fixed],
  -- REC_NONCE_LO (R404)
  reg1 0x901C .plain 0x0 [fld 31 0 .ro .fixed],
  -- REC_NONCE_HI (R404)
  reg1 0x9020 .plain 0x0 [fld 31 0 .ro .fixed],
  -- REC_INJ (R404)
  reg1 0x9024 .plain 0x0 [fld 31 31 .wo .live, fld 30 30 .rw .live],
  -- REC_CNT_WRITTEN (R404)
  reg1 0x9040 .plain 0x0 ctr,
  -- REC_CNT_DROP (R404)
  reg1 0x9044 .plain 0x0 ctr,
  -- REC_CNT_VERIFY (R404)
  reg1 0x9048 .plain 0x0 ctr,
  -- REC_CNT_AUTH_FAIL (R404)
  reg1 0x904C .plain 0x0 ctr]

/-- The pwr rows. -/
def pwrRegs : List RegRow := [
  -- PWR_CTL (R422)
  reg1 0x9800 .plain 0x40002000 [fld 31 31 .rw .static, fld 30 30 .rw .live, fld 15 8 .rw .live],
  -- PWR_FEED (R422)
  reg1 0x9804 .plain 0x4E2055F0 [fldR 31 16 .rw .staged 16000 32000, fldR 15 0 .rw .staged 16000 32000],
  -- PWR_PFW (R422)
  reg1 0x9808 .plain 0xC0640005 [fld 31 31 .rw .static, fld 30 30 .rw .static, fldR 27 16 .rw .live 1 4095, fldR 7 0 .rw .live 1 255],
  -- PWR_STAT (R422)
  reg1 0x980C .plain 0x0 [fld 31 31 .ro .fixed, fld 30 30 .ro .fixed, fld 29 29 .ro .fixed, fld 28 28 .ro .fixed, fld 27 27 .ro .fixed],
  -- PWR_FLAGS (R422)
  reg1 0x9810 .plain 0x0 [fld 31 31 .w1c .fixed, fld 30 30 .w1c .fixed, fld 29 29 .w1c .fixed],
  -- PWR_DEVd (R422)
  ⟨0x9820, 0x4, 10, 0x0, 1, .plain, 0x0, [fld 31 31 .rw .static, fld 6 0 .rw .static]⟩,
  -- PWR_MEAS_SEL (R422)
  reg1 0x9848 .plain 0x0 [fldR 3 0 .rw .live 0 9],
  -- PWR_MEAS_V (R422)
  reg1 0x984C .measSel 0x0 [fld 31 31 .ro .fixed, fld 15 0 .ro .fixed],
  -- PWR_MEAS_I (R422)
  reg1 0x9850 .measSel 0x0 [fld 15 0 .ro .fixed],
  -- PWR_MEAS_P (R422)
  reg1 0x9854 .measSel 0x0 [fld 23 0 .ro .fixed],
  -- PWR_MEAS_STATUS (R422)
  reg1 0x9858 .measSel 0x0 [fld 15 0 .ro .fixed],
  -- PWR_CNT_MISS (R422)
  reg1 0x9860 .plain 0x0 ctr,
  -- PWR_CNT_ALERT (R422)
  reg1 0x9864 .plain 0x0 ctr,
  -- PWR_CNT_PFW (R422)
  reg1 0x9868 .plain 0x0 ctr,
  -- PWR_Ee_LO (R422)
  ⟨0x9880, 0x8, 10, 0x0, 1, .plain, 0x0, [fld 31 0 .ro .fixed]⟩,
  -- PWR_Ee_HI (R422)
  ⟨0x9884, 0x8, 10, 0x0, 1, .plain, 0x0, [fld 15 0 .ro .fixed]⟩,
  -- PWR_SLOTn_CTL (R422)
  ⟨0x9900, 0x20, 8, 0x0, 1, .plain, 0x0, [fld 31 31 .rw .live, fld 30 30 .rw .live]⟩,
  -- PWR_SLOTn_TIME (R422)
  ⟨0x9904, 0x20, 8, 0x0, 1, .plain, 0x6401F4, [fldR 25 16 .rw .live 1 1000, fldR 15 0 .rw .live 10 65535]⟩,
  -- PWR_SLOTn_START (R422)
  ⟨0x9908, 0x20, 8, 0x0, 1, .plain, 0x3264, [fldR 15 8 .rw .live 1 255, fldR 7 0 .rw .live 1 255]⟩,
  -- PWR_SLOTn_LIMIT (R422)
  ⟨0x990C, 0x20, 8, 0x0, 1, .plain, 0xFA0, [fldR 15 0 .rw .staged 1 65535]⟩,
  -- PWR_SLOTn_STAT (R422)
  ⟨0x9910, 0x20, 8, 0x0, 1, .plain, 0x0, [fld 31 29 .ro .fixed, fld 28 28 .ro .fixed, fld 27 27 .ro .fixed, fld 26 26 .ro .fixed, fld 25 25 .ro .fixed, fld 24 24 .ro .fixed, fld 23 23 .ro .fixed, fld 21 20 .ro .fixed, fld 9 0 .ro .fixed]⟩,
  -- PWR_SLOTn_CNT_TRIP (R422)
  ⟨0x9914, 0x20, 8, 0x0, 1, .plain, 0x0, ctr⟩]

/-- The stat rows. -/
def statRegs : List RegRow := [
  -- STAT_BANKs_w (R332)
  ⟨0xA000, 0x1000, 2, 0x4, 1024, .plain, 0x0, [fld 31 0 .ro .fixed]⟩]

/-- The tst rows. -/
def tstRegs : List RegRow := [
  -- TST_ATB0 (R457)
  reg1 0xC000 .plain 0x0 [fld 5 0 .rw .live],
  -- TST_ATB1 (R457)
  reg1 0xC004 .plain 0x0 [fld 5 0 .rw .live],
  -- TST_ADC (R457)
  reg1 0xC008 .plain 0x0 [fld 31 31 .wo .live, fld 30 30 .ro .fixed, fld 29 29 .rw .live, fld 11 0 .ro .fixed],
  -- TST_IDCODE (R457)
  reg1 0xC00C .plain 0x1941656F [fld 31 0 .ro .fixed]]

/-- The svc rows. -/
def svcRegs : List RegRow := [
  -- SVC_CTL (R457)
  reg1 0xC800 .plain 0xFC00 [fld 31 31 .wo .live, fld 15 8 .rw .static],
  -- SVC_STAT (R457)
  reg1 0xC804 .plain 0x0 [fld 31 31 .ro .fixed, fld 30 30 .ro .fixed, fld 29 29 .ro .fixed],
  -- SVC_CNT_CMD (R457)
  reg1 0xC808 .plain 0x0 ctr,
  -- SVC_CNT_RX_DROP (R457)
  reg1 0xC80C .plain 0x0 ctr,
  -- SVC_CNT_REFUSED (R457)
  reg1 0xC810 .plain 0x0 ctr]

/-- The rows of the whole map (R471), chosen by the offset's 2 KiB part so that a look-up stays short. -/
def regRows (off : Nat) : List RegRow :=

  if off < 0x400 then chipRegs
  else if off < 0x800 then bootRegs
  else if off < 0x1000 then clkRegs
  else if off < 0x1800 then lnkRegs
  else if off < 0x2000 then netRegs
  else if off < 0x2800 then hstRegs
  else if off < 0x3000 then ddrRegs
  else if off < 0x3800 then drvRegs
  else if off < 0x4000 then fldRegs
  else if off < 0x5000 then lnsoRegs
  else if off < 0x5800 then lnsiRegs
  else if off < 0x6000 then vmeRegs
  else if off < 0x6800 then spRegs
  else if off < 0x6C00 then cfRegs
  else if off < 0x7000 then dcRegs
  else if off < 0x7800 then cadRegs
  else if off < 0x8000 then twnRegs
  else if off < 0x9000 then fltRegs
  else if off < 0x9800 then recRegs
  else if off < 0xA000 then pwrRegs
  else if off < 0xC000 then statRegs
  else if off < 0xC800 then tstRegs
  else if off < 0xD000 then svcRegs
  else []

/-- Row `r` stands for offset `off`. -/
def RegRow_at (r : RegRow) (off : Nat) : Bool :=
  decide (r.base ≤ off) &&
  (let d := off - r.base
   if r.count = 1 then d == 0
   else
     let i := d / r.stride
     let e := d % r.stride
     decide (i < r.count) &&
       (if r.count2 = 1 then e == 0 else decide (e % r.stride2 = 0) && decide (e / r.stride2 < r.count2)))

/-- The row of offset `off`; none where the offset is reserved (R7, R458). -/
def regAt (off : Nat) : Option RegRow := (regRows off).find? (fun r => RegRow_at r off)

/-- The entries of each window (R461), as the number its selector can name. -/
def winCount : Win → Nat
  | .plain => 1
  | .ntSel => 2048 | .crSel => 256 | .cqSel => 256 | .fldSel => 4096 | .schSel => 256
  | .sevSel => 65536 | .aSel => 256 | .hSel => 512 | .measSel => 16

end Sys2Proof.Machine
end

