-- ==== Sys2Proof/Machine/Fields.lean ====
section
/-! DEFINITION. A name for every field of the set-up map, as the manual writes it.

`F.NET_ID_STATE` is field STATE of register NET_ID. A register that the map lists with an index takes that index as its
argument; a window register takes the entry of its selector. The bits are those of the chapters' field tables. -/

namespace Sys2Proof.Machine

/-- A field of one register: the register's key and bits [hi:lo]. -/
structure Fld where
  key : Nat
  hi : Nat
  lo : Nat
  deriving DecidableEq, Repr

/-- CHIP_ID (R464). -/
def K.CHIP_ID : Nat := 0x0
def F.CHIP_ID_VENDOR : Fld := ⟨K.CHIP_ID, 31, 16⟩
def F.CHIP_ID_DEVICE : Fld := ⟨K.CHIP_ID, 15, 0⟩
/-- CHIP_REV (R465). -/
def K.CHIP_REV : Nat := 0x4
def F.CHIP_REV_SILICON : Fld := ⟨K.CHIP_REV, 31, 28⟩
def F.CHIP_REV_ROM_MAJOR : Fld := ⟨K.CHIP_REV, 15, 8⟩
def F.CHIP_REV_ROM_MINOR : Fld := ⟨K.CHIP_REV, 7, 0⟩
/-- CHIP_SERIAL_LO (R466). -/
def K.CHIP_SERIAL_LO : Nat := 0x8
def F.CHIP_SERIAL_LO_SERIAL_LO : Fld := ⟨K.CHIP_SERIAL_LO, 31, 0⟩
/-- CHIP_SERIAL_HI (R466). -/
def K.CHIP_SERIAL_HI : Nat := 0xC
def F.CHIP_SERIAL_HI_SERIAL_HI : Fld := ⟨K.CHIP_SERIAL_HI, 15, 0⟩
/-- CHIP_STRAP (R467). -/
def K.CHIP_STRAP : Nat := 0x10
def F.CHIP_STRAP_MONLOCK : Fld := ⟨K.CHIP_STRAP, 31, 31⟩
def F.CHIP_STRAP_PRIMARY : Fld := ⟨K.CHIP_STRAP, 30, 30⟩
def F.CHIP_STRAP_HEAD : Fld := ⟨K.CHIP_STRAP, 29, 29⟩
def F.CHIP_STRAP_SYSCON : Fld := ⟨K.CHIP_STRAP, 28, 28⟩
def F.CHIP_STRAP_MCAP : Fld := ⟨K.CHIP_STRAP, 27, 27⟩
def F.CHIP_STRAP_IDSRC : Fld := ⟨K.CHIP_STRAP, 26, 26⟩
def F.CHIP_STRAP_NID : Fld := ⟨K.CHIP_STRAP, 10, 0⟩
/-- CHIP_CTL (R468). -/
def K.CHIP_CTL : Nat := 0x14
def F.CHIP_CTL_BCAST_EN : Fld := ⟨K.CHIP_CTL, 31, 31⟩
/-- CHIP_SCRATCHi (R469). -/
def K.CHIP_SCRATCH (i : Nat) : Nat := 0x20 + 0x4 * i
def F.CHIP_SCRATCH_DATA (i : Nat) : Fld := ⟨K.CHIP_SCRATCH i, 31, 0⟩
/-- CHIP_ARBW_LINK_LO (R19). -/
def K.CHIP_ARBW_LINK_LO : Nat := 0x200
def F.CHIP_ARBW_LINK_LO_W3 : Fld := ⟨K.CHIP_ARBW_LINK_LO, 15, 12⟩
def F.CHIP_ARBW_LINK_LO_W2 : Fld := ⟨K.CHIP_ARBW_LINK_LO, 11, 8⟩
def F.CHIP_ARBW_LINK_LO_W1 : Fld := ⟨K.CHIP_ARBW_LINK_LO, 7, 4⟩
def F.CHIP_ARBW_LINK_LO_W0 : Fld := ⟨K.CHIP_ARBW_LINK_LO, 3, 0⟩
/-- CHIP_ARBW_LINK_HI (R19). -/
def K.CHIP_ARBW_LINK_HI : Nat := 0x204
/-- CHIP_ARBW_HOST_LO (R19). -/
def K.CHIP_ARBW_HOST_LO : Nat := 0x208
def F.CHIP_ARBW_HOST_LO_W2 : Fld := ⟨K.CHIP_ARBW_HOST_LO, 11, 8⟩
def F.CHIP_ARBW_HOST_LO_W1 : Fld := ⟨K.CHIP_ARBW_HOST_LO, 7, 4⟩
def F.CHIP_ARBW_HOST_LO_W0 : Fld := ⟨K.CHIP_ARBW_HOST_LO, 3, 0⟩
/-- CHIP_ARBW_HOST_HI (R19). -/
def K.CHIP_ARBW_HOST_HI : Nat := 0x20C
/-- CHIP_ARBW_CORE_LO (R19). -/
def K.CHIP_ARBW_CORE_LO : Nat := 0x210
def F.CHIP_ARBW_CORE_LO_W7 : Fld := ⟨K.CHIP_ARBW_CORE_LO, 31, 28⟩
def F.CHIP_ARBW_CORE_LO_W6 : Fld := ⟨K.CHIP_ARBW_CORE_LO, 27, 24⟩
def F.CHIP_ARBW_CORE_LO_W5 : Fld := ⟨K.CHIP_ARBW_CORE_LO, 23, 20⟩
def F.CHIP_ARBW_CORE_LO_W4 : Fld := ⟨K.CHIP_ARBW_CORE_LO, 19, 16⟩
def F.CHIP_ARBW_CORE_LO_W3 : Fld := ⟨K.CHIP_ARBW_CORE_LO, 15, 12⟩
def F.CHIP_ARBW_CORE_LO_W2 : Fld := ⟨K.CHIP_ARBW_CORE_LO, 11, 8⟩
def F.CHIP_ARBW_CORE_LO_W1 : Fld := ⟨K.CHIP_ARBW_CORE_LO, 7, 4⟩
def F.CHIP_ARBW_CORE_LO_W0 : Fld := ⟨K.CHIP_ARBW_CORE_LO, 3, 0⟩
/-- CHIP_ARBW_CORE_HI (R19). -/
def K.CHIP_ARBW_CORE_HI : Nat := 0x214
def F.CHIP_ARBW_CORE_HI_W11 : Fld := ⟨K.CHIP_ARBW_CORE_HI, 15, 12⟩
def F.CHIP_ARBW_CORE_HI_W10 : Fld := ⟨K.CHIP_ARBW_CORE_HI, 11, 8⟩
def F.CHIP_ARBW_CORE_HI_W9 : Fld := ⟨K.CHIP_ARBW_CORE_HI, 7, 4⟩
def F.CHIP_ARBW_CORE_HI_W8 : Fld := ⟨K.CHIP_ARBW_CORE_HI, 3, 0⟩
/-- CHIP_ARBW_EDGE_LO (R19). -/
def K.CHIP_ARBW_EDGE_LO : Nat := 0x218
def F.CHIP_ARBW_EDGE_LO_W7 : Fld := ⟨K.CHIP_ARBW_EDGE_LO, 31, 28⟩
def F.CHIP_ARBW_EDGE_LO_W6 : Fld := ⟨K.CHIP_ARBW_EDGE_LO, 27, 24⟩
def F.CHIP_ARBW_EDGE_LO_W5 : Fld := ⟨K.CHIP_ARBW_EDGE_LO, 23, 20⟩
def F.CHIP_ARBW_EDGE_LO_W4 : Fld := ⟨K.CHIP_ARBW_EDGE_LO, 19, 16⟩
def F.CHIP_ARBW_EDGE_LO_W3 : Fld := ⟨K.CHIP_ARBW_EDGE_LO, 15, 12⟩
def F.CHIP_ARBW_EDGE_LO_W2 : Fld := ⟨K.CHIP_ARBW_EDGE_LO, 11, 8⟩
def F.CHIP_ARBW_EDGE_LO_W1 : Fld := ⟨K.CHIP_ARBW_EDGE_LO, 7, 4⟩
def F.CHIP_ARBW_EDGE_LO_W0 : Fld := ⟨K.CHIP_ARBW_EDGE_LO, 3, 0⟩
/-- CHIP_ARBW_EDGE_HI (R19). -/
def K.CHIP_ARBW_EDGE_HI : Nat := 0x21C
def F.CHIP_ARBW_EDGE_HI_W13 : Fld := ⟨K.CHIP_ARBW_EDGE_HI, 23, 20⟩
def F.CHIP_ARBW_EDGE_HI_W12 : Fld := ⟨K.CHIP_ARBW_EDGE_HI, 19, 16⟩
def F.CHIP_ARBW_EDGE_HI_W11 : Fld := ⟨K.CHIP_ARBW_EDGE_HI, 15, 12⟩
def F.CHIP_ARBW_EDGE_HI_W10 : Fld := ⟨K.CHIP_ARBW_EDGE_HI, 11, 8⟩
def F.CHIP_ARBW_EDGE_HI_W9 : Fld := ⟨K.CHIP_ARBW_EDGE_HI, 7, 4⟩
def F.CHIP_ARBW_EDGE_HI_W8 : Fld := ⟨K.CHIP_ARBW_EDGE_HI, 3, 0⟩
/-- CHIP_XBAR_CREDIT (R21). -/
def K.CHIP_XBAR_CREDIT : Nat := 0x220
def F.CHIP_XBAR_CREDIT_EDGE_DATA : Fld := ⟨K.CHIP_XBAR_CREDIT, 28, 24⟩
def F.CHIP_XBAR_CREDIT_CORE_DATA : Fld := ⟨K.CHIP_XBAR_CREDIT, 20, 16⟩
def F.CHIP_XBAR_CREDIT_HOST_DATA : Fld := ⟨K.CHIP_XBAR_CREDIT, 12, 8⟩
def F.CHIP_XBAR_CREDIT_LINK_DATA : Fld := ⟨K.CHIP_XBAR_CREDIT, 4, 0⟩
/-- CHIP_ORD_CTL (R176). -/
def K.CHIP_ORD_CTL : Nat := 0x300
def F.CHIP_ORD_CTL_BAR2_AGENT : Fld := ⟨K.CHIP_ORD_CTL, 31, 24⟩
def F.CHIP_ORD_CTL_VME_AGENT : Fld := ⟨K.CHIP_ORD_CTL, 23, 16⟩
def F.CHIP_ORD_CTL_DONE_TO_MS : Fld := ⟨K.CHIP_ORD_CTL, 15, 0⟩
/-- CHIP_WC_CTL (R176). -/
def K.CHIP_WC_CTL : Nat := 0x304
def F.CHIP_WC_CTL_EN : Fld := ⟨K.CHIP_WC_CTL, 31, 31⟩
def F.CHIP_WC_CTL_LINES : Fld := ⟨K.CHIP_WC_CTL, 22, 16⟩
def F.CHIP_WC_CTL_TO_100NS : Fld := ⟨K.CHIP_WC_CTL, 7, 0⟩
/-- CHIP_WC_STAT (R176). -/
def K.CHIP_WC_STAT : Nat := 0x308
def F.CHIP_WC_STAT_PEAK : Fld := ⟨K.CHIP_WC_STAT, 14, 8⟩
def F.CHIP_WC_STAT_DEPTH : Fld := ⟨K.CHIP_WC_STAT, 6, 0⟩
/-- CHIP_CLM_CTL (R176). -/
def K.CHIP_CLM_CTL : Nat := 0x30C
def F.CHIP_CLM_CTL_CLAIM_TO_US : Fld := ⟨K.CHIP_CLM_CTL, 15, 0⟩
/-- CHIP_CLM_STAT (R176). -/
def K.CHIP_CLM_STAT : Nat := 0x310
def F.CHIP_CLM_STAT_INUSE : Fld := ⟨K.CHIP_CLM_STAT, 25, 16⟩
def F.CHIP_CLM_STAT_PEAK : Fld := ⟨K.CHIP_CLM_STAT, 9, 0⟩
/-- CHIP_LC_CTL (R176). -/
def K.CHIP_LC_CTL : Nat := 0x314
def F.CHIP_LC_CTL_EN : Fld := ⟨K.CHIP_LC_CTL, 31, 31⟩
def F.CHIP_LC_CTL_INV_ALL : Fld := ⟨K.CHIP_LC_CTL, 30, 30⟩
/-- CHIP_LC_STAT (R176). -/
def K.CHIP_LC_STAT : Nat := 0x318
def F.CHIP_LC_STAT_VALID : Fld := ⟨K.CHIP_LC_STAT, 15, 0⟩
/-- CHIP_PF_CTL (R176). -/
def K.CHIP_PF_CTL : Nat := 0x31C
def F.CHIP_PF_CTL_DRAIN_US : Fld := ⟨K.CHIP_PF_CTL, 10, 0⟩
/-- CHIP_PF_STAT (R176). -/
def K.CHIP_PF_STAT : Nat := 0x320
def F.CHIP_PF_STAT_STATE : Fld := ⟨K.CHIP_PF_STAT, 31, 30⟩
/-- CHIP_CNT_LC_HIT (R176). -/
def K.CHIP_CNT_LC_HIT : Nat := 0x340
def F.CHIP_CNT_LC_HIT : Fld := ⟨K.CHIP_CNT_LC_HIT, 31, 0⟩
/-- CHIP_CNT_LC_MISS (R176). -/
def K.CHIP_CNT_LC_MISS : Nat := 0x344
def F.CHIP_CNT_LC_MISS : Fld := ⟨K.CHIP_CNT_LC_MISS, 31, 0⟩
/-- CHIP_CNT_LC_TTL (R176). -/
def K.CHIP_CNT_LC_TTL : Nat := 0x348
def F.CHIP_CNT_LC_TTL : Fld := ⟨K.CHIP_CNT_LC_TTL, 31, 0⟩
/-- CHIP_CNT_LC_SNOOP_INV (R176). -/
def K.CHIP_CNT_LC_SNOOP_INV : Nat := 0x34C
def F.CHIP_CNT_LC_SNOOP_INV : Fld := ⟨K.CHIP_CNT_LC_SNOOP_INV, 31, 0⟩
/-- CHIP_CNT_LC_INV_ALL (R176). -/
def K.CHIP_CNT_LC_INV_ALL : Nat := 0x350
def F.CHIP_CNT_LC_INV_ALL : Fld := ⟨K.CHIP_CNT_LC_INV_ALL, 31, 0⟩
/-- CHIP_CNT_CLM_OK (R176). -/
def K.CHIP_CNT_CLM_OK : Nat := 0x354
def F.CHIP_CNT_CLM_OK : Fld := ⟨K.CHIP_CNT_CLM_OK, 31, 0⟩
/-- CHIP_CNT_CLM_LOST (R176). -/
def K.CHIP_CNT_CLM_LOST : Nat := 0x358
def F.CHIP_CNT_CLM_LOST : Fld := ⟨K.CHIP_CNT_CLM_LOST, 31, 0⟩
/-- CHIP_CNT_WC_FLUSH (R176). -/
def K.CHIP_CNT_WC_FLUSH : Nat := 0x35C
def F.CHIP_CNT_WC_FLUSH : Fld := ⟨K.CHIP_CNT_WC_FLUSH, 31, 0⟩
/-- CHIP_CNT_WC_LOST_BYTES (R176). -/
def K.CHIP_CNT_WC_LOST_BYTES : Nat := 0x360
def F.CHIP_CNT_WC_LOST_BYTES : Fld := ⟨K.CHIP_CNT_WC_LOST_BYTES, 31, 0⟩
/-- CHIP_CNT_DONE_OK (R176). -/
def K.CHIP_CNT_DONE_OK : Nat := 0x364
def F.CHIP_CNT_DONE_OK : Fld := ⟨K.CHIP_CNT_DONE_OK, 31, 0⟩
/-- CHIP_CNT_DONE_FAIL (R176). -/
def K.CHIP_CNT_DONE_FAIL : Nat := 0x368
def F.CHIP_CNT_DONE_FAIL : Fld := ⟨K.CHIP_CNT_DONE_FAIL, 31, 0⟩
/-- CHIP_CNT_PF_LOST_BYTES (R176). -/
def K.CHIP_CNT_PF_LOST_BYTES : Nat := 0x36C
def F.CHIP_CNT_PF_LOST_BYTES : Fld := ⟨K.CHIP_CNT_PF_LOST_BYTES, 31, 0⟩
/-- CHIP_RST_CAUSE (R443). -/
def K.CHIP_RST_CAUSE : Nat := 0x400
def F.CHIP_RST_CAUSE_LAST : Fld := ⟨K.CHIP_RST_CAUSE, 31, 24⟩
def F.CHIP_RST_CAUSE_SEEN : Fld := ⟨K.CHIP_RST_CAUSE, 4, 0⟩
/-- CHIP_BOOT_STAT (R443). -/
def K.CHIP_BOOT_STAT : Nat := 0x404
def F.CHIP_BOOT_STAT_STAGE : Fld := ⟨K.CHIP_BOOT_STAT, 31, 29⟩
def F.CHIP_BOOT_STAT_COPY : Fld := ⟨K.CHIP_BOOT_STAT, 28, 28⟩
def F.CHIP_BOOT_STAT_A_BAD : Fld := ⟨K.CHIP_BOOT_STAT, 27, 27⟩
def F.CHIP_BOOT_STAT_B_BAD : Fld := ⟨K.CHIP_BOOT_STAT, 26, 26⟩
def F.CHIP_BOOT_STAT_JOIN_LATE : Fld := ⟨K.CHIP_BOOT_STAT, 25, 25⟩
def F.CHIP_BOOT_STAT_ELECT_LATE : Fld := ⟨K.CHIP_BOOT_STAT, 24, 24⟩
def F.CHIP_BOOT_STAT_LOCK_LATE : Fld := ⟨K.CHIP_BOOT_STAT, 23, 23⟩
def F.CHIP_BOOT_STAT_IMAGE_VER : Fld := ⟨K.CHIP_BOOT_STAT, 15, 0⟩
/-- CHIP_BOOT_TIME (R443). -/
def K.CHIP_BOOT_TIME : Nat := 0x408
def F.CHIP_BOOT_TIME_SVC_MS : Fld := ⟨K.CHIP_BOOT_TIME, 15, 0⟩
/-- CHIP_WDOG (R443). -/
def K.CHIP_WDOG : Nat := 0x40C
def F.CHIP_WDOG_EN : Fld := ⟨K.CHIP_WDOG, 31, 31⟩
def F.CHIP_WDOG_TO_MS : Fld := ⟨K.CHIP_WDOG, 15, 0⟩
/-- CHIP_HALT (R443). -/
def K.CHIP_HALT : Nat := 0x410
def F.CHIP_HALT_HALT : Fld := ⟨K.CHIP_HALT, 6, 0⟩
/-- CHIP_HALTED (R443). -/
def K.CHIP_HALTED : Nat := 0x414
def F.CHIP_HALTED_HALTED : Fld := ⟨K.CHIP_HALTED, 6, 0⟩
/-- CHIP_COMMIT_CTL (R443). -/
def K.CHIP_COMMIT_CTL : Nat := 0x418
def F.CHIP_COMMIT_CTL_HOLD : Fld := ⟨K.CHIP_COMMIT_CTL, 31, 31⟩
/-- CHIP_COMMIT_STAT (R443). -/
def K.CHIP_COMMIT_STAT : Nat := 0x41C
def F.CHIP_COMMIT_STAT_PENDING : Fld := ⟨K.CHIP_COMMIT_STAT, 31, 31⟩
def F.CHIP_COMMIT_STAT_RETIRING : Fld := ⟨K.CHIP_COMMIT_STAT, 30, 30⟩
def F.CHIP_COMMIT_STAT_WAITING : Fld := ⟨K.CHIP_COMMIT_STAT, 29, 29⟩
def F.CHIP_COMMIT_STAT_BANK : Fld := ⟨K.CHIP_COMMIT_STAT, 28, 28⟩
def F.CHIP_COMMIT_STAT_WHY : Fld := ⟨K.CHIP_COMMIT_STAT, 27, 24⟩
/-- CHIP_COMMIT_LAST_LO (R443). -/
def K.CHIP_COMMIT_LAST_LO : Nat := 0x420
def F.CHIP_COMMIT_LAST_LO_P : Fld := ⟨K.CHIP_COMMIT_LAST_LO, 31, 0⟩
/-- CHIP_COMMIT_LAST_HI (R443). -/
def K.CHIP_COMMIT_LAST_HI : Nat := 0x424
def F.CHIP_COMMIT_LAST_HI_P : Fld := ⟨K.CHIP_COMMIT_LAST_HI, 31, 0⟩
/-- CHIP_COMMIT_TARGET_LO (R443). -/
def K.CHIP_COMMIT_TARGET_LO : Nat := 0x428
def F.CHIP_COMMIT_TARGET_LO_TARGET : Fld := ⟨K.CHIP_COMMIT_TARGET_LO, 31, 0⟩
/-- CHIP_COMMIT_TARGET_HI (R443). -/
def K.CHIP_COMMIT_TARGET_HI : Nat := 0x42C
def F.CHIP_COMMIT_TARGET_HI_TARGET : Fld := ⟨K.CHIP_COMMIT_TARGET_HI, 31, 0⟩
/-- CHIP_CNT_COMMIT (R443). -/
def K.CHIP_CNT_COMMIT : Nat := 0x430
def F.CHIP_CNT_COMMIT : Fld := ⟨K.CHIP_CNT_COMMIT, 31, 0⟩
/-- CHIP_CNT_COMMIT_WAIT (R443). -/
def K.CHIP_CNT_COMMIT_WAIT : Nat := 0x434
def F.CHIP_CNT_COMMIT_WAIT : Fld := ⟨K.CHIP_CNT_COMMIT_WAIT, 31, 0⟩
/-- CLK_STAT (R423). -/
def K.CLK_STAT : Nat := 0x800
def F.CLK_STAT_HALF : Fld := ⟨K.CLK_STAT, 31, 31⟩
def F.CLK_STAT_SYS_LOCK : Fld := ⟨K.CLK_STAT, 30, 30⟩
def F.CLK_STAT_LNK_LOCK : Fld := ⟨K.CLK_STAT, 29, 29⟩
def F.CLK_STAT_HOST_LOCK : Fld := ⟨K.CLK_STAT, 28, 28⟩
def F.CLK_STAT_DDR_LOCK : Fld := ⟨K.CLK_STAT, 27, 27⟩
/-- CLK_DROOP_CTL (R423). -/
def K.CLK_DROOP_CTL : Nat := 0x804
def F.CLK_DROOP_CTL_EN : Fld := ⟨K.CLK_DROOP_CTL, 31, 31⟩
def F.CLK_DROOP_CTL_CLEAN_US : Fld := ⟨K.CLK_DROOP_CTL, 7, 0⟩
/-- CLK_WAKE (R423). -/
def K.CLK_WAKE : Nat := 0x808
def F.CLK_WAKE_WAKE_N : Fld := ⟨K.CLK_WAKE, 3, 0⟩
/-- CLK_CNT_DROOP (R423). -/
def K.CLK_CNT_DROOP : Nat := 0x80C
def F.CLK_CNT_DROOP : Fld := ⟨K.CLK_CNT_DROOP, 31, 0⟩
/-- CLK_CNT_HALF_US (R423). -/
def K.CLK_CNT_HALF_US : Nat := 0x810
def F.CLK_CNT_HALF_US : Fld := ⟨K.CLK_CNT_HALF_US, 31, 0⟩
/-- LNK_CTL (R250). -/
def K.LNK_CTL : Nat := 0x1000
def F.LNK_CTL_W_EN : Fld := ⟨K.LNK_CTL, 31, 31⟩
def F.LNK_CTL_E_EN : Fld := ⟨K.LNK_CTL, 30, 30⟩
def F.LNK_CTL_P_EN : Fld := ⟨K.LNK_CTL, 29, 29⟩
def F.LNK_CTL_REBOND_EN : Fld := ⟨K.LNK_CTL, 28, 28⟩
/-- LNK_RETRY (R250). -/
def K.LNK_RETRY : Nat := 0x1004
def F.LNK_RETRY_RETRY_MAX : Fld := ⟨K.LNK_RETRY, 31, 24⟩
def F.LNK_RETRY_ACK_10NS : Fld := ⟨K.LNK_RETRY, 23, 16⟩
def F.LNK_RETRY_REPLAY_US : Fld := ⟨K.LNK_RETRY, 7, 0⟩
/-- LNK_TRAIN (R250). -/
def K.LNK_TRAIN : Nat := 0x1008
def F.LNK_TRAIN_TRAIN_MS : Fld := ⟨K.LNK_TRAIN, 31, 24⟩
def F.LNK_TRAIN_RETRAIN_MS : Fld := ⟨K.LNK_TRAIN, 23, 16⟩
def F.LNK_TRAIN_LOCK_US : Fld := ⟨K.LNK_TRAIN, 15, 8⟩
def F.LNK_TRAIN_DEG_UE : Fld := ⟨K.LNK_TRAIN, 7, 0⟩
/-- LNK_INJ (R250). -/
def K.LNK_INJ : Nat := 0x100C
def F.LNK_INJ_ARM : Fld := ⟨K.LNK_INJ, 31, 31⟩
def F.LNK_INJ_KIND : Fld := ⟨K.LNK_INJ, 30, 30⟩
def F.LNK_INJ_SYMS : Fld := ⟨K.LNK_INJ, 11, 8⟩
def F.LNK_INJ_LANE : Fld := ⟨K.LNK_INJ, 2, 0⟩
/-- LNK_LINKk_STAT (R250). -/
def K.LNK_LINK_STAT (i : Nat) : Nat := 0x1100 + 0x80 * i
def F.LNK_LINK_STAT_STATE (i : Nat) : Fld := ⟨K.LNK_LINK_STAT i, 31, 29⟩
def F.LNK_LINK_STAT_RXL (i : Nat) : Fld := ⟨K.LNK_LINK_STAT i, 28, 27⟩
def F.LNK_LINK_STAT_TXL (i : Nat) : Fld := ⟨K.LNK_LINK_STAT i, 26, 25⟩
def F.LNK_LINK_STAT_SWAP (i : Nat) : Fld := ⟨K.LNK_LINK_STAT i, 24, 24⟩
def F.LNK_LINK_STAT_OUT (i : Nat) : Fld := ⟨K.LNK_LINK_STAT i, 23, 16⟩
/-- LNK_LINKk_CNT_RXOK (R250). -/
def K.LNK_LINK_CNT_RXOK (i : Nat) : Nat := 0x1104 + 0x80 * i
def F.LNK_LINK_CNT_RXOK (i : Nat) : Fld := ⟨K.LNK_LINK_CNT_RXOK i, 31, 0⟩
/-- LNK_LINKk_CNT_CRC (R250). -/
def K.LNK_LINK_CNT_CRC (i : Nat) : Nat := 0x1108 + 0x80 * i
def F.LNK_LINK_CNT_CRC (i : Nat) : Fld := ⟨K.LNK_LINK_CNT_CRC i, 31, 0⟩
/-- LNK_LINKk_CNT_STOMP_RX (R250). -/
def K.LNK_LINK_CNT_STOMP_RX (i : Nat) : Nat := 0x110C + 0x80 * i
def F.LNK_LINK_CNT_STOMP_RX (i : Nat) : Fld := ⟨K.LNK_LINK_CNT_STOMP_RX i, 31, 0⟩
/-- LNK_LINKk_CNT_STOMP_TX (R250). -/
def K.LNK_LINK_CNT_STOMP_TX (i : Nat) : Nat := 0x1110 + 0x80 * i
def F.LNK_LINK_CNT_STOMP_TX (i : Nat) : Fld := ⟨K.LNK_LINK_CNT_STOMP_TX i, 31, 0⟩
/-- LNK_LINKk_CNT_FIXED (R250). -/
def K.LNK_LINK_CNT_FIXED (i : Nat) : Nat := 0x1114 + 0x80 * i
def F.LNK_LINK_CNT_FIXED (i : Nat) : Fld := ⟨K.LNK_LINK_CNT_FIXED i, 31, 0⟩
/-- LNK_LINKk_CNT_NAK_TX (R250). -/
def K.LNK_LINK_CNT_NAK_TX (i : Nat) : Nat := 0x1118 + 0x80 * i
def F.LNK_LINK_CNT_NAK_TX (i : Nat) : Fld := ⟨K.LNK_LINK_CNT_NAK_TX i, 31, 0⟩
/-- LNK_LINKk_CNT_NAK_RX (R250). -/
def K.LNK_LINK_CNT_NAK_RX (i : Nat) : Nat := 0x111C + 0x80 * i
def F.LNK_LINK_CNT_NAK_RX (i : Nat) : Fld := ⟨K.LNK_LINK_CNT_NAK_RX i, 31, 0⟩
/-- LNK_LINKk_CNT_REPLAY (R250). -/
def K.LNK_LINK_CNT_REPLAY (i : Nat) : Nat := 0x1120 + 0x80 * i
def F.LNK_LINK_CNT_REPLAY (i : Nat) : Fld := ⟨K.LNK_LINK_CNT_REPLAY i, 31, 0⟩
/-- LNK_LINKk_CNT_ESCAPE (R250). -/
def K.LNK_LINK_CNT_ESCAPE (i : Nat) : Nat := 0x1124 + 0x80 * i
def F.LNK_LINK_CNT_ESCAPE (i : Nat) : Fld := ⟨K.LNK_LINK_CNT_ESCAPE i, 31, 0⟩
/-- LNK_LINKk_CNT_DOWN (R250). -/
def K.LNK_LINK_CNT_DOWN (i : Nat) : Nat := 0x1128 + 0x80 * i
def F.LNK_LINK_CNT_DOWN (i : Nat) : Fld := ⟨K.LNK_LINK_CNT_DOWN i, 31, 0⟩
/-- LNK_LANEl_STAT (R250). -/
def K.LNK_LANE_STAT (i : Nat) : Nat := 0x1300 + 0x40 * i
def F.LNK_LANE_STAT_BLOCK (i : Nat) : Fld := ⟨K.LNK_LANE_STAT i, 31, 31⟩
def F.LNK_LANE_STAT_CWLOCK (i : Nat) : Fld := ⟨K.LNK_LANE_STAT i, 30, 30⟩
def F.LNK_LANE_STAT_INBOND (i : Nat) : Fld := ⟨K.LNK_LANE_STAT i, 29, 29⟩
def F.LNK_LANE_STAT_MISWIRE (i : Nat) : Fld := ⟨K.LNK_LANE_STAT i, 28, 28⟩
def F.LNK_LANE_STAT_RSIDE (i : Nat) : Fld := ⟨K.LNK_LANE_STAT i, 27, 26⟩
def F.LNK_LANE_STAT_RLANE (i : Nat) : Fld := ⟨K.LNK_LANE_STAT i, 25, 25⟩
def F.LNK_LANE_STAT_RNODE (i : Nat) : Fld := ⟨K.LNK_LANE_STAT i, 10, 0⟩
/-- LNK_LANEl_CNT_CW_CORR (R250). -/
def K.LNK_LANE_CNT_CW_CORR (i : Nat) : Nat := 0x1304 + 0x40 * i
def F.LNK_LANE_CNT_CW_CORR (i : Nat) : Fld := ⟨K.LNK_LANE_CNT_CW_CORR i, 31, 0⟩
/-- LNK_LANEl_CNT_CW_UNCORR (R250). -/
def K.LNK_LANE_CNT_CW_UNCORR (i : Nat) : Nat := 0x1308 + 0x40 * i
def F.LNK_LANE_CNT_CW_UNCORR (i : Nat) : Fld := ⟨K.LNK_LANE_CNT_CW_UNCORR i, 31, 0⟩
/-- LNK_LANEl_CNT_SYM_CORR (R250). -/
def K.LNK_LANE_CNT_SYM_CORR (i : Nat) : Nat := 0x130C + 0x40 * i
def F.LNK_LANE_CNT_SYM_CORR (i : Nat) : Fld := ⟨K.LNK_LANE_CNT_SYM_CORR i, 31, 0⟩
/-- LNK_LANEl_CNT_LOCK_LOSS (R250). -/
def K.LNK_LANE_CNT_LOCK_LOSS (i : Nat) : Nat := 0x1310 + 0x40 * i
def F.LNK_LANE_CNT_LOCK_LOSS (i : Nat) : Fld := ⟨K.LNK_LANE_CNT_LOCK_LOSS i, 31, 0⟩
/-- NET_CTL (R277). -/
def K.NET_CTL : Nat := 0x1800
def F.NET_CTL_JOIN_EN : Fld := ⟨K.NET_CTL, 31, 31⟩
def F.NET_CTL_MCAP : Fld := ⟨K.NET_CTL, 30, 30⟩
/-- NET_ID (R277). -/
def K.NET_ID : Nat := 0x1804
def F.NET_ID_SRC : Fld := ⟨K.NET_ID, 31, 31⟩
def F.NET_ID_STATE : Fld := ⟨K.NET_ID, 30, 28⟩
def F.NET_ID_ID : Fld := ⟨K.NET_ID, 10, 0⟩
/-- NET_ROUTE (R277). -/
def K.NET_ROUTE : Nat := 0x1808
def F.NET_ROUTE_CTRL_MODE : Fld := ⟨K.NET_ROUTE, 31, 30⟩
def F.NET_ROUTE_DATA_MODE : Fld := ⟨K.NET_ROUTE, 29, 28⟩
def F.NET_ROUTE_BULK_MODE : Fld := ⟨K.NET_ROUTE, 27, 26⟩
def F.NET_ROUTE_BAL_HOPS : Fld := ⟨K.NET_ROUTE, 7, 0⟩
/-- NET_TAG (R277). -/
def K.NET_TAG : Nat := 0x180C
def F.NET_TAG_OPEN : Fld := ⟨K.NET_TAG, 28, 16⟩
def F.NET_TAG_TO_MS : Fld := ⟨K.NET_TAG, 15, 0⟩
/-- NET_DUP (R277). -/
def K.NET_DUP : Nat := 0x1810
def F.NET_DUP_FILTER : Fld := ⟨K.NET_DUP, 26, 16⟩
def F.NET_DUP_DUP_US : Fld := ⟨K.NET_DUP, 15, 0⟩
/-- NET_WRAP (R277). -/
def K.NET_WRAP : Nat := 0x1814
def F.NET_WRAP_HOLD_US : Fld := ⟨K.NET_WRAP, 15, 0⟩
/-- NET_JOIN (R277). -/
def K.NET_JOIN : Nat := 0x1818
def F.NET_JOIN_JOIN_MS : Fld := ⟨K.NET_JOIN, 31, 24⟩
def F.NET_JOIN_ELECT_MS : Fld := ⟨K.NET_JOIN, 23, 16⟩
def F.NET_JOIN_STALL_US : Fld := ⟨K.NET_JOIN, 15, 0⟩
/-- NET_STAT (R277). -/
def K.NET_STAT : Nat := 0x181C
def F.NET_STAT_ROLE : Fld := ⟨K.NET_STAT, 31, 30⟩
def F.NET_STAT_WRAP_W : Fld := ⟨K.NET_STAT, 29, 29⟩
def F.NET_STAT_WRAP_E : Fld := ⟨K.NET_STAT, 28, 28⟩
def F.NET_STAT_REBUILD : Fld := ⟨K.NET_STAT, 27, 27⟩
def F.NET_STAT_BWID : Fld := ⟨K.NET_STAT, 26, 16⟩
def F.NET_STAT_NODES : Fld := ⟨K.NET_STAT, 10, 0⟩
/-- NET_EPOCH_CTL (R277). -/
def K.NET_EPOCH_CTL : Nat := 0x1820
def F.NET_EPOCH_CTL_LOSS_N : Fld := ⟨K.NET_EPOCH_CTL, 31, 24⟩
def F.NET_EPOCH_CTL_DLY_MS : Fld := ⟨K.NET_EPOCH_CTL, 23, 16⟩
def F.NET_EPOCH_CTL_PERIOD_US : Fld := ⟨K.NET_EPOCH_CTL, 13, 0⟩
/-- NET_EPOCH_STEP (R277). -/
def K.NET_EPOCH_STEP : Nat := 0x1824
def F.NET_EPOCH_STEP_STEP_NS : Fld := ⟨K.NET_EPOCH_STEP, 19, 0⟩
/-- NET_EPOCH_SET_LO (R277). -/
def K.NET_EPOCH_SET_LO : Nat := 0x1828
def F.NET_EPOCH_SET_LO_SET_LO : Fld := ⟨K.NET_EPOCH_SET_LO, 31, 0⟩
/-- NET_EPOCH_SET_HI (R277). -/
def K.NET_EPOCH_SET_HI : Nat := 0x182C
def F.NET_EPOCH_SET_HI_SET_HI : Fld := ⟨K.NET_EPOCH_SET_HI, 31, 0⟩
/-- NET_EPOCH_NOW_LO (R277). -/
def K.NET_EPOCH_NOW_LO : Nat := 0x1830
def F.NET_EPOCH_NOW_LO_NOW_LO : Fld := ⟨K.NET_EPOCH_NOW_LO, 31, 0⟩
/-- NET_EPOCH_NOW_HI (R277). -/
def K.NET_EPOCH_NOW_HI : Nat := 0x1834
def F.NET_EPOCH_NOW_HI_NOW_HI : Fld := ⟨K.NET_EPOCH_NOW_HI, 31, 0⟩
/-- NET_EPOCH_STAT (R277). -/
def K.NET_EPOCH_STAT : Nat := 0x1838
def F.NET_EPOCH_STAT_VALID : Fld := ⟨K.NET_EPOCH_STAT, 31, 31⟩
def F.NET_EPOCH_STAT_RING : Fld := ⟨K.NET_EPOCH_STAT, 30, 30⟩
def F.NET_EPOCH_STAT_HOPS : Fld := ⟨K.NET_EPOCH_STAT, 26, 16⟩
def F.NET_EPOCH_STAT_ERR : Fld := ⟨K.NET_EPOCH_STAT, 15, 0⟩
/-- NET_DLY_W (R277). -/
def K.NET_DLY_W : Nat := 0x183C
def F.NET_DLY_W_VALID : Fld := ⟨K.NET_DLY_W, 31, 31⟩
def F.NET_DLY_W_ASYM : Fld := ⟨K.NET_DLY_W, 30, 30⟩
def F.NET_DLY_W_DLY : Fld := ⟨K.NET_DLY_W, 19, 0⟩
/-- NET_DLY_E (R277). -/
def K.NET_DLY_E : Nat := 0x1840
def F.NET_DLY_E_VALID : Fld := ⟨K.NET_DLY_E, 31, 31⟩
def F.NET_DLY_E_ASYM : Fld := ⟨K.NET_DLY_E, 30, 30⟩
def F.NET_DLY_E_DLY : Fld := ⟨K.NET_DLY_E, 19, 0⟩
/-- NET_NT_SEL (R277). -/
def K.NET_NT_SEL : Nat := 0x1844
def F.NET_NT_SEL_NODE : Fld := ⟨K.NET_NT_SEL, 10, 0⟩
/-- NET_NT (R277). -/
def K.NET_NT (e : Nat) : Nat := winKey (0x1848) e
def F.NET_NT_PRESENT (e : Nat) : Fld := ⟨K.NET_NT e, 31, 31⟩
def F.NET_NT_MCAP (e : Nat) : Fld := ⟨K.NET_NT e, 30, 30⟩
def F.NET_NT_HOPS_A (e : Nat) : Fld := ⟨K.NET_NT e, 10, 0⟩
/-- NET_CNT_TX (R277). -/
def K.NET_CNT_TX : Nat := 0x1850
def F.NET_CNT_TX : Fld := ⟨K.NET_CNT_TX, 31, 0⟩
/-- NET_CNT_DROP (R277). -/
def K.NET_CNT_DROP : Nat := 0x1854
def F.NET_CNT_DROP : Fld := ⟨K.NET_CNT_DROP, 31, 0⟩
/-- NET_CNT_DUP (R277). -/
def K.NET_CNT_DUP : Nat := 0x1858
def F.NET_CNT_DUP : Fld := ⟨K.NET_CNT_DUP, 31, 0⟩
/-- NET_CNT_DUP_EVICT (R277). -/
def K.NET_CNT_DUP_EVICT : Nat := 0x185C
def F.NET_CNT_DUP_EVICT : Fld := ⟨K.NET_CNT_DUP_EVICT, 31, 0⟩
/-- NET_CNT_STRIP (R277). -/
def K.NET_CNT_STRIP : Nat := 0x1860
def F.NET_CNT_STRIP : Fld := ⟨K.NET_CNT_STRIP, 31, 0⟩
/-- NET_CNT_TAG_TO (R277). -/
def K.NET_CNT_TAG_TO : Nat := 0x1864
def F.NET_CNT_TAG_TO : Fld := ⟨K.NET_CNT_TAG_TO, 31, 0⟩
/-- NET_CNT_LATE_RSP (R277). -/
def K.NET_CNT_LATE_RSP : Nat := 0x1868
def F.NET_CNT_LATE_RSP : Fld := ⟨K.NET_CNT_LATE_RSP, 31, 0⟩
/-- NET_CNT_NO_NODE (R277). -/
def K.NET_CNT_NO_NODE : Nat := 0x186C
def F.NET_CNT_NO_NODE : Fld := ⟨K.NET_CNT_NO_NODE, 31, 0⟩
/-- NET_CNT_WRAP (R277). -/
def K.NET_CNT_WRAP : Nat := 0x1870
def F.NET_CNT_WRAP : Fld := ⟨K.NET_CNT_WRAP, 31, 0⟩
/-- NET_CNT_WRAP_LOST (R277). -/
def K.NET_CNT_WRAP_LOST : Nat := 0x1874
def F.NET_CNT_WRAP_LOST : Fld := ⟨K.NET_CNT_WRAP_LOST, 31, 0⟩
/-- NET_CNT_STEP (R277). -/
def K.NET_CNT_STEP : Nat := 0x1878
def F.NET_CNT_STEP : Fld := ⟨K.NET_CNT_STEP, 31, 0⟩
/-- NET_CNT_PKT_BAD (R277). -/
def K.NET_CNT_PKT_BAD : Nat := 0x187C
def F.NET_CNT_PKT_BAD : Fld := ⟨K.NET_CNT_PKT_BAD, 31, 0⟩
/-- NET_CNT_DROP_STALL (R277). -/
def K.NET_CNT_DROP_STALL : Nat := 0x1880
def F.NET_CNT_DROP_STALL : Fld := ⟨K.NET_CNT_DROP_STALL, 31, 0⟩
/-- HST_CTL (R227). -/
def K.HST_CTL : Nat := 0x2000
def F.HST_CTL_FETCH_EN : Fld := ⟨K.HST_CTL, 31, 31⟩
def F.HST_CTL_HEAD : Fld := ⟨K.HST_CTL, 0, 0⟩
/-- HST_POLL (R227). -/
def K.HST_POLL : Nat := 0x2004
def F.HST_POLL_MAX_US : Fld := ⟨K.HST_POLL, 31, 20⟩
def F.HST_POLL_FETCH_MAX : Fld := ⟨K.HST_POLL, 19, 16⟩
def F.HST_POLL_MIN_10NS : Fld := ⟨K.HST_POLL, 9, 0⟩
/-- HST_WAKE (R227). -/
def K.HST_WAKE : Nat := 0x2008
def F.HST_WAKE_WAKE : Fld := ⟨K.HST_WAKE, 31, 0⟩
/-- HST_STAT (R227). -/
def K.HST_STAT : Nat := 0x200C
def F.HST_STAT_INTERVAL : Fld := ⟨K.HST_STAT, 18, 0⟩
/-- HST_DB_BASE_LO (R227). -/
def K.HST_DB_BASE_LO : Nat := 0x2010
def F.HST_DB_BASE_LO_BASE_LO : Fld := ⟨K.HST_DB_BASE_LO, 31, 12⟩
/-- HST_DB_BASE_HI (R227). -/
def K.HST_DB_BASE_HI : Nat := 0x2014
def F.HST_DB_BASE_HI_BASE_HI : Fld := ⟨K.HST_DB_BASE_HI, 31, 0⟩
/-- HST_SH_BASE_LO (R227). -/
def K.HST_SH_BASE_LO : Nat := 0x2018
def F.HST_SH_BASE_LO_BASE_LO : Fld := ⟨K.HST_SH_BASE_LO, 31, 12⟩
/-- HST_SH_BASE_HI (R227). -/
def K.HST_SH_BASE_HI : Nat := 0x201C
def F.HST_SH_BASE_HI_BASE_HI : Fld := ⟨K.HST_SH_BASE_HI, 31, 0⟩
/-- HST_B2_BASE (R227). -/
def K.HST_B2_BASE : Nat := 0x2020
def F.HST_B2_BASE_NODE : Fld := ⟨K.HST_B2_BASE, 26, 16⟩
def F.HST_B2_BASE_OFFSET_HI : Fld := ⟨K.HST_B2_BASE, 11, 0⟩
/-- HST_PCIE_CTL (R227). -/
def K.HST_PCIE_CTL : Nat := 0x2024
def F.HST_PCIE_CTL_B2_EN : Fld := ⟨K.HST_PCIE_CTL, 31, 31⟩
/-- HST_PCIE_STAT (R227). -/
def K.HST_PCIE_STAT : Nat := 0x2028
def F.HST_PCIE_STAT_LINK_UP : Fld := ⟨K.HST_PCIE_STAT, 31, 31⟩
def F.HST_PCIE_STAT_BME : Fld := ⟨K.HST_PCIE_STAT, 30, 30⟩
def F.HST_PCIE_STAT_SPEED : Fld := ⟨K.HST_PCIE_STAT, 29, 26⟩
def F.HST_PCIE_STAT_WIDTH : Fld := ⟨K.HST_PCIE_STAT, 25, 20⟩
/-- HST_EVR_BASE_LO (R227). -/
def K.HST_EVR_BASE_LO : Nat := 0x2030
def F.HST_EVR_BASE_LO_BASE_LO : Fld := ⟨K.HST_EVR_BASE_LO, 31, 12⟩
/-- HST_EVR_BASE_HI (R227). -/
def K.HST_EVR_BASE_HI : Nat := 0x2034
def F.HST_EVR_BASE_HI_BASE_HI : Fld := ⟨K.HST_EVR_BASE_HI, 31, 0⟩
/-- HST_EVR_CTL (R227). -/
def K.HST_EVR_CTL : Nat := 0x2038
def F.HST_EVR_CTL_EN : Fld := ⟨K.HST_EVR_CTL, 31, 31⟩
def F.HST_EVR_CTL_MSIX_EN : Fld := ⟨K.HST_EVR_CTL, 30, 30⟩
def F.HST_EVR_CTL_MSIX_VEC : Fld := ⟨K.HST_EVR_CTL, 23, 16⟩
def F.HST_EVR_CTL_SIZE : Fld := ⟨K.HST_EVR_CTL, 4, 0⟩
/-- HST_STR_BASE_LO (R227). -/
def K.HST_STR_BASE_LO : Nat := 0x2040
def F.HST_STR_BASE_LO_BASE_LO : Fld := ⟨K.HST_STR_BASE_LO, 31, 12⟩
/-- HST_STR_BASE_HI (R227). -/
def K.HST_STR_BASE_HI : Nat := 0x2044
def F.HST_STR_BASE_HI_BASE_HI : Fld := ⟨K.HST_STR_BASE_HI, 31, 0⟩
/-- HST_STR_CTL (R227). -/
def K.HST_STR_CTL : Nat := 0x2048
def F.HST_STR_CTL_EN : Fld := ⟨K.HST_STR_CTL, 31, 31⟩
def F.HST_STR_CTL_SIZE : Fld := ⟨K.HST_STR_CTL, 3, 0⟩
/-- HST_CR_SEL (R227). -/
def K.HST_CR_SEL : Nat := 0x2050
def F.HST_CR_SEL_RING : Fld := ⟨K.HST_CR_SEL, 7, 0⟩
/-- HST_CR_BASE_LO (R227). -/
def K.HST_CR_BASE_LO (e : Nat) : Nat := winKey (0x2054) e
def F.HST_CR_BASE_LO_BASE_LO (e : Nat) : Fld := ⟨K.HST_CR_BASE_LO e, 31, 12⟩
/-- HST_CR_BASE_HI (R227). -/
def K.HST_CR_BASE_HI (e : Nat) : Nat := winKey (0x2058) e
def F.HST_CR_BASE_HI_BASE_HI (e : Nat) : Fld := ⟨K.HST_CR_BASE_HI e, 31, 0⟩
/-- HST_CR_CTL (R227). -/
def K.HST_CR_CTL (e : Nat) : Nat := winKey (0x205C) e
def F.HST_CR_CTL_EN (e : Nat) : Fld := ⟨K.HST_CR_CTL e, 31, 31⟩
def F.HST_CR_CTL_ORD (e : Nat) : Fld := ⟨K.HST_CR_CTL e, 30, 30⟩
def F.HST_CR_CTL_CQ (e : Nat) : Fld := ⟨K.HST_CR_CTL e, 23, 16⟩
def F.HST_CR_CTL_SIZE (e : Nat) : Fld := ⟨K.HST_CR_CTL e, 4, 0⟩
/-- HST_CR_STAT (R227). -/
def K.HST_CR_STAT (e : Nat) : Nat := winKey (0x2060) e
def F.HST_CR_STAT_STOPPED (e : Nat) : Fld := ⟨K.HST_CR_STAT e, 31, 31⟩
def F.HST_CR_STAT_GEN (e : Nat) : Fld := ⟨K.HST_CR_STAT e, 15, 0⟩
/-- HST_CR_CI (R227). -/
def K.HST_CR_CI (e : Nat) : Nat := winKey (0x2064) e
def F.HST_CR_CI_CI (e : Nat) : Fld := ⟨K.HST_CR_CI e, 31, 0⟩
/-- HST_CQ_SEL (R227). -/
def K.HST_CQ_SEL : Nat := 0x2070
def F.HST_CQ_SEL_RING : Fld := ⟨K.HST_CQ_SEL, 7, 0⟩
/-- HST_CQ_BASE_LO (R227). -/
def K.HST_CQ_BASE_LO (e : Nat) : Nat := winKey (0x2074) e
def F.HST_CQ_BASE_LO_BASE_LO (e : Nat) : Fld := ⟨K.HST_CQ_BASE_LO e, 31, 12⟩
/-- HST_CQ_BASE_HI (R227). -/
def K.HST_CQ_BASE_HI (e : Nat) : Nat := winKey (0x2078) e
def F.HST_CQ_BASE_HI_BASE_HI (e : Nat) : Fld := ⟨K.HST_CQ_BASE_HI e, 31, 0⟩
/-- HST_CQ_CTL (R227). -/
def K.HST_CQ_CTL (e : Nat) : Nat := winKey (0x207C) e
def F.HST_CQ_CTL_EN (e : Nat) : Fld := ⟨K.HST_CQ_CTL e, 31, 31⟩
def F.HST_CQ_CTL_MSIX_EN (e : Nat) : Fld := ⟨K.HST_CQ_CTL e, 30, 30⟩
def F.HST_CQ_CTL_MSIX_VEC (e : Nat) : Fld := ⟨K.HST_CQ_CTL e, 23, 16⟩
def F.HST_CQ_CTL_COAL_US (e : Nat) : Fld := ⟨K.HST_CQ_CTL e, 15, 8⟩
def F.HST_CQ_CTL_SIZE (e : Nat) : Fld := ⟨K.HST_CQ_CTL e, 4, 0⟩
/-- HST_CQ_PI (R227). -/
def K.HST_CQ_PI (e : Nat) : Nat := winKey (0x2080) e
def F.HST_CQ_PI_PI (e : Nat) : Fld := ⟨K.HST_CQ_PI e, 31, 0⟩
/-- HST_CNT_POLL (R227). -/
def K.HST_CNT_POLL : Nat := 0x2100
def F.HST_CNT_POLL : Fld := ⟨K.HST_CNT_POLL, 31, 0⟩
/-- HST_CNT_DESC (R227). -/
def K.HST_CNT_DESC : Nat := 0x2104
def F.HST_CNT_DESC : Fld := ⟨K.HST_CNT_DESC, 31, 0⟩
/-- HST_CNT_DESC_BAD (R227). -/
def K.HST_CNT_DESC_BAD : Nat := 0x2108
def F.HST_CNT_DESC_BAD : Fld := ⟨K.HST_CNT_DESC_BAD, 31, 0⟩
/-- HST_CNT_CQ_FULL (R227). -/
def K.HST_CNT_CQ_FULL : Nat := 0x210C
def F.HST_CNT_CQ_FULL : Fld := ⟨K.HST_CNT_CQ_FULL, 31, 0⟩
/-- HST_CNT_CQ_OFF (R227). -/
def K.HST_CNT_CQ_OFF : Nat := 0x2110
def F.HST_CNT_CQ_OFF : Fld := ⟨K.HST_CNT_CQ_OFF, 31, 0⟩
/-- HST_CNT_EV_LOST (R227). -/
def K.HST_CNT_EV_LOST : Nat := 0x2114
def F.HST_CNT_EV_LOST : Fld := ⟨K.HST_CNT_EV_LOST, 31, 0⟩
/-- HST_CNT_ST_LOST (R227). -/
def K.HST_CNT_ST_LOST : Nat := 0x2118
def F.HST_CNT_ST_LOST : Fld := ⟨K.HST_CNT_ST_LOST, 31, 0⟩
/-- HST_CNT_B2_LOST_BYTES (R227). -/
def K.HST_CNT_B2_LOST_BYTES : Nat := 0x211C
def F.HST_CNT_B2_LOST_BYTES : Fld := ⟨K.HST_CNT_B2_LOST_BYTES, 31, 0⟩
/-- HST_CNT_HOST_ABORT (R227). -/
def K.HST_CNT_HOST_ABORT : Nat := 0x2120
def F.HST_CNT_HOST_ABORT : Fld := ⟨K.HST_CNT_HOST_ABORT, 31, 0⟩
/-- HST_HWINs_CTL (R39). -/
def K.HST_HWIN_CTL (i : Nat) : Nat := 0x2400 + 0x10 * i
def F.HST_HWIN_CTL_EN (i : Nat) : Fld := ⟨K.HST_HWIN_CTL i, 31, 31⟩
def F.HST_HWIN_CTL_NOSNOOP (i : Nat) : Fld := ⟨K.HST_HWIN_CTL i, 0, 0⟩
/-- HST_HWINs_BASE_LO (R39). -/
def K.HST_HWIN_BASE_LO (i : Nat) : Nat := 0x2404 + 0x10 * i
def F.HST_HWIN_BASE_LO_HBASE_LO (i : Nat) : Fld := ⟨K.HST_HWIN_BASE_LO i, 31, 12⟩
/-- HST_HWINs_BASE_HI (R39). -/
def K.HST_HWIN_BASE_HI (i : Nat) : Nat := 0x2408 + 0x10 * i
def F.HST_HWIN_BASE_HI_HBASE_HI (i : Nat) : Fld := ⟨K.HST_HWIN_BASE_HI i, 31, 0⟩
/-- DDR_CTL (R228). -/
def K.DDR_CTL : Nat := 0x2800
def F.DDR_CTL_SCRUB_EN : Fld := ⟨K.DDR_CTL, 31, 31⟩
def F.DDR_CTL_SCRUB_H : Fld := ⟨K.DDR_CTL, 7, 0⟩
/-- DDR_CFG (R228). -/
def K.DDR_CFG : Nat := 0x2804
def F.DDR_CFG_SIZE : Fld := ⟨K.DDR_CFG, 31, 30⟩
def F.DDR_CFG_RANKS : Fld := ⟨K.DDR_CFG, 29, 29⟩
def F.DDR_CFG_DEVW : Fld := ⟨K.DDR_CFG, 28, 28⟩
def F.DDR_CFG_MTS : Fld := ⟨K.DDR_CFG, 15, 0⟩
/-- DDR_STAT (R228). -/
def K.DDR_STAT : Nat := 0x2808
def F.DDR_STAT_READY : Fld := ⟨K.DDR_STAT, 31, 31⟩
def F.DDR_STAT_TRAIN_FAIL : Fld := ⟨K.DDR_STAT, 30, 30⟩
def F.DDR_STAT_REFRESH_2X : Fld := ⟨K.DDR_STAT, 29, 29⟩
/-- DDR_CNT_CE (R228). -/
def K.DDR_CNT_CE : Nat := 0x280C
def F.DDR_CNT_CE : Fld := ⟨K.DDR_CNT_CE, 31, 0⟩
/-- DDR_CNT_UE (R228). -/
def K.DDR_CNT_UE : Nat := 0x2810
def F.DDR_CNT_UE : Fld := ⟨K.DDR_CNT_UE, 31, 0⟩
/-- DDR_UE_ADDR_LO (R228). -/
def K.DDR_UE_ADDR_LO : Nat := 0x2814
def F.DDR_UE_ADDR_LO_ADDR_LO : Fld := ⟨K.DDR_UE_ADDR_LO, 31, 3⟩
/-- DDR_UE_ADDR_HI (R228). -/
def K.DDR_UE_ADDR_HI : Nat := 0x2818
def F.DDR_UE_ADDR_HI_ADDR_HI : Fld := ⟨K.DDR_UE_ADDR_HI, 1, 0⟩
/-- DDR_INJ (R228). -/
def K.DDR_INJ : Nat := 0x281C
def F.DDR_INJ_ARM : Fld := ⟨K.DDR_INJ, 31, 31⟩
def F.DDR_INJ_DOUBLE : Fld := ⟨K.DDR_INJ, 0, 0⟩
/-- DRV_CTL (R142). -/
def K.DRV_CTL : Nat := 0x3000
def F.DRV_CTL_STEAL_EN : Fld := ⟨K.DRV_CTL, 16, 16⟩
def F.DRV_CTL_REVOKE_MAX : Fld := ⟨K.DRV_CTL, 11, 8⟩
/-- DRV_STEAL (R142). -/
def K.DRV_STEAL : Nat := 0x3004
def F.DRV_STEAL_LOCAL_MIN : Fld := ⟨K.DRV_STEAL, 27, 24⟩
def F.DRV_STEAL_REMOTE_MIN : Fld := ⟨K.DRV_STEAL, 23, 20⟩
def F.DRV_STEAL_BATCH : Fld := ⟨K.DRV_STEAL, 18, 16⟩
def F.DRV_STEAL_CROSS_EN : Fld := ⟨K.DRV_STEAL, 8, 8⟩
def F.DRV_STEAL_IDLE_10NS : Fld := ⟨K.DRV_STEAL, 7, 0⟩
/-- DRV_WDOG (R142). -/
def K.DRV_WDOG : Nat := 0x3008
def F.DRV_WDOG_TL_US : Fld := ⟨K.DRV_WDOG, 9, 0⟩
/-- DRV_PLACE (R142). -/
def K.DRV_PLACE : Nat := 0x300C
def F.DRV_PLACE_CAD : Fld := ⟨K.DRV_PLACE, 31, 24⟩
def F.DRV_PLACE_FIELD : Fld := ⟨K.DRV_PLACE, 23, 16⟩
def F.DRV_PLACE_DESC : Fld := ⟨K.DRV_PLACE, 15, 8⟩
def F.DRV_PLACE_RING : Fld := ⟨K.DRV_PLACE, 7, 0⟩
/-- DRV_RSV_LO (R142). -/
def K.DRV_RSV_LO : Nat := 0x3010
def F.DRV_RSV_LO_RSV : Fld := ⟨K.DRV_RSV_LO, 31, 0⟩
/-- DRV_RSV_HI (R142). -/
def K.DRV_RSV_HI : Nat := 0x3014
def F.DRV_RSV_HI_RSV : Fld := ⟨K.DRV_RSV_HI, 31, 0⟩
/-- DRV_EN_LO (R142). -/
def K.DRV_EN_LO : Nat := 0x3018
def F.DRV_EN_LO_EN : Fld := ⟨K.DRV_EN_LO, 31, 0⟩
/-- DRV_EN_HI (R142). -/
def K.DRV_EN_HI : Nat := 0x301C
def F.DRV_EN_HI_EN : Fld := ⟨K.DRV_EN_HI, 31, 0⟩
/-- DRV_STILE (R142). -/
def K.DRV_STILE : Nat := 0x3020
def F.DRV_STILE_TO_US : Fld := ⟨K.DRV_STILE, 15, 0⟩
/-- DRV_STILE_STAT (R142). -/
def K.DRV_STILE_STAT : Nat := 0x3024
def F.DRV_STILE_STAT_INUSE : Fld := ⟨K.DRV_STILE_STAT, 25, 16⟩
def F.DRV_STILE_STAT_PEAK : Fld := ⟨K.DRV_STILE_STAT, 9, 0⟩
/-- DRV_LIVE_LO (R142). -/
def K.DRV_LIVE_LO : Nat := 0x3028
def F.DRV_LIVE_LO_LIVE : Fld := ⟨K.DRV_LIVE_LO, 31, 0⟩
/-- DRV_LIVE_HI (R142). -/
def K.DRV_LIVE_HI : Nat := 0x302C
def F.DRV_LIVE_HI_LIVE : Fld := ⟨K.DRV_LIVE_HI, 31, 0⟩
/-- DRV_CNT_STILE_SKIP (R142). -/
def K.DRV_CNT_STILE_SKIP : Nat := 0x3030
def F.DRV_CNT_STILE_SKIP : Fld := ⟨K.DRV_CNT_STILE_SKIP, 31, 0⟩
/-- DRV_CNT_STILE_WAIT (R142). -/
def K.DRV_CNT_STILE_WAIT : Nat := 0x3034
def F.DRV_CNT_STILE_WAIT : Fld := ⟨K.DRV_CNT_STILE_WAIT, 31, 0⟩
/-- DRV_CNT_RERUN (R142). -/
def K.DRV_CNT_RERUN : Nat := 0x3038
def F.DRV_CNT_RERUN : Fld := ⟨K.DRV_CNT_RERUN, 31, 0⟩
/-- DRV_CNT_UNSAFE (R142). -/
def K.DRV_CNT_UNSAFE : Nat := 0x303C
def F.DRV_CNT_UNSAFE : Fld := ⟨K.DRV_CNT_UNSAFE, 31, 0⟩
/-- DRV_BLK_b_LOCAL (R142). -/
def K.DRV_BLK_LOCAL (i : Nat) : Nat := 0x3040 + 0x8 * i
def F.DRV_BLK_LOCAL (i : Nat) : Fld := ⟨K.DRV_BLK_LOCAL i, 31, 0⟩
/-- DRV_BLK_b_CROSS (R142). -/
def K.DRV_BLK_CROSS (i : Nat) : Nat := 0x3044 + 0x8 * i
def F.DRV_BLK_CROSS (i : Nat) : Fld := ⟨K.DRV_BLK_CROSS i, 31, 0⟩
/-- DRV_d_STAT (R142). -/
def K.DRV_D_STAT (i : Nat) : Nat := 0x3100 + 0x10 * i
def F.DRV_D_STAT_STATE (i : Nat) : Fld := ⟨K.DRV_D_STAT i, 31, 30⟩
def F.DRV_D_STAT_REVOKES (i : Nat) : Fld := ⟨K.DRV_D_STAT i, 23, 16⟩
def F.DRV_D_STAT_DEPTH (i : Nat) : Fld := ⟨K.DRV_D_STAT i, 15, 0⟩
/-- DRV_d_RUN (R142). -/
def K.DRV_D_RUN (i : Nat) : Nat := 0x3104 + 0x10 * i
def F.DRV_D_RUN (i : Nat) : Fld := ⟨K.DRV_D_RUN i, 31, 0⟩
/-- DRV_d_STOLE (R142). -/
def K.DRV_D_STOLE (i : Nat) : Nat := 0x3108 + 0x10 * i
def F.DRV_D_STOLE (i : Nat) : Fld := ⟨K.DRV_D_STOLE i, 31, 0⟩
/-- DRV_d_LOSS (R142). -/
def K.DRV_D_LOSS (i : Nat) : Nat := 0x310C + 0x10 * i
def F.DRV_D_LOSS (i : Nat) : Fld := ⟨K.DRV_D_LOSS i, 31, 0⟩
/-- FLD_POOL (R197). -/
def K.FLD_POOL : Nat := 0x3800
def F.FLD_POOL_FREE : Fld := ⟨K.FLD_POOL, 16, 0⟩
/-- FLD_POOL_RSV (R197). -/
def K.FLD_POOL_RSV : Nat := 0x3804
def F.FLD_POOL_RSV_RSV_SUM : Fld := ⟨K.FLD_POOL_RSV, 16, 0⟩
/-- FLD_POOL_PEAK (R197). -/
def K.FLD_POOL_PEAK : Nat := 0x3808
def F.FLD_POOL_PEAK_PEAK : Fld := ⟨K.FLD_POOL_PEAK, 16, 0⟩
/-- FLD_SWEEP (R197). -/
def K.FLD_SWEEP : Nat := 0x380C
def F.FLD_SWEEP_BUSY : Fld := ⟨K.FLD_SWEEP, 31, 31⟩
def F.FLD_SWEEP_PENDING : Fld := ⟨K.FLD_SWEEP, 12, 0⟩
/-- FLD_SEL (R197). -/
def K.FLD_SEL : Nat := 0x3810
def F.FLD_SEL_FOLD : Fld := ⟨K.FLD_SEL, 11, 0⟩
/-- FLD_COMMIT_STAT (R197). -/
def K.FLD_COMMIT_STAT : Nat := 0x3814
def F.FLD_COMMIT_STAT_REFUSED : Fld := ⟨K.FLD_COMMIT_STAT, 31, 31⟩
def F.FLD_COMMIT_STAT_CAUSE : Fld := ⟨K.FLD_COMMIT_STAT, 23, 16⟩
def F.FLD_COMMIT_STAT_INDEX : Fld := ⟨K.FLD_COMMIT_STAT, 11, 0⟩
/-- FLD_INJ (R197). -/
def K.FLD_INJ : Nat := 0x3818
def F.FLD_INJ_ARM : Fld := ⟨K.FLD_INJ, 31, 31⟩
def F.FLD_INJ_TAIL : Fld := ⟨K.FLD_INJ, 12, 12⟩
def F.FLD_INJ_FOLD : Fld := ⟨K.FLD_INJ, 11, 0⟩
/-- FLD_F_CTL (R197). -/
def K.FLD_F_CTL (e : Nat) : Nat := winKey (0x3820) e
def F.FLD_F_CTL_MIRROR (e : Nat) : Fld := ⟨K.FLD_F_CTL e, 31, 31⟩
def F.FLD_F_CTL_FLUSH (e : Nat) : Fld := ⟨K.FLD_F_CTL e, 30, 30⟩
def F.FLD_F_CTL_FLOOR_RST (e : Nat) : Fld := ⟨K.FLD_F_CTL e, 29, 29⟩
/-- FLD_F_QUOTA (R197). -/
def K.FLD_F_QUOTA (e : Nat) : Nat := winKey (0x3824) e
def F.FLD_F_QUOTA_QUOTA (e : Nat) : Fld := ⟨K.FLD_F_QUOTA e, 16, 0⟩
/-- FLD_F_RSV (R197). -/
def K.FLD_F_RSV (e : Nat) : Nat := winKey (0x3828) e
def F.FLD_F_RSV_RSV (e : Nat) : Fld := ⟨K.FLD_F_RSV e, 16, 0⟩
/-- FLD_F_WM (R197). -/
def K.FLD_F_WM (e : Nat) : Nat := winKey (0x382C) e
def F.FLD_F_WM_HIGH (e : Nat) : Fld := ⟨K.FLD_F_WM e, 31, 16⟩
def F.FLD_F_WM_LOW (e : Nat) : Fld := ⟨K.FLD_F_WM e, 15, 0⟩
/-- FLD_F_STALE (R197). -/
def K.FLD_F_STALE (e : Nat) : Nat := winKey (0x3830) e
def F.FLD_F_STALE_STALE_US (e : Nat) : Fld := ⟨K.FLD_F_STALE e, 19, 0⟩
/-- FLD_F_LEVEL (R197). -/
def K.FLD_F_LEVEL (e : Nat) : Nat := winKey (0x3834) e
def F.FLD_F_LEVEL_WORDS (e : Nat) : Fld := ⟨K.FLD_F_LEVEL e, 19, 0⟩
/-- FLD_F_PKT (R197). -/
def K.FLD_F_PKT (e : Nat) : Nat := winKey (0x3838) e
def F.FLD_F_PKT_PACKETS (e : Nat) : Fld := ⟨K.FLD_F_PKT e, 19, 0⟩
/-- FLD_F_CELLS (R197). -/
def K.FLD_F_CELLS (e : Nat) : Nat := winKey (0x383C) e
def F.FLD_F_CELLS_HELD (e : Nat) : Fld := ⟨K.FLD_F_CELLS e, 16, 0⟩
/-- FLD_F_STAT (R197). -/
def K.FLD_F_STAT (e : Nat) : Nat := winKey (0x3840) e
def F.FLD_F_STAT_HIGH_N (e : Nat) : Fld := ⟨K.FLD_F_STAT e, 31, 31⟩
def F.FLD_F_STAT_LOW_N (e : Nat) : Fld := ⟨K.FLD_F_STAT e, 30, 30⟩
def F.FLD_F_STAT_STALE_N (e : Nat) : Fld := ⟨K.FLD_F_STAT e, 29, 29⟩
def F.FLD_F_STAT_OPEN (e : Nat) : Fld := ⟨K.FLD_F_STAT e, 28, 28⟩
def F.FLD_F_STAT_RESETS (e : Nat) : Fld := ⟨K.FLD_F_STAT e, 7, 0⟩
/-- FLD_F_PEAK (R197). -/
def K.FLD_F_PEAK (e : Nat) : Nat := winKey (0x3844) e
def F.FLD_F_PEAK_PEAK (e : Nat) : Fld := ⟨K.FLD_F_PEAK e, 19, 0⟩
/-- FLD_F_FLOOR (R197). -/
def K.FLD_F_FLOOR (e : Nat) : Nat := winKey (0x3848) e
def F.FLD_F_FLOOR_FLOOR (e : Nat) : Fld := ⟨K.FLD_F_FLOOR e, 19, 0⟩
/-- FLD_CNT_QUOTA_WAIT (R197). -/
def K.FLD_CNT_QUOTA_WAIT : Nat := 0x3860
def F.FLD_CNT_QUOTA_WAIT : Fld := ⟨K.FLD_CNT_QUOTA_WAIT, 31, 0⟩
/-- FLD_CNT_POOL_WAIT (R197). -/
def K.FLD_CNT_POOL_WAIT : Nat := 0x3864
def F.FLD_CNT_POOL_WAIT : Fld := ⟨K.FLD_CNT_POOL_WAIT, 31, 0⟩
/-- FLD_CNT_RESET (R197). -/
def K.FLD_CNT_RESET : Nat := 0x3868
def F.FLD_CNT_RESET : Fld := ⟨K.FLD_CNT_RESET, 31, 0⟩
/-- FLD_CNT_LOST_WORDS (R197). -/
def K.FLD_CNT_LOST_WORDS : Nat := 0x386C
def F.FLD_CNT_LOST_WORDS : Fld := ⟨K.FLD_CNT_LOST_WORDS, 31, 0⟩
/-- FLD_CNT_SPLIT (R197). -/
def K.FLD_CNT_SPLIT : Nat := 0x3870
def F.FLD_CNT_SPLIT : Fld := ⟨K.FLD_CNT_SPLIT, 31, 0⟩
/-- FLD_CNT_FLUSH_WORDS (R197). -/
def K.FLD_CNT_FLUSH_WORDS : Nat := 0x3874
def F.FLD_CNT_FLUSH_WORDS : Fld := ⟨K.FLD_CNT_FLUSH_WORDS, 31, 0⟩
/-- FLD_NS_k (R197). -/
def K.FLD_NS (i : Nat) : Nat := 0x3900 + 0x4 * i
def F.FLD_NS_EN (i : Nat) : Fld := ⟨K.FLD_NS i, 31, 31⟩
def F.FLD_NS_WM_EN (i : Nat) : Fld := ⟨K.FLD_NS i, 30, 30⟩
def F.FLD_NS_STALE_EN (i : Nat) : Fld := ⟨K.FLD_NS i, 29, 29⟩
def F.FLD_NS_ROUTE (i : Nat) : Fld := ⟨K.FLD_NS i, 28, 24⟩
def F.FLD_NS_FOLD (i : Nat) : Fld := ⟨K.FLD_NS i, 11, 0⟩
/-- FLD_HMAP_h (R197). -/
def K.FLD_HMAP (i : Nat) : Nat := 0x3D00 + 0x4 * i
def F.FLD_HMAP_FOLD (i : Nat) : Fld := ⟨K.FLD_HMAP i, 11, 0⟩
/-- LNSO_n_CTL (R49). -/
def K.LNSO_CTL (i : Nat) : Nat := 0x4000 + 0x40 * i
def F.LNSO_CTL_EN (i : Nat) : Fld := ⟨K.LNSO_CTL i, 31, 31⟩
def F.LNSO_CTL_PHGATE (i : Nat) : Fld := ⟨K.LNSO_CTL i, 30, 30⟩
def F.LNSO_CTL_SIZE (i : Nat) : Fld := ⟨K.LNSO_CTL i, 13, 8⟩
def F.LNSO_CTL_SPACE (i : Nat) : Fld := ⟨K.LNSO_CTL i, 2, 0⟩
/-- LNSO_n_FBASE (R49). -/
def K.LNSO_FBASE (i : Nat) : Nat := 0x4004 + 0x40 * i
def F.LNSO_FBASE_FBASE (i : Nat) : Fld := ⟨K.LNSO_FBASE i, 23, 0⟩
/-- LNSO_n_VBASE_LO (R49). -/
def K.LNSO_VBASE_LO (i : Nat) : Nat := 0x4008 + 0x40 * i
def F.LNSO_VBASE_LO_VBASE_LO (i : Nat) : Fld := ⟨K.LNSO_VBASE_LO i, 31, 12⟩
/-- LNSO_n_VBASE_HI (R49). -/
def K.LNSO_VBASE_HI (i : Nat) : Nat := 0x400C + 0x40 * i
def F.LNSO_VBASE_HI_VBASE_HI (i : Nat) : Fld := ⟨K.LNSO_VBASE_HI i, 31, 0⟩
/-- LNSO_n_ATTR (R49). -/
def K.LNSO_ATTR (i : Nat) : Nat := 0x4010 + 0x40 * i
def F.LNSO_ATTR_CACHE (i : Nat) : Fld := ⟨K.LNSO_ATTR i, 31, 31⟩
def F.LNSO_ATTR_PREFETCH (i : Nat) : Fld := ⟨K.LNSO_ATTR i, 30, 30⟩
def F.LNSO_ATTR_POSTED (i : Nat) : Fld := ⟨K.LNSO_ATTR i, 29, 29⟩
def F.LNSO_ATTR_BURST (i : Nat) : Fld := ⟨K.LNSO_ATTR i, 26, 24⟩
def F.LNSO_ATTR_SST_RATE (i : Nat) : Fld := ⟨K.LNSO_ATTR i, 23, 22⟩
def F.LNSO_ATTR_ELEM (i : Nat) : Fld := ⟨K.LNSO_ATTR i, 19, 18⟩
def F.LNSO_ATTR_PRISM (i : Nat) : Fld := ⟨K.LNSO_ATTR i, 17, 16⟩
def F.LNSO_ATTR_WIDTH (i : Nat) : Fld := ⟨K.LNSO_ATTR i, 9, 8⟩
def F.LNSO_ATTR_AM (i : Nat) : Fld := ⟨K.LNSO_ATTR i, 5, 0⟩
/-- LNSO_n_TTL (R49). -/
def K.LNSO_TTL (i : Nat) : Nat := 0x4014 + 0x40 * i
def F.LNSO_TTL_TTL_US (i : Nat) : Fld := ⟨K.LNSO_TTL i, 19, 0⟩
/-- LNSO_n_RETRY (R49). -/
def K.LNSO_RETRY (i : Nat) : Nat := 0x4018 + 0x40 * i
def F.LNSO_RETRY_GAP_US (i : Nat) : Fld := ⟨K.LNSO_RETRY i, 23, 16⟩
def F.LNSO_RETRY_MAX (i : Nat) : Fld := ⟨K.LNSO_RETRY i, 7, 0⟩
/-- LNSO_n_PHOPEN (R49). -/
def K.LNSO_PHOPEN (i : Nat) : Nat := 0x401C + 0x40 * i
def F.LNSO_PHOPEN_PHOPEN (i : Nat) : Fld := ⟨K.LNSO_PHOPEN i, 31, 0⟩
/-- LNSO_n_PHCLOSE (R49). -/
def K.LNSO_PHCLOSE (i : Nat) : Nat := 0x4020 + 0x40 * i
def F.LNSO_PHCLOSE_PHCLOSE (i : Nat) : Fld := ⟨K.LNSO_PHCLOSE i, 31, 0⟩
/-- LNSO_n_STAT (R49). -/
def K.LNSO_STAT (i : Nat) : Nat := 0x4024 + 0x40 * i
def F.LNSO_STAT_PENDING (i : Nat) : Fld := ⟨K.LNSO_STAT i, 31, 31⟩
def F.LNSO_STAT_REFUSED (i : Nat) : Fld := ⟨K.LNSO_STAT i, 30, 30⟩
def F.LNSO_STAT_CAUSE (i : Nat) : Fld := ⟨K.LNSO_STAT i, 23, 16⟩
def F.LNSO_STAT_INFLIGHT (i : Nat) : Fld := ⟨K.LNSO_STAT i, 11, 0⟩
/-- LNSI_n_CTL (R52). -/
def K.LNSI_CTL (i : Nat) : Nat := 0x5000 + 0x40 * i
def F.LNSI_CTL_EN (i : Nat) : Fld := ⟨K.LNSI_CTL i, 31, 31⟩
def F.LNSI_CTL_SIZE (i : Nat) : Fld := ⟨K.LNSI_CTL i, 13, 8⟩
def F.LNSI_CTL_SPACE (i : Nat) : Fld := ⟨K.LNSI_CTL i, 1, 0⟩
/-- LNSI_n_VBASE_LO (R52). -/
def K.LNSI_VBASE_LO (i : Nat) : Nat := 0x5004 + 0x40 * i
def F.LNSI_VBASE_LO_VBASE_LO (i : Nat) : Fld := ⟨K.LNSI_VBASE_LO i, 31, 12⟩
/-- LNSI_n_VBASE_HI (R52). -/
def K.LNSI_VBASE_HI (i : Nat) : Nat := 0x5008 + 0x40 * i
def F.LNSI_VBASE_HI_VBASE_HI (i : Nat) : Fld := ⟨K.LNSI_VBASE_HI i, 31, 0⟩
/-- LNSI_n_FADDR_LO (R52). -/
def K.LNSI_FADDR_LO (i : Nat) : Nat := 0x500C + 0x40 * i
def F.LNSI_FADDR_LO_FADDR_LO (i : Nat) : Fld := ⟨K.LNSI_FADDR_LO i, 31, 12⟩
/-- LNSI_n_FADDR_HI (R52). -/
def K.LNSI_FADDR_HI (i : Nat) : Nat := 0x5010 + 0x40 * i
def F.LNSI_FADDR_HI_NODE (i : Nat) : Fld := ⟨K.LNSI_FADDR_HI i, 26, 16⟩
def F.LNSI_FADDR_HI_OFFSET_HI (i : Nat) : Fld := ⟨K.LNSI_FADDR_HI i, 15, 0⟩
/-- LNSI_n_AMSEL (R52). -/
def K.LNSI_AMSEL (i : Nat) : Nat := 0x5014 + 0x40 * i
def F.LNSI_AMSEL_X_2ESST (i : Nat) : Fld := ⟨K.LNSI_AMSEL i, 12, 12⟩
def F.LNSI_AMSEL_X_2EVME (i : Nat) : Fld := ⟨K.LNSI_AMSEL i, 11, 11⟩
def F.LNSI_AMSEL_X_MBLT (i : Nat) : Fld := ⟨K.LNSI_AMSEL i, 10, 10⟩
def F.LNSI_AMSEL_X_BLT (i : Nat) : Fld := ⟨K.LNSI_AMSEL i, 9, 9⟩
def F.LNSI_AMSEL_X_SINGLE (i : Nat) : Fld := ⟨K.LNSI_AMSEL i, 8, 8⟩
def F.LNSI_AMSEL_SUP_PROG (i : Nat) : Fld := ⟨K.LNSI_AMSEL i, 3, 3⟩
def F.LNSI_AMSEL_SUP_DATA (i : Nat) : Fld := ⟨K.LNSI_AMSEL i, 2, 2⟩
def F.LNSI_AMSEL_NP_PROG (i : Nat) : Fld := ⟨K.LNSI_AMSEL i, 1, 1⟩
def F.LNSI_AMSEL_NP_DATA (i : Nat) : Fld := ⟨K.LNSI_AMSEL i, 0, 0⟩
/-- LNSI_n_ATTR (R52). -/
def K.LNSI_ATTR (i : Nat) : Nat := 0x5018 + 0x40 * i
def F.LNSI_ATTR_POSTED (i : Nat) : Fld := ⟨K.LNSI_ATTR i, 31, 31⟩
def F.LNSI_ATTR_RETRY_EN (i : Nat) : Fld := ⟨K.LNSI_ATTR i, 30, 30⟩
def F.LNSI_ATTR_HOLD_US (i : Nat) : Fld := ⟨K.LNSI_ATTR i, 27, 16⟩
def F.LNSI_ATTR_ELEM (i : Nat) : Fld := ⟨K.LNSI_ATTR i, 3, 2⟩
def F.LNSI_ATTR_PRISM (i : Nat) : Fld := ⟨K.LNSI_ATTR i, 1, 0⟩
/-- LNSI_n_STAT (R52). -/
def K.LNSI_STAT (i : Nat) : Nat := 0x501C + 0x40 * i
def F.LNSI_STAT_PENDING (i : Nat) : Fld := ⟨K.LNSI_STAT i, 31, 31⟩
def F.LNSI_STAT_REFUSED (i : Nat) : Fld := ⟨K.LNSI_STAT i, 30, 30⟩
def F.LNSI_STAT_CAUSE (i : Nat) : Fld := ⟨K.LNSI_STAT i, 23, 16⟩
def F.LNSI_STAT_INFLIGHT (i : Nat) : Fld := ⟨K.LNSI_STAT i, 11, 0⟩
/-- VME_CTL (R84). -/
def K.VME_CTL : Nat := 0x5800
def F.VME_CTL_MASTER_EN : Fld := ⟨K.VME_CTL, 31, 31⟩
def F.VME_CTL_SYSCON : Fld := ⟨K.VME_CTL, 30, 30⟩
def F.VME_CTL_BR_LEVEL : Fld := ⟨K.VME_CTL, 27, 26⟩
def F.VME_CTL_RELEASE : Fld := ⟨K.VME_CTL, 25, 25⟩
def F.VME_CTL_FAIR : Fld := ⟨K.VME_CTL, 24, 24⟩
def F.VME_CTL_BURST_DIS : Fld := ⟨K.VME_CTL, 23, 23⟩
/-- VME_TIMEOUT (R84). -/
def K.VME_TIMEOUT : Nat := 0x5804
def F.VME_TIMEOUT_ARB_TO_US : Fld := ⟨K.VME_TIMEOUT, 31, 16⟩
def F.VME_TIMEOUT_DATA_TO_US : Fld := ⟨K.VME_TIMEOUT, 15, 0⟩
/-- VME_BUS_TIMER (R84). -/
def K.VME_BUS_TIMER : Nat := 0x5808
def F.VME_BUS_TIMER_BTO_US : Fld := ⟨K.VME_BUS_TIMER, 15, 0⟩
/-- VME_SYSCTL (R84). -/
def K.VME_SYSCTL : Nat := 0x580C
def F.VME_SYSCTL_SYSCLK_EN : Fld := ⟨K.VME_SYSCTL, 31, 31⟩
def F.VME_SYSCTL_ARB_EN : Fld := ⟨K.VME_SYSCTL, 30, 30⟩
def F.VME_SYSCTL_ARB_MODE : Fld := ⟨K.VME_SYSCTL, 29, 28⟩
def F.VME_SYSCTL_BCLR_EN : Fld := ⟨K.VME_SYSCTL, 27, 27⟩
def F.VME_SYSCTL_BTIMER_EN : Fld := ⟨K.VME_SYSCTL, 26, 26⟩
def F.VME_SYSCTL_SYSRST_OUT : Fld := ⟨K.VME_SYSCTL, 25, 25⟩
def F.VME_SYSCTL_SYSRST_PULSE : Fld := ⟨K.VME_SYSCTL, 24, 24⟩
def F.VME_SYSCTL_GRANT_TO_US : Fld := ⟨K.VME_SYSCTL, 23, 16⟩
/-- VME_PWQ (R84). -/
def K.VME_PWQ : Nat := 0x5810
def F.VME_PWQ_LIMIT : Fld := ⟨K.VME_PWQ, 25, 20⟩
def F.VME_PWQ_PEAK : Fld := ⟨K.VME_PWQ, 13, 8⟩
def F.VME_PWQ_DEPTH : Fld := ⟨K.VME_PWQ, 5, 0⟩
/-- VME_MSTAT (R84). -/
def K.VME_MSTAT : Nat := 0x5814
def F.VME_MSTAT_TENURE : Fld := ⟨K.VME_MSTAT, 31, 31⟩
def F.VME_MSTAT_PWQ_OWNER : Fld := ⟨K.VME_MSTAT, 30, 30⟩
def F.VME_MSTAT_IH_OWNER : Fld := ⟨K.VME_MSTAT, 29, 29⟩
def F.VME_MSTAT_DROVER : Fld := ⟨K.VME_MSTAT, 5, 0⟩
/-- VME_CNT_SINGLE (R84). -/
def K.VME_CNT_SINGLE : Nat := 0x5820
def F.VME_CNT_SINGLE : Fld := ⟨K.VME_CNT_SINGLE, 31, 0⟩
/-- VME_CNT_BURST (R84). -/
def K.VME_CNT_BURST : Nat := 0x5824
def F.VME_CNT_BURST : Fld := ⟨K.VME_CNT_BURST, 31, 0⟩
/-- VME_CNT_DEGRADE (R84). -/
def K.VME_CNT_DEGRADE : Nat := 0x5828
def F.VME_CNT_DEGRADE : Fld := ⟨K.VME_CNT_DEGRADE, 31, 0⟩
/-- VME_CNT_BERR (R84). -/
def K.VME_CNT_BERR : Nat := 0x582C
def F.VME_CNT_BERR : Fld := ⟨K.VME_CNT_BERR, 31, 0⟩
/-- VME_CNT_RETRY (R84). -/
def K.VME_CNT_RETRY : Nat := 0x5830
def F.VME_CNT_RETRY : Fld := ⟨K.VME_CNT_RETRY, 31, 0⟩
/-- VME_CNT_TIMEOUT (R84). -/
def K.VME_CNT_TIMEOUT : Nat := 0x5834
def F.VME_CNT_TIMEOUT : Fld := ⟨K.VME_CNT_TIMEOUT, 31, 0⟩
/-- VME_CNT_ARB_TO (R84). -/
def K.VME_CNT_ARB_TO : Nat := 0x5838
def F.VME_CNT_ARB_TO : Fld := ⟨K.VME_CNT_ARB_TO, 31, 0⟩
/-- VME_CNT_LOST_BYTES (R84). -/
def K.VME_CNT_LOST_BYTES : Nat := 0x583C
def F.VME_CNT_LOST_BYTES : Fld := ⟨K.VME_CNT_LOST_BYTES, 31, 0⟩
/-- VME_ISLV (R116). -/
def K.VME_ISLV : Nat := 0x5840
def F.VME_ISLV_SLAVE_EN : Fld := ⟨K.VME_ISLV, 31, 31⟩
def F.VME_ISLV_RTY_BERR : Fld := ⟨K.VME_ISLV, 30, 30⟩
def F.VME_ISLV_YIELD_US : Fld := ⟨K.VME_ISLV, 23, 16⟩
def F.VME_ISLV_KEEP_US : Fld := ⟨K.VME_ISLV, 11, 0⟩
/-- VME_IPWQ (R116). -/
def K.VME_IPWQ : Nat := 0x5844
def F.VME_IPWQ_LIMIT : Fld := ⟨K.VME_IPWQ, 30, 24⟩
def F.VME_IPWQ_PEAK : Fld := ⟨K.VME_IPWQ, 22, 16⟩
def F.VME_IPWQ_DEPTH : Fld := ⟨K.VME_IPWQ, 6, 0⟩
/-- VME_ISTAT (R116). -/
def K.VME_ISTAT : Nat := 0x5848
def F.VME_ISTAT_HOLDING : Fld := ⟨K.VME_ISTAT, 31, 31⟩
def F.VME_ISTAT_RSLOTS : Fld := ⟨K.VME_ISTAT, 27, 24⟩
def F.VME_ISTAT_LENS : Fld := ⟨K.VME_ISTAT, 4, 0⟩
/-- VME_IH_CTL (R116). -/
def K.VME_IH_CTL : Nat := 0x5850
def F.VME_IH_CTL_IACK_W : Fld := ⟨K.VME_IH_CTL, 17, 16⟩
def F.VME_IH_CTL_RORA : Fld := ⟨K.VME_IH_CTL, 15, 9⟩
def F.VME_IH_CTL_LEVEL_EN : Fld := ⟨K.VME_IH_CTL, 7, 1⟩
/-- VME_IH_ROUTE_LO (R116). -/
def K.VME_IH_ROUTE_LO : Nat := 0x5854
def F.VME_IH_ROUTE_LO_L4 : Fld := ⟨K.VME_IH_ROUTE_LO, 28, 24⟩
def F.VME_IH_ROUTE_LO_L3 : Fld := ⟨K.VME_IH_ROUTE_LO, 20, 16⟩
def F.VME_IH_ROUTE_LO_L2 : Fld := ⟨K.VME_IH_ROUTE_LO, 12, 8⟩
def F.VME_IH_ROUTE_LO_L1 : Fld := ⟨K.VME_IH_ROUTE_LO, 4, 0⟩
/-- VME_IH_ROUTE_HI (R116). -/
def K.VME_IH_ROUTE_HI : Nat := 0x5858
def F.VME_IH_ROUTE_HI_L7 : Fld := ⟨K.VME_IH_ROUTE_HI, 20, 16⟩
def F.VME_IH_ROUTE_HI_L6 : Fld := ⟨K.VME_IH_ROUTE_HI, 12, 8⟩
def F.VME_IH_ROUTE_HI_L5 : Fld := ⟨K.VME_IH_ROUTE_HI, 4, 0⟩
/-- VME_IH_STAT (R116). -/
def K.VME_IH_STAT : Nat := 0x585C
def F.VME_IH_STAT_PENDING : Fld := ⟨K.VME_IH_STAT, 15, 9⟩
def F.VME_IH_STAT_INSERVICE : Fld := ⟨K.VME_IH_STAT, 7, 1⟩
/-- VME_INTR (R116). -/
def K.VME_INTR : Nat := 0x5860
def F.VME_INTR_LEVEL : Fld := ⟨K.VME_INTR, 30, 28⟩
def F.VME_INTR_RORA : Fld := ⟨K.VME_INTR, 27, 27⟩
def F.VME_INTR_DEPTH : Fld := ⟨K.VME_INTR, 20, 16⟩
def F.VME_INTR_ACK_TO_MS : Fld := ⟨K.VME_INTR, 15, 0⟩
/-- VME_INTR_RORA (R116). -/
def K.VME_INTR_RORA : Nat := 0x5864
def F.VME_INTR_RORA_ADDR : Fld := ⟨K.VME_INTR_RORA, 15, 1⟩
def F.VME_INTR_RORA_EN : Fld := ⟨K.VME_INTR_RORA, 0, 0⟩
/-- VME_CNT_IN_CYCLES (R116). -/
def K.VME_CNT_IN_CYCLES : Nat := 0x5880
def F.VME_CNT_IN_CYCLES : Fld := ⟨K.VME_CNT_IN_CYCLES, 31, 0⟩
/-- VME_CNT_IN_RETRY (R116). -/
def K.VME_CNT_IN_RETRY : Nat := 0x5884
def F.VME_CNT_IN_RETRY : Fld := ⟨K.VME_CNT_IN_RETRY, 31, 0⟩
/-- VME_CNT_IN_BERR (R116). -/
def K.VME_CNT_IN_BERR : Nat := 0x5888
def F.VME_CNT_IN_BERR : Fld := ⟨K.VME_CNT_IN_BERR, 31, 0⟩
/-- VME_CNT_IN_HOLD_TO (R116). -/
def K.VME_CNT_IN_HOLD_TO : Nat := 0x588C
def F.VME_CNT_IN_HOLD_TO : Fld := ⟨K.VME_CNT_IN_HOLD_TO, 31, 0⟩
/-- VME_CNT_IN_LOOP (R116). -/
def K.VME_CNT_IN_LOOP : Nat := 0x5890
def F.VME_CNT_IN_LOOP : Fld := ⟨K.VME_CNT_IN_LOOP, 31, 0⟩
/-- VME_CNT_IN_LOST_BYTES (R116). -/
def K.VME_CNT_IN_LOST_BYTES : Nat := 0x5894
def F.VME_CNT_IN_LOST_BYTES : Fld := ⟨K.VME_CNT_IN_LOST_BYTES, 31, 0⟩
/-- VME_CNT_RSLOT_DISCARD (R116). -/
def K.VME_CNT_RSLOT_DISCARD : Nat := 0x5898
def F.VME_CNT_RSLOT_DISCARD : Fld := ⟨K.VME_CNT_RSLOT_DISCARD, 31, 0⟩
/-- VME_CNT_IACK (R116). -/
def K.VME_CNT_IACK : Nat := 0x589C
def F.VME_CNT_IACK : Fld := ⟨K.VME_CNT_IACK, 31, 0⟩
/-- VME_CNT_IACK_SPUR (R116). -/
def K.VME_CNT_IACK_SPUR : Nat := 0x58A0
def F.VME_CNT_IACK_SPUR : Fld := ⟨K.VME_CNT_IACK_SPUR, 31, 0⟩
/-- VME_CNT_INTR_TAKEN (R116). -/
def K.VME_CNT_INTR_TAKEN : Nat := 0x58A4
def F.VME_CNT_INTR_TAKEN : Fld := ⟨K.VME_CNT_INTR_TAKEN, 31, 0⟩
/-- VME_IRT_r_LO (R116). -/
def K.VME_IRT_LO (i : Nat) : Nat := 0x5900 + 0x8 * i
def F.VME_IRT_LO_EN (i : Nat) : Fld := ⟨K.VME_IRT_LO i, 31, 31⟩
def F.VME_IRT_LO_MSIX_EN (i : Nat) : Fld := ⟨K.VME_IRT_LO i, 30, 30⟩
def F.VME_IRT_LO_TNODE (i : Nat) : Fld := ⟨K.VME_IRT_LO i, 26, 16⟩
def F.VME_IRT_LO_CRING (i : Nat) : Fld := ⟨K.VME_IRT_LO i, 7, 0⟩
/-- VME_IRT_r_HI (R116). -/
def K.VME_IRT_HI (i : Nat) : Nat := 0x5904 + 0x8 * i
def F.VME_IRT_HI_MSIX_VEC (i : Nat) : Fld := ⟨K.VME_IRT_HI i, 7, 0⟩
/-- SP_n_CTL (R314). -/
def K.SP_CTL (i : Nat) : Nat := 0x6000 + 0x20 * i
def F.SP_CTL_EN (i : Nat) : Fld := ⟨K.SP_CTL i, 31, 31⟩
def F.SP_CTL_EV_EN (i : Nat) : Fld := ⟨K.SP_CTL i, 30, 30⟩
def F.SP_CTL_ROUTE (i : Nat) : Fld := ⟨K.SP_CTL i, 28, 24⟩
def F.SP_CTL_FRAMER (i : Nat) : Fld := ⟨K.SP_CTL i, 22, 20⟩
def F.SP_CTL_WIRE (i : Nat) : Fld := ⟨K.SP_CTL i, 17, 16⟩
def F.SP_CTL_ECHO (i : Nat) : Fld := ⟨K.SP_CTL i, 15, 15⟩
def F.SP_CTL_BAD_DROP (i : Nat) : Fld := ⟨K.SP_CTL i, 14, 14⟩
def F.SP_CTL_KEEP_EOL (i : Nat) : Fld := ⟨K.SP_CTL i, 13, 13⟩
/-- SP_n_LINE (R314). -/
def K.SP_LINE (i : Nat) : Nat := 0x6004 + 0x20 * i
def F.SP_LINE_STOP (i : Nat) : Fld := ⟨K.SP_LINE i, 27, 27⟩
def F.SP_LINE_PARITY (i : Nat) : Fld := ⟨K.SP_LINE i, 26, 25⟩
def F.SP_LINE_DBITS (i : Nat) : Fld := ⟨K.SP_LINE i, 24, 24⟩
def F.SP_LINE_RATE (i : Nat) : Fld := ⟨K.SP_LINE i, 23, 0⟩
/-- SP_n_TIMING (R314). -/
def K.SP_TIMING (i : Nat) : Nat := 0x6008 + 0x20 * i
def F.SP_TIMING_IDLE_CH (i : Nat) : Fld := ⟨K.SP_TIMING i, 23, 16⟩
def F.SP_TIMING_LAG (i : Nat) : Fld := ⟨K.SP_TIMING i, 15, 8⟩
def F.SP_TIMING_LEAD (i : Nat) : Fld := ⟨K.SP_TIMING i, 7, 0⟩
/-- SP_n_FRAME (R314). -/
def K.SP_FRAME (i : Nat) : Nat := 0x600C + 0x20 * i
def F.SP_FRAME_DELIM (i : Nat) : Fld := ⟨K.SP_FRAME i, 23, 16⟩
def F.SP_FRAME_MAXLEN (i : Nat) : Fld := ⟨K.SP_FRAME i, 11, 0⟩
/-- SP_n_REPLY (R314). -/
def K.SP_REPLY (i : Nat) : Nat := 0x6010 + 0x20 * i
def F.SP_REPLY_REPLY_MS (i : Nat) : Fld := ⟨K.SP_REPLY i, 31, 16⟩
def F.SP_REPLY_TALKER (i : Nat) : Fld := ⟨K.SP_REPLY i, 15, 0⟩
/-- SP_n_POLL (R314). -/
def K.SP_POLL (i : Nat) : Nat := 0x6014 + 0x20 * i
def F.SP_POLL_PEN (i : Nat) : Fld := ⟨K.SP_POLL i, 31, 31⟩
def F.SP_POLL_ENTRIES (i : Nat) : Fld := ⟨K.SP_POLL i, 23, 16⟩
def F.SP_POLL_PERIOD_MS (i : Nat) : Fld := ⟨K.SP_POLL i, 15, 0⟩
/-- SP_n_POLLB (R314). -/
def K.SP_POLLB (i : Nat) : Nat := 0x6018 + 0x20 * i
def F.SP_POLLB_BASE (i : Nat) : Fld := ⟨K.SP_POLLB i, 21, 0⟩
/-- SP_n_STAT (R314). -/
def K.SP_STAT (i : Nat) : Nat := 0x601C + 0x20 * i
def F.SP_STAT_OVR (i : Nat) : Fld := ⟨K.SP_STAT i, 31, 31⟩
def F.SP_STAT_BADFRAME (i : Nat) : Fld := ⟨K.SP_STAT i, 30, 30⟩
def F.SP_STAT_ECHO (i : Nat) : Fld := ⟨K.SP_STAT i, 29, 29⟩
def F.SP_STAT_NOREPLY (i : Nat) : Fld := ⟨K.SP_STAT i, 28, 28⟩
def F.SP_STAT_POLLERR (i : Nat) : Fld := ⟨K.SP_STAT i, 27, 27⟩
def F.SP_STAT_PSKIP (i : Nat) : Fld := ⟨K.SP_STAT i, 26, 26⟩
def F.SP_STAT_TXBAD (i : Nat) : Fld := ⟨K.SP_STAT i, 25, 25⟩
def F.SP_STAT_TURN (i : Nat) : Fld := ⟨K.SP_STAT i, 24, 24⟩
def F.SP_STAT_BAD (i : Nat) : Fld := ⟨K.SP_STAT i, 15, 0⟩
/-- CF_n_CTL (R315). -/
def K.CF_CTL (i : Nat) : Nat := 0x6800 + 0x40 * i
def F.CF_CTL_EN (i : Nat) : Fld := ⟨K.CF_CTL i, 31, 31⟩
def F.CF_CTL_EV_EN (i : Nat) : Fld := ⟨K.CF_CTL i, 30, 30⟩
def F.CF_CTL_ROUTE (i : Nat) : Fld := ⟨K.CF_CTL i, 28, 24⟩
def F.CF_CTL_FD_EN (i : Nat) : Fld := ⟨K.CF_CTL i, 23, 23⟩
def F.CF_CTL_LISTEN (i : Nat) : Fld := ⟨K.CF_CTL i, 22, 22⟩
def F.CF_CTL_ACC_ALL (i : Nat) : Fld := ⟨K.CF_CTL i, 21, 21⟩
def F.CF_CTL_TXORD (i : Nat) : Fld := ⟨K.CF_CTL i, 20, 20⟩
def F.CF_CTL_AUTO_REC (i : Nat) : Fld := ⟨K.CF_CTL i, 19, 19⟩
def F.CF_CTL_TDC_EN (i : Nat) : Fld := ⟨K.CF_CTL i, 18, 18⟩
def F.CF_CTL_RECOVER (i : Nat) : Fld := ⟨K.CF_CTL i, 17, 17⟩
def F.CF_CTL_RETX_MAX (i : Nat) : Fld := ⟨K.CF_CTL i, 11, 8⟩
/-- CF_n_NBT (R315). -/
def K.CF_NBT (i : Nat) : Nat := 0x6804 + 0x40 * i
def F.CF_NBT_NBRP (i : Nat) : Fld := ⟨K.CF_NBT i, 28, 24⟩
def F.CF_NBT_NSJW (i : Nat) : Fld := ⟨K.CF_NBT i, 22, 16⟩
def F.CF_NBT_NTSEG1 (i : Nat) : Fld := ⟨K.CF_NBT i, 15, 8⟩
def F.CF_NBT_NTSEG2 (i : Nat) : Fld := ⟨K.CF_NBT i, 6, 0⟩
/-- CF_n_DBT (R315). -/
def K.CF_DBT (i : Nat) : Nat := 0x6808 + 0x40 * i
def F.CF_DBT_DBRP (i : Nat) : Fld := ⟨K.CF_DBT i, 28, 24⟩
def F.CF_DBT_DSJW (i : Nat) : Fld := ⟨K.CF_DBT i, 19, 16⟩
def F.CF_DBT_DTSEG1 (i : Nat) : Fld := ⟨K.CF_DBT i, 12, 8⟩
def F.CF_DBT_DTSEG2 (i : Nat) : Fld := ⟨K.CF_DBT i, 3, 0⟩
/-- CF_n_TDC (R315). -/
def K.CF_TDC (i : Nat) : Nat := 0x680C + 0x40 * i
def F.CF_TDC_TDCV (i : Nat) : Fld := ⟨K.CF_TDC i, 30, 24⟩
def F.CF_TDC_TDCO (i : Nat) : Fld := ⟨K.CF_TDC i, 6, 0⟩
/-- CF_n_ERR (R315). -/
def K.CF_ERR (i : Nat) : Nat := 0x6810 + 0x40 * i
def F.CF_ERR_STATE (i : Nat) : Fld := ⟨K.CF_ERR i, 31, 30⟩
def F.CF_ERR_TEC (i : Nat) : Fld := ⟨K.CF_ERR i, 23, 16⟩
def F.CF_ERR_RP (i : Nat) : Fld := ⟨K.CF_ERR i, 15, 15⟩
def F.CF_ERR_REC (i : Nat) : Fld := ⟨K.CF_ERR i, 14, 8⟩
def F.CF_ERR_LEC (i : Nat) : Fld := ⟨K.CF_ERR i, 2, 0⟩
/-- CF_n_STAT (R315). -/
def K.CF_STAT (i : Nat) : Nat := 0x6814 + 0x40 * i
def F.CF_STAT_BUSOFF (i : Nat) : Fld := ⟨K.CF_STAT i, 31, 31⟩
def F.CF_STAT_PASSIVE (i : Nat) : Fld := ⟨K.CF_STAT i, 30, 30⟩
def F.CF_STAT_WARN (i : Nat) : Fld := ⟨K.CF_STAT i, 29, 29⟩
def F.CF_STAT_RX_OVR (i : Nat) : Fld := ⟨K.CF_STAT i, 28, 28⟩
def F.CF_STAT_ABANDON (i : Nat) : Fld := ⟨K.CF_STAT i, 27, 27⟩
def F.CF_STAT_TXBAD (i : Nat) : Fld := ⟨K.CF_STAT i, 26, 26⟩
def F.CF_STAT_LOST (i : Nat) : Fld := ⟨K.CF_STAT i, 15, 0⟩
/-- CF_n_FLTk_ID (R315). -/
def K.CF_FLT_ID (i : Nat) (j : Nat) : Nat := 0x6820 + 0x40 * i + 0x8 * j
def F.CF_FLT_ID_EN (i : Nat) (j : Nat) : Fld := ⟨K.CF_FLT_ID i j, 31, 31⟩
def F.CF_FLT_ID_IDE (i : Nat) (j : Nat) : Fld := ⟨K.CF_FLT_ID i j, 29, 29⟩
def F.CF_FLT_ID_ID (i : Nat) (j : Nat) : Fld := ⟨K.CF_FLT_ID i j, 28, 0⟩
/-- CF_n_FLTk_MASK (R315). -/
def K.CF_FLT_MASK (i : Nat) (j : Nat) : Nat := 0x6824 + 0x40 * i + 0x8 * j
def F.CF_FLT_MASK_MASK (i : Nat) (j : Nat) : Fld := ⟨K.CF_FLT_MASK i j, 28, 0⟩
/-- DC_n_CTL (R316). -/
def K.DC_CTL (i : Nat) : Nat := 0x6C00 + 0x80 * i
def F.DC_CTL_EN (i : Nat) : Fld := ⟨K.DC_CTL i, 31, 31⟩
def F.DC_CTL_EV_EN (i : Nat) : Fld := ⟨K.DC_CTL i, 30, 30⟩
def F.DC_CTL_OUT_EN (i : Nat) : Fld := ⟨K.DC_CTL i, 29, 29⟩
def F.DC_CTL_ROUTE (i : Nat) : Fld := ⟨K.DC_CTL i, 28, 24⟩
def F.DC_CTL_SCHED (i : Nat) : Fld := ⟨K.DC_CTL i, 20, 20⟩
def F.DC_CTL_DEB (i : Nat) : Fld := ⟨K.DC_CTL i, 19, 16⟩
def F.DC_CTL_DIV (i : Nat) : Fld := ⟨K.DC_CTL i, 6, 0⟩
/-- DC_n_PERIOD (R316). -/
def K.DC_PERIOD (i : Nat) : Nat := 0x6C04 + 0x80 * i
def F.DC_PERIOD_PERIOD_10NS (i : Nat) : Fld := ⟨K.DC_PERIOD i, 19, 0⟩
/-- DC_n_PSTEP (R316). -/
def K.DC_PSTEP (i : Nat) : Nat := 0x6C08 + 0x80 * i
def F.DC_PSTEP_PSTEP (i : Nat) : Fld := ⟨K.DC_PSTEP i, 31, 0⟩
/-- DC_n_STAT (R316). -/
def K.DC_STAT (i : Nat) : Nat := 0x6C0C + 0x80 * i
def F.DC_STAT_MISM (i : Nat) : Fld := ⟨K.DC_STAT i, 31, 31⟩
def F.DC_STAT_OVERRUN (i : Nat) : Fld := ⟨K.DC_STAT i, 30, 30⟩
def F.DC_STAT_SAFE (i : Nat) : Fld := ⟨K.DC_STAT i, 29, 29⟩
def F.DC_STAT_RUN (i : Nat) : Fld := ⟨K.DC_STAT i, 28, 28⟩
/-- DC_n_OUTMASKi (R316). -/
def K.DC_OUTMASK (i : Nat) (j : Nat) : Nat := 0x6C10 + 0x80 * i + 0x4 * j
def F.DC_OUTMASK_OUT (i : Nat) (j : Nat) : Fld := ⟨K.DC_OUTMASK i j, 31, 0⟩
/-- DC_n_SAFEi (R316). -/
def K.DC_SAFE (i : Nat) (j : Nat) : Nat := 0x6C20 + 0x80 * i + 0x4 * j
def F.DC_SAFE_SAFE (i : Nat) (j : Nat) : Fld := ⟨K.DC_SAFE i j, 31, 0⟩
/-- DC_n_EDGERi (R316). -/
def K.DC_EDGER (i : Nat) (j : Nat) : Nat := 0x6C30 + 0x80 * i + 0x4 * j
def F.DC_EDGER_RISE (i : Nat) (j : Nat) : Fld := ⟨K.DC_EDGER i j, 31, 0⟩
/-- DC_n_EDGEFi (R316). -/
def K.DC_EDGEF (i : Nat) (j : Nat) : Nat := 0x6C40 + 0x80 * i + 0x4 * j
def F.DC_EDGEF_FALL (i : Nat) (j : Nat) : Fld := ⟨K.DC_EDGEF i j, 31, 0⟩
/-- DC_n_MISMi (R316). -/
def K.DC_MISM (i : Nat) (j : Nat) : Nat := 0x6C50 + 0x80 * i + 0x4 * j
def F.DC_MISM_MISM (i : Nat) (j : Nat) : Fld := ⟨K.DC_MISM i j, 31, 0⟩
/-- DC_n_CNT_SCAN (R316). -/
def K.DC_CNT_SCAN (i : Nat) : Nat := 0x6C60 + 0x80 * i
def F.DC_CNT_SCAN (i : Nat) : Fld := ⟨K.DC_CNT_SCAN i, 31, 0⟩
/-- DC_n_CNT_MISM (R316). -/
def K.DC_CNT_MISM (i : Nat) : Nat := 0x6C64 + 0x80 * i
def F.DC_CNT_MISM (i : Nat) : Fld := ⟨K.DC_CNT_MISM i, 31, 0⟩
/-- DC_n_CNT_OVERRUN (R316). -/
def K.DC_CNT_OVERRUN (i : Nat) : Nat := 0x6C68 + 0x80 * i
def F.DC_CNT_OVERRUN (i : Nat) : Fld := ⟨K.DC_CNT_OVERRUN i, 31, 0⟩
/-- CAD_CTL (R334). -/
def K.CAD_CTL : Nat := 0x7000
def F.CAD_CTL_RETURN_EN : Fld := ⟨K.CAD_CTL, 31, 31⟩
def F.CAD_CTL_SOURCE : Fld := ⟨K.CAD_CTL, 26, 24⟩
def F.CAD_CTL_AGENT : Fld := ⟨K.CAD_CTL, 15, 8⟩
/-- CAD_STAT (R334). -/
def K.CAD_STAT : Nat := 0x7004
def F.CAD_STAT_STATE : Fld := ⟨K.CAD_STAT, 31, 30⟩
def F.CAD_STAT_ACTIVE : Fld := ⟨K.CAD_STAT, 29, 27⟩
def F.CAD_STAT_DIR : Fld := ⟨K.CAD_STAT, 26, 26⟩
def F.CAD_STAT_HELD : Fld := ⟨K.CAD_STAT, 10, 0⟩
/-- CAD_PERIOD (R334). -/
def K.CAD_PERIOD : Nat := 0x7008
def F.CAD_PERIOD_MAX_MS : Fld := ⟨K.CAD_PERIOD, 31, 16⟩
def F.CAD_PERIOD_PLEN_M1 : Fld := ⟨K.CAD_PERIOD, 15, 0⟩
/-- CAD_COAST (R334). -/
def K.CAD_COAST : Nat := 0x700C
def F.CAD_COAST_RELOCK : Fld := ⟨K.CAD_COAST, 31, 24⟩
def F.CAD_COAST_COAST_MS : Fld := ⟨K.CAD_COAST, 15, 0⟩
/-- CAD_EPF (R334). -/
def K.CAD_EPF : Nat := 0x7010
def F.CAD_EPF_EPF_NS : Fld := ⟨K.CAD_EPF, 31, 0⟩
/-- CAD_MAINS (R334). -/
def K.CAD_MAINS : Nat := 0x7014
def F.CAD_MAINS_ZC_OFS : Fld := ⟨K.CAD_MAINS, 31, 16⟩
def F.CAD_MAINS_FILT_US : Fld := ⟨K.CAD_MAINS, 7, 0⟩
/-- CAD_ENC (R334). -/
def K.CAD_ENC : Nat := 0x7018
def F.CAD_ENC_IDX_EN : Fld := ⟨K.CAD_ENC, 31, 31⟩
def F.CAD_ENC_DIR_INV : Fld := ⟨K.CAD_ENC, 30, 30⟩
def F.CAD_ENC_CPR : Fld := ⟨K.CAD_ENC, 23, 0⟩
/-- CAD_ENC_TOL (R334). -/
def K.CAD_ENC_TOL : Nat := 0x701C
def F.CAD_ENC_TOL_IDX_TOL : Fld := ⟨K.CAD_ENC_TOL, 7, 0⟩
/-- CAD_HYST (R334). -/
def K.CAD_HYST : Nat := 0x7020
def F.CAD_HYST_HYST : Fld := ⟨K.CAD_HYST, 31, 0⟩
/-- CAD_NOW_PH (R334). -/
def K.CAD_NOW_PH : Nat := 0x7024
def F.CAD_NOW_PH_PHASE : Fld := ⟨K.CAD_NOW_PH, 31, 0⟩
/-- CAD_NOW_FR_LO (R334). -/
def K.CAD_NOW_FR_LO : Nat := 0x7028
def F.CAD_NOW_FR_LO_FRAME_LO : Fld := ⟨K.CAD_NOW_FR_LO, 31, 0⟩
/-- CAD_NOW_FR_HI (R334). -/
def K.CAD_NOW_FR_HI : Nat := 0x702C
def F.CAD_NOW_FR_HI_FRAME_HI : Fld := ⟨K.CAD_NOW_FR_HI, 15, 0⟩
/-- CAD_PNUM_LO (R334). -/
def K.CAD_PNUM_LO : Nat := 0x7030
def F.CAD_PNUM_LO_PNUM_LO : Fld := ⟨K.CAD_PNUM_LO, 31, 0⟩
/-- CAD_PNUM_HI (R334). -/
def K.CAD_PNUM_HI : Nat := 0x7034
def F.CAD_PNUM_HI_PNUM_HI : Fld := ⟨K.CAD_PNUM_HI, 31, 0⟩
/-- CAD_RATE (R334). -/
def K.CAD_RATE : Nat := 0x7038
def F.CAD_RATE_RATE : Fld := ⟨K.CAD_RATE, 31, 0⟩
/-- CAD_ENC_CNT (R334). -/
def K.CAD_ENC_CNT : Nat := 0x703C
def F.CAD_ENC_CNT_COUNT : Fld := ⟨K.CAD_ENC_CNT, 23, 0⟩
/-- CAD_FLAGS (R334). -/
def K.CAD_FLAGS : Nat := 0x7040
def F.CAD_FLAGS_LOSS : Fld := ⟨K.CAD_FLAGS, 31, 31⟩
def F.CAD_FLAGS_FALLBACK : Fld := ⟨K.CAD_FLAGS, 30, 30⟩
def F.CAD_FLAGS_STEP : Fld := ⟨K.CAD_FLAGS, 29, 29⟩
def F.CAD_FLAGS_IDX_SLIP : Fld := ⟨K.CAD_FLAGS, 28, 28⟩
def F.CAD_FLAGS_QERR : Fld := ⟨K.CAD_FLAGS, 27, 27⟩
def F.CAD_FLAGS_ZC_BAD : Fld := ⟨K.CAD_FLAGS, 26, 26⟩
def F.CAD_FLAGS_PSUPP : Fld := ⟨K.CAD_FLAGS, 25, 25⟩
def F.CAD_FLAGS_HOLD_FULL : Fld := ⟨K.CAD_FLAGS, 24, 24⟩
/-- CAD_SNAP (R334). -/
def K.CAD_SNAP : Nat := 0x7044
def F.CAD_SNAP_BANK : Fld := ⟨K.CAD_SNAP, 31, 31⟩
def F.CAD_SNAP_VALID : Fld := ⟨K.CAD_SNAP, 30, 30⟩
/-- CAD_SCHB (R334). -/
def K.CAD_SCHB : Nat := 0x7048
def F.CAD_SCHB_BASE : Fld := ⟨K.CAD_SCHB, 21, 0⟩
/-- CAD_SCH_RELOAD (R334). -/
def K.CAD_SCH_RELOAD : Nat := 0x704C
def F.CAD_SCH_RELOAD_RELOAD : Fld := ⟨K.CAD_SCH_RELOAD, 0, 0⟩
/-- CAD_SCH_SEL (R334). -/
def K.CAD_SCH_SEL : Nat := 0x7050
def F.CAD_SCH_SEL_ENTRY : Fld := ⟨K.CAD_SCH_SEL, 7, 0⟩
/-- CAD_SCH_CTL (R334). -/
def K.CAD_SCH_CTL (e : Nat) : Nat := winKey (0x7054) e
def F.CAD_SCH_CTL_EN (e : Nat) : Fld := ⟨K.CAD_SCH_CTL e, 31, 31⟩
def F.CAD_SCH_CTL_BOTH (e : Nat) : Fld := ⟨K.CAD_SCH_CTL e, 30, 30⟩
def F.CAD_SCH_CTL_CRING (e : Nat) : Fld := ⟨K.CAD_SCH_CTL e, 23, 16⟩
def F.CAD_SCH_CTL_FDIV_M1 (e : Nat) : Fld := ⟨K.CAD_SCH_CTL e, 15, 0⟩
/-- CAD_SCH_FRM (R334). -/
def K.CAD_SCH_FRM (e : Nat) : Nat := winKey (0x7058) e
def F.CAD_SCH_FRM_FOFS (e : Nat) : Fld := ⟨K.CAD_SCH_FRM e, 15, 0⟩
/-- CAD_SCH_PH (R334). -/
def K.CAD_SCH_PH (e : Nat) : Nat := winKey (0x705C) e
def F.CAD_SCH_PH_PHASE (e : Nat) : Fld := ⟨K.CAD_SCH_PH e, 31, 0⟩
/-- CAD_SCH_STAT (R334). -/
def K.CAD_SCH_STAT (e : Nat) : Nat := winKey (0x7060) e
def F.CAD_SCH_STAT_ARMED (e : Nat) : Fld := ⟨K.CAD_SCH_STAT e, 31, 31⟩
def F.CAD_SCH_STAT_COPIED (e : Nat) : Fld := ⟨K.CAD_SCH_STAT e, 30, 30⟩
/-- CAD_CNT_REL_OK (R334). -/
def K.CAD_CNT_REL_OK : Nat := 0x7080
def F.CAD_CNT_REL_OK : Fld := ⟨K.CAD_CNT_REL_OK, 31, 0⟩
/-- CAD_CNT_REL_LATE (R334). -/
def K.CAD_CNT_REL_LATE : Nat := 0x7084
def F.CAD_CNT_REL_LATE : Fld := ⟨K.CAD_CNT_REL_LATE, 31, 0⟩
/-- CAD_CNT_FIRE (R334). -/
def K.CAD_CNT_FIRE : Nat := 0x7088
def F.CAD_CNT_FIRE : Fld := ⟨K.CAD_CNT_FIRE, 31, 0⟩
/-- CAD_CNT_HOLD_WAIT (R334). -/
def K.CAD_CNT_HOLD_WAIT : Nat := 0x708C
def F.CAD_CNT_HOLD_WAIT : Fld := ⟨K.CAD_CNT_HOLD_WAIT, 31, 0⟩
/-- CAD_CNT_LOSS (R334). -/
def K.CAD_CNT_LOSS : Nat := 0x7090
def F.CAD_CNT_LOSS : Fld := ⟨K.CAD_CNT_LOSS, 31, 0⟩
/-- CAD_CNT_STEP (R334). -/
def K.CAD_CNT_STEP : Nat := 0x7094
def F.CAD_CNT_STEP : Fld := ⟨K.CAD_CNT_STEP, 31, 0⟩
/-- CAD_CNT_QERR (R334). -/
def K.CAD_CNT_QERR : Nat := 0x7098
def F.CAD_CNT_QERR : Fld := ⟨K.CAD_CNT_QERR, 31, 0⟩
/-- CAD_CNT_IDX_SLIP (R334). -/
def K.CAD_CNT_IDX_SLIP : Nat := 0x709C
def F.CAD_CNT_IDX_SLIP : Fld := ⟨K.CAD_CNT_IDX_SLIP, 31, 0⟩
/-- CAD_CNT_ZC_BAD (R334). -/
def K.CAD_CNT_ZC_BAD : Nat := 0x70A0
def F.CAD_CNT_ZC_BAD : Fld := ⟨K.CAD_CNT_ZC_BAD, 31, 0⟩
/-- CAD_CNT_PSUPP (R334). -/
def K.CAD_CNT_PSUPP : Nat := 0x70A4
def F.CAD_CNT_PSUPP : Fld := ⟨K.CAD_CNT_PSUPP, 31, 0⟩
/-- CAD_CNT_TIMEOUT (R334). -/
def K.CAD_CNT_TIMEOUT : Nat := 0x70A8
def F.CAD_CNT_TIMEOUT : Fld := ⟨K.CAD_CNT_TIMEOUT, 31, 0⟩
/-- TWN_CTL (R359). -/
def K.TWN_CTL : Nat := 0x7800
def F.TWN_CTL_EN : Fld := ⟨K.TWN_CTL, 31, 31⟩
def F.TWN_CTL_TAKE_EN : Fld := ⟨K.TWN_CTL, 30, 30⟩
def F.TWN_CTL_HOLD_EN : Fld := ⟨K.TWN_CTL, 29, 29⟩
def F.TWN_CTL_SAFE_ON_FENCE : Fld := ⟨K.TWN_CTL, 28, 28⟩
def F.TWN_CTL_TAKE_SAFE : Fld := ⟨K.TWN_CTL, 27, 27⟩
def F.TWN_CTL_RING_MIRROR : Fld := ⟨K.TWN_CTL, 26, 26⟩
def F.TWN_CTL_PRIMARY : Fld := ⟨K.TWN_CTL, 25, 25⟩
def F.TWN_CTL_YIELD : Fld := ⟨K.TWN_CTL, 24, 24⟩
def F.TWN_CTL_RESUME : Fld := ⟨K.TWN_CTL, 23, 23⟩
def F.TWN_CTL_REARM : Fld := ⟨K.TWN_CTL, 22, 22⟩
def F.TWN_CTL_PEER : Fld := ⟨K.TWN_CTL, 10, 0⟩
/-- TWN_LEASE (R359). -/
def K.TWN_LEASE : Nat := 0x7804
def F.TWN_LEASE_LEASE_MS : Fld := ⟨K.TWN_LEASE, 31, 20⟩
def F.TWN_LEASE_GUARD_MS : Fld := ⟨K.TWN_LEASE, 19, 8⟩
def F.TWN_LEASE_BEACON_MS : Fld := ⟨K.TWN_LEASE, 7, 0⟩
/-- TWN_STAT (R359). -/
def K.TWN_STAT : Nat := 0x7808
def F.TWN_STAT_STATE : Fld := ⟨K.TWN_STAT, 31, 29⟩
def F.TWN_STAT_CROOK : Fld := ⟨K.TWN_STAT, 28, 28⟩
def F.TWN_STAT_SYNC : Fld := ⟨K.TWN_STAT, 27, 27⟩
def F.TWN_STAT_ALONE : Fld := ⟨K.TWN_STAT, 26, 26⟩
def F.TWN_STAT_PEER_LANE : Fld := ⟨K.TWN_STAT, 25, 25⟩
def F.TWN_STAT_PEER_RING : Fld := ⟨K.TWN_STAT, 24, 24⟩
def F.TWN_STAT_HOLD_IN : Fld := ⟨K.TWN_STAT, 23, 22⟩
def F.TWN_STAT_SAFE : Fld := ⟨K.TWN_STAT, 21, 21⟩
def F.TWN_STAT_GEN : Fld := ⟨K.TWN_STAT, 15, 0⟩
/-- TWN_EPOCH (R359). -/
def K.TWN_EPOCH : Nat := 0x780C
def F.TWN_EPOCH_EPOCH : Fld := ⟨K.TWN_EPOCH, 31, 0⟩
/-- TWN_MARK_LO (R359). -/
def K.TWN_MARK_LO : Nat := 0x7810
def F.TWN_MARK_LO_MARK : Fld := ⟨K.TWN_MARK_LO, 31, 0⟩
/-- TWN_MARK_HI (R359). -/
def K.TWN_MARK_HI : Nat := 0x7814
def F.TWN_MARK_HI_MARK : Fld := ⟨K.TWN_MARK_HI, 31, 0⟩
/-- TWN_TAKE_EP (R359). -/
def K.TWN_TAKE_EP : Nat := 0x7818
def F.TWN_TAKE_EP_EPOCH : Fld := ⟨K.TWN_TAKE_EP, 31, 0⟩
/-- TWN_SEL (R359). -/
def K.TWN_SEL : Nat := 0x781C
def F.TWN_SEL_CAT : Fld := ⟨K.TWN_SEL, 5, 0⟩
/-- TWN_STG_BASE (R359). -/
def K.TWN_STG_BASE : Nat := 0x7820
def F.TWN_STG_BASE_BASE : Fld := ⟨K.TWN_STG_BASE, 21, 0⟩
/-- TWN_STG_SIZE (R359). -/
def K.TWN_STG_SIZE : Nat := 0x7824
def F.TWN_STG_SIZE_STG_MIB : Fld := ⟨K.TWN_STG_SIZE, 8, 0⟩
/-- TWN_MQ (R359). -/
def K.TWN_MQ : Nat := 0x7828
def F.TWN_MQ_PEAK : Fld := ⟨K.TWN_MQ, 31, 16⟩
def F.TWN_MQ_DEPTH : Fld := ⟨K.TWN_MQ, 15, 0⟩
/-- TWN_RNGr_BASE (R359). -/
def K.TWN_RNG_BASE (i : Nat) : Nat := 0x7830 + 0x8 * i
def F.TWN_RNG_BASE_EN (i : Nat) : Fld := ⟨K.TWN_RNG_BASE i, 31, 31⟩
def F.TWN_RNG_BASE_BASE (i : Nat) : Fld := ⟨K.TWN_RNG_BASE i, 21, 0⟩
/-- TWN_RNGr_SIZE (R359). -/
def K.TWN_RNG_SIZE (i : Nat) : Nat := 0x7834 + 0x8 * i
def F.TWN_RNG_SIZE_PAGES (i : Nat) : Fld := ⟨K.TWN_RNG_SIZE i, 14, 0⟩
/-- TWN_CNT_TAKE (R359). -/
def K.TWN_CNT_TAKE : Nat := 0x7880
def F.TWN_CNT_TAKE : Fld := ⟨K.TWN_CNT_TAKE, 31, 0⟩
/-- TWN_CNT_FENCE (R359). -/
def K.TWN_CNT_FENCE : Nat := 0x7884
def F.TWN_CNT_FENCE : Fld := ⟨K.TWN_CNT_FENCE, 31, 0⟩
/-- TWN_CNT_EP_COMMIT (R359). -/
def K.TWN_CNT_EP_COMMIT : Nat := 0x7888
def F.TWN_CNT_EP_COMMIT : Fld := ⟨K.TWN_CNT_EP_COMMIT, 31, 0⟩
/-- TWN_CNT_EP_DISCARD (R359). -/
def K.TWN_CNT_EP_DISCARD : Nat := 0x788C
def F.TWN_CNT_EP_DISCARD : Fld := ⟨K.TWN_CNT_EP_DISCARD, 31, 0⟩
/-- TWN_CNT_RESYNC (R359). -/
def K.TWN_CNT_RESYNC : Nat := 0x7890
def F.TWN_CNT_RESYNC : Fld := ⟨K.TWN_CNT_RESYNC, 31, 0⟩
/-- TWN_CNT_MQ_WAIT (R359). -/
def K.TWN_CNT_MQ_WAIT : Nat := 0x7894
def F.TWN_CNT_MQ_WAIT : Fld := ⟨K.TWN_CNT_MQ_WAIT, 31, 0⟩
/-- TWN_CNT_FENCE_LOST_BYTES (R359). -/
def K.TWN_CNT_FENCE_LOST_BYTES : Nat := 0x7898
def F.TWN_CNT_FENCE_LOST_BYTES : Fld := ⟨K.TWN_CNT_FENCE_LOST_BYTES, 31, 0⟩
/-- TWN_CNT_PEER_DOWN (R359). -/
def K.TWN_CNT_PEER_DOWN : Nat := 0x789C
def F.TWN_CNT_PEER_DOWN : Fld := ⟨K.TWN_CNT_PEER_DOWN, 31, 0⟩
/-- FLT_CTL (R381). -/
def K.FLT_CTL : Nat := 0x8000
def F.FLT_CTL_ESC_EN : Fld := ⟨K.FLT_CTL, 31, 31⟩
def F.FLT_CTL_SAFE_EXIT : Fld := ⟨K.FLT_CTL, 30, 30⟩
def F.FLT_CTL_UNFENCE : Fld := ⟨K.FLT_CTL, 27, 24⟩
def F.FLT_CTL_NOTE_AGE_MS : Fld := ⟨K.FLT_CTL, 15, 0⟩
/-- FLT_ERR (R381). -/
def K.FLT_ERR : Nat := 0x8004
def F.FLT_ERR_LEVEL : Fld := ⟨K.FLT_ERR, 31, 31⟩
def F.FLT_ERR_THRESH : Fld := ⟨K.FLT_ERR, 26, 24⟩
def F.FLT_ERR_PULSE_US : Fld := ⟨K.FLT_ERR, 13, 0⟩
/-- FLT_CHIP_STAT (R381). -/
def K.FLT_CHIP_STAT : Nat := 0x8008
def F.FLT_CHIP_STAT_SAFE : Fld := ⟨K.FLT_CHIP_STAT, 31, 31⟩
def F.FLT_CHIP_STAT_FENCED : Fld := ⟨K.FLT_CHIP_STAT, 30, 27⟩
def F.FLT_CHIP_STAT_DEGRADED : Fld := ⟨K.FLT_CHIP_STAT, 26, 26⟩
def F.FLT_CHIP_STAT_REC_FAIL : Fld := ⟨K.FLT_CHIP_STAT, 25, 25⟩
def F.FLT_CHIP_STAT_ERR_LOW : Fld := ⟨K.FLT_CHIP_STAT, 24, 24⟩
def F.FLT_CHIP_STAT_ENTRIES : Fld := ⟨K.FLT_CHIP_STAT, 8, 0⟩
/-- FLT_FIRST (R381). -/
def K.FLT_FIRST : Nat := 0x800C
def F.FLT_FIRST_VALID : Fld := ⟨K.FLT_FIRST, 31, 31⟩
def F.FLT_FIRST_SEV : Fld := ⟨K.FLT_FIRST, 30, 28⟩
def F.FLT_FIRST_SOURCE : Fld := ⟨K.FLT_FIRST, 27, 16⟩
def F.FLT_FIRST_CODE : Fld := ⟨K.FLT_FIRST, 15, 0⟩
/-- FLT_CYC_LO (R381). -/
def K.FLT_CYC_LO : Nat := 0x8010
def F.FLT_CYC_LO_CYC_LO : Fld := ⟨K.FLT_CYC_LO, 31, 0⟩
/-- FLT_CYC_HI (R381). -/
def K.FLT_CYC_HI : Nat := 0x8014
def F.FLT_CYC_HI_CYC_HI : Fld := ⟨K.FLT_CYC_HI, 31, 0⟩
/-- FLT_REG_LINK (R381). -/
def K.FLT_REG_LINK : Nat := 0x8020
def F.FLT_REG_LINK_BLK : Fld := ⟨K.FLT_REG_LINK, 23, 0⟩
/-- FLT_REG_HOST (R381). -/
def K.FLT_REG_HOST : Nat := 0x8024
def F.FLT_REG_HOST_BLK : Fld := ⟨K.FLT_REG_HOST, 23, 0⟩
/-- FLT_REG_CORE (R381). -/
def K.FLT_REG_CORE : Nat := 0x8028
def F.FLT_REG_CORE_BLK : Fld := ⟨K.FLT_REG_CORE, 23, 0⟩
/-- FLT_REG_EDGE (R381). -/
def K.FLT_REG_EDGE : Nat := 0x802C
def F.FLT_REG_EDGE_BLK : Fld := ⟨K.FLT_REG_EDGE, 23, 0⟩
/-- FLT_REG_CHIP (R381). -/
def K.FLT_REG_CHIP : Nat := 0x8030
def F.FLT_REG_CHIP_BLK : Fld := ⟨K.FLT_REG_CHIP, 23, 0⟩
/-- FLT_SEV_SEL (R381). -/
def K.FLT_SEV_SEL : Nat := 0x8040
def F.FLT_SEV_SEL_CODE : Fld := ⟨K.FLT_SEV_SEL, 15, 0⟩
/-- FLT_SEV (R381). -/
def K.FLT_SEV (e : Nat) : Nat := winKey (0x8044) e
def F.FLT_SEV_NOESC (e : Nat) : Fld := ⟨K.FLT_SEV e, 31, 31⟩
def F.FLT_SEV_SEV (e : Nat) : Fld := ⟨K.FLT_SEV e, 2, 0⟩
/-- FLT_INJ (R381). -/
def K.FLT_INJ : Nat := 0x8050
def F.FLT_INJ_ARM : Fld := ⟨K.FLT_INJ, 31, 31⟩
def F.FLT_INJ_DOUBLE : Fld := ⟨K.FLT_INJ, 30, 30⟩
def F.FLT_INJ_PENDING : Fld := ⟨K.FLT_INJ, 29, 29⟩
def F.FLT_INJ_AREA : Fld := ⟨K.FLT_INJ, 26, 24⟩
def F.FLT_INJ_INDEX : Fld := ⟨K.FLT_INJ, 16, 0⟩
/-- FLT_ASEL (R381). -/
def K.FLT_ASEL : Nat := 0x8060
def F.FLT_ASEL_ENTRY : Fld := ⟨K.FLT_ASEL, 7, 0⟩
/-- FLT_ACT_W0 (R381). -/
def K.FLT_ACT_W0 (e : Nat) : Nat := winKey (0x8064) e
def F.FLT_ACT_W0_VALID (e : Nat) : Fld := ⟨K.FLT_ACT_W0 e, 31, 31⟩
def F.FLT_ACT_W0_PRESENT (e : Nat) : Fld := ⟨K.FLT_ACT_W0 e, 30, 30⟩
def F.FLT_ACT_W0_ESC (e : Nat) : Fld := ⟨K.FLT_ACT_W0 e, 29, 29⟩
def F.FLT_ACT_W0_SEV (e : Nat) : Fld := ⟨K.FLT_ACT_W0 e, 28, 26⟩
def F.FLT_ACT_W0_SOURCE (e : Nat) : Fld := ⟨K.FLT_ACT_W0 e, 23, 12⟩
/-- FLT_ACT_W1 (R381). -/
def K.FLT_ACT_W1 (e : Nat) : Nat := winKey (0x8068) e
def F.FLT_ACT_W1_CODE (e : Nat) : Fld := ⟨K.FLT_ACT_W1 e, 31, 16⟩
def F.FLT_ACT_W1_COUNT (e : Nat) : Fld := ⟨K.FLT_ACT_W1 e, 15, 0⟩
/-- FLT_ACT_W2 (R381). -/
def K.FLT_ACT_W2 (e : Nat) : Nat := winKey (0x806C) e
def F.FLT_ACT_W2_PHASE (e : Nat) : Fld := ⟨K.FLT_ACT_W2 e, 31, 0⟩
/-- FLT_ACT_W3 (R381). -/
def K.FLT_ACT_W3 (e : Nat) : Nat := winKey (0x8070) e
def F.FLT_ACT_W3_FRAMELO (e : Nat) : Fld := ⟨K.FLT_ACT_W3 e, 31, 16⟩
/-- FLT_HSEL (R381). -/
def K.FLT_HSEL : Nat := 0x8080
def F.FLT_HSEL_BLOCK : Fld := ⟨K.FLT_HSEL, 8, 0⟩
/-- FLT_ACT_MAPi (R381). -/
def K.FLT_ACT_MAP (i : Nat) : Nat := 0x80A0 + 0x4 * i
def F.FLT_ACT_MAP_MAP (i : Nat) : Fld := ⟨K.FLT_ACT_MAP i, 31, 0⟩
/-- FLT_HIST_e_W0 (R381). -/
def K.FLT_HIST_W0 (e : Nat) (i : Nat) : Nat := winKey (0x8100 + 0x10 * i) e
def F.FLT_HIST_W0_CODE (e : Nat) (i : Nat) : Fld := ⟨K.FLT_HIST_W0 e i, 31, 16⟩
def F.FLT_HIST_W0_CELL (e : Nat) (i : Nat) : Fld := ⟨K.FLT_HIST_W0 e i, 15, 13⟩
def F.FLT_HIST_W0_SEV (e : Nat) (i : Nat) : Fld := ⟨K.FLT_HIST_W0 e i, 12, 10⟩
def F.FLT_HIST_W0_ESC (e : Nat) (i : Nat) : Fld := ⟨K.FLT_HIST_W0 e i, 9, 9⟩
def F.FLT_HIST_W0_MERGE (e : Nat) (i : Nat) : Fld := ⟨K.FLT_HIST_W0 e i, 8, 8⟩
/-- FLT_HIST_e_W1 (R381). -/
def K.FLT_HIST_W1 (e : Nat) (i : Nat) : Nat := winKey (0x8104 + 0x10 * i) e
def F.FLT_HIST_W1_CYC_LO (e : Nat) (i : Nat) : Fld := ⟨K.FLT_HIST_W1 e i, 31, 0⟩
/-- FLT_HIST_e_W2 (R381). -/
def K.FLT_HIST_W2 (e : Nat) (i : Nat) : Nat := winKey (0x8108 + 0x10 * i) e
def F.FLT_HIST_W2_FRAMELO (e : Nat) (i : Nat) : Fld := ⟨K.FLT_HIST_W2 e i, 31, 16⟩
def F.FLT_HIST_W2_CYC_HI (e : Nat) (i : Nat) : Fld := ⟨K.FLT_HIST_W2 e i, 15, 0⟩
/-- FLT_HIST_e_W3 (R381). -/
def K.FLT_HIST_W3 (e : Nat) (i : Nat) : Nat := winKey (0x810C + 0x10 * i) e
def F.FLT_HIST_W3_PHASE (e : Nat) (i : Nat) : Fld := ⟨K.FLT_HIST_W3 e i, 31, 0⟩
/-- FLT_OVRk_A (R381). -/
def K.FLT_OVR_A (i : Nat) : Nat := 0x8200 + 0x8 * i
def F.FLT_OVR_A_EN (i : Nat) : Fld := ⟨K.FLT_OVR_A i, 31, 31⟩
def F.FLT_OVR_A_SEV (i : Nat) : Fld := ⟨K.FLT_OVR_A i, 30, 28⟩
def F.FLT_OVR_A_SOURCE (i : Nat) : Fld := ⟨K.FLT_OVR_A i, 27, 16⟩
def F.FLT_OVR_A_CODE (i : Nat) : Fld := ⟨K.FLT_OVR_A i, 15, 0⟩
/-- FLT_OVRk_B (R381). -/
def K.FLT_OVR_B (i : Nat) : Nat := 0x8204 + 0x8 * i
def F.FLT_OVR_B_SMASK (i : Nat) : Fld := ⟨K.FLT_OVR_B i, 11, 0⟩
/-- FLT_CAPu_STAT (R381). -/
def K.FLT_CAP_STAT (i : Nat) : Nat := 0x8400 + 0x20 * i
def F.FLT_CAP_STAT_VALID (i : Nat) : Fld := ⟨K.FLT_CAP_STAT i, 31, 31⟩
def F.FLT_CAP_STAT_CODE (i : Nat) : Fld := ⟨K.FLT_CAP_STAT i, 23, 8⟩
def F.FLT_CAP_STAT_OVF (i : Nat) : Fld := ⟨K.FLT_CAP_STAT i, 7, 0⟩
/-- FLT_CAPu_ADDR_LO (R381). -/
def K.FLT_CAP_ADDR_LO (i : Nat) : Nat := 0x8404 + 0x20 * i
def F.FLT_CAP_ADDR_LO_ADDR (i : Nat) : Fld := ⟨K.FLT_CAP_ADDR_LO i, 31, 0⟩
/-- FLT_CAPu_ADDR_HI (R381). -/
def K.FLT_CAP_ADDR_HI (i : Nat) : Nat := 0x8408 + 0x20 * i
def F.FLT_CAP_ADDR_HI_ADDR (i : Nat) : Fld := ⟨K.FLT_CAP_ADDR_HI i, 31, 0⟩
/-- FLT_CAPu_MASTER (R381). -/
def K.FLT_CAP_MASTER (i : Nat) : Nat := 0x840C + 0x20 * i
def F.FLT_CAP_MASTER_NODE (i : Nat) : Fld := ⟨K.FLT_CAP_MASTER i, 26, 16⟩
def F.FLT_CAP_MASTER_AGENT (i : Nat) : Fld := ⟨K.FLT_CAP_MASTER i, 15, 8⟩
/-- FLT_CAPu_ACCESS (R381). -/
def K.FLT_CAP_ACCESS (i : Nat) : Nat := 0x8410 + 0x20 * i
def F.FLT_CAP_ACCESS_OP (i : Nat) : Fld := ⟨K.FLT_CAP_ACCESS i, 31, 25⟩
def F.FLT_CAP_ACCESS_LENM1 (i : Nat) : Fld := ⟨K.FLT_CAP_ACCESS i, 23, 16⟩
def F.FLT_CAP_ACCESS_CLASS (i : Nat) : Fld := ⟨K.FLT_CAP_ACCESS i, 15, 14⟩
def F.FLT_CAP_ACCESS_AM (i : Nat) : Fld := ⟨K.FLT_CAP_ACCESS i, 13, 8⟩
/-- FLT_CAPu_CYC (R381). -/
def K.FLT_CAP_CYC (i : Nat) : Nat := 0x8414 + 0x20 * i
def F.FLT_CAP_CYC_CYC_LO (i : Nat) : Fld := ⟨K.FLT_CAP_CYC i, 31, 0⟩
/-- FLT_CAPu_FRM (R381). -/
def K.FLT_CAP_FRM (i : Nat) : Nat := 0x8418 + 0x20 * i
def F.FLT_CAP_FRM_FRAMELO (i : Nat) : Fld := ⟨K.FLT_CAP_FRM i, 31, 16⟩
def F.FLT_CAP_FRM_CYC_HI (i : Nat) : Fld := ⟨K.FLT_CAP_FRM i, 15, 0⟩
/-- FLT_CAPu_PHASE (R381). -/
def K.FLT_CAP_PHASE (i : Nat) : Nat := 0x841C + 0x20 * i
def F.FLT_CAP_PHASE_PHASE (i : Nat) : Fld := ⟨K.FLT_CAP_PHASE i, 31, 0⟩
/-- FLT_CNT_RAISED (R381). -/
def K.FLT_CNT_RAISED : Nat := 0x8600
def F.FLT_CNT_RAISED : Fld := ⟨K.FLT_CNT_RAISED, 31, 0⟩
/-- FLT_CNT_MERGED (R381). -/
def K.FLT_CNT_MERGED : Nat := 0x8604
def F.FLT_CNT_MERGED : Fld := ⟨K.FLT_CNT_MERGED, 31, 0⟩
/-- FLT_CNT_ESCALATED (R381). -/
def K.FLT_CNT_ESCALATED : Nat := 0x8608
def F.FLT_CNT_ESCALATED : Fld := ⟨K.FLT_CNT_ESCALATED, 31, 0⟩
/-- FLT_CNT_TABLE_OVF (R381). -/
def K.FLT_CNT_TABLE_OVF : Nat := 0x860C
def F.FLT_CNT_TABLE_OVF : Fld := ⟨K.FLT_CNT_TABLE_OVF, 31, 0⟩
/-- FLT_CNT_ERR_PULSE (R381). -/
def K.FLT_CNT_ERR_PULSE : Nat := 0x8610
def F.FLT_CNT_ERR_PULSE : Fld := ⟨K.FLT_CNT_ERR_PULSE, 31, 0⟩
/-- FLT_CNT_CLR_REFUSED (R381). -/
def K.FLT_CNT_CLR_REFUSED : Nat := 0x8614
def F.FLT_CNT_CLR_REFUSED : Fld := ⟨K.FLT_CNT_CLR_REFUSED, 31, 0⟩
/-- REC_CTL (R404). -/
def K.REC_CTL : Nat := 0x9000
def F.REC_CTL_RETEST : Fld := ⟨K.REC_CTL, 31, 31⟩
def F.REC_CTL_CHECK : Fld := ⟨K.REC_CTL, 1, 0⟩
/-- REC_CFG (R404). -/
def K.REC_CFG : Nat := 0x9004
def F.REC_CFG_SIZE : Fld := ⟨K.REC_CFG, 1, 0⟩
/-- REC_STAT (R404). -/
def K.REC_STAT : Nat := 0x9008
def F.REC_STAT_READY : Fld := ⟨K.REC_STAT, 31, 31⟩
def F.REC_STAT_P_FAIL : Fld := ⟨K.REC_STAT, 30, 30⟩
def F.REC_STAT_C_FAIL : Fld := ⟨K.REC_STAT, 29, 29⟩
def F.REC_STAT_CTL_FAIL : Fld := ⟨K.REC_STAT, 28, 28⟩
def F.REC_STAT_KEY_SET : Fld := ⟨K.REC_STAT, 27, 27⟩
def F.REC_STAT_CLEARING : Fld := ⟨K.REC_STAT, 26, 26⟩
def F.REC_STAT_AUTH_HOLD : Fld := ⟨K.REC_STAT, 25, 25⟩
def F.REC_STAT_RESTORE : Fld := ⟨K.REC_STAT, 24, 23⟩
def F.REC_STAT_QDEPTH : Fld := ⟨K.REC_STAT, 6, 0⟩
/-- REC_NEXT (R404). -/
def K.REC_NEXT : Nat := 0x900C
def F.REC_NEXT_NEXT : Fld := ⟨K.REC_NEXT, 31, 0⟩
/-- REC_SEC_LO (R404). -/
def K.REC_SEC_LO : Nat := 0x9010
def F.REC_SEC_LO_SEC_LO : Fld := ⟨K.REC_SEC_LO, 31, 0⟩
/-- REC_SEC_HI (R404). -/
def K.REC_SEC_HI : Nat := 0x9014
def F.REC_SEC_HI_PCYC : Fld := ⟨K.REC_SEC_HI, 31, 8⟩
def F.REC_SEC_HI_SEC_HI : Fld := ⟨K.REC_SEC_HI, 7, 0⟩
/-- REC_CLEARS (R404). -/
def K.REC_CLEARS : Nat := 0x9018
def F.REC_CLEARS_CLEARS : Fld := ⟨K.REC_CLEARS, 15, 0⟩
/-- REC_NONCE_LO (R404). -/
def K.REC_NONCE_LO : Nat := 0x901C
def F.REC_NONCE_LO_NONCE_LO : Fld := ⟨K.REC_NONCE_LO, 31, 0⟩
/-- REC_NONCE_HI (R404). -/
def K.REC_NONCE_HI : Nat := 0x9020
def F.REC_NONCE_HI_NONCE_HI : Fld := ⟨K.REC_NONCE_HI, 31, 0⟩
/-- REC_INJ (R404). -/
def K.REC_INJ : Nat := 0x9024
def F.REC_INJ_ARM : Fld := ⟨K.REC_INJ, 31, 31⟩
def F.REC_INJ_KIND : Fld := ⟨K.REC_INJ, 30, 30⟩
/-- REC_CNT_WRITTEN (R404). -/
def K.REC_CNT_WRITTEN : Nat := 0x9040
def F.REC_CNT_WRITTEN : Fld := ⟨K.REC_CNT_WRITTEN, 31, 0⟩
/-- REC_CNT_DROP (R404). -/
def K.REC_CNT_DROP : Nat := 0x9044
def F.REC_CNT_DROP : Fld := ⟨K.REC_CNT_DROP, 31, 0⟩
/-- REC_CNT_VERIFY (R404). -/
def K.REC_CNT_VERIFY : Nat := 0x9048
def F.REC_CNT_VERIFY : Fld := ⟨K.REC_CNT_VERIFY, 31, 0⟩
/-- REC_CNT_AUTH_FAIL (R404). -/
def K.REC_CNT_AUTH_FAIL : Nat := 0x904C
def F.REC_CNT_AUTH_FAIL : Fld := ⟨K.REC_CNT_AUTH_FAIL, 31, 0⟩
/-- PWR_CTL (R422). -/
def K.PWR_CTL : Nat := 0x9800
def F.PWR_CTL_EN : Fld := ⟨K.PWR_CTL, 31, 31⟩
def F.PWR_CTL_FAST_EN : Fld := ⟨K.PWR_CTL, 30, 30⟩
def F.PWR_CTL_STAG_MS : Fld := ⟨K.PWR_CTL, 15, 8⟩
/-- PWR_FEED (R422). -/
def K.PWR_FEED : Nat := 0x9804
def F.PWR_FEED_LOW_MV : Fld := ⟨K.PWR_FEED, 31, 16⟩
def F.PWR_FEED_OK_MV : Fld := ⟨K.PWR_FEED, 15, 0⟩
/-- PWR_PFW (R422). -/
def K.PWR_PFW : Nat := 0x9808
def F.PWR_PFW_FITA : Fld := ⟨K.PWR_PFW, 31, 31⟩
def F.PWR_PFW_FITB : Fld := ⟨K.PWR_PFW, 30, 30⟩
def F.PWR_PFW_CLR_US : Fld := ⟨K.PWR_PFW, 27, 16⟩
def F.PWR_PFW_FILT_US : Fld := ⟨K.PWR_PFW, 7, 0⟩
/-- PWR_STAT (R422). -/
def K.PWR_STAT : Nat := 0x980C
def F.PWR_STAT_WARN : Fld := ⟨K.PWR_STAT, 31, 31⟩
def F.PWR_STAT_A_LOW : Fld := ⟨K.PWR_STAT, 30, 30⟩
def F.PWR_STAT_B_LOW : Fld := ⟨K.PWR_STAT, 29, 29⟩
def F.PWR_STAT_UVA : Fld := ⟨K.PWR_STAT, 28, 28⟩
def F.PWR_STAT_UVB : Fld := ⟨K.PWR_STAT, 27, 27⟩
/-- PWR_FLAGS (R422). -/
def K.PWR_FLAGS : Nat := 0x9810
def F.PWR_FLAGS_PFW_SEEN : Fld := ⟨K.PWR_FLAGS, 31, 31⟩
def F.PWR_FLAGS_PMB_ERR : Fld := ⟨K.PWR_FLAGS, 30, 30⟩
def F.PWR_FLAGS_ALERT : Fld := ⟨K.PWR_FLAGS, 29, 29⟩
/-- PWR_DEVd (R422). -/
def K.PWR_DEV (i : Nat) : Nat := 0x9820 + 0x4 * i
def F.PWR_DEV_EN (i : Nat) : Fld := ⟨K.PWR_DEV i, 31, 31⟩
def F.PWR_DEV_ADDR (i : Nat) : Fld := ⟨K.PWR_DEV i, 6, 0⟩
/-- PWR_MEAS_SEL (R422). -/
def K.PWR_MEAS_SEL : Nat := 0x9848
def F.PWR_MEAS_SEL_DEV : Fld := ⟨K.PWR_MEAS_SEL, 3, 0⟩
/-- PWR_MEAS_V (R422). -/
def K.PWR_MEAS_V (e : Nat) : Nat := winKey (0x984C) e
def F.PWR_MEAS_V_VALID (e : Nat) : Fld := ⟨K.PWR_MEAS_V e, 31, 31⟩
def F.PWR_MEAS_V_MV (e : Nat) : Fld := ⟨K.PWR_MEAS_V e, 15, 0⟩
/-- PWR_MEAS_I (R422). -/
def K.PWR_MEAS_I (e : Nat) : Nat := winKey (0x9850) e
def F.PWR_MEAS_I_MA (e : Nat) : Fld := ⟨K.PWR_MEAS_I e, 15, 0⟩
/-- PWR_MEAS_P (R422). -/
def K.PWR_MEAS_P (e : Nat) : Nat := winKey (0x9854) e
def F.PWR_MEAS_P_MW (e : Nat) : Fld := ⟨K.PWR_MEAS_P e, 23, 0⟩
/-- PWR_MEAS_STATUS (R422). -/
def K.PWR_MEAS_STATUS (e : Nat) : Nat := winKey (0x9858) e
def F.PWR_MEAS_STATUS_STATUS (e : Nat) : Fld := ⟨K.PWR_MEAS_STATUS e, 15, 0⟩
/-- PWR_CNT_MISS (R422). -/
def K.PWR_CNT_MISS : Nat := 0x9860
def F.PWR_CNT_MISS : Fld := ⟨K.PWR_CNT_MISS, 31, 0⟩
/-- PWR_CNT_ALERT (R422). -/
def K.PWR_CNT_ALERT : Nat := 0x9864
def F.PWR_CNT_ALERT : Fld := ⟨K.PWR_CNT_ALERT, 31, 0⟩
/-- PWR_CNT_PFW (R422). -/
def K.PWR_CNT_PFW : Nat := 0x9868
def F.PWR_CNT_PFW : Fld := ⟨K.PWR_CNT_PFW, 31, 0⟩
/-- PWR_Ee_LO (R422). -/
def K.PWR_E_LO (i : Nat) : Nat := 0x9880 + 0x8 * i
def F.PWR_E_LO_MJ_LO (i : Nat) : Fld := ⟨K.PWR_E_LO i, 31, 0⟩
/-- PWR_Ee_HI (R422). -/
def K.PWR_E_HI (i : Nat) : Nat := 0x9884 + 0x8 * i
def F.PWR_E_HI_MJ_HI (i : Nat) : Fld := ⟨K.PWR_E_HI i, 15, 0⟩
/-- PWR_SLOTn_CTL (R422). -/
def K.PWR_SLOT_CTL (i : Nat) : Nat := 0x9900 + 0x20 * i
def F.PWR_SLOT_CTL_EN (i : Nat) : Fld := ⟨K.PWR_SLOT_CTL i, 31, 31⟩
def F.PWR_SLOT_CTL_SHED (i : Nat) : Fld := ⟨K.PWR_SLOT_CTL i, 30, 30⟩
/-- PWR_SLOTn_TIME (R422). -/
def K.PWR_SLOT_TIME (i : Nat) : Nat := 0x9904 + 0x20 * i
def F.PWR_SLOT_TIME_RETRY_10MS (i : Nat) : Fld := ⟨K.PWR_SLOT_TIME i, 25, 16⟩
def F.PWR_SLOT_TIME_FAULT_US (i : Nat) : Fld := ⟨K.PWR_SLOT_TIME i, 15, 0⟩
/-- PWR_SLOTn_START (R422). -/
def K.PWR_SLOT_START (i : Nat) : Nat := 0x9908 + 0x20 * i
def F.PWR_SLOT_START_START_MS (i : Nat) : Fld := ⟨K.PWR_SLOT_START i, 15, 8⟩
def F.PWR_SLOT_START_INS_MS (i : Nat) : Fld := ⟨K.PWR_SLOT_START i, 7, 0⟩
/-- PWR_SLOTn_LIMIT (R422). -/
def K.PWR_SLOT_LIMIT (i : Nat) : Nat := 0x990C + 0x20 * i
def F.PWR_SLOT_LIMIT_OC_WARN_MA (i : Nat) : Fld := ⟨K.PWR_SLOT_LIMIT i, 15, 0⟩
/-- PWR_SLOTn_STAT (R422). -/
def K.PWR_SLOT_STAT (i : Nat) : Nat := 0x9910 + 0x20 * i
def F.PWR_SLOT_STAT_STATE (i : Nat) : Fld := ⟨K.PWR_SLOT_STAT i, 31, 29⟩
def F.PWR_SLOT_STAT_PG (i : Nat) : Fld := ⟨K.PWR_SLOT_STAT i, 28, 28⟩
def F.PWR_SLOT_STAT_PRESENT (i : Nat) : Fld := ⟨K.PWR_SLOT_STAT i, 27, 27⟩
def F.PWR_SLOT_STAT_FAULT (i : Nat) : Fld := ⟨K.PWR_SLOT_STAT i, 26, 26⟩
def F.PWR_SLOT_STAT_PG_IN (i : Nat) : Fld := ⟨K.PWR_SLOT_STAT i, 25, 25⟩
def F.PWR_SLOT_STAT_EN_OUT (i : Nat) : Fld := ⟨K.PWR_SLOT_STAT i, 24, 24⟩
def F.PWR_SLOT_STAT_FTIMER (i : Nat) : Fld := ⟨K.PWR_SLOT_STAT i, 23, 23⟩
def F.PWR_SLOT_STAT_CAUSE (i : Nat) : Fld := ⟨K.PWR_SLOT_STAT i, 21, 20⟩
def F.PWR_SLOT_STAT_RETRY_LEFT (i : Nat) : Fld := ⟨K.PWR_SLOT_STAT i, 9, 0⟩
/-- PWR_SLOTn_CNT_TRIP (R422). -/
def K.PWR_SLOT_CNT_TRIP (i : Nat) : Nat := 0x9914 + 0x20 * i
def F.PWR_SLOT_CNT_TRIP (i : Nat) : Fld := ⟨K.PWR_SLOT_CNT_TRIP i, 31, 0⟩
/-- STAT_BANKs_w (R332). -/
def K.STAT_BANK (i : Nat) (j : Nat) : Nat := 0xA000 + 0x1000 * i + 0x4 * j
def F.STAT_BANK_WORD (i : Nat) (j : Nat) : Fld := ⟨K.STAT_BANK i j, 31, 0⟩
/-- TST_ATB0 (R457). -/
def K.TST_ATB0 : Nat := 0xC000
def F.TST_ATB0_NODE : Fld := ⟨K.TST_ATB0, 5, 0⟩
/-- TST_ATB1 (R457). -/
def K.TST_ATB1 : Nat := 0xC004
def F.TST_ATB1_NODE : Fld := ⟨K.TST_ATB1, 5, 0⟩
/-- TST_ADC (R457). -/
def K.TST_ADC : Nat := 0xC008
def F.TST_ADC_START : Fld := ⟨K.TST_ADC, 31, 31⟩
def F.TST_ADC_BUSY : Fld := ⟨K.TST_ADC, 30, 30⟩
def F.TST_ADC_BUS : Fld := ⟨K.TST_ADC, 29, 29⟩
def F.TST_ADC_CODE : Fld := ⟨K.TST_ADC, 11, 0⟩
/-- TST_IDCODE (R457). -/
def K.TST_IDCODE : Nat := 0xC00C
def F.TST_IDCODE_IDCODE : Fld := ⟨K.TST_IDCODE, 31, 0⟩
/-- SVC_CTL (R457). -/
def K.SVC_CTL : Nat := 0xC800
def F.SVC_CTL_LOCK_NOW : Fld := ⟨K.SVC_CTL, 31, 31⟩
def F.SVC_CTL_AGENT : Fld := ⟨K.SVC_CTL, 15, 8⟩
/-- SVC_STAT (R457). -/
def K.SVC_STAT : Nat := 0xC804
def F.SVC_STAT_LOCKED : Fld := ⟨K.SVC_STAT, 31, 31⟩
def F.SVC_STAT_STRAP_LOCK : Fld := ⟨K.SVC_STAT, 30, 30⟩
def F.SVC_STAT_BUSY : Fld := ⟨K.SVC_STAT, 29, 29⟩
/-- SVC_CNT_CMD (R457). -/
def K.SVC_CNT_CMD : Nat := 0xC808
def F.SVC_CNT_CMD : Fld := ⟨K.SVC_CNT_CMD, 31, 0⟩
/-- SVC_CNT_RX_DROP (R457). -/
def K.SVC_CNT_RX_DROP : Nat := 0xC80C
def F.SVC_CNT_RX_DROP : Fld := ⟨K.SVC_CNT_RX_DROP, 31, 0⟩
/-- SVC_CNT_REFUSED (R457). -/
def K.SVC_CNT_REFUSED : Nat := 0xC810
def F.SVC_CNT_REFUSED : Fld := ⟨K.SVC_CNT_REFUSED, 31, 0⟩

end Sys2Proof.Machine
end

