-- ==== Sys2Proof/Machine/RegReset.lean ====
section
/-! DEFINITION. The reset value of every set-up register (the Reset columns, R10). -/

namespace Sys2Proof.Machine

/-- The reset value of a register, by its key (R10). Three families depend on their index: QUOTA and RSV of a fold and
FOLD of a head (R197). A fault code's severity starts at its default (R367). -/
def resetWord (key : Nat) : Word :=
  let off := keyOff key
  let i := key / 0x10000 - 1
  if off = 0x3824 then (if i < 64 then 0x400 else 0x100)
  else if off = 0x3828 then (if i < 64 then 0x10 else if i < 224 then 0x4 else 0)
  else if 0x3D00 ≤ off ∧ off < 0x3F80 then BitVec.ofNat 32 (64 + (off - 0x3D00) / 4)
  else if off = 0x8044 then BitVec.ofNat 32 ((defaultSev i).getD 0)
  else match regAt off with
    | some r => BitVec.ofNat 32 r.reset
    | none => 0

end Sys2Proof.Machine
end

