-- ==== Sys2Proof/Machine/Prism.lean ====
section
/-! DEFINITION. The prism (R57, R58), the cover of a VME range by cycles (R60, R62, R63) and the AM codes (R61).

These functions are about one piece: addresses and byte lists, no state. -/

namespace Sys2Proof.Machine

/-- The settings of an outbound lens, as one bank holds them (R49). -/
structure OutLens where
  en : Bool
  phgate : Bool
  size : Nat
  space : Nat
  fbase : Nat
  vbase : Nat
  cache : Bool
  prefetch : Bool
  posted : Bool
  burst : Nat
  sstRate : Nat
  elem : Nat
  prism : Nat
  width : Nat
  am : Nat
  ttl : Nat
  gap : Nat
  retryMax : Nat
  phopen : Nat
  phclose : Nat
  deriving DecidableEq, Repr

/-- Container size C of R57 for STRAIGHT. -/
def straightC (width burst : Nat) : Nat :=
  if 2 ≤ burst then 8
  else if width = 0 then 1 else if width = 1 then 2 else 4

/-- Container size C of R57; 1 for ADDRESS, which pairs each byte with itself. -/
def containerOf (prism elem straight : Nat) : Nat :=
  if prism = 1 then 1
  else if prism = 2 then (if elem = 0 then 2 else if elem = 1 then 4 else 8)
  else straight

/-- The fabric position paired with the VME position `x` of a piece that covers [lo, hi] (R57): the run of the piece
within each C-aligned container is reversed. -/
def prismPair (c lo hi x : Nat) : Nat :=
  let base := x - x % c
  let runLo := max base lo
  let runHi := min (base + c - 1) hi
  runLo + runHi - x

/-- The bytes of a piece of length `bs.length` at lens position `at_`, carried across the prism; the pairing is its own
inverse, so one function serves reads and writes (R58). -/
def prismBytes (c at_ : Nat) (bs : List Byte) : List Byte :=
  (List.range bs.length).map (fun i =>
    getAt 0 bs (prismPair c at_ (at_ + bs.length - 1) (at_ + i) - at_))

/-- Kinds of VME transfer the device makes (R59, R62). -/
inductive XferKind where | single | rmw | blt | mblt | e2vme | e2sst
  deriving DecidableEq, Repr

/-- One transfer of a piece: its kind, first VME address, beat size and number of beats. A single cycle has one beat. -/
structure Xfer where
  kind : XferKind
  addr : Nat
  beat : Nat
  beats : Nat
  deriving DecidableEq, Repr

/-- The single width of a lens (R60): 1 for D8(EO), 2 for D16, 4 for D32 and D64. -/
def singleWidth (width : Nat) : Nat := if width = 0 then 1 else if width = 1 then 2 else 4

/-- The largest single cycle at `a` with `n` bytes left (R60). -/
def cycleSize (w a n : Nat) : Nat :=
  if 4 ≤ w ∧ a % 4 = 0 ∧ 4 ≤ n then 4 else if 2 ≤ w ∧ a % 2 = 0 ∧ 2 ≤ n then 2 else 1

/-- Single cycles over `n` bytes from `a` (R60); `fuel` bounds the number of cycles. -/
def coverSingles (w : Nat) : Nat → Nat → Nat → List Xfer
  | 0, _, _ => []
  | fuel + 1, a, n =>
    if n = 0 then []
    else
      let s := cycleSize w a n
      ⟨.single, a, s, 1⟩ :: coverSingles w fuel (a + s) (n - s)

/-- The beat size b of R62. -/
def beatSize (burst width : Nat) : Nat := if 2 ≤ burst then 8 else if width = 1 then 2 else 4

/-- The boundary at which a burst region is split (R63). -/
def burstBoundary (burst : Nat) : Nat := if burst = 1 then 256 else 2048

/-- The transfer kind of a BURST setting. -/
def burstKind (burst : Nat) : XferKind :=
  if burst = 1 then .blt else if burst = 2 then .mblt else if burst = 3 then .e2vme else .e2sst

/-- The burst region's parts between boundaries (R63): a part of two beats or more is one transfer, a shorter one is
covered by single cycles. -/
def coverBursts (burst width : Nat) : Nat → Nat → Nat → List Xfer
  | 0, _, _ => []
  | fuel + 1, a, n =>
    if n = 0 then []
    else
      let bd := burstBoundary burst
      let part := min n (bd - a % bd)
      let b := beatSize burst width
      let here :=
        if 2 * b ≤ part then [(⟨burstKind burst, a, b, part / b⟩ : Xfer)]
        else coverSingles (singleWidth width) part a part
      here ++ coverBursts burst width fuel (a + part) (n - part)

/-- The cycles of a READ or WRITE piece of `n` bytes at VME address `a` (R60, R62, R63). -/
def coverPiece (burst width : Nat) (burstDis : Bool) (a n : Nat) : List Xfer :=
  if burst = 0 ∨ burstDis then coverSingles (singleWidth width) n a n
  else
    let b := beatSize burst width
    let first := (a + b - 1) / b * b
    let last := (a + n) / b * b
    if first < last then
      coverSingles (singleWidth width) n a (first - a) ++
        coverBursts burst width 4 first (last - first) ++
        coverSingles (singleWidth width) n last (a + n - last)
    else coverSingles (singleWidth width) n a n

/-- A piece is degraded (R64): its lens has a burst, and burst-eligible bytes are carried by single cycles because of
BURST_DIS, a part shorter than two beats, or an empty region. -/
def pieceDegraded (burst width : Nat) (burstDis : Bool) (a n : Nat) : Bool :=
  if burst = 0 then false
  else if burstDis then true
  else
    let b := beatSize burst width
    let first := (a + b - 1) / b * b
    let last := (a + n) / b * b
    if first < last then
      (coverBursts burst width 4 first (last - first)).any (fun x => x.kind == .single)
    else true

/-- How a cycle or beat is signalled (R59): the levels of A01 and of LWORD* (true for asserted; none where the line carries data),
DS1* and DS0* asserted, and for each byte, ascending, the group of eight lines that carries it: 0 is D07–D00 up to 3 D31–D24, 4 is
A07–A01 with LWORD*, then 5 A15–A08 up to 7 A31–A24. -/
structure CyclePins where
  a01 : Option Bool
  lword : Option Bool
  ds1 : Bool
  ds0 : Bool
  lanes : List Nat
  deriving DecidableEq, Repr

/-- The row of R59 for a cycle or beat of `size` bytes at a VME address. -/
def cyclePins (addr size : Nat) : CyclePins :=
  if size = 1 then ⟨some (decide (2 ≤ addr % 4)), some false, addr % 2 == 0, addr % 2 == 1, [if addr % 2 = 0 then 1 else 0]⟩
  else if size = 2 then ⟨some (decide (2 ≤ addr % 4)), some false, true, true, [1, 0]⟩
  else if size = 4 then ⟨some false, some true, true, true, [3, 2, 1, 0]⟩
  else ⟨none, none, true, true, [7, 6, 5, 4, 3, 2, 1, 0]⟩

/-- A burst transfer that has not begun while BURST_DIS is 1 is carried by single cycles (R62). -/
def undoBurst (width : Nat) : List Xfer → List Xfer
  | [] => []
  | x :: r =>
    if x.kind = .single ∨ x.kind = .rmw then x :: r
    else coverSingles (singleWidth width) (x.beat * x.beats) x.addr (x.beat * x.beats) ++ r

/-- The AM code of a cycle (R61) from the lens AM, and for 2e transfers the XAM code beside it. -/
def amOf (lensAm : Nat) (k : XferKind) : Nat × Nat :=
  let np := lensAm == 0x39 || lensAm == 0x3A || lensAm == 0x09 || lensAm == 0x0A
  let a24 := lensAm == 0x39 || lensAm == 0x3A || lensAm == 0x3D || lensAm == 0x3E
  let a64 := lensAm == 0x01
  match k with
  | .single | .rmw => (lensAm, 0)
  | .blt => (if a64 then 0x03 else if a24 then (if np then 0x3B else 0x3F) else (if np then 0x0B else 0x0F), 0)
  | .mblt => (if a64 then 0x00 else if a24 then (if np then 0x38 else 0x3C) else (if np then 0x08 else 0x0C), 0)
  | .e2vme => (0x20, if a64 then 0x02 else 0x01)
  | .e2sst => (0x20, if a64 then 0x12 else 0x11)

end Sys2Proof.Machine
end

