-- ==== Sys2Proof/Machine/State.lean ====
section
/-! DEFINITION. The state of one NB-9416 as plain data, the reasons a step can stop, and the state after reset.

Every piece of state the spec names is here; INVENTORY.md lists each with its rule. A table holds only the entries that
differ from what an unlisted key reads as, so the state after reset is small and two equal states are equal data. -/

namespace Sys2Proof.Machine

/-- Why the machine stops with a fault. -/
inductive Fault where
  /-- Raised by a command whose operands put an interface outside the limits its section states, where R2 leaves the
  behaviour unspecified. Safe: the model stops where the hardware may do anything. -/
  | outsideLimits (what : String)
  deriving DecidableEq, Repr

/-- Why a command has no meaning. -/
inductive Refusal where
  /-- The command has no meaning in the model yet. Raised by the arms of `exec` only. Safe. -/
  | notModelled (mnemonic : String)
  deriving DecidableEq, Repr

/-! ### Set-up registers (R3 to R9, R438 to R441, R463) -/

/-- A STAGED write held while the old bank retires (R441): its register's key, the value, and the key and value of the other register
where it is half of an 8-byte access (R460). -/
structure HeldWrite where
  key : Nat
  value : Word
  other : Option (Nat × Word)
  deriving DecidableEq, Repr

/-- The set-up space. `eff` is the effective bank; `shadow` is the other bank, in which only STAGED fields count (R438);
`latch` holds the partner registers of the latch groups (R463). -/
structure Regs where
  eff : Table Word
  shadow : Table Word
  latch : Table Word
  /-- STAGED writes held while the old bank retires (R441), oldest first. -/
  heldWrites : List HeldWrite
  /-- What the shadow keeps for tables refused at the last commit (R438): key and value. -/
  refused : List (Nat × Word)
  deriving DecidableEq, Repr

/-! ### Faults (R360 to R381) -/

/-- A fault as its unit raises it (R361), with the time of its detection. -/
structure FaultRec where
  code : Nat
  src : Nat
  params : List Word
  cyc : Nat
  frame : Nat
  phase : Word
  deriving DecidableEq, Repr

/-- An active entry (R368). `order` is the order of creation, `since` the EDGE cycle of its creation or last merge (R371). -/
structure ActEntry where
  code : Nat
  src : Nat
  sev : Nat
  esc : Bool
  count : Nat
  frame : Nat
  phase : Word
  order : Nat
  since : Nat
  deriving DecidableEq, Repr

/-- A history entry (R373). -/
structure HistEntry where
  code : Nat
  cell : Nat
  sev : Nat
  esc : Bool
  merge : Bool
  cyc : Nat
  frame : Nat
  phase : Word
  deriving DecidableEq, Repr

/-- The fault collector. `raised` are the faults that have not reached it yet, oldest first. -/
structure FaultUnit where
  raised : List FaultRec
  active : Table (Option ActEntry)
  nextOrder : Nat
  history : Table (List HistEntry)
  /-- ERR_N pulse active (R376). -/
  errPulse : Bool
  safe : Bool
  /-- FENCED regions: LINK, HOST, EDGE (R364; CORE and CHIP promote to SAFE). -/
  fencedLink : Bool
  fencedHost : Bool
  fencedEdge : Bool
  /-- Check-bit injection of R379 armed and not yet written: area, index, double. -/
  inject : Option (Nat × Nat × Bool)
  /-- Injected errors lying in a memory: area, index, double (R379). -/
  badWords : List (Nat × Nat × Bool)
  deriving DecidableEq, Repr
/-! ### Reset and bring-up (R424 to R442) -/

/-- The parts a reset source covers (R424). -/
inductive Part where | link | endpoint | host | core | edge | mgmt | recorder
  deriving DecidableEq, Repr

/-- Strap levels (R430). -/
structure Straps where
  nid : Nat
  idsrc : Bool
  mcap : Bool
  syscon : Bool
  head : Bool
  primary : Bool
  monlock : Bool
  deriving DecidableEq, Repr

structure BootUnit where
  /-- codes of the reset sources asserted now (R424) -/
  held : List Nat
  /-- every PLL has locked -/
  pll : Bool
  straps : Straps
  /-- one-time-programmable memory: serial number, recorder key, whether the key is set (R466, R455) -/
  otpSerial : Nat
  otpKey : List Byte
  otpKeySet : Bool
  /-- Mborus image header of the copy in use: node ID, STAGE_TO_MS, MRAM and DDR4 sizes are in their registers -/
  imageNode : Nat
  stageTo : Nat
  /-- the golden copy of the drover code and its check value (R140, R432) -/
  golden : List Byte
  goldenCrc : Nat
  /-- PMBUS_WRITES section: device, command, value (R406) -/
  pmbusWrites : List (Nat × Nat × Nat)
  /-- OPEN preload entries still to apply (offset, value), and LIVE entries held until the first commit (R435) -/
  openEntries : List (Nat × Word)
  heldLive : List (Nat × Word)
  /-- RING_CMD is due 20 µs after its response (R428) -/
  resetDue : Bool
  /-- EDGE cycle of the chip watchdog's last restart (R429) -/
  wdogAt : Nat
  /-- EDGE cycle of the last release from reset (R443 SVC_MS) -/
  releasedAt : Nat
  deriving DecidableEq, Repr
/-! ### VME interface (R56 to R116) -/

/-- Who may hold bus tenure (R72). -/
inductive VOwner where
  | drover (d : Nat)
  | pwq
  | ih
  deriving DecidableEq, Repr

/-- What a piece does on the bus (R56, R66, R71, R104). `fill` is a lens cache line fill, `iack` an interrupt acknowledge. -/
inductive JobKind where
  | read | write | claim | commit | atomic | fill | iack
  deriving DecidableEq, Repr

/-- A piece on the bus: its lens settings as resolved, the transfers still to run (the first is the one in progress, of
which `beatsDone` beats have ended), its bytes in VME order, and how far it has come. -/
structure VJob where
  kind : JobKind
  lensNo : Nat
  lens : OutLens
  /-- fabric address of the piece's first byte, and its master (R374, R80) -/
  faddr : Nat
  node : Nat
  agent : Nat
  op : Nat
  cls : Nat
  vaddr : Nat
  xfers : List Xfer
  beatsDone : Nat
  wdata : List Byte
  rdata : List Byte
  /-- write phase of an RMW cycle (R71) -/
  wphase : Bool
  /-- bytes ended with DTACK* -/
  done : Nat
  retries : Nat
  /-- a fill whose line was invalidated since its request for tenure (R170) -/
  spoiled : Bool
  /-- what the write phase of an RMW cycle carries, in VME order, and whether a COMMIT writes its data (R71) -/
  wnew : List Byte
  ok : Bool
  /-- its drover was revoked: nothing follows the cycle in progress (R138) -/
  cut : Bool
  /-- its piece has counted as degraded (R64) -/
  degraded : Bool
  /-- the exception count its request carries (R164) -/
  exc : Nat
  deriving DecidableEq, Repr

/-- An entry of the outbound posted write queue (R68). -/
structure PwqEntry where
  job : VJob
  /-- length of the piece -/
  len : Nat
  deriving DecidableEq, Repr

/-- The VME master, requester and system controller. -/
structure VmeBus where
  /-- the device asserts BBSY* -/
  bbsy : Bool
  /-- EDGE cycle of its assertion -/
  since : Nat
  owner : Option VOwner
  /-- the drover whose tenure the device has kept since its last task, while no owner holds the bus (R125) -/
  lastOwner : Option Nat
  /-- the owner has a cycle awaiting termination -/
  strobed : Bool
  /-- EDGE cycle in which the last termination of a cycle of the device was taken, and whether it was BERR* or RETRY* (R79) -/
  endAt : Option (Nat × Bool)
  /-- local owners waiting for tenure, in order of request, and the EDGE cycle in which each owner last asked (R72) -/
  waiting : List VOwner
  askedAt : Table Nat
  /-- BRn* asserted at BR_LEVEL -/
  br : Bool
  /-- FAIR: waiting for BRn* of every other master to be negated (R72) -/
  fairWait : Bool
  /-- owners between a retry or early end and their reissue (R65, R78) -/
  gap : List VOwner
  /-- BCLR* seen (R73) -/
  bclrIn : Bool
  /-- jobs of the drovers, by drover -/
  jobs : Table (Option VJob)
  /-- the IACK cycle in progress: its level -/
  iackLevel : Option Nat
  pwq : List PwqEntry
  /-- drovers waiting for a queue entry, in order of arrival (R69) -/
  pwqWait : List Nat
  /-- arbiter: requests at the four levels from other masters, BBSY* of another master, last level granted, grant out -/
  brOther : List Bool
  bbsyOther : Bool
  lastGrant : Nat
  grantOut : Option Nat
  bclrOut : Bool
  /-- SYSRESET* pulse in progress -/
  sysrstPulse : Bool
  /-- SYSRESET* is driven because the device is held in reset (R81) -/
  sysrstHeld : Bool
  deriving DecidableEq, Repr

/-- The settings of an inbound lens (R52). -/
structure InLens where
  en : Bool
  size : Nat
  space : Nat
  vbase : Nat
  faddr : Nat
  amsel : Nat
  posted : Bool
  retryEn : Bool
  holdUs : Nat
  elem : Nat
  prism : Nat
  deriving DecidableEq, Repr

/-- Where an inbound cycle stands. -/
inductive InStage where
  | lookup      -- AS* seen, the lens decision not yet made
  | ignored     -- no lens matches: the device drives nothing
  | awaitData   -- decided, waiting for the data strobes
  | heldQueue   -- a posted beat held for queue space (R91)
  | heldIssue   -- held, the ring request not yet issued (R92, R96)
  | heldRing    -- held for a ring result (R94)
  | ended       -- terminated; AS* may still be asserted
  deriving DecidableEq, Repr

/-- The inbound cycle on the bus. -/
structure InCycle where
  stage : InStage
  /-- bank in effect when the lookup started (R54) -/
  bank : Bool
  am : Nat
  xam : Nat
  addr : Nat
  write : Bool
  rmw : Bool
  /-- bytes of the cycle or of one beat, as A01, LWORD*, DS1*, DS0* name them; 0 when they name none of R59's kinds -/
  size : Nat
  /-- beats announced (2eVME, 2eSST) -/
  beats : Nat
  lensNo : Nat
  lens : InLens
  /-- the release location of R113 answers -/
  rora : Bool
  /-- the data strobes of the cycle, beat or phase in progress have been seen -/
  strobed : Bool
  /-- write phase of an RMW cycle -/
  wphase : Bool
  /-- address of the beat in progress -/
  cur : Nat
  wdata : List Byte
  /-- posted block data gathered for the request in progress (R88), with the VME address of its first byte -/
  gather : List Byte
  gatherAt : Nat
  /-- block read: bytes fetched and not yet taken, with the fabric address of the first, and the status that ends them -/
  ahead : List Byte
  aheadAt : Nat
  aheadEnd : Option Nat
  /-- the slots this cycle waits for, oldest first; the slots whose result lies in `ahead` and is not wholly taken, with the bytes left
  of each (R96) -/
  slots : List Nat
  taken : List (Nat × Nat)
  /-- where the last slot that it matched ends, for a block transfer that continues from it (R96) -/
  cont : Option Nat
  deriving DecidableEq, Repr

/-- What a retry slot holds (R96). -/
inductive SlotState where
  | issued               -- the ring request runs
  | parked (status : Nat) (data : List Byte)
  deriving DecidableEq, Repr

/-- A retry slot in use. `held` is false once its cycle was ended with RETRY* or abandoned. -/
structure RSlot where
  lensNo : Nat
  space : Nat
  am : Nat
  xam : Nat
  write : Bool
  rmw : Bool
  block : Bool
  addr : Nat
  len : Nat
  faddr : Nat
  wdata : List Byte
  held : Bool
  /-- its transfer has ended: the result is discarded without a report (R89) -/
  drop : Bool
  st : SlotState
  deriving DecidableEq, Repr

/-- An entry of the inbound posted write queue (R91). -/
structure IpwqEntry where
  id : Nat
  lensNo : Nat
  vaddr : Nat
  faddr : Nat
  data : List Byte
  issued : Bool
  /-- the status and bytes done of its ring write, once known -/
  result : Option (Nat × Nat)
  deriving DecidableEq, Repr

/-- State of one interrupt level at the handler (R104, R105). -/
structure IhLevel where
  asserted : Bool
  inService : Bool
  /-- the ROAK delay or the RORA samples are over -/
  rearmReady : Bool
  /-- the message of its last IACK is not yet acknowledged -/
  msgOpen : Bool
  deriving DecidableEq, Repr

/-! ### Drovers, tasks and stiles (R117 to R141) -/

/-- A task record (R120) with the data its cells hold. `age` is its placement age (R119); `reran` says it has been revoked
once (R138); `link` is the model's own note of the unit that waits for the task (an inbound slot or queue entry), `orig` the
class under which it was created, `desc` the 64 bytes of its descriptor, `index` its place in its command ring, `late` that its
stamp had passed at release, `pass` that a phase gate
or a fold has let it through, `want` the fixed stile it belongs to, `entered` that it has its sequence. -/
structure Task where
  cls : Nat
  pinwhy : Nat
  steals : Nat
  bank : Bool
  idem : Bool
  ord : Bool
  ph : Bool
  home : Nat
  pclass : Nat
  dir : Bool
  op : Nat
  lenm1 : Nat
  tag : Nat
  addr : Nat
  phase : Nat
  framelo : Nat
  seq : Nat
  stile : Nat
  srcNode : Nat
  agent : Nat
  param : Nat
  /-- the record's reserved bits, zero in every record the fold manager writes (R121) -/
  resv : Nat
  /-- the first of its data cells, zero where it has none (R118, R120) -/
  dcell : Nat
  data : List Byte
  age : Nat
  reran : Bool
  link : Nat
  orig : Nat
  desc : List Byte
  index : Nat
  late : Bool
  pass : Bool
  want : Option Nat
  entered : Bool
  /-- the exception count its request carries (R164) -/
  exc : Nat
  /-- a descriptor of class CTRL fetched at SAFE, which is refused (R365) -/
  refused : Bool
  deriving DecidableEq, Repr

/-- The result of a task: status (R218), bytes done, and the data or RESULT it returns. -/
structure TaskResult where
  status : Nat
  bytesDone : Nat
  payload : List Byte
  deriving DecidableEq, Repr

/-- How far a task in execution has come. -/
inductive ExecPhase where
  | gate      -- waits at its stile's perform gate (R133)
  | ready     -- its action may start
  | ordWait   -- waits for its agent's earlier accesses (R146, R149)
  | bus       -- waits for tenure or for VME cycles
  | pwqWait   -- waits for space in the posted write queue, or behind an overlapping entry (R68, R69)
  | ring      -- waits for ring responses to requests it issued
  | host      -- waits for the host port
  | field     -- waits for a field port
  | held      -- its work is held by another unit, which completes it
  | ended     -- its result is built
  deriving DecidableEq, Repr

/-- One piece of a request in outbound lens space (R45, R56), with the lens settings it was resolved under (R54, R55). -/
structure Piece where
  lensNo : Nat
  lens : OutLens
  /-- offset of the piece in the request, and its length -/
  off : Nat
  len : Nat
  deriving DecidableEq, Repr

/-- A request a task has issued and not yet had answered: its opcode and fabric address, the offset in the work it covers and
its length. -/
structure Sub where
  op : Nat
  addr : Nat
  off : Nat
  len : Nat
  deriving DecidableEq, Repr

/-- A task in execution. -/
structure Exec where
  task : Task
  phase : ExecPhase
  pieces : List Piece
  /-- bytes done so far, in ascending order -/
  done : Nat
  /-- data read, or data to write -/
  buf : List Byte
  subs : List Sub
  /-- next byte offset of a descriptor's blocks (R211) -/
  next : Nat
  /-- lowest error among its blocks: offset, status and bytes done of the failing request -/
  err : Option (Nat × Nat × Nat)
  /-- offsets of blocks read and to be written, oldest first -/
  toWrite : List (Nat × Nat)
  /-- lenses the request was resolved through, VME bytes of the piece in progress taken from the lens cache, and whether a line
  had to be filled (R55, R66, R168) -/
  resolved : List Nat
  part : List Byte
  missed : Bool
  /-- a count its opcode keeps (slots failing their check, attempts) -/
  aux : Nat
  /-- its data cells, which the drover's fold holds (R118) -/
  cells : Nat
  result : Option TaskResult
  deriving DecidableEq, Repr

/-- An event source of R108: its route, whether a message is in flight, the events that message carries and those merged into
the following one, with frame, phase and vector. -/
structure SrcMsg where
  route : Nat
  count : Nat
  merged : Nat
  frame : Nat
  phase : Nat
  vector : Nat
  deriving DecidableEq, Repr

/-- Drover states of DRV_d_STAT (R142). -/
inductive DrvState where | stopped | running | reloading | removed
  deriving DecidableEq, Repr

/-- One drover. -/
structure Drover where
  st : DrvState
  revokes : Nat
  exec : Option Exec
  /-- tasks waiting in its fold, oldest first (R119) -/
  fold : List Task
  asleep : Bool
  /-- last drover examined in each block, and last block (R128) -/
  lastLocal : Nat
  lastBlock : Nat
  lastIn : List Nat
  /-- half-duplex turnaround held: port (R125, R285) -/
  turn : Option Nat
  /-- requester of the last task it ran (R125) -/
  lastReq : Option (Nat × Nat)
  /-- its memory: 16 KiB of code once loaded, and the bytes of its 8 KiB of data that are not zero (R140);
  the firmware that would write the data is not modelled (log entry 55) -/
  code : List Byte
  data : Table Byte
  deriving DecidableEq, Repr

/-- A task in flight in a stile (R132, R133): its sequence, its stream (source node, agent, packet class), the order in which it
entered, its gate kind (0 EFFECT, 1 LOAD, 2 BARRIER), address and length. -/
structure StileTask where
  seq : Nat
  stream : Nat × Nat × Nat
  born : Nat
  kind : Nat
  addr : Nat
  len : Nat
  done : Bool
  completed : Bool
  deriving DecidableEq, Repr

/-- One stile (R132 to R136). `parked` are results waiting at the release gate. -/
structure Stile where
  nextSeq : Nat
  nextRelease : Nat
  inflight : List StileTask
  parked : List (Nat × Task × TaskResult)
  /-- the stream of a dynamic stile: source node, agent, packet class -/
  stream : Option (Nat × Nat × Nat)
  deriving DecidableEq, Repr

/-- A task creation that waits for a stile limit or for an enabled drover (R124, R132, R180). -/
structure DrvUnit where
  drv : Table Drover
  stiles : Table Stile
  waiting : List Task
  /-- results of work another unit held, on their way to the release gate -/
  results : List (Task × TaskResult)
  nextAge : Nat
  /-- order of entry into stiles -/
  nextBorn : Nat
  /-- round-robin pointer of each task class (R123) -/
  rr : List Nat
  /-- placement sets found empty, by class (R124) -/
  emptyRaised : List Bool
  /-- interrupt message sources with a message in flight (R108): key kind × 256 + item -/
  sources : Table (Option SrcMsg)
  /-- unordered command rings: descriptors not yet completed, oldest first, and whether each is a barrier (R144) -/
  ringOpen : Table (List (Nat × Bool))
  /-- the CORE cycle of the last wake-ups, how many they were, and the drovers held back with whether a reload has ended (R421) -/
  wakeCyc : Nat
  woken : Nat
  wakeWait : List (Nat × Bool)
  deriving DecidableEq, Repr
/-- A vector of the interrupter (R110) with the raise it completes: an IRQ_RAISE task, or a message to acknowledge. -/
structure IntrVector where
  vector : Word
  task : Option Task
  msg : Option Packet
  taken : Bool
  deriving DecidableEq, Repr

/-- The VME slave, interrupt handler and interrupter. -/
structure VmeIn where
  cyc : Option InCycle
  slots : List (Option RSlot)
  ipwq : List IpwqEntry
  /-- the model's own: the number of the next posted entry -/
  nextPost : Nat
  levels : List IhLevel
  /-- VME_MASTER_OFF already raised for an asserted level (R104) -/
  masterOffRaised : Bool
  vectors : List IntrVector
  /-- raises waiting for a full queue -/
  vectorWait : List IntrVector
  irqOut : Bool
  /-- the 500 ns after a ROAK acknowledge cycle run (R112) -/
  irqGap : Bool
  deriving DecidableEq, Repr

/-- A CONFIG_COMMIT that waits for a commit (R440): its task and the period number it asked for; whether the shadow was pending
at its issue; whether the boundary it asked for has passed. -/
structure CommitWait where
  task : Task
  target : Option Nat
  pending : Bool
  waited : Bool
  deriving DecidableEq, Repr
/-! ### Ordering, combining buffer, claims, lens cache (R143 to R175) -/

/-- An access an agent has issued and that has not been delivered (R146, R148): target node, packet class, address, length,
whether it is a store and whether a load, and the response once it has come. -/
structure OpenAccess where
  id : Nat
  node : Nat
  cls : Nat
  addr : Nat
  len : Nat
  store : Bool
  load : Bool
  rsp : Option TaskResult
  deriving DecidableEq, Repr

/-- What a node keeps for each agent it issues requests for. -/
structure AgentState where
  /-- 8-bit exception count (R164) -/
  exc : Nat
  nextId : Nat
  accesses : List OpenAccess
  lastStore : Option (Nat × Nat)
  /-- nodes stored to since the last DONE (R151) -/
  doneMap : List Nat
  /-- stores that ended at the originator without being sent (R151) -/
  unsent : Nat
  /-- flush writes lost since its last barrier began: the line and the bytes (R150) -/
  flushLost : List (Nat × Nat)
  deriving DecidableEq, Repr

/-- Stores of one requester at this node's endpoints (R152): how many await confirmation, how many ended unconfirmed, and the
host window segments of writes that a read has not yet proven, and those of them written again since their read was issued. -/
structure Confirm where
  pending : Nat
  failed : Nat
  segs : List Nat
  again : List Nat
  deriving DecidableEq, Repr

/-- A reservation (R162). `space` is 0 to 4 for a VME space, 5 for a fabric granule; `key` is the 64-byte granule. -/
structure Claim where
  node : Nat
  agent : Nat
  space : Nat
  key : Nat
  /-- the agent's exception count that the CLAIM carried (R164) -/
  exc : Nat
  /-- the bytes the CLAIM returned, for the comparison of R71 and R161 -/
  data : List Byte
  lensNo : Option Nat
  drover : Nat
  deriving DecidableEq, Repr

/-- A combining buffer line (R155): 64-byte aligned address, bytes with their valid marks, the requesters that wrote into it and
the last of them (node × 256 + agent), whether it is being flushed, and its flush writes still open. Lines stand in the order of
their first byte. -/
structure WcLine where
  base : Nat
  bytes : List (Option Byte)
  writers : List Nat
  last : Nat
  flushing : Bool
  writes : List (Nat × Nat)
  deriving DecidableEq, Repr

/-- A lens cache line (R167): space, line address, bytes in VME order, time of its fill in µs, injected check bits (R379). -/
structure LcLine where
  space : Nat
  addr : Nat
  bytes : List Byte
  filled : Nat
  bad : Option Bool
  deriving DecidableEq, Repr

structure OrdUnit where
  agents : Table AgentState
  confirms : Table Confirm
  claims : List Claim
  wc : List WcLine
  /-- flush writes answered and not yet taken up: address, length, status, bytes done -/
  wcDone : List (Nat × Nat × Nat × Nat)
  /-- lens cache sets: lines of each set, most recently used first -/
  lc : Table (List LcLine)
  /-- power-fail drain (R174): µs of the warning while step 3 runs, and whether the warning has been withdrawn -/
  pfSince : Option Nat
  pfWithdrawn : Bool
  deriving DecidableEq, Repr
/-! ### Folds (R177 to R196) -/

/-- A word of the cell pool with its tag (R177). `last` marks the last word of its cell, so that popping it frees the cell
(R185). -/
structure FWord where
  w : BitVec 64
  tag : Byte
  last : Bool
  /-- requester whose store the word belongs to, plus one; zero for none (R152) -/
  who : Nat
  /-- injected check bits (R379): area, index, double -/
  bad : Option (Nat × Nat × Bool)
  deriving DecidableEq, Repr

/-- A private open chain (R181): the head that builds it, its words, its cells, and whether the rest of its packet is being
discarded after a pointer reset (R193). -/
structure Chain where
  head : Nat
  words : List FWord
  cells : Nat
  drop : Bool
  /-- it was discarded by FLUSH (R197) -/
  flushed : Bool
  deriving DecidableEq, Repr

/-- One fold: its visible words, visible packets, cells held, open chains, and the stale-tail timer. -/
structure Fold where
  words : List FWord
  packets : Nat
  held : Nat
  chains : List Chain
  /-- the stale-tail timer runs (R191) -/
  staleRun : Bool
  deriving DecidableEq, Repr

/-- A push that waits for a cell (R184), with the number of its entries that have landed: the head, its entries, and the
request it completes. -/
structure HeldPush where
  head : Nat
  entries : List (BitVec 64 × Byte)
  who : Nat
  drover : Option Nat
  deriving DecidableEq, Repr


/-- A RECV_POST held by the fold manager (R209): its task and its head. -/
structure Post where
  task : Task
  head : Nat
  deriving DecidableEq, Repr

structure FoldUnit where
  folds : Table Fold
  free : Nat
  /-- cells of an old generation that the present pass and the next one return; a pass runs; folds awaiting the next pass -/
  oldNow : Nat
  oldNext : Nat
  sweepBusy : Bool
  sweepFolds : List Nat
  /-- pointer copies to invert at the next access (R197): fold and whether the tail -/
  inject : List (Nat × Bool)
  heldPushes : List HeldPush
  posts : List Post
  deriving DecidableEq, Repr
/-! ### Ring links (R229 to R249) -/

/-- One lane (R234). The lane's status fields lie in LNK_LANEl_STAT. -/
structure Lane where
  /-- steps 1 and 2 complete -/
  clock : Bool
  /-- count of the last consistent marker (R232) -/
  marker : Option Nat
  /-- LOCK_US runs (R246) -/
  lockTimer : Bool
  /-- uncorrectable codewords of the present 1 ms interval (R246) -/
  ue : Nat
  /-- LNK_INJ armed: FEC rather than CRC, symbols (R250) -/
  inject : Option (Bool × Nat)
  /-- steps 1 to 5 complete, and not in the bond (R234, R247) -/
  ready : Bool
  deriving DecidableEq, Repr

/-- A packet waiting to be sent on a link: pass-through or local (R257), and the side whose buffer still holds it (R258). -/
structure TxWait where
  pkt : Packet
  pass : Bool
  from_ : Option Nat
  deriving DecidableEq, Repr

/-- One link: its training, sender and receiver (R234 to R248). -/
structure Link where
  initSent : Bool
  initRcvd : Bool
  /-- LNK_TRAIN_FAIL raised in this episode (R234) -/
  failRaised : Bool
  /-- LANE frames are repeated until the sender shows the same bond (R246) -/
  laneOpen : Bool
  /-- sender: next SEQ, retry buffer, start of the replay in progress, consecutive replays without an advance -/
  nextSeq : Nat
  unacked : List (Nat × Packet)
  replay : Option Nat
  replays : Nat
  /-- packets waiting for the window or for credit, oldest first; the last of DATA and BULK served was BULK; per class, the
  last served was pass-through (R257) -/
  waiting : List TxWait
  lastBulk : Bool
  lastPass : List Bool
  /-- pool limits of the last FLOW frame, units sent and units freed, modulo 256 (R258) -/
  limits : List Nat
  sent : List Nat
  freed : List Nat
  /-- receiver: next SEQ expected; discards until it arrives; on the corrected path, with the first failure not yet fixed -/
  expect : Nat
  discarding : Bool
  corrected : Bool
  firstFail : Bool
  /-- units freed in each pool, modulo 256 -/
  rxFreed : List Nat
  /-- an acknowledgement has changed and no frame has carried it (R242) -/
  ackOwed : Bool
  /-- receiver: frames taken on the fast path whose codeword has not left the decoder (R238, R240) -/
  seen : Nat
  /-- sender: EDGE cycle in which an acknowledgement last advanced and restarted the replay timer (R245) -/
  advAt : Option Nat
  /-- EDGE cycle of the first LANE frame of the exchange (R246) -/
  laneAt : Nat
  /-- sender: blocks dealt since the last marker pair, and that pair's count (R232, R233) -/
  txBlocks : Nat
  txMarker : Nat
  /-- node ID in the last marker received on either lane (R266) -/
  rnode : Nat
  deriving DecidableEq, Repr

/-! ### Ring network (R251 to R276) -/

/-- A packet in a receiving side's buffer (R258). -/
structure RxPkt where
  pkt : Packet
  pool : Nat
  units : Nat
  /-- NET_DROP_STALL raised for this wait (R259) -/
  stalled : Bool
  deriving DecidableEq, Repr

/-- Who waits for the answer to an open tag. -/
inductive TagOwner where
  | sub (d : Nat)                 -- a request of the task drover d runs
  | bar2 (id : Nat)               -- a BAR2 TLP
  | flush                         -- a combining-line flush write
  | doorbell                      -- a read of the doorbell page
  | fetch (ring : Nat)            -- a descriptor fetch
  | msg (kind item : Nat)         -- an interrupt message, by source
  | ringWrite (key : Nat)         -- a write of a completion (0 to 255), event (256) or statistics (257) ring entry
  | none
  deriving DecidableEq, Repr

/-- An open tag (R255): its request, who waits, and for DUP whether one copy has arrived. -/
structure TagRec where
  dst : Nat
  addr : Nat
  cls : Nat
  op : Nat
  len : Nat
  owner : TagOwner
  dup : Bool
  answered : Bool
  /-- closed by timeout, in quarantine -/
  closed : Bool
  /-- the agent (node × 256 + number) and the number of its access, when it is an agent's (R146) -/
  key : Nat
  acc : Option Nat
  /-- the agent's exception count at issue (R164) -/
  exc : Nat
  deriving DecidableEq, Repr

/-- An entry of the node table (R262). -/
structure NodeRec where
  present : Bool
  mcap : Bool
  hops : Nat
  /-- announced since the rebuild began -/
  fresh : Bool
  deriving DecidableEq, Repr

/-- One side's delay measurement (R272): the exchange in progress (DSEQ, t1) and the last four delays. -/
structure DelayRec where
  dseq : Nat
  open_ : Option Nat
  last : List Nat
  deriving DecidableEq, Repr

/-- A wrap in progress (R266): frames handed over, and what the partner is expected to send. -/
structure WrapRec where
  held : List (Nat × Packet)
  /-- the hold runs -/
  waiting : Bool
  neighbour : Nat
  nextSeq : Nat
  /-- the link is up again and unwrap waits for the end of the hold (R267) -/
  unwrapDue : Bool
  deriving DecidableEq, Repr

structure NetUnit where
  lanes : List Lane
  links : List Link
  /-- receive buffers of sides W and E, oldest first -/
  rx : List (List RxPkt)
  /-- packets waiting at the drop points of sides W and E -/
  dropWait : List (List RxPkt)
  /-- packets taken: from side W, side E, the node itself (R31), link P -/
  taken : List (List Packet)
  /-- open and quarantined tags -/
  tags : Table (Option TagRec)
  /-- tags freed, least recent first; those never used follow in order -/
  freeTags : List Nat
  nextTag : Nat
  /-- packets of a request waiting for a free tag -/
  tagWait : List (Packet × TagRec)
  dupFilter : List (Nat × Nat × Nat)
  /-- requests and messages whose second copy has come and that are not answered yet: source and tag (R261) -/
  dupSeen : List (Nat × Nat)
  nodes : Table NodeRec
  /-- this node's JOIN is on its way -/
  joinOut : Bool
  wraps : List WrapRec
  /-- wraps of other nodes in effect: node and side (R260, R266) -/
  wrapAt : List (Nat × Nat)
  /-- highest ROUND seen, an own ELECT in progress -/
  round : Nat
  electOut : Bool
  /-- ELECTED is awaited, since joining or since the last election started (R269) -/
  electWait : Bool
  noBwRaised : Bool
  /-- epoch time (1/16 ns), its fraction and rate (10⁻⁹ of the nominal), STEPS, last ESEQ sent, a step requested, ever
  synchronised -/
  epoch : Nat
  epochFrac : Nat
  epochRate : Int
  steps : Nat
  stepsSeen : Option Nat
  eseq : Nat
  setReq : Bool
  everSynced : Bool
  /-- HOPS and ESEQ of the last EPOCH packet of each ring (R274) -/
  ringHops : List (Option (Nat × Nat))
  delays : List DelayRec
  deriving DecidableEq, Repr
/-! ### Cadence (R317 to R335) -/

/-- A holding entry (R324): a stamped task, a request at a phase gate, or a PHASE_WAIT; its stamp as a position when it has one
(R325), and the phase window [open, close) it waits for. -/
structure HoldEntry where
  task : Task
  stamp : Option Nat
  gate : Option (Nat × Nat)
  deriving DecidableEq, Repr

/-- A schedule entry's state (R328, R329): armed, the position it fired at, the descriptor in effect, the shadow copy and
whether that copy is still being made. -/
structure SchEntry where
  armed : Bool
  firedAt : Nat
  desc : List Byte
  shadow : Option (List Byte)
  copying : Bool
  deriving DecidableEq, Repr

structure CadUnit where
  /-- position F × 2³² + φ modulo 2⁸⁰ (R317), and the part of a phase unit in 1 / `den` -/
  pos : Nat
  acc : Nat
  /-- phase units per EDGE cycle as a fraction `num / den`, and its direction -/
  num : Nat
  den : Nat
  /-- period number (R323), EDGE cycle of the last boundary, frame at the start of the period, frames crossed -/
  p : Nat
  lastBoundary : Nat
  startFrame : Nat
  crossed : Int
  /-- a boundary was suppressed and the next crossing or MAX_MS makes it; flags of the period (R333) -/
  flags : Nat
  /-- mains: EDGE cycle of the last valid crossing, the last valid periods, newest first -/
  zcLast : Option Nat
  zcPeriods : List Nat
  /-- consecutive valid references since a loss, or since the source was selected -/
  refs : Nat
  /-- encoder: accepted levels A and B, EDGE cycle of the last count, illegal transitions in this frame -/
  encA : Bool
  encB : Bool
  encLast : Nat
  encBad : Nat
  /-- held work in order of entry, and work waiting for an entry (R324) -/
  hold : List HoldEntry
  holdWait : List HoldEntry
  /-- A full spell of the holding store is on: CAD_HOLD_FULL has been raised in it (R324). -/
  holdSpell : Bool
  /-- highest position reached; while a backward step's window is open, the position H of R275 -/
  high : Nat
  stepH : Option Nat
  /-- a forward step has passed a frame that ends the period (R323) -/
  due : Bool
  sch : Table SchEntry
  deriving DecidableEq, Repr

/-- The period statistics (R331 to R335). `cnt` holds the counters of the open period, by record offset / 4. -/
structure StatUnit where
  cnt : Table Word
  /-- banks still to be copied to the statistics ring, oldest first (R332) -/
  copying : List Nat
  deriving DecidableEq, Repr
/-! ### Twin operation (R336 to R358) -/

/-- A mirror record (R351): its type and payload. -/
structure MirrorRec where
  rtype : Nat
  payload : List Byte
  deriving DecidableEq, Repr

/-- An epoch being staged at the standby (R352). `close` is RCOUNT, CRC, flags (bit 0 FULL, 1 MARK, 2 HANDOVER), the mark. -/
structure StageBank where
  epoch : Nat
  recs : List (Nat × MirrorRec)
  bytes : Nat
  close : Option (Nat × Word × Nat × Nat)
  bad : Bool
  deriving DecidableEq, Repr

structure TwinUnit where
  bseq : Nat
  /-- BEACONs sent and not yet overtaken: BSEQ and time -/
  beacons : List (Nat × Nat)
  tRenew : Nat
  tHeard : Nat
  /-- LEASE_MS + GUARD_MS of the last BEACON heard -/
  peerSum : Nat
  /-- the settings last found different, the peer's and the node's own (R341) -/
  mismatch : Option ((Nat × Nat) × Nat × Nat)
  /-- highest GEN heard, node heard as holder since STANDBY, EDGE cycle of entering STANDBY, and of the last LEASE packet on each path -/
  peerGen : Nat
  heardActive : Option Nat
  enteredStandby : Nat
  heardLane : Option Nat
  heardRing : Option Nat
  /-- the claim in progress has seen a TAKE (R342), and follows a HANDOVER (R348) -/
  sawTake : Bool
  handover : Bool
  stuckRaised : Bool
  peerLostRaised : Bool
  /-- a fence runs until its pins are at high impedance (R343); EDGE cycle of the last fence -/
  fencing : Bool
  fenceAt : Nat
  holdOut : Bool
  holdIn : Bool
  /-- tasks waiting for outputs while YIELDING lie with their units; the epoch whose COMMITTED ends the handover -/
  yieldEpoch : Option Nat
  /-- holder: records queued, records waiting for space, RSEQ and CRC of the open epoch, marks of the open epoch, marks waiting
  for a commit (epoch, task), full copy requested, the open epoch is a full copy, copy records not yet queued (R357) -/
  mq : List (Nat × Nat × MirrorRec)
  mwait : List MirrorRec
  rseq : Nat
  crc : Word
  marks : List (Nat × Task)
  markWait : List (Nat × Task)
  fullReq : Bool
  fullOpen : Bool
  fullLeft : Nat
  /-- standby: RESYNC has been sent since SYNC was last cleared, the epochs being staged, the epoch being committed -/
  asked : Bool
  banks : List StageBank
  committing : Option StageBank
  deriving DecidableEq, Repr
/-! ### Field ports (R278 to R313) -/

/-- A packet in transmission on a serial port: its characters, how many have come back as echo, an echo that differed, the
stores it confirms, and the drover of a poll step. -/
structure SerialTx where
  bytes : List Byte
  echoed : Nat
  echoBad : Bool
  /-- the last stop bit has left the pin -/
  sent : Bool
  who : List Nat
  drover : Option Nat
  deriving DecidableEq, Repr

/-- One serial port. -/
structure SerialPort where
  /-- the receive frame: bytes, bytes on the line, bytes lost, flags (STAT bits 63 to 56) -/
  frame : List Byte
  rxBytes : Nat
  lost : Nat
  flags : Nat
  open_ : Bool
  /-- IEC 61162-1: inside a sentence; MODBUS: discarding until T3.5; a silence longer than T1.5 has passed; T3.5 has passed -/
  skipping : Bool
  gapSeen : Bool
  quiet : Bool
  tx : Option SerialTx
  de : Bool
  /-- the turnaround: a reply is awaited; its drover for a poll step -/
  turn : Bool
  turnDrover : Option Nat
  /-- the poll step handed over and not yet sent; the entry of the pass in progress -/
  pollReq : Option (Nat × List Byte)
  pass : Option Nat
  deriving DecidableEq, Repr

/-- A frame a CAN FD controller has taken from its send fold (R302). -/
structure CanTx where
  word : Nat
  data : List Byte
  who : List Nat
  attempts : Nat
  deriving DecidableEq, Repr

/-- One CAN FD controller. -/
structure CanCtl where
  txBuf : List CanTx
  /-- a frame of `txBuf` (the first) is on the bus -/
  sending : Bool
  tec : Nat
  rec_ : Nat
  recovering : Bool
  deriving DecidableEq, Repr

/-- One discrete chain. Images are 128-bit numbers, line i at bit i. -/
structure DcChain where
  outImg : Nat
  inImg : Nat
  inFrame : Bool
  /-- what the frame in progress carries, its Q, and the frame and phase of its LOAD rise -/
  carried : Nat
  q : Bool
  atFrame : Nat
  atPhase : Nat
  /-- what the previous frame latched, when it latched -/
  latched : Option Nat
  unequal : Nat
  /-- the last 16 scans, newest first: captured lines, frame, phase -/
  scans : List (Nat × Nat × Nat)
  stamps : Table Nat
  /-- stores awaiting a frame, those the frame in progress carries, and those latched and awaiting readback: requester, lines
  changed -/
  outPend : List (Nat × Nat)
  outNow : List (Nat × Nat)
  outSent : List (Nat × Nat)
  lastStart : Option Nat
  deriving DecidableEq, Repr

structure PortUnit where
  sp : Table SerialPort
  cf : Table CanCtl
  dc : Table DcChain
  deriving DecidableEq, Repr
/-! ### Host control (R198 to R225) -/

/-- An entry on its way into a completion ring (0 to 255), the event ring (256) or the statistics ring (257), without its PHASE:
whether it is a CMD entry, the MSI-X vector that follows it, the INTERRUPT message to acknowledge, its bytes. -/
structure RingEntry where
  key : Nat
  cmd : Bool
  vector : Option Nat
  msg : Option Packet
  bytes : List Byte
  /-- it has waited for a full ring, and counted (R215) -/
  waited : Bool
  deriving DecidableEq, Repr

/-- An entry being written: the writes still to make, in order; the first is in flight. -/
structure RingWrite where
  entry : RingEntry
  steps : List (Nat × List Byte)
  deriving DecidableEq, Repr

/-- An MSI-X table entry. -/
structure MsixEntry where
  addr : Nat
  data : Nat
  masked : Bool
  deriving DecidableEq, Repr

/-- A host window request at the PCI Express port. `drover` is none for the device's own confirming read of a segment, `who` the
requester whose stores that read proves (R152). -/
structure HostReq where
  id : Nat
  drover : Option Nat
  who : Nat
  /-- 0 read, 1 write, 2 atomic -/
  kind : Nat
  seg : Nat
  addr : Nat
  len : Nat
  data : List Byte
  sent : Bool
  deriving DecidableEq, Repr

/-- A BAR2 TLP (R223): its fabric address, its length or data, the next byte to issue, the requests open, the data read, the
first bad status, bytes lost. -/
structure BarTlp where
  id : Nat
  /-- the host's tag of a read -/
  tag : Nat
  write : Bool
  addr : Nat
  len : Nat
  data : List Byte
  next : Nat
  open_ : List (Nat × Nat)
  status : Nat
  lost : Nat
  /-- the host no longer waits for it (R225) -/
  dropped : Bool
  deriving DecidableEq, Repr

/-- A descriptor fetch on its way: first index, count, address read, and the answer. -/
structure FetchRec where
  index : Nat
  count : Nat
  addr : Nat
  answer : Option (Nat × List Byte)
  deriving DecidableEq, Repr

structure HostUnit where
  /-- producer indices of the event and statistics rings, consumer indices as last read -/
  evPi : Nat
  stPi : Nat
  evCi : Nat
  stCi : Nat
  cqCi : Table Nat
  /-- entries dropped since the last one written -/
  evLost : Nat
  stLost : Nat
  /-- descriptor fetcher: last ring served, a poll's reads are out, what they answered (page offset, status, data), the last poll
  had a failed read, fetches out (first index, count) with their answer -/
  lastRing : Nat
  polling : Bool
  polled : List (Nat × Nat × List Byte)
  pollBad : Bool
  fetches : Table (List FetchRec)
  /-- entries waiting, oldest first, and one being written in each ring; completion rings in a full spell -/
  queue : List RingEntry
  writers : Table (Option RingWrite)
  fullSpell : List Nat
  /-- MSI-X: table, pending bits; coalescing intervals that run, and whether a signal is deferred -/
  msix : Table MsixEntry
  pba : List Nat
  coal : List (Nat × Bool)
  /-- PCI Express configuration: AtomicOp requester, Max Read Request Size, Max Payload Size, D3hot, MSI-X enable, function mask -/
  atomicEn : Bool
  mrrs : Nat
  mps : Nat
  d3 : Bool
  msixEn : Bool
  funcMask : Bool
  /-- its six base address registers (R222) -/
  bars : List Word
  /-- posted-request credits; window requests; TLPs of BAR2 -/
  credits : Nat
  nextReq : Nat
  reqs : List HostReq
  tlps : List BarTlp
  nextTlp : Nat
  deriving DecidableEq, Repr
/-! ### Node-local DDR4 (R226 to R228) -/

/-- The DDR4 memory: its bytes by offset from 0x10_0000_0000 (an unlisted byte reads 0x00, log entry 3), the words whose check
bits are wrong (word number, two bits), and an armed injection (two bits). -/
structure DdrUnit where
  bytes : Table Byte
  bad : List (Nat × Bool)
  inject : Option Bool
  /-- next word of the patrol scrub -/
  scrubAt : Nat
  deriving DecidableEq, Repr
/-! ### Event recorder (R382 to R404) -/

/-- A record in the recorder queue (R384): its code, its time and its parameters, without CHECK. -/
structure RecEntry where
  code : Nat
  seconds : Nat
  pcyc : Nat
  frame : Nat
  params : List Word
  deriving DecidableEq, Repr

/-- One MRAM operation: 0 area P, 1 area C, 2 control block, 3 zeroing; offset and bytes. -/
structure RecOp where
  area : Nat
  at_ : Nat
  bytes : List Byte
  deriving DecidableEq, Repr

/-- How far a CLEAR has come (R398): zeroing, writing its record, writing the control copies. -/
inductive ClearStep where
  | zeroing | record (e : RecEntry) | copies
  deriving DecidableEq, Repr

/-- The recorder port. `now` is the record being written, `ops` the operations still to make for it or for the control copies (the
first is in progress, `again` when it is being repeated), `ctlDue` that the copies must be written, `lost` the records dropped
since the last one written. -/
structure RecUnit where
  mram : Table Byte
  seconds : Nat
  pcyc : Nat
  next : Nat
  clears : Nat
  nonce : Nat
  queue : List RecEntry
  now : Option RecEntry
  ops : List RecOp
  again : Bool
  ctlDue : Bool
  lost : Nat
  /-- injection armed (R404): KIND; read-backs still to fail -/
  inject : Option Bool
  failNext : Nat
  /-- consecutive failures of R397 -/
  fails : Nat
  /-- the LOG_CLEAR that zeroes; a reset has ended its command, so that it completes none -/
  clearing : Option Task
  clearStep : ClearStep
  clearDropped : Bool
  /-- counts a reset has latched for its WRITES_DISCARDED record (R173) -/
  discards : List (List Word)
  deriving DecidableEq, Repr
/-! ### Power path (R405 to R423) -/

/-- What a PMBus transaction is for (R406, R407, R409). `back` is the read-back of a write; `stale` a sample whose cycle is over. -/
inductive PmbKind where
  | volts | amps | mode | write | back | alertAddr | status | clear | stale
  deriving DecidableEq, Repr

/-- A PMBus transaction: its device, command code, purpose and, for a write or its read-back, the word. -/
structure PmbOp where
  dev : Nat
  cmd : Nat
  kind : PmbKind
  word : Nat
  deriving DecidableEq, Repr

/-- One PMBus port: the transactions still to make (the first is in progress) and whether that one is being tried again (R407). -/
structure PmbPort where
  ops : List PmbOp
  again : Bool
  deriving DecidableEq, Repr

/-- What the supervisor keeps of a device: the exponent of its VOUT_MODE, the values read in this sample cycle, whether a cycle
has started, consecutive missing samples, command and cause of the last failure, the last voltage, energy in µJ (R407, R408). -/
structure PwrDev where
  mode : Nat
  volts : Option Nat
  amps : Option Nat
  cycled : Bool
  missing : Nat
  lastCmd : Nat
  cause : Nat
  mv : Option Nat
  uj : Nat
  deriving DecidableEq, Repr

/-- What the supervisor keeps of a slot beside PWR_SLOTn_STAT: its module has been present for INS_MS, it is ready to start, it
is shed, the EDGE cycle since which EN_OUT has been low, the one in which its retry timer ends, and the one of its last start
(R413 to R417). -/
structure PwrSlot where
  settled : Bool
  ready : Bool
  shed : Bool
  lowSince : Option Nat
  retryEnd : Option Nat
  startAt : Option Nat
  deriving DecidableEq, Repr

/-- The power-path supervisor. -/
structure PwrUnit where
  ports : List PmbPort
  devs : Table PwrDev
  slots : Table PwrSlot
  deriving DecidableEq, Repr
/-! ### Crossbar (R12 to R21) -/

/-- The crossbar: beats occupied at each destination region (LINK, HOST, CORE, EDGE) by class, whether the last of DATA and BULK
granted there was BULK, the region last granted there (R16, R17); each region's slot in turn with the grants it has taken in this
round (R14); and each block's next cell (region × 16 + slot, R13). -/
structure XbarUnit where
  used : List (List Nat)
  lastBulk : List Bool
  lastRegion : List Nat
  turn : List (Nat × Nat)
  nextCell : Table Nat
  deriving DecidableEq, Repr

/-! ### Service monitor and test access (R444 to R457) -/

/-- A monitor command with its arguments (R450). -/
inductive MonCmd where
  | help
  | peek (off n : Nat)
  | poke (off val : Nat)
  | lens (inbound : Bool) (n : Nat)
  | fold (n : Nat)
  | drover (d : Option Nat)
  | ring
  | cad
  | fault
  | faultClr (e : Nat)
  | log (n : Nat)
  | stat
  | twin
  | pwr
  | atbSet (b node : Nat)
  | atbRead (b : Nat)
  | lock
  | ver
  deriving DecidableEq, Repr

/-- The service monitor: the line so far, whether it has grown too long, the characters held while a command runs, and the
command that runs (R446, R450). -/
structure SvcUnit where
  line : List Byte
  long : Bool
  held : List Byte
  cmd : Option MonCmd
  deriving DecidableEq, Repr

/-- The test access port: the instruction in effect and the boundary register (R454). -/
structure TapUnit where
  ir : Nat
  boundary : List Bool
  deriving DecidableEq, Repr
/-! ### What the device drives outward -/

/-- A word of a monitor reply line (R447): text, a number in hexadecimal with a number of digits, a number in decimal, or the name
of an analogue test bus node. -/
inductive SvcTok where
  | text (t : String)
  | hex (digits n : Nat)
  | dec (n : Nat)
  | node (n : Nat)
  deriving DecidableEq, Repr

/-- One thing the device put on an interface (log entry 4). -/
inductive Out where
  | frame (link : Nat) (f : Frame) (on : List LaneBlock)
  | marker (lane w0 w1 w2 w3 : Nat)
  | codewordError (lane symbols : Nat)
  | serial (port : Nat) (b : List Byte)
  | de (port : Nat) (level : Bool)
  | can (ctl word : Nat) (data : List Byte)
  | chain (n bits : Nat) (q : Bool)
  | chainHigh (n : Nat)
  | tlpRead (id addr len : Nat) (noSnoop : Bool)
  | tlpWrite (addr : Nat) (data : List Byte) (noSnoop : Bool)
  | tlpAtomic (id addr op : Nat) (data : List Byte) (noSnoop : Bool)
  | tlpData (tag : Nat) (data : List Byte)
  | tlpStatus (tag : Nat) (unsupported : Bool)
  | msix (addr data : Nat)
  | crs
  | vme2eAddress (am xam addr beats : Nat) (rate : Option Nat)
  | vmeCycle (am xam addr : Nat) (write : Bool) (pins : CyclePins) (data : List Byte)
  | vmeIack (level width : Nat)
  | vmeGrantOut (level : Nat)
  | vmeBerrTimer
  | vmeDtack (data : List Byte)
  | vmeBerr
  | vmeRetry (berr : Bool)
  | vmeIackOut
  | sysReset (low : Bool)
  | pmbWrite (dev cmd word : Nat)
  | pmbRead (dev cmd : Nat)
  | svcEcho (b : Byte)
  | svcLine (words : List SvcTok)
  | svcPrompt
  | tdo (bits : List Bool)
  | scanPins (bits : List Bool)
  | pinsFloat
  deriving DecidableEq, Repr

/-- The whole machine. -/
structure State where
  regs : Regs
  flt : FaultUnit
  boot : BootUnit
  commits : List CommitWait
  vme : VmeBus
  vin : VmeIn
  drv : DrvUnit
  ord : OrdUnit
  fold : FoldUnit
  net : NetUnit
  cad : CadUnit
  stat : StatUnit
  twin : TwinUnit
  port : PortUnit
  ddr : DdrUnit
  host : HostUnit
  recd : RecUnit
  pwr : PwrUnit
  xbar : XbarUnit
  svc : SvcUnit
  tap : TapUnit
  /-- CORE cycles since reset (R375) and EDGE cycles of 10 ns -/
  cyc : Nat
  ticks : Nat
  /-- the model's own: what the device drove outward, newest first (log entry 4) -/
  out : List Out
  /-- the model's own: how many free values have been taken (log entry 6) -/
  freeCtr : Nat
  /-- the model's own: commands waiting, first in, first out -/
  pending : List Instr
  deriving DecidableEq, Repr

/-- The machine right after POWER_ON is released, with every strap low (log entries 1 and 2): bring-up is in stage RESET, no PLL has
locked, the links are down, memories list nothing, and every register reads its reset value. -/
def State.reset : State :=
  let lane : Lane := ⟨false, none, false, 0, none, false⟩
  let link : Link := ⟨false, false, false, false, 0, [], none, 0, [], true, [false, false, false], [0, 0, 0, 0], [0, 0, 0, 0],
    [0, 0, 0, 0], 0, false, false, false, [0, 0, 0, 0], false, 0, none, 0, 0, 0, 0⟩
  let wrap : WrapRec := ⟨[], false, 0, 0, false⟩
  let delay : DelayRec := ⟨0, none, []⟩
  let level : IhLevel := ⟨false, false, true, false⟩
  { regs := { eff := [], shadow := [], latch := [], heldWrites := [], refused := [] }
    flt := { raised := [], active := [], nextOrder := 0, history := [], errPulse := false, safe := false, fencedLink := false
             fencedHost := false, fencedEdge := false, inject := none, badWords := [] }
    boot := { held := [], pll := false, straps := ⟨0, false, false, false, false, false, false⟩, otpSerial := 0, otpKey := []
              otpKeySet := false, imageNode := 0x7FF, stageTo := 100, golden := [], goldenCrc := 0, pmbusWrites := [], openEntries := []
              heldLive := [], resetDue := false, wdogAt := 0, releasedAt := 0 }
    commits := []
    vme := { bbsy := false, since := 0, owner := none, lastOwner := none, strobed := false, endAt := none, waiting := [], askedAt := [], br := false, fairWait := false, gap := []
             bclrIn := false, jobs := [], iackLevel := none, pwq := [], pwqWait := [], brOther := [false, false, false, false]
             bbsyOther := false, lastGrant := 0, grantOut := none, bclrOut := false, sysrstPulse := false
             sysrstHeld := false }
    vin := { cyc := none, slots := List.replicate 8 none, ipwq := [], nextPost := 0, levels := List.replicate 8 level, masterOffRaised := false
             vectors := [], vectorWait := [], irqOut := false, irqGap := false }
    drv := { drv := [], stiles := [], waiting := [], results := [], nextAge := 0, nextBorn := 0, rr := List.replicate 5 0
             emptyRaised := List.replicate 5 false, sources := [], ringOpen := [], wakeCyc := 0, woken := 0, wakeWait := [] }
    ord := { agents := [], confirms := [], claims := [], wc := [], wcDone := [], lc := [], pfSince := none, pfWithdrawn := false }
    fold := { folds := [], free := 110592, oldNow := 0, oldNext := 0, sweepBusy := false, sweepFolds := [], inject := []
              heldPushes := [], posts := [] }
    net := { lanes := List.replicate 5 lane, links := List.replicate 3 link, rx := [[], []], dropWait := [[], []]
             taken := [[], [], [], []], tags := [], freeTags := [], nextTag := 0, tagWait := [], dupFilter := [], dupSeen := [], nodes := []
             joinOut := false, wraps := [wrap, wrap], wrapAt := [], round := 0, electOut := false, electWait := false, noBwRaised := false, epoch := 0, epochFrac := 0
             epochRate := 0, steps := 0, stepsSeen := none, eseq := 0, setReq := false, everSynced := false
             ringHops := [none, none], delays := [delay, delay] }
    cad := { pos := 0, acc := 0, num := 0, den := 1, p := 0, lastBoundary := 0, startFrame := 0, crossed := 0, flags := 0
             zcLast := none, zcPeriods := [], refs := 0, encA := false, encB := false, encLast := 0, encBad := 0
             hold := [], holdWait := [], holdSpell := false, high := 0, stepH := none, due := false, sch := [] }
    stat := { cnt := [], copying := [] }
    twin := { bseq := 0, beacons := [], tRenew := 0, tHeard := 0, peerSum := 0, mismatch := none, peerGen := 0
              heardActive := none, enteredStandby := 0, heardLane := none, heardRing := none, sawTake := false, handover := false
              stuckRaised := false, peerLostRaised := false, fencing := false, fenceAt := 0, holdOut := false, holdIn := false, yieldEpoch := none
              mq := [], mwait := [], rseq := 0, crc := 0, marks := [], markWait := [], fullReq := false, fullOpen := false, fullLeft := 0
              asked := false, banks := [], committing := none }
    port := { sp := [], cf := [], dc := [] }
    ddr := { bytes := [], bad := [], inject := none, scrubAt := 0 }
    host := { evPi := 0, stPi := 0, evCi := 0, stCi := 0, cqCi := [], evLost := 0, stLost := 0, lastRing := 255, polling := false
              polled := [], pollBad := false, fetches := [], queue := [], writers := [], fullSpell := [], msix := [], pba := []
              coal := [], atomicEn := false, mrrs := 512, mps := 128, d3 := false, msixEn := false, funcMask := false, bars := [0x4, 0, 0xC, 0, 0x4, 0], credits := 0
              nextReq := 0, reqs := [], tlps := [], nextTlp := 0 }
    recd := { mram := [], seconds := 0, pcyc := 0, next := 0, clears := 0, nonce := 0, queue := [], now := none, ops := []
              again := false, ctlDue := false, lost := 0, inject := none, failNext := 0, fails := 0, clearing := none, clearStep := .zeroing, clearDropped := false
              discards := [] }
    pwr := { ports := [⟨[], false⟩, ⟨[], false⟩], devs := [], slots := [] }
    xbar := { used := List.replicate 4 [0, 0, 0], lastBulk := List.replicate 4 true, lastRegion := List.replicate 4 3
              turn := List.replicate 4 (0, 0), nextCell := [] }
    svc := { line := [], long := false, held := [], cmd := none }
    tap := { ir := 0x01, boundary := [] }
    cyc := 0, ticks := 0, out := [], freeCtr := 0, pending := [] }

end Sys2Proof.Machine
end

