-- ==== Sys2Proof/Machine/Table.lean ====
section
/-! DEFINITION. Reading and writing a sparse table (registers, memories, per-unit tables).

`dflt` says what an unlisted key reads as; it may depend on the key (a register's reset value).
A write keeps the canonical form: writing the default removes the entry. -/

namespace Sys2Proof.Machine

variable {α : Type}

/-- What key `k` reads as. -/
def tget (dflt : Nat → α) : Table α → Nat → α
  | [], k => dflt k
  | (j, v) :: t, k => if j = k then v else tget dflt t k

/-- The table without an entry for `k` (keys need not be sorted). -/
def terase : Table α → Nat → Table α
  | [], _ => []
  | (j, v) :: t, k => if j = k then terase t k else (j, v) :: terase t k

/-- The table with an entry `v` at `k`, at its place in rising order. -/
def tinsert : Table α → Nat → α → Table α
  | [], k, v => [(k, v)]
  | (j, w) :: t, k, v =>
    if k < j then (k, v) :: (j, w) :: t
    else if j = k then (k, v) :: t
    else (j, w) :: tinsert t k v

/-- Write `v` at `k`. Writing what an unlisted key reads as removes the entry. -/
def tput [DecidableEq α] (dflt : Nat → α) (t : Table α) (k : Nat) (v : α) : Table α :=
  if v = dflt k then terase t k else tinsert t k v

/-- Keys strictly rising, all above `lo` (when `lo` is given), and no entry equal to its default. -/
def twfFrom [DecidableEq α] (dflt : Nat → α) : Option Nat → Table α → Bool
  | _, [] => true
  | lo, (k, v) :: t =>
    (match lo with | none => true | some b => decide (b < k)) && decide (v ≠ dflt k) &&
      twfFrom dflt (some k) t

/-- The canonical form of a table. -/
def twf [DecidableEq α] (dflt : Nat → α) (t : Table α) : Bool := twfFrom dflt none t

/-- Reading `n` consecutive keys from `a`. -/
def tread (dflt : Nat → α) (t : Table α) (a : Nat) : Nat → List α
  | 0 => []
  | n + 1 => tget dflt t a :: tread dflt t (a + 1) n

/-- Writing consecutive keys from `a`. -/
def twrites [DecidableEq α] (dflt : Nat → α) (t : Table α) (a : Nat) : List α → Table α
  | [] => t
  | v :: vs => twrites dflt (tput dflt t a v) (a + 1) vs

/-- An unlisted byte of a memory reads as zero (DESIGN CHOICE, log entry 3). -/
def zeroByte (_ : Nat) : Byte := 0

/-- The canonical form of a memory of bytes: addresses strictly rising, and no byte listed that an unlisted address reads as. -/
def Memory.wf (m : Table Byte) : Bool := twf zeroByte m

end Sys2Proof.Machine
end

