-- ==== Sys2Proof/Machine/Ops.lean ====
section
/-! DEFINITION. The named operations every unit uses: registers, counters, raising a fault, time, resets that hold a part. -/

namespace Sys2Proof.Machine

/-! ### Registers -/

/-- A register of the effective bank. -/
def State.reg (s : State) (k : Nat) : Word := tget resetWord s.regs.eff k

/-- Write a register of the effective bank whole. -/
def State.setReg (s : State) (k : Nat) (v : Word) : State :=
  { s with regs := { s.regs with eff := tput resetWord s.regs.eff k v } }

/-- A field of the effective bank. -/
def State.rd (s : State) (f : Fld) : Nat := bitsOf (s.reg f.key) f.hi f.lo

/-- A field is not zero. -/
def State.bit (s : State) (f : Fld) : Bool := decide (s.rd f ≠ 0)

/-- Write one field of the effective bank. -/
def State.wr (s : State) (f : Fld) (v : Nat) : State := s.setReg f.key (setBits (s.reg f.key) f.hi f.lo v)

/-- Set or clear a one-bit field. -/
def State.wrB (s : State) (f : Fld) (b : Bool) : State := s.wr f (b2n b)

/-- Bits of a register that are STAGED fields (R8, R438). -/
def stagedMask (k : Nat) : Word :=
  match regAt (keyOff k) with
  | some r => r.fields.foldl (fun m f => if f.cls = .staged then setBits m f.hi f.lo (2 ^ (f.hi - f.lo + 1) - 1) else m) 0
  | none => 0

/-- What an unlisted register of the shadow bank reads as. -/
def shadowReset (k : Nat) : Word := resetWord k &&& stagedMask k

/-- A register's STAGED bits in the other bank. -/
def State.shd (s : State) (k : Nat) : Word := tget shadowReset s.regs.shadow k

/-- A field of the other bank. -/
def State.shdF (s : State) (f : Fld) : Nat := bitsOf (s.shd f.key) f.hi f.lo

/-- Write the other bank. -/
def State.setShd (s : State) (k : Nat) (v : Word) : State :=
  { s with regs := { s.regs with shadow := tput shadowReset s.regs.shadow k (v &&& stagedMask k) } }

/-- Raise PEAK-like field `f` to `v` when it is higher. -/
def State.peak (s : State) (f : Fld) (v : Nat) : State := if s.rd f < v then s.wr f v else s

/-! ### Counters and period statistics -/

/-- Record offset of the period counter that counts what the register counts (R333); 0xC50 for none. -/
def statOffset (k : Nat) : Nat :=
  if k < 0x340 then 0xC50
  else if k ≤ 0x36C then 0x1A0 + (k - 0x340)
  else if 0x1100 ≤ k ∧ k < 0x1280 then
    let l := (k - 0x1100) / 0x80
    let o := (k - 0x1100) % 0x80
    let j := if o = 0x04 then 0 else if o = 0x08 then 1 else if o = 0x14 then 2 else if o = 0x20 then 3
             else if o = 0x24 then 4 else if o = 0x28 then 5 else 6
    if j < 6 then 0x40 + 0x18 * l + 4 * j else 0xC50
  else if 0x1300 ≤ k ∧ k < 0x1440 then
    let o := (k - 0x1300) % 0x40
    if 4 ≤ o ∧ o ≤ 0x10 then 0x88 + 0x10 * ((k - 0x1300) / 0x40) + (o - 4) else 0xC50
  else if 0x1850 ≤ k ∧ k ≤ 0x1880 then 0xE0 + (k - 0x1850)
  else if 0x2100 ≤ k ∧ k ≤ 0x2120 then 0x120 + (k - 0x2100)
  else if 0x3030 ≤ k ∧ k ≤ 0x303C then 0x280 + (k - 0x3030)
  else if 0x3040 ≤ k ∧ k ≤ 0x307C then 0x290 + (k - 0x3040)
  else if 0x3100 ≤ k ∧ k < 0x3500 then
    if k % 16 = 0 then 0xC50 else 0x2D0 + 0x10 * ((k - 0x3100) / 0x10) + (k % 16 - 4)
  else if 0x3860 ≤ k ∧ k ≤ 0x3874 then 0x1D0 + (k - 0x3860)
  else if 0x5820 ≤ k ∧ k ≤ 0x583C then 0x150 + (k - 0x5820)
  else if 0x5880 ≤ k ∧ k ≤ 0x58A4 then 0x170 + (k - 0x5880)
  else 0xC50

/-- Zero, as every statistics counter starts a period. -/
def zeroWord (_ : Nat) : Word := 0

/-- A statistics counter of the open period, by record offset. -/
def State.statGet (s : State) (off : Nat) : Nat := (tget zeroWord s.stat.cnt (off / 4)).toNat

/-- Set a statistics counter. -/
def State.statSet (s : State) (off v : Nat) : State :=
  { s with stat := { s.stat with cnt := tput zeroWord s.stat.cnt (off / 4) (BitVec.ofNat 32 v) } }

/-- Add to a statistics counter, saturating (R331). -/
def State.statAdd (s : State) (off n : Nat) : State := s.statSet off (satAdd 32 (s.statGet off) n)

/-- Add `n` to a 32-bit counter register, saturating (R11), and to the period counter of the same events. -/
def State.bumpN (s : State) (k n : Nat) : State :=
  let t := s.setReg k (BitVec.ofNat 32 (satAdd 32 (s.reg k).toNat n))
  let o := statOffset k
  if o < 0xC50 then t.statAdd o n else t

/-- Add one to a counter. -/
def State.bump (s : State) (k : Nat) : State := s.bumpN k 1

/-- Add to a counter field narrower than a register, saturating (R11). -/
def State.bumpF (s : State) (f : Fld) (n : Nat) : State := s.wr f (satAdd (f.hi - f.lo + 1) (s.rd f) n)

/-! ### Outward -/

/-- Record what the device drives. -/
def State.emit (s : State) (o : Out) : State := { s with out := o :: s.out }

/-- The next free value and the state in which it has been taken (log entry 6). -/
def State.free (w : Nat) (s : State) : BitVec w × State :=
  (Config.freeValue w s.freeCtr, { s with freeCtr := s.freeCtr + 1 })

/-- `n` free bytes. -/
def State.freeBytes : Nat → State → List Byte × State
  | 0, s => ([], s)
  | n + 1, s =>
    let b := s.free 8
    let r := State.freeBytes n b.2
    (b.1 :: r.1, r.2)

/-- The state an operation leaves, its answer dropped. -/
def State.after {α : Type} (r : α × State) : State := r.2

/-! ### Time -/

/-- The node's position in frames and phase (R317). -/
def State.frame (s : State) : Nat := s.cad.pos / 2 ^ 32
def State.phase (s : State) : Nat := s.cad.pos % 2 ^ 32

/-- µs since power-on. -/
def State.us (s : State) : Nat := s.ticks / 100

/-! ### Identity and mode -/

def State.nodeId (s : State) : Nat := s.rd F.NET_ID_ID
def State.joined (s : State) : Bool := decide (s.rd F.NET_ID_STATE = 2)
def State.isHead (s : State) : Bool := s.bit F.CHIP_STRAP_HEAD
def State.stage (s : State) : Nat := s.rd F.CHIP_BOOT_STAT_STAGE

/-- Halt group `g` is halted or halting: it takes no new work (R436). -/
def State.halting (s : State) (g : Nat) : Bool := (s.rd F.CHIP_HALT_HALT).testBit g

/-- Parts a reset source holds while it is asserted (R424). -/
def heldBy (code : Nat) (p : Part) : Bool :=
  if code = 3 then p == .endpoint
  else if code = 1 then true
  else p != .recorder

/-- The part works: no asserted source holds it, and in BOOT_FAIL only the MGMT part and the endpoint do (R424, R433). -/
def State.up (s : State) (p : Part) : Bool :=
  s.boot.held.all (fun c => !heldBy c p) &&
    (s.stage != 7 || p == .mgmt || p == .endpoint || p == .recorder)

/-- Do `f` where the part works; otherwise nothing happens. -/
def whenUp (p : Part) (f : State → State) (s : State) : State := if s.up p then f s else s

/-- Bring-up stages 2 to 4 end when their conditions hold (R433). -/
def State.stageStep (s : State) : State :=
  let s := if s.stage = 2 ∧ (s.joined = true ∨ s.bit F.NET_CTL_JOIN_EN = false) then s.wr F.CHIP_BOOT_STAT_STAGE 3 else s
  let s := if s.stage = 3 ∧ (s.rd F.NET_STAT_BWID ≠ 0x7FF ∨ s.bit F.NET_CTL_JOIN_EN = false) then
      s.wr F.CHIP_BOOT_STAT_STAGE 4 else s
  if s.stage = 4 ∧ s.rd F.CAD_STAT_STATE = 1 then s.wr F.CHIP_BOOT_STAT_STAGE 5 else s

/-! ### Raising a fault (R361, R374) -/

/-- What a capture unit records beside the code (R374). -/
structure CapInfo where
  unit : Nat
  addr : Nat
  node : Nat
  agent : Nat
  op : Nat
  lenm1 : Nat
  cls : Nat
  am : Nat
  deriving DecidableEq, Repr

/-- The first fault of a capture unit is held, later ones count (R374). -/
def State.capture (s : State) (code : Nat) (c : CapInfo) : State :=
  if s.bit (F.FLT_CAP_STAT_VALID c.unit) then s.bumpF (F.FLT_CAP_STAT_OVF c.unit) 1
  else
    let s := (s.wr (F.FLT_CAP_STAT_VALID c.unit) 1).wr (F.FLT_CAP_STAT_CODE c.unit) code
    let s := s.setReg (K.FLT_CAP_ADDR_LO c.unit) (BitVec.ofNat 32 c.addr)
    let s := s.setReg (K.FLT_CAP_ADDR_HI c.unit) (BitVec.ofNat 32 (c.addr / 2 ^ 32))
    let s := (s.wr (F.FLT_CAP_MASTER_NODE c.unit) c.node).wr (F.FLT_CAP_MASTER_AGENT c.unit) c.agent
    let s := (s.wr (F.FLT_CAP_ACCESS_OP c.unit) c.op).wr (F.FLT_CAP_ACCESS_LENM1 c.unit) c.lenm1
    let s := (s.wr (F.FLT_CAP_ACCESS_CLASS c.unit) c.cls).wr (F.FLT_CAP_ACCESS_AM c.unit) c.am
    let s := s.setReg (K.FLT_CAP_CYC c.unit) (BitVec.ofNat 32 s.cyc)
    let s := (s.wr (F.FLT_CAP_FRM_FRAMELO c.unit) s.frame).wr (F.FLT_CAP_FRM_CYC_HI c.unit) (s.cyc / 2 ^ 32)
    s.setReg (K.FLT_CAP_PHASE c.unit) (BitVec.ofNat 32 s.phase)

/-- The parameters of a fault: four words, the rest zero; the source when the rule names none (R361). -/
def fourParams (src : Nat) (ps : List Nat) : List Word :=
  let qs := if ps = [] then [src] else ps
  (List.range 4).map (fun i => BitVec.ofNat 32 (getAt 0 qs i))

/-- A unit raises a fault: it waits for the collector's ordering (R361, R372). -/
def State.raise (s : State) (code src : Nat) (ps : List Nat) : State :=
  { s with flt := { s.flt with raised := s.flt.raised ++
      [⟨code, src, fourParams src ps, s.cyc % 2 ^ 48, s.frame, BitVec.ofNat 32 s.phase⟩] } }

/-- A fault that a capture unit records too. -/
def State.raiseCap (s : State) (code src : Nat) (ps : List Nat) (c : CapInfo) : State :=
  (s.capture code c).raise code src ps

/-- A valid active entry of the source has effective severity DEGRADE (R363, R413). -/
def State.degradedSrc (s : State) (src : Nat) : Bool :=
  s.flt.active.any (fun e => match e.2 with | some a => a.src == src && decide (a.sev = 3) | none => false)

/-- A memory of one of the areas `areas` takes an armed injection of R379 at its write: area, index and whether it is double. The
injection is taken only where `named` says that the write is to the named location. -/
def State.injTake (s : State) (areas : List Nat) (named : Nat → Bool) : Option (Nat × Nat × Bool) × State :=
  match s.flt.inject with
  | some (a, i, dbl) =>
    if areas.contains a && named i then
      (some (a, i, dbl), { s.wr F.FLT_INJ_PENDING 0 with flt := { (s.wr F.FLT_INJ_PENDING 0).flt with inject := none } })
    else (none, s)
  | none => (none, s)

/-- A word with injected check bits is read (R379). -/
def State.sramFault (s : State) (area index : Nat) (dbl : Bool) : State :=
  s.raise (if dbl then Code.CHIP_SRAM_UE else Code.CHIP_SRAM_CE) (Src.sram area) [area, index]

/-- The low and high halves of a 64-bit parameter. -/
def lohi (n : Nat) : List Nat := [n % 2 ^ 32, n / 2 ^ 32]

/-! ### Updating one element -/

/-- Change element `i` of a list. -/
def modAt {α : Type} (d : α) (l : List α) (i : Nat) (f : α → α) : List α := setAt l i (f (getAt d l i))

end Sys2Proof.Machine
end

