-- ==== Sys2Proof/Machine/Lens.lean ====
section
/-! DEFINITION. Outbound and inbound lenses as a bank holds them, and cutting a request into pieces (R41 to R55). -/

namespace Sys2Proof.Machine

/-- A register of the bank that a task names (R54, R438): the effective bank, or the other one while it retires. -/
def State.bankReg (s : State) (bank : Bool) (k : Nat) : Word :=
  if bank = s.bit F.CHIP_COMMIT_STAT_BANK then s.reg k else s.shd k

/-- A field of a bank. -/
def State.brd (s : State) (bank : Bool) (f : Fld) : Nat := bitsOf (s.bankReg bank f.key) f.hi f.lo
def State.bbit (s : State) (bank : Bool) (f : Fld) : Bool := decide (s.brd bank f ≠ 0)

/-- Outbound lens `n` of a bank (R41, R49). -/
def State.outLens (s : State) (b : Bool) (n : Nat) : OutLens :=
  { en := s.bbit b (F.LNSO_CTL_EN n), phgate := s.bbit b (F.LNSO_CTL_PHGATE n), size := s.brd b (F.LNSO_CTL_SIZE n)
    space := s.brd b (F.LNSO_CTL_SPACE n), fbase := s.brd b (F.LNSO_FBASE_FBASE n) * 4096
    vbase := s.brd b (F.LNSO_VBASE_HI_VBASE_HI n) * 2 ^ 32 + s.brd b (F.LNSO_VBASE_LO_VBASE_LO n) * 4096
    cache := s.bbit b (F.LNSO_ATTR_CACHE n), prefetch := s.bbit b (F.LNSO_ATTR_PREFETCH n)
    posted := s.bbit b (F.LNSO_ATTR_POSTED n), burst := s.brd b (F.LNSO_ATTR_BURST n)
    sstRate := s.brd b (F.LNSO_ATTR_SST_RATE n), elem := s.brd b (F.LNSO_ATTR_ELEM n)
    prism := s.brd b (F.LNSO_ATTR_PRISM n), width := s.brd b (F.LNSO_ATTR_WIDTH n), am := s.brd b (F.LNSO_ATTR_AM n)
    ttl := s.brd b (F.LNSO_TTL_TTL_US n), gap := s.brd b (F.LNSO_RETRY_GAP_US n), retryMax := s.brd b (F.LNSO_RETRY_MAX n)
    phopen := s.brd b (F.LNSO_PHOPEN_PHOPEN n), phclose := s.brd b (F.LNSO_PHCLOSE_PHCLOSE n) }

/-- Inbound lens `n` of a bank (R50). -/
def State.inLens (s : State) (b : Bool) (n : Nat) : InLens :=
  { en := s.bbit b (F.LNSI_CTL_EN n), size := s.brd b (F.LNSI_CTL_SIZE n), space := s.brd b (F.LNSI_CTL_SPACE n)
    vbase := s.brd b (F.LNSI_VBASE_HI_VBASE_HI n) * 2 ^ 32 + s.brd b (F.LNSI_VBASE_LO_VBASE_LO n) * 4096
    faddr := s.brd b (F.LNSI_FADDR_HI_NODE n) * 2 ^ 48 + s.brd b (F.LNSI_FADDR_HI_OFFSET_HI n) * 2 ^ 32 +
      s.brd b (F.LNSI_FADDR_LO_FADDR_LO n) * 4096
    amsel := (s.bankReg b (K.LNSI_AMSEL n)).toNat % 8192, posted := s.bbit b (F.LNSI_ATTR_POSTED n)
    retryEn := s.bbit b (F.LNSI_ATTR_RETRY_EN n), holdUs := s.brd b (F.LNSI_ATTR_HOLD_US n)
    elem := s.brd b (F.LNSI_ATTR_ELEM n), prism := s.brd b (F.LNSI_ATTR_PRISM n) }

/-- Last offset of a lens plus one. -/
def OutLens.stop (l : OutLens) : Nat := l.fbase + 2 ^ l.size
/-- An offset lies in an enabled lens. -/
def OutLens.covers (l : OutLens) (off : Nat) : Bool := l.en && decide (l.fbase ≤ off) && decide (off < l.stop)

/-- The enabled lens that holds an offset; one out of service at DEGRADE counts as not enabled (R363). -/
def State.lensAt (s : State) (b : Bool) (off : Nat) : Option Nat :=
  (List.range 64).find? (fun n => (s.outLens b n).covers off && !s.degradedSrc (Src.lnso n))

/-- Pieces of [off, off + len) at position `at_` of the request, one per lens (R45); none when a byte lies in no lens. -/
def State.cutPieces (s : State) (b : Bool) : Nat → Nat → Nat → Nat → Option (List Piece)
  | 0, _, _, _ => none
  | fuel + 1, off, at_, len =>
    if len = 0 then some []
    else match s.lensAt b off with
      | none => none
      | some n =>
        let l := s.outLens b n
        let k := min len (l.stop - off)
        match s.cutPieces b fuel (off + k) (at_ + k) (len - k) with
        | none => none
        | some ps => some (⟨n, l, at_, k⟩ :: ps)

/-- The pieces of a request of at most 256 bytes: lenses are at least 4 KiB, so two at most. -/
def State.pieces (s : State) (b : Bool) (off len : Nat) : Option (List Piece) := s.cutPieces b 4 off 0 len

/-- A phase window is open at φ (R47). -/
def windowOpen (op cl phi : Nat) : Bool :=
  if op < cl then decide (op ≤ phi) && decide (phi < cl) else decide (op ≤ phi) || decide (phi < cl)

/-- The first phase gate of a request's lenses that is shut now: its window (R47). -/
def State.shutGate (s : State) (ps : List Piece) : Option (Nat × Nat) :=
  (ps.map (·.lens)).findSome? (fun l =>
    if l.phgate && !windowOpen l.phopen l.phclose s.phase then some (l.phopen, l.phclose) else none)

/-- A lens table entry whose parity is bad (R379): area 5, the lens number (inbound lenses from 64), in the bank named. -/
def State.lensBad (s : State) (bank : Bool) (n : Nat) : Bool := s.flt.badWords.any (fun w => w == (5, n, bank))

end Sys2Proof.Machine
end

