-- ==== Sys2Proof/Machine/LinkOps.lean ====
section
/-! DEFINITION. Sending on a ring link: frames, the retry window, credits and replays (R236, R241 to R244, R257, R258). -/

namespace Sys2Proof.Machine

/-- A lane with nothing trained. -/
def Lane.idle : Lane := ⟨false, none, false, 0, none, false⟩

/-- A link with nothing sent or received. -/
def Link.idle : Link :=
  ⟨false, false, false, false, 0, [], none, 0, [], true, [false, false, false], [0, 0, 0, 0], [0, 0, 0, 0], [0, 0, 0, 0],
    0, false, false, false, [0, 0, 0, 0], false, 0, none, 0, 0, 0, 0⟩

def State.link (s : State) (k : Nat) : Link := getAt Link.idle s.net.links k
def State.lane (s : State) (l : Nat) : Lane := getAt Lane.idle s.net.lanes l

/-- Change one link. -/
def State.setLink (s : State) (k : Nat) (x : Link) : State := { s with net := { s.net with links := setAt s.net.links k x } }
/-- Change one lane. -/
def State.setLane (s : State) (l : Nat) (x : Lane) : State := { s with net := { s.net with lanes := setAt s.net.lanes l x } }

/-- The link is UP (R250). -/
def State.linkUp (s : State) (k : Nat) : Bool := decide (s.rd (F.LNK_LINK_STAT_STATE k) = 2)

/-- The link of a lane (R229). -/
def linkOfLane (l : Nat) : Nat := if l < 2 then 0 else if l < 4 then 1 else 2
/-- The lane's number in its link. -/
def laneBit (l : Nat) : Nat := if l < 4 then l % 2 else 0
/-- The lanes of a link. -/
def lanesOf (k : Nat) : List Nat := if k = 0 then [0, 1] else if k = 1 then [2, 3] else [4]

/-- The CRED field (R258). -/
def credWord (l : Link) : Nat :=
  getAt 0 l.rxFreed 0 * 2 ^ 24 + getAt 0 l.rxFreed 1 * 2 ^ 16 + getAt 0 l.rxFreed 2 * 2 ^ 8 + getAt 0 l.rxFreed 3

/-- The lanes of the transmit bond, by number. Before the other end has named any, every lane is used (DESIGN CHOICE, log entry 61). -/
def State.txLanes (s : State) (k : Nat) : List Nat :=
  let b := s.rd (F.LNK_LINK_STAT_TXL k)
  let ls := [0, 1].filter (fun l => b.testBit l)
  if k = 2 then [0] else if ls.isEmpty then [0, 1] else ls

/-- The transmit bond as markers show it (R232). -/
def State.txBond (s : State) (k : Nat) : Nat := (s.txLanes k).foldl (fun n l => n + 2 ^ l) 0

/-- The blocks of a frame, behind an idle block, as the transmit bond's lanes carry them (R233). -/
def State.dealt (s : State) (k : Nat) (f : Frame) : List LaneBlock :=
  dealBlocks (s.txLanes k) (s.link k).txMarker (s.link k).txBlocks (.idle :: f.blocks)

/-- A frame leaves on the lanes of the transmit bond (R233). -/
def State.emitFrame (s : State) (k : Nat) (f : Frame) : State :=
  let l := s.link k
  (s.setLink k { l with txBlocks := l.txBlocks + f.blocks.length + 1 }).emit (.frame k f (s.dealt k f))

/-- Send one frame of any kind: its header carries the acknowledgement and the credit return (R242, R258). -/
def State.sendFrame (s : State) (k kind seq ackseq : Nat) (body : List Byte) (bad : Bool) : State :=
  let l := s.link k
  let f := mkFrame kind seq ackseq true (credWord l) body
  let f := if bad then { f with crc := f.crc ^^^ 1#32 } else f
  (s.setLink k { l with ackOwed := false }).emitFrame k f

/-- Epoch times are written as the start block leaves, in every transmission (R271). -/
def stampPacket (epoch : Nat) (p : Packet) : Packet :=
  if p.kind = Kind.EPOCH then
    if p.mtype = 1 then { p with payload := leBytes 8 epoch ++ p.payload.drop 8 }
    else if p.mtype = 3 then { p with payload := p.payload.take 8 ++ leBytes 8 epoch }
    else p
  else p

/-- An armed CRC injection on a lane of the transmit bond, taken (R250). -/
def State.takeInject (s : State) (k : Nat) : Bool × State :=
  match (lanesOf k).find? (fun l => (s.txLanes k).contains (laneBit l) &&
      match (s.lane l).inject with | some (false, _) => true | _ => false) with
  | some l => (true, s.setLane l { s.lane l with inject := none })
  | none => (false, s)

/-- Send a packet as a DATA frame under SEQ `seq`. -/
def State.sendSeq (s : State) (k seq : Nat) (p : Packet) : State :=
  let r := s.takeInject k
  r.2.sendFrame k 0 seq (r.2.link k).expect (stampPacket s.net.epoch p).bytes r.1

/-- Units of pool `q` the receiver can still take (R258). -/
def available (l : Link) (q : Nat) : Nat :=
  getAt 0 l.limits q - (getAt 0 l.sent q + 256 - getAt 0 l.freed q) % 256

/-- The window and the pool allow this packet now (R241, R258). -/
def canSend (l : Link) (p : Packet) : Bool := decide (l.unacked.length < 128) && decide (p.units ≤ available l p.pool)

/-- A new DATA frame: SEQ is taken, the retry buffer keeps it, its units are used (R241, R258). -/
def State.sendData (s : State) (k : Nat) (p : Packet) : State :=
  let l := s.link k
  let s := s.setLink k { l with
    nextSeq := (l.nextSeq + 1) % 256
    unacked := l.unacked ++ [(l.nextSeq, p)]
    sent := modAt 0 l.sent p.pool (fun n => (n + p.units) % 256)
    replay := none }
  let s := s.wr (F.LNK_LINK_STAT_OUT k) (l.unacked.length + 1)
  s.sendSeq k l.nextSeq p

/-- The first sendable frame of a class, alternating between pass-through and local (R257): the frame and the rest. -/
def pickClass (l : Link) (c : Nat) : Option (TxWait × List TxWait) :=
  let lp := getAt false l.lastPass c
  match takeFirst (fun w => w.pkt.sendCls == c && w.pass != lp && canSend l w.pkt) l.waiting with
  | some r => some r
  | none => takeFirst (fun w => w.pkt.sendCls == c && canSend l w.pkt) l.waiting

/-- The next frame to send (R257): CTRL first, then DATA and BULK in turn. -/
def pickWaiting (l : Link) : Option (TxWait × List TxWait) :=
  match pickClass l 0 with
  | some r => some r
  | none =>
    let a := if l.lastBulk then 1 else 2
    match pickClass l a with
    | some r => some r
    | none => pickClass l (3 - a)

/-- Units of a received frame are free again (R258). -/
def State.freeUnits (s : State) (k pool units : Nat) : State :=
  let l := s.link k
  s.setLink k { l with rxFreed := modAt 0 l.rxFreed pool (fun n => (n + units) % 256) }

/-- Send waiting frames while the window and credit allow; `fuel` bounds the number. A forwarded frame leaves its buffer. -/
def State.pump : Nat → Nat → State → State
  | 0, _, s => s
  | n + 1, k, s =>
    if s.linkUp k then
      match pickWaiting (s.link k) with
      | none => s
      | some (w, rest) =>
        let l := s.link k
        let s := s.setLink k { l with
          waiting := rest
          lastBulk := if w.pkt.cls = 0 then l.lastBulk else w.pkt.sendCls == 2
          lastPass := setAt l.lastPass w.pkt.sendCls w.pass }
        let s := match w.from_ with
          | some side => s.freeUnits side w.pkt.pool w.pkt.units
          | none => s
        (s.sendData k w.pkt).pump n k
    else s

/-- Send what can be sent on a link. -/
def State.pumpLink (s : State) (k : Nat) : State := s.pump (s.link k).waiting.length k

/-- Give a packet to a link: it is sent at once or waits without loss (R241, R257). -/
def State.enqueueFrom (s : State) (k : Nat) (p : Packet) (pass : Bool) (from_ : Option Nat) : State :=
  let l := s.link k
  (s.setLink k { l with waiting := l.waiting ++ [⟨p, pass, from_⟩] }).pumpLink k

/-- A packet that no receive buffer holds. -/
def State.enqueue (s : State) (k : Nat) (p : Packet) (pass : Bool) : State := s.enqueueFrom k p pass none

/-- Resend every buffered frame from `seq` on, in order (R243, R244). -/
def State.replayFrom (s : State) (k seq : Nat) : State :=
  let l := s.link k
  let n := match l.unacked.head? with | some (o, _) => (seq + 256 - o) % 256 | none => 0
  let fs := l.unacked.drop n
  let s := s.setLink k { l with replay := some seq }
  let s := s.bumpN (K.LNK_LINK_CNT_REPLAY k) fs.length
  let s := fs.foldl (fun s f => s.sendSeq k f.1 f.2) s
  s.pumpLink k

/-- The acknowledgement and the credit return of a received header (R242, R258). An advance restarts the replay timer (R245). -/
def State.takeAck (s : State) (k : Nat) (f : Frame) : State :=
  let l := s.link k
  let l := { l with freed := [nbits f.cred 31 24, nbits f.cred 23 16, nbits f.cred 15 8, nbits f.cred 7 0] }
  let n := match l.unacked.head? with | some (o, _) => (f.ackseq + 256 - o) % 256 | none => 0
  let l := if f.ackv ∧ 0 < n ∧ n ≤ l.unacked.length then
      { l with unacked := l.unacked.drop n, replay := none, replays := 0, advAt := some s.ticks } else l
  (s.setLink k l).wr (F.LNK_LINK_STAT_OUT k) l.unacked.length

/-- A received header is taken, and what it allows is sent. -/
def State.takeHeader (s : State) (k : Nat) (f : Frame) : State := (s.takeAck k f).pumpLink k

/-- The number of a receiving lane in its link. A receiver of crossed lanes exchanges them (R235), so that every lane of a direction has
the sender's number. -/
def State.laneNum (s : State) (l : Nat) : Nat :=
  if l < 4 ∧ s.bit (F.LNK_LINK_STAT_SWAP (linkOfLane l)) = true then 1 - laneBit l else laneBit l

/-- The lanes of the receive bond, as RXLANES and RXL show them. -/
def State.rxBond (s : State) (k : Nat) : Nat :=
  (lanesOf k).foldl (fun n l => if s.bit (F.LNK_LANE_STAT_INBOND l) then n + 2 ^ s.laneNum l else n) 0

/-- The frame that blocks received on the lanes of a link make: those of the receive bond, crossed lanes exchanged, deskewed and in order
(R233, R235). -/
def State.received (s : State) (k : Nat) (rx : List LaneBlock) : Option Frame :=
  let mine := rx.filterMap (fun b =>
    match (lanesOf k).find? (fun l => laneBit l == b.lane) with
    | some l => if s.bit (F.LNK_LANE_STAT_INBOND l) then some { b with lane := s.laneNum l } else none
    | none => none)
  frameOf (restoreBlocks mine)

/-- Send a LANE frame naming the lanes accepted (R236, R246). -/
def State.sendLane (s : State) (k : Nat) : State :=
  s.sendFrame k 4 0 (s.link k).expect (leBytes 8 (s.rxBond k * 2 ^ 44)) false

/-- The LANE exchange starts: the frame is repeated every 1 µs from now (R246). -/
def State.openLane (s : State) (k : Nat) : State :=
  (s.setLink k { s.link k with laneOpen := true, laneAt := s.ticks }).sendLane k

/-! ### What passes with time (R232, R246) -/

/-- Word 1 of a marker sent on lane `l` (R232). -/
def State.markerWord (s : State) (l : Nat) : Nat :=
  let k := linkOfLane l
  0xA5 * 2 ^ 56 + k * 2 ^ 54 + laneBit l * 2 ^ 53 + s.txBond k * 2 ^ 51 + s.nodeId * 2 ^ 40 + (s.link k).txMarker

/-- The lanes of an enabled link send their next markers in one LINK cycle (R232, R233). -/
def State.sendMarkers (s : State) (k : Nat) : State :=
  if bitOf (s.reg K.LNK_CTL) (31 - k) then
    let s := s.setLink k { s.link k with txMarker := ((s.link k).txMarker + 1) % 2 ^ 32, txBlocks := 0 }
    (lanesOf k).foldl (fun (s : State) l =>
      let w := s.markerWord l
      s.emit (.marker l 0x9416C35A0F69E1D2 w (2 ^ 64 - 1 - w) 0x6BE93CA5F0961E2D)) s
  else s

/-- One EDGE cycle of 10 ns passes at the links: markers leave every 1,024 codewords of 204.8 ns (R231, R232; DESIGN CHOICE, log entry
61: all lanes count them from cycle 0), and an open LANE exchange repeats its frame every 1 µs (R246). -/
def State.linkTick (s : State) : State :=
  let s := if s.ticks * 100 % 2097152 < 100 then [0, 1, 2].foldl State.sendMarkers s else s
  [0, 1].foldl (fun (s : State) k =>
    let l := s.link k
    if l.laneOpen && decide (l.laneAt < s.ticks) && decide ((s.ticks - l.laneAt) % 100 = 0) then s.sendLane k else s) s

end Sys2Proof.Machine
end

