-- ==== Sys2Proof/Machine/NetOps.lean ====
section
/-! DEFINITION. Injecting packets, tags, the node table, wraps (R255 to R268). -/

namespace Sys2Proof.Machine

/-- Completion statuses (R218). -/
def St.OK : Nat := 0x00
def St.LATE : Nat := 0x01
def St.ADDR_ERROR : Nat := 0x02
def St.ATOMIC_WIDTH : Nat := 0x03
def St.ATOMIC_UNSUPP : Nat := 0x04
def St.CLAIM_LOST : Nat := 0x05
def St.WRITE_LOST : Nat := 0x06
def St.DONE_FAILED : Nat := 0x07
def St.DONE_TIMEOUT : Nat := 0x08
def St.VME_BERR : Nat := 0x09
def St.VME_TIMEOUT : Nat := 0x0A
def St.VME_ARB_TIMEOUT : Nat := 0x0B
def St.VME_RETRY : Nat := 0x0C
def St.LENS_FAULT : Nat := 0x0D
def St.RETRY_UNSAFE : Nat := 0x0E
def St.IRQ_DISABLED : Nat := 0x0F
def St.IRQ_TIMEOUT : Nat := 0x10
def St.DESC_BAD : Nat := 0x11
def St.MEM_UE : Nat := 0x12
def St.HOST_ABORT : Nat := 0x13
def St.TAG_TIMEOUT : Nat := 0x14
def St.NO_NODE : Nat := 0x15
def St.PORT_OFF : Nat := 0x16
def St.AUTH_FAIL : Nat := 0x17
def St.CFG_REFUSED : Nat := 0x18
def St.TWIN_OFF : Nat := 0x19
def St.POST_FULL : Nat := 0x1A

/-- The originator's check of an address (R29, R30): the fault code when the request is refused. R29 and R30 both claim an address
with bits [63:59] set and NODE 0x7FF; the model answers ADR_FORMAT (DESIGN CHOICE, log entry 27). -/
def originFault (op addr len : Nat) : Option Nat :=
  if faHigh addr ≠ 0 then some Code.ADR_FORMAT
  else if faNode addr = bcastNode then
    (if (op = 0x02 ∨ op = 0x03) ∧ regionOf (faOffset addr) = .setup ∧ setupSizeOk (faOffset addr) len = true then none
     else some Code.ADR_BCAST)
  else none

/-- A request refused at the originator (R37, R493): its fault and capture. `host` says that it came through BAR0 or BAR2. -/
def State.originRefuse (s : State) (code op addr len agent cls : Nat) (host : Bool) : State :=
  s.raiseCap code (if host then Src.pcie else Src.packet) []
    ⟨if host then 2 else 1, addr, s.nodeId, agent, op, len - 1, cls, 0⟩

/-- Rings: A is 0, B is 1. Ring A enters at side W and leaves at side E (R229). -/
def outSide (ring : Nat) : Nat := if ring = 0 then 1 else 0
def inSide (ring : Nat) : Nat := if ring = 0 then 0 else 1

/-- A node not in the table. -/
def NodeRec.absent (_ : Nat) : NodeRec := ⟨false, false, 0, false⟩

def State.node (s : State) (n : Nat) : NodeRec := tget NodeRec.absent s.net.nodes n
def State.setNode (s : State) (n : Nat) (r : NodeRec) : State :=
  { s with net := { s.net with nodes := tput NodeRec.absent s.net.nodes n r } }

def noTag (_ : Nat) : Option TagRec := none
def State.tagRec (s : State) (t : Nat) : Option TagRec := tget noTag s.net.tags t
def State.setTag (s : State) (t : Nat) (r : Option TagRec) : State :=
  { s with net := { s.net with tags := tput noTag s.net.tags t r } }

/-- A side is wrapped (R265). -/
def State.wrapped (s : State) (side : Nat) : Bool := if side = 0 then s.bit F.NET_STAT_WRAP_W else s.bit F.NET_STAT_WRAP_E

/-- The side by which a packet for a ring leaves: the other one where the side is wrapped (R265). -/
def State.exitOf (s : State) (ring : Nat) : Nat := if s.wrapped (outSide ring) then 1 - outSide ring else outSide ring

/-- A packet that arrives on `ring` passes as on the ring of its INJ: it arrives on that ring, or this node's own wrap turns it onto it
(R256, R265; DEDUCED, log entry 66). -/
def State.onInjRing (s : State) (ring : Nat) (p : Packet) : Bool := p.inj == ring || s.wrapped (outSide ring)

/-- This node's own packet has come back to it (R256). -/
def State.returned (s : State) (ring : Nat) (p : Packet) : Bool := p.src == s.nodeId && s.onInjRing ring p

/-- Append to a receiving side's buffer. -/
def State.rxPush (s : State) (side : Nat) (p : Packet) : State :=
  { s with net := { s.net with rx := modAt [] s.net.rx side (· ++ [⟨p, p.pool, p.units, false⟩]) } }

/-- Append to a queue of packets taken: 0 side W, 1 side E, 2 the node itself, 3 link P. -/
def State.takenPush (s : State) (q : Nat) (p : Packet) : State :=
  { s with net := { s.net with taken := modAt [] s.net.taken q (· ++ [p]) } }

/-- Send a packet on a ring, turned where the side is wrapped (R265). A node wrapped on both sides is a loop of one: the
packet comes back to it (R268). -/
def State.sendRingFrom (s : State) (ring : Nat) (p : Packet) (pass : Bool) (from_ : Option Nat) : State :=
  let side := outSide ring
  if s.wrapped side then
    if s.wrapped (1 - side) then s.rxPush (inSide p.inj) p else s.enqueueFrom (1 - side) p pass from_
  else s.enqueueFrom side p pass from_

/-- Send a packet that no receive buffer holds. -/
def State.sendRing (s : State) (ring : Nat) (p : Packet) (pass : Bool) : State := s.sendRingFrom ring p pass none

/-- Bytes queued for injection towards a ring (R260). -/
def State.queued (s : State) (ring : Nat) : Nat :=
  (s.link (outSide ring)).waiting.foldl (fun n w => if w.pass then n else n + w.pkt.bytes.length) 0

/-- Hops to a node on each ring of an unwrapped loop (R260). The table counts the hops of the node's JOIN, which came
clockwise from it (R262), so they are the path back to it on ring B; the rest of the loop is the path on ring A (log entry 33). -/
def State.ringHops (s : State) (dst ring : Nat) : Nat :=
  let a := (s.node dst).hops
  if ring = 0 then s.rd F.NET_STAT_NODES - a else a

/-- This node's place on the line that a wrap makes of the loop, from the node whose side W is wrapped, which has place 0; `none` while no
wrap is in effect (R260). -/
def State.linePlace (s : State) : Option Nat :=
  let n := s.rd F.NET_STAT_NODES
  if s.wrapped 0 then some 0
  else if s.wrapped 1 then some (n - 1)
  else
    match s.net.wrapAt.find? (fun w => w.2 == 0), s.net.wrapAt.find? (fun w => w.2 == 1) with
    | some w, _ => some (s.node w.1).hops
    | none, some e => some (n - 1 - s.ringHops e.1 0)
    | none, none => none

/-- Hops to a node along the path a packet takes on each ring (R260): while a wrap is in effect, on to the wrap and back where the node
lies the other way. -/
def State.hopsTo (s : State) (dst ring : Nat) : Nat :=
  match s.linePlace with
  | none => s.ringHops dst ring
  | some p =>
    let n := s.rd F.NET_STAT_NODES
    let q := (p + s.ringHops dst 0) % n
    if ring = 0 then (if p < q then q - p else (n - 1 - p) + (n - 1 - q))
    else (if q < p then p - q else p + q)

/-- The mode of a class (R260): 0 SHORT, 1 BALANCE, 2 DUP. -/
def State.routeMode (s : State) (cls : Nat) : Nat :=
  if cls = 0 then s.rd F.NET_ROUTE_CTRL_MODE else if cls = 1 then s.rd F.NET_ROUTE_DATA_MODE else s.rd F.NET_ROUTE_BULK_MODE

/-- The ring SHORT or BALANCE chooses (R260). -/
def State.chooseRing (s : State) (dst cls : Nat) : Nat :=
  let a := s.hopsTo dst 0
  let b := s.hopsTo dst 1
  let short := if b < a then 1 else 0
  if s.routeMode cls = 1 ∧ (a - b) + (b - a) ≤ s.rd F.NET_ROUTE_BAL_HOPS then
    (if s.queued 1 < s.queued 0 then 1 else 0)
  else short

/-- Inject a packet of this node (R260): one copy, or one on each ring when it travels as DUP. -/
def State.injectAs (s : State) (p : Packet) (both : Bool) : State :=
  let s := s.bump K.NET_CNT_TX
  if both then (s.sendRing 0 (p.withInj 0) false).sendRing 1 (p.withInj 1) false
  else
    let r := s.chooseRing p.dst p.cls
    s.sendRing r (p.withInj r) false

/-- Inject a packet by the mode of its class (R260). -/
def State.inject (s : State) (p : Packet) : State := s.injectAs p (decide (s.routeMode p.cls = 2))

/-- Inject the answer to a request or message of tag `tag` from node `src`: as DUP when both copies of it have come, or by this node's own
mode, since a header does not say that its packet is a DUP one (R260, R261; DESIGN CHOICE, log entry 67). -/
def State.injectAnswer (s : State) (src tag : Nat) (p : Packet) : State :=
  let both := decide (p.cls = 0) && s.net.dupSeen.contains (src, tag)
  let s := { s with net := { s.net with dupSeen := s.net.dupSeen.filter (fun e => e != (src, tag)) } }
  s.injectAs p (both || decide (s.routeMode p.cls = 2))

/-- Inject a CTRL packet on one ring (R262, R264, R274). -/
def State.injectOn (s : State) (ring : Nat) (p : Packet) : State :=
  (s.bump K.NET_CNT_TX).sendRing ring (p.withInj ring) false

/-- The side LINK region is fenced (R364). -/
def State.linkFenced (s : State) : Bool := s.flt.fencedLink

/-- Open tags, as NET_TAG.OPEN shows. -/
def State.openCount (s : State) : Nat := s.rd F.NET_TAG_OPEN

/-- A free tag, least recently freed first (R255), and the net with it taken. -/
def takeTag (n : NetUnit) : Option (Nat × NetUnit) :=
  if n.nextTag < 4096 then some (n.nextTag, { n with nextTag := n.nextTag + 1 })
  else match n.freeTags with
    | [] => none
    | t :: ts => some (t, { n with freeTags := ts })

/-- Set the tag field of a packet. -/
def Packet.withTag (p : Packet) (t : Nat) : Packet :=
  { p with w0 := BitVec.ofNat 64 (p.w0.toNat - p.tag * 2 ^ 30 + (t % 4096) * 2 ^ 30) }

def Drover.idle (_ : Nat) : Drover := ⟨.stopped, 0, none, [], false, 0, 0, [0, 0, 0, 0, 0, 0, 0, 0], none, none, [], []⟩
def State.drover (s : State) (d : Nat) : Drover := tget Drover.idle s.drv.drv d
def State.setDrover (s : State) (d : Nat) (x : Drover) : State :=
  { s with drv := { s.drv with drv := tput Drover.idle s.drv.drv d x } }

/-- The record of a task that issues for an inbound VME cycle names the tag of its request (R120). -/
def State.noteTag (s : State) (o : TagOwner) (t : Nat) : State :=
  match o with
  | .sub d => match (s.drover d).exec with
    | some x => if x.task.dir then
        s.setDrover d { s.drover d with exec := some { x with task := { x.task with tag := t } } } else s
    | none => s
  | _ => s

/-- Send a packet that needs a tag (R255): it opens one and goes to its node, or to this node's own drop point (R31). A broadcast
goes both ways, on ring A only (R264). -/
def State.sendTagged (s : State) (p : Packet) (r : TagRec) : Option (Nat × State) :=
  match takeTag s.net with
  | none => none
  | some (t, n) =>
    let s := { s with net := n }
    let p := p.withTag t
    let dup := decide (p.dst ≠ s.nodeId ∧ p.dst ≠ bcastNode) && decide (s.routeMode p.cls = 2)
    let s := (s.setTag t (some { r with dup := dup })).noteTag r.owner t
    let s := s.wr F.NET_TAG_OPEN (s.openCount + 1)
    some (t, if p.dst = bcastNode then (s.injectOn 0 p).takenPush 2 p
      else if p.dst = s.nodeId then s.takenPush 2 p else s.inject p)

/-- The owner learns its tag: the owners kept by tag look it up. -/
def TagRec.mk' (p : Packet) (len : Nat) (o : TagOwner) : TagRec :=
  ⟨p.dst, p.addr, p.cls, p.op, len, o, false, false, false, 0, none, 0⟩

/-- What issuing a packet came to: the state, and the status when it ended at once, or the tag when it is on its way. -/
structure Issued where
  st : State
  ended : Option Nat
  tag : Option Nat

/-- Issue a REQUEST or MESSAGE (R255, R260, R263, R364, R436): NO_NODE at once when the node is absent or the LINK region is
fenced; it waits while no tag is free or the NET group is halted. -/
def State.issueRec (s : State) (p : Packet) (r : TagRec) : Issued :=
  if s.linkFenced then ⟨s, some St.NO_NODE, none⟩
  else if p.dst ≠ s.nodeId ∧ p.dst ≠ bcastNode ∧ !(s.node p.dst).present then
    ⟨((s.raise Code.NET_NO_NODE Src.packet [p.dst]).bump K.NET_CNT_NO_NODE), some St.NO_NODE, none⟩
  else if s.halting 2 then ⟨{ s with net := { s.net with tagWait := s.net.tagWait ++ [(p, r)] } }, none, none⟩
  else match s.sendTagged p r with
    | some (t, s) => ⟨s, none, some t⟩
    | none => ⟨{ s with net := { s.net with tagWait := s.net.tagWait ++ [(p, r)] } }, none, none⟩

/-- Issue a packet that is no agent's access. -/
def State.issue (s : State) (p : Packet) (len : Nat) (o : TagOwner) : Issued := s.issueRec p (TagRec.mk' p len o)

/-- Waiting packets take tags as they free (R255). -/
def State.pumpTags : Nat → State → State
  | 0, s => s
  | n + 1, s =>
    if s.halting 2 then s
    else match s.net.tagWait with
      | [] => s
      | (p, r) :: rest =>
        match ({ s with net := { s.net with tagWait := rest } }).sendTagged p r with
        | some (_, s) => s.pumpTags n
        | none => s

/-- A tag is free again (R255). -/
def State.freeTag (s : State) (t : Nat) : State :=
  let s := s.setTag t none
  let s := { s with net := { s.net with freeTags := s.net.freeTags ++ [t] } }
  s.pumpTags s.net.tagWait.length

/-- A RESPONSE from this node (R252, R256). -/
def State.respond (s : State) (req : Packet) (status bytesDone : Nat) (payload : List Byte) : State :=
  let p : Packet := ⟨mkW0 req.src s.nodeId req.tag req.cls Kind.RESPONSE req.ord 0 req.agent req.op req.lenm1,
    mkRspW1 status bytesDone, payload⟩
  if req.src = s.nodeId then s.takenPush 2 p else s.injectAnswer req.src req.tag p

/-- A MGMT packet of this node on ring A (R253). -/
def State.sendMgmt (s : State) (mtype id hops side : Nat) (mcap : Bool) (payload : List Byte) : State :=
  s.injectOn 0 ⟨mkW0 bcastNode s.nodeId 0 0 Kind.MGMT false 0 0 0 0, mkMgmtW1 mtype id hops side mcap, payload⟩

/-- JOIN of this node (R262). -/
def State.sendJoin (s : State) : State :=
  let s := s.sendMgmt 1 s.nodeId 0 0 (s.bit F.NET_CTL_MCAP) (leBytes 8 s.boot.otpSerial)
  { s with net := { s.net with joinOut := true } }

/-- The entries are announced anew: REBUILD (R262). -/
def State.startRebuild (s : State) : State :=
  let s := s.net.nodes.foldl (fun (s : State) (e : Nat × NodeRec) => s.setNode e.1 { e.2 with fresh := false }) s
  (s.wr F.NET_STAT_REBUILD 1).sendJoin

/-- Wrap record of a side. -/
def WrapRec.none : WrapRec := ⟨[], false, 0, 0, false⟩
def State.wrapRec (s : State) (side : Nat) : WrapRec := getAt WrapRec.none s.net.wraps side
def State.setWrapRec (s : State) (side : Nat) (w : WrapRec) : State :=
  { s with net := { s.net with wraps := setAt s.net.wraps side w } }

/-- Held frames of a side are discarded: counted and reported (R266). -/
def State.heldLost (s : State) (side : Nat) : State :=
  let n := (s.wrapRec side).held.length
  if 0 < n then (s.bumpN K.NET_CNT_WRAP_LOST n).raise Code.NET_WRAP_LOST (Src.forward side) [side, n] else s

/-- Wrap a side whose link went down (R265, R266): raise, count, hold the frames handed over, send WRAP, join again. NEXTSEQ is known of
every link that was up, so SEQV is 1. Frames still held from an earlier break of that side are lost: the partner's next WRAP counts the
SEQs of another training (DESIGN CHOICE, log entry 68). -/
def State.wrapSide (s : State) (side : Nat) (held : List (Nat × Packet)) (nextSeq : Nat) : State :=
  let neighbour := (s.link side).rnode
  let s := s.heldLost side
  let s := (s.raise Code.NET_WRAP (Src.forward side) []).bump K.NET_CNT_WRAP
  let s := if side = 0 then s.wr F.NET_STAT_WRAP_W 1 else s.wr F.NET_STAT_WRAP_E 1
  let s := s.setWrapRec side ⟨held, true, neighbour, nextSeq, false⟩
  -- frames still waiting for the failed side leave by the other
  let w := (s.link side).waiting
  let s := s.setLink side { s.link side with waiting := [] }
  let s := w.foldl (fun s x => s.sendRingFrom (outSide side) x.pkt x.pass x.from_) s
  let s := s.sendMgmt 5 s.nodeId 0 side (s.bit F.NET_CTL_MCAP)
    (leBytes 8 (nextSeq % 256 + 2 ^ 8 + neighbour * 2 ^ 16))
  if s.joined then s.startRebuild else s

/-- Straight forwarding again (R267). -/
def State.unwrapSide (s : State) (side : Nat) : State :=
  let s := s.sendMgmt 6 s.nodeId 0 side (s.bit F.NET_CTL_MCAP) []
  let s := if side = 0 then s.wr F.NET_STAT_WRAP_W 0 else s.wr F.NET_STAT_WRAP_E 0
  let s := s.setWrapRec side WrapRec.none
  if s.joined then s.startRebuild else s

/-- What a receiving side does with a packet (R256). -/
inductive Disposal where
  | strip | delay | control | broadcast | take | remove | forward
  deriving DecidableEq, Repr

/-- The order of R256. A fenced LINK region takes nothing more: a packet for the node goes round to its source (R364). -/
def State.dispose (s : State) (side : Nat) (p : Packet) : Disposal :=
  let ring := side
  if s.returned ring p then .strip
  else if p.kind = Kind.EPOCH ∧ (p.mtype = 2 ∨ p.mtype = 3) then .delay
  else if p.kind = Kind.EPOCH ∨ p.kind = Kind.MGMT then .control
  else if p.dst = bcastNode then .broadcast
  else if p.dst = s.nodeId ∧ s.joined = true then (if s.linkFenced then .forward else .take)
  else if !(s.node p.dst).present ∧ !s.bit F.NET_STAT_REBUILD then .remove
  else .forward

end Sys2Proof.Machine
end

