-- ==== Sys2Proof/Machine/TwinOps.lean ====
section
/-! DEFINITION. Who drives outputs, and queueing a mirror record (R337, R349 to R351). -/

namespace Sys2Proof.Machine

/-- Twin operation is enabled (R336). -/
def State.twinOn (s : State) : Bool := s.bit F.TWN_CTL_EN
/-- The device holds the crook. -/
def State.crook (s : State) : Bool := s.bit F.TWN_STAT_CROOK
/-- The device may drive outputs: it holds the crook, or twin operation is not enabled (R337). -/
def State.drives (s : State) : Bool := !s.twinOn || s.crook
/-- YIELDING: no new output work starts (R348). -/
def State.yielding (s : State) : Bool := s.twinOn && decide (s.rd F.TWN_STAT_STATE = 4)

/-- The holder mirrors category `cat` (R343, R347, R349). -/
def State.mirrors (s : State) (cat : Nat) : Bool :=
  s.twinOn && s.crook && !s.twin.fencing && (s.linkUp 2 || s.bit F.TWN_CTL_RING_MIRROR) &&
    (s.rd F.TWN_SEL_CAT).testBit cat

/-- Word 1 of a MIRROR packet (R351). -/
def mirrorW1 (mtype rtype rseq epoch : Nat) : BitVec 64 :=
  BitVec.ofNat 64 ((mtype % 16) * 2 ^ 60 + (rtype % 16) * 2 ^ 56 + (rseq % 2 ^ 24) * 2 ^ 32 + epoch % 2 ^ 32)

/-- A MIRROR packet of this node. -/
def State.mirrorPacket (s : State) (mtype rtype rseq epoch : Nat) (payload : List Byte) : Packet :=
  ⟨mkW0 (s.rd F.TWN_CTL_PEER) s.nodeId (if mtype = 1 then rseq else epoch) (if mtype = 1 then 2 else 0) Kind.MIRROR
    false 0 0 0 0, mirrorW1 mtype rtype rseq epoch, payload⟩

/-- Send a MIRROR packet on the peer lane while link P is up, else on the ring (R347, R351). -/
def State.sendMirror (s : State) (p : Packet) : State :=
  if s.linkUp 2 then s.enqueue 2 p false
  else if s.bit F.TWN_CTL_RING_MIRROR && !s.linkFenced then
    s.injectOn (s.chooseRing p.dst p.cls) p
  else s

/-- 64-byte units a record takes in the mirror queue (R359). A CLOSE lies behind its records with type 0 and takes none
(DESIGN CHOICE, log entry 30). -/
def recUnits (r : MirrorRec) : Nat := if r.rtype = 0 then 0 else (16 + r.payload.length + 63) / 64

/-- Units in use. -/
def mqUnits (q : List (Nat × Nat × MirrorRec)) : Nat := q.foldl (fun n x => n + recUnits x.2.2) 0

/-- The path can take the next record now. -/
def State.mirrorReady (s : State) (p : Packet) : Bool :=
  if s.linkUp 2 then decide ((s.link 2).waiting = []) && canSend (s.link 2) p
  else s.bit F.TWN_CTL_RING_MIRROR && decide ((s.link 0).waiting.length + (s.link 1).waiting.length < 128)

/-- Records leave the queue in order while the path takes them; `fuel` bounds the number. -/
def State.drainMirror : Nat → State → State
  | 0, s => s
  | n + 1, s =>
    match s.twin.mq with
    | [] => s
    | (epoch, rseq, r) :: rest =>
      let p := s.mirrorPacket (if r.rtype = 0 then 2 else 1) r.rtype rseq epoch r.payload
      if s.mirrorReady p then
        let s := { s with twin := { s.twin with mq := rest } }
        let s := s.wr F.TWN_MQ_DEPTH (mqUnits rest)
        (s.sendMirror p).drainMirror n
      else s

/-- One record enters the queue with its RSEQ and the running CRC (R349, R351). -/
def State.queueRec (s : State) (r : MirrorRec) : State :=
  let epoch := s.rd F.TWN_EPOCH_EPOCH
  let n := s.twin.rseq
  let bytes := leBytes 8 (mirrorW1 1 r.rtype n epoch).toNat ++ r.payload
  let s := { s with twin := { s.twin with
    mq := s.twin.mq ++ [(epoch, n, r)], rseq := n + 1, crc := bytes.foldl crcByte s.twin.crc } }
  let u := mqUnits s.twin.mq
  (s.wr F.TWN_MQ_DEPTH u).peak F.TWN_MQ_PEAK u

/-- Records waiting for space enter the queue in order; `fuel` bounds the number. -/
def State.fillMirror : Nat → State → State
  | 0, s => s
  | n + 1, s =>
    match s.twin.mwait with
    | [] => s
    | r :: rest =>
      if mqUnits s.twin.mq + recUnits r ≤ 1024 then
        (({ s with twin := { s.twin with mwait := rest, fullLeft := s.twin.fullLeft - 1 } }).queueRec r).fillMirror n
      else s

/-- Drain, then fill. -/
def State.pumpMirror (s : State) : State :=
  let s := s.drainMirror s.twin.mq.length
  let s := s.fillMirror s.twin.mwait.length
  s.drainMirror s.twin.mq.length

/-- A change is turned into a mirror record (R349); a full queue makes it wait. -/
def State.mirror (s : State) (rtype : Nat) (payload : List Byte) : State :=
  let r : MirrorRec := ⟨rtype, payload⟩
  if s.twin.mwait = [] ∧ mqUnits s.twin.mq + recUnits r ≤ 1024 then
    let s := s.queueRec r
    s.drainMirror s.twin.mq.length
  else
    ({ s with twin := { s.twin with mwait := s.twin.mwait ++ [r] } }).bump K.TWN_CNT_MQ_WAIT

/-- REG: one field register (R351). -/
def State.mirrorReg (s : State) (cat off : Nat) (v : Word) : State :=
  if s.mirrors cat then s.mirror 1 (leBytes 4 off ++ leBytes 4 v.toNat) else s

end Sys2Proof.Machine
end

