-- ==== Sys2Proof/Machine/FoldOps.lean ====
section
/-! DEFINITION. Cells, folds, pushes and pops, placing tasks, and event messages (R123 to R126, R177 to R193, R108). -/

namespace Sys2Proof.Machine

/-! ### Access -/

def Fold.empty (_ : Nat) : Fold := ⟨[], 0, 0, [], false⟩
def State.foldOf (s : State) (f : Nat) : Fold := tget Fold.empty s.fold.folds f
def State.setFold (s : State) (f : Nat) (x : Fold) : State :=
  { s with fold := { s.fold with folds := tput Fold.empty s.fold.folds f x } }

/-- The golden code is copied into a drover's memory and its data are cleared (R140, R433). -/
def State.loadDrover (s : State) (d : Nat) : State := s.setDrover d { s.drover d with code := s.boot.golden, data := [] }

/-- A task with every field zero. -/
def Task.blank : Task :=
  { cls := 0, pinwhy := 0, steals := 0, bank := false, idem := false, ord := false, ph := false, home := 0, pclass := 0,
    dir := false, op := 0, lenm1 := 0, tag := 0, addr := 0, phase := 0, framelo := 0, seq := 0, stile := 0, srcNode := 0,
    agent := 0, param := 0, resv := 0, dcell := 0, data := [], age := 0, reran := false, link := 0, orig := 0, desc := [], index := 0,
    late := false, pass := false, want := none, entered := false, exc := 0, refused := false }

/-- Bytes a request served here reads: its result's, for READ, CLAIM and ATOMIC. -/
def Task.resultLen (t : Task) : Nat :=
  if t.orig = 0 ∧ t.dir = false ∧ t.desc = [] ∧ (t.op = 0x01 ∨ t.op = 0x10 ∨ t.op = 0x12) then t.lenm1 + 1 else 0

/-- Data cells of a task: its write data's and its read result's (R118), from placement until it leaves its drover (DESIGN CHOICE,
log entry 44). -/
def Task.dataCells (t : Task) : Nat := (t.data.length + 63) / 64 + (t.resultLen + 63) / 64
/-- Cells a task takes in a drover fold: its record and its data cells (R118). -/
def Task.cells (t : Task) : Nat := 1 + t.dataCells

/-- Visible words of a fold: four for each task of a drover fold (R118). -/
def State.foldWords (s : State) (f : Nat) : Nat := if f < 64 then 4 * (s.drover f).fold.length else (s.foldOf f).words.length
/-- Visible packets of a fold. -/
def State.foldPackets (s : State) (f : Nat) : Nat := if f < 64 then (s.drover f).fold.length else (s.foldOf f).packets

/-- The fold a head names (R179). -/
def State.headFold (s : State) (h : Nat) : Nat := s.rd (F.FLD_HMAP_FOLD h)

/-! ### Cells (R184, R185, R194) -/

/-- Reserved cells not yet held: RSV − HELD over every fold where positive (R184). -/
def State.reservedIdle (s : State) : Nat :=
  s.rd F.FLD_POOL_RSV_RSV_SUM - s.fold.folds.foldl (fun n e => n + min e.2.held (s.rd (F.FLD_F_RSV_RSV e.1))) 0

/-- The unreserved free count is above zero (R184). -/
def State.unreservedFree (s : State) : Bool := decide (s.reservedIdle < s.fold.free)

/-- A push that needs a new cell for fold `f` is granted (R184). -/
def State.cellGranted (s : State) (f : Nat) : Bool :=
  let h := (s.foldOf f).held
  decide (h < s.rd (F.FLD_F_QUOTA_QUOTA f)) && (decide (h < s.rd (F.FLD_F_RSV_RSV f)) || s.unreservedFree) &&
    decide (0 < s.fold.free)

/-- Take `n` cells for fold `f`. -/
def State.takeCells (s : State) (f n : Nat) : State :=
  let x := s.foldOf f
  let s := s.setFold f { x with held := x.held + n }
  let s := { s with fold := { s.fold with free := s.fold.free - n } }
  let used := 110592 - s.fold.free
  let s := s.peak F.FLD_POOL_PEAK_PEAK used
  if s.statGet 0x1E8 < used then s.statSet 0x1E8 used else s

/-- Give `n` cells of fold `f` back. -/
def State.giveCells (s : State) (f n : Nat) : State :=
  let x := s.foldOf f
  let s := s.setFold f { x with held := x.held - n }
  { s with fold := { s.fold with free := s.fold.free + n } }

/-- The task in execution leaves drover `d`, and its data cells go back to the pool (R118, R185). -/
def State.dropExec (s : State) (d : Nat) : State :=
  match (s.drover d).exec with
  | none => s
  | some x => (s.setDrover d { s.drover d with exec := none }).giveCells d x.cells

/-! ### Levels and notices (R190 to R192) -/

/-- An event for a message route: source kind, item, route (R108, R120). -/
abbrev FieldEvent := Nat × Nat × Nat

/-- The notice slots that watch fold `f` with the enable asked for. -/
def State.slotsOf (s : State) (f : Nat) (en : Nat → Fld) (kind : Nat) : List FieldEvent :=
  ((List.range 256).filter (fun k =>
      s.bit (F.FLD_NS_EN k) && s.bit (en k) && s.rd (F.FLD_NS_FOLD k) == f)).map
    (fun k => (kind, k, s.rd (F.FLD_NS_ROUTE k)))

/-- The word count of fold `f` goes from `old` to `new` (R190, R191): notices, PEAK, FLOOR; `popped` restarts the stale-tail
timer. Answers the events the notice slots make. -/
def State.level (s : State) (f old new : Nat) (popped : Bool) : State × List FieldEvent :=
  let high := s.rd (F.FLD_F_WM_HIGH f)
  let low := s.rd (F.FLD_F_WM_LOW f)
  let up := decide (0 < high ∧ old < 8 * high ∧ 8 * high ≤ new)
  let down := decide (8 * low < old ∧ new ≤ 8 * low)
  let s := if up then s.wr (F.FLD_F_STAT_HIGH_N f) 1 else s
  let s := if down then s.wr (F.FLD_F_STAT_LOW_N f) 1 else s
  let s := s.peak (F.FLD_F_PEAK_PEAK f) new
  let s := if new < s.rd (F.FLD_F_FLOOR_FLOOR f) then s.wr (F.FLD_F_FLOOR_FLOOR f) new else s
  let x := s.foldOf f
  let run := if new = 0 then false else if popped ∨ old = 0 then decide (0 < s.rd (F.FLD_F_STALE_STALE_US f)) else x.staleRun
  let s := s.setFold f { x with staleRun := run }
  (s, if up || down then s.slotsOf f F.FLD_NS_WM_EN 3 else [])

/-! ### What a task performs (R133) -/

/-- The opcode a task performs: that of its carried descriptor, or its own (R133). -/
def Task.opcode (t : Task) : Nat := if t.desc = [] then t.op else nbits (descWord t.desc 0) 63 56
/-- The address a task accesses. -/
def Task.target (t : Task) : Nat := if t.desc = [] then t.addr else descWord t.desc 1

/-- Bytes a task covers for the overlap tests of R133. -/
def Task.len (t : Task) : Nat :=
  if t.desc = [] then
    (if t.op = 0x13 ∨ t.op = 0x14 then 0 else t.lenm1 + 1)
  else nbits (descWord t.desc 0) 31 0

/-! ### Stiles and confirming stores (R132, R152) -/

def Stile.free (_ : Nat) : Stile := ⟨0, 0, [], [], none⟩
def State.stileOf (s : State) (n : Nat) : Stile := tget Stile.free s.drv.stiles n
def State.setStile (s : State) (n : Nat) (x : Stile) : State :=
  { s with drv := { s.drv with stiles := tput Stile.free s.drv.stiles n x } }

def Confirm.zero (_ : Nat) : Confirm := ⟨0, 0, [], []⟩
/-- Stores of requester `k` (node × 256 + agent) at this node. -/
def State.confirmOf (s : State) (k : Nat) : Confirm := tget Confirm.zero s.ord.confirms k
def State.setConfirm (s : State) (k : Nat) (c : Confirm) : State :=
  { s with ord := { s.ord with confirms := tput Confirm.zero s.ord.confirms k c } }

/-- A task of a stile is done, and completed once its result has been built (R133). -/
def State.markStile (s : State) (t : Task) (completed : Bool) : State :=
  if t.ord && t.entered then
    let x := s.stileOf t.stile
    s.setStile t.stile { x with inflight := x.inflight.map (fun y =>
      if y.seq = t.seq then { y with done := true, completed := y.completed || completed } else y) }
  else s

/-- End the task a drover runs: its result is built. -/
def State.endTask (s : State) (d status bytesDone : Nat) (payload : List Byte) : State :=
  match (s.drover d).exec with
  | some x =>
    (s.setDrover d { s.drover d with exec := some { x with
      phase := .ended, result := some ⟨status, bytesDone, payload⟩ } }).markStile x.task true
  | none => s

/-- The DONE requests of a requester that wait at this node complete (R151, R153). -/
def State.finishDone (s : State) (k : Nat) : State :=
  s.drv.drv.foldl (fun (s : State) (e : Nat × Drover) =>
    match e.2.exec with
    | some x =>
      if x.task.opcode = 0x14 ∧ x.task.orig = 0 ∧ x.phase = .ordWait ∧ x.task.srcNode * 256 + x.task.agent = k then
        let n := (s.confirmOf k).failed
        let s := s.setConfirm k { s.confirmOf k with failed := 0 }
        s.endTask e.1 (if n = 0 then St.OK else St.DONE_FAILED) n []
      else s
    | none => s) s

/-- A store of requester `who` − 1 awaits its confirmation; zero stands for no requester. -/
def State.awaitStore (s : State) (who : Nat) : State :=
  if who = 0 then s
  else
    let c := s.confirmOf (who - 1)
    s.setConfirm (who - 1) { c with pending := c.pending + 1 }

/-- A store that awaited its confirmation is confirmed, or ends unconfirmed (R152). -/
def State.confirm (s : State) (ok : Bool) (who : Nat) : State :=
  if who = 0 then s
  else
    let c := s.confirmOf (who - 1)
    let s := s.setConfirm (who - 1) { c with pending := c.pending - 1, failed := if ok then c.failed else c.failed + 1 }
    if c.pending ≤ 1 ∧ c.segs = [] then s.finishDone (who - 1) else s

/-- Several at once. -/
def State.confirmAll (s : State) (ok : Bool) (whos : List Nat) : State := whos.foldl (fun s w => s.confirm ok w) s

/-- A store that never waited ends in error (R152, last row). -/
def State.storeFailed (s : State) (node agent : Nat) : State :=
  let c := s.confirmOf (node * 256 + agent)
  s.setConfirm (node * 256 + agent) { c with failed := c.failed + 1 }

/-- The requesters words belong to. -/
def whosOf (ws : List FWord) : List Nat := (ws.map (·.who)).filter (· != 0)

/-! ### Fold reset (R193, R194) -/

/-- Empty fold `f` as R193 steps 2 and 3, for a FLUSH (R197) or not: visible words, packets and open words lost; its cells, those of
a task in execution included, wait for the sweep, and the fold for the next pass where one runs (R194). -/
def State.emptyFold (s : State) (f : Nat) (flush : Bool) : State × List FieldEvent :=
  let x := s.foldOf f
  let old := s.foldWords f
  let held := x.held
  let s := s.confirmAll false (whosOf x.words ++ x.chains.flatMap (fun c => whosOf c.words))
  let s := if f < 64 then
      s.setDrover f { s.drover f with fold := [], exec := (s.drover f).exec.map (fun x => { x with cells := 0 }) } else s
  let s := s.setFold f { x with
    words := [], packets := 0, held := 0
    chains := x.chains.map (fun c => { c with words := [], cells := 0, drop := true
                                              flushed := if c.drop then c.flushed else flush }) }
  let u := s.fold
  let s := { s with fold := if u.sweepBusy then
      { u with oldNext := u.oldNext + held, sweepFolds := if u.sweepFolds.contains f then u.sweepFolds else u.sweepFolds ++ [f] }
    else { u with oldNow := u.oldNow + held, sweepBusy := true } }
  s.level f old 0 true

/-- Words in open chains. -/
def openWords (x : Fold) : Nat := x.chains.foldl (fun n c => n + c.words.length) 0

/-- The pointer copies of fold `f` are compared at an access (R193); a pair that differs resets the fold. -/
def State.pointerCheck (s : State) (f : Nat) : Bool × State × List FieldEvent :=
  match s.fold.inject.filter (fun x => x.1 == f) with
  | [] => (false, s, [])
  | bad =>
    let x := s.foldOf f
    let w := s.foldWords f
    let p := s.foldPackets f
    let o := openWords x
    let s := { s with fold := { s.fold with inject := s.fold.inject.filter (fun x => x.1 != f) } }
    let r := s.emptyFold f false
    let s := r.1.raise Code.FLD_PTR (Src.fold f)
      [b2n (bad.any (·.2)) * 2 ^ 17 + b2n (bad.any (fun x => !x.2)) * 2 ^ 16 + f, w, p, o]
    let s := (s.bump K.FLD_CNT_RESET).bumpN K.FLD_CNT_LOST_WORDS (w + o)
    (true, s.bumpF (F.FLD_F_STAT_RESETS f) 1, r.2)

/-! ### Placing tasks (R119, R123 to R126) -/

/-- DRV_EN bit of a drover. -/
def State.drvEn (s : State) (d : Nat) : Bool :=
  if d < 32 then (s.rd F.DRV_EN_LO_EN).testBit d else (s.rd F.DRV_EN_HI_EN).testBit (d - 32)
/-- DRV_RSV bit of a drover. -/
def State.drvRsv (s : State) (d : Nat) : Bool :=
  if d < 32 then (s.rd F.DRV_RSV_LO_RSV).testBit d else (s.rd F.DRV_RSV_HI_RSV).testBit (d - 32)
/-- Placement skips a drover that is revoked, reloading or removed (R139). -/
def State.drvLive (s : State) (d : Nat) : Bool := s.drvEn d && decide ((s.drover d).st = .running)

/-- Blocks of a class's placement set (R123); MAINT has every block. -/
def State.placeBlocks (s : State) (cls : Nat) : Nat :=
  if cls = 0 then s.rd F.DRV_PLACE_RING else if cls = 1 then s.rd F.DRV_PLACE_DESC
  else if cls = 2 then s.rd F.DRV_PLACE_FIELD else if cls = 3 then s.rd F.DRV_PLACE_CAD else 0xFF

/-- The enabled, unreserved drovers of a class's placement set. -/
def State.ordinarySet (s : State) (cls : Nat) : List Nat :=
  (List.range 64).filter (fun d => s.drvEn d && !s.drvRsv d && (s.placeBlocks cls).testBit (d / 8))

/-- The enabled reserved drovers. -/
def State.reservedSet (s : State) : List Nat := (List.range 64).filter (fun d => s.drvEn d && s.drvRsv d)

/-- Tasks of class CAD and of packet class CTRL (R123). -/
def Task.reservedKind (t : Task) : Bool := t.cls == 3 || t.pclass == 0

/-- The candidates of a task: a reserved-kind task's also are the reserved drovers; a MAINT task, and a task whose own set holds no
enabled, unreserved drover, has every unreserved one, and where there is none the reserved ones (R123, R124). -/
def State.candidates (s : State) (t : Task) : List Nat :=
  let own := s.ordinarySet t.cls
  if t.cls ≠ 4 ∧ own ≠ [] then (if t.reservedKind then own ++ s.reservedSet else own)
  else
    let all := s.ordinarySet 4
    if all = [] then s.reservedSet else all

/-- The drover fold has cells for the task, each granted in turn (R180, R184): those beyond RSV come out of the unreserved ones. -/
def State.hasRoom (s : State) (t : Task) (d : Nat) : Bool :=
  let h := (s.foldOf d).held
  decide (h + t.cells ≤ s.rd (F.FLD_F_QUOTA_QUOTA d)) && decide (t.cells ≤ s.fold.free) &&
    decide (h + t.cells - max h (s.rd (F.FLD_F_RSV_RSV d)) ≤ s.fold.free - s.reservedIdle)

/-- The better of two candidates: fewer waiting tasks, then a reserved drover for a reserved-kind task, then the one that
comes first from the round-robin pointer (R123). -/
def State.better (s : State) (t : Task) (ptr a b : Nat) : Nat :=
  let na := (s.drover a).fold.length
  let nb := (s.drover b).fold.length
  if na < nb then a else if nb < na then b
  else if t.reservedKind && s.drvRsv a && !s.drvRsv b then a
  else if t.reservedKind && s.drvRsv b && !s.drvRsv a then b
  else if (a + 64 - ptr) % 64 ≤ (b + 64 - ptr) % 64 then a else b

/-- The drover R123 chooses, none when every candidate is at quota or none is enabled. -/
def State.choose (s : State) (t : Task) : Option Nat :=
  match (s.candidates t).filter (fun d => s.drvLive d && s.hasRoom t d) with
  | [] => none
  | d :: ds => some (ds.foldl (fun a b => s.better t (getAt 0 s.drv.rr t.cls) a b) d)

/-- A class's placement set holds no enabled, unreserved drover: reported once for each such change (R124). -/
def State.placeCheck (s : State) : State :=
  [0, 1, 2, 3].foldl (fun (s : State) c =>
    let empty := decide (s.ordinarySet c = [])
    let was := getAt false s.drv.emptyRaised c
    let s := { s with drv := { s.drv with emptyRaised := setAt s.drv.emptyRaised c empty } }
    if empty && !was then s.raise Code.DRV_PLACE_EMPTY (Src.fold 0) [] else s) s

/-- Insert a task at its age position (R119). -/
def insertAge : List Task → Task → List Task
  | [], t => [t]
  | x :: xs, t => if t.age < x.age then t :: x :: xs else x :: insertAge xs t

/-- Put a task into the fold of drover `d`, its pointers compared first (R117, R193): cells, level, DEPTH. -/
def State.putTask (s : State) (d : Nat) (t : Task) : State × List FieldEvent :=
  let chk := s.pointerCheck d
  let s := chk.2.1
  let old := s.foldWords d
  let s := s.takeCells d t.cells
  let v := s.drover d
  let s := s.setDrover d { v with fold := insertAge v.fold t }
  let r := s.level d old (s.foldWords d) false
  (r.1, chk.2.2 ++ r.2)

/-- Take a task out of the fold of drover `d`, which gives `n` of its cells back. -/
def State.pullTask (s : State) (d : Nat) (t : Task) (n : Nat) : State × List FieldEvent :=
  let old := s.foldWords d
  let s := s.giveCells d n
  let v := s.drover d
  let s := s.setDrover d { v with fold := v.fold.erase t }
  s.level d old (s.foldWords d) true

/-- Drover `d` pops the oldest task of its fold, its pointers compared first (R117, R127, R193). -/
def State.popTask (s : State) (d : Nat) : Option Task × State × List FieldEvent :=
  let chk := s.pointerCheck d
  match (chk.2.1.drover d).fold with
  | [] => (none, chk.2.1, chk.2.2)
  | t :: _ =>
    let r := chk.2.1.pullTask d t 1
    (some t, r.1, chk.2.2 ++ r.2)

/-- The drover that a pin names (R125): TURN for a SEND on a port whose turnaround a drover holds, CLAIM for a COMMIT whose
reservation a drover holds, BUS for the bus-hold mark after a task of the same agent whose drover holds tenure. -/
def State.pinOf (s : State) (t : Task) (sendPort : Option Nat) (claimBy busBy : Option Nat) : Option (Nat × Nat) :=
  match busBy with
  | some d => some (d, 1)
  | none =>
    match sendPort.bind (fun p => (List.range 64).find? (fun d => (s.drover d).turn == some p)) with
    | some d => some (d, 2)
    | none => match claimBy with
      | some d => if t.op = 0x11 then some (d, 3) else none
      | none => none

/-- The serial port whose send fold an address of this node names, where it is wired half-duplex (R36, R125). -/
def State.sendPortOf (s : State) (addr : Nat) : Option Nat :=
  let off := addr % 2 ^ 48
  let n := (off - 0x2000000000) / 0x10000
  if faNode addr = s.nodeId ∧ 0x2000000000 ≤ off ∧ off < 0x2000400000 ∧ (off % 0x10000) / 0x1000 = 1 ∧ s.rd (F.SP_CTL_WIRE n) = 1 then
    some n
  else none

/-- The granule of a claim's or commit's bytes: its space and number (R162); space 5 stands for fabric addresses. -/
def State.granule (s : State) (bank : Bool) (addr len : Nat) : Nat × Nat :=
  let off := addr % 2 ^ 48
  if regionOf off = .outbound then
    match s.pieces bank off len with
    | some (p :: _) => let l := p.lens; (l.space, (l.vbase + (off - l.fbase)) / 64)
    | _ => (5, addr / 64)
  else (5, addr / 64)

/-- The claim a COMMIT served here relies on, when a drover of this node holds it (R125, R138). -/
def State.claimDrover (s : State) (t : Task) : Option Nat :=
  if t.desc = [] ∧ t.op = 0x11 then
    let g := s.granule (s.bit F.CHIP_COMMIT_STAT_BANK) t.target t.len
    (s.ord.claims.find? (fun c => c.node == t.srcNode && c.agent == t.agent && c.space == g.1 && c.key == g.2)).map (·.drover)
  else none

/-- The drover that holds tenure after the same agent's previous task, for a request that carries the bus-hold mark (R125, R208).
A request of the node's own carries its descriptor's mark (`index` 1); packets have no field for it. -/
def State.busDrover (s : State) (t : Task) : Option Nat :=
  if t.orig = 0 ∧ t.desc = [] ∧ t.index = 1 ∧ regionOf (t.target % 2 ^ 48) = .outbound then
    let holder := match s.vme.owner with
      | some (.drover d) => some d
      | some _ => none
      | none => if s.vme.bbsy then s.vme.lastOwner else none
    holder.filter (fun d => (s.drover d).lastReq == some (t.srcNode, t.agent))
  else none

/-- Every byte of [off, off + len) of this node lies where a read may be repeated (R122), under a bank. -/
def State.rereadable (s : State) (bank : Bool) (addr len : Nat) : Bool :=
  let off := faOffset addr
  oneRow off len &&
    (match regionOf off with
     | .outbound =>
       decide (faNode addr = s.nodeId) &&
         (match s.pieces bank off len with
          | some ps => ps.all (fun p => p.lens.prefetch)
          | none => false)
     | .ddr => true
     | .hostWin _ => true
     | .recorder => true
     | _ => false)

/-- A task under the bank in effect as it is written into a fold (R54), its IDEM judged by that bank's lenses (R46, R122). -/
def State.rebank (s : State) (t : Task) : Task :=
  let bank := s.bit F.CHIP_COMMIT_STAT_BANK
  { t with
    bank := bank
    idem := !t.dir && decide (t.orig ≠ 2) && decide (t.opcode = 0x01) && s.rereadable bank t.target t.len }

/-- The pin of a new task; none names a revoked, reloading or removed drover, which placement skips (R125, R139). -/
def State.pinNow (s : State) (t : Task) : Option (Nat × Nat) :=
  let op := t.opcode
  let port := if op = 0x20 ∨ op = 0x02 ∨ op = 0x03 then s.sendPortOf t.target else none
  (s.pinOf t port (s.claimDrover t) (s.busDrover t)).filter (fun p => decide ((s.drover p.1).st = .running))

/-- A task goes into the fold of drover `d` (R119, R120). Which cells it takes is not stated: DCELL is a free value (log entry 6). -/
def State.landTask (s : State) (d : Nat) (t : Task) (why : Nat) : State × List FieldEvent :=
  let c := if t.dataCells = 0 then (0#17, s) else s.free 17
  let age := s.drv.nextAge
  ({ c.2 with drv := { c.2.drv with nextAge := age + 1 } }).putTask d { t with
    age := age, home := d, pinwhy := why, dcell := c.1.toNat }

/-- Write a new task into a fold (R119, R123, R125); none when it must wait. A wait for placement counts in no register (DESIGN
CHOICE, log entry 47). -/
def State.place (s : State) (t : Task) : Option (State × List FieldEvent) :=
  let s := s.placeCheck
  match s.pinNow t with
  | some (d, why) => if s.hasRoom t d then some (s.landTask d t why) else none
  | none =>
    match s.choose t with
    | none => none
    | some d => some (({ s with drv := { s.drv with rr := setAt s.drv.rr t.cls ((d + 1) % 64) } }).landTask d t t.pinwhy)

/-! ### Stiles (R132, R133) -/

/-- Gate kinds (R133): 0 EFFECT, 1 LOAD, 2 BARRIER. -/
def gateKind (op : Nat) : Nat :=
  if op = 0x01 ∨ op = 0x10 ∨ op = 0x30 ∨ op = 0x31 then 1
  else if op = 0x13 ∨ op = 0x14 ∨ op = 0x15 then 2
  else 0

/-- The task carries a malformed descriptor: its sequence passes as completed, with no barrier (R210). -/
def Task.malformed (t : Task) : Bool := t.desc != [] && descBad t.desc

/-- A task's gate kind; every FIELD task is EFFECT. -/
def Task.gate (t : Task) : Nat := if t.orig = 2 then 0 else gateKind t.opcode

/-- Ordered tasks in flight over all stiles. -/
def State.orderedInFlight (s : State) : Nat := s.drv.stiles.foldl (fun n e => n + e.2.inflight.length) 0

/-- The dynamic stile of a stream, or a free one for it (R132). -/
def State.dynStile (s : State) (stream : Nat × Nat × Nat) : Option Nat :=
  match s.drv.stiles.find? (fun e => e.2.stream == some stream) with
  | some e => some e.1
  | none => ((List.range 672).map (· + 352)).find? (fun n => (s.stileOf n).stream == none)

/-- The stile a task asks for: `some n` a fixed one, `none` the dynamic one of its stream. -/
abbrev StileWish := Option Nat

/-- The stream of a task (R132). The accesses of a carried descriptor at its executing node (R253) form a stream of their own,
since the descriptor itself runs in the requester's. -/
def State.streamOf (s : State) (t : Task) : Nat × Nat × Nat :=
  (t.srcNode, t.agent, if t.orig = 0 ∧ t.dir = false ∧ t.link = 1 ∧ t.srcNode ≠ s.nodeId then t.pclass + 4 else t.pclass)

/-- Give an ordered task its stile and sequence (R132); none when a limit holds it. -/
def State.enterStile (s : State) (t : Task) (wish : StileWish) : Option (State × Task) :=
  let stream := s.streamOf t
  let n? := match wish with | some n => some n | none => s.dynStile stream
  match n? with
  | none => none
  | some n =>
    let x := s.stileOf n
    if 256 ≤ x.inflight.length ∨ 4096 ≤ s.orderedInFlight then none
    else
      let fresh := decide (352 ≤ n) && x.stream == none
      let e : StileTask := ⟨x.nextSeq, stream, s.drv.nextBorn, t.gate, t.target, t.len, t.malformed, t.malformed⟩
      let seq := x.nextSeq
      let x := { x with
        inflight := x.inflight ++ [e], nextSeq := (seq + 1) % 65536, stream := if 352 ≤ n then some stream else none }
      let s := { s with drv := { s.drv with nextBorn := s.drv.nextBorn + 1 } }
      let s := s.setStile n x
      let s := if fresh then
          let k := s.rd F.DRV_STILE_STAT_INUSE + 1
          (s.wr F.DRV_STILE_STAT_INUSE k).peak F.DRV_STILE_STAT_PEAK k
        else s
      some (s, { t with stile := n, seq := seq, entered := true })

/-- A task waits to be created; the wait counts where a stile limit is its cause (R124, R132, R180). -/
def State.waitTask (s : State) (t : Task) (stile : Bool) : State :=
  let s := if stile then s.bump K.DRV_CNT_STILE_WAIT else s
  { s with drv := { s.drv with waiting := s.drv.waiting ++ [t] } }

/-- What orders a task's creation: its command ring, or its stream (R132). Node 0x800 stands for the rings. -/
def State.streamKey (s : State) (t : Task) : Nat × Nat × Nat := if t.orig = 1 then (0x800, t.param % 256, 0) else s.streamOf t

/-- The earlier tasks of the same ring or stream that wait: this one must too, since placement age follows sequence order (R132,
R134). -/
def State.streamAhead (s : State) (t : Task) : List Task :=
  if t.ord then s.drv.waiting.filter (fun w => w.ord && s.streamKey w == s.streamKey t) else []

/-- The stile a task's class calls for (R132): its command ring's, the fixed one it wants, or the dynamic one. -/
def Task.wish (t : Task) : StileWish := if t.orig = 1 then some (t.param % 256) else t.want

/-- Create a task (R119, R123, R132). -/
def State.createStep (s : State) (t : Task) : State × List FieldEvent :=
  let t := s.rebank t
  let ahead := s.streamAhead t
  if ahead ≠ [] then (s.waitTask t (ahead.any (fun w => !w.entered)), [])
  else
    match (if t.ord && !t.entered then s.enterStile t t.wish else some (s, t)) with
    | none => (s.waitTask t true, [])
    | some (s', t') =>
      match s'.place t' with
      | some r => r
      | none => (s'.placeCheck.waitTask { t' with entered := true } false, [])

/-- A task that keeps its sequence goes (back) into a fold: work a unit held, or a task re-run (R138, R326). -/
def State.placeAgain (s : State) (t : Task) : State × List FieldEvent :=
  match s.place t with
  | some r => r
  | none => (s.placeCheck.waitTask { t with entered := true } false, [])

/-! ### Event messages (R107, R108) -/

def noSource (_ : Nat) : Option SrcMsg := none
def State.source (s : State) (k : Nat) : Option SrcMsg := tget noSource s.drv.sources k
def State.setSource (s : State) (k : Nat) (m : Option SrcMsg) : State :=
  { s with drv := { s.drv with sources := tput noSource s.drv.sources k m } }

/-- The FIELD task that builds a message (R108, R120): packet class CTRL. -/
def fieldTask (node kind item : Nat) : Task :=
  { Task.blank with cls := 2, orig := 2, param := (kind % 256) * 256 + item % 256, srcNode := node }

/-- One event: a message of its own, or merged into the one that follows the message in flight (R108). -/
def State.eventStep (s : State) (e : FieldEvent) : State × List FieldEvent :=
  let key := e.1 * 256 + e.2.1
  match s.source key with
  | some m => (s.setSource key (some { m with merged := min 255 (m.merged + 1) }), [])
  | none =>
    let s := s.setSource key (some ⟨e.2.2, 1, 0, s.frame % 65536, s.phase, 0⟩)
    s.createStep (fieldTask s.nodeId e.1 e.2.1)

/-- Every event of a list, and those their own tasks make at drover folds; `fuel` bounds the number. -/
def State.fire : Nat → List FieldEvent → State → State
  | 0, _, s => s
  | _ + 1, [], s => s
  | n + 1, e :: es, s =>
    let r := s.eventStep e
    r.1.fire n (es ++ r.2)

/-- Events of one step. The bound is never reached: each event makes at most one task, and a fold's mark is crossed once. -/
def fireFuel : Nat := 4096

def State.events (r : State × List FieldEvent) : State := r.1.fire fireFuel r.2

/-- Create a task with everything that follows from it. -/
def State.create (s : State) (t : Task) : State := State.events (s.createStep t)

/-- A field event of a source (R108). -/
def State.event (s : State) (kind item route : Nat) : State := s.fire fireFuel [(kind, item, route)]

/-! ### Pushing (R181 to R184) -/

/-- A producer's open chain. -/
def chainOf (x : Fold) (h : Nat) : Chain := (x.chains.find? (fun c => c.head == h)).getD ⟨h, [], 0, false, false⟩
def setChain (x : Fold) (c : Chain) : Fold :=
  let rest := x.chains.filter (fun d => d.head != c.head)
  { x with chains := if c.words = [] ∧ c.drop = false then rest else rest ++ [c] }

/-- Mark the last word of every cell (a packet starts in a new cell, eight words to a cell). -/
def markCells (ws : List FWord) : List FWord :=
  (List.range ws.length).map (fun i =>
    let w := getAt ⟨0, 0, false, 0, none⟩ ws i
    { w with last := decide (i % 8 = 7) || decide (i + 1 = ws.length) })

/-- FAPP records of an appended packet: up to 15 entries each (R351). -/
def fappRecs (f : Nat) : Nat → List FWord → List (List Byte)
  | 0, _ => []
  | n + 1, ws => match ws with
    | [] => []
    | _ =>
      let k := (ws.take 15)
      (leBytes 8 (f + k.length * 2 ^ 16) ++ k.flatMap (fun w => leBytes 8 w.w.toNat ++ [w.tag] ++ leBytes 7 0)) ::
        fappRecs f n (ws.drop 15)

/-- The fold is mirrored now (R349). -/
def State.foldMirrored (s : State) (f : Nat) : Bool := s.mirrors 1 && s.bit (F.FLD_F_CTL_MIRROR f)

/-- The chain joins the fold's tail (R181). -/
def State.appendChain (s : State) (f h : Nat) : State × List FieldEvent :=
  let x := s.foldOf f
  let c := chainOf x h
  let ws := markCells c.words
  let old := s.foldWords f
  let y := setChain { x with words := x.words ++ ws, packets := x.packets + 1 } ⟨h, [], 0, false, false⟩
  let s := s.setFold f y
  let s := if s.foldMirrored f then (fappRecs f ws.length ws).foldl (fun s r => s.mirror 4 r) s else s
  s.level f old (s.foldWords f) false

/-- Set E on the last word of a chain (R183). -/
def closeLast (ws : List FWord) : List FWord :=
  match ws.reverse with
  | [] => []
  | w :: r => ({ w with tag := w.tag ||| 0x40 } :: r).reverse

/-- A word with KIND 4 to 7 is stored as DATA (R189). -/
def storeTag (t : Byte) : Byte := if 4 ≤ t.toNat % 8 then t &&& 0xF8 else t

/-- Check bits of a pool word as it is written (R379). Which cell of the pool a word lies in is not stated: whether it is the named
one is a free value (log entry 6). -/
def State.poolBits (s : State) : Option (Nat × Nat × Bool) × State :=
  match s.flt.inject with
  | some (a, _, _) =>
    if a < 2 then
      let r := s.free 1
      r.2.injTake [0, 1] (fun _ => r.1 == 1#1)
    else (none, s)
  | none => (none, s)

/-- One word of producer `h` (R181, R183, R184): none when it must wait for a cell; `yields` says that an older push waits for one
before it. -/
def State.pushWord (s : State) (f h who : Nat) (yields : Bool) (w : BitVec 64) (tag : Byte) : Option (State × List FieldEvent) :=
  let chk := s.pointerCheck f
  let s := chk.2.1
  let x := s.foldOf f
  let c := chainOf x h
  let e := tag.toNat.testBit 6
  if c.drop then
    let s := s.setFold f (setChain x { c with drop := !e, flushed := c.flushed && !e })
    let s := s.confirm false who
    some (s.bumpN (if c.flushed then K.FLD_CNT_FLUSH_WORDS else K.FLD_CNT_LOST_WORDS) 1, chk.2.2)
  else
    let needs := decide (c.words.length % 8 = 0)
    if needs && (yields || !s.cellGranted f) then none
    else
      let s := if needs then s.takeCells f 1 else s
      let bits := s.poolBits
      let s := bits.2
      let x := s.foldOf f
      let s := s.setFold f (setChain x { c with
        words := c.words ++ [⟨w, storeTag tag, false, who, bits.1⟩], cells := if needs then c.cells + 1 else c.cells })
      if e then
        let r := s.appendChain f h
        some (r.1, chk.2.2 ++ r.2)
      else some (s, chk.2.2)

/-! ### Popping (R182, R185, R186, R189) -/

/-- Pop one word: its word and tag, none when the fold is empty (R186). -/
def State.popWord (s : State) (f : Nat) : Option FWord × State × List FieldEvent :=
  let chk := s.pointerCheck f
  let s := chk.2.1
  if chk.1 then (none, s, chk.2.2)
  else
    let x := s.foldOf f
    match x.words with
    | [] => (none, s, [])
    | w :: ws =>
      let s := s.setFold f { x with words := ws, packets := if w.tag.toNat.testBit 6 then x.packets - 1 else x.packets }
      let s := if w.last then s.giveCells f 1 else s
      let s := match w.bad with | some (a, i, dbl) => s.sramFault a i dbl | none => s
      let r := s.level f (ws.length + 1) ws.length true
      (some w, r.1, r.2)

/-- Pop up to `n` words, stopping after E when `stop` (R188): words, state, events. -/
def State.popWords : Nat → Bool → Nat → State → List FWord × State × List FieldEvent
  | 0, _, _, s => ([], s, [])
  | n + 1, stop, f, s =>
    match s.popWord f with
    | (none, s, es) => ([], s, es)
    | (some w, s, es) =>
      if stop && w.tag.toNat.testBit 6 then ([w], s, es)
      else
        let r := State.popWords n stop f s
        (w :: r.1, r.2.1, es ++ r.2.2)

/-- A read entry: the word, its tag, zeros (R189). -/
def entryBytes (w : FWord) : List Byte := leBytes 8 w.w.toNat ++ [w.tag] ++ leBytes 7 0

/-- Pop for a read of `k` entries, with the mirror record of the pops (R189, R349). Answers the status too: an uncorrectable word
ends the read with MEM_UE (R379). -/
def State.popEntries (s : State) (f k : Nat) (stop : Bool) : Nat × List Byte × State × List FieldEvent :=
  let m := s.foldMirrored f
  let r := State.popWords k stop f s
  let s := if m && decide (r.1 ≠ []) then r.2.1.mirror 5 (leBytes 4 f ++ leBytes 4 r.1.length) else r.2.1
  let bad := r.1.any (fun w => match w.bad with | some (_, _, dbl) => dbl | none => false)
  (if bad then St.MEM_UE else St.OK, r.1.flatMap entryBytes ++ leBytes (16 * (k - r.1.length)) 0, s, r.2.2)

/-! ### Posts (R209) -/

/-- The oldest post whose head names fold `f`, and the others. -/
def State.takePost (s : State) (f : Nat) : Option (Post × List Post) :=
  takeFirst (fun p => s.headFold p.head == f) s.fold.posts

/-- The task moves a posted packet to BUF: its post is not yet free (R209). -/
def Task.moving (t : Task) : Bool := t.opcode == 0x21 && t.data != []

/-- Posts not yet completed: those held, and those whose packet is on its way to BUF (R209). -/
def State.postsOpen (s : State) : Nat :=
  s.fold.posts.length + (s.drv.waiting.filter Task.moving).length +
    s.drv.drv.foldl (fun (n : Nat) (e : Nat × Drover) =>
      n + (e.2.fold.filter Task.moving).length +
        (match e.2.exec with | some x => if x.task.moving && x.phase != .ended then 1 else 0 | none => 0)) 0

/-- A whole packet is visible: the oldest post of the fold takes it, and its task goes back to a drover with the entries to
write to BUF (R209). -/
def State.servePost (s : State) (f : Nat) : State × List FieldEvent :=
  if s.foldPackets f = 0 then (s, [])
  else match s.takePost f with
    | none => (s, [])
    | some (p, rest) =>
      let s := { s with fold := { s.fold with posts := rest } }
      let n := p.task.len / 16
      let m := s.foldMirrored f
      let r := State.popWords n true f s
      -- a pointer reset at the pop leaves the post waiting
      if r.1 = [] then ({ r.2.1 with fold := { r.2.1.fold with posts := p :: r.2.1.fold.posts } }, r.2.2)
      else
        let s := if m then r.2.1.mirror 5 (leBytes 4 f ++ leBytes 4 r.1.length) else r.2.1
        let q := s.placeAgain { p.task with data := r.1.flatMap entryBytes, pass := true }
        (q.1, r.2.2 ++ q.2)

/-- The head behind a producer number: heads push as themselves, a SEND of drover d as 1000 + d + 64 × head (R181, R209). -/
def producerHead (p : Nat) : Nat := if p < 1000 then p else (p - 1000) / 64

/-- Producer `h` needs a new cell of fold `f` and R184 refuses it. -/
def State.pushStuck (s : State) (f h : Nat) : Bool :=
  let c := chainOf (s.foldOf f) h
  !c.drop && c.words.length % 8 == 0 && !s.cellGranted f

/-- The open chain of producer `h` holds QUOTA cells, cannot take another, and meets a fold without a visible word (R183). -/
def State.splitDue (s : State) (f h : Nat) : Bool :=
  let x := s.foldOf f
  let c := chainOf x h
  s.pushStuck f h && c.words != [] && decide (s.rd (F.FLD_F_QUOTA_QUOTA f) ≤ c.cells) && x.words.isEmpty

/-- Such a chain is closed and appended (R183). The word that found it so still waits. -/
def State.splitStuck (s : State) (f h : Nat) : State × List FieldEvent :=
  let chk := s.pointerCheck f
  let s := chk.2.1
  if s.splitDue f h then
    let x := s.foldOf f
    let c := chainOf x h
    let r := (s.setFold f (setChain x { c with words := closeLast c.words })).appendChain f h
    let p := ((r.1.bump K.FLD_CNT_SPLIT).raise Code.FLD_SPLIT (Src.fold f) [f, producerHead h]).servePost f
    (p.1, chk.2.2 ++ r.2 ++ p.2)
  else (s, chk.2.2)

/-- Push the entries of one producer in order, leaving those that wait (R184, R188): what remains, state, events. -/
def State.pushEntries : List (BitVec 64 × Byte) → Nat → Nat → Nat → Bool → State → List (BitVec 64 × Byte) × State × List FieldEvent
  | [], _, _, _, _, s => ([], s, [])
  | (w, t) :: es, f, h, who, y, s =>
    if t.toNat < 128 then State.pushEntries es f h who y s
    else
      let q := s.splitStuck f h
      match q.1.pushWord f h (if es.all (fun e => e.2.toNat < 128) then who else 0) y w t with
      | none => ((w, t) :: es, q.1, q.2)
      | some (s, ev) =>
        let p := if t.toNat.testBit 6 then s.servePost f else (s, [])
        let r := State.pushEntries es f h who y p.1
        (r.1, r.2.1, q.2 ++ ev ++ p.2 ++ r.2.2)

/-- The fold a held push is for. -/
def State.heldFold (s : State) (p : HeldPush) : Nat := s.headFold (producerHead p.head)

/-- A held push can go on: it needs no new cell, is granted one, or its chain is to be closed (R183, R184). -/
def State.heldGoes (s : State) (p : HeldPush) : Bool :=
  let f := s.heldFold p
  !s.pushStuck f p.head || s.splitDue f p.head

/-- A push for a cell of fold `f` waits behind older ones: those of the same fold, and those that could have the cell (R184). -/
def State.olderPush (s : State) (f : Nat) : Bool := s.fold.heldPushes.any (fun p => s.heldFold p == f || s.heldGoes p)

/-- One wait for a cell of fold `f` (R184). -/
def State.countWait (s : State) (f : Nat) : State :=
  s.bump (if s.rd (F.FLD_F_QUOTA_QUOTA f) ≤ (s.foldOf f).held then K.FLD_CNT_QUOTA_WAIT else K.FLD_CNT_POOL_WAIT)

/-- A push by head `h`; what waits is held, oldest first, with the drover it completes, and each wait counts (R184). Answers whether
all of it landed. -/
def State.push (s : State) (h producer who : Nat) (es : List (BitVec 64 × Byte)) (drover : Option Nat) : Bool × State :=
  let f := s.headFold h
  -- behind an earlier push of the same producer nothing lands
  let r := if s.fold.heldPushes.any (fun p => p.head == producer) then (es, s, [])
    else State.pushEntries es f producer who (s.olderPush f) s
  let s := r.2.1.fire fireFuel r.2.2
  if r.1 = [] then (true, s)
  else
    let s := s.countWait f
    (false, { s with fold := { s.fold with heldPushes := s.fold.heldPushes ++ [⟨producer, r.1, who, drover⟩] } })

/-- Data words of a packet with the tags of R177: eight bytes to a word, the last word carrying E. -/
def dataWords (bs : List Byte) : List (BitVec 64 × Byte) :=
  let cs := chunks8 (bs.length + 1) bs
  (List.range cs.length).map (fun i =>
    let c := getAt [] cs i
    (BitVec.ofNat 64 (leNum c),
      BitVec.ofNat 8 (0x80 + (if i + 1 = cs.length then 0x40 else 0) + 8 * (c.length - 1))))

/-- The HDR word of a received frame (R178). -/
def hdrWord (head frame phase : Nat) : BitVec 64 × Byte :=
  (BitVec.ofNat 64 ((head % 256) * 2 ^ 56 + (frame % 65536) * 2 ^ 32 + phase % 2 ^ 32), 0xB9)

end Sys2Proof.Machine
end

