-- ==== Sys2Proof/Machine/DdrOps.lean ====
section
/-! DEFINITION. The node-local DDR4 with its error-correcting code (R34, R226 to R228, R349 category DDR). -/

namespace Sys2Proof.Machine

/-- Bytes populated (R34, R228). -/
def State.ddrSize (s : State) : Nat :=
  match s.rd F.DDR_CFG_SIZE with
  | 1 => 0x100000000
  | 2 => 0x200000000
  | 3 => 0x400000000
  | _ => 0

/-- A range lies in the populated memory. Offsets are relative to 0x10_0000_0000. -/
def State.ddrHas (s : State) (a n : Nat) : Bool := decide (a + n ≤ s.ddrSize)

/-- A correctable error: corrected, written back, counted and reported (R226). -/
def State.ddrCe (s : State) (word : Nat) : State :=
  let s := { s with ddr := { s.ddr with bad := s.ddr.bad.filter (fun b => b.1 != word) } }
  (s.bump K.DDR_CNT_CE).raise Code.DDR_CE Src.ddr []

/-- An uncorrectable error (R226). -/
def State.ddrUe (s : State) (word : Nat) : State :=
  let a := 8 * word
  let s := s.wr F.DDR_UE_ADDR_LO_ADDR_LO (nbits a 31 3)
  let s := s.wr F.DDR_UE_ADDR_HI_ADDR_HI (nbits a 33 32)
  (s.bump K.DDR_CNT_UE).raise Code.DDR_UE Src.ddr []

/-- Words lo to hi are read: whether the data is good, and the state with errors treated (R226). -/
def State.ddrCheck (s : State) (lo hi : Nat) : Bool × State :=
  (s.ddr.bad.filter (fun b => decide (lo ≤ b.1 ∧ b.1 ≤ hi))).foldl (fun (r : Bool × State) b =>
    if b.2 then (false, r.2.ddrUe b.1) else (r.1, r.2.ddrCe b.1)) (true, s)

/-- Read `n` bytes; none where an error cannot be corrected. -/
def State.ddrRead (s : State) (a n : Nat) : Option (List Byte) × State :=
  let r := s.ddrCheck (a / 8) ((a + n - 1) / 8)
  (if r.1 then some (tread zeroByte r.2.ddr.bytes a n) else none, r.2)

/-- Bytes written are mirrored where a range of the twin covers them (R349, R351): at most 248 in a record. -/
def ddrRecs (a : Nat) : Nat → List Byte → List (List Byte)
  | 0, _ => []
  | k + 1, bs => match bs with
    | [] => []
    | _ => (leBytes 8 a ++ bs.take 248) :: ddrRecs (a + 248) k (bs.drop 248)

/-- The part of a write that range `r` covers. -/
def State.rangePart (s : State) (r a : Nat) (bs : List Byte) : Option (Nat × List Byte) :=
  let lo := s.rd (F.TWN_RNG_BASE_BASE r) * 4096
  let hi := lo + s.rd (F.TWN_RNG_SIZE_PAGES r) * 4096
  let from_ := max lo a
  let upto := min hi (a + bs.length)
  if s.bit (F.TWN_RNG_BASE_EN r) ∧ from_ < upto then some (from_, slice bs (from_ - a) (upto - from_)) else none

def State.mirrorDdr (s : State) (a : Nat) (bs : List Byte) : State :=
  if s.mirrors 5 then
    (List.range 8).foldl (fun (s : State) r =>
      match s.rangePart r a bs with
      | some (b, part) => (ddrRecs (0x1000000000 + b) part.length part).foldl (fun s p => s.mirror 2 p) s
      | none => s) s
  else s

/-- Words that a write of `n` bytes covers only in part: its first and last. -/
def partWords (a n : Nat) : List Nat :=
  (if a % 8 ≠ 0 ∨ n < 8 then [a / 8] else []) ++
    (if (a + n) % 8 ≠ 0 ∧ (a + n) / 8 ≠ a / 8 then [(a + n) / 8] else [])

/-- Lay bytes down with fresh check bits; an armed injection spoils those of the first word (R228). -/
def State.ddrStore (s : State) (a : Nat) (bs : List Byte) : State :=
  let lo := a / 8
  let hi := (a + bs.length - 1) / 8
  let bad := s.ddr.bad.filter (fun b => !decide (lo ≤ b.1 ∧ b.1 ≤ hi))
  let bad := match s.ddr.inject with | some d => bad ++ [(lo, d)] | none => bad
  { s with ddr := { s.ddr with bytes := twrites zeroByte s.ddr.bytes a bs, bad := bad, inject := none } }

/-- Write bytes: false where a partly written word has an uncorrectable error, and nothing is written (R226). -/
def State.ddrWrite (s : State) (a : Nat) (bs : List Byte) : Bool × State :=
  if bs = [] then (true, s)
  else
    let r := (partWords a bs.length).foldl (fun (r : Bool × State) w =>
      let q := r.2.ddrCheck w w
      (r.1 && q.1, q.2)) (true, s)
    if r.1 then (true, (r.2.ddrStore a bs).mirrorDdr a bs) else (false, r.2)

/-- A write of 1 to DDR_INJ.ARM (R228). -/
def State.ddrInj (s : State) (v : Word) : State :=
  let s := s.wr F.DDR_INJ_DOUBLE (bitsOf v 0 0)
  if bitOf v 31 then { s with ddr := { s.ddr with inject := some (bitOf v 0) } } else s

def execDdrInjArm (value : Word) (s : State) : Host.Outcome State Fault Refusal :=
  .next (whenUp .host (fun s => s.ddrInj (value ||| 0x80000000#32)) s)

/-- The patrol scrubber reads its next word (R226). -/
def ddrScrub (s : State) : State :=
  if s.bit F.DDR_CTL_SCRUB_EN ∧ s.bit F.DDR_STAT_READY ∧ 0 < s.ddrSize then
    let w := s.ddr.scrubAt
    let s := (s.ddrCheck w w).2
    { s with ddr := { s.ddr with scrubAt := if 8 * (w + 1) < s.ddrSize then w + 1 else 0 } }
  else s

def execDdrScrub (s : State) : Host.Outcome State Fault Refusal := .next (whenUp .host ddrScrub s)

end Sys2Proof.Machine
end

