-- ==== Sys2Proof/Machine/PortOps.lean ====
section
/-! DEFINITION. What the field ports share: their state, their pins under twin operation, pushing a received packet, the Modbus
CRC, the poll script (R278 to R282, R290, R294, R295). -/

namespace Sys2Proof.Machine

def SerialPort.idle (_ : Nat) : SerialPort :=
  ⟨[], 0, 0, 0, false, false, false, true, none, false, false, none, none, none⟩
def State.sp (s : State) (n : Nat) : SerialPort := tget SerialPort.idle s.port.sp n
def State.setSp (s : State) (n : Nat) (x : SerialPort) : State :=
  { s with port := { s.port with sp := tput SerialPort.idle s.port.sp n x } }

def CanCtl.idle (_ : Nat) : CanCtl := ⟨[], false, 0, 0, false⟩
def State.cf (s : State) (n : Nat) : CanCtl := tget CanCtl.idle s.port.cf n
def State.setCf (s : State) (n : Nat) (x : CanCtl) : State :=
  { s with port := { s.port with cf := tput CanCtl.idle s.port.cf n x } }

def DcChain.idle (_ : Nat) : DcChain := ⟨0, 0, false, 0, false, 0, 0, none, 0, [], [], [], [], [], none⟩
def State.dc (s : State) (n : Nat) : DcChain := tget DcChain.idle s.port.dc n
def State.setDc (s : State) (n : Nat) (x : DcChain) : State :=
  { s with port := { s.port with dc := tput DcChain.idle s.port.dc n x } }

/-- Outputs are off because the peer holds the crook (R281). -/
def State.portsOff (s : State) : Bool := !s.drives
/-- Ports are in their safe state (R281, R342, R364, R365). -/
def State.portsSafe (s : State) : Bool := s.flt.safe || s.flt.fencedEdge || s.twin.fencing
/-- A port may start sending. -/
def State.portsSend (s : State) : Bool := !s.portsOff && !s.portsSafe && !s.yielding

/-- DE of a port in FULL wiring is asserted while the port is enabled and R281 does not apply (R285). -/
def State.deFull (s : State) (n : Nat) : State :=
  let p := s.sp n
  let want := s.bit (F.SP_CTL_EN n) && !s.portsOff && !s.portsSafe
  if s.rd (F.SP_CTL_WIRE n) = 0 ∧ p.de ≠ want then (s.setSp n { p with de := want }).emit (.de n want) else s

/-- DE of every port, after what R281 names has begun or ended. -/
def State.desFull (s : State) : State := (List.range 64).foldl (fun (s : State) n => s.deFull n) s

/-- A received packet has landed in its fold: its statistics and its event (R282, R333). Producers are receive heads. -/
def State.landed (s : State) (h : Nat) : State :=
  if h < 64 then
    let s := s.statAdd (0x6D0 + 0x10 * h) 1
    if s.bit (F.SP_CTL_EV_EN h) then s.event 0 h (s.rd (F.SP_CTL_ROUTE h)) else s
  else if 128 ≤ h ∧ h < 144 then
    let n := h - 128
    let s := s.statAdd (0xAD0 + 0x10 * n) 1
    if s.bit (F.CF_CTL_EV_EN n) then s.event 1 n (s.rd (F.CF_CTL_ROUTE n)) else s
  else s

/-- Push a received packet into the fold of head `h` (R278); without the crook a mirrored fold takes none (R337). -/
def State.pushRx (s : State) (h : Nat) (es : List (BitVec 64 × Byte)) : State :=
  if s.portsOff && s.bit (F.FLD_F_CTL_MIRROR (s.headFold h)) then s
  else
  let r := s.push h h 0 es none
  if r.1 then r.2.landed h else r.2

/-- Set E on the last entry. -/
def withE : List (BitVec 64 × Byte) → List (BitVec 64 × Byte)
  | [] => []
  | [(w, t)] => [(w, t ||| 0x40)]
  | x :: y :: r => x :: withE (y :: r)

/-- Clear E on every entry. -/
def noE (es : List (BitVec 64 × Byte)) : List (BitVec 64 × Byte) := es.map (fun x => (x.1, x.2 &&& 0xBF))

/-- The bytes a packet popped from a send fold sends: those of its DATA words (R280). -/
def dataBytes (ws : List FWord) : List Byte :=
  ws.flatMap (fun w => if w.tag.toNat % 8 = 0 then (leBytes 8 w.w.toNat).take (nbits w.tag.toNat 5 3 + 1) else [])

/-- Pop the next whole packet of a send fold (R280). -/
def State.popPacket (s : State) (h : Nat) : Option (List FWord × State) :=
  let f := s.headFold h
  if s.foldPackets f = 0 then none
  else
    let m := s.foldMirrored f
    let n := (s.foldOf f).words.length
    let r := State.popWords n true f s
    let s := r.2.1.fire fireFuel r.2.2
    let s := if m && decide (r.1 ≠ []) then s.mirror 5 (leBytes 4 f ++ leBytes 4 r.1.length) else s
    if r.1 = [] then none else some (r.1, s)

/-- Words of a send fold lose their requesters, whose stores end unconfirmed (R152, R296). -/
def State.failSends (s : State) (h : Nat) : State :=
  let f := s.headFold h
  let x := s.foldOf f
  let s := s.setFold f { x with words := x.words.map (fun w => { w with who := 0 }) }
  s.confirmAll false (whosOf x.words)

/-! ### CRC-16 of Modbus (R290) -/

def crc16Bit (c : Nat) : Nat := if c % 2 = 1 then (c / 2) ^^^ 0xA001 else c / 2
def crc16Bits : Nat → Nat → Nat
  | 0, c => c
  | n + 1, c => crc16Bits n (crc16Bit c)
def crc16 (bs : List Byte) : Nat := bs.foldl (fun c b => crc16Bits 8 (c ^^^ b.toNat)) 0xFFFF

/-! ### The poll script (R294) -/

/-- The 32 bytes of script entry `i` of port `n`. -/
def State.pollAt (s : State) (n i : Nat) : Nat := s.rd (F.SP_POLLB_BASE n) * 4096 + 32 * i

/-- The next enabled entry from `i` on. -/
def State.pollFrom (s : State) (n : Nat) : Nat → Nat → Option Nat
  | 0, _ => none
  | k + 1, i =>
    if s.rd (F.SP_POLL_ENTRIES n) ≤ i then none
    else if (getAt 0 (tread zeroByte s.ddr.bytes (s.pollAt n i) 8) 7).toNat.testBit 7 then some i
    else s.pollFrom n k (i + 1)

/-- Go on with entry `i` or later of the pass: the FIELD task of the step, or the end of the pass. -/
def State.pollGo (s : State) (n i : Nat) : State :=
  match s.pollFrom n 256 i with
  | some j => (s.setSp n { s.sp n with pass := some j }).create (fieldTask s.nodeId 6 n)
  | none => s.setSp n { s.sp n with pass := none }

/-- A poll step has completed (R294). -/
def State.pollNext (s : State) (n : Nat) : State :=
  match (s.sp n).pass with
  | some j => s.pollGo n (j + 1)
  | none => s

/-- A poll step ends without a write (R295). -/
def State.pollFail (s : State) (n d : Nat) : State :=
  let s := s.setDrover d { s.drover d with turn := none }
  (s.wr (F.SP_STAT_POLLERR n) 1).endTask d St.ADDR_ERROR 0 []

/-- What a poll entry asks for (R294): slave, function, start, quantity, destination. -/
structure PollEntry where
  addr : Nat
  func : Nat
  start : Nat
  qty : Nat
  dest : Nat
  ok : Bool

def pollEntry (bs : List Byte) : PollEntry :=
  let w0 := descWord bs 0
  let func := nbits w0 15 8
  let qty := nbits w0 47 32
  let addr := nbits w0 7 0
  ⟨addr, func, nbits w0 31 16, qty, descWord bs 1,
    decide (1 ≤ addr ∧ addr ≤ 247) && decide (1 ≤ func ∧ func ≤ 4) && decide (1 ≤ qty) &&
      decide (qty ≤ (if func ≤ 2 then 2000 else 125)) && decide (nbits w0 62 48 = 0) && decide (descWord bs 2 = 0) &&
      decide (descWord bs 3 = 0)⟩

/-- The request of a poll step without its CRC (R295). -/
def pollRequest (e : PollEntry) : List Byte :=
  leBytes 1 e.addr ++ leBytes 1 e.func ++ beBytes 2 e.start ++ beBytes 2 e.qty

/-- Data bytes the reply must carry (R295). -/
def pollBytes (e : PollEntry) : Nat := if e.func ≤ 2 then (e.qty + 7) / 8 else 2 * e.qty

/-- A reply frame ends the poll step of drover `d` (R295): it writes its data to DEST, or fails. -/
def State.pollReply (s : State) (n d flags : Nat) (bs : List Byte) : State :=
  match (s.drover d).exec with
  | none => s
  | some x =>
    let e := pollEntry x.buf
    let a := (getAt 0 bs 0).toNat
    let f := (getAt 0 bs 1).toNat
    if flags = 0 ∧ bs.length = 3 + pollBytes e ∧ a = e.addr ∧ f = e.func ∧ (getAt 0 bs 2).toNat = pollBytes e then
      let data := bs.drop 3
      match originFault 0x02 e.dest data.length with
      | some code =>
        -- the originator refuses DEST (R29, R30)
        let s := s.setDrover d { s.drover d with turn := none }
        ((s.originRefuse code 0x02 e.dest data.length 0 1 false).raise Code.SP_POLL_FAIL (Src.serial n) []).endTask d St.ADDR_ERROR 0 []
      | none =>
      let p : Packet := ⟨mkW0 (faNode e.dest) s.nodeId 0 (classOf 1 e.dest) Kind.REQUEST false 0 0 0x02 (data.length - 1),
        BitVec.ofNat 64 e.dest, data⟩
      let s := s.setDrover d { s.drover d with turn := none }
      let r := s.issue p data.length (.sub d)
      let s := r.st.setDrover d { r.st.drover d with exec := some { x with phase := .ring, buf := data } }
      match r.ended with
      | some st => (s.raise Code.SP_POLL_FAIL (Src.serial n) []).endTask d st 0 []
      | none => s
    else if flags = 0 ∧ bs.length = 3 ∧ a = e.addr ∧ f = e.func + 0x80 then
      let s := s.raise Code.SP_MB_EXCEPT (Src.serial n) [a, f, (getAt 0 bs 2).toNat]
      (s.setDrover d { s.drover d with turn := none }).endTask d St.OK 0 []
    else (s.raise Code.SP_POLL_FAIL (Src.serial n) []).pollFail n d

end Sys2Proof.Machine
end

