-- ==== Sys2Proof/Machine/Folds.lean ====
section
/-! DEFINITION. Fold heads and the commands of the fold manager (R183 to R194, R197). -/

namespace Sys2Proof.Machine

/-! ### Heads (R188, R189) -/

/-- Heads that push: the send heads (R179). -/
def isSendHead (h : Nat) : Bool := decide (64 ≤ h ∧ h < 128) || decide (144 ≤ h ∧ h < 160)

/-- What an access to a head is (R188). -/
inductive HeadOp where
  | pop (k : Nat) (stop : Bool)
  | push
  | count
  | reserved
  deriving DecidableEq, Repr

/-- The access at offset `e` of a head's 4 KiB. -/
def headOp (h e len : Nat) (isRead : Bool) : HeadOp :=
  let area := decide (len % 16 = 0) && decide (16 ≤ len ∧ len ≤ 256) && decide (e % 16 = 0) &&
    (decide (e + len ≤ 0x400) || (decide (0x400 ≤ e) && decide (e + len ≤ 0x800)))
  if isRead && decide (e = 0x800) && decide (len = 8) then .count
  else if isRead && !isSendHead h && area then .pop (len / 16) (decide (e < 0x400))
  else if !isRead && isSendHead h && area && decide (e < 0x400) then .push
  else .reserved

/-- The head and the offset in its 4 KiB that a field port offset names. -/
def headAt (off : Nat) : Option (Nat × Nat) :=
  match regionOf off with
  | .recvHead h => some (h, off % 0x1000)
  | .sendHead h => some (h, off % 0x1000)
  | _ => none

/-- The entries a written block holds (R189). -/
def entriesOf : Nat → List Byte → List (BitVec 64 × Byte)
  | 0, _ => []
  | k + 1, bs => match bs with
    | [] => []
    | _ => (BitVec.ofNat 64 (leNum (bs.take 8)), getAt 0 bs 8) :: entriesOf k (bs.drop 16)

/-- Counts of a head's fold, without popping (R188). -/
def State.headCount (s : State) (h : Nat) : List Byte :=
  let f := s.headFold h
  leBytes 4 (s.foldWords f) ++ leBytes 4 (s.foldPackets f)

/-- Push a store's entries (R181, R184): the store awaits its confirmation where it pushed anything (R152). Answers whether all
has landed. -/
def State.headPush (s : State) (h producer who : Nat) (es : List (BitVec 64 × Byte)) (d : Nat) : Bool × State :=
  if es.any (fun e => decide (128 ≤ e.2.toNat)) then (s.awaitStore who).push h producer who es (some d)
  else (true, s)

/-! ### Commands -/

/-- A held push lands as far as it can (R184): the list of held pushes before it, the push, those after it. -/
def State.grant (s : State) (before : List HeldPush) (p : HeldPush) (after : List HeldPush) : State :=
  let f := s.heldFold p
  let r := State.pushEntries p.entries f p.head p.who false s
  let s := r.2.1.fire fireFuel r.2.2
  if r.1 = [] then
    let s := { s with fold := { s.fold with heldPushes := before ++ after } }
    match p.drover with
    | some d => match (s.drover d).exec with
      | some x => s.endTask d St.OK x.buf.length []
      | none => s
    | none => s.landed p.head
  else
    -- having landed in part, it waits anew
    let s := if r.1.length < p.entries.length then s.countWait f else s
    { s with fold := { s.fold with heldPushes := before ++ { p with entries := r.1 } :: after } }

/-- The oldest held push that can go on; a push behind another of its producer cannot. -/
def State.grantFirst (s : State) : List HeldPush → List HeldPush → State
  | _, [] => s
  | before, p :: after =>
    if before.any (fun q => q.head == p.head) || !s.heldGoes p then s.grantFirst (before ++ [p]) after
    else s.grant before p after

def foldPushGrant (s : State) : State := s.grantFirst [] s.fold.heldPushes

def execFoldPushGrant (s : State) : Host.Outcome State Fault Refusal := .next (whenUp .core foldPushGrant s)

/-- The stale-tail timer of a fold expires (R191, R192); STALE_US of 0 stops it. -/
def foldStale (f : Nat) (s : State) : State :=
  if (s.foldOf f).staleRun && decide (0 < s.rd (F.FLD_F_STALE_STALE_US f)) then
    let s := s.setFold f { s.foldOf f with staleRun := false }
    let s := s.wr (F.FLD_F_STAT_STALE_N f) 1
    s.fire fireFuel (s.slotsOf f F.FLD_NS_STALE_EN 4)
  else s

def execFoldStale (fold : Nat) (s : State) : Host.Outcome State Fault Refusal := .next (whenUp .core (foldStale fold) s)

/-- Empty the selected fold, as steps 1 to 3 of a reset and without a fault (R193, R197). -/
def State.flushFold (s : State) (f : Nat) : State :=
  let n := s.foldWords f + openWords (s.foldOf f)
  let r := s.emptyFold f true
  (r.1.fire fireFuel r.2).bumpN K.FLD_CNT_FLUSH_WORDS n

def execFoldFlush (s : State) : Host.Outcome State Fault Refusal :=
  .next (whenUp .core (fun s => s.flushFold (s.rd F.FLD_SEL_FOLD)) s)

/-- FLOOR restarts from the current word count (R190). -/
def State.floorRst (s : State) (f : Nat) : State := s.wr (F.FLD_F_FLOOR_FLOOR f) (s.foldWords f)

def execFloorRst (s : State) : Host.Outcome State Fault Refusal :=
  .next (whenUp .core (fun s => s.floorRst (s.rd F.FLD_SEL_FOLD)) s)

/-- A sweep pass ends (R194): the cells it covers are free, and the folds reset meanwhile get the next pass. -/
def sweepPassEnd (s : State) : State :=
  let u := s.fold
  if u.sweepBusy then
    { s with fold := { u with
      free := u.free + u.oldNow, oldNow := u.oldNext, oldNext := 0
      sweepBusy := u.sweepFolds != [], sweepFolds := [] } }
  else s

def execSweepPassEnd (s : State) : Host.Outcome State Fault Refusal := .next (whenUp .core sweepPassEnd s)

/-- A write of FLD_INJ (R197). -/
def State.fldInj (s : State) (v : Word) : State :=
  let s := (s.wr F.FLD_INJ_FOLD (bitsOf v 11 0)).wr F.FLD_INJ_TAIL (bitsOf v 12 12)
  if bitOf v 31 then { s with fold := { s.fold with inject := s.fold.inject ++ [(bitsOf v 11 0, bitOf v 12)] } } else s

def execFldInjArm (value : Word) (s : State) : Host.Outcome State Fault Refusal :=
  .next (whenUp .core (fun s => s.fldInj (value ||| 0x80000000#32)) s)

end Sys2Proof.Machine
end

