-- ==== Sys2Proof/Machine/Chains.lean ====
section
/-! DEFINITION. Discrete chains (R305 to R313). -/

namespace Sys2Proof.Machine

/-- A 128-bit mask held in four registers, register i for lines 32 i to 32 i + 31 (R316). -/
def State.mask128 (s : State) (f : Nat → Fld) : Nat :=
  s.rd (f 0) + s.rd (f 1) * 2 ^ 32 + s.rd (f 2) * 2 ^ 64 + s.rd (f 3) * 2 ^ 96

/-- The lines among 128 at which a mask is 1. -/
def linesOf (m : Nat) : List Nat := (List.range 128).filter (fun i => m.testBit i)

/-- Frames run on the chain (R312, R281). -/
def State.dcRuns (s : State) (n : Nat) : Bool := decide (n < 8) && s.bit (F.DC_CTL_EN n) && !s.portsOff

/-- The chain is in its safe state (R312, R342, R363 to R365). -/
def State.chainSafe (s : State) (n : Nat) : Bool := s.portsSafe || s.bit F.TWN_STAT_SAFE || s.degradedSrc (Src.chain n)

/-- No frame may start: the device yields (R348), or a fence has had its safe frame or wants none (R343). -/
def State.dcHeld (s : State) (n : Nat) : Bool :=
  s.yielding || (s.twin.fencing && (!s.bit F.TWN_CTL_SAFE_ON_FENCE ||
    (match (s.dc n).lastStart with | some t => decide (s.twin.fenceAt ≤ t) | none => false)))

/-- A frame starts: it carries the image, or the safe image in the safe state (R306, R308, R312). -/
def State.dcBegin (s : State) (n : Nat) : State :=
  let c := s.dc n
  let safe := s.chainSafe n
  let img := if safe then s.mask128 (F.DC_SAFE_SAFE n) else c.outImg
  let q := safe || s.bit (F.DC_CTL_OUT_EN n)
  let moves := !safe && q
  let s := s.setDc n { c with
    inFrame := true, carried := img, q := q, atFrame := s.frame, atPhase := s.phase, lastStart := some s.ticks
    outNow := if moves then c.outPend else [], outPend := if moves then [] else c.outPend }
  s.emit (.chain n img q)

/-- A frame is due (R307): under PHASE one that comes too soon after the last start, or during a frame, is skipped. -/
def State.dcStart (s : State) (n : Nat) : State :=
  if s.dcRuns n && !s.dcHeld n then
    let c := s.dc n
    let least := max 1000 (130 * s.rd (F.DC_CTL_DIV n))
    let soon := c.inFrame || (match c.lastStart with | some t => decide (s.ticks < t + least) | none => false)
    if s.rd (F.DC_CTL_SCHED n) = 1 then
      if soon then
        ((s.wr (F.DC_STAT_OVERRUN n) 1).bump (K.DC_CNT_OVERRUN n)).statAdd (0xBD0 + 0x10 * n + 8) 1
          |>.raise Code.DC_OVERRUN (Src.chain n) []
      else s.dcBegin n
    else if c.inFrame then s else s.dcBegin n
  else s

def execDcFrameStart (chain : Nat) (s : State) : Host.Outcome State Fault Refusal :=
  .next (whenUp .edge (fun s => s.dcStart chain) s)

/-- Readback of one line that has become unequal (R309). -/
def State.dcMismatch (s : State) (n line : Nat) : State :=
  let c := s.dc n
  let expected := match c.latched with | some l => b2n (l.testBit line) | none => 0
  let k := F.DC_MISM_MISM n (line / 32)
  let s := s.setReg k.key (s.reg k.key ||| BitVec.ofNat 32 (2 ^ (line % 32)))
  let s := ((s.wr (F.DC_STAT_MISM n) 1).bump (K.DC_CNT_MISM n)).statAdd (0xBD0 + 0x10 * n + 4) 1
  s.raise Code.DC_MISMATCH (Src.chain n) [n * 2 ^ 16 + line * 2 ^ 8 + expected, c.atFrame / 2 ^ 32, c.atFrame, c.atPhase]

/-- The comparison of a frame with what the previous frame latched (R309), and the stores it proves (R152). -/
def State.dcReadback (s : State) (n din : Nat) : State :=
  let c := s.dc n
  match c.latched with
  | none => s
  | some l =>
    let mask := s.mask128 (F.DC_OUTMASK_OUT n)
    let bad := (din ^^^ l) &&& mask
    let fresh := linesOf (bad &&& (bad ^^^ (bad &&& c.unequal)))
    let s := s.setDc n { c with unequal := bad, outSent := [] }
    let s := fresh.foldl (fun s i => s.dcMismatch n i) s
    c.outSent.foldl (fun s x => s.confirm (decide (bad &&& x.2 = 0)) x.1) s

/-- The value that the last `k` scans of a line agree on. -/
def scanAgree (scans : List (Nat × Nat × Nat)) (k line : Nat) : Option Bool :=
  let xs := (scans.take k).map (fun x => x.1.testBit line)
  if xs.length = k then
    (match xs with
     | [] => none
     | b :: bs => if bs.all (· == b) then some b else none)
  else none

/-- The edge stamp of a line (R311). -/
def stampWord (old frame phase : Nat) : Nat :=
  (frame % 65536) * 2 ^ 48 + ((nbits old 47 40 + 1) % 256) * 2 ^ 40 + phase % 2 ^ 32

def zeroNat (_ : Nat) : Nat := 0

/-- Debouncing and the edge time-stamps (R310, R311). -/
def State.dcScan (s : State) (n din : Nat) : State :=
  let c := s.dc n
  let scans := (((din, c.atFrame, c.atPhase) : Nat × Nat × Nat) :: c.scans).take 16
  let k := s.rd (F.DC_CTL_DEB n) + 1
  let first := getAt (0, 0, 0) scans (k - 1)
  let rises := (List.range 128).filter (fun i => !c.inImg.testBit i && scanAgree scans k i == some true)
  let falls := (List.range 128).filter (fun i => c.inImg.testBit i && scanAgree scans k i == some false)
  let img := falls.foldl (fun m i => m - 2 ^ i) (rises.foldl (fun m i => m + 2 ^ i) c.inImg)
  let stamp := fun (t : Table Nat) (key : Nat) => tput zeroNat t key (stampWord (tget zeroNat t key) first.2.1 first.2.2)
  let stamps := falls.foldl (fun t i => stamp t (2 * i + 1)) (rises.foldl (fun t i => stamp t (2 * i)) c.stamps)
  let s := s.setDc n { c with scans := scans, inImg := img, stamps := stamps }
  let s := s.statAdd (0xBD0 + 0x10 * n + 12) (rises.length + falls.length)
  let er := s.mask128 (F.DC_EDGER_RISE n)
  let ef := s.mask128 (F.DC_EDGEF_FALL n)
  if s.bit (F.DC_CTL_EV_EN n) && (rises.any (fun i => er.testBit i) || falls.any (fun i => ef.testBit i)) then
    s.event 2 n (s.rd (F.DC_CTL_ROUTE n))
  else s

/-- A frame ends (R306, R309 to R311). -/
def dcFrameEnd (n din : Nat) (s : State) : State :=
  let c := s.dc n
  if s.dcRuns n ∧ c.inFrame = true then
    let din := din % 2 ^ 128
    let s := (s.bump (K.DC_CNT_SCAN n)).statAdd (0xBD0 + 0x10 * n) 1
    let s := s.dcReadback n din
    let s := s.dcScan n din
    let c := s.dc n
    s.setDc n { c with
      inFrame := false, latched := if c.q then some c.carried else none
      outSent := c.outSent ++ c.outNow, outNow := [] }
  else s

def execDcFrameEnd (chain din : Nat) (s : State) : Host.Outcome State Fault Refusal :=
  .next (whenUp .edge (dcFrameEnd chain din) s)

/-- Output writes that wait end unconfirmed (R312). -/
def State.dcFail (s : State) (n : Nat) : State :=
  let c := s.dc n
  let s := s.setDc n { c with outPend := [], outNow := [], outSent := [] }
  s.confirmAll false ((c.outSent ++ c.outNow ++ c.outPend).map (·.1))

/-- EN goes to 0: the pins go to high impedance and no frame runs (R312). -/
def State.dcStop (s : State) (n : Nat) : State :=
  let s := (s.wr (F.DC_CTL_EN n) 0).dcFail n
  (s.setDc n { s.dc n with inFrame := false }).emit (.chainHigh n)

/-- A record of the output image (R349, R351). -/
def State.mirrorImage (s : State) (n : Nat) : State :=
  if s.mirrors 2 then s.mirror 3 (leBytes 8 n ++ leBytes 16 (s.dc n).outImg) else s

/-- A write to the output image lands whole (R308); the store waits for its readback (R152). -/
def State.dcWrite (s : State) (n at_ who : Nat) (bs : List Byte) : State :=
  let c := s.dc n
  let img := leNum (overlay (leBytes 16 c.outImg) at_ bs)
  let changed := img ^^^ c.outImg
  let s := (s.setDc n { c with outImg := img }).mirrorImage n
  if changed = 0 ∨ who = 0 then s
  else
    let s := (s.setDc n { s.dc n with outPend := (s.dc n).outPend ++ [(who, changed)] }).awaitStore who
    if s.bit (F.DC_CTL_EN n) then s else s.dcFail n

/-- A read of the output image, the input image or the stamp table. -/
def State.dcReadOut (s : State) (n at_ k : Nat) : List Byte := slice (leBytes 16 (s.dc n).outImg) at_ k
def State.dcReadIn (s : State) (n at_ k : Nat) : List Byte := slice (leBytes 16 (s.dc n).inImg) at_ k
def State.dcReadStamp (s : State) (n at_ k : Nat) : List Byte :=
  (List.range k).map (fun i =>
    let a := at_ + i
    getAt 0 (leBytes 8 (tget zeroNat (s.dc n).stamps (a / 8))) (a % 8))

end Sys2Proof.Machine
end

