-- ==== Sys2Proof/Machine/OrdOps.lean ====
section
/-! DEFINITION. Agents, reservations and the lens cache (R143 to R171). -/

namespace Sys2Proof.Machine

/-! ### Agents (R143, R164) -/

def AgentState.idle (_ : Nat) : AgentState := ⟨0, 0, [], none, [], 0, []⟩
/-- An agent by node × 256 + number. -/
def State.agent (s : State) (k : Nat) : AgentState := tget AgentState.idle s.ord.agents k
def State.setAgent (s : State) (k : Nat) (a : AgentState) : State :=
  { s with ord := { s.ord with agents := tput AgentState.idle s.ord.agents k a } }
def agentKey (node agent : Nat) : Nat := node * 256 + agent
def Task.key (t : Task) : Nat := agentKey t.srcNode t.agent

/-- An exception of one of this node's agents (R164). -/
def State.exception (s : State) (k : Nat) : State := s.setAgent k { s.agent k with exc := ((s.agent k).exc + 1) % 256 }

/-! ### Reservations (R162, R163) -/

/-- Store the reservation list with INUSE and PEAK (R176). -/
def State.setClaims (s : State) (cs : List Claim) : State :=
  let s := { s with ord := { s.ord with claims := cs } }
  (s.wr F.CHIP_CLM_STAT_INUSE cs.length).peak F.CHIP_CLM_STAT_PEAK cs.length

/-- A store by agent (node, agent) to bytes [lo, lo + len) of a space loses the reservations of other agents on those granules
(R163). -/
def State.storeSeen (s : State) (node agent space lo len : Nat) : State :=
  if len = 0 then s
  else
    let hit := fun (c : Claim) => c.space == space && decide (lo / 64 ≤ c.key) && decide (c.key ≤ (lo + len - 1) / 64) &&
      !(c.node == node && c.agent == agent)
    if s.ord.claims.any hit then s.setClaims (s.ord.claims.filter (fun c => !hit c)) else s

/-- A reservation is taken (R162): it replaces the agent's earlier one; a full table loses its oldest. -/
def State.takeClaim (s : State) (c : Claim) : State :=
  let rest := s.ord.claims.filter (fun d => !(d.node == c.node && d.agent == c.agent))
  let rest := if 512 ≤ rest.length then rest.drop 1 else rest
  s.setClaims (rest ++ [c])

/-- The reservation of an agent on a granule. -/
def State.claimOf (s : State) (node agent space key : Nat) : Option Claim :=
  s.ord.claims.find? (fun c => c.node == node && c.agent == agent && c.space == space && c.key == key)

/-- The agent's reservation ends. -/
def State.dropClaim (s : State) (node agent : Nat) : State :=
  s.setClaims (s.ord.claims.filter (fun d => !(d.node == node && d.agent == agent)))

/-- The exception count `exc` that a COMMIT carries is the one its CLAIM carried (R164). The packet layout of R251 and R252 gives
the count no field, so for an agent of another node this is a free value (log entry 12). -/
def State.sameExc (s : State) (c : Claim) (exc : Nat) : Bool × State :=
  if c.node = s.nodeId then (decide (exc = c.exc), s)
  else
    let r := s.free 1
    (decide (r.1 = 1#1), r.2)

/-- A COMMIT at its write (R71, R165): the reservation is held and, where the target compares, the bytes are those the CLAIM
returned. -/
def State.judgeCommit (s : State) (node agent space key exc : Nat) (cmp : Option (List Byte)) : Bool × State :=
  match s.claimOf node agent space key with
  | none => (false, s)
  | some c =>
    let r := s.sameExc c exc
    (r.1 && (match cmp with | some bs => bs == c.data | none => true), r.2)

/-- The reservation ends with its COMMIT, which counts (R165). -/
def State.commitEnd (s : State) (node agent : Nat) (ok : Bool) : State :=
  (s.dropClaim node agent).bump (if ok then K.CHIP_CNT_CLM_OK else K.CHIP_CNT_CLM_LOST)

/-- The value an ATOMIC writes over `old`, little-endian values of `n` bytes (R71, R209): 0 FETCH_ADD, 1 SWAP, 2 CMP_SWAP. -/
def atomicNew (sub n old op0 op1 : Nat) : Nat :=
  let m := 2 ^ (8 * n)
  if sub = 0 then (old + op0) % m
  else if sub = 1 then op0 % m
  else if old = op1 % m then op0 % m else old

/-- The bytes an ATOMIC writes, from the bytes read and its 24-byte payload (R253). -/
def atomicBytes (old payload : List Byte) : List Byte :=
  leBytes old.length (atomicNew (getAt 0 payload 0).toNat old.length (leNum old) (leNum (slice payload 8 8))
    (leNum (slice payload 16 8)))

/-! ### Lens cache (R167 to R170) -/

def noLines (_ : Nat) : List LcLine := []
/-- The set of a line: its address bits above 64 bytes, modulo 4,096 (DESIGN CHOICE, log entry 13). -/
def lcSetOf (addr : Nat) : Nat := addr / 64 % 4096
def State.lcSet (s : State) (i : Nat) : List LcLine := tget noLines s.ord.lc i
def State.setLcSet (s : State) (i : Nat) (l : List LcLine) : State :=
  { s with ord := { s.ord with lc := tput noLines s.ord.lc i l } }

/-- Valid lines, as CHIP_LC_STAT shows. -/
def State.lcCount (s : State) : Nat := s.ord.lc.foldl (fun n e => n + e.2.length) 0

/-- Look a line up (R168): its bytes when it serves; a line refused for its age alone counts, unless this look repeats one that
`counted`. -/
def State.lcLook (s : State) (space line ttl : Nat) (counted : Bool) : Option (List Byte) × State :=
  let i := lcSetOf line
  match takeFirst (fun x => x.space == space && x.addr == line) (s.lcSet i) with
  | none => (none, s)
  | some (x, rest) =>
    if s.us - x.filled < ttl then
      let s := if x.bad = some false then s.sramFault 2 i false else s
      (some x.bytes, s.setLcSet i ({ x with bad := none } :: rest))
    else (none, if counted then s else s.bump K.CHIP_CNT_LC_TTL)

/-- Install a filled line, least recently used replaced (R167). -/
def State.lcInstall (s : State) (space line : Nat) (bytes : List Byte) : State :=
  let i := lcSetOf line
  let rest := (s.lcSet i).filter (fun x => !(x.space == space && x.addr == line))
  let r := s.injTake [2] (fun n => n == i)
  r.2.setLcSet i ((⟨space, line, bytes, s.us, r.1.map (fun b => b.2.2)⟩ :: rest).take 8)

/-- A line that VME bytes [lo, lo + len) would be served from and that is uncorrectable (R379): its set. -/
def State.lcBadLine (s : State) (space ttl lo len : Nat) : Option (Nat × Nat) :=
  s.ord.lc.findSome? (fun (e : Nat × List LcLine) => e.2.findSome? (fun x =>
    if x.space == space && rangesMeet x.addr 64 lo len && x.bad == some true && decide (s.us - x.filled < ttl)
    then some (e.1, x.addr) else none))

/-- Invalidate the lines with VME bytes [lo, lo + len) of a space (R169); fills of those lines under way are spoiled (R170).
Answers how many lines were valid. -/
def State.lcDrop (s : State) (space lo len : Nat) : Nat × State :=
  let hit := fun (x : LcLine) => x.space == space && rangesMeet x.addr 64 lo len
  let n : Nat := s.ord.lc.foldl (fun (n : Nat) (e : Nat × List LcLine) => n + (e.2.filter hit).length) 0
  let s := if n = 0 then s
    else { s with ord := { s.ord with lc :=
      (s.ord.lc.map (fun (e : Nat × List LcLine) => (e.1, e.2.filter (fun x => !hit x)))).filter (fun e => !e.2.isEmpty) } }
  let jobs := s.vme.jobs.map (fun (e : Nat × Option VJob) => (e.1, e.2.map (fun j =>
    if j.kind == .fill && j.lens.space == space && rangesMeet j.vaddr 64 lo len then { j with spoiled := true } else j)))
  (n, { s with vme := { s.vme with jobs := jobs } })

/-- Invalidate every line (R169). -/
def State.lcDropAll (s : State) : State :=
  let jobs := s.vme.jobs.map (fun (e : Nat × Option VJob) => (e.1, e.2.map (fun j =>
    if j.kind == .fill then { j with spoiled := true } else j)))
  ({ s with ord := { s.ord with lc := [] }, vme := { s.vme with jobs := jobs } }).bump K.CHIP_CNT_LC_INV_ALL

end Sys2Proof.Machine
end

