-- ==== Sys2Proof/Machine/VmeOps.lean ====
section
/-! DEFINITION. The VME master: tenure, cycles, and what ends them (R56 to R83). -/

namespace Sys2Proof.Machine

/-! ### Jobs -/

def noJob (_ : Nat) : Option VJob := none
/-- The piece a drover runs on the bus. -/
def State.job (s : State) (d : Nat) : Option VJob := tget noJob s.vme.jobs d
def State.setJob (s : State) (d : Nat) (j : Option VJob) : State :=
  { s with vme := { s.vme with jobs := tput noJob s.vme.jobs d j } }

/-- The piece of a local owner. -/
def State.ownerJob (s : State) (o : VOwner) : Option VJob :=
  match o with
  | .drover d => s.job d
  | .pwq => s.vme.pwq.head?.map (·.job)
  | .ih => none

def State.setOwnerJob (s : State) (o : VOwner) (j : VJob) : State :=
  match o with
  | .drover d => s.setJob d (some j)
  | .pwq => match s.vme.pwq with
    | e :: es => { s with vme := { s.vme with pwq := { e with job := j } :: es } }
    | [] => s
  | .ih => s

/-- Container size of a lens (R57). -/
def OutLens.container (l : OutLens) : Nat := containerOf l.prism l.elem (straightC l.width l.burst)

/-- Bytes of a job carried across the prism, either way (R57, R58). -/
def VJob.prism (j : VJob) (bs : List Byte) : List Byte := prismBytes j.lens.container j.vaddr bs

/-- The job writes in its present phase. -/
def VJob.writes (j : VJob) : Bool :=
  match j.kind with
  | .write => true
  | .commit | .atomic => j.wphase
  | _ => false

/-- The bytes of the cycle or beat in progress. -/
def VJob.beatData (j : VJob) (x : Xfer) : List Byte :=
  if j.writes then (if j.wphase then j.wnew else slice j.wdata j.done x.beat) else []

/-- A capture of the VME interface (R374): unit 5 holds the VME address of the failing cycle. -/
def VJob.cap (j : VJob) : CapInfo :=
  let x := j.xfers.headD ⟨.single, j.vaddr, 1, 1⟩
  ⟨5, x.addr + j.beatsDone * x.beat, j.node, j.agent, j.op, (max j.wdata.length 1) - 1, j.cls, (amOf j.lens.am x.kind).1⟩

/-! ### Tenure (R72, R73) -/

/-- Outputs of the VME interface are stopped (R337, R364, R365). -/
def State.vmeSafe (s : State) : Bool := s.flt.safe || s.flt.fencedEdge || s.twin.fencing

/-- Only the posted write engine may begin: the VME group is halted, or a handover runs (R348, R436). -/
def State.onlyQueue (s : State) : Bool := s.halting 0 || s.yielding

/-- Two VME ranges in one space overlap (R68). -/
def PwqEntry.meets (e : PwqEntry) (space lo len : Nat) : Bool :=
  e.job.lens.space == space && rangesMeet e.job.vaddr e.len lo len

/-- A piece overlaps an entry of the queue. -/
def State.queueMeets (s : State) (space lo len : Nat) : Bool := s.vme.pwq.any (fun e => e.meets space lo len)

/-- VME address of a piece (R41). -/
def pieceAddr (l : OutLens) (off : Nat) : Nat := l.vbase + (off - l.fbase)

/-- Offset in the node of the task's request. -/
def Task.off (t : Task) : Nat := faOffset t.addr

/-- Pieces and their lenses overlap an entry of the posted write queue (R68). -/
def State.piecesMeet (s : State) (t : Task) (ps : List Piece) : Bool :=
  ps.any (fun p => s.queueMeets p.lens.space (pieceAddr p.lens (t.off + p.off)) p.len)

/-- A cycle of the job has begun. -/
def VJob.begun (j : VJob) : Bool := j.wphase || decide (0 < j.done + j.beatsDone + j.retries)

/-- A drover's task may not start its first cycle: its VME bytes overlap an entry of the posted write queue (R68). -/
def State.jobHeld (s : State) (d : Nat) : Bool :=
  match s.job d, (s.drover d).exec with
  | some j, some x => !j.begun &&
      ((j.kind == .fill && s.queueMeets j.lens.space j.vaddr 64) || s.piecesMeet x.task x.pieces)
  | _, _ => false

/-- State of an interrupt level. -/
def IhLevel.quiet : IhLevel := ⟨false, false, false, false⟩
def State.ihAt (s : State) (n : Nat) : IhLevel := getAt IhLevel.quiet s.vin.levels n

/-- The highest pending level (R104). -/
def State.ihPending (s : State) : Option Nat :=
  [7, 6, 5, 4, 3, 2, 1].find? (fun n =>
    (s.ihAt n).asserted && !(s.ihAt n).inService && (s.rd F.VME_IH_CTL_LEVEL_EN).testBit (n - 1))

/-- Bytes of a status/ID by IACK_W (R104). -/
def State.iackBytes (s : State) : Nat := match s.rd F.VME_IH_CTL_IACK_W with | 0 => 1 | 1 => 2 | _ => 4

/-- A waiting owner may begin now: a drover whose bytes no queue entry holds back (R68), the interrupt handler while a level is
pending (R104). -/
def State.mayBegin (s : State) (o : VOwner) : Bool :=
  (!s.onlyQueue || o == .pwq) &&
    (match o with
     | .drover d => !s.jobHeld d
     | .pwq => true
     | .ih => s.bit F.VME_CTL_MASTER_EN && s.ihPending.isSome)

/-- Number of a local owner: drovers, then the posted write engine, then the interrupt handler. -/
def VOwner.num : VOwner → Nat
  | .drover d => d
  | .pwq => 64
  | .ih => 65

/-- Precedence of an owner among requests of one EDGE cycle (R72). -/
def VOwner.rank : VOwner → Nat
  | .ih => 0
  | .pwq => 1
  | .drover d => d + 2

/-- EDGE cycle in which an owner last asked for tenure. -/
def State.askedTick (s : State) (o : VOwner) : Nat := tget (fun _ => 0) s.vme.askedAt o.num

/-- An owner joins those that wait for tenure: last, but ahead of those that asked in the same EDGE cycle and rank after it (R72). -/
def State.joinWait (s : State) (o : VOwner) : State :=
  let after := (s.vme.waiting.reverse.takeWhile (fun w => decide (s.askedTick w = s.ticks) && decide (o.rank < w.rank))).length
  let n := s.vme.waiting.length - after
  { s with vme := { s.vme with
    waiting := s.vme.waiting.take n ++ o :: s.vme.waiting.drop n
    askedAt := tput (fun _ => 0) s.vme.askedAt o.num s.ticks } }

/-- BRn* is asserted, or fairness holds it back (R72). -/
def State.askBus (s : State) : State :=
  if s.vme.br then s
  else if s.bit F.VME_CTL_FAIR && getAt false s.vme.brOther (s.rd F.VME_CTL_BR_LEVEL) then
    { s with vme := { s.vme with fairWait := true } }
  else { s with vme := { s.vme with br := true, fairWait := false } }

/-- What a job's first cycle invalidates (R163, R169). Entries of the posted write queue did so as they entered it. -/
def State.firstCycle (s : State) (j : VJob) : State :=
  if (j.kind == .write || j.kind == .commit || j.kind == .atomic) && j.done == 0 && j.retries == 0 && !j.wphase then
    let n := j.xfers.foldl (fun (n : Nat) (x : Xfer) => n + x.beat * x.beats) 0
    let s := (s.lcDrop j.lens.space j.vaddr n).2
    if j.kind == .commit then s else s.storeSeen j.node j.agent j.lens.space j.vaddr n
  else s

/-- BURST_DIS as it stands when a transfer begins (R62): a burst not begun is carried by single cycles, and the piece counts as
degraded (R64). -/
def State.liveCover (s : State) (o : VOwner) (j : VJob) : State :=
  let xs := undoBurst j.lens.width j.xfers
  if s.bit F.VME_CTL_BURST_DIS && decide (j.beatsDone = 0) && xs != j.xfers then
    (if j.degraded then s else s.bump K.VME_CNT_DEGRADE).setOwnerJob o { j with xfers := xs, degraded := true }
  else s

/-- The address phase of a 2eVME or 2eSST transfer carries its beat count, and for 2eSST its rate (R63). -/
def State.addressPhase (s : State) (j : VJob) (x : Xfer) : State :=
  if (x.kind = .e2vme ∨ x.kind = .e2sst) ∧ j.beatsDone = 0 then
    let a := amOf j.lens.am x.kind
    s.emit (.vme2eAddress a.1 a.2 x.addr x.beats (if x.kind = .e2sst then some j.lens.sstRate else none))
  else s

/-- The owner drives its next cycle, beat or phase. -/
def State.beginCycle (s : State) (o : VOwner) : State :=
  match o with
  | .ih =>
    match s.ihPending with
    | some l => ({ s with vme := { s.vme with strobed := true, iackLevel := some l } }).emit (.vmeIack l s.iackBytes)
    | none => s
  | _ => match s.ownerJob o with
    | none => s
    | some j0 =>
      let s := s.liveCover o j0
      match s.ownerJob o with
      | none => s
      | some j => match j.xfers with
        | [] => s
        | x :: _ =>
          let s := if o == .pwq then s else s.firstCycle j
          let s := s.addressPhase j x
          let at_ := x.addr + j.beatsDone * x.beat
          let a := amOf j.lens.am x.kind
          ({ s with vme := { s.vme with strobed := true } }).emit
            (.vmeCycle a.1 a.2 at_ j.writes (cyclePins at_ x.beat) (j.beatData x))

/-- Tenure goes to the next waiting owner, or the bus is requested for it (R72). -/
def State.tenureNext (s : State) : State :=
  match s.vme.owner with
  | some _ => s
  | none =>
    match takeFirst s.mayBegin s.vme.waiting with
    | none => s
    | some (o, rest) =>
      if s.vme.bbsy then ({ s with vme := { s.vme with owner := some o, lastOwner := none, waiting := rest } }).beginCycle o else s.askBus

/-- A local owner needs the bus (R72). -/
def State.requestTenure (s : State) (o : VOwner) : State :=
  if s.vme.owner = some o then s.beginCycle o
  else (s.joinWait o).tenureNext

/-- BBSY* is negated (R73); the tenure counts in the period statistics (R333). -/
def State.dropBus (s : State) : State :=
  let s := if s.vme.bbsy then s.statAdd 0x198 ((s.ticks - s.vme.since) / 100) else s
  { s with vme := { s.vme with bbsy := false, owner := none, lastOwner := none, strobed := false, bclrIn := false, bclrOut := false } }

/-- The device holds the bus, no owner does: keep it or release it (R73). -/
def State.idleBus (s : State) : State :=
  if s.vme.bbsy then
    if s.vme.bclrIn then s.dropBus.tenureNext
    else if s.vme.waiting.any s.mayBegin then s.tenureNext
    else if s.bit F.VME_CTL_RELEASE && !s.vme.brOther.any id then s
    else s.dropBus
  else s.tenureNext

/-- A task boundary of an owner (R73, R125): a drover with a BUS-pinned task waiting keeps tenure. -/
def State.taskBoundary (s : State) (o : VOwner) : State :=
  if s.vme.owner = some o then
    let keep := match o with
      | .drover d => (s.drover d).fold.any (fun t => t.pinwhy == 1)
      | _ => false
    let s := { s with vme := { s.vme with strobed := false } }
    let last := match o with
      | .drover d => some d
      | _ => none
    if keep then s else ({ s with vme := { s.vme with owner := none, lastOwner := last } }).idleBus
  else s

/-- A grant arrives at a level (R72). -/
def State.takeGrant (s : State) (level : Nat) : State :=
  if s.vme.br && decide (level = s.rd F.VME_CTL_BR_LEVEL) && s.vme.waiting.any s.mayBegin then
    ({ s with vme := { s.vme with bbsy := true, since := s.ticks, br := false, fairWait := false } }).tenureNext
  else s.emit (.vmeGrantOut level)

/-! ### How a cycle ends (R67, R71, R76, R78) -/

/-- A job has ended: its owner and status; the job stays with its owner until the owner takes it. -/
abbrev VEnd := Option (VOwner × Nat)

/-- The read phase of an RMW cycle has ended with DTACK* (R71): what the write phase carries. A COMMIT that fails here has lost its
reservation; one that may succeed keeps it until its write phase has ended (R78, R165). -/
def State.rmwRead (s : State) (o : VOwner) (j : VJob) (data : List Byte) : State :=
  let old := j.prism data
  let r : Bool × List Byte × State :=
    if j.kind == .commit then
      let q := s.judgeCommit j.node j.agent j.lens.space (j.vaddr / 64) j.exc (some old)
      (q.1, if q.1 then j.wdata else old, q.2)
    else (true, atomicBytes old j.wdata, s)
  let s := if j.kind == .commit && r.1 then r.2.2.storeSeen j.node j.agent j.lens.space j.vaddr data.length else r.2.2
  let s := if j.kind == .commit && !r.1 then s.dropClaim j.node j.agent else s
  (s.setOwnerJob o { j with rdata := data, wphase := true, wnew := j.prism r.2.1, ok := r.1 }).beginCycle o

/-- DTACK* ends the cycle, beat or phase in progress of a job. -/
def State.cycleDone (s : State) (o : VOwner) (j : VJob) (x : Xfer) (rest : List Xfer) (data : List Byte) : State × VEnd :=
  if x.kind == .rmw then
    if j.wphase then
      (((s.bump K.VME_CNT_SINGLE).setOwnerJob o { j with done := x.beat, xfers := [] }), some (o, St.OK))
    else if j.cut then (s.setOwnerJob o { j with xfers := [] }, some (o, St.RETRY_UNSAFE))
    else (s.rmwRead o j data, none)
  else
    let j := { j with done := j.done + x.beat, rdata := if j.writes then j.rdata else j.rdata ++ data, beatsDone := j.beatsDone + 1 }
    if x.beats ≤ j.beatsDone then
      let s := s.bump (if x.kind == .single then K.VME_CNT_SINGLE else K.VME_CNT_BURST)
      let j := { j with beatsDone := 0, xfers := rest }
      let s := s.setOwnerJob o j
      if rest = [] then (s, some (o, St.OK))
      else if j.cut then (s, some (o, St.RETRY_UNSAFE))
      else (s.beginCycle o, none)
    else
      let s := s.setOwnerJob o j
      if j.cut then (s, some (o, St.RETRY_UNSAFE)) else (s.beginCycle o, none)

/-- The fabric bytes a job has read so far, from its first. -/
def VJob.fabric (j : VJob) : List Byte := j.prism j.rdata

/-- The bus is left for GAP_US before the job goes on (R65, R78). -/
def State.leaveGap (s : State) (o : VOwner) (j : VJob) : State :=
  let rest := match j.xfers with
    | x :: r => { x with addr := x.addr + j.beatsDone * x.beat, beats := x.beats - j.beatsDone } :: r
    | [] => []
  let s := s.setOwnerJob o { j with xfers := rest, beatsDone := 0, wphase := false, retries := j.retries }
  let s := s.dropBus
  ({ s with vme := { s.vme with gap := s.vme.gap ++ [o] } }).tenureNext

/-- A retry counts against MAX (R78): the job ends, or its owner waits for its gap. -/
def State.retryJob (s : State) (o : VOwner) (j : VJob) : State × VEnd :=
  let s := s.bump K.VME_CNT_RETRY
  if j.cut then (s, some (o, St.RETRY_UNSAFE))
  else if j.lens.retryMax ≤ j.retries then
    (s.raiseCap Code.VME_RETRY_OUT Src.vmeMaster [] j.cap, some (o, St.VME_RETRY))
  else (s.leaveGap o { j with retries := j.retries + 1 }, none)

/-- An error ends the job in progress with a status and a fault. -/
def State.failJob (s : State) (o : VOwner) (status code : Nat) : State × VEnd :=
  match s.ownerJob o with
  | some j => (s.raiseCap code Src.vmeMaster [] j.cap, some (o, if j.cut then St.RETRY_UNSAFE else status))
  | none => (s, some (o, status))

/-- A termination of the device's cycle is taken; `berr` says that it is BERR* or RETRY* (R79). -/
def State.tookEnd (s : State) (berr : Bool) : State := { s with vme := { s.vme with endAt := some (s.ticks, berr) } }

/-- A termination was taken in this EDGE cycle: an expiry in it takes no action (R79). -/
def State.endedNow (s : State) : Bool := match s.vme.endAt with | some (t, _) => decide (t = s.ticks) | none => false

/-- BERR* or RETRY* was taken in this EDGE cycle: DTACK* sampled with it is nothing more (R78, R79). -/
def State.berrNow (s : State) : Bool := s.endedNow && (match s.vme.endAt with | some (_, b) => b | none => false)

/-- A cycle whose job was discarded has ended: the bus is kept or released (R73). -/
def State.cycleLost (s : State) : State := ({ s with vme := { s.vme with owner := none, strobed := false } }).idleBus

/-- The owner whose cycle awaits termination. -/
def State.strobing (s : State) : Option VOwner := if s.vme.strobed then s.vme.owner else none

/-- Remove an owner from every wait for the bus. -/
def State.unwait (s : State) (o : VOwner) : State :=
  let s := { s with vme := { s.vme with waiting := s.vme.waiting.filter (· != o), gap := s.vme.gap.filter (· != o) } }
  if s.vme.waiting = [] then { s with vme := { s.vme with br := false, fairWait := false } } else s

/-! ### The posted write queue (R67 to R69, R80) -/

/-- The queue changes: DEPTH and PEAK (R84). -/
def State.setPwq (s : State) (q : List PwqEntry) : State :=
  let s := { s with vme := { s.vme with pwq := q } }
  (s.wr F.VME_PWQ_DEPTH q.length).peak F.VME_PWQ_PEAK q.length

/-- The engine takes up the oldest entry when it is idle. -/
def State.startQueue (s : State) : State :=
  if s.vme.pwq = [] ∨ s.vme.owner = some .pwq ∨ s.vme.waiting.contains .pwq ∨ s.vme.gap.contains .pwq then s
  else s.requestTenure .pwq

/-- A piece enters the queue (R67, R169): it has its effects on cache and reservations, and awaits its confirmation (R152). -/
def State.enterQueue (s : State) (j : VJob) : State :=
  let n := j.wdata.length
  let s := (s.lcDrop j.lens.space j.vaddr n).2
  let s := s.storeSeen j.node j.agent j.lens.space j.vaddr n
  let s := s.awaitStore (agentKey j.node j.agent + 1)
  (s.setPwq (s.vme.pwq ++ [⟨j, n⟩])).startQueue

/-- The oldest entry ends (R68, R80). -/
def State.endEntry (s : State) (status : Nat) : State :=
  match s.vme.pwq with
  | [] => s
  | e :: es =>
    let s := s.setPwq es
    let ok := decide (status = St.OK)
    let lost := e.len - e.job.done
    let s := if ok then s
      else (s.bumpN K.VME_CNT_LOST_BYTES lost).raise Code.VME_POSTED_LOST Src.vmeMaster
        [e.job.node * 256 + e.job.agent, e.job.cap.addr % 2 ^ 32, e.job.cap.addr / 2 ^ 32, lost]
    s.confirm ok (agentKey e.job.node e.job.agent + 1)

/-- The owner of a cycle whose job is gone: drover 64 stands for none. -/
def VOwner.nobody : VOwner := .drover 64

/-- Discard the queue (R173, R174, R343, R365): entries and bytes lost. A cycle in progress runs to its termination for nobody. -/
def State.discardQueue (s : State) : Nat × Nat × State :=
  let q := s.vme.pwq
  let bytes := q.foldl (fun (n : Nat) (e : PwqEntry) => n + (e.len - e.job.done)) 0
  let s := s.setPwq []
  let s := s.unwait .pwq
  let s := if s.vme.owner = some .pwq then
      { s with vme := { s.vme with owner := if s.vme.strobed then some VOwner.nobody else none } } else s
  let s := s.confirmAll false (q.map (fun e => agentKey e.job.node e.job.agent + 1))
  (q.length, bytes, s)

end Sys2Proof.Machine
end

