-- ==== Sys2Proof/Machine/Issue.lean ====
section
/-! DEFINITION. What an agent issues and when (R29, R30, R143 to R148), and the combining buffer (R155 to R159). -/

namespace Sys2Proof.Machine

/-! ### Accesses (R144 to R146) -/

/-- Stores: gate kind EFFECT (R144). -/
def isStoreOp (op : Nat) : Bool := decide (gateKind op = 0)
/-- Loads: gate kind LOAD; COMMIT and ATOMIC are both. -/
def isLoadOp (op : Nat) : Bool := decide (gateKind op = 1) || op == 0x11 || op == 0x12

/-- An access as R146 judges it. -/
structure Access where
  node : Nat
  cls : Nat
  addr : Nat
  len : Nat
  store : Bool
  load : Bool

/-- An earlier access in another stream overlaps. -/
def Access.crosses (a : Access) (x : OpenAccess) : Bool :=
  rangesMeet x.addr x.len a.addr a.len && !(x.node == a.node && x.cls == a.cls)

/-- The agent may issue the access now (R146, R436). -/
def State.mayIssue (s : State) (k : Nat) (a : Access) : Bool :=
  let g := s.agent k
  let stores := g.accesses.filter (fun x => x.store && x.rsp.isNone)
  let loads := g.accesses.filter (fun x => x.load && x.rsp.isNone)
  !s.halting 1 &&
    (!a.store || ((g.lastStore == none || g.lastStore == some (a.node, a.cls) || stores == []) && !loads.any a.crosses)) &&
    (!a.load || !stores.any a.crosses)

/-- What an issue attempt came to: the state; it must wait; or the status with which it ended at once. -/
structure Attempt where
  st : State
  waits : Bool
  ended : Option Nat

/-- A store that ends at its originator without being sent (R151). -/
def State.storeUnsent (s : State) (k : Nat) : State := s.setAgent k { s.agent k with unsent := (s.agent k).unsent + 1 }

/-- An agent issues a request (R29, R30, R146, R151, R255). -/
def State.issueAccess (s : State) (k : Nat) (a : Access) (p : Packet) (owner : TagOwner) (host : Bool) : Attempt :=
  match originFault p.op p.addr a.len with
  | some code =>
    let s := s.originRefuse code p.op p.addr a.len p.agent p.cls host
    ⟨if a.store then s.storeUnsent k else s, false, some St.ADDR_ERROR⟩
  | none =>
    if s.mayIssue k a then
      let g := s.agent k
      let r := s.issueRec p { TagRec.mk' p a.len owner with key := k, acc := some g.nextId, exc := g.exc }
      match r.ended with
      | some st => ⟨if a.store then r.st.storeUnsent k else r.st, false, some st⟩
      | none =>
        let s := r.st
        let g := s.agent k
        let s := s.setAgent k { g with
          nextId := g.nextId + 1
          accesses := g.accesses ++ [⟨g.nextId, a.node, a.cls, a.addr, a.len, a.store, a.load, none⟩]
          lastStore := if a.store then some (a.node, a.cls) else g.lastStore
          doneMap := if a.store && a.node != bcastNode && !g.doneMap.contains a.node then g.doneMap ++ [a.node] else g.doneMap }
        ⟨s, false, none⟩
    else ⟨s, true, none⟩

/-- A REQUEST packet of an agent of this node (R146: with the ordered mark). A set-up access and a broadcast travel in class CTRL
(R25, R264). -/
def State.request (s : State) (agent cls op addr len : Nat) (payload : List Byte) : Packet :=
  ⟨mkW0 (faNode addr) s.nodeId 0 (classOf cls addr) Kind.REQUEST true 0 agent op (len - 1),
    BitVec.ofNat 64 addr, payload⟩

/-- An agent issues a READ, WRITE, CLAIM, COMMIT or ATOMIC of `len` bytes. -/
def State.issueOp (s : State) (k cls op addr len : Nat) (payload : List Byte) (owner : TagOwner) (host : Bool) : Attempt :=
  let p := s.request (k % 256) cls op addr len payload
  s.issueAccess k ⟨p.dst, p.cls, addr, len, isStoreOp op, isLoadOp op⟩ p owner host

/-- The response to an access has come (R146, R148): the access keeps it until it is delivered. -/
def State.answered (s : State) (k id : Nat) (r : TaskResult) : State :=
  let g := s.agent k
  s.setAgent k { g with accesses := g.accesses.map (fun x => if x.id = id then { x with rsp := some r } else x) }

/-- The next access whose response is delivered: the first of its class, answered (R148). -/
def nextDelivery (xs : List OpenAccess) : Option OpenAccess :=
  [0, 1, 2].findSome? (fun c =>
    match xs.find? (fun x => x.cls == c) with
    | some x => if x.rsp.isSome then some x else none
    | none => none)

/-! ### The combining buffer (R155 to R158) -/

/-- The buffer's lines change: DEPTH and PEAK (R176). -/
def State.setWc (s : State) (w : List WcLine) : State :=
  let s := { s with ord := { s.ord with wc := w } }
  (s.wr F.CHIP_WC_STAT_DEPTH w.length).peak F.CHIP_WC_STAT_PEAK w.length

/-- Contiguous runs of valid bytes: offset and bytes, ascending. -/
def runsOf : Nat → List (Option Byte) → List (Nat × List Byte)
  | _, [] => []
  | at_, none :: t => runsOf (at_ + 1) t
  | at_, some b :: t =>
    match runsOf (at_ + 1) t with
    | (o, bs) :: r => if o = at_ + 1 then (at_, b :: bs) :: r else (at_, [b]) :: (o, bs) :: r
    | [] => [(at_, [b])]

/-- Bytes of a line that are valid. -/
def WcLine.count (l : WcLine) : Nat := (l.bytes.filter Option.isSome).length

/-- Agents whose bytes a line holds, but for the one that wrote last, under which its flush writes go. -/
def WcLine.others (l : WcLine) : List Nat := l.writers.filter (fun k => k != l.last)

/-- A flush write of a line has ended (R156, R158): lost bytes count, and the line is free with its last write. The writes are earlier
accesses of every agent whose bytes the line held (R150), so one that is lost counts against each of them at their DONE (DEDUCED, log
entry 56). -/
def State.flushEnded (s : State) (addr len status bytesDone : Nat) : State :=
  match s.ord.wc.find? (fun l => l.flushing && l.writes.contains (addr, len)) with
  | none => s
  | some l =>
    let lost := len - bytesDone
    let s := if status = St.OK then s
      else
        let s := s.bumpN K.CHIP_CNT_WC_LOST_BYTES lost
        let s := s.raise Code.WC_FLUSH_LOST Src.combining [l.last, (addr + bytesDone) % 2 ^ 32, lost, status]
        let s := l.others.foldl State.storeUnsent s
        l.writers.foldl (fun s k => s.setAgent k { s.agent k with flushLost := (s.agent k).flushLost ++ [(l.base, lost)] }) s
    let l' := { l with writes := l.writes.erase (addr, len) }
    s.setWc (if l'.writes = [] then s.ord.wc.erase l else s.ord.wc.map (fun x => if x = l then l' else x))

/-- The agent's DONE is to ask a node (R151). -/
def State.noteNode (s : State) (node k : Nat) : State :=
  let g := s.agent k
  s.setAgent k { g with doneMap := if g.doneMap.contains node then g.doneMap else g.doneMap ++ [node] }

/-- Flush a line (R156): one WRITE for each run of valid bytes, in class BULK, unordered, under the agent that wrote last. It counts as
an access of every agent whose bytes it carries (R150). -/
def State.flushLine (s : State) (l : WcLine) : State :=
  if l.flushing then s
  else
    let runs := runsOf 0 l.bytes
    let l' := { l with flushing := true, writes := runs.map (fun r => (l.base + r.1, r.2.length)) }
    let s := (s.setWc (s.ord.wc.map (fun x => if x = l then l' else x))).bump K.CHIP_CNT_WC_FLUSH
    runs.foldl (fun (s : State) r =>
      let a := l.base + r.1
      let n := r.2.length
      let p : Packet := ⟨mkW0 (faNode a) s.nodeId 0 2 Kind.REQUEST false 0 (l.last % 256) 0x02 (n - 1), BitVec.ofNat 64 a, r.2⟩
      let q := s.issueRec p { TagRec.mk' p n .flush with key := l.last }
      match q.ended with
      | some st => (q.st.storeUnsent l.last).flushEnded a n st 0
      | none => (l.last :: l.others).foldl (State.noteNode · p.dst) q.st) s

/-- Flush every line that satisfies `p`. -/
def State.flushWhere (s : State) (p : WcLine → Bool) : State :=
  (s.ord.wc.filter (fun l => p l && !l.flushing)).foldl (fun s l => s.flushLine l) s

/-- Lines the agent wrote into are still in the buffer. -/
def State.linesOfAgent (s : State) (k : Nat) (p : WcLine → Bool) : List WcLine :=
  s.ord.wc.filter (fun l => l.writers.contains k && p l)

/-- WRITE_NT is combined now (R159, R174). -/
def State.combining (s : State) : Bool := s.bit F.CHIP_WC_CTL_EN && decide (s.rd F.CHIP_PF_STAT_STATE = 0)

/-- Lay bytes of one line into the buffer; none when no line is free (R155, R156). -/
def State.mergeLine (s : State) (k addr : Nat) (bs : List Byte) : Option State :=
  let base := addr - addr % 64
  let put := fun (l : WcLine) =>
    { l with
      bytes := (List.range 64).map (fun i =>
        if addr % 64 ≤ i ∧ i < addr % 64 + bs.length then some (getAt 0 bs (i - addr % 64)) else getAt none l.bytes i)
      writers := if l.writers.contains k then l.writers else l.writers ++ [k]
      last := k }
  let after := fun (l : WcLine) (s : State) => if l.count = 64 then s.flushLine l else s
  match s.ord.wc.find? (fun l => l.base == base && !l.flushing) with
  | some l => some (after (put l) (s.setWc (s.ord.wc.map (fun x => if x = l then put l else x))))
  | none =>
    if s.ord.wc.length < s.rd F.CHIP_WC_CTL_LINES then
      let l := put ⟨base, List.replicate 64 none, [], k, false, []⟩
      some (after l (s.setWc (s.ord.wc ++ [l])))
    else none

/-- Flush the line with the oldest first byte to make room (R156); while it flushes, that room is on its way. -/
def State.makeRoom (s : State) : State :=
  match s.ord.wc with
  | l :: _ => s.flushLine l
  | [] => s

/-- Merge bytes line by line; answers how many went in. `fuel` bounds the number of lines. -/
def State.mergeBytes : Nat → Nat → Nat → List Byte → State → Nat × State
  | 0, _, _, _, s => (0, s)
  | n + 1, k, addr, bs, s =>
    if bs = [] then (0, s)
    else
      let m := min bs.length (64 - addr % 64)
      match s.mergeLine k addr (bs.take m) with
      | some s =>
        let r := State.mergeBytes n k (addr + m) (bs.drop m) s
        (m + r.1, r.2)
      | none =>
        -- a line is flushed; its writes may all have ended at once
        let s := s.makeRoom
        match s.mergeLine k addr (bs.take m) with
        | some s =>
          let r := State.mergeBytes n k (addr + m) (bs.drop m) s
          (m + r.1, r.2)
        | none => (0, s)

end Sys2Proof.Machine
end

