-- ==== Sys2Proof/Machine/Pieces.lean ====
section
/-! DEFINITION. A drover's request in outbound lens space: pieces, lens cache, posted writes, RMW cycles (R56 to R75, R161 to R170). -/

namespace Sys2Proof.Machine

/-! ### Ending a task (R135, R152) -/

/-- The task in execution at a drover. -/
def State.execOf (s : State) (d : Nat) : Option Exec := (s.drover d).exec
def State.setExec (s : State) (d : Nat) (x : Exec) : State := s.setDrover d { s.drover d with exec := some x }

/-- A store of the requester ended in error (R152): COMMITs that lost their reservation count as confirmed. -/
def storeBad (op status : Nat) : Bool :=
  isStoreOp op && op != 0x7F && status != St.OK && status != St.LATE && status != St.CLAIM_LOST

/-- End the task of drover `d` at the home node of its access. -/
def State.finishTask (s : State) (d status bytesDone : Nat) (payload : List Byte) : State :=
  match s.execOf d with
  | none => s
  | some x =>
    let s := if x.task.desc = [] ∧ x.task.dir = false ∧ storeBad x.task.op status = true then
        s.storeFailed x.task.srcNode x.task.agent else s
    s.endTask d status bytesDone payload

/-- The drover no longer waits for space in the posted write queue (R69). -/
def State.unlist (s : State) (d : Nat) : State := { s with vme := { s.vme with pwqWait := s.vme.pwqWait.filter (· != d) } }

/-- End a request in outbound lens space: the lens cache counts a READ (R168), and the drover is at a task boundary (R73). -/
def State.vmeEnd (s : State) (d status bytesDone : Nat) (payload : List Byte) : State :=
  match s.execOf d with
  | none => s
  | some x =>
    let s := if x.aux ≠ 0 then s.bump (if x.missed then K.CHIP_CNT_LC_MISS else K.CHIP_CNT_LC_HIT) else s
    let s := (s.setJob d none).unlist d
    let s := s.setExec d { x with resolved := [], aux := 0 }
    (s.finishTask d status bytesDone payload).taskBoundary (.drover d)

/-! ### Pieces -/

/-- A piece cannot use the bus (R75, R337, R364, R365): the fault to raise, if any. Where MASTER_EN is 0 beside another cause, the
other cause decides the fault (DESIGN CHOICE, log entry 36). -/
def State.busRefused (s : State) : Option (Option Nat) :=
  if !s.drives || s.twin.fencing then some (some Code.TWN_NOT_HOLDER)
  else if s.vmeSafe then some none
  else if !s.bit F.VME_CTL_MASTER_EN then some (some Code.VME_MASTER_OFF)
  else none

/-- A capture of the outbound lens unit for a task (R374). -/
def Task.lensCap (t : Task) : CapInfo := ⟨3, t.addr, t.srcNode, t.agent, t.op, t.lenm1, t.pclass, 0⟩

/-- A job for part of a task's work. -/
def Task.mkJob (t : Task) (kind : JobKind) (lensNo : Nat) (l : OutLens) (faddr vaddr : Nat) (xfers : List Xfer)
    (wdata : List Byte) : VJob :=
  { kind := kind, lensNo := lensNo, lens := l, faddr := faddr, node := t.srcNode, agent := t.agent, op := t.op, cls := t.pclass
    vaddr := vaddr, xfers := xfers, beatsDone := 0, wdata := wdata, rdata := [], wphase := false, done := 0, retries := 0
    spoiled := false, wnew := [], ok := true, cut := false, degraded := false, exc := t.exc }

/-- A piece whose cover is degraded counts (R64), and its job knows it. -/
def State.countDegraded (s : State) (deg : Bool) : State := if deg then s.bump K.VME_CNT_DEGRADE else s

/-- Give a job to the bus (R72). -/
def State.startJob (s : State) (d : Nat) (j : VJob) : State :=
  match s.execOf d with
  | none => s
  | some x => ((s.setExec d { x with phase := .bus }).setJob d (some j)).requestTenure (.drover d)

/-- A drover that must wait while it holds tenure passes it to the posted write engine (R125). -/
def State.passTenure (s : State) (d : Nat) : State :=
  if s.vme.owner = some (.drover d) then
    let s := { s with vme := { s.vme with owner := none, strobed := false } }
    if s.vme.waiting.contains VOwner.pwq then
      ({ s with vme := { s.vme with owner := some .pwq, lastOwner := none, waiting := s.vme.waiting.filter (fun o => o != VOwner.pwq) } }).beginCycle .pwq
    else s.idleBus
  else s

/-- The drover waits for the posted write queue (R68, R69). -/
def State.waitQueue (s : State) (d : Nat) : State :=
  match s.execOf d with
  | none => s
  | some x => (s.setExec d { x with phase := .pwqWait }).passTenure d

/-- Lens cache lines for the rest of a piece: bytes gathered in VME order, or the line that must be filled (R66, R168). `counted`
says that the first line has been looked up before. -/
def State.gatherLines (space ttl va len : Nat) : Nat → Bool → List Byte → State → List Byte × Option Nat × State
  | 0, _, part, s => (part, none, s)
  | n + 1, counted, part, s =>
    if len ≤ part.length then (part, none, s)
    else
      let a := va + part.length
      let line := a - a % 64
      match s.lcLook space line ttl counted with
      | (some bs, s) => State.gatherLines space ttl va len n false (part ++ slice bs (a % 64) (min (64 - a % 64) (len - part.length))) s
      | (none, s) => (part, some line, s)

/-- The next piece of drover `d`'s request; `fuel` bounds the pieces done without the bus. -/
def State.nextPiece : Nat → Nat → State → State
  | 0, _, s => s
  | n + 1, d, s =>
    match s.execOf d with
    | none => s
    | some x =>
      let t := x.task
      match x.pieces with
      | [] => s.vmeEnd d St.OK x.done (if t.op = 0x01 then x.buf else [])
      | p :: rest =>
        let l := p.lens
        let va := pieceAddr l (t.off + p.off)
        if s.lensBad t.bank p.lensNo then
          (s.raiseCap Code.LNS_PARITY (Src.lnso p.lensNo) [] t.lensCap).vmeEnd d St.LENS_FAULT x.done []
        else
        let dis := s.bit F.VME_CTL_BURST_DIS
        let refuse : State → State := fun s =>
          match s.busRefused with
          | some (some code) => (s.raiseCap code Src.vmeMaster []
              ⟨5, va, t.srcNode, t.agent, t.op, t.lenm1, t.pclass, l.am⟩).vmeEnd d St.VME_ARB_TIMEOUT x.done []
          | _ => s.vmeEnd d St.VME_ARB_TIMEOUT x.done []
        if t.op = 0x01 then
          if s.bit F.CHIP_LC_CTL_EN && l.cache then
            match if s.drives then s.lcBadLine l.space l.ttl va p.len else none with
            | some (i, line) =>
              let s := (s.lcDrop l.space line 64).2.sramFault 2 i true
              (s.setExec d { x with missed := true, aux := 1 }).vmeEnd d St.MEM_UE x.done []
            | none =>
            let g := if s.drives then State.gatherLines l.space l.ttl va p.len 8 (x.aux == 2) x.part s
              else (x.part, some (va + x.part.length - (va + x.part.length) % 64), s)
            match g.2.1 with
            | none =>
              let x := { x with
                pieces := rest, done := x.done + p.len, buf := x.buf ++ prismBytes l.container va g.1, part := [], aux := 1 }
              (g.2.2.setExec d x).nextPiece n d
            | some line =>
              -- `aux` 2: this line's look has counted, should the read wait and come back to it
              let s := g.2.2.setExec d { x with part := g.1, missed := true, aux := 2 }
              if s.busRefused ≠ none then refuse s
              else if s.queueMeets l.space line 64 ∨ s.piecesMeet t x.pieces then s.waitQueue d
              else
                let deg := pieceDegraded l.burst l.width dis line 64
                (s.countDegraded deg).startJob d { t.mkJob .fill p.lensNo l (faMake s.nodeId (line - l.vbase + l.fbase)) line
                  (coverPiece l.burst l.width dis line 64) [] with degraded := deg }
          else if s.busRefused ≠ none then refuse s
          else if s.piecesMeet t x.pieces then s.waitQueue d
          else
            let deg := pieceDegraded l.burst l.width dis va p.len
            (s.countDegraded deg).startJob d
              { t.mkJob .read p.lensNo l (t.addr + p.off) va (coverPiece l.burst l.width dis va p.len) [] with degraded := deg }
        else
          if s.busRefused ≠ none then refuse s
          else
            let bytes := prismBytes l.container va (slice x.buf p.off p.len)
            let deg := pieceDegraded l.burst l.width dis va p.len
            let j := { t.mkJob .write p.lensNo l (t.addr + p.off) va (coverPiece l.burst l.width dis va p.len) bytes with
              degraded := deg }
            if l.posted ∧ s.rd F.CHIP_PF_STAT_STATE = 0 then
              -- in the order of arrival among waiting pieces (R69)
              if (s.vme.pwqWait = [] ∨ s.vme.pwqWait.head? = some d) ∧ s.vme.pwq.length < s.rd F.VME_PWQ_LIMIT then
                ((((s.unlist d).countDegraded deg).enterQueue j).setExec d { x with pieces := rest, done := x.done + p.len }).nextPiece n d
              else if s.vme.pwqWait.contains d then s.waitQueue d
              else ({ s with vme := { s.vme with pwqWait := s.vme.pwqWait ++ [d] } }).waitQueue d
            else
              let s := s.unlist d
              if s.piecesMeet t x.pieces then s.waitQueue d else (s.countDegraded deg).startJob d j

/-- Go on with a drover's request: two pieces at most, and one more turn to end it. -/
def State.goPieces (s : State) (d : Nat) : State := s.nextPiece 4 d

/-- A CLAIM, COMMIT or ATOMIC in outbound lens space (R70, R71). Where the width is bad and the lens entry has a check-bit error, the
width ends it (DESIGN CHOICE, log entry 29). -/
def State.rmwPiece (s : State) (d : Nat) (x : Exec) : State :=
  let t := x.task
  match x.pieces with
  | [p] =>
    let l := p.lens
    let va := pieceAddr l t.off
    let n := t.lenm1 + 1
    if !((n = 1 ∨ n = 2 ∨ n = 4) && va % n == 0 && decide (n ≤ singleWidth l.width)) then
      (s.raiseCap Code.VME_ATOMIC_WIDTH Src.vmeMaster [] ⟨5, va, t.srcNode, t.agent, t.op, t.lenm1, t.pclass, l.am⟩).vmeEnd d
        St.ATOMIC_WIDTH 0 []
    else if s.lensBad t.bank p.lensNo then
      (s.raiseCap Code.LNS_PARITY (Src.lnso p.lensNo) [] t.lensCap).vmeEnd d St.LENS_FAULT 0 []
    else
    match s.busRefused with
    | some (some code) => (s.raiseCap code Src.vmeMaster []
        ⟨5, va, t.srcNode, t.agent, t.op, t.lenm1, t.pclass, l.am⟩).vmeEnd d St.VME_ARB_TIMEOUT 0 []
    | some none => s.vmeEnd d St.VME_ARB_TIMEOUT 0 []
    | none =>
      if s.queueMeets l.space va n then s.waitQueue d
      else if t.op = 0x10 then s.startJob d (t.mkJob .claim p.lensNo l t.addr va [⟨.single, va, n, 1⟩] [])
      else s.startJob d (t.mkJob (if t.op = 0x11 then .commit else .atomic) p.lensNo l t.addr va [⟨.rmw, va, n, 1⟩] x.buf)
  | _ =>
    (s.raiseCap Code.VME_ATOMIC_WIDTH Src.vmeMaster [] ⟨5, t.off, t.srcNode, t.agent, t.op, t.lenm1, t.pclass, 0⟩).vmeEnd d
      St.ATOMIC_WIDTH 0 []

/-- Begin, or go on after a wait for the posted write queue. -/
def State.goVme (s : State) (d : Nat) : State :=
  match s.execOf d with
  | none => s
  | some x => if x.task.op = 0x01 ∨ x.task.op = 0x02 ∨ x.task.op = 0x03 then s.goPieces d else s.rmwPiece d x

/-- Begin a request in outbound lens space (R45, R56): its lenses are resolved under the bank it carries, and it goes on under those
settings to its end (R54, R55). None of it is performed when a byte lies in no enabled lens (R37). -/
def State.startVme (s : State) (d : Nat) : State :=
  match s.execOf d with
  | none => s
  | some x =>
    let t := x.task
    match s.pieces t.bank t.off (t.lenm1 + 1) with
    | none => (s.raiseCap Code.ADR_NO_LENS (Src.lnso 0) [] t.lensCap).vmeEnd d St.ADDR_ERROR 0 []
    | some ps => (s.setExec d { x with
        pieces := ps, resolved := ps.map (·.lensNo), buf := if t.op = 0x01 then [] else t.data, part := [], missed := false, aux := 0 }).goVme d

/-- Drovers that wait behind an entry of the queue try again (R68). Those that wait for space have their own event (R69). -/
def State.retryOverlaps (s : State) : State :=
  (List.range 64).foldl (fun (s : State) d =>
    match s.execOf d with
    | some x => if x.phase = .pwqWait ∧ !s.vme.pwqWait.contains d then s.goVme d else s
    | none => s) s

/-- The piece that a drover ran on the bus has ended (R67, R71, R76, R77). -/
def State.pieceEnded (s : State) (d status : Nat) : State :=
  match s.execOf d, s.job d with
  | some x, some j =>
    let s := s.setJob d none
    if status ≠ St.OK then
      let n := match j.kind with
        | .commit | .atomic => 0
        | .fill => match x.pieces with
          | p :: _ =>
            let a := pieceAddr j.lens (x.task.off + p.off) + x.part.length
            x.done + x.part.length + min (j.vaddr + j.done - a) (p.len - x.part.length)
          | [] => x.done
        | _ => x.done + j.done
      s.vmeEnd d status n []
    else
      match j.kind with
      | .fill =>
        let s := if j.spoiled then s else s.lcInstall j.lens.space j.vaddr j.rdata
        match x.pieces with
        | p :: _ =>
          let va := pieceAddr j.lens (x.task.off + p.off)
          let a := va + x.part.length
          let k := min (64 - a % 64) (p.len - x.part.length)
          (s.setExec d { x with part := x.part ++ slice j.rdata (a - j.vaddr) k, aux := 1 }).goPieces d
        | [] => s
      | .read => (s.setExec d { x with pieces := x.pieces.drop 1, done := x.done + j.done, buf := x.buf ++ j.fabric }).goPieces d
      | .write => (s.setExec d { x with pieces := x.pieces.drop 1, done := x.done + j.done }).goPieces d
      | .claim =>
        let s := s.takeClaim ⟨j.node, j.agent, j.lens.space, j.vaddr / 64, j.exc, j.fabric, some j.lensNo, d⟩
        s.vmeEnd d St.OK j.done j.fabric
      | .commit => (s.commitEnd j.node j.agent j.ok).vmeEnd d (if j.ok then St.OK else St.CLAIM_LOST) (if j.ok then j.done else 0) []
      | .atomic => s.vmeEnd d St.OK j.done j.fabric
      | .iack => s
  | _, _ => s

end Sys2Proof.Machine
end

