-- ==== Sys2Proof/Machine/Vme.lean ====
section
/-! DEFINITION. The VME master's commands: grants, terminations, timeouts, the system controller, the interrupt handler's
acknowledge cycle (R65 to R81, R104 to R107), and revocation's end (R138). -/

namespace Sys2Proof.Machine

/-! ### Interrupt handler (R104 to R107) -/

def State.setIh (s : State) (n : Nat) (l : IhLevel) : State :=
  { s with vin := { s.vin with levels := setAt s.vin.levels n l } }

/-- An enabled level is pending: an IACK cycle is asked for, as a local owner (R104). -/
def State.ihCheck (s : State) : State :=
  match s.ihPending with
  | none => if s.vme.waiting.contains VOwner.ih then s.unwait .ih else s
  | some n =>
    if !s.bit F.VME_CTL_MASTER_EN then
      let s := if s.vme.waiting.contains VOwner.ih then s.unwait .ih else s
      if s.vin.masterOffRaised then s
      else ({ s with vin := { s.vin with masterOffRaised := true } }).raise Code.VME_MASTER_OFF Src.vmeIh []
    else if !s.drives || s.vmeSafe then s
    else if s.vme.owner = some .ih ∨ s.vme.waiting.contains VOwner.ih then s
    else ({ s with vme := { s.vme with iackLevel := some n } }).requestTenure .ih

/-- Re-arm a level when its delay is over and its message acknowledged (R105). -/
def State.rearm (s : State) (n : Nat) : State :=
  let l := s.ihAt n
  if l.inService && l.rearmReady && !l.msgOpen then
    (s.setIh n { l with inService := false, rearmReady := false }).ihCheck
  else s

/-- The route of a level (R107). -/
def State.ihRoute (s : State) (n : Nat) : Nat :=
  if n ≤ 4 then bitsOf (s.reg K.VME_IH_ROUTE_LO) (8 * (n - 1) + 4) (8 * (n - 1))
  else bitsOf (s.reg K.VME_IH_ROUTE_HI) (8 * (n - 5) + 4) (8 * (n - 5))

/-- An IACK cycle has ended (R104 to R107): with a vector, or spurious. The owner gives tenure up. -/
def State.iackEnded (s : State) (vector : Option Nat) : State :=
  match s.vme.iackLevel with
  | none => s.taskBoundary .ih
  | some n =>
    let s := { s with vme := { s.vme with iackLevel := none } }
    let l := s.ihAt n
    let s := match vector with
      | some v =>
        let s := (s.setIh n { l with inService := true, rearmReady := false, msgOpen := true }).bump K.VME_CNT_IACK
        let s := s.setSource (5 * 256 + n) (some ⟨s.ihRoute n, 1, 0, s.frame % 65536, s.phase, v⟩)
        s.create (fieldTask s.nodeId 5 n)
      | none =>
        ((s.setIh n { l with inService := true, rearmReady := false, msgOpen := false }).bump K.VME_CNT_IACK_SPUR).raise
          Code.VME_IACK_BERR Src.vmeIh []
    (s.taskBoundary .ih).ihCheck

/-! ### Revocation's end (R138 steps 4 and 5) -/

/-- What a field port keeps of a poll step of drover `d` is forgotten. -/
def SerialPort.forget (d : Nat) (p : SerialPort) : SerialPort :=
  { p with
    turnDrover := if p.turnDrover = some d then none else p.turnDrover
    tx := p.tx.map (fun t => if t.drover = some d then { t with drover := none } else t)
    pollReq := match p.pollReq with | some (e, bs) => if e = d then none else some (e, bs) | none => none }

/-- Ring responses, host completions, landed pushes and replies to a task that is gone find nobody (drover 64 stands for none). -/
def State.orphan (s : State) (d : Nat) : State :=
  let off := fun (r : TagRec) => if r.owner = .sub d then { r with owner := .none } else r
  let s := { s with net := { s.net with
    tags := s.net.tags.map (fun (e : Nat × Option TagRec) => (e.1, e.2.map off))
    tagWait := s.net.tagWait.map (fun (e : Packet × TagRec) => (e.1, off e.2)) } }
  let s := { s with fold := { s.fold with
    heldPushes := s.fold.heldPushes.map (fun (p : HeldPush) => if p.drover = some d then { p with drover := some 64 } else p) } }
  let s := { s with host := { s.host with
    reqs := s.host.reqs.map (fun (r : HostReq) => if r.drover = some d then { r with drover := some 64 } else r) } }
  { s with port := { s.port with sp := s.port.sp.map (fun (e : Nat × SerialPort) => (e.1, e.2.forget d)) } }

/-- A task that another unit completes: its result goes to the release gate without a drover. -/
def State.detachResult (s : State) (t : Task) (r : TaskResult) : State :=
  ({ s with drv := { s.drv with results := s.drv.results ++ [(t, r)] } }).markStile t true

/-- The task of a revoked drover returns to the fold or completes with RETRY_UNSAFE (R138 step 4); a completion of before stands
(R131). -/
def State.revokeTask (s : State) (d : Nat) : State :=
  match s.execOf d with
  | none => s
  | some x =>
    if x.phase = .ended then s.setJob d none
    else
    let n := x.done + (match s.job d with | some j => (if j.kind == .fill then 0 else j.done) | none => 0)
    let s := (s.setJob d none).orphan d
    let s := s.dropExec d
    let s := { s with vme := { s.vme with pwqWait := s.vme.pwqWait.filter (· != d) } }
    if x.task.idem && !x.task.reran then
      (State.events (s.putTask d { x.task with reran := true, pinwhy := 0 })).bump K.DRV_CNT_RERUN
    else
      let s := if x.task.desc = [] ∧ x.task.dir = false ∧ storeBad x.task.op St.RETRY_UNSAFE = true then
          s.storeFailed x.task.srcNode x.task.agent else s
      (s.bump K.DRV_CNT_UNSAFE).detachResult x.task ⟨St.RETRY_UNSAFE, n, []⟩

/-! ### What an ended job leads to -/

/-- The engine's entry has ended: the next one asks for tenure, and drovers behind it go on (R68). -/
def State.queueEnded (s : State) (status : Nat) : State :=
  let s := s.endEntry status
  let s := if s.vme.owner = some .pwq then { s with vme := { s.vme with owner := none, strobed := false } } else s
  let s := if s.vme.pwq ≠ [] ∧ !s.vme.waiting.contains VOwner.pwq then s.joinWait .pwq else s
  s.idleBus.retryOverlaps

/-- Take the end of a job to its owner. -/
def State.ownerDone (r : State × VEnd) : State :=
  match r.2 with
  | none => r.1
  | some (.drover d, st) =>
    let s := { r.1 with vme := { r.1.vme with strobed := false } }
    if (match s.job d with | some j => j.cut | none => false) then
      -- the drover was revoked: the bus is released by new arbitration (R138 step 1)
      let s := if s.vme.owner = some (.drover d) then s.dropBus else s
      (s.revokeTask d).tenureNext
    else (s.pieceEnded d st).tenureNext
  | some (.pwq, st) => { r.1 with vme := { r.1.vme with strobed := false } }.queueEnded st
  | some (.ih, _) => { r.1 with vme := { r.1.vme with strobed := false } }.iackEnded none

/-! ### Terminations -/

/-- Bytes the cycle in progress reads. -/
def VJob.reads (j : VJob) (x : Xfer) : Nat := if j.writes then 0 else x.beat

/-- DTACK* (R67, R71). The data are the bytes of the cycle or beat in ascending VME order. With BERR* or RETRY* in the same sample it
counts as that (R78, R79). -/
def vmeDtackIn (data : List Byte) (s : State) : State :=
  if s.berrNow then s
  else match s.strobing with
  | none => s
  | some .ih =>
    if data.length = s.iackBytes then
      { s.tookEnd false with vme := { (s.tookEnd false).vme with strobed := false } }.iackEnded (some (beNum data))
    else s
  | some o =>
    match s.ownerJob o with
    | none => (s.tookEnd false).cycleLost
    | some j => match j.xfers with
      | [] => s
      | x :: rest => if data.length = j.reads x then State.ownerDone ((s.tookEnd false).cycleDone o j x rest data) else s

def execVmeDtackIn (data : List Byte) (s : State) : Host.Outcome State Fault Refusal :=
  .next (whenUp .edge (vmeDtackIn data) s)

/-- BERR* without RETRY* (R76, R106). -/
def vmeBerrOut (s : State) : State :=
  match s.strobing with
  | none => s
  | some .ih => State.ownerDone (s.tookEnd true, some (.ih, St.VME_BERR))
  | some o =>
    let s := (s.tookEnd true).bump K.VME_CNT_BERR
    if (s.ownerJob o).isNone then s.cycleLost else State.ownerDone (s.failJob o St.VME_BERR Code.VME_BERR_OUT)

def execVmeBerrOut (s : State) : Host.Outcome State Fault Refusal := .next (whenUp .edge vmeBerrOut s)

/-- RETRY* (R78). An acknowledge cycle has no lens: its level stays pending and asks again. -/
def vmeRetryIn (s : State) : State :=
  match s.strobing with
  | none => s
  | some .ih => ((((s.tookEnd true).bump K.VME_CNT_RETRY).dropBus).tenureNext).ihCheck
  | some o => match s.ownerJob o with
    | some j => State.ownerDone ((s.tookEnd true).retryJob o j)
    | none => (s.tookEnd true).cycleLost

def execVmeRetryIn (s : State) : Host.Outcome State Fault Refusal := .next (whenUp .edge vmeRetryIn s)

/-- Owners by number: drovers, then the posted write engine. -/
def ownerOf (n : Nat) : VOwner := if n < 64 then .drover n else if n = 64 then .pwq else .ih

/-- GAP_US is over (R65, R78). -/
def vmeRetryGap (owner : Nat) (s : State) : State :=
  let o := ownerOf owner
  if s.vme.gap.contains o then
    ({ s with vme := { s.vme with gap := s.vme.gap.filter (· != o) } }).requestTenure o
  else s

def execVmeRetryGap (owner : Nat) (s : State) : Host.Outcome State Fault Refusal :=
  .next (whenUp .edge (vmeRetryGap owner) s)

/-- A 2eVME or 2eSST transfer ends early (R65): one that moved no beat counts as a retry. -/
def vme2eEarlyEnd (s : State) : State :=
  match s.strobing with
  | none => s
  | some o => match s.ownerJob o with
    | some j => match j.xfers with
      | x :: _ =>
        if x.kind = .e2vme ∨ x.kind = .e2sst then
          (let s := s.tookEnd false
           if j.cut then State.ownerDone (s, some (o, St.RETRY_UNSAFE))
           else if j.beatsDone = 0 then State.ownerDone (s.retryJob o j) else s.leaveGap o j)
        else s
      | [] => s
    | none => s

def execVme2eEarlyEnd (s : State) : Host.Outcome State Fault Refusal := .next (whenUp .edge vme2eEarlyEnd s)

/-- DATA_TO_US expires (R76): the strobes are negated and the bus is released. A termination in the same sample wins (R79). -/
def vmeDataTo (s : State) : State :=
  if s.endedNow then s
  else match s.strobing with
  | none => s
  | some .ih => State.ownerDone (s.dropBus, some (.ih, St.VME_TIMEOUT)) |>.tenureNext
  | some o =>
    let s := s.bump K.VME_CNT_TIMEOUT
    if (s.ownerJob o).isNone then s.dropBus.tenureNext
    else
      let r := s.failJob o St.VME_TIMEOUT Code.VME_DATA_TO
      (State.ownerDone (r.1.dropBus, r.2)).tenureNext

def execVmeDataTo (s : State) : Host.Outcome State Fault Refusal := .next (whenUp .edge vmeDataTo s)

/-- No grant within ARB_TO_US of BRn* (R76); a grant in the same sample has come first (R79, log entry 37). The time does not run while the VME group is halted (R436). The first owner waiting is the
one the request was made for. -/
def vmeArbTo (s : State) : State :=
  if s.vme.bbsy ∨ !s.vme.br then s
  else match s.vme.waiting.find? s.mayBegin with
    | none => s
    | some .ih => (s.bump K.VME_CNT_ARB_TO).raise Code.VME_ARB_TO Src.vmeMaster []
    | some o =>
      let r := (s.bump K.VME_CNT_ARB_TO).failJob o St.VME_ARB_TIMEOUT Code.VME_ARB_TO
      (State.ownerDone (r.1.unwait o, r.2)).tenureNext

def execVmeArbTo (s : State) : Host.Outcome State Fault Refusal := .next (whenUp .edge vmeArbTo s)

/-! ### Tenure -/

/-- A waiting piece enters the queue once it has room (R69). -/
def pwqSpaceFree (s : State) : State :=
  match s.vme.pwqWait with
  | [] => s
  | d :: rest =>
    if s.vme.pwq.length < s.rd F.VME_PWQ_LIMIT then
      match s.execOf d with
      | some x => if x.phase = .pwqWait then s.goVme d else { s with vme := { s.vme with pwqWait := rest } }
      | none => { s with vme := { s.vme with pwqWait := rest } }
    else s

def execPwqSpaceFree (s : State) : Host.Outcome State Fault Refusal := .next (whenUp .edge pwqSpaceFree s)

def execVmeBusGrant (level : Nat) (s : State) : Host.Outcome State Fault Refusal :=
  .next (whenUp .edge (fun s => s.takeGrant level) s)

/-- Another master's bus request at a level changes (R72, R73). -/
def vmeBrOther (level : Nat) (asserted : Bool) (s : State) : State :=
  let s := { s with vme := { s.vme with brOther := setAt s.vme.brOther level asserted } }
  match s.vme.owner with
  | none => if s.vme.bbsy then s.idleBus else s
  | some _ => s

def execVmeBrOther (level : Nat) (asserted : Bool) (s : State) : Host.Outcome State Fault Refusal :=
  .next (whenUp .edge (vmeBrOther level asserted) s)

/-- BCLR* is asserted (R73). -/
def vmeBclrIn (s : State) : State :=
  if s.vme.bbsy then
    let s := { s with vme := { s.vme with bclrIn := true } }
    match s.vme.owner with
    | none => s.idleBus
    | some _ => s
  else s

def execVmeBclrIn (s : State) : Host.Outcome State Fault Refusal := .next (whenUp .edge vmeBclrIn s)

/-- Every other master has negated BRn* at the device's level: a waiting fair request is asserted (R72). -/
def fairRequest (s : State) : State :=
  if s.vme.fairWait && !getAt false s.vme.brOther (s.rd F.VME_CTL_BR_LEVEL) then s.askBus else s

def execFairRequest (s : State) : Host.Outcome State Fault Refusal := .next (whenUp .edge fairRequest s)

/-! ### System controller (R81) -/

/-- The slot-1 functions run (R81, R337, R343). -/
def State.sysOn (s : State) : Bool := s.bit F.VME_CTL_SYSCON && s.drives && !s.vmeSafe

/-- Levels requesting: other masters', and the device's own. -/
def State.requesting (s : State) (l : Nat) : Bool :=
  getAt false s.vme.brOther l || (s.vme.br && s.rd F.VME_CTL_BR_LEVEL == l)

/-- The level the arbiter grants: PRI the highest; RRS from the level after the last granted (R81). Which
way the levels follow each other is not stated; they go down (DESIGN CHOICE, log entry 35). -/
def State.arbiterPick (s : State) : Option Nat :=
  if s.rd F.VME_SYSCTL_ARB_MODE = 0 then [3, 2, 1, 0].find? s.requesting
  else ([1, 2, 3, 4].map (fun i => (s.vme.lastGrant + 4 - i) % 4)).find? s.requesting

/-- The arbiter grants while BBSY* is negated (R81). `busy` is BBSY* as another master drives it: asserted, it ends a grant; negated
with no master left on the bus, it ends BCLR*. -/
def vmeArbiterGrant (busy : Bool) (s : State) : State :=
  let s := { s with vme := { s.vme with
    bbsyOther := busy, grantOut := if busy then none else s.vme.grantOut, bclrOut := s.vme.bclrOut && (busy || s.vme.bbsy) } }
  if !s.sysOn || !s.bit F.VME_SYSCTL_ARB_EN || busy || s.vme.bbsy || s.vme.grantOut.isSome then s
  else match s.arbiterPick with
    | none => s
    | some l =>
      let s := { s with vme := { s.vme with lastGrant := l, bclrOut := false } }
      if s.vme.br && s.rd F.VME_CTL_BR_LEVEL == l && s.vme.waiting.any s.mayBegin then s.takeGrant l
      else ({ s with vme := { s.vme with grantOut := some l } }).emit (.vmeGrantOut l)

def execVmeArbiterGrant (busy : Bool) (s : State) : Host.Outcome State Fault Refusal :=
  .next (whenUp .edge (vmeArbiterGrant busy) s)

/-- A grant without BBSY* is withdrawn (R81); the arbiter grants anew. -/
def vmeGrantTo (s : State) : State :=
  if s.sysOn ∧ s.vme.grantOut.isSome then vmeArbiterGrant false { s with vme := { s.vme with grantOut := none } } else s

def execVmeGrantTo (s : State) : Host.Outcome State Fault Refusal := .next (whenUp .edge vmeGrantTo s)

/-- BCLR* while the bus is held and another level asks (R81). `held` says that another master holds the bus. -/
def arbiterBclr (held : Bool) (s : State) : State :=
  if s.sysOn ∧ s.bit F.VME_SYSCTL_BCLR_EN ∧ (held = true ∨ s.vme.bbsy = true) then
    let asks := if s.rd F.VME_SYSCTL_ARB_MODE = 0 then (List.range 4).any (fun l => decide (s.vme.lastGrant < l) && s.requesting l)
      else (List.range 4).any (fun l => decide (l ≠ s.vme.lastGrant) && s.requesting l)
    let s := { s with vme := { s.vme with bclrOut := asks, grantOut := none } }
    if asks && s.vme.bbsy then vmeBclrIn s else s
  else s

def execArbiterBclr (held : Bool) (s : State) : Host.Outcome State Fault Refusal :=
  .next (whenUp .edge (arbiterBclr held) s)

/-- The bus timer expires (R81, R76): BERR* is asserted, and a cycle of the device ends with VME_TIMEOUT, unless a termination came
in the same sample (R79). -/
def vmeBtoOut (s : State) : State :=
  if s.sysOn ∧ s.bit F.VME_SYSCTL_BTIMER_EN then
    let s := s.emit .vmeBerrTimer
    if s.endedNow then s
    else match s.strobing with
    | none => s
    | some .ih => State.ownerDone (s, some (.ih, St.VME_TIMEOUT))
    | some o => State.ownerDone ((s.bump K.VME_CNT_TIMEOUT).failJob o St.VME_TIMEOUT Code.VME_BTO_OUT)
  else s

def execVmeBtoOut (s : State) : Host.Outcome State Fault Refusal := .next (whenUp .edge vmeBtoOut s)

/-- SYSRESET* is driven low for 200 ms (R81). -/
def State.sysrstPulse (s : State) : State :=
  if s.sysOn then ({ s with vme := { s.vme with sysrstPulse := true } }).emit (.sysReset true) else s

def execSysrstPulse (s : State) : Host.Outcome State Fault Refusal := .next (whenUp .edge State.sysrstPulse s)

def sysrstPulseEnd (s : State) : State :=
  if s.vme.sysrstPulse then ({ s with vme := { s.vme with sysrstPulse := false } }).emit (.sysReset false) else s

def execSysrstPulseEnd (s : State) : Host.Outcome State Fault Refusal := .next (whenUp .edge sysrstPulseEnd s)

end Sys2Proof.Machine
end

