-- ==== Sys2Proof/Machine/Interrupter.lean ====
section
/-! DEFINITION. The device as VME interrupter (R110 to R115), and re-arming handled levels (R104, R105). -/

namespace Sys2Proof.Machine

/-- The message INT_ACK names is acknowledged (R253): CTRL, with the tag of the message. -/
def State.ackMessage (s : State) (p : Packet) : State :=
  let a : Packet := ⟨mkW0 p.src s.nodeId p.tag 0 Kind.MESSAGE false 0 0 0 0, mkMsgW1 2 0 0 false, []⟩
  if p.src = s.nodeId then s.takenPush 2 a else s.injectAnswer p.src p.tag a

/-- Complete a raise (R110 to R114): its task with a status, a message with its acknowledgement. -/
def State.completeVector (s : State) (v : IntrVector) (status : Nat) : State :=
  let s := match v.task with
    | some t =>
      let s := if status = St.OK then s else s.storeFailed t.srcNode t.agent
      s.detachResult t ⟨status, 0, leBytes 8 0⟩
    | none => s
  match v.msg with
  | some p => s.ackMessage p
  | none => s

/-- The queue of vectors changes: DEPTH, and the record of the mirror (R115, R351). -/
def State.setVectors (s : State) (vs : List IntrVector) : State :=
  let s := { s with vin := { s.vin with vectors := vs } }
  let s := s.wr F.VME_INTR_DEPTH vs.length
  if s.mirrors 3 then
    s.mirror 6 ((List.range 16).flatMap (fun i =>
        match vs[i]? with | some v => leBytes 4 v.vector.toNat | none => leBytes 4 0) ++
      leBytes 1 vs.length ++ leBytes 1 (vs.filter (·.taken)).length ++ leBytes 14 0)
  else s

/-- IRQn* on the device's level (R110, R112). A new vector asserts it, but not within 500 ns of a ROAK acknowledge cycle. -/
def State.setIrq (s : State) (b : Bool) : State := { s with vin := { s.vin with irqOut := b } }

/-- Vectors that waited for a full queue enter it; `fuel` bounds the number. -/
def State.fillVectors : Nat → State → State
  | 0, s => s
  | n + 1, s =>
    match s.vin.vectorWait with
    | [] => s
    | v :: rest =>
      if s.vin.vectors.length < 16 then
        ((({ s with vin := { s.vin with vectorWait := rest } }).setVectors (s.vin.vectors ++ [v])).setIrq (!s.vin.irqGap)).fillVectors n
      else s

/-- Raises complete at once while the interrupter is off (R110). -/
def State.intrOff (s : State) : Bool := decide (s.rd F.VME_INTR_LEVEL = 0) || !s.drives || s.vmeSafe

/-- A new vector (R110): it is queued, waits for the full queue, or completes at once. -/
def State.raiseVector (s : State) (v : IntrVector) : State :=
  if s.intrOff then s.completeVector v St.IRQ_DISABLED
  else if s.vin.vectors.length < 16 ∧ s.vin.vectorWait = [] then (s.setVectors (s.vin.vectors ++ [v])).setIrq (!s.vin.irqGap)
  else { s with vin := { s.vin with vectorWait := s.vin.vectorWait ++ [v] } }

/-- A vector leaves the queue. -/
def State.dropVector (s : State) (v : IntrVector) : State :=
  let s := s.setVectors (s.vin.vectors.erase v)
  s.fillVectors s.vin.vectorWait.length

/-- An acknowledge cycle reaches the device (R111, R112). Which vector it drives under RORA while taken vectors await their release is
not stated: the oldest not yet taken, or the oldest of all, which then counts again (DESIGN CHOICE, log entry 41). -/
def interrupterIack (level width : Nat) (s : State) : State :=
  if s.vin.irqOut ∧ level = s.rd F.VME_INTR_LEVEL ∧ s.intrOff = false then
    match (s.vin.vectors.find? (fun v => !v.taken)).orElse (fun _ => s.vin.vectors.head?) with
    | none => s.emit .vmeIackOut
    | some v =>
      let s := (s.emit (.vmeDtack (beBytes width (v.vector.toNat % 2 ^ (8 * width))))).bump K.VME_CNT_INTR_TAKEN
      if s.bit F.VME_INTR_RORA then
        s.setVectors (s.vin.vectors.map (fun x => if x = v then { x with taken := true } else x))
      else
        let s := { s with vin := { s.vin with irqGap := true } }
        ((s.setIrq false).completeVector v St.OK).dropVector v
  else s.emit .vmeIackOut

def execInterrupterIack (level width : Nat) (s : State) : Host.Outcome State Fault Refusal :=
  .next (whenUp .edge (interrupterIack level width) s)

/-- 500 ns after a ROAK acknowledge: IRQn* again if a vector remains (R112). -/
def intrReassert (s : State) : State :=
  if s.vin.irqGap then ({ s with vin := { s.vin with irqGap := false } }).setIrq (!s.intrOff && !s.vin.vectors.isEmpty) else s

def execIntrReassert (s : State) : Host.Outcome State Fault Refusal := .next (whenUp .edge intrReassert s)

/-- The oldest taken vector is released (R112). -/
def State.roraRelease (s : State) : State :=
  match s.vin.vectors.find? (·.taken) with
  | some v =>
    let s := (s.completeVector v St.OK).dropVector v
    s.setIrq (!s.vin.vectors.isEmpty && !s.vin.irqGap)
  | none => s

/-- The head of the queue is withdrawn (R114). -/
def vmeIrqNoack (s : State) : State :=
  match s.vin.vectors with
  | [] => s
  | v :: _ =>
    let s := (s.raise Code.VME_IRQ_NOACK Src.vmeIntr []).completeVector v St.IRQ_TIMEOUT
    let s := s.dropVector v
    s.setIrq (s.vin.irqOut && !s.vin.vectors.isEmpty)

def execVmeIrqNoack (s : State) : Host.Outcome State Fault Refusal := .next (whenUp .edge vmeIrqNoack s)

/-! ### Handled levels (R104, R105) -/

/-- IRQn* of a level, as the device sees it (R104). -/
def vmeIrqIn (level : Nat) (asserted : Bool) (s : State) : State :=
  if 1 ≤ level ∧ level ≤ 7 then (s.setIh level { s.ihAt level with asserted := asserted }).ihCheck else s

def execVmeIrqIn (level : Nat) (asserted : Bool) (s : State) : Host.Outcome State Fault Refusal :=
  .next (whenUp .edge (vmeIrqIn level asserted) s)

/-- The level re-arms under RORA. -/
def State.levelRora (s : State) (n : Nat) : Bool := (s.rd F.VME_IH_CTL_RORA).testBit (n - 1)

/-- 500 ns after a ROAK level's acknowledge cycle (R105). -/
def vmeRoakRearm (level : Nat) (s : State) : State :=
  if 1 ≤ level ∧ level ≤ 7 ∧ (s.ihAt level).inService = true ∧ s.levelRora level = false then
    (s.setIh level { s.ihAt level with rearmReady := true }).rearm level
  else s

def execVmeRoakRearm (level : Nat) (s : State) : Host.Outcome State Fault Refusal :=
  .next (whenUp .edge (vmeRoakRearm level) s)

/-- IRQn* of a RORA level seen negated in two samples (R105). -/
def vmeRoraRearm (level : Nat) (s : State) : State :=
  if 1 ≤ level ∧ level ≤ 7 ∧ (s.ihAt level).inService = true ∧ s.levelRora level = true then
    (s.setIh level { s.ihAt level with asserted := false, rearmReady := true }).rearm level
  else s

def execVmeRoraRearm (level : Nat) (s : State) : Host.Outcome State Fault Refusal :=
  .next (whenUp .edge (vmeRoraRearm level) s)

end Sys2Proof.Machine
end

