-- ==== Sys2Proof/Machine/Inbound.lean ====
section
/-! DEFINITION. The VME slave: inbound cycles, retry slots, posted writes (R26, R51, R85 to R103, R113). -/

namespace Sys2Proof.Machine

/-! ### Access -/

/-- The key of this node's inbound VME agent (R143). -/
def State.vmeAgent (s : State) : Nat := agentKey s.nodeId (s.rd F.CHIP_ORD_CTL_VME_AGENT)

def noSlot : Option RSlot := none
def State.slotAt (s : State) (i : Nat) : Option RSlot := getAt noSlot s.vin.slots i
def State.setSlot (s : State) (i : Nat) (r : Option RSlot) : State :=
  { s with vin := { s.vin with slots := setAt s.vin.slots i r } }
def State.setCyc (s : State) (c : Option InCycle) : State := { s with vin := { s.vin with cyc := c } }

/-- The queue of inbound posted writes changes: DEPTH and PEAK (R116). -/
def State.setIpwq (s : State) (q : List IpwqEntry) : State :=
  let s := { s with vin := { s.vin with ipwq := q } }
  (s.wr F.VME_IPWQ_DEPTH q.length).peak F.VME_IPWQ_PEAK q.length

/-! ### The lens decision (R51, R85, R100, R113) -/

/-- What an AM code names (R51): space, class bit of AMSEL, transfer type bit of AMSEL, and whether it is a lock code. -/
def amNames (am xam : Nat) : Option (Nat × Option Nat × Nat × Bool) :=
  match am with
  | 0x29 => some (0, some 0, 8, false) | 0x2D => some (0, some 2, 8, false)
  | 0x39 => some (1, some 0, 8, false) | 0x3A => some (1, some 1, 8, false)
  | 0x3D => some (1, some 2, 8, false) | 0x3E => some (1, some 3, 8, false)
  | 0x09 => some (2, some 0, 8, false) | 0x0A => some (2, some 1, 8, false)
  | 0x0D => some (2, some 2, 8, false) | 0x0E => some (2, some 3, 8, false)
  | 0x01 => some (3, none, 8, false)
  | 0x3B => some (1, some 0, 9, false) | 0x3F => some (1, some 2, 9, false)
  | 0x0B => some (2, some 0, 9, false) | 0x0F => some (2, some 2, 9, false)
  | 0x03 => some (3, none, 9, false)
  | 0x38 => some (1, some 0, 10, false) | 0x3C => some (1, some 2, 10, false)
  | 0x08 => some (2, some 0, 10, false) | 0x0C => some (2, some 2, 10, false)
  | 0x00 => some (3, none, 10, false)
  | 0x2C => some (0, some 0, 8, true) | 0x32 => some (1, some 0, 8, true)
  | 0x05 => some (2, some 0, 8, true) | 0x04 => some (3, none, 8, true)
  | 0x20 => match xam with
    | 0x01 => some (2, none, 11, false) | 0x11 => some (2, none, 12, false)
    | 0x02 => some (3, none, 11, false) | 0x12 => some (3, none, 12, false)
    | _ => none
  | _ => none

/-- An inbound lens matches (R51). -/
def InLens.fits (l : InLens) (space : Nat) (clsBit : Option Nat) (xbit addr : Nat) : Bool :=
  l.en && l.space == space && l.amsel.testBit xbit && decide (l.vbase ≤ addr) && decide (addr < l.vbase + 2 ^ l.size) &&
    (match clsBit with | some b => l.amsel.testBit b | none => true)

/-- The address in its space: A16 and A24 cycles carry 16 and 24 bits. -/
def spaceAddr (space addr : Nat) : Nat :=
  if space = 0 then addr % 2 ^ 16 else if space = 1 then addr % 2 ^ 24 else if space = 2 then addr % 2 ^ 32 else addr % 2 ^ 64

/-- The transfer is a block transfer. -/
def InCycle.block (c : InCycle) : Bool := match amNames c.am c.xam with | some (_, _, x, _) => decide (8 < x) | none => false
/-- The beat count is announced (R89). -/
def InCycle.counted (c : InCycle) : Bool := match amNames c.am c.xam with | some (_, _, x, _) => decide (10 < x) | none => false
/-- Fabric address of a VME address of the cycle's lens (R50). -/
def InCycle.fab (c : InCycle) (a : Nat) : Nat := c.lens.faddr + (a - c.lens.vbase)

/-- A capture of the inbound lens unit (R374). -/
def State.inCap (s : State) (c : InCycle) : CapInfo :=
  ⟨4, c.fab c.cur, s.nodeId, s.rd F.CHIP_ORD_CTL_VME_AGENT, if c.rmw then (if c.wphase then 0x11 else 0x10) else if c.write then 2 else 1,
    (max c.size 1) - 1, 1, c.am⟩

/-- BERR* to the master (R94, R103, R164). -/
def State.giveBerr (s : State) (c : InCycle) : State :=
  let s := (s.bump K.VME_CNT_IN_BERR).exception s.vmeAgent
  (s.setCyc (some { c with stage := .ended, slots := [], taken := [] })).emit .vmeBerr

/-- RETRY* to the master, with BERR* when RTY_BERR is set (R94). -/
def State.giveRetry (s : State) (c : InCycle) : State :=
  ((s.bump K.VME_CNT_IN_RETRY).setCyc (some { c with stage := .ended, slots := [], taken := [] })).emit (.vmeRetry (s.bit F.VME_ISLV_RTY_BERR))

/-- A master asserts AS* (R26, R54). -/
def vmeInAs (am xam addr : Nat) (write rmw : Bool) (size beats : Nat) (s : State) : State :=
  let c : InCycle := { stage := .lookup, bank := s.bit F.CHIP_COMMIT_STAT_BANK, am := am, xam := xam, addr := addr, write := write && !rmw
                       rmw := rmw, size := size, beats := beats, lensNo := 0, lens := s.inLens false 0, rora := false
                       strobed := false, wphase := false, cur := addr, wdata := [], gather := [], gatherAt := 0, ahead := []
                       aheadAt := 0, aheadEnd := none, slots := [], taken := [], cont := none }
  -- a cycle of the device's own finds no slave here (R74)
  if s.vme.bbsy then s
  else match s.vin.cyc with
  | none => s.setCyc (some c)
  | some o => if o.stage = .ended ∨ o.stage = .ignored then s.setCyc (some c) else s

def execVmeInAs (am xam addr : Nat) (write rmw : Bool) (size beats : Nat) (s : State) : Host.Outcome State Fault Refusal :=
  .next (whenUp .edge (vmeInAs am xam addr write rmw size beats) s)

/-- The release location decides first (R113). -/
def State.roraHit (s : State) (c : InCycle) : Bool :=
  s.bit F.VME_INTR_RORA_EN && s.drives && (c.am == 0x29 || c.am == 0x2D) &&
    c.addr % 65536 / 2 == s.rd F.VME_INTR_RORA_ADDR

/-- The cycle loops (R100). -/
def State.loops (s : State) (c : InCycle) : Bool :=
  let a := c.fab c.cur
  decide (faOffset a ≤ 0x0FFFFFFFFF) &&
    (faNode a == s.nodeId || (s.twinOn && faNode a == s.rd F.TWN_CTL_PEER))

/-- The device ignores every cycle (R85, R337, R365, R436). -/
def State.slaveOff (s : State) : Bool :=
  !s.bit F.VME_ISLV_SLAVE_EN || !s.drives || s.vmeSafe || s.halting 0

/-! ### Bytes (R87) -/

/-- Container of an inbound cycle or beat of `n` bytes. -/
def InLens.container (l : InLens) (n : Nat) : Nat := containerOf l.prism l.elem n

/-- Carry the bytes of a cycle or beat at `a` across the prism. -/
def InCycle.carry (c : InCycle) (a : Nat) (bs : List Byte) : List Byte := prismBytes (c.lens.container bs.length) a bs

/-! ### Ring requests (R88, R92, R96) -/

/-- A RING task that issues a request for the slave (R120, DIR 1). `link` is the slot, or 64 and more for a
posted entry. -/
def State.inTask (s : State) (op addr len lensNo link : Nat) (data : List Byte) : Task :=
  { Task.blank with
    cls := 0, orig := 0, dir := true, op := op, lenm1 := len - 1, addr := addr, pclass := classOf 1 addr, srcNode := s.nodeId
    agent := s.rd F.CHIP_ORD_CTL_VME_AGENT, param := lensNo + (if 64 ≤ link then 32 else 0), data := data, link := link
    ord := decide (64 ≤ link), want := if 64 ≤ link then some 344 else none }

/-- A posted entry is made (R91, R92). -/
def State.postEntry (s : State) (lensNo vaddr faddr : Nat) (data : List Byte) : State :=
  let stop := decide (s.rd F.CHIP_PF_STAT_STATE = 2)
  let n := s.vin.nextPost
  let s := { s with vin := { s.vin with nextPost := n + 1 } }
  let s := s.setIpwq (s.vin.ipwq ++ [⟨n, lensNo, vaddr, faddr, data, !stop, none⟩])
  if stop then s else s.create (s.inTask 0x02 faddr data.length lensNo (64 + n) data)

/-- The gathered bytes of a posted block become an entry (R88). -/
def State.flushGather (s : State) (c : InCycle) : State :=
  if c.gather = [] then s
  else (s.setCyc (some { c with gather := [] })).postEntry c.lensNo c.gatherAt (c.fab c.gatherAt) c.gather

/-- The queue takes a posted beat now (R91, R174): a beat that starts an entry needs a free one. -/
def State.canPost (s : State) (c : InCycle) (n : Nat) : Bool :=
  decide (s.rd F.CHIP_PF_STAT_STATE = 0) &&
    ((c.gather != [] && c.fab c.gatherAt / 256 == c.fab (c.cur + n - 1) / 256) ||
      decide (s.vin.ipwq.length + (if c.gather = [] then 0 else 1) < s.rd F.VME_IPWQ_LIMIT))

/-- The transfer has had its last announced beat. -/
def InCycle.over (c : InCycle) : Bool := !c.block || (c.counted && c.beats == 0)

/-- DTACK* for the cycle, beat or phase in progress. -/
def State.ackBeat (s : State) (c : InCycle) (data : List Byte) : State :=
  let c := { c with cur := c.cur + c.size, beats := c.beats - 1, strobed := false, wdata := [] }
  let s := s.emit (.vmeDtack data)
  if c.rmw && !c.wphase then s.setCyc (some { c with stage := .awaitData, wphase := true, cur := c.addr })
  else if c.over then
    let s := s.bump K.VME_CNT_IN_CYCLES
    (s.setCyc (some { c with stage := .ended })).flushGather { c with stage := .ended }
  else s.setCyc (some { c with stage := if c.write then .awaitData else .heldRing })

/-- Posted data is latched, queued and acknowledged (R91). -/
def State.acceptPosted (s : State) (c : InCycle) (data : List Byte) : State :=
  let bs := c.carry c.cur data
  if c.block then
    let same := c.gather != [] && c.fab c.gatherAt / 256 == c.fab c.cur / 256
    let s := if same then s else s.flushGather c
    let c := if same then { c with gather := c.gather ++ bs } else { c with gather := bs, gatherAt := c.cur }
    s.ackBeat c []
  else (s.postEntry c.lensNo c.cur (c.fab c.cur) bs).ackBeat c []

/-- The master takes `n` bytes: the slots it has wholly taken, which are free (R96), and what is left of the others. -/
def takenBytes : List (Nat × Nat) → Nat → List Nat × List (Nat × Nat)
  | [], _ => ([], [])
  | (i, k) :: r, n =>
    if n < k then ([], (i, k - n) :: r)
    else
      let q := takenBytes r (n - k)
      (i :: q.1, q.2)

/-- Bytes read are there for the beat in progress: DTACK* with them (R103). A status that ended the data ends the beat. -/
def State.serveRead (s : State) (c : InCycle) : State :=
  if !c.strobed then s.setCyc (some c)
  else if c.size ≤ c.ahead.length then
    let bs := c.carry c.cur (c.ahead.take c.size)
    let q := takenBytes c.taken c.size
    let s := q.1.foldl (fun s i => s.setSlot i none) s
    s.ackBeat { c with ahead := c.ahead.drop c.size, aheadAt := c.aheadAt + c.size, taken := q.2 } bs
  else match c.aheadEnd with
    | none => s.setCyc (some c)
    | some st =>
      let s := c.taken.foldl (fun s e => s.setSlot e.1 none) s
      if (st = St.VME_ARB_TIMEOUT ∨ st = St.VME_RETRY) ∧ c.lens.retryEn = true then s.giveRetry c
      else
        let r := s.free 16
        (r.2.capture r.1.toNat (s.inCap c)).giveBerr c

/-- The data strobes of a cycle, beat or phase (R91, R94, R103). -/
def vmeInDataStrobe (wphase : Bool) (data : List Byte) (s : State) : State :=
  match s.vin.cyc with
  | none => s
  | some c =>
    if c.rora then s
    else if c.stage = .lookup ∧ wphase = false ∧ (c.write = false ∨ data.length = c.size) then
      s.setCyc (some { c with strobed := true, wdata := data })
    else if c.stage = .awaitData ∧ c.wphase = wphase ∧ data.length = c.size then
      let c := { c with strobed := true, wdata := data }
      if !c.rmw && c.lens.posted then
        (if s.canPost c data.length then s.acceptPosted c data else s.setCyc (some { c with stage := .heldQueue }))
      else s.setCyc (some { c with stage := .heldIssue })
    else if (c.stage = .heldIssue ∨ c.stage = .heldRing) ∧ !c.write ∧ !c.wphase ∧ !c.strobed then
      s.serveRead { c with strobed := true }
    else s

def execVmeInDataStrobe (wphase : Bool) (data : List Byte) (s : State) : Host.Outcome State Fault Refusal :=
  .next (whenUp .edge (vmeInDataStrobe wphase data) s)

/-- The beats of a cycle are of a kind the device answers (R85): byte, double and quad single cycles, D16 and D32 BLT, 64-bit beats. -/
def InCycle.answered (c : InCycle) (xbit : Nat) : Bool :=
  if xbit = 8 then c.size == 1 || c.size == 2 || c.size == 4
  else !c.rmw && c.addr % c.size == 0 && (if xbit = 9 then c.size == 2 || c.size == 4 else c.size == 8)

/-- The lens decision (R26, R85, R86). A block transfer of a kind R85 does not list is ignored (DESIGN CHOICE, log entry 43). -/
def State.lensDecision (s : State) : State :=
  match s.vin.cyc with
  | none => s
  | some c =>
    if c.stage ≠ .lookup then s
    else if s.roraHit c then
      (if c.write && !c.rmw && (c.size == 1 || c.size == 2) then s.setCyc (some { c with stage := .awaitData, rora := true })
       else (s.giveBerr c).raiseCap Code.VME_IN_UNSUPP Src.vmeSlave [] (s.inCap c))
    else if s.slaveOff then s.setCyc (some { c with stage := .ignored })
    else match amNames c.am c.xam with
      | none => s.setCyc (some { c with stage := .ignored })
      | some (space, clsBit, xbit, lock) =>
        let a := spaceAddr space c.addr
        match (List.range 32).find? (fun n => (s.inLens c.bank n).fits space clsBit xbit a && !s.degradedSrc (Src.lnsi n)) with
        | none => s.setCyc (some { c with stage := .ignored })
        | some n =>
          let c := { c with lensNo := n, lens := s.inLens c.bank n, addr := a, cur := a }
          let single := decide (xbit = 8)
          if s.lensBad c.bank (64 + n) then (s.giveBerr c).raiseCap Code.LNS_PARITY (Src.lnsi n) [] (s.inCap c)
          else if lock || (single && (!c.answered xbit || a % c.size != 0)) then
            (s.giveBerr c).raiseCap Code.VME_IN_UNSUPP Src.vmeSlave [] (s.inCap c)
          else if !c.answered xbit then s.setCyc (some { c with stage := .ignored })
          else if (!c.write || c.rmw || !c.lens.posted) && s.loops c then
            ((s.giveBerr c).bump K.VME_CNT_IN_LOOP).raiseCap Code.VME_LOOP Src.vmeSlave (n :: lohi a) (s.inCap c)
          else if c.write && !c.rmw then s.setCyc (some { c with stage := .awaitData })
          else s.setCyc (some { c with stage := .heldIssue, aheadAt := c.fab a })

/-- The decision; data strobes that came before it are taken with it (R94). -/
def vmeInLensDecision (s : State) : State :=
  match s.vin.cyc with
  | none => s
  | some c =>
    let t := s.lensDecision
    match t.vin.cyc with
    | some d =>
      if c.stage = .lookup ∧ c.strobed = true ∧ d.stage = .awaitData ∧ d.rora = false then
        vmeInDataStrobe false c.wdata (t.setCyc (some { d with strobed := false, wdata := [] }))
      else t
    | none => t

def execVmeInLensDecision (s : State) : Host.Outcome State Fault Refusal := .next (whenUp .edge vmeInLensDecision s)

/-- A beat held for queue space is accepted (R91, R98). -/
def vmeInQueueSpace (s : State) : State :=
  match s.vin.cyc with
  | some c => if c.stage = .heldQueue ∧ s.canPost c c.size = true then s.acceptPosted c c.wdata else s
  | none => s

def execVmeInQueueSpace (s : State) : Host.Outcome State Fault Refusal := .next (whenUp .edge vmeInQueueSpace s)

/-! ### Results of held cycles (R103) -/

/-- Free the slot at the head of the cycle's list, once its result has been taken. -/
def State.takeSlot (s : State) (c : InCycle) (i : Nat) : State × InCycle :=
  (s.setSlot i none, { c with slots := c.slots.filter (· != i) })

/-- A held write has its ring result. -/
def State.writeResult (s : State) (c : InCycle) (status : Nat) : State :=
  if status = St.OK ∨ status = St.LATE then s.ackBeat c []
  else if c.wphase then (s.giveBerr c).raiseCap Code.VME_IN_RMW_LOST Src.vmeSlave [] (s.inCap c)
  else if (status = St.VME_ARB_TIMEOUT ∨ status = St.VME_RETRY) ∧ c.lens.retryEn = true then s.giveRetry c
  else
    let r := s.free 16
    (r.2.capture r.1.toNat (s.inCap c)).giveBerr c

/-- A slot's result is not wanted: it is discarded now, or as it comes (R89). -/
def State.discardSlot (s : State) (i : Nat) : State :=
  match s.slotAt i with
  | some r => (match r.st with | .parked _ _ => s.setSlot i none | .issued => s.setSlot i (some { r with held := false, drop := true }))
  | none => s

/-- Deliver the results of the slots the cycle holds, oldest first; `fuel` bounds their number. -/
def State.deliverSlots : Nat → State → State
  | 0, s => s
  | n + 1, s =>
    match s.vin.cyc with
    | none => s
    | some c => match c.slots with
      | [] => s
      | i :: _ => match s.slotAt i with
        | none => s
        | some r => match r.st with
          | .issued => s
          | .parked status data =>
            if c.write && !c.rmw || c.wphase then
              let q := s.takeSlot c i
              q.1.writeResult q.2 status
            else
              -- the slot is kept until the master has taken its result (R96)
              let c := { c with slots := c.slots.filter (· != i) }
              if status = St.OK ∨ status = St.LATE then
                (s.serveRead { c with stage := .heldRing, ahead := c.ahead ++ data, taken := c.taken ++ [(i, data.length)] }).deliverSlots n
              else
                -- what was read ahead behind a failed request is discarded without a report (R89)
                let s := c.slots.foldl State.discardSlot s
                s.serveRead { c with stage := .heldRing, aheadEnd := some status, slots := [], taken := c.taken ++ [(i, 0)] }

/-- The ring result of a slot has come (R96, R103): a held cycle ends with it; otherwise it stays parked. -/
def vmeInRingResult (slot : Nat) (s : State) : State :=
  match s.slotAt slot with
  | some r => if r.held then s.deliverSlots 3 else s
  | none => s

def execVmeInRingResult (slot : Nat) (s : State) : Host.Outcome State Fault Refusal :=
  .next (whenUp .edge (vmeInRingResult slot) s)

/-- What the cycle asks the ring for next: opcode, VME address, length, bytes to write (R88 to R90, R99). -/
def State.nextRequest (s : State) (c : InCycle) : Option (Nat × Nat × Nat × List Byte) :=
  if c.rmw then
    (if c.wphase then some (0x11, c.cur, c.size, c.carry c.cur c.wdata)
     else if c.slots = [] ∧ c.ahead = [] ∧ c.aheadEnd = none then some (0x10, c.cur, c.size, []) else none)
  else if c.write then some (0x02, c.cur, c.size, c.carry c.cur c.wdata)
  else if !c.block then
    (if c.slots = [] ∧ c.ahead = [] ∧ c.aheadEnd = none then some (0x01, c.cur, c.size, []) else none)
  else
    -- read ahead to the end of the aligned 256-byte block, at most one block beyond the beat in progress, or to the end of the
    -- announced beats (R89)
    let have_ := c.slots.foldl (fun (n : Nat) i => match s.slotAt i with | some r => n + r.len | none => n) c.ahead.length
    let a := c.cur + have_
    let toBlock := 256 - c.fab a % 256
    let left := if c.counted then c.beats * c.size - have_ else toBlock
    let n := min toBlock left
    let far := !c.counted && decide (c.fab c.cur / 256 + 1 < c.fab a / 256)
    if c.aheadEnd ≠ none ∨ 2 ≤ c.slots.length + c.taken.length ∨ n = 0 ∨ far = true then none else some (0x01, a, n, [])

/-- A parked or pending slot that the request matches (R96). A block transfer matches where it starts, or where the slot it matched last
ended; what it reads ahead is the slot's request, whatever its length. -/
def State.matchSlot (s : State) (c : InCycle) (op addr len : Nat) (bs : List Byte) : Option Nat :=
  (List.range 8).find? (fun i => match s.slotAt i with
    | some r => !r.held && !r.drop && r.am == c.am && r.xam == c.xam && r.write == decide (op = 0x02 ∨ op = 0x11) && r.rmw == c.rmw &&
        r.space == c.lens.space && r.addr == addr && r.wdata == bs && r.block == c.block &&
        (if c.block then (addr == c.addr || c.cont == some addr) && (op == 0x01 || r.len == len) else r.len == len)
    | none => false)

/-- A held cycle issues its request, or takes a slot it matches (R92, R96). -/
def vmeInSplitIssue (s : State) : State :=
  match s.vin.cyc with
  | none => s
  | some c =>
    if !(c.stage = .heldIssue ∨ (c.stage = .heldRing ∧ c.block ∧ !c.write)) then s
    else match s.nextRequest c with
      | none => s
      | some (op, addr, len, bs) =>
        match s.matchSlot c op addr len bs with
        | some i =>
          match s.slotAt i with
          | some r =>
            let s := s.setSlot i (some { r with held := true })
            (s.setCyc (some { c with stage := .heldRing, slots := c.slots ++ [i], cont := some (r.addr + r.len) })).deliverSlots 3
          | none => s
        | none =>
          if s.vin.ipwq ≠ [] then s
          else match (List.range 8).find? (fun i => (s.slotAt i).isNone) with
            | none => s
            | some i =>
              let s := s.setSlot i (some
                { lensNo := c.lensNo, space := c.lens.space, am := c.am, xam := c.xam, write := decide (op = 0x02 ∨ op = 0x11)
                  rmw := c.rmw, block := c.block, addr := addr, len := len, faddr := c.fab addr, wdata := bs, held := true, drop := false
                  st := .issued })
              let s := s.setCyc (some { c with stage := .heldRing, slots := c.slots ++ [i] })
              s.create (s.inTask op (c.fab addr) len c.lensNo i bs)

def execVmeInSplitIssue (s : State) : Host.Outcome State Fault Refusal := .next (whenUp .edge vmeInSplitIssue s)

/-- The task of a held cycle or a posted entry has ended: its result waits for the slave (R93, R96). -/
def State.slaveResult (s : State) (t : Task) (r : TaskResult) : State :=
  if 64 ≤ t.link then
    { s with vin := { s.vin with ipwq := s.vin.ipwq.map (fun e =>
      if e.id + 64 = t.link then { e with result := some (r.status, r.bytesDone) } else e) } }
  else match s.slotAt t.link with
    | some x => s.setSlot t.link (if x.drop then none else some { x with st := .parked r.status r.payload })
    | none => s

/-! ### Ends -/

/-- The device has undertaken to answer the cycle and has not ended it. -/
def InCycle.engaged (c : InCycle) : Bool := c.stage == .heldQueue || c.stage == .heldIssue || c.stage == .heldRing

/-- A block read between beats: the master has taken one, and has not asked for the next. -/
def InCycle.between (c : InCycle) : Bool := c.block && !c.write && !c.strobed && decide (c.cur ≠ c.addr)

/-- The cycle is held: its termination waits for a ring result or for queue space (R94). -/
def InCycle.held (c : InCycle) : Bool :=
  c.engaged && !c.between &&
    (c.write || c.wphase || (decide (c.ahead.length < c.size) && c.aheadEnd.isNone))

/-- Requests of the cycle run on with their results parked (R96, R97). -/
def State.letGo (s : State) (c : InCycle) : State :=
  (c.slots ++ c.taken.map (·.1)).foldl (fun s i => match s.slotAt i with
    | some r => s.setSlot i (some { r with held := false })
    | none => s) s

/-- Queue space or a ring result that has come for the held cycle takes its effect before an expiry or a yield (R98). -/
def State.landedFirst (s : State) : State :=
  match s.vin.cyc with
  | some c => if c.stage = .heldQueue ∧ s.canPost c c.size = true then s.acceptPosted c c.wdata else s.deliverSlots 3
  | none => s

/-- The hold timer expires (R94). The result of a cycle it ends with BERR* is parked as after RETRY* (DESIGN CHOICE, log entry 42). -/
def vmeHoldTo (s : State) : State :=
  let s := s.landedFirst
  match s.vin.cyc with
  | some c =>
    if c.held && c.strobed then
      let s := ((s.letGo c).bump K.VME_CNT_IN_HOLD_TO).raiseCap Code.VME_HOLD_TO Src.vmeSlave [] (s.inCap c)
      if c.lens.retryEn && !c.wphase then s.giveRetry c else s.giveBerr c
    else s
  | none => s

def execVmeHoldTo (s : State) : Host.Outcome State Fault Refusal := .next (whenUp .edge vmeHoldTo s)

/-- A local owner has waited YIELD_US (R101). -/
def vmeInYield (s : State) : State :=
  let s := s.landedFirst
  match s.vin.cyc with
  | some c =>
    if c.held && c.lens.retryEn && !c.wphase && !s.vme.waiting.isEmpty then (s.letGo c).giveRetry c else s
  | none => s

def execVmeInYield (s : State) : Host.Outcome State Fault Refusal := .next (whenUp .edge vmeInYield s)

/-- AS* is negated, or BERR* comes from another source (R97). Without a held cycle the transfer ends here. -/
def vmeInAbandon (berr : Bool) (s : State) : State :=
  match s.vin.cyc with
  | none => s
  | some c =>
    -- a block read whose length is not announced ends so between beats
    if c.engaged && !(c.between && !c.counted) then (((s.letGo c).flushGather c).raiseCap Code.VME_IN_ABANDON Src.vmeSlave [] (s.inCap c)).setCyc none
    else if berr && c.stage == .ended then s
    else
      let s := s.flushGather c
      let s := if c.block && c.stage != .ended && c.stage != .ignored && c.stage != .lookup && decide (c.cur ≠ c.addr) then
          s.bump K.VME_CNT_IN_CYCLES else s
      -- data fetched for an uncounted block read and not taken is discarded (R89)
      ((c.slots ++ c.taken.map (·.1)).foldl State.discardSlot s).setCyc none

def execVmeInAbandon (berr : Bool) (s : State) : Host.Outcome State Fault Refusal :=
  .next (whenUp .edge (vmeInAbandon berr) s)

/-- KEEP_US after a result was parked (R96). -/
def vmeRslotDiscard (slot : Nat) (s : State) : State :=
  match s.slotAt slot with
  | some r => match r.st with
    | .parked status _ =>
      if r.held then s
      else ((s.setSlot slot none).bump K.VME_CNT_RSLOT_DISCARD).raise Code.VME_RSLOT_DISCARD Src.vmeSlave
        [r.lensNo, r.addr % 2 ^ 32, b2n r.write, status]
    | .issued => s
  | none => s

def execVmeRslotDiscard (slot : Nat) (s : State) : Host.Outcome State Fault Refusal :=
  .next (whenUp .edge (vmeRslotDiscard slot) s)

/-- The ring write of the oldest posted entry completes (R93). -/
def vmeInPostedDone (s : State) : State :=
  match s.vin.ipwq with
  | e :: rest => match e.result with
    | some (status, done) =>
      let s := s.setIpwq rest
      if status = St.OK then s
      else
        let lost := e.data.length - done
        (s.bumpN K.VME_CNT_IN_LOST_BYTES lost).raise Code.VME_IN_POSTED_LOST Src.vmeSlave
          [e.lensNo, e.vaddr % 2 ^ 32, status, lost]
    | none => s
  | [] => s

def execVmeInPostedDone (s : State) : Host.Outcome State Fault Refusal := .next (whenUp .edge vmeInPostedDone s)

/-- A write at the release location is answered and releases the oldest taken vector (R112, R113). -/
def vmeIntrRoraWrite (s : State) : State :=
  match s.vin.cyc with
  | some c =>
    if c.rora && c.stage == .awaitData then
      ((s.setCyc (some { c with stage := .ended })).bump K.VME_CNT_IN_CYCLES).emit (.vmeDtack []) |>.roraRelease
    else s
  | none => s

def execVmeIntrRoraWrite (s : State) : Host.Outcome State Fault Refusal := .next (whenUp .edge vmeIntrRoraWrite s)

end Sys2Proof.Machine
end

