-- ==== Sys2Proof/Machine/Recorder.lean ====
section
/-! DEFINITION. The event recorder (R382 to R404). -/

namespace Sys2Proof.Machine

/-! ### Records (R384 to R388) -/

/-- Change the recorder unit. -/
def State.setRec (s : State) (r : RecUnit) : State := { s with recd := r }

/-- The mark of R385. -/
def recMark : Word := 0xA55AC33C#32

/-- Bytes 0 to 27 of a record (R384). -/
def RecEntry.body (e : RecEntry) : List Byte :=
  leBytes 2 e.code ++ leBytes 5 e.seconds ++ leBytes 3 e.pcyc ++ leBytes 2 e.frame ++ e.params.flatMap (fun w => leBytes 4 w.toNat)

/-- A slot is empty, or valid (R383, R386). -/
def slotEmpty (bs : List Byte) : Bool := bs.all (· == 0)
def slotValid (bs : List Byte) : Bool :=
  let c := leNum (bs.drop 28)
  c == (crc32c (bs.take 28)).toNat || c == recMark.toNat

/-- Slots of `bs` that are neither empty nor valid, as LOG_READ counts them (R394). -/
def badSlots : Nat → List Byte → Nat
  | 0, _ => 0
  | n + 1, bs => match bs with
    | [] => 0
    | _ => (if slotEmpty (bs.take 32) || slotValid (bs.take 32) then 0 else 1) + badSlots n (bs.drop 32)

/-- Bytes fitted (R382). -/
def State.mramSize (s : State) : Nat :=
  match s.rd F.REC_CFG_SIZE with | 1 => 0x400000 | 2 => 0x800000 | 3 => 0x1000000 | _ => 0

/-- Read the recorder window (R35, R394). -/
def State.mramRead (s : State) (a n : Nat) : List Byte := tread zeroByte s.recd.mram a n

def State.recDepth (s : State) : State := s.wr F.REC_STAT_QDEPTH s.recd.queue.length

/-- The slot record `n` goes to (R387, R400); none when it is dropped. A record of an area C failure goes to slot 4,095. Records
of area P that go to area C take the places that C's circulation counts before its first (DEDUCED, log entry 40). -/
def recSlot (pFail cFail ctl : Bool) (e : RecEntry) (n : Nat) : Option Nat :=
  if ctl || (pFail && cFail) then none
  else if e.code = Code.REC_C_FAIL ∧ cFail = true then some 4095
  else if n < 4095 ∧ pFail = false then some n
  else if cFail then none
  else some (4096 + (n + 61440 - 4095) % 61440)

/-- Operations that write a record with CHECK by its mode (R385). `flip` inverts CHECK bit 0 (R404). -/
def recOps (mode area slot : Nat) (body : List Byte) (flip : Bool) : List RecOp :=
  let v : Word := if mode = 1 then recMark else crc32c body
  let v := if flip then v ^^^ 1#32 else v
  let a := 32 * slot
  if mode = 0 then [⟨area, a, body ++ leBytes 4 v.toNat⟩]
  else [⟨area, a + 28, leBytes 4 (~~~v).toNat⟩, ⟨area, a, body⟩, ⟨area, a + 28, leBytes 4 v.toNat⟩]

/-- The three control copies (R391). -/
def RecUnit.copies (r : RecUnit) : List RecOp :=
  let b := leBytes 5 r.seconds ++ leBytes 3 r.pcyc ++ leBytes 4 r.next ++ leBytes 2 r.clears ++ leBytes 14 0
  let bs := b ++ leBytes 4 (crc32c b).toNat
  [0, 1, 2].map (fun k => ⟨2, 0x200000 + 0x20 * k, bs⟩)

/-- Drop a record (R388). -/
def State.recDrop (s : State) : State :=
  (s.setRec { s.recd with lost := s.recd.lost + 1 }).bump K.REC_CNT_DROP

/-- An entry of the queue is read: an injection that an entry of it took is found (R379, area 4; log entry 14). -/
def State.queueRead (s : State) : State :=
  match s.flt.badWords.find? (fun w => w.1 == 4) with
  | some (a, i, dbl) => ({ s with flt := { s.flt with badWords := s.flt.badWords.filter (fun w => w.1 != 4) } }).sramFault a i dbl
  | none => s

/-- Where record `n` goes as the areas stand. -/
def State.recPlace (s : State) (e : RecEntry) (n : Nat) : Option Nat :=
  recSlot (s.bit F.REC_STAT_P_FAIL) (s.bit F.REC_STAT_C_FAIL) (s.bit F.REC_STAT_CTL_FAIL) e n

/-- The port starts to write record `e` in `slot` (R385); an injection that is armed is taken (R404). -/
def State.recStart (s : State) (e : RecEntry) (slot : Nat) : State :=
  let r := s.recd
  s.setRec { r with
    now := some e, again := false, inject := none, failNext := if r.inject = some true then 2 else 0
    ops := recOps (s.rd F.REC_CTL_CHECK) (if slot ≤ 4095 then 0 else 1) slot e.body (r.inject == some false) }

/-- CLEARED has its place: NEXT is `n`, CLEARS rises and the copies are due (R398). -/
def State.clearCounted (s : State) (n : Nat) : State :=
  s.setRec { s.recd with now := none, next := n, clears := s.recd.clears + 1, clearStep := .copies, ctlDue := true }

/-- A CLEAR ends: its command completes, unless a reset has dropped it (R398). -/
def State.clearEnd (s : State) (t : Task) : State :=
  let dropped := s.recd.clearDropped
  let s := (s.setRec { s.recd with clearing := none, clearStep := .zeroing, clearDropped := false }).wr F.REC_STAT_CLEARING 0
  if dropped then s else s.detachResult t ⟨St.OK, 0, leBytes 8 0⟩

/-- The record that tells how many were lost (R388). -/
def State.lostRecord (s : State) : RecEntry :=
  ⟨RecCode.RECORDS_LOST, s.recd.seconds, s.recd.pcyc, s.frame % 65536, fourParams 0 [s.recd.lost]⟩

/-- The port takes up its next work: control copies that are due, then the steps of a CLEAR, then the next record, before which
RECORDS_LOST goes where records were lost; not before PF_DRAIN, which is written next (R387, R388, R391, R398, R402). `fuel` bounds
the records dropped on the way. A CLEARED that has no place is dropped (DEDUCED, log entry 74). -/
def State.recGo : Nat → State → State
  | 0, s => s
  | n + 1, s =>
    let r := s.recd
    if r.ops ≠ [] ∨ !s.bit F.REC_STAT_READY then s
    else if r.ctlDue ∧ !s.bit F.REC_STAT_CTL_FAIL then
      s.setRec { r with ops := r.copies, ctlDue := false, again := false }
    else match r.clearing with
      | some t =>
        match r.clearStep with
        | .zeroing => s
        | .record e =>
          match s.recPlace e 0 with
          | some slot => s.recStart e slot
          | none => (s.clearCounted 0).recDrop.recGo n
        | .copies => (s.clearEnd t).recGo n
      | none =>
        match r.queue with
        | [] => s
        | e :: rest =>
          let lost := s.lostRecord
          let place := s.recPlace lost r.next
          if 0 < r.lost ∧ e.code ≠ RecCode.RECORDS_LOST ∧ e.code ≠ RecCode.PF_DRAIN ∧ place.isSome = true then
            (s.setRec { r with lost := 0 }).recStart lost (place.getD 0)
          else match s.recPlace e r.next with
            | none => ((s.setRec { r with queue := rest }).recDrop.recDepth).recGo n
            | some slot => (((s.queueRead).setRec { (s.queueRead).recd with queue := rest }).recStart e slot).recDepth

/-- Go on with at most a full queue. -/
def State.recPump (s : State) : State := s.recGo 66

/-- A record enters the queue (R387, R388); `front` puts PF_DRAIN ahead of those queued (R402). -/
def State.recordAt (s : State) (code : Nat) (params : List Word) (front : Bool) : State :=
  let r := s.recd
  if s.rd F.REC_CFG_SIZE = 0 ∨ 64 ≤ r.queue.length then s.recDrop
  else
    let e : RecEntry := ⟨code, r.seconds, r.pcyc, s.frame % 65536, params⟩
    let s := match s.injTake [4] (fun _ => true) with
      | (some b, t) => { t with flt := { t.flt with badWords := t.flt.badWords ++ [b] } }
      | (none, t) => t
    ((s.setRec { s.recd with queue := if front then e :: r.queue else r.queue ++ [e] }).recDepth).recPump

def State.record (s : State) (code : Nat) (params : List Nat) : State :=
  s.recordAt code ((List.range 4).map (fun i => BitVec.ofNat 32 (getAt 0 params i))) false

/-- An area has failed twice (R399, R400). -/
def State.areaFail (s : State) (area : Nat) : State :=
  let both := decide (area = 2) || (if area = 0 then s.bit F.REC_STAT_C_FAIL else s.bit F.REC_STAT_P_FAIL)
  let s := s.wr (if area = 0 then F.REC_STAT_P_FAIL else if area = 1 then F.REC_STAT_C_FAIL else F.REC_STAT_CTL_FAIL) 1
  if both then (s.wr F.FLT_CHIP_STAT_REC_FAIL 1).raise Code.REC_BOTH_FAIL Src.recorder []
  else s.raise (if area = 0 then Code.REC_P_FAIL else Code.REC_C_FAIL) Src.recorder []

/-- The last operation of a record or of the control copies has ended well. -/
def State.recDone (s : State) : State :=
  let r := s.recd
  match r.now with
  | some e =>
    if e.code = RecCode.CLEARED then ((s.clearCounted 1).bump K.REC_CNT_WRITTEN).recPump else
    let next := if e.code = Code.REC_C_FAIL ∧ s.bit F.REC_STAT_C_FAIL = true then r.next else satAdd 32 r.next 1
    (((s.setRec { r with now := none, next := next, ctlDue := true }).bump K.REC_CNT_WRITTEN)).recPump
  | none => s.recPump

/-- An MRAM write and its read-back end (R399). `good` says that the read-back was equal; where it was not, what the bytes now
hold is not known. -/
def recWriteDone (good : Bool) (s : State) : State :=
  let r := s.recd
  match r.ops with
  | [] => s
  | op :: rest =>
    let good := good && r.failNext == 0
    let bs := if good then (op.bytes, s) else s.freeBytes op.bytes.length
    let s := bs.2
    let r := { s.recd with mram := twrites zeroByte s.recd.mram op.at_ bs.1, failNext := r.failNext - 1 }
    if good then
      let s := s.setRec { r with ops := rest, again := false }
      if rest = [] then s.recDone else s
    else
      let s := (s.setRec { r with again := true }).bump K.REC_CNT_VERIFY
      if s.recd.again && !r.again then s
      else
        -- the second failure marks the area; its record is written elsewhere or dropped
        let queue := match r.now with | some e => if e.code = RecCode.CLEARED then r.queue else e :: r.queue | none => r.queue
        let s := s.setRec { s.recd with ops := [], again := false, now := none, queue := queue }
        ((s.areaFail op.area).recDepth).recPump

def execRecWriteDone (good : Bool) (s : State) : Host.Outcome State Fault Refusal :=
  .next (whenUp .recorder (recWriteDone good) s)

/-! ### Time (R390, R393) -/

def recSecondTick (s : State) : State :=
  (s.setRec { s.recd with seconds := min (2 ^ 40 - 1) (s.recd.seconds + 1), ctlDue := true }).recPump

def execRecSecondTick (s : State) : Host.Outcome State Fault Refusal := .next (whenUp .recorder recSecondTick s)

/-- MFG_SECONDS (R393). -/
def mfgSeconds (value : Nat) (s : State) : State :=
  let v := value % 2 ^ 40
  let old := s.recd.seconds
  if old < v then
    let s := s.setRec { s.recd with seconds := v, ctlDue := true }
    s.record RecCode.SECONDS_RAISED [old % 2 ^ 32, old / 2 ^ 32, v % 2 ^ 32, v / 2 ^ 32]
  else s

/-! ### Restoring at power-on (R392) -/

/-- A valid control copy. -/
def State.copyAt (s : State) (k : Nat) : Option (List Byte) :=
  let bs := s.mramRead (0x200000 + 0x20 * k) 32
  if leNum (bs.drop 28) = (crc32c (bs.take 28)).toNat then some (bs.take 28) else none

/-- The first of two keys is not lower, compared part by part. -/
def keyGe : List Nat → List Nat → Bool
  | a :: as, b :: bs => decide (b < a) || (decide (a = b) && keyGe as bs)
  | _, _ => true

def copyKey (b : List Byte) : List Nat := [leNum (slice b 12 2), leNum (slice b 0 5), leNum (slice b 8 4)]

/-- The valid records: slot, PCYC then SECONDS. -/
def State.validRecords (s : State) : List (Nat × List Nat) :=
  let slots := (s.recd.mram.foldl (fun (l : List Nat) e => if e.1 < 0x200000 ∧ l.head? ≠ some (e.1 / 32) then e.1 / 32 :: l else l) []).reverse
  slots.filterMap (fun i =>
    let bs := s.mramRead (32 * i) 32
    if slotValid bs then some (i, [leNum (slice bs 7 3), leNum (slice bs 2 5)]) else none)

/-- Set the four restored values. -/
def RecUnit.setTime (r : RecUnit) (b : List Byte) : RecUnit :=
  { r with seconds := leNum (slice b 0 5), pcyc := leNum (slice b 5 3), next := leNum (slice b 8 4), clears := leNum (slice b 12 2) }

/-- The number of the record a slot holds, by R387: of area C the lowest. -/
def slotRecord (slot : Nat) : Nat := if slot < 4096 then slot else slot - 4096 + 4095

/-- NEXT advances past a record that was written before it could (R392). -/
def State.nextFix (s : State) : State :=
  let r := s.recd
  match recSlot false false false ⟨0, 0, 0, 0, []⟩ r.next with
  | some slot =>
    let bs := s.mramRead (32 * slot) 32
    let key := [leNum (slice bs 7 3), leNum (slice bs 2 5)]
    let older := if r.next = 0 then true else
      match recSlot false false false ⟨0, 0, 0, 0, []⟩ (r.next - 1) with
      | some p =>
        let b := s.mramRead (32 * p) 32
        keyGe key [leNum (slice b 7 3), leNum (slice b 2 5)]
      | none => true
    if slotValid bs && older then s.setRec { r with next := satAdd 32 r.next 1 } else s
  | none => s

/-- Which copies or records the restoration goes by, and what it takes from them: two equal copies, else the newest copy, else the
newest record, else nothing (R392). -/
def State.restoreChoice (s : State) : Nat × RecUnit :=
  let cs := [0, 1, 2].filterMap s.copyAt
  let r0 := { s.recd with seconds := 0, pcyc := 0, next := 0, clears := 0 }
  match cs.find? (fun c => 2 ≤ (cs.filter (· == c)).length), cs with
  | some c, _ => (0, r0.setTime c)
  | none, c :: t => (1, r0.setTime (t.foldl (fun a b => if keyGe (copyKey a) (copyKey b) then a else b) c))
  | none, [] =>
    match s.validRecords with
    | [] => (3, r0)
    | x :: t =>
      let top := t.foldl (fun (a b : Nat × List Nat) => if keyGe a.2 b.2 && a.2 != b.2 then a else b) x
      (2, { r0 with pcyc := getAt 0 top.2 0, seconds := getAt 0 top.2 1, next := slotRecord top.1 + 1 })

/-- The next power cycle begins and the copies are due (R390, R392). -/
def State.powerCycle (s : State) : State :=
  s.setRec { s.recd with pcyc := min 0xFFFFFF (s.recd.pcyc + 1), ctlDue := true }

/-- Resets before the restoration left their records waiting, one each (R173). -/
def State.discardsRecord (s : State) : State :=
  s.recd.discards.foldl (fun (s : State) ps => s.recordAt RecCode.WRITES_DISCARDED ps false)
    (s.setRec { s.recd with discards := [] })

/-- The recorder takes its time, power cycle and next record from what the MRAM holds (R392). -/
def State.restoreTime (s : State) : State :=
  (s.setRec s.restoreChoice.2).wr F.REC_STAT_RESTORE s.restoreChoice.1

/-- The POWER_ON record of a restoration (R392). -/
def State.restoreRecord (s : State) : State :=
  s.record RecCode.POWER_ON [s.rd F.REC_STAT_RESTORE, ([0, 1, 2].filterMap s.copyAt).length, s.recd.clears, s.recd.next]

/-- Restore, count the power cycle, write the copies and queue POWER_ON (R390, R392). -/
def State.recRestore (s : State) : State :=
  if s.rd F.REC_CFG_SIZE = 0 then s
  else ((s.restoreTime.nextFix.powerCycle.wr F.REC_STAT_READY 1).restoreRecord).discardsRecord

/-! ### Authorised commands (R395 to R398) -/

/-- A new nonce from the random generator. -/
def State.newNonce (s : State) : State :=
  let r := s.free 64
  r.2.setRec { r.2.recd with nonce := r.1.toNat }

/-- The message that is authenticated (R396). -/
def authMessage (nonce subop node : Nat) : List Byte := leBytes 8 nonce ++ leBytes 1 subop ++ leBytes 2 node ++ leBytes 5 0

/-- The step of R396 at which a LOG_CLEAR fails; none when it is authorised. CLEARS at its limit fails a CLEAR at step 1 (R398). -/
def State.authStep (s : State) (subop buf : Nat) (mac : List Byte) : Option Nat :=
  if !s.bit F.REC_STAT_KEY_SET || (subop == 0 && s.recd.clears == 65535) then some 1
  else if s.bit F.REC_STAT_AUTH_HOLD then some 2
  else if buf ≠ s.recd.nonce then some 3
  else if mac ≠ hmacSha256 s.boot.otpKey (authMessage s.recd.nonce subop s.nodeId) then some 4
  else none

/-- A LOG_CLEAR has failed (R396, R397). A failure after a hold has ended is the fifth in succession or a later one, and sets the hold
again (DEDUCED, log entry 75). -/
def State.authFail (s : State) (subop node agent cause : Nat) : State :=
  let n := s.recd.fails + 1
  let s := (s.bump K.REC_CNT_AUTH_FAIL).raise Code.REC_AUTH_FAIL Src.recorder [subop, node * 2 ^ 16 + agent * 2 ^ 8, cause, n]
  let s := if cause = 2 then s else s.newNonce
  let s := s.setRec { s.recd with fails := n }
  if 4 ≤ n then s.wr F.REC_STAT_AUTH_HOLD 1 else s

/-- A LOG_CLEAR is authorised: the count of failures is zero and a new nonce is drawn. -/
def State.authOk (s : State) : State := (s.setRec { s.recd with fails := 0 }).newNonce

/-- AUTH_HOLD ends (R397). -/
def authHoldEnd (s : State) : State := s.wr F.REC_STAT_AUTH_HOLD 0

def execAuthHoldEnd (s : State) : Host.Outcome State Fault Refusal := .next (whenUp .recorder authHoldEnd s)

/-- A CLEAR begins (R398). -/
def State.clearBegin (s : State) (t : Task) : State :=
  (s.setRec { s.recd with clearing := some t, clearStep := .zeroing, clearDropped := false }).wr F.REC_STAT_CLEARING 1

/-- The CLEARED record (R403): who asked, and what the areas held. -/
def State.clearedRecord (s : State) (t : Task) : RecEntry :=
  let n := s.recd.next
  ⟨RecCode.CLEARED, s.recd.seconds, s.recd.pcyc, s.frame % 65536,
    [BitVec.ofNat 32 (t.srcNode * 2 ^ 16 + t.agent * 2 ^ 8), BitVec.ofNat 32 (min n 4095),
     BitVec.ofNat 32 (min (n - 4095) 61440), BitVec.ofNat 32 (n - 65535)]⟩

/-- An MRAM byte that a CLEAR sets to zero (R398). -/
def zeroedByClear (a : Nat) : Bool := decide (a < 0x200000) || (decide (0x200060 ≤ a) && decide (a < 0x201000))

/-- Zeroing ends (R398); it cannot while the record that was being written when it began is still in the port (R402). CLEARED follows
as record 0. -/
def recClearDone (s : State) : State :=
  match s.recd.clearing with
  | none => s
  | some t =>
    if s.recd.clearStep = .zeroing ∧ s.recd.now = none then
      (s.setRec { s.recd with mram := s.recd.mram.filter (fun e => !zeroedByClear e.1), clearStep := .record (s.clearedRecord t) }).recPump
    else s

def execRecClearDone (s : State) : Host.Outcome State Fault Refusal := .next (whenUp .recorder recClearDone s)

/-! ### Tests of the memory (R401, R404) -/

/-- RETEST (R401). -/
def State.recRetest (s : State) : State :=
  (((s.wr F.REC_STAT_P_FAIL 0).wr F.REC_STAT_C_FAIL 0).wr F.REC_STAT_CTL_FAIL 0).recPump

def execRecRetest (s : State) : Host.Outcome State Fault Refusal := .next (whenUp .recorder State.recRetest s)

/-- A write of REC_INJ (R404). -/
def State.recInj (s : State) (v : Word) : State :=
  let s := s.wr F.REC_INJ_KIND (bitsOf v 30 30)
  if bitOf v 31 then s.setRec { s.recd with inject := some (bitOf v 30) } else s

def execRecInjArm (value : Word) (s : State) : Host.Outcome State Fault Refusal :=
  .next (whenUp .recorder (fun s => s.recInj (value ||| 0x80000000#32)) s)

end Sys2Proof.Machine
end

