-- ==== Sys2Proof/Machine/HostOps.lean ====
section
/-! DEFINITION. What the rings of a node share: writing entries, the shadow page, MSI-X, the completion entries (R198 to R220). -/

namespace Sys2Proof.Machine

/-! ### The device's own requests -/

/-- Issue a READ or WRITE of the device's own (no agent's traffic, R143): class DATA, unordered. Answers the status when it ends
at once. -/
def State.ownRequest (s : State) (op addr len : Nat) (data : List Byte) (owner : TagOwner) : Option Nat × State :=
  match originFault op addr len with
  | some code => (some St.ADDR_ERROR, s.originRefuse code op addr len 0 1 false)
  | none =>
    let p : Packet := ⟨mkW0 (faNode addr) s.nodeId 0 (classOf 1 addr) Kind.REQUEST false 0 0 op (len - 1), BitVec.ofNat 64 addr, data⟩
    let r := s.issue p len owner
    (r.ended, r.st)

/-! ### Bases, sizes and indices (R198 to R202) -/

/-- Bits [31:12] and [63:32] of a base. -/
def baseOf (lo hi : Nat) : Nat := lo * 4096 + hi * 2 ^ 32

def State.dbBase (s : State) : Nat := baseOf (s.rd F.HST_DB_BASE_LO_BASE_LO) (s.rd F.HST_DB_BASE_HI_BASE_HI)
def State.shBase (s : State) : Nat := baseOf (s.rd F.HST_SH_BASE_LO_BASE_LO) (s.rd F.HST_SH_BASE_HI_BASE_HI)
def State.crBase (s : State) (r : Nat) : Nat := baseOf (s.rd (F.HST_CR_BASE_LO_BASE_LO r)) (s.rd (F.HST_CR_BASE_HI_BASE_HI r))
def State.crSize (s : State) (r : Nat) : Nat := 2 ^ s.rd (F.HST_CR_CTL_SIZE r)

/-- The rings the device writes: completion ring `key` below 256, the event ring 256, the statistics ring 257. -/
def State.outBase (s : State) (key : Nat) : Nat :=
  if key < 256 then baseOf (s.rd (F.HST_CQ_BASE_LO_BASE_LO key)) (s.rd (F.HST_CQ_BASE_HI_BASE_HI key))
  else if key = 256 then baseOf (s.rd F.HST_EVR_BASE_LO_BASE_LO) (s.rd F.HST_EVR_BASE_HI_BASE_HI)
  else baseOf (s.rd F.HST_STR_BASE_LO_BASE_LO) (s.rd F.HST_STR_BASE_HI_BASE_HI)
def State.outSize (s : State) (key : Nat) : Nat :=
  2 ^ (if key < 256 then s.rd (F.HST_CQ_CTL_SIZE key) else if key = 256 then s.rd F.HST_EVR_CTL_SIZE else s.rd F.HST_STR_CTL_SIZE)
def State.outEn (s : State) (key : Nat) : Bool :=
  if key < 256 then s.bit (F.HST_CQ_CTL_EN key) else if key = 256 then s.bit F.HST_EVR_CTL_EN else s.bit F.HST_STR_CTL_EN
def outEntry (key : Nat) : Nat := if key < 256 then 16 else if key = 256 then 32 else 4096
def State.outPi (s : State) (key : Nat) : Nat :=
  if key < 256 then s.rd (F.HST_CQ_PI_PI key) else if key = 256 then s.host.evPi else s.host.stPi
def State.outCi (s : State) (key : Nat) : Nat :=
  if key < 256 then tget (fun _ => 0) s.host.cqCi key else if key = 256 then s.host.evCi else s.host.stCi
def State.setOutPi (s : State) (key v : Nat) : State :=
  if key < 256 then s.wr (F.HST_CQ_PI_PI key) v
  else if key = 256 then { s with host := { s.host with evPi := v } }
  else { s with host := { s.host with stPi := v } }
/-- Page offset of a ring's index in the doorbell and shadow pages (R202). -/
def outIndexAt (key : Nat) : Nat := if key < 256 then 0x800 + 4 * key else 0xC00 + 4 * (key - 256)

def noWriter (_ : Nat) : Option RingWrite := none
def State.writer (s : State) (key : Nat) : Option RingWrite := tget noWriter s.host.writers key
def State.setWriter (s : State) (key : Nat) (w : Option RingWrite) : State :=
  { s with host := { s.host with writers := tput noWriter s.host.writers key w } }

/-- Entries the ring holds, and those that have taken a place in it (R200). -/
def State.outHeld (s : State) (key : Nat) : Nat := (s.outPi key + 2 ^ 32 - s.outCi key) % 2 ^ 32
/-- The ring is full. -/
def State.outFull (s : State) (key : Nat) : Bool := decide (s.outSize key ≤ s.outHeld key)

/-- Write one word of the shadow page (R202, R207). -/
def State.shadowWrite (s : State) (at_ : Nat) (bytes : List Byte) : State :=
  State.after (s.ownRequest 0x02 (s.shBase + at_) bytes.length bytes .none)

/-- The shadow word of a command ring (R202). -/
def State.shadowRing (s : State) (r : Nat) : State :=
  s.shadowWrite (8 * r) (leBytes 8 (s.rd (F.HST_CR_STAT_GEN r) * 2 ^ 48 + s.rd (F.HST_CR_STAT_STOPPED r) * 2 ^ 47 +
    s.rd (F.HST_CR_CI_CI r)))

/-! ### MSI-X (R109, R217, R222) -/

/-- An entry nobody has written: masked, as PCI Express Base 4.0 resets it. -/
def MsixEntry.masked' (_ : Nat) : MsixEntry := ⟨0, 0, true⟩
def State.msixEntry (s : State) (v : Nat) : MsixEntry := tget MsixEntry.masked' s.host.msix v

/-- The link is up at a head node. -/
def State.pcieUp (s : State) : Bool := s.bit F.HST_CTL_HEAD && s.bit F.HST_PCIE_STAT_LINK_UP

/-- Signal a vector: sent, or pending while it is masked or the function may not send. -/
def State.msixSignal (s : State) (v : Nat) : State :=
  if !s.pcieUp || !s.host.msixEn then s
  else
    let e := s.msixEntry v
    if s.host.funcMask || e.masked || !s.bit F.HST_PCIE_STAT_BME || s.host.d3 then
      { s with host := { s.host with pba := if s.host.pba.contains v then s.host.pba else s.host.pba ++ [v] } }
    else s.emit (.msix e.addr e.data)

/-- The signal after a CMD entry of completion ring `c` (R217). -/
def State.cqSignal (s : State) (c : Nat) : State :=
  if !s.bit (F.HST_CQ_CTL_MSIX_EN c) || !s.pcieUp then s
  else if s.rd (F.HST_CQ_CTL_COAL_US c) = 0 then s.msixSignal (s.rd (F.HST_CQ_CTL_MSIX_VEC c))
  else if s.host.coal.any (fun x => x.1 == c) then
    { s with host := { s.host with coal := s.host.coal.map (fun x => if x.1 = c then (c, true) else x) } }
  else
    let s := { s with host := { s.host with coal := s.host.coal ++ [(c, false)] } }
    s.msixSignal (s.rd (F.HST_CQ_CTL_MSIX_VEC c))

/-! ### Writing an entry (R201) -/

/-- Cut bytes into writes of at most 256 bytes within aligned blocks; `fuel` bounds their number. -/
def cutWrites : Nat → Nat → List Byte → List (Nat × List Byte)
  | 0, _, _ => []
  | n + 1, a, bs =>
    if bs = [] then []
    else
      let m := min bs.length (256 - a % 256)
      (a, bs.take m) :: cutWrites n (a + m) (bs.drop m)

/-- PHASE of entry `i` (R201). -/
def entryPhase (i size : Nat) : Nat := if i / size % 2 = 0 then 1 else 0

/-- The writes of an entry at its place: everything else before the word that holds PHASE (R201, R220). -/
def State.entrySteps (s : State) (e : RingEntry) : List (Nat × List Byte) :=
  let i := s.outPi e.key
  let a := s.outBase e.key + i % s.outSize e.key * outEntry e.key
  let w0 := leNum (e.bytes.take 8) % 2 ^ 63 + entryPhase i (s.outSize e.key) * 2 ^ 63
  if e.key < 257 then [(a + 8, e.bytes.drop 8), (a, leBytes 8 w0)]
  else cutWrites 32 (a + 32) (e.bytes.drop 32) ++ [(a + 16, slice e.bytes 16 16), (a + 8, slice e.bytes 8 8), (a, leBytes 8 w0)]

/-- An entry is discarded because its ring is not enabled (R216). -/
def State.entryOff (s : State) (e : RingEntry) : State :=
  let s := (s.bump K.HST_CNT_CQ_OFF).raise Code.HST_CQ_OFF Src.fetcher []
  match e.msg with
  | some p => s.ackMessage p
  | none => s

/-- The entry has been written: index, shadow word, signal, acknowledgement (R207, R215, R217). -/
def State.entryDone (s : State) (e : RingEntry) : State :=
  let pi := (s.outPi e.key + 1) % 2 ^ 32
  let s := s.setOutPi e.key pi
  let s := s.shadowWrite (outIndexAt e.key) (leBytes 4 pi)
  let s := match e.vector with
    | some v => s.msixSignal v
    | none => if e.key < 256 ∧ e.cmd = true then s.cqSignal e.key else s
  match e.msg with
  | some p => s.ackMessage p
  | none => s

/-- Entries of a completion ring that wait while it is full: each counts once, and the start of a full spell is reported (R215). -/
def State.countFull (s : State) (key : Nat) : State :=
  let n := (s.host.queue.filter (fun e => e.key == key && !e.waited)).length
  if 256 ≤ key ∨ n = 0 then s
  else
    let q := s.host.queue.map (fun e => if e.key = key then { e with waited := true } else e)
    let s := ({ s with host := { s.host with queue := q } }).bumpN K.HST_CNT_CQ_FULL n
    if s.host.fullSpell.contains key then s
    else ({ s with host := { s.host with fullSpell := s.host.fullSpell ++ [key] } }).raise Code.HST_CQ_FULL Src.fetcher []

/-- An event entry is dropped, with the losses it was to tell of (R219). -/
def State.eventLost (s : State) (told : Nat) : State :=
  ({ s with host := { s.host with evLost := satAdd 32 s.host.evLost (told + 1) } }).bump K.HST_CNT_EV_LOST

/-- A statistics slot is dropped, with the losses it was to tell of (R220). -/
def State.slotLost (s : State) (told : Nat) : State :=
  ({ s with host := { s.host with stLost := satAdd 16 s.host.stLost (told + 1) } }).bump K.HST_CNT_ST_LOST

/-- A waiting entry finds its ring disabled (R216, R219, R220). -/
def State.entryDropped (s : State) (e : RingEntry) : State :=
  if e.key < 256 then s.entryOff e
  else if e.key = 256 then s.eventLost (leNum (e.bytes.take 4))
  else s.slotLost (leNum (slice e.bytes 4 2))

/-- Go on with a ring: `fuel` bounds the writes that end at once. -/
def State.ringGo : Nat → Nat → State → State
  | 0, _, s => s
  | n + 1, key, s =>
    match s.writer key with
    | some w =>
      match w.steps with
      | [] => ((s.setWriter key none).entryDone w.entry).ringGo n key
      | (a, bs) :: rest =>
        -- one write is in flight at a time; what ends at once does not wait for an answer
        let r := s.ownRequest 0x02 a bs.length bs (.ringWrite key)
        match r.1 with
        | none => r.2
        | some _ => (r.2.setWriter key (some { w with steps := rest })).ringGo n key
    | none =>
      match takeFirst (fun e : RingEntry => e.key == key) s.host.queue with
      | none => s
      | some (e, rest) =>
        if s.outEn key = false then (({ s with host := { s.host with queue := rest } }).entryDropped e).ringGo n key
        else if s.outFull key then s.countFull key
        else
          let s := { s with host := { s.host with queue := rest, fullSpell := s.host.fullSpell.filter (· != key) } }
          (s.setWriter key (some ⟨e, s.entrySteps e⟩)).ringGo n key

/-- One turn of a ring whose last write has been answered: the bound covers the writes and entries it can come to. -/
def State.ringTurn (s : State) (key : Nat) : State := s.ringGo (64 * (s.host.queue.length + 2)) key

/-- Start what a ring may write: nothing while a write of it is in flight (R201). -/
def State.pumpRing (s : State) (key : Nat) : State := if (s.writer key).isSome then s else s.ringTurn key

/-- The write in flight of a ring has been answered. -/
def State.ringAnswered (s : State) (key : Nat) : State :=
  match s.writer key with
  | some w => (s.setWriter key (some { w with steps := w.steps.drop 1 })).ringTurn key
  | none => s

/-- The completion queue has room (R215). -/
def State.cqRoom (s : State) : Bool := decide ((s.host.queue.filter (fun e => decide (e.key < 256))).length < 512)

/-- Aim an entry at a completion ring (R214 to R216). -/
def State.cqPost (s : State) (e : RingEntry) : State :=
  if s.outEn e.key = false then s.entryOff e
  else ({ s with host := { s.host with queue := s.host.queue ++ [e] } }).pumpRing e.key

/-- Places taken in an event or statistics ring, entries on their way included. -/
def State.outTaken (s : State) (key : Nat) : Nat :=
  s.outHeld key + (if (s.writer key).isSome then 1 else 0) + (s.host.queue.filter (fun e => e.key == key)).length

/-- An event entry (R219): dropped and counted while the ring is full or disabled. -/
def State.eventPost (s : State) (sev code : Nat) (phase : Word) (frame : Nat) (params : List Word) : State :=
  if s.outEn 256 = false ∨ s.outSize 256 ≤ s.outTaken 256 then
    s.eventLost 0
  else
    let w0 := (sev % 8) * 2 ^ 53 + (code % 65536) * 2 ^ 32 + s.host.evLost
    let w1 := phase.toNat * 2 ^ 32 + (frame % 65536) * 2 ^ 16
    let bs := leBytes 8 w0 ++ leBytes 8 w1 ++ params.flatMap (fun w => leBytes 4 w.toNat)
    let e : RingEntry := ⟨256, false, if s.bit F.HST_EVR_CTL_MSIX_EN then some (s.rd F.HST_EVR_CTL_MSIX_VEC) else none, none, bs, false⟩
    ({ s with host := { s.host with evLost := 0, queue := s.host.queue ++ [e] } }).pumpRing 256

/-- A statistics slot (R220): its header and the record. -/
def State.statPost (s : State) (period : Nat) (record : List Byte) : State :=
  if s.outEn 257 = false ∨ s.outSize 257 ≤ s.outTaken 257 then s.slotLost 0
  else
    let w0 := s.host.stLost * 2 ^ 32 + period % 2 ^ 32
    let e : RingEntry := ⟨257, false, none, none, leBytes 8 w0 ++ leBytes 8 record.length ++ leBytes 16 0 ++ record, false⟩
    ({ s with host := { s.host with stLost := 0, queue := s.host.queue ++ [e] } }).pumpRing 257

/-! ### Completion entries (R213) -/

/-- A CMD entry. -/
def cmdEntry (cq status ring bytesDone index result : Nat) : RingEntry :=
  ⟨cq, true, none, none, leBytes 8 ((status % 256) * 2 ^ 48 + (ring % 256) * 2 ^ 40 + (bytesDone % 2 ^ 24) * 2 ^ 16 + index % 65536) ++
    leBytes 8 result, false⟩

/-- An entry that came with an INTERRUPT message `p` for completion ring `p.cring` (R107, R109). -/
def messageEntry (p : Packet) : RingEntry :=
  ⟨p.cring, false, if p.msixEn then some p.msixVec else none, some p, p.payload, false⟩

/-! ### Descriptor tasks (R120, R122, R207) -/

/-- The task of a descriptor (R120): `cls` is 1 for one fetched from a command ring, 3 for a schedule entry. The reserved
class 3 of the descriptor gives a record of class 1 (R121; DESIGN CHOICE, log entry 46). -/
def State.descTask (s : State) (cls ring agent index addr : Nat) (desc : List Byte) (ord : Bool) : Task :=
  let w0 := descWord desc 0
  let w7 := descWord desc 7
  let op := nbits w0 63 56
  let ph := w0.testBit 53 && decide (cls = 1)
  { Task.blank with
    cls := cls, orig := cls, pclass := if nbits w0 55 54 = 3 then 1 else nbits w0 55 54, op := op, lenm1 := 0, addr := addr, ord := ord, ph := ph
    phase := if ph then nbits w7 63 32 else 0, framelo := if ph then nbits w7 31 16 else 0
    srcNode := s.nodeId, agent := agent, param := ring, desc := desc, index := index
    idem := decide (op = 0x01) && s.rereadable (s.bit F.CHIP_COMMIT_STAT_BANK) (descWord desc 1) (nbits w0 31 0) }

end Sys2Proof.Machine
end

