-- ==== Sys2Proof/Machine/CadOps.lean ====
section
/-! DEFINITION. Work held by phase: positions, the holding store, releases and steps (R47, R317, R322 to R326), and entering work
that may have to be held. -/

namespace Sys2Proof.Machine

/-! ### Positions (R317, R325) -/

/-- Positions count modulo 2^80. -/
def posMod : Nat := 2 ^ 80

/-- The signed difference of two positions. -/
def posDiff (a b : Nat) : Int :=
  let d := (a % posMod + posMod - b % posMod) % posMod
  if d < 2 ^ 79 then (d : Int) else (d : Int) - (posMod : Int)

/-- A stamp as a position: the frame congruent to FRAMELO nearest the present one (R325). -/
def stampPos (pos framelo phase : Nat) : Nat :=
  let f := pos / 2 ^ 32
  let d := signed16 (framelo + 65536 - f % 65536)
  (((f : Int) + d) % 2 ^ 48).toNat * 2 ^ 32 + phase

/-! ### Releasing (R326) -/

/-- The holding store changes: HELD. -/
def State.setHold (s : State) (h : List HoldEntry) : State :=
  ({ s with cad := { s.cad with hold := h } }).wr F.CAD_STAT_HELD h.length

/-- Held work is released: it goes into a fold as a CAD task under the bank in effect (R54, R326). -/
def State.cadRelease (s : State) (t : Task) : State :=
  let s := if t.late then (s.bump K.CAD_CNT_REL_LATE).statAdd 0x020 1 else (s.bump K.CAD_CNT_REL_OK).statAdd 0x01C 1
  State.events (s.placeAgain { s.rebank t with cls := 3, param := 0xFFFF, pass := true })

/-- The phase gate that would hold the work now (R47): that of the lenses its bytes lie in. -/
def State.gateOf (s : State) (t : Task) : Option (Nat × Nat) :=
  let op := t.opcode
  let moves := op == 0x01 || op == 0x02 || op == 0x03 || op == 0x10 || op == 0x11 || op == 0x12
  if moves && decide (faNode t.target = s.nodeId) && decide (regionOf (faOffset t.target) = .outbound) then
    match s.pieces (s.bit F.CHIP_COMMIT_STAT_BANK) (faOffset t.target) (min t.len 4096) with
    | some ps => s.shutGate ps
    | none => none
  else none

/-- One entry is judged (R325, R326, R436): released, or kept, its gate judged once its stamp has fallen due. -/
def State.judgeHold (s : State) (e : HoldEntry) : Option HoldEntry × State :=
  let halted := s.halting 5
  match e.stamp with
  | some p =>
    let d := posDiff s.cad.pos p
    if d < 0 then (some e, s)
    else if halted then (some { e with task := { e.task with late := e.task.late || decide (0 < d) } }, s)
    else
      match s.gateOf e.task with
      | some g => (some { e with stamp := none, gate := some g }, s)
      | none => (none, s.cadRelease e.task)
  | none =>
    if halted then (some e, s)
    else match e.gate with
      | some _ =>
        -- every gated lens of the request, under the table now in effect
        match s.gateOf e.task with
        | some g => (some { e with gate := some g }, s)
        | none => (none, s.cadRelease e.task)
      | none => (none, s.cadRelease e.task)

/-- Put work into the store, or release it at once (R325): LATE when its stamp has passed, or lies at or before H while a backward
step's window is open (R275). -/
def State.enterHold (s : State) (t : Task) (gate : Option (Nat × Nat)) : State :=
  let stamp := if t.ph then some (stampPos s.cad.pos t.framelo t.phase) else none
  let passed := match stamp with
    | some p => decide (0 < posDiff s.cad.pos p) || (match s.cad.stepH with | some h => decide (0 ≤ posDiff h p) | none => false)
    | none => false
  let t := { t with late := t.late || passed }
  let e : HoldEntry := ⟨t, if passed then none else stamp, if t.ph then none else gate⟩
  let e := if passed then { e with gate := s.gateOf t } else e
  match s.judgeHold e with
  | (some e, s) => s.setHold (s.cad.hold ++ [e])
  | (none, s) => s

/-- Work for the store (R324): it waits while all 1,024 entries are in use; the first wait of a full spell is reported. -/
def State.cadHold (s : State) (t : Task) (gate : Option (Nat × Nat)) : State :=
  if s.cad.hold.length < 1024 ∧ s.cad.holdWait = [] then s.enterHold t gate
  else
    let s := (s.bump K.CAD_CNT_HOLD_WAIT).statAdd 0x028 1
    let s := if s.cad.holdSpell then s
      else (({ s with cad := { s.cad with holdSpell := true } }).wr F.CAD_FLAGS_HOLD_FULL 1).raise Code.CAD_HOLD_FULL Src.cadence []
    { s with cad := { s.cad with holdWait := s.cad.holdWait ++ [⟨t, none, gate⟩] } }

/-- Waiting work enters as entries free (R324, R330); `fuel` bounds the number. -/
def State.fillHold : Nat → State → State
  | 0, s => s
  | n + 1, s =>
    match s.cad.holdWait with
    | [] => s
    | e :: rest =>
      if s.cad.hold.length < 1024 then
        (({ s with cad := { s.cad with holdWait := rest } }).enterHold e.task e.gate).fillHold n
      else s

/-- Judge every entry, in order of entry, then let waiting work in (R326, R330); a store no longer full ends the full spell. -/
def State.judgeAll (s : State) : State :=
  let es := s.cad.hold
  let r := es.foldl (fun (r : List HoldEntry × State) e =>
    match r.2.judgeHold e with
    | (some e, s) => (r.1 ++ [e], s)
    | (none, s) => (r.1, s)) (([] : List HoldEntry), ({ s with cad := { s.cad with hold := [] } }))
  let s := r.2.setHold (r.1 ++ r.2.cad.hold)
  let s := s.fillHold s.cad.holdWait.length
  { s with cad := { s.cad with holdSpell := s.cad.holdSpell && decide (1024 ≤ s.cad.hold.length) } }

/-! ### Steps (R275, R322) -/

/-- A period ends at a forward crossing from frame `f` over `d` frames (R323). -/
def State.periodCrossed (s : State) (f d : Nat) : Bool :=
  let n := s.rd F.CAD_PERIOD_PLEN_M1 + 1
  decide (f / n < (f + d) / n ∨ 2 ^ 48 ≤ f + d)

/-- A step of the position to `pos`: work it passes over, or that lay at or before H, is to be released LATE, and a forward step
that passes a frame which ends the period makes a boundary. `cadSettle` follows. -/
def State.cadStepTo (s : State) (pos : Nat) : State :=
  let h := s.cad.high
  let d := posDiff pos s.cad.pos
  let back := decide (d < 0)
  let f := s.frame
  let frames := ((pos % posMod + posMod - f * 2 ^ 32) % posMod) / 2 ^ 32
  let s := { s with cad := { s.cad with pos := pos % posMod, acc := 0, flags := s.cad.flags ||| 0x40000
                                        stepH := if back then some h else s.cad.stepH
                                        high := if posDiff pos h > 0 then pos % posMod else h
                                        due := s.cad.due || (decide (0 < d) && s.periodCrossed f frames) } }
  let s := (s.bump K.CAD_CNT_STEP).wr F.CAD_FLAGS_STEP 1
  let s := s.raise Code.CAD_STEP Src.cadence []
  let es := s.cad.hold.map (fun (e : HoldEntry) =>
    match e.stamp with
    | some p =>
      if (back && decide (0 ≤ posDiff h p)) || decide (0 < posDiff pos p) then
        { e with stamp := none, gate := s.gateOf e.task, task := { e.task with late := true } }
      else e
    | none => e)
  s.setHold es

/-! ### Entering work (R119, R132, R324) -/

/-- Create a task, which a stamp or a phase gate may hold first. `again` says that it has waited before. -/
def State.admitTask (s : State) (again : Bool) (t : Task) : State :=
  let t := s.rebank t
  let ahead := s.streamAhead t
  if ahead ≠ [] then s.waitTask t (!again && ahead.any (fun w => !w.entered))
  else
    match (if t.ord && !t.entered then s.enterStile t t.wish else some (s, t)) with
    | none => s.waitTask t !again
    | some (s', t') =>
      let gate := if t'.orig = 0 ∧ t'.desc = [] ∧ t'.dir = false then s'.gateOf t' else none
      if !t'.pass && (t'.ph || gate.isSome) then s'.cadHold t' gate
      else
        match s'.place t' with
        | some r => State.events r
        | none => s'.placeCheck.waitTask { t' with entered := true } false

/-- Create a task. -/
def State.takeIn (s : State) (t : Task) : State := s.admitTask false t

/-- Waiting creations are tried again in order; one that must wait keeps its place. -/
def State.retryWaiting (s : State) : State :=
  let ts := s.drv.waiting
  ts.foldl (fun (s : State) t => s.admitTask true t) { s with drv := { s.drv with waiting := [] } }

end Sys2Proof.Machine
end

