-- ==== Sys2Proof/Machine/CadSource.lean ====
section
/-! DEFINITION. The cadence source: rates, lock, loss, coasting and fallback (R318 to R322). -/

namespace Sys2Proof.Machine

/-- The position with phase `phase` that lies nearest `pos`; the later one on a tie (R321). -/
def nearFrame (pos phase : Nat) : Nat :=
  let c := pos / 2 ^ 32 * 2 ^ 32 + phase
  let d := posDiff c pos
  if d > 2 ^ 31 then (c + posMod - 2 ^ 32) % posMod else if d ≤ -(2 ^ 31) then (c + 2 ^ 32) % posMod else c

/-- Set the rate, in phase units per EDGE cycle, and RATE, in phase units per µs. -/
def State.cadRate (s : State) (num den : Nat) : State :=
  ({ s with cad := { s.cad with num := num, den := den, acc := 0 } }).wr F.CAD_RATE_RATE (num * 100 / den)

/-- Frames of 1 ms (R318, R321). -/
def State.cadRate1ms (s : State) : State := s.cadRate (2 ^ 32) 100000

/-- The unit's state (R321): 0 ACQUIRING, 1 LOCKED, 2 COASTING, 3 FALLBACK; and its source. -/
def State.cadState (s : State) : Nat := s.rd F.CAD_STAT_STATE
def State.cadSource (s : State) : Nat := s.rd F.CAD_STAT_ACTIVE

/-- The position of epoch time (R318). -/
def State.epochPos (s : State) : Nat :=
  let l := s.rd F.CAD_EPF_EPF_NS * 16
  (s.net.epoch / l % 2 ^ 48) * 2 ^ 32 + s.net.epoch % l * 2 ^ 32 / l

/-- The rate of epoch time at its nominal speed. -/
def State.epochRateSet (s : State) : State := s.cadRate (2 ^ 32 * 10) (s.rd F.CAD_EPF_EPF_NS)

/-- The phase of the edge below count `c` (R320). -/
def State.edgePhase (s : State) (c : Nat) : Nat := c * 2 ^ 32 / s.rd F.CAD_ENC_CPR

/-- The unit locks at a position (R321, R322). -/
def State.cadLock (s : State) (pos : Nat) : State :=
  let back := decide (2 ≤ s.cadState)
  let s := (s.wr F.CAD_STAT_STATE 1).cadStepTo pos
  let s := { s with cad := { s.cad with refs := 0, encBad := 0 } }
  let s := if back then s.raise Code.CAD_RELOCK Src.cadence [] else s
  s.stageStep

/-- COASTING ends in FALLBACK: only the rate changes (R321). -/
def State.cadFallback (s : State) : State :=
  let s := { s with cad := { s.cad with flags := s.cad.flags ||| 0x20000 } }
  (((s.wr F.CAD_STAT_STATE 3).wr F.CAD_FLAGS_FALLBACK 1).cadRate1ms).raise Code.CAD_FALLBACK Src.cadence []

/-- The source is lost (R321). -/
def State.cadLoss (s : State) : State :=
  let s := { s with cad := { s.cad with refs := 0, encBad := 0, flags := s.cad.flags ||| 0x10000 } }
  let s := (((s.wr F.CAD_STAT_STATE 2).wr F.CAD_FLAGS_LOSS 1).bump K.CAD_CNT_LOSS).raise Code.CAD_LOSS Src.cadence []
  if s.rd F.CAD_COAST_COAST_MS = 0 then s.cadFallback else s

/-- A valid reference has come: the unit locks or returns when enough have (R321). `need` is how many a first lock takes. -/
def State.cadRef (s : State) (need pos : Nat) : State :=
  let s := { s with cad := { s.cad with refs := s.cad.refs + 1 } }
  let st := s.cadState
  if st = 0 ∧ need ≤ s.cad.refs then s.cadLock pos
  else if (st = 2 ∨ (st = 3 ∧ s.bit F.CAD_CTL_RETURN_EN = true)) ∧ s.rd F.CAD_COAST_RELOCK ≤ s.cad.refs then s.cadLock pos
  else s

/-- A new SOURCE takes effect (R321). -/
def State.cadSelect (s : State) : State :=
  let src := s.rd F.CAD_CTL_SOURCE
  let s := ((s.wr F.CAD_STAT_ACTIVE src).wr F.CAD_STAT_STATE 0).wr F.CAD_STAT_DIR 0
  let s := { s with cad := { s.cad with refs := 0, encBad := 0 } }
  let s := s.cadRate1ms
  if src = 0 then (s.wr F.CAD_STAT_STATE 1).stageStep
  else if src = 1 ∧ s.bit F.NET_EPOCH_STAT_VALID = true then s.epochRateSet.cadLock s.epochPos
  else if src = 3 ∧ s.bit F.CAD_ENC_IDX_EN = false then
    ((s.wr F.CAD_ENC_CNT_COUNT 0).cadRate 0 1).cadLock (nearFrame s.cad.pos 0)
  else s

/-! ### Schedule entries (R328, R329) -/

def SchEntry.idle (_ : Nat) : SchEntry := ⟨false, 0, [], none, false⟩
def State.schEntry (s : State) (k : Nat) : SchEntry := tget SchEntry.idle s.cad.sch k

/-- Store entry `k` with ARMED and COPIED. -/
def State.setSch (s : State) (k : Nat) (e : SchEntry) : State :=
  let s := { s with cad := { s.cad with sch := tput SchEntry.idle s.cad.sch k e } }
  (s.wrB (F.CAD_SCH_STAT_ARMED k) e.armed).wrB (F.CAD_SCH_STAT_COPIED k) (e.shadow.isSome && !e.copying)

/-- Offset of entry `k`'s descriptor from the base of the DDR4 (R329). BASE is that of the shadow, which the copy belongs to. -/
def State.schAt (s : State) (k : Nat) : Nat := s.shdF F.CAD_SCHB_BASE * 4096 + 64 * k

/-- The copy of entry `k` starts (R329). -/
def State.schCopy (s : State) (k : Nat) : State := s.setSch k { s.schEntry k with copying := true }

end Sys2Proof.Machine
end

