-- ==== Sys2Proof/Machine/Order.lean ====
section
/-! DEFINITION. The commands of the combining buffer, the reservations, the lens cache and the power-fail drain (R155 to R175). -/

namespace Sys2Proof.Machine

/-! ### Combining buffer -/

/-- TO_100NS since a line first received a byte (R156). -/
def wcTimeout (base : Nat) (s : State) : State := s.flushWhere (fun l => l.base == base)

def execWcTimeout (base : Nat) (s : State) : Host.Outcome State Fault Refusal := .next (whenUp .core (wcTimeout base) s)

/-- The oldest answered flush write is taken up (R156, R158). -/
def wcFlushDone (s : State) : State :=
  match s.ord.wcDone with
  | [] => s
  | (a, n, st, done) :: rest => ({ s with ord := { s.ord with wcDone := rest } }).flushEnded a n st done

def execWcFlushDone (s : State) : Host.Outcome State Fault Refusal := .next (whenUp .core wcFlushDone s)

/-- EN is written 0: every line is flushed (R156). -/
def State.wcOff (s : State) : State := (s.wr F.CHIP_WC_CTL_EN 0).flushWhere (fun _ => true)

def execWcEnClear (s : State) : Host.Outcome State Fault Refusal := .next (whenUp .core State.wcOff s)

/-! ### Reservations -/

/-- CLAIM_TO_US since an agent's CLAIM (R163). -/
def claimTimeout (node agent : Nat) (s : State) : State := s.dropClaim node agent

def execClaimTimeout (node agent : Nat) (s : State) : Host.Outcome State Fault Refusal :=
  .next (whenUp .core (claimTimeout node agent) s)

/-! ### Lens cache -/

/-- The space a write by another master names, where the snoop decodes its AM code (R169): those of R51, and CR/CSR. -/
def snoopSpace (am xam : Nat) : Option Nat :=
  if am = 0x2F then some 4 else (amNames am xam).map (·.1)

/-- A write by another master on the backplane (R163, R169). `overflow` says that the snoop queue has no room for it. -/
def lcSnoopWrite (am xam addr len : Nat) (overflow : Bool) (s : State) : State :=
  if overflow then s.lcDropAll
  else match snoopSpace am xam with
    | none => s.lcDropAll
    | some space =>
      let a := spaceAddr space addr
      let r := s.lcDrop space a len
      (r.2.bumpN K.CHIP_CNT_LC_SNOOP_INV r.1).storeSeen 0xFFFF 0 space a len

def execLcSnoopWrite (am xam addr len : Nat) (overflow : Bool) (s : State) : Host.Outcome State Fault Refusal :=
  .next (whenUp .edge (lcSnoopWrite am xam addr len overflow) s)

def execLcInvAll (s : State) : Host.Outcome State Fault Refusal := .next (whenUp .core State.lcDropAll s)

/-- EN is written 0 (R169). -/
def State.lcOff (s : State) : State := (s.wr F.CHIP_LC_CTL_EN 0).lcDropAll

def execLcEnClear (s : State) : Host.Outcome State Fault Refusal := .next (whenUp .core State.lcOff s)

/-! ### Power-fail drain (R174, R175) -/

/-- The warning: DRAINING, and every line is flushed. The posted write queues issue by themselves. -/
def State.pfWarn (s : State) : State :=
  if s.rd F.CHIP_PF_STAT_STATE = 0 then
    let s := s.wr F.CHIP_PF_STAT_STATE 1
    let s := { s with ord := { s.ord with pfSince := some s.us, pfWithdrawn := false } }
    s.flushWhere (fun _ => true)
  else { s with ord := { s.ord with pfWithdrawn := false } }

/-- Posted writes are accepted again. -/
def State.pfNormal (s : State) : State :=
  { s.wr F.CHIP_PF_STAT_STATE 0 with ord := { s.ord with pfSince := none, pfWithdrawn := false } }

/-- The warning is withdrawn (R175): a drain that still runs is finished first. -/
def State.pfWithdraw (s : State) : State :=
  if s.rd F.CHIP_PF_STAT_STATE = 0 then s
  else if s.ord.pfSince.isSome then { s with ord := { s.ord with pfWithdrawn := true } }
  else s.pfNormal

/-- The record at the end of step 3 (R174): what was discarded, and the µs from the warning. -/
def State.pfRecord (s : State) (wcBytes outBytes inBytes wcLines outs ins : Nat) : State :=
  match s.ord.pfSince with
  | none => s
  | some t =>
    let p3 := (s.us - t) % 2 ^ 11 * 2 ^ 21 + wcLines * 2 ^ 14 + outs * 2 ^ 7 + ins
    let s := s.recordAt RecCode.PF_DRAIN [BitVec.ofNat 32 wcBytes, BitVec.ofNat 32 outBytes, BitVec.ofNat 32 inBytes,
      BitVec.ofNat 32 p3] true
    let w := s.ord.pfWithdrawn
    let s := { s with ord := { s.ord with pfSince := none } }
    if w then s.pfNormal else s

/-- Nothing is left to drain. -/
def State.pfEmpty (s : State) : Bool := s.ord.wc.isEmpty && s.vme.pwq.isEmpty && s.vin.ipwq.isEmpty

def pfDrainEmpty (s : State) : State :=
  if s.ord.pfSince.isSome && s.pfEmpty then s.pfRecord 0 0 0 0 0 0 else s

def execPfDrainEmpty (s : State) : Host.Outcome State Fault Refusal := .next (whenUp .core pfDrainEmpty s)

/-- Valid bytes of the lines in the buffer. -/
def wcBytes (w : List WcLine) : Nat := w.foldl (fun n l => n + l.count) 0

/-- Bytes of inbound posted entries whose ring write has not completed. -/
def ipwqBytes (q : List IpwqEntry) : Nat := (q.filter (·.result.isNone)).foldl (fun n e => n + e.data.length) 0

/-- Flush writes that still wait for a tag are not issued. -/
def State.dropFlushes (s : State) : State :=
  { s with net := { s.net with tagWait := s.net.tagWait.filter (fun e => e.2.owner != .flush) } }

/-- DRAIN_US has passed (R174): what remains is discarded and counted. A drain whose warning was withdrawn runs to empty (R175). -/
def pfDrainDeadline (s : State) : State :=
  match s.ord.pfSince with
  | none => s
  | some _ =>
    if s.ord.pfWithdrawn then s
    else
    let wb := wcBytes s.ord.wc
    let wl := s.ord.wc.length
    let ib := ipwqBytes s.vin.ipwq
    let il := (s.vin.ipwq.filter (·.result.isNone)).length
    let s := (s.setWc []).dropFlushes
    let s := s.setIpwq (s.vin.ipwq.filter (·.result.isSome))
    let q := s.discardQueue
    let s := if q.2.2.vme.owner = none then q.2.2.idleBus else q.2.2
    let s := s.wr F.CHIP_PF_STAT_STATE 2
    (s.bumpN K.CHIP_CNT_PF_LOST_BYTES (wb + q.2.1 + ib)).pfRecord wb q.2.1 ib wl q.1 il

def execPfDrainDeadline (s : State) : Host.Outcome State Fault Refusal := .next (whenUp .core pfDrainDeadline s)

end Sys2Proof.Machine
end

