-- ==== Sys2Proof/Machine/Power.lean ====
section
/-! DEFINITION. Power path: PMBus ports, feeds and the warning, slots, core supply droop (R405 to R421). -/

namespace Sys2Proof.Machine

def PmbPort.idle : PmbPort := ⟨[], false⟩
def PwrDev.idle (_ : Nat) : PwrDev := ⟨0, none, none, false, 0, 0, 0, none, 0⟩
def PwrSlot.idle (_ : Nat) : PwrSlot := ⟨false, false, false, none, none, none⟩
def State.pmb (s : State) (p : Nat) : PmbPort := getAt PmbPort.idle s.pwr.ports p
def State.setPmb (s : State) (p : Nat) (x : PmbPort) : State := { s with pwr := { s.pwr with ports := setAt s.pwr.ports p x } }
def State.pdev (s : State) (d : Nat) : PwrDev := tget PwrDev.idle s.pwr.devs d
def State.setPdev (s : State) (d : Nat) (x : PwrDev) : State :=
  { s with pwr := { s.pwr with devs := tput PwrDev.idle s.pwr.devs d x } }
def State.pslot (s : State) (n : Nat) : PwrSlot := tget PwrSlot.idle s.pwr.slots n
def State.setPslot (s : State) (n : Nat) (x : PwrSlot) : State :=
  { s with pwr := { s.pwr with slots := tput PwrSlot.idle s.pwr.slots n x } }

/-! ### Slots (R412 to R418) -/

def SlotSt.OFF : Nat := 0
def SlotSt.EMPTY : Nat := 1
def SlotSt.STARTING : Nat := 2
def SlotSt.ON : Nat := 3
def SlotSt.RETRY : Nat := 4
def SlotSt.HELD : Nat := 5

def State.slotSt (s : State) (n : Nat) : Nat := s.rd (F.PWR_SLOT_STAT_STATE n)
/-- STARTING or ON. -/
def State.slotLive (s : State) (n : Nat) : Bool := decide (s.slotSt n = SlotSt.STARTING) || decide (s.slotSt n = SlotSt.ON)

/-- EN_OUT goes low, the power-good bit and the fault timer with it. -/
def State.slotLow (s : State) (n : Nat) : State :=
  let p := s.pslot n
  let since := if s.bit (F.PWR_SLOT_STAT_EN_OUT n) then some s.ticks else p.lowSince
  let s := s.setPslot n { p with ready := false, shed := false, lowSince := since }
  ((s.wrB (F.PWR_SLOT_STAT_EN_OUT n) false).wrB (F.PWR_SLOT_STAT_PG n) false).wrB (F.PWR_SLOT_STAT_FTIMER n) false

/-- EN_OUT goes low and the slot takes a state. -/
def State.slotTo (s : State) (n st : Nat) : State := (s.slotLow n).wr (F.PWR_SLOT_STAT_STATE n) st

/-- The slot may start now: EN_OUT has been low for 10 ms, and no other slot has started within STAG_MS (R413, R416). -/
def State.mayStart (s : State) (n : Nat) : Bool :=
  (match (s.pslot n).lowSince with | none => true | some t => decide (t + 1000000 ≤ s.ticks)) &&
    (List.range 8).all (fun m => m == n ||
      (match (s.pslot m).startAt with | none => true | some t => decide (t + s.rd F.PWR_CTL_STAG_MS * 100000 ≤ s.ticks)))

/-- The slot's fault condition (R414): which is the cause a trip would show, zero for none. A shed slot has none. -/
def State.slotCond (s : State) (n : Nat) : Nat :=
  if (s.pslot n).shed then 0
  else if s.slotLive n && s.bit (F.PWR_SLOT_STAT_FAULT n) then 1
  else if s.slotSt n = SlotSt.ON ∧ s.bit (F.PWR_SLOT_STAT_PG_IN n) = false then 2
  else 0

/-- Judge the fault timer and the power-good bit (R414, R418). -/
def State.slotJudge (s : State) (n : Nat) : State :=
  if s.slotCond n ≠ 0 then (s.wrB (F.PWR_SLOT_STAT_FTIMER n) true).wrB (F.PWR_SLOT_STAT_PG n) false
  else
    let s := s.wrB (F.PWR_SLOT_STAT_FTIMER n) false
    if s.slotLive n && s.bit (F.PWR_SLOT_STAT_PG_IN n) && !(s.pslot n).shed then
      (s.wrB (F.PWR_SLOT_STAT_PG n) true).wr (F.PWR_SLOT_STAT_STATE n) SlotSt.ON
    else s

/-- Start a slot: EN_OUT rises (R413, R416). -/
def State.slotGo (s : State) (n : Nat) : State :=
  let s := s.setPslot n { s.pslot n with ready := false, shed := false, startAt := some s.ticks }
  ((s.wrB (F.PWR_SLOT_STAT_EN_OUT n) true).wr (F.PWR_SLOT_STAT_STATE n) SlotSt.STARTING).slotJudge n

/-- A slot leaves EMPTY, RETRY or HELD with its module settled: it starts, or waits its turn in the state it has. -/
def State.slotReady (s : State) (n : Nat) : State :=
  if s.mayStart n then s.slotGo n else s.setPslot n { s.pslot n with ready := true }

/-- A valid active entry of the slot's source has effective severity DEGRADE or above (R413). -/
def State.slotDegraded (s : State) (n : Nat) : Bool :=
  s.flt.active.any (fun e => match e.2 with | some a => a.src == Src.slot n && decide (3 ≤ a.sev) | none => false)

/-- Where a slot goes when nothing holds it any longer (R413, R415). -/
def State.slotFree (s : State) (n : Nat) : State :=
  if s.bit (F.PWR_SLOT_CTL_EN n) = false then s.slotTo n SlotSt.OFF
  else if s.slotDegraded n then s.slotTo n SlotSt.HELD
  else if s.bit (F.PWR_SLOT_STAT_PRESENT n) && (s.pslot n).settled then s.slotReady n
  else s.slotTo n SlotSt.EMPTY

/-- The reaction to an effective severity of DEGRADE (R363, R413): the slot is held; a running retry timer is kept (R415). -/
def State.slotHold (s : State) (n : Nat) : State :=
  if (s.pslot n).retryEnd.isSome ∨ s.slotSt n = SlotSt.OFF then s else s.slotTo n SlotSt.HELD

/-- An entry of the slot's source is gone: a held slot leaves HELD when none is left (R413). -/
def State.slotUnhold (s : State) (n : Nat) : State :=
  if s.slotSt n = SlotSt.HELD ∧ s.slotDegraded n = false then s.slotFree n else s

/-- A trip (R415). -/
def State.slotTrip (s : State) (n cause : Nat) : State :=
  let retry := s.rd (F.PWR_SLOT_TIME_RETRY_10MS n)
  let s := s.slotTo n SlotSt.RETRY
  let s := s.wr (F.PWR_SLOT_STAT_CAUSE n) cause
  let s := (s.bump (K.PWR_SLOT_CNT_TRIP n)).statAdd (0x260 + 4 * n) 1
  let s := s.setPslot n { s.pslot n with retryEnd := some (s.ticks + retry * 1000000) }
  let s := s.wr (F.PWR_SLOT_STAT_RETRY_LEFT n) retry
  s.raise Code.PWR_SLOT_TRIP (Src.slot n) [n, cause, s.rd (F.PWR_MEAS_I_MA (2 + n)), retry]

/-- An accepted change of SLOTn_PRESENT_N (R413). -/
def slotPresentChange (n : Nat) (present : Bool) (s : State) : State :=
  if 8 ≤ n ∨ s.bit (F.PWR_SLOT_STAT_PRESENT n) = present then s
  else
    let s := s.wrB (F.PWR_SLOT_STAT_PRESENT n) present
    let s := s.raise Code.PWR_SLOT_PRESENT (Src.slot n) [n, b2n present]
    if present then s
    else
      let s := s.setPslot n { s.pslot n with settled := false, ready := false }
      if s.slotLive n then s.slotTo n SlotSt.EMPTY
      else if s.slotSt n = SlotSt.RETRY ∧ (s.pslot n).retryEnd = none then s.slotTo n SlotSt.EMPTY
      else s

def execSlotPresentChange (slot : Nat) (present : Bool) (s : State) : Host.Outcome State Fault Refusal :=
  .next (whenUp .edge (slotPresentChange slot present) s)

/-- The module has been present for INS_MS: an EMPTY slot is ready to start (R413, R416). -/
def slotInsertSettled (n : Nat) (s : State) : State :=
  if 8 ≤ n ∨ s.bit (F.PWR_SLOT_STAT_PRESENT n) = false then s
  else
    let s := s.setPslot n { s.pslot n with settled := true }
    if s.slotSt n = SlotSt.EMPTY then s.setPslot n { s.pslot n with ready := true } else s

def execSlotInsertSettled (slot : Nat) (s : State) : Host.Outcome State Fault Refusal :=
  .next (whenUp .edge (slotInsertSettled slot) s)

def slotStart (n : Nat) (s : State) : State :=
  if n < 8 ∧ (s.pslot n).ready = true ∧ s.mayStart n = true then
    let s := s.slotGo n
    -- a start during the warning is made, then shed (R418)
    if s.bit F.PWR_STAT_WARN && s.bit (F.PWR_SLOT_CTL_SHED n) then
      let s := s.slotLow n
      s.setPslot n { s.pslot n with shed := true }
    else s
  else s

def execSlotStart (slot : Nat) (s : State) : Host.Outcome State Fault Refusal := .next (whenUp .edge (slotStart slot) s)

/-- Accepted levels of FAULT_N and PG (R414). -/
def slotFaultIn (n : Nat) (faultLow pgIn : Bool) (s : State) : State :=
  if 8 ≤ n then s
  else
    let s := (s.wrB (F.PWR_SLOT_STAT_FAULT n) faultLow).wrB (F.PWR_SLOT_STAT_PG_IN n) pgIn
    if s.slotLive n then s.slotJudge n else s

def execSlotFaultIn (slot : Nat) (faultLow pgIn : Bool) (s : State) : Host.Outcome State Fault Refusal :=
  .next (whenUp .edge (slotFaultIn slot faultLow pgIn) s)

/-- The fault timer expires: judged on the sample, so an absent condition makes no trip (R414, R418). -/
def slotTripNow (n : Nat) (s : State) : State :=
  if n < 8 ∧ s.bit (F.PWR_SLOT_STAT_FTIMER n) = true ∧ s.slotCond n ≠ 0 then s.slotTrip n (s.slotCond n) else s

def execSlotTrip (slot : Nat) (s : State) : Host.Outcome State Fault Refusal := .next (whenUp .edge (slotTripNow slot) s)

def slotStartTimeout (n : Nat) (s : State) : State :=
  if n < 8 ∧ s.slotSt n = SlotSt.STARTING ∧ s.bit (F.PWR_SLOT_STAT_PG n) = false ∧ (s.pslot n).shed = false then
    s.slotTrip n 3
  else s

def execSlotStartTimeout (slot : Nat) (s : State) : Host.Outcome State Fault Refusal :=
  .next (whenUp .edge (slotStartTimeout slot) s)

/-- The retry timer expires (R415). -/
def slotRetryExpiry (n : Nat) (s : State) : State :=
  if n < 8 ∧ (s.pslot n).retryEnd.isSome = true then
    let s := s.setPslot n { s.pslot n with retryEnd := none }
    (s.wr (F.PWR_SLOT_STAT_RETRY_LEFT n) 0).slotFree n
  else s

def execSlotRetryExpiry (slot : Nat) (s : State) : Host.Outcome State Fault Refusal :=
  .next (whenUp .edge (slotRetryExpiry slot) s)

/-- A write of PWR_SLOTn_CTL (R413): EN 0 turns the slot off, except while the retry timer runs; EN 1 leaves OFF. -/
def State.slotCtl (s : State) (n : Nat) (v : Word) : State :=
  let en := bitOf v 31
  let s := (s.wrB (F.PWR_SLOT_CTL_EN n) en).wrB (F.PWR_SLOT_CTL_SHED n) (bitOf v 30)
  if (s.pslot n).retryEnd.isSome then s
  else if en = false then s.slotTo n SlotSt.OFF
  else if s.slotSt n = SlotSt.OFF then
    if s.slotDegraded n then s.slotTo n SlotSt.HELD
    else
      let s := s.slotTo n SlotSt.EMPTY
      if s.bit (F.PWR_SLOT_STAT_PRESENT n) && (s.pslot n).settled then s.setPslot n { s.pslot n with ready := true } else s
  else s

def slotEnWrite (n : Nat) (v : Word) (s : State) : State := if n < 8 then s.slotCtl n v else s

def execSlotEnWrite (slot : Nat) (value : Word) (s : State) : Host.Outcome State Fault Refusal :=
  .next (whenUp .edge (slotEnWrite slot value) s)

/-! ### Feeds and the warning (R410, R411, R417) -/

def F.feedFit (x : Nat) : Fld := if x = 0 then F.PWR_PFW_FITA else F.PWR_PFW_FITB
def F.feedLow (x : Nat) : Fld := if x = 0 then F.PWR_STAT_A_LOW else F.PWR_STAT_B_LOW
def F.feedUv (x : Nat) : Fld := if x = 0 then F.PWR_STAT_UVA else F.PWR_STAT_UVB

/-- The warning starts (R411): the drain, and the slots that shed (R417). Its fault is of no one feed, so cell 0 raises it (R360). -/
def State.warnStart (s : State) : State :=
  let s := (s.wr F.PWR_STAT_WARN 1).wr F.PWR_FLAGS_PFW_SEEN 1
  let s := (s.bump K.PWR_CNT_PFW).raise Code.PWR_FAIL_WARN (Src.feed 0) []
  let s := s.pfWarn
  (List.range 8).foldl (fun (s : State) n =>
    if s.slotLive n && s.bit (F.PWR_SLOT_CTL_SHED n) then
      let s := s.slotLow n
      s.setPslot n { s.pslot n with shed := true }
    else s) s

/-- Every fitted feed is low. -/
def State.feedsLow (s : State) : Bool := [0, 1].all (fun x => !s.bit (F.feedFit x) || s.bit (F.feedLow x))

/-- Judge a feed (R410), and start the warning when it was the last (R411). -/
def State.feedJudge (s : State) (x : Nat) : State :=
  let uv := s.bit F.PWR_CTL_FAST_EN && s.bit (F.feedUv x)
  let under := match (s.pdev x).mv with | some v => decide (v < s.rd F.PWR_FEED_LOW_MV) | none => false
  let okMv := match (s.pdev x).mv with | some v => decide (s.rd F.PWR_FEED_OK_MV ≤ v) | none => false
  if s.bit (F.feedLow x) then
    if s.bit (F.feedFit x) = false ∨ (uv = false ∧ okMv = true) then s.wr (F.feedLow x) 0 else s
  else if s.bit (F.feedFit x) && (uv || under) then
    let s := (s.wr (F.feedLow x) 1).raise Code.PWR_FEED_LOW (Src.feed x) []
    if s.feedsLow && !s.bit F.PWR_STAT_WARN then s.warnStart else s
  else s

/-- Both feeds are judged again: what they are judged by has changed. -/
def State.feedsJudge (s : State) : State := (s.feedJudge 0).feedJudge 1

/-- A feed's UV input has changed and kept its level for FILT_US (R410). -/
def pwrFeedUv (x : Nat) (low : Bool) (s : State) : State :=
  if x < 2 then (s.wrB (F.feedUv x) low).feedJudge x else s

def execPwrFeedUv (feed : Nat) (low : Bool) (s : State) : Host.Outcome State Fault Refusal :=
  .next (whenUp .edge (pwrFeedUv feed low) s)

/-- A fitted feed has stayed not low for CLR_US (R411): the slots shed start again (R417). -/
def pwrFailEnd (s : State) : State :=
  if s.bit F.PWR_STAT_WARN && !s.feedsLow then
    let s := (s.wr F.PWR_STAT_WARN 0).raise Code.PWR_FAIL_END (Src.feed 0) []
    let s := s.pfWithdraw
    (List.range 8).foldl (fun (s : State) n =>
      if (s.pslot n).shed then s.setPslot n { s.pslot n with shed := true, ready := true } else s) s
  else s

def execPwrFailEnd (s : State) : Host.Outcome State Fault Refusal := .next (whenUp .edge pwrFailEnd s)

/-! ### PMBus (R406 to R409) -/

def pmbCmd.CLEAR_FAULTS : Nat := 0x03
def pmbCmd.VOUT_MODE : Nat := 0x20
def pmbCmd.IOUT_OC_WARN_LIMIT : Nat := 0x4A
def pmbCmd.VIN_UV_WARN_LIMIT : Nat := 0x58
def pmbCmd.STATUS_WORD : Nat := 0x79
def pmbCmd.READ_VIN : Nat := 0x88
def pmbCmd.READ_IIN : Nat := 0x89
def pmbCmd.READ_VOUT : Nat := 0x8B
def pmbCmd.READ_IOUT : Nat := 0x8C

/-- The port of a device (R406). -/
def pmbPortOf (d : Nat) : Nat := if d < 6 then 0 else 1
/-- Devices of a port. -/
def pmbDevs (p : Nat) : List Nat := if p = 0 then [0, 1, 2, 3, 4, 5] else [6, 7, 8, 9]
/-- The device is set up and its port runs. -/
def State.pdevOn (s : State) (d : Nat) : Bool := s.bit F.PWR_CTL_EN && s.bit (F.PWR_DEV_EN d)

/-- The transaction at the front of a port begins. -/
def State.pmbBegin (s : State) (p : Nat) : State :=
  match (s.pmb p).ops with
  | [] => s
  | o :: _ =>
    let wr : Bool := match o.kind with | .write => true | .clear => true | _ => false
    if wr then s.emit (.pmbWrite o.dev o.cmd o.word) else s.emit (.pmbRead o.dev o.cmd)

/-- Append transactions to a port. -/
def State.pmbAdd (s : State) (p : Nat) (ops : List PmbOp) : State :=
  let x := s.pmb p
  let s := s.setPmb p { x with ops := x.ops ++ ops }
  if x.ops = [] then s.pmbBegin p else s

/-- The limit and image writes of a device, each with its read-back (R406). The LINEAR11 form of a limit is not unique: its word is
a free value. -/
def State.devWrites (s : State) (d : Nat) (mode : Bool) : State :=
  let r := s.free 16
  let cmd := if d < 2 then pmbCmd.VIN_UV_WARN_LIMIT else pmbCmd.IOUT_OC_WARN_LIMIT
  let ws := (cmd, r.1.toNat) :: ((r.2.boot.pmbusWrites.filter (fun w => w.1 == d)).take 8).map (fun w => (w.2.1, w.2.2))
  let ops := ws.flatMap (fun w => [(⟨d, w.1, .write, w.2⟩ : PmbOp), ⟨d, w.1, .back, w.2⟩])
  r.2.pmbAdd (pmbPortOf d) ((if mode && decide (2 ≤ d) then [(⟨d, pmbCmd.VOUT_MODE, .mode, 0⟩ : PmbOp)] else []) ++ ops)

/-- Write every device's limits (R406). -/
def State.pmbLimits (s : State) (mode : Bool) : State :=
  (List.range 10).foldl (fun (s : State) d => if s.pdevOn d then s.devWrites d mode else s) s

/-- PWR_CTL.EN has risen (R406). -/
def State.pwrEnable (s : State) : State := (s.wr F.PWR_CTL_EN 1).pmbLimits true

/-- A missing sample (R407). -/
def State.missSample (s : State) (d : Nat) : State :=
  let x := s.pdev d
  let s := (s.setPdev d { x with missing := x.missing + 1 }).bump K.PWR_CNT_MISS
  let s := s.wr (F.PWR_MEAS_V_VALID d) 0
  if (x.missing + 1) % 3 = 0 then
    (s.wr F.PWR_FLAGS_PMB_ERR 1).raise Code.PWR_PMBUS Src.pmbus
      [pmbPortOf d, s.rd (F.PWR_DEV_ADDR d), x.lastCmd, if x.cause = 0 then 3 else x.cause]
  else s

/-- A sample transaction. -/
def PmbOp.sample (o : PmbOp) : Bool := match o.kind with | .volts => true | .amps => true | _ => false

/-- Samples of the previous cycle are over: one in progress runs out for nothing, the others are not made. -/
def PmbPort.newCycle (x : PmbPort) : PmbPort :=
  match x.ops with
  | [] => x
  | o :: rest => { x with ops := (if o.sample then { o with kind := .stale } else o) :: rest.filter (fun o => !o.sample) }

/-- A sample cycle of one port starts (R407). -/
def State.portCycle (s : State) (p : Nat) : State :=
  let s := (pmbDevs p).foldl (fun (s : State) d =>
    let x := s.pdev d
    let s := if x.cycled && s.pdevOn d then s.missSample d else s
    s.setPdev d { s.pdev d with cycled := s.pdevOn d, volts := none, amps := none }) s
  let s := s.setPmb p (s.pmb p).newCycle
  let ops := (pmbDevs p).flatMap (fun d =>
    if s.pdevOn d then
      [(⟨d, if d < 2 then pmbCmd.READ_VIN else pmbCmd.READ_VOUT, .volts, 0⟩ : PmbOp),
       ⟨d, if d < 2 then pmbCmd.READ_IIN else pmbCmd.READ_IOUT, .amps, 0⟩]
    else [])
  s.pmbAdd p ops

/-- Every 1 ms each port starts a sample cycle (R407). -/
def pwrSampleCycle (s : State) : State :=
  if s.halting 4 then
    -- no sample is taken and none is missed (R436)
    (List.range 10).foldl (fun (s : State) d => s.setPdev d { s.pdev d with cycled := false }) s
  else if s.bit F.PWR_CTL_EN then (s.portCycle 0).portCycle 1 else s

def execPwrSampleCycle (s : State) : Host.Outcome State Fault Refusal := .next (whenUp .edge pwrSampleCycle s)

/-- Y × 2^N in thousandths, rounded toward zero, from 0 to 65,535 (R408): `n` is N modulo 2^w. -/
def linear (y : Int) (n w : Nat) : Nat :=
  if y ≤ 0 then 0
  else
    let m := y.toNat * 1000
    min 65535 (if n < 2 ^ (w - 1) then m * 2 ^ n else m / 2 ^ (2 ^ w - n))

/-- LINEAR11: Y is bits [10:0], N bits [15:11], both two's complement (R408). -/
def linear11 (w : Nat) : Nat :=
  let y := w % 2048
  linear (if y < 1024 then (y : Int) else (y : Int) - 2048) (w / 2048 % 32) 5

/-- LINEAR16: an unsigned mantissa and the exponent of VOUT_MODE bits [4:0]. -/
def linear16 (w mode : Nat) : Nat := linear ((w % 65536 : Nat) : Int) (mode % 32) 5

/-- Both values of a device have been read (R408). The period's energy takes the whole mJ by which the running total rises (DESIGN
CHOICE, log entry 76). -/
def State.sampleDone (s : State) (d mv ma : Nat) : State :=
  let x := s.pdev d
  let mw := mv * ma / 1000
  let uj := satAdd 64 x.uj mw
  let mj := min (2 ^ 48 - 1) (uj / 1000)
  let add := uj / 1000 - x.uj / 1000
  let s := s.setPdev d { x with cycled := false, missing := 0, cause := 0, mv := some mv, uj := uj }
  let s := (s.wr (F.PWR_MEAS_V_VALID d) 1).wr (F.PWR_MEAS_V_MV d) mv
  let s := (s.wr (F.PWR_MEAS_I_MA d) ma).wr (F.PWR_MEAS_P_MW d) mw
  let s := (s.wr (F.PWR_E_LO_MJ_LO d) mj).wr (F.PWR_E_HI_MJ_HI d) (mj / 2 ^ 32)
  let o := 0x210 + 8 * d
  let total := satAdd 48 (s.statGet o + s.statGet (o + 4) * 2 ^ 32) add
  let s := (s.statSet o (total % 2 ^ 32)).statSet (o + 4) (total / 2 ^ 32)
  if d < 2 then s.feedJudge d else s

/-- What a completed transaction brings (R406 to R409). -/
def State.pmbResult (s : State) (p : Nat) (o : PmbOp) (w : Nat) : State :=
  let d := o.dev
  let x := s.pdev d
  match o.kind with
  | .volts =>
    let v := if d < 2 then linear11 w else linear16 w x.mode
    match x.amps with
    | some a => s.sampleDone d v a
    | none => s.setPdev d { x with volts := some v }
  | .amps =>
    match x.volts with
    | some v => s.sampleDone d v (linear11 w)
    | none => s.setPdev d { x with amps := some (linear11 w) }
  | .mode => s.setPdev d { x with mode := w % 32 }
  | .back =>
    if w % 65536 = o.word % 65536 then s
    else (s.wr F.PWR_FLAGS_PMB_ERR 1).raise Code.PWR_PMBUS Src.pmbus [p, s.rd (F.PWR_DEV_ADDR d), o.cmd, 4]
  | .alertAddr =>
    match (pmbDevs p).find? (fun d => s.bit (F.PWR_DEV_EN d) && s.rd (F.PWR_DEV_ADDR d) == w / 2 % 128) with
    | some d => s.setPmb p { s.pmb p with ops := ⟨d, pmbCmd.STATUS_WORD, .status, 0⟩ :: ⟨d, pmbCmd.CLEAR_FAULTS, .clear, 0⟩ ::
        (s.pmb p).ops }
    | none => s
  | .status =>
    let s := (s.wr (F.PWR_MEAS_STATUS_STATUS d) w).bump K.PWR_CNT_ALERT
    let s := s.wr F.PWR_FLAGS_ALERT 1
    if d < 2 then s.raise Code.PWR_FEED_EVENT (Src.feed d) [w % 65536] else s
  | .write | .clear | .stale => s

/-- The transaction in progress on a port ends (R407, R408): not acknowledged or failing PEC, it is tried once more. -/
def pmbusTransactionDone (p cause w : Nat) (s : State) : State :=
  let x := s.pmb p
  match x.ops with
  | [] => s
  | o :: rest =>
    if cause = 0 then ((s.setPmb p ⟨rest, false⟩).pmbResult p o w).pmbBegin p
    else if (cause = 1 ∨ cause = 2) ∧ x.again = false then (s.setPmb p { x with again := true }).pmbBegin p
    else
      let s := if o.sample then s.setPdev o.dev { s.pdev o.dev with lastCmd := o.cmd, cause := cause } else s
      (s.setPmb p ⟨rest, false⟩).pmbBegin p

def execPmbusTransactionDone (port cause word : Nat) (s : State) : Host.Outcome State Fault Refusal :=
  .next (whenUp .edge (pmbusTransactionDone port cause word) s)

/-- PMBx_ALERT_N is accepted low (R409): served after the transaction in progress. -/
def pmbAlert (p : Nat) (s : State) : State :=
  if 2 ≤ p ∨ s.bit F.PWR_CTL_EN = false then s
  else
    let o : PmbOp := ⟨0, 0, .alertAddr, 0⟩
    match (s.pmb p).ops with
    | [] => s.pmbAdd p [o]
    | a :: rest => s.setPmb p { s.pmb p with ops := a :: o :: rest }

def execPmbAlert (port : Nat) (s : State) : Host.Outcome State Fault Refusal := .next (whenUp .edge (pmbAlert port) s)

/-! ### Droop (R419, R420) -/

def droopDetect (s : State) : State :=
  if s.bit F.CLK_DROOP_CTL_EN && !s.bit F.CLK_STAT_HALF then
    ((s.wr F.CLK_STAT_HALF 1).bump K.CLK_CNT_DROOP |>.statAdd 0x2C 1).raise Code.CLK_DROOP Src.droop []
  else s

def execDroopDetect (s : State) : Host.Outcome State Fault Refusal := .next (whenUp .mgmt droopDetect s)

def droopClean (s : State) : State := s.wr F.CLK_STAT_HALF 0

def execDroopClean (s : State) : Host.Outcome State Fault Refusal := .next (whenUp .mgmt droopClean s)

end Sys2Proof.Machine
end

