-- ==== Sys2Proof/Machine/Commit.lean ====
section
/-! DEFINITION. Committing staged configuration at a boundary: the checks of the lens table, the fold table, rings and host window
segments, and the exchange of the banks (R40, R42 to R44, R52, R53, R95, R196, R199, R438 to R441). -/

namespace Sys2Proof.Machine

/-! ### What differs (R438) -/

/-- Registers listed in either bank. -/
def State.bankKeys (s : State) : List Nat :=
  s.regs.eff.map (fun e => e.1) ++ (s.regs.shadow.map (fun e => e.1)).filter (fun k => !s.regs.eff.any (fun e => e.1 == k))

/-- Registers whose STAGED fields differ between the banks. -/
def State.bankDiff (s : State) : List Nat := s.bankKeys.filter (fun k => s.shd k != (s.reg k &&& stagedMask k))

/-- PENDING: the shadow differs from the effective bank. While the old bank retires, what the shadow will be loaded with counts; a
schedule descriptor copied or on its way is part of the shadow (DEDUCED from COPIED, R334; log entry 16). -/
def State.commitPending (s : State) : Bool :=
  (if s.bit F.CHIP_COMMIT_STAT_RETIRING then s.regs.refused != [] else s.bankDiff != []) ||
    s.cad.sch.any (fun e => e.2.shadow.isSome || e.2.copying)

/-- A register of the outbound or inbound lens table. -/
def isLensKey (k : Nat) : Bool := decide (0x4000 ≤ keyOff k ∧ keyOff k < 0x5800)
/-- A register of the fold table. -/
def isFoldKey (k : Nat) : Bool := decide (0x3800 ≤ keyOff k ∧ keyOff k < 0x4000)

/-! ### The bank the commit would make effective -/

/-- A field of the shadow. -/
def State.shdBit (s : State) (f : Fld) : Bool := decide (s.shdF f ≠ 0)

/-- The bank number of the shadow, as a task's BANK names it. -/
def State.shadowBank (s : State) : Bool := !s.bit F.CHIP_COMMIT_STAT_BANK

/-! ### Outbound lenses (R42 to R44) -/

/-- Address bits of a VME space: A16, A24, A32, A64, CR/CSR. -/
def spaceBits (space : Nat) : Nat := getAt 24 [16, 24, 32, 64, 24] space

/-- Single-cycle AM codes legal for a space (R43). -/
def legalAm (space am : Nat) : Bool :=
  match space with
  | 0 => [0x29, 0x2D].contains am
  | 1 => [0x39, 0x3A, 0x3D, 0x3E].contains am
  | 2 => [0x09, 0x0A, 0x0D, 0x0E].contains am
  | 3 => am == 0x01
  | _ => am == 0x2F

/-- BURST, WIDTH and SPACE go together (R44). -/
def burstOk (burst width space : Nat) : Bool :=
  match burst with
  | 0 => true
  | 1 => decide (1 ≤ width) && (space == 1 || space == 2 || space == 3)
  | 2 => width == 3 && (space == 1 || space == 2 || space == 3)
  | _ => width == 3 && (space == 2 || space == 3)

/-- Two enabled lenses share an offset. -/
def OutLens.meets (a b : OutLens) : Bool := a.en && b.en && rangesMeet a.fbase (2 ^ a.size) b.fbase (2 ^ b.size)

/-- The lowest cause that fails, 0 for none (R42). `others` are the other lenses of the table. -/
def outLensCause (l : OutLens) (others : List OutLens) : Nat :=
  if !l.en then 0
  else if min 36 (spaceBits l.space) < l.size then 0x01
  else if l.fbase % 2 ^ l.size ≠ 0 then 0x02
  else if l.vbase % 2 ^ l.size ≠ 0 ∨ 2 ^ spaceBits l.space < l.vbase + 2 ^ l.size then 0x03
  else if !legalAm l.space l.am then 0x04
  else if !burstOk l.burst l.width l.space then 0x05
  else if others.any (fun o => l.meets o) then 0x06
  else if l.cache && (!l.prefetch || l.space == 4) then 0x07
  else if l.phgate && l.phopen == l.phclose then 0x08
  else 0

/-! ### Inbound lenses (R52, R95) -/

/-- Transfer types defined for a space, as AMSEL bits (R52). -/
def typesOf (space : Nat) : List Nat := getAt [8, 9, 10, 11, 12] [[8], [8, 9, 10]] space

/-- Class bits the cycles of a transfer type carry in a space (R51); none where they carry no class. -/
def classBits (space t : Nat) : List Nat :=
  if space = 3 ∨ 11 ≤ t then []
  else if t = 8 ∧ space ≠ 0 then [0, 1, 2, 3]
  else [0, 2]

/-- Transfer types a lens selects. -/
def InLens.types (l : InLens) : List Nat := (typesOf l.space).filter (fun t => l.amsel.testBit t)

/-- AMSEL selects something a cycle can match (cause 0x14). -/
def InLens.amOk (l : InLens) : Bool :=
  l.types != [] &&
    (let bits := l.types.flatMap (classBits l.space)
     bits == [] || bits.any (fun b => l.amsel.testBit b))

/-- Two lenses could match one cycle (cause 0x15). -/
def InLens.meets (a b : InLens) : Bool :=
  a.en && b.en && a.space == b.space && rangesMeet a.vbase (2 ^ a.size) b.vbase (2 ^ b.size) &&
    a.types.any (fun t => b.types.contains t &&
      (let bits := classBits a.space t
       bits == [] || bits.any (fun c => a.amsel.testBit c && b.amsel.testBit c)))

/-- The longest hold the bus timer permits (R95). -/
def holdMax (bto : Nat) : Nat := bto - max 2 ((bto + 15) / 16)

/-- The lowest cause that fails, 0 for none (R52). -/
def inLensCause (bto : Nat) (l : InLens) (others : List InLens) : Nat :=
  if !l.en then 0
  else if spaceBits l.space < l.size then 0x11
  else if l.vbase % 2 ^ l.size ≠ 0 ∨ 2 ^ spaceBits l.space < l.vbase + 2 ^ l.size then 0x12
  else if l.faddr % 2 ^ l.size ≠ 0 ∨ faHigh l.faddr ≠ 0 ∨ faNode l.faddr = bcastNode then 0x13
  else if !l.amOk then 0x14
  else if others.any (fun o => l.meets o) then 0x15
  else if holdMax bto < l.holdUs then 0x16
  else 0

/-- Every element beside the others. -/
def withOthers {α : Type} : List α → List α → List (α × List α)
  | _, [] => []
  | before, x :: rest => (x, before ++ rest) :: withOthers (before ++ [x]) rest

/-- Causes of the lens table of a bank: outbound lenses 0 to 63, then inbound lenses (R53). -/
def State.lensCauses (s : State) (bank : Bool) : List Nat :=
  (withOthers [] ((List.range 64).map (s.outLens bank))).map (fun p => outLensCause p.1 p.2) ++
    (withOthers [] ((List.range 32).map (s.inLens bank))).map (fun p => inLensCause (s.rd F.VME_BUS_TIMER_BTO_US) p.1 p.2)

/-- REFUSED and CAUSE of every lens (R53). -/
def State.lensMarks (s : State) (causes : List Nat) : State :=
  (List.range 96).foldl (fun (s : State) n =>
    let c := getAt 0 causes n
    if n < 64 then (s.wr (F.LNSO_STAT_REFUSED n) (b2n (c != 0))).wr (F.LNSO_STAT_CAUSE n) c
    else (s.wr (F.LNSI_STAT_REFUSED (n - 64)) (b2n (c != 0))).wr (F.LNSI_STAT_CAUSE (n - 64)) c) s

/-! ### The fold table (R196) -/

/-- The fold at which the sum of RSV first exceeds the pool: `n` folds are still to be added from fold `f`. -/
def State.rsvOver (s : State) : Nat → Nat → Nat → Option Nat
  | 0, _, _ => none
  | n + 1, f, sum =>
    let t := sum + s.shdF (F.FLD_F_RSV_RSV f)
    if 110592 < t then some f else s.rsvOver n (f + 1) t

/-- Sum of RSV in the shadow. -/
def State.rsvSum (s : State) : Nat := (List.range 4096).foldl (fun (n : Nat) f => n + s.shdF (F.FLD_F_RSV_RSV f)) 0

/-- Send heads (R179). -/
def sendHeadNo (h : Nat) : Bool := decide (64 ≤ h ∧ h < 128) || decide (144 ≤ h)

/-- Cause and index of a refusal of the fold table in the shadow; cause 0 for none. -/
def State.foldCause (s : State) : Nat × Nat :=
  match s.rsvOver 4096 0 0 with
  | some f => (0x21, f)
  | none =>
    match (List.range 4096).find? (fun f => decide (s.shdF (F.FLD_F_QUOTA_QUOTA f) < s.shdF (F.FLD_F_RSV_RSV f))) with
    | some f => (0x22, f)
    | none =>
      let map := (List.range 160).map (fun h => s.shdF (F.FLD_HMAP_FOLD h))
      match (List.range 160).find? (fun h => decide (getAt 0 map h < 64)) with
      | some h => (0x23, h)
      | none =>
        match (List.range 160).find? (fun h => sendHeadNo h &&
            (List.range 160).any (fun g => g != h && getAt 0 map g == getAt 0 map h)) with
        | some h => (0x24, h)
        | none => (0, 0)

/-! ### Rings and host window segments (R40, R199) -/

/-- A ring lies whole in one row and in one segment. -/
def ringFits (base len : Nat) : Bool := oneRow (faOffset base) len && decide (faOffset base + len ≤ 2 ^ 48)

/-- The rings a table holds: registers of its base and control, its size field, its entry. -/
def ringTable : List (List Nat × Fld × Fld × Nat) :=
  (List.range 256).map (fun r => ([K.HST_CR_BASE_LO r, K.HST_CR_BASE_HI r, K.HST_CR_CTL r], F.HST_CR_CTL_EN r, F.HST_CR_CTL_SIZE r, 64)) ++
  (List.range 256).map (fun c => ([K.HST_CQ_BASE_LO c, K.HST_CQ_BASE_HI c, K.HST_CQ_CTL c], F.HST_CQ_CTL_EN c, F.HST_CQ_CTL_SIZE c, 16)) ++
  [([K.HST_EVR_BASE_LO, K.HST_EVR_BASE_HI, K.HST_EVR_CTL], F.HST_EVR_CTL_EN, F.HST_EVR_CTL_SIZE, 32),
   ([K.HST_STR_BASE_LO, K.HST_STR_BASE_HI, K.HST_STR_CTL], F.HST_STR_CTL_EN, F.HST_STR_CTL_SIZE, 4096)]

/-- Register groups refused at the commit: rings that would be enabled and do not fit, and segments that run past the end. -/
def State.groupsRefused (s : State) : List (List Nat) :=
  let word := fun (ks : List Nat) (i : Nat) => (s.shd (getAt 0 ks i)).toNat
  let rings := (ringTable.filter (fun r => s.shdBit r.2.1 &&
      !ringFits (baseOf (word r.1 0 / 4096) (word r.1 1)) (2 ^ s.shdF r.2.2.1 * r.2.2.2))).map (fun r => r.1)
  let segs := ((List.range 8).filter (fun i => s.shdBit (F.HST_HWIN_CTL_EN i) &&
      decide (2 ^ 64 ≤ baseOf (s.shdF (F.HST_HWIN_BASE_LO_HBASE_LO i)) (s.shdF (F.HST_HWIN_BASE_HI_HBASE_HI i)) + 0xFFFFFFFFF))).map
      (fun i => [K.HST_HWIN_CTL i, K.HST_HWIN_BASE_LO i, K.HST_HWIN_BASE_HI i])
  rings ++ segs

/-! ### What a commit brings about -/

/-- A lens whose effective settings have changed loses its claims and its cached lines (R55, R163, R169). -/
def State.lensChanged (s : State) (n : Nat) (old : OutLens) : State :=
  let s := s.setClaims (s.ord.claims.filter (fun c => c.lensNo != some n))
  if old.en then (s.lcDrop old.space old.vbase (2 ^ old.size)).2 else s

/-- The registers of the output masks and safe images (R349 category IMAGE). -/
def isImageKey (k : Nat) : Bool :=
  (List.range 8).any (fun n => (List.range 4).any (fun i => K.DC_OUTMASK n i == k || K.DC_SAFE n i == k))

/-- Fields of schedule entry `k` as REG pairs: the entry is named through CAD_SCH_SEL, since the record has no other place for it
(DESIGN CHOICE, log entry 17). -/
def State.schPairs (s : State) (k : Nat) : List Byte :=
  ([(K.CAD_SCH_SEL, k), (0x7054, (s.reg (K.CAD_SCH_CTL k)).toNat), (0x7058, (s.reg (K.CAD_SCH_FRM k)).toNat),
    (0x705C, (s.reg (K.CAD_SCH_PH k)).toNat)] : List (Nat × Nat)).flatMap (fun p => leBytes 4 p.1 ++ leBytes 4 p.2)

/-- SCHED: the descriptor of entry `k` (R351). -/
def State.mirrorDesc (s : State) (k : Nat) : State :=
  s.mirror 7 (leBytes 8 k ++ slice (s.schEntry k).desc 0 64)

/-- The schedule table follows the commit: copies take effect, an entry that becomes enabled is armed (DESIGN CHOICE, log entry 18). -/
def State.schCommitted (s : State) (was : List Nat) : State :=
  (List.range 256).foldl (fun (s : State) k =>
    let e := s.schEntry k
    let fresh := s.bit (F.CAD_SCH_CTL_EN k) && !was.contains k
    let s := if e.shadow.isSome || fresh then
        s.setSch k { e with desc := e.shadow.getD e.desc, shadow := none, armed := e.armed || fresh }
      else s
    if e.shadow.isSome && s.mirrors 4 then s.mirrorDesc k else s) s

/-- Mirror records of what the commit has put in effect (R349). -/
def State.mirrorCommitted (s : State) (keys : List Nat) : State :=
  let s := keys.foldl (fun (s : State) k =>
    if isLensKey k then s.mirrorReg 0 k (s.reg k)
    else if isImageKey k then s.mirrorReg 2 k (s.reg k)
    else if k = K.CAD_SCHB then s.mirrorReg 4 k (s.reg k)
    else s) s
  if s.mirrors 4 then
    (List.range 256).foldl (fun (s : State) k =>
      if keys.any (fun j => j == K.CAD_SCH_CTL k || j == K.CAD_SCH_FRM k || j == K.CAD_SCH_PH k) then s.mirror 1 (s.schPairs k)
      else s) s
  else s

/-- A CONFIG_COMMIT completes (R209, R440). -/
def State.commitDone (s : State) (w : CommitWait) (p bits : Nat) : State :=
  let r := bits + (if w.waited then 4 else 0) + p % 2 ^ 32 * 2 ^ 32
  s.detachResult w.task ⟨if bits = 0 then St.OK else St.CFG_REFUSED, 0, leBytes 8 r⟩

/-- A refused lens table, a refused fold table (R438): some cause is not 0. -/
def State.lensRefused (s : State) : Bool := (s.lensCauses s.shadowBank).any (fun c => c != 0)
def State.foldRefused (s : State) : Bool := s.foldCause.1 != 0

/-- Whether a commit refuses the register of a key, given what it found (R438). -/
def refusedKey (lensBad foldBad : Bool) (groups : List (List Nat)) (k : Nat) : Bool :=
  (lensBad && isLensKey k) || (foldBad && isFoldKey k) || groups.any (fun g => g.contains k)

/-- The exchange: the shadow becomes effective but for what is refused, and the old values become the other bank (R438). -/
def State.exchange (s : State) (refused : Nat → Bool) (keys : List Nat) : State :=
  keys.foldl (fun (s : State) k =>
    let old := s.reg k
    let new := s.shd k
    let m := stagedMask k
    let s := s.setShd k old
    if refused k then s else s.setReg k ((old &&& ~~~m) ||| new)) s

/-- What a commit refused stays as it would have become, until the old bank is free (R438, R441). -/
def State.keepRefused (s : State) (l : List (Nat × Word)) : State := { s with regs := { s.regs with refused := l } }

/-- The commit's own registers after the exchange at boundary `p` (R438, R440). -/
def State.commitMarks (s : State) (p : Nat) : State :=
  let s := (s.wrB F.CHIP_COMMIT_STAT_BANK (!s.bit F.CHIP_COMMIT_STAT_BANK)).wr F.CHIP_COMMIT_STAT_RETIRING 1
  let s := (s.wr F.CHIP_COMMIT_STAT_WAITING 0).bump K.CHIP_CNT_COMMIT
  let s := (s.wr F.CHIP_COMMIT_LAST_LO_P p).wr F.CHIP_COMMIT_LAST_HI_P (p / 2 ^ 32)
  (s.wr F.CHIP_COMMIT_TARGET_LO_TARGET 0).wr F.CHIP_COMMIT_TARGET_HI_TARGET 0

/-- A refused lens table takes its bad entries into the new effective bank and raises CFG_LENS (R379, R438). -/
def State.lensRefusal (s : State) (oldBank : Bool) (causes : List Nat) : State :=
  let bad := s.flt.badWords.filter (fun w => w.1 == 5 && w.2.2 == oldBank)
  let bad := (bad.map (fun w => (w.1, w.2.1, !oldBank))).filter (fun w => !s.flt.badWords.contains w)
  ({ s with flt := { s.flt with badWords := s.flt.badWords ++ bad } }).raise Code.CFG_LENS Src.setup
    [((List.range 96).find? (fun n => getAt 0 causes n != 0)).getD 0]

/-- What the fold table's check found (R196, R438). -/
def State.foldVerdict (s : State) (fc : Nat × Nat) : State :=
  let s := ((s.wrB F.FLD_COMMIT_STAT_REFUSED (fc.1 != 0)).wr F.FLD_COMMIT_STAT_CAUSE fc.1).wr F.FLD_COMMIT_STAT_INDEX fc.2
  if fc.1 != 0 then s.raise Code.CFG_FOLD Src.setup [fc.1 * 65536 + fc.2] else
    s.wr F.FLD_POOL_RSV_RSV_SUM ((List.range 4096).foldl (fun (n : Nat) f => n + s.rd (F.FLD_F_RSV_RSV f)) 0)

/-- The refusals of a commit are reported; `o` is the state before it (R438). -/
def State.commitRefusals (s o : State) : State :=
  let causes := o.lensCauses o.shadowBank
  let s := s.lensMarks causes
  let s := if o.lensRefused then s.lensRefusal (o.bit F.CHIP_COMMIT_STAT_BANK) causes else s
  o.groupsRefused.foldl (fun (s : State) _ => s.raise Code.CFG_RANGE Src.setup []) (s.foldVerdict o.foldCause)

/-- The outbound lenses whose entry a commit changed; `o` is the state before it. -/
def State.lensesCommitted (s o : State) : State :=
  let b := o.bit F.CHIP_COMMIT_STAT_BANK
  (List.range 64).foldl (fun (s : State) n =>
    let old := o.outLens b n
    if s.outLens (!b) n = old then s else s.lensChanged n old) s

/-- A changed cadence source, or a changed period of one that follows the epoch (R317, R321). -/
def State.cadCommitted (s o : State) : State :=
  if s.rd F.CAD_CTL_SOURCE ≠ o.rd F.CAD_CTL_SOURCE then s.cadSelect
  else if s.rd F.CAD_EPF_EPF_NS ≠ o.rd F.CAD_EPF_EPF_NS ∧ s.cadSource = 1 ∧ s.cadState = 1 then s.epochRateSet.cadStepTo s.epochPos
  else s

/-- Changed power limits are written to the slots (R406), and the feeds are judged by them (R410). -/
def State.limitsCommitted (s o : State) : State :=
  let s := if s.rd F.PWR_FEED_LOW_MV = o.rd F.PWR_FEED_LOW_MV ∧ s.rd F.PWR_FEED_OK_MV = o.rd F.PWR_FEED_OK_MV then s else s.feedsJudge
  if (decide (o.shdF F.PWR_FEED_LOW_MV ≠ o.rd F.PWR_FEED_LOW_MV) || (List.range 8).any (fun n => o.bankDiff.contains (K.PWR_SLOT_LIMIT n))) &&
    s.bit F.PWR_CTL_EN then s.pmbLimits false else s

/-- STALE_US of 0 stops a stale-tail timer (R191). -/
def State.staleCommitted (s : State) : State :=
  s.fold.folds.foldl (fun (s : State) (e : Nat × Fold) =>
    if e.2.staleRun && s.rd (F.FLD_F_STALE_STALE_US e.1) == 0 then
      s.setFold e.1 { s.foldOf e.1 with staleRun := false } else s) s

/-- Every CONFIG_COMMIT that waited completes. -/
def State.commitAnswers (s : State) (p bits : Nat) : State :=
  s.commits.foldl (fun (s : State) w => s.commitDone w p bits) { s with commits := [] }

/-- DE follows a wiring that a commit has changed (R285). -/
def State.wireCommitted (s old : State) : State :=
  (List.range 64).foldl (fun (s : State) n =>
    if s.rd (F.SP_CTL_WIRE n) = old.rd (F.SP_CTL_WIRE n) then s
    else if s.rd (F.SP_CTL_WIRE n) = 0 then s.deFull n
    else if (s.sp n).de && (s.sp n).tx.isNone then (s.setSp n { s.sp n with de := false }).emit (.de n false)
    else s) s

/-- The commit itself, in cycle B of boundary `p` (R438). -/
def State.commitNow (s : State) (p : Nat) : State :=
  let refused := refusedKey s.lensRefused s.foldRefused s.groupsRefused
  let diff := s.bankDiff
  let t := (s.exchange refused diff).keepRefused ((diff.filter refused).map (fun k => (k, s.shd k)))
  let t := ((t.commitMarks p).commitRefusals s).lensesCommitted s
  let t := (t.mirrorCommitted (diff.filter (fun k => !refused k))).schCommitted
    ((List.range 256).filter (fun k => s.bit (F.CAD_SCH_CTL_EN k)))
  let t := (((t.cadCommitted s).limitsCommitted s).wireCommitted s).staleCommitted.placeCheck.retryWaiting
  t.commitAnswers p (b2n s.lensRefused + 2 * b2n s.foldRefused)

/-- TARGET (R440). -/
def State.commitTarget (s : State) : Nat := s.rd F.CHIP_COMMIT_TARGET_LO_TARGET + s.rd F.CHIP_COMMIT_TARGET_HI_TARGET * 2 ^ 32

/-- The boundary after which the period number is `p` (R438 to R440). -/
def State.commitBoundary (s : State) (p : Nat) : State :=
  let pend := s.commitPending
  let why := 8 * b2n (s.bit F.CHIP_COMMIT_CTL_HOLD) + 4 * b2n (s.cad.sch.any (fun e => e.2.copying)) +
    2 * b2n (s.bit F.CHIP_COMMIT_STAT_RETIRING) + b2n (decide (p < s.commitTarget))
  if pend && why == 0 then s.commitNow p
  else
    let s := if pend then
        ((s.wr F.CHIP_COMMIT_STAT_WAITING 1).wr F.CHIP_COMMIT_STAT_WHY why |>.bump K.CHIP_CNT_COMMIT_WAIT).raise Code.CFG_COMMIT_WAIT
          Src.setup [p % 2 ^ 32, why, s.commitTarget % 2 ^ 32]
      else s
    let asked := fun (w : CommitWait) => match w.target with | some n => decide (n ≤ p) | none => true
    let go := fun (w : CommitWait) => !w.pending || (!pend && asked w)
    let ws := s.commits
    let s := { s with commits := (ws.filter (fun w => !go w)).map (fun w => { w with waited := w.waited || asked w }) }
    (ws.filter go).foldl (fun (s : State) w => s.commitDone w p 0) s

/-! ### Retiring the old bank (R441) -/

/-- Something still uses the old bank: a task not yet resolved, held or waiting work, or an inbound lookup. -/
def State.bankInUse (s : State) (bank : Bool) : Bool :=
  s.drv.drv.any (fun e => e.2.fold.any (fun t => t.bank == bank) ||
    (match e.2.exec with
     | some x => x.task.bank == bank && (x.phase == .gate || x.phase == .ready || x.phase == .ordWait)
     | none => false)) ||
  s.drv.waiting.any (fun t => t.bank == bank) ||
  (match s.vin.cyc with
   | some c => c.bank == bank && (c.stage != .ended && c.stage != .ignored)
   | none => false)

end Sys2Proof.Machine
end

