-- ==== Sys2Proof/Machine/Link.lean ====
section
/-! DEFINITION. Ring links: training, received frames, retry, losing lanes and links (R229 to R250). -/

namespace Sys2Proof.Machine

/-! ### Going up and down -/

/-- Lane `l` starts from step 1 (R234). -/
def State.laneReset (s : State) (l : Nat) : State :=
  let s := s.setLane l { (s.lane l) with clock := false, marker := none, lockTimer := false, ue := 0, ready := false }
  (((s.wr (F.LNK_LANE_STAT_BLOCK l) 0).wr (F.LNK_LANE_STAT_CWLOCK l) 0).wr (F.LNK_LANE_STAT_INBOND l) 0)

/-- Every lane of a link starts from step 1, and neither direction has a bond. -/
def State.linkRetrain (s : State) (k : Nat) : State :=
  (((lanesOf k).foldl (fun s l => s.laneReset l) s).wr (F.LNK_LINK_STAT_RXL k) 0).wr (F.LNK_LINK_STAT_TXL k) 0

/-- Units of pool `q` that frames of an earlier training still hold in side `k`'s buffer (R258). -/
def State.occupied (s : State) (k q : Nat) : Nat :=
  let of := fun (n : Nat) (x : RxPkt) => if x.pool = q then n + x.units else n
  let sent := fun (n : Nat) (w : TxWait) => if w.from_ = some k ∧ w.pkt.pool = q then n + w.pkt.units else n
  (s.link 0).waiting.foldl sent ((s.link 1).waiting.foldl sent
    ((getAt [] s.net.rx k).foldl of ((getAt [] s.net.dropWait k).foldl of 0)))

/-- Retry buffers, sequences and credits as step 7 leaves them (R234). Waiting packets, and what the lanes have sent, stay. -/
def Link.fresh (l : Link) : Link :=
  { Link.idle with
    failRaised := l.failRaised, waiting := l.waiting, lastBulk := l.lastBulk, lastPass := l.lastPass
    txBlocks := l.txBlocks, txMarker := l.txMarker, rnode := l.rnode }

/-- What link P hands over (R248, R249): unacknowledged and waiting mirror packets move to the ring while RING_MIRROR is 1 (R347). BEACONs
and ACKs have gone on the ring too (R339), and are not sent again (DESIGN CHOICE, log entry 62). -/
def State.peerHanded (s : State) (held : List (Nat × Packet)) : State :=
  let ps := held.map (fun x => x.2) ++ (s.link 2).waiting.map (fun w => w.pkt)
  let s := s.setLink 2 { s.link 2 with waiting := [] }
  if s.bit F.TWN_CTL_RING_MIRROR && !s.linkFenced then
    (ps.filter (fun p => p.kind == Kind.MIRROR)).foldl (fun (s : State) p => s.injectOn (s.chooseRing p.dst p.cls) p) s
  else s

/-- The network layer learns that a side is down (R265), the twin unit that link P is (R347); each takes the unacknowledged frames. -/
def State.layerDown (s : State) (k : Nat) (held : List (Nat × Packet)) (nextSeq : Nat) : State :=
  if k < 2 then s.wrapSide k held nextSeq
  else if s.bit F.TWN_CTL_EN then
    let s := s.peerHanded held
    let s := (s.raise Code.TWN_PEER_DOWN Src.twin []).bump K.TWN_CNT_PEER_DOWN
    -- mirroring stops, and the standby is no longer synchronised, while RING_MIRROR is 0 (R347, R355)
    if !s.bit F.TWN_CTL_RING_MIRROR && !s.bit F.TWN_STAT_CROOK && s.bit F.TWN_STAT_SYNC then
      let s := (s.wr F.TWN_STAT_SYNC 0).raise Code.TWN_EPOCH_BAD Src.twin [s.rd F.TWN_EPOCH_EPOCH + 1]
      let s := s.bumpN K.TWN_CNT_EP_DISCARD s.twin.banks.length
      { s with twin := { s.twin with
        asked := false, banks := [], committing := s.twin.committing.map (fun (b : StageBank) => { b with bad := true }) } }
    else s
  else s

/-- A link goes down (R248). `st` is the STATE it shows: 3 awaiting retrain, 0 disabled. -/
def State.linkDown (s : State) (k st : Nat) : State :=
  if s.linkUp k then
    let l := s.link k
    let s := (s.raise Code.LNK_DOWN (Src.link k) []).bump (K.LNK_LINK_CNT_DOWN k)
    let s := s.setLink k l.fresh
    let s := ((s.wr (F.LNK_LINK_STAT_STATE k) st).wr (F.LNK_LINK_STAT_RXL k) 0).wr (F.LNK_LINK_STAT_TXL k) 0
    let s := (s.wr (F.LNK_LINK_STAT_OUT k) 0).linkRetrain k
    s.layerDown k l.unacked l.expect
  else
    let s := (s.setLink k (s.link k).fresh).linkRetrain k
    ((s.wr (F.LNK_LINK_STAT_STATE k) st).wr (F.LNK_LINK_STAT_RXL k) 0).wr (F.LNK_LINK_STAT_TXL k) 0

/-- Side `k` is straight again once its link is up and no hold runs (R267, R268). -/
def State.linkBack (s : State) (k : Nat) : State :=
  if k < 2 ∧ s.wrapped k = true then
    let w := s.wrapRec k
    if w.waiting then s.setWrapRec k { w with unwrapDue := true } else s.unwrapSide k
  else s

/-- The link is up (R234 step 7, R258): sequences start at zero and the pool limits are sent. Units that frames of before still hold
count as sent and not yet freed (DESIGN CHOICE, log entry 63). -/
def State.linkUpNow (s : State) (k : Nat) : State :=
  let s := s.setLink k { (s.link k).fresh with
    failRaised := false, rxFreed := (List.range 4).map (fun q => (256 - s.occupied k q % 256) % 256) }
  let s := s.wr (F.LNK_LINK_STAT_STATE k) 2
  let s := s.wr (F.LNK_LINK_STAT_OUT k) 0
  let s := s.sendFrame k 5 0 0 (leBytes 8 (64 * 2 ^ 56 + 128 * 2 ^ 48 + 224 * 2 ^ 40 + 224 * 2 ^ 32)) false
  s.linkBack k

/-- EN of link `k` in a value of LNK_CTL. -/
def linkEn (v : Word) (k : Nat) : Bool := bitOf v (31 - k)

/-- An armed FEC injection on lane `l` corrupts the codeword that leaves now: codewords follow one another without a gap on every lane of
an enabled link (R231, R250). -/
def State.fireCodeword (s : State) (l : Nat) : State :=
  match (s.lane l).inject with
  | some (true, n) =>
    if linkEn (s.reg K.LNK_CTL) (linkOfLane l) then
      (s.setLane l { s.lane l with inject := none }).emit (.codewordError l n)
    else s
  | _ => s

/-- A write of LNK_CTL (R234, R250). -/
def linkEnable (value : Word) (s : State) : State :=
  let old := s.reg K.LNK_CTL
  let s := s.setReg K.LNK_CTL (value &&& 0xF0000000#32)
  [0, 1, 2].foldl (fun s k =>
    if linkEn value k && !linkEn old k then
      let s := (((s.setLink k { (s.link k).fresh with failRaised := false }).linkRetrain k).wr (F.LNK_LINK_STAT_STATE k) 1)
      (lanesOf k).foldl State.fireCodeword s
    else if !linkEn value k && linkEn old k then s.linkDown k 0
    else s) s

def execLinkEnable (value : Word) (s : State) : Host.Outcome State Fault Refusal :=
  .next (whenUp .link (linkEnable value) s)

/-! ### Training -/

/-- The link of the lane is enabled (R250). -/
def State.laneEnabled (s : State) (l : Nat) : Bool := linkEn (s.reg K.LNK_CTL) (linkOfLane l)

/-- Training steps 1 and 2 of a lane end (R234). -/
def clockRecovered (lane : Nat) (s : State) : State :=
  if lane < 5 ∧ s.laneEnabled lane = true then s.setLane lane { s.lane lane with clock := true } else s

def execClockRecovered (lane : Nat) (s : State) : Host.Outcome State Fault Refusal :=
  .next (whenUp .link (clockRecovered lane) s)

/-- Block lock is gained or lost (R234 step 3, R246). Loss starts LOCK_US; regaining lock stops it (R245). -/
def blockLock (lane : Nat) (gained : Bool) (s : State) : State :=
  if lane < 5 ∧ s.laneEnabled lane = true ∧ (s.lane lane).clock = true then
    if gained then
      (s.setLane lane { s.lane lane with lockTimer := false }).wr (F.LNK_LANE_STAT_BLOCK lane) 1
    else if s.bit (F.LNK_LANE_STAT_BLOCK lane) then
      let s := (s.wr (F.LNK_LANE_STAT_BLOCK lane) 0).bump (K.LNK_LANE_CNT_LOCK_LOSS lane)
      let s := (s.wr (F.LNK_LANE_STAT_CWLOCK lane) 0)
      s.setLane lane { s.lane lane with lockTimer := s.bit (F.LNK_LANE_STAT_INBOND lane), marker := none, ready := false }
    else s
  else s

def execBlockLock (lane : Nat) (gained : Bool) (s : State) : Host.Outcome State Fault Refusal :=
  .next (whenUp .link (blockLock lane gained) s)

/-- The SIDE a marker must carry at each link (R235): E at side W, W at side E, P at lane P. -/
def wantedSide (k : Nat) : Nat := if k = 0 then 1 else if k = 1 then 0 else 2

/-- A lane enters the receive bond (R234 step 6, R247). -/
def State.laneIn (s : State) (l : Nat) : State :=
  let k := linkOfLane l
  let s := (s.setLane l { s.lane l with ready := false }).wr (F.LNK_LANE_STAT_INBOND l) 1
  s.wr (F.LNK_LINK_STAT_RXL k) (s.rxBond k)

/-- The other lane of a ring link. -/
def otherLane (l : Nat) : Nat := if l % 2 = 0 then l + 1 else l - 1

/-- The marker of lane `l` completes a pair: the other lane's last marker has the same count (R232, R233). -/
def State.paired (s : State) (l : Nat) : Bool :=
  decide (l < 4) && (s.lane l).marker.isSome && decide ((s.lane l).marker = (s.lane (otherLane l)).marker)

/-- A lane that has passed step 5 enters the bond: in training alone while the other lane has not passed, else deskewed by a marker pair
(R233, R234 step 6); in service at the next marker pair, by the LANE exchange (R247). -/
def State.laneJoin (s : State) (l : Nat) : State :=
  let k := linkOfLane l
  if (s.lane l).ready then
    if s.rd (F.LNK_LINK_STAT_STATE k) = 1 then s.laneIn l
    else if s.linkUp k ∧ k < 2 ∧ s.bit F.LNK_CTL_REBOND_EN = true then
      ((s.laneIn l).raise Code.LNK_LANE_UP (Src.lane l) []).openLane k
    else s
  else s

/-- Lanes that wait for a marker pair join at it. -/
def State.pairJoin (s : State) (l : Nat) : State := if s.paired l then (s.laneJoin l).laneJoin (otherLane l) else s

/-- A lane passes step 5 with this marker. -/
def State.lanePassed (s : State) (l : Nat) : State :=
  let k := linkOfLane l
  if s.bit (F.LNK_LANE_STAT_INBOND l) || (s.lane l).ready then s
  else
    let s := s.setLane l { s.lane l with ready := true }
    let o := otherLane l
    if s.rd (F.LNK_LINK_STAT_STATE k) ≠ 1 then s
    else if l < 4 ∧ (s.bit (F.LNK_LANE_STAT_INBOND o) || (s.lane o).ready) = true then s.pairJoin l
    else s.laneJoin l

/-- What a marker says of its link: crossed lanes, the neighbour, and whether the sender shows the bond that this receiver's LANE frames
name, which ends the exchange (R235, R246, R266; DEDUCED, log entry 64). -/
def State.markerSays (s : State) (l w1 : Nat) : State :=
  let k := linkOfLane l
  let s := s.wr (F.LNK_LANE_STAT_MISWIRE l) 0
  let s := if k < 2 then s.wrB (F.LNK_LINK_STAT_SWAP k) (nbits w1 53 53 != laneBit l) else s
  let x := s.link k
  s.setLink k { x with rnode := nbits w1 50 40, laneOpen := x.laneOpen && nbits w1 52 51 != s.rxBond k }

/-- A lane marker (R232, R235, R246, R247). -/
def laneMarkerRx (lane w0 w1 w2 w3 : Nat) (s : State) : State :=
  let m := 2 ^ 64
  let k := linkOfLane lane
  if lane < 5 ∧ s.bit (F.LNK_LANE_STAT_BLOCK lane) = true ∧ w0 % m = 0x9416C35A0F69E1D2 ∧ w3 % m = 0x6BE93CA5F0961E2D ∧
      (w1 + w2) % m = m - 1 ∧ nbits w1 63 56 = 0xA5 then
    let side := nbits w1 55 54
    let s := ((s.wr (F.LNK_LANE_STAT_RSIDE lane) side).wr (F.LNK_LANE_STAT_RLANE lane) (nbits w1 53 53)).wr
      (F.LNK_LANE_STAT_RNODE lane) (nbits w1 50 40)
    let prev := (s.lane lane).marker
    let count := nbits w1 31 0
    let s := s.setLane lane { s.lane lane with marker := some count }
    -- codeword lock at the second of two markers in sequence
    let s := if prev = some ((count + m - 1) % 2 ^ 32) then s.wr (F.LNK_LANE_STAT_CWLOCK lane) 1 else s
    if s.bit (F.LNK_LANE_STAT_CWLOCK lane) then
      if side = wantedSide k then
        ((s.markerSays lane w1).pairJoin lane).lanePassed lane
      else if s.bit (F.LNK_LANE_STAT_MISWIRE lane) then s
      else (s.wr (F.LNK_LANE_STAT_MISWIRE lane) 1).raise Code.LNK_MISWIRE (Src.lane lane) []
    else s
  else s

def execLaneMarkerRx (lane w0 w1 w2 w3 : Nat) (s : State) : Host.Outcome State Fault Refusal :=
  .next (whenUp .link (laneMarkerRx lane w0 w1 w2 w3) s)

/-- SIDE of the sender's link in an INIT frame. -/
def linkSide (k : Nat) : Nat := k

/-- An INIT frame leaves a training end that has formed its bond (R234 step 7). -/
def linkInitTx (link : Nat) (s : State) : State :=
  if link < 3 ∧ s.rd (F.LNK_LINK_STAT_STATE link) = 1 ∧ 0 < s.rxBond link then
    let s := s.sendFrame link 3 0 0 (leBytes 8 (2 ^ 56 + linkSide link * 2 ^ 46 + s.rxBond link * 2 ^ 44 + s.nodeId * 2 ^ 32)) false
    let s := s.setLink link { s.link link with initSent := true }
    if (s.link link).initRcvd then s.linkUpNow link else s
  else s

def execLinkInitTx (link : Nat) (s : State) : Host.Outcome State Fault Refusal :=
  .next (whenUp .link (linkInitTx link) s)

/-- TRAIN_MS passes on a link that is not up: reported once for the episode (R234). -/
def lnkTrainFail (link : Nat) (s : State) : State :=
  if link < 3 ∧ linkEn (s.reg K.LNK_CTL) link = true ∧ s.linkUp link = false then
    let s := if (s.link link).failRaised then s
      else (s.setLink link { s.link link with failRaised := true }).raise Code.LNK_TRAIN_FAIL (Src.link link) []
    s.wr (F.LNK_LINK_STAT_STATE link) 3
  else s

def execLnkTrainFail (link : Nat) (s : State) : Host.Outcome State Fault Refusal :=
  .next (whenUp .link (lnkTrainFail link) s)

/-- RETRAIN_MS passes on a link that awaits its retrain, or that has not come up since its training failed (R234). -/
def linkRetrainNow (link : Nat) (s : State) : State :=
  if link < 3 ∧ linkEn (s.reg K.LNK_CTL) link = true ∧ s.linkUp link = false ∧
      (s.rd (F.LNK_LINK_STAT_STATE link) = 3 ∨ (s.link link).failRaised = true) then
    (((s.setLink link (s.link link).fresh).linkRetrain link).wr (F.LNK_LINK_STAT_STATE link) 1)
  else s

def execLinkRetrain (link : Nat) (s : State) : Host.Outcome State Fault Refusal :=
  .next (whenUp .link (linkRetrainNow link) s)

/-! ### Lanes leaving the bond -/

/-- A lane leaves the receive bond (R246); the last one takes the link down (R248). Lane P has no bond to leave (R249): its
loss takes link P down. -/
def State.laneOut (s : State) (l : Nat) : State :=
  if s.bit (F.LNK_LANE_STAT_INBOND l) then
    let k := linkOfLane l
    let s := s.laneReset l
    let s := s.wr (F.LNK_LINK_STAT_RXL k) (s.rxBond k)
    let s := if k < 2 then s.raise Code.LNK_LANE_DOWN (Src.lane l) [] else s
    if s.rxBond k = 0 then s.linkDown k 3
    else if s.linkUp k then s.openLane k
    else s
  else s

/-- LOCK_US expires (R246). -/
def laneLockLoss (lane : Nat) (s : State) : State :=
  if lane < 5 ∧ (s.lane lane).lockTimer = true then s.laneOut lane else s

def execLaneLockLoss (lane : Nat) (s : State) : Host.Outcome State Fault Refusal :=
  .next (whenUp .link (laneLockLoss lane) s)

/-- The end of a 1 ms interval (R246; not at lane P, R249). -/
def laneDegradeCheck (lane : Nat) (s : State) : State :=
  if lane < 5 then
    let n := (s.lane lane).ue
    let s := s.setLane lane { s.lane lane with ue := 0 }
    if lane < 4 ∧ s.rd F.LNK_TRAIN_DEG_UE < n then s.laneOut lane else s
  else s

def execLaneDegradeCheck (lane : Nat) (s : State) : Host.Outcome State Fault Refusal :=
  .next (whenUp .link (laneDegradeCheck lane) s)

/-! ### Received frames -/

/-- A NAK for SEQ `seq` (R239): every DATA frame is discarded until it arrives. -/
def State.sendNak (s : State) (k seq : Nat) : State :=
  let s := (s.bump (K.LNK_LINK_CNT_NAK_TX k)).setLink k { s.link k with discarding := true, expect := seq }
  s.sendFrame k 2 0 seq (leBytes 8 0) false

/-- A DATA frame with a good CRC (R239, R241): the one expected is accepted; any other is discarded. -/
def State.acceptData (s : State) (k : Nat) (f : Frame) : State :=
  let l := s.link k
  if f.seq = l.expect then
    let p := packetOf f.body
    let s := s.setLink k { l with expect := (l.expect + 1) % 256, discarding := false, ackOwed := true }
    let s := s.bump (K.LNK_LINK_CNT_RXOK k)
    if k < 2 then s.rxPush k p else (s.takenPush 3 p).freeUnits k p.pool p.units
  else s

/-- INIT at a training end (R234 step 7): the lanes the neighbour accepts are the transmit bond, which has at least one. -/
def State.initRx (s : State) (k : Nat) (f : Frame) : State :=
  if s.rd (F.LNK_LINK_STAT_STATE k) = 1 ∧ 0 < s.rxBond k ∧ 0 < nbits (leNum f.body) 45 44 then
    let s := s.wr (F.LNK_LINK_STAT_TXL k) (nbits (leNum f.body) 45 44)
    let s := s.setLink k { s.link k with initRcvd := true }
    if (s.link k).initSent then s.linkUpNow k else s
  else s

/-- A LANE frame (R246, R247): the sender moves to the bond the receiver names; lanes that leave or join are reported at
this end too. -/
def State.laneRx (s : State) (k : Nat) (f : Frame) : State :=
  let want := nbits (leNum f.body) 45 44
  let old := s.rd (F.LNK_LINK_STAT_TXL k)
  if s.linkUp k ∧ k < 2 then
    let s := s.wr (F.LNK_LINK_STAT_TXL k) want
    let s := [0, 1].foldl (fun s b =>
      if old.testBit b && !want.testBit b then s.raise Code.LNK_LANE_DOWN (Src.lane (2 * k + b)) []
      else if !old.testBit b && want.testBit b then s.raise Code.LNK_LANE_UP (Src.lane (2 * k + b)) []
      else s) s
    if want = 0 then s.linkDown k 3 else s
  else s

/-- A FLOW frame gives the pool limits (R258). -/
def State.flowRx (s : State) (k : Nat) (f : Frame) : State :=
  let b := leNum f.body
  (s.setLink k { s.link k with limits := [nbits b 63 56, nbits b 55 48, nbits b 47 40, nbits b 39 32] }).pumpLink k

/-- A NAK (R243): the replay starts at its ACKSEQ, unless that is the replay in progress or lies outside the buffer. -/
def State.nakRx (s : State) (k : Nat) (f : Frame) : State :=
  let l := s.link k
  let s := s.bump (K.LNK_LINK_CNT_NAK_RX k)
  if l.replay = some f.ackseq then s
  else
    let s := s.takeAck k f
    if (s.link k).unacked.any (fun x => x.1 == f.ackseq) then s.replayFrom k f.ackseq else s.pumpLink k

/-- A frame that has passed its check, by KIND (R236). -/
def State.takeFrame (s : State) (k : Nat) (f : Frame) : State :=
  if f.kind = 3 then s.initRx k f
  else if s.linkUp k then
    if f.kind = 0 then (s.takeHeader k f).acceptData k f
    else if f.kind = 1 then s.takeHeader k f
    else if f.kind = 2 then s.nakRx k f
    else if f.kind = 4 then (s.takeHeader k f).laneRx k f
    else (s.takeHeader k f).flowRx k f
  else s

/-- A frame that the device began to send and must invalidate: it ends with the inverse of its CRC, and its SEQ is that of the next DATA
frame (R237). -/
def State.sendStomp (s : State) (k : Nat) (p : Packet) : State :=
  let l := s.link k
  let f := mkFrame 0 l.nextSeq l.expect true (credWord l) (stampPacket s.net.epoch p).bytes
  (s.bump (K.LNK_LINK_CNT_STOMP_TX k)).emitFrame k { f with crc := ~~~ f.crc }

/-- The outgoing copy of a pass-through frame whose first check failed ends stomped, when it was cut through (R238, R257). -/
def State.stompCopy (s : State) (k : Nat) (f : Frame) : State :=
  let p := packetOf f.body
  let out := s.exitOf k
  if k < 2 ∧ f.kind = 0 ∧ s.dispose k p = .forward ∧ s.linkUp out = true ∧ (s.link out).waiting = [] ∧
      canSend (s.link out) p = true then s.sendStomp out p
  else s

/-- A frame handled on the fast path, whose codeword is still to come (R238, R240). -/
def State.noteSeen (s : State) (k : Nat) : State := s.setLink k { s.link k with seen := (s.link k).seen + 1 }

/-- The receiver goes over to the corrected path at the first check that fails (R238). -/
def State.toCorrected (s : State) (k : Nat) : State := s.setLink k { s.link k with corrected := true, firstFail := true }

/-- The first check of a frame, on the bytes as received (R237, R238). -/
def State.fastCheck (s : State) (k : Nat) (f : Frame) : State :=
  if f.crc = f.good then
    if f.formOk then (s.noteSeen k).takeFrame k f else (s.noteSeen k).raise Code.LNK_FRAME_BAD (Src.link k) []
  else if f.crc = ~~~ f.good then (s.noteSeen k).bump (K.LNK_LINK_CNT_STOMP_RX k)
  else (s.stompCopy k f).toCorrected k

/-- A frame as received: on the corrected path it is taken from the decoder output instead (R238). -/
def frameRx (link : Nat) (f : Frame) (s : State) : State :=
  if link < 3 ∧ 0 < s.rxBond link then
    if (s.link link).corrected then s else s.fastCheck link f
  else s

/-- The blocks received on the lanes of a link make a frame (R233). -/
def dataFrameRx (link : Nat) (rx : List LaneBlock) (s : State) : State :=
  match s.received link rx with
  | some f => frameRx link f s
  | none => s

def execDataFrameRx (link : Nat) (rx : List LaneBlock) (s : State) : Host.Outcome State Fault Refusal :=
  .next (whenUp .link (dataFrameRx link rx) s)

/-- A control frame of KIND `kind`: any other frame is not this event. -/
def ctlRx (kind link : Nat) (rx : List LaneBlock) (s : State) : State :=
  match s.received link rx with
  | some f => if f.kind = kind then frameRx link f s else s
  | none => s

def execAckRx (link : Nat) (rx : List LaneBlock) (s : State) : Host.Outcome State Fault Refusal :=
  .next (whenUp .link (ctlRx 1 link rx) s)

def execNakRx (link : Nat) (rx : List LaneBlock) (s : State) : Host.Outcome State Fault Refusal :=
  .next (whenUp .link (ctlRx 2 link rx) s)

def execInitRx (link : Nat) (rx : List LaneBlock) (s : State) : Host.Outcome State Fault Refusal :=
  .next (whenUp .link (ctlRx 3 link rx) s)

def execLaneRx (link : Nat) (rx : List LaneBlock) (s : State) : Host.Outcome State Fault Refusal :=
  .next (whenUp .link (ctlRx 4 link rx) s)

def execFlowRx (link : Nat) (rx : List LaneBlock) (s : State) : Host.Outcome State Fault Refusal :=
  .next (whenUp .link (ctlRx 5 link rx) s)

/-- The SEQ of a frame in error, when it is readable: its header names a DATA frame and a SEQ within the window of R241 (DESIGN CHOICE, log
entry 65). -/
def readableSeq (l : Link) (f : Frame) : Option Nat :=
  if f.kind = 0 ∧ (f.seq + 256 - l.expect) % 256 < 128 then some f.seq else none

/-- A frame in error (R239) is counted. It is answered with a NAK for its SEQ, or for the one expected; while frames are discarded, only
when it is the awaited frame itself. -/
def State.frameError (s : State) (k : Nat) (seq : Option Nat) : State :=
  let l := s.link k
  let s := s.bump (K.LNK_LINK_CNT_CRC k)
  if l.discarding ∧ seq ≠ some l.expect then s else s.sendNak k (seq.getD l.expect)

/-- A frame after correction on the corrected path (R237 to R239). `first`: it is the frame that failed first. -/
def State.correctedFrame (s : State) (k : Nat) (unc first : Bool) (f : Frame) : State :=
  if unc then s.frameError k (readableSeq (s.link k) f)
  else if f.crc = f.good then
    if f.formOk then (if first then s.bump (K.LNK_LINK_CNT_FIXED k) else s).takeFrame k f
    else s.raise Code.LNK_FRAME_BAD (Src.link k) []
  else if f.crc = ~~~ f.good then s.bump (K.LNK_LINK_CNT_STOMP_RX k)
  else s.frameError k (readableSeq (s.link k) f)

/-- One frame of the decoder output, in the order received: one taken on the fast path has only its corrected symbols looked at (R240),
and one of the corrected path is checked now (R238, R239). -/
def State.decodedFrame (s : State) (k : Nat) (unc : Bool) (x : Frame × Bool) : State :=
  let f := x.1
  let l := s.link k
  if 0 < l.seen then
    let s := s.setLink k { l with seen := l.seen - 1 }
    if x.2 ∧ unc = false then
      let p := packetOf f.body
      (s.raise Code.LNK_CRC_ESCAPE (Src.link k) [k, f.seq, p.src, p.tag]).bump (K.LNK_LINK_CNT_ESCAPE k)
    else s
  else if l.corrected then (s.setLink k { l with firstFail := false }).correctedFrame k unc l.firstFail f
  else s

/-- Symbols that the code corrects in one codeword (R231). -/
def fecLimit : Nat := 7

/-- A codeword with `symbols` symbols in error leaves the decoder (R231, R238 to R240). The scrambling, the transcoding and the code
itself are not modelled: the command brings what they yield (log entry 69). -/
def codewordDecoded (lane : Nat) (symbols : Nat) (frames : List (Frame × Bool)) (drained : Bool) (s : State) : State :=
  if lane < 5 ∧ s.bit (F.LNK_LANE_STAT_CWLOCK lane) = true then
    let k := linkOfLane lane
    let uncorrectable := decide (fecLimit < symbols)
    let s := if uncorrectable then
        (s.bump (K.LNK_LANE_CNT_CW_UNCORR lane)).setLane lane { s.lane lane with ue := (s.lane lane).ue + 1 }
      else if 0 < symbols then
        (s.bump (K.LNK_LANE_CNT_CW_CORR lane)).bumpN (K.LNK_LANE_CNT_SYM_CORR lane) symbols
      else s
    let s := if uncorrectable ∧ frames = [] ∧ (s.link k).corrected = true then s.frameError k none else s
    let s := frames.foldl (fun s x => s.decodedFrame k uncorrectable x) s
    if drained then s.setLink k { s.link k with corrected := false, firstFail := false, seen := 0 } else s
  else s

/-- CODEWORD_DECODED: the code has 514 data symbols and 14 check symbols, and corrects both alike (R231). -/
def execCodewordDecoded (lane : Nat) (inData inCheck : Nat) (frames : List (Frame × Bool)) (drained : Bool) (s : State) :
    Host.Outcome State Fault Refusal :=
  .next (whenUp .link (codewordDecoded lane (inData + inCheck) frames drained) s)

/-! ### Timers of the retry -/

/-- ACK_10NS passes with a changed acknowledgement unsent (R242). -/
def ackTimer (link : Nat) (s : State) : State :=
  if link < 3 ∧ s.linkUp link = true ∧ (s.link link).ackOwed = true then
    s.sendFrame link 1 0 (s.link link).expect (leBytes 8 0) false
  else s

def execAckTimer (link : Nat) (s : State) : Host.Outcome State Fault Refusal :=
  .next (whenUp .link (ackTimer link) s)

/-- REPLAY_US passes with frames outstanding and no advance (R244). An acknowledgement that has advanced in the same cycle wins, and the
timer has restarted (R245). -/
def replayTimeout (link : Nat) (s : State) : State :=
  let l := s.link link
  if link < 3 ∧ s.linkUp link = true ∧ l.advAt ≠ some s.ticks then
    match l.unacked.head? with
    | none => s
    | some (o, _) =>
      if s.rd F.LNK_RETRY_RETRY_MAX ≤ l.replays then
        (s.raise Code.LNK_RETRY_FAIL (Src.link link) []).linkDown link 3
      else (s.setLink link { l with replays := l.replays + 1 }).replayFrom link o
  else s

def execReplayTimeout (link : Nat) (s : State) : Host.Outcome State Fault Refusal :=
  .next (whenUp .link (replayTimeout link) s)

/-- LNK_INJ.ARM is written 1 (R250): one error, of the KIND and SYMS in effect, on the next DATA frame or codeword sent on LANE. -/
def State.lnkInj (s : State) : State :=
  let lane := s.rd F.LNK_INJ_LANE
  (s.setLane lane { s.lane lane with inject := some (s.bit F.LNK_INJ_KIND, s.rd F.LNK_INJ_SYMS) }).fireCodeword lane

end Sys2Proof.Machine
end

