-- ==== Sys2Proof/Machine/Can.lean ====
section
/-! DEFINITION. CAN FD controllers (R298 to R304). The bus itself (bit timing, arbitration, acknowledgement, error detection) is
ISO 11898-1's; what it comes to reaches the controller as commands. -/

namespace Sys2Proof.Machine

/-- Fields of the frame word (R301). -/
def CanW.id (w : Nat) : Nat := w % 2 ^ 29
def CanW.ide (w : Nat) : Bool := w.testBit 29
def CanW.fdf (w : Nat) : Bool := w.testBit 30
def CanW.brs (w : Nat) : Bool := w.testBit 31
def CanW.rtr (w : Nat) : Bool := w.testBit 32
/-- The identifier that the frame carries: 29 bits, or 11. -/
def CanW.ident (w : Nat) : Nat := if CanW.ide w then CanW.id w else CanW.id w % 2 ^ 11

/-- Bus monitoring (R304, R281, and the safe state once the frame in progress is over). -/
def State.canListens (s : State) (n : Nat) : Bool := s.bit (F.CF_CTL_LISTEN n) || s.portsOff || s.portsSafe

/-- The filter an accepted frame is recorded with (R300). -/
def State.canFilter (s : State) (n : Nat) (w : Nat) : Option Nat :=
  match (List.range 4).find? (fun k =>
      s.bit (F.CF_FLT_ID_EN n k) && s.bit (F.CF_FLT_ID_IDE n k) == CanW.ide w &&
        (CanW.ident w &&& s.rd (F.CF_FLT_MASK_MASK n k)) == (s.rd (F.CF_FLT_ID_ID n k) &&& s.rd (F.CF_FLT_MASK_MASK n k))) with
  | some k => if s.bit (F.CF_CTL_ACC_ALL n) then some 0xFF else some k
  | none => if s.bit (F.CF_CTL_ACC_ALL n) then some 0xFF else none

/-- Show the error counters (R315). -/
def State.canShow (s : State) (n : Nat) : State :=
  let c := s.cf n
  let s := (s.wr (F.CF_ERR_TEC n) (min c.tec 255)).wr (F.CF_ERR_RP n) (if 127 < c.rec_ then 1 else 0)
  s.wr (F.CF_ERR_REC n) (min c.rec_ 127)

/-- A frame is lost, abandoned or refused. -/
def State.canLost (s : State) (n : Nat) : State := (s.bumpF (F.CF_STAT_LOST n) 1).statAdd (0xAD0 + 0x10 * n + 8) 1

/-- A send frame is abandoned (R303). -/
def State.canAbandon (s : State) (n : Nat) (t : CanTx) : State :=
  let s := (s.wr (F.CF_STAT_ABANDON n) 1).raise Code.CF_TX_ABANDON (Src.can n) []
  (s.canLost n).confirmAll false t.who

/-- Bus-off: every buffered frame is abandoned (R303). -/
def State.canBusOff (s : State) (n : Nat) : State :=
  let c := s.cf n
  let s := s.setCf n { c with txBuf := [], sending := false, recovering := s.bit (F.CF_CTL_AUTO_REC n) }
  let s := (c.txBuf.foldl (fun s t => s.canAbandon n t) s).statAdd (0xAD0 + 0x10 * n + 12) 1
  ((s.wr (F.CF_ERR_STATE n) 2).wr (F.CF_STAT_BUSOFF n) 1).raise Code.CF_BUS_OFF (Src.can n) []

/-- New error counters: the warning level, error passive, error active again (R303). -/
def State.canCount (s : State) (n tec rec_ : Nat) : State :=
  let c := s.cf n
  let s := (s.setCf n { c with tec := tec, rec_ := rec_ }).canShow n
  let s := if (c.tec < 96 ∧ 96 ≤ tec) ∨ (c.rec_ < 96 ∧ 96 ≤ rec_) then
      (s.wr (F.CF_STAT_WARN n) 1).raise Code.CF_WARN (Src.can n) [] else s
  if s.rd (F.CF_ERR_STATE n) = 2 then s
  else if 127 < tec ∨ 127 < rec_ then
    (if s.rd (F.CF_ERR_STATE n) = 1 then s
     else ((s.wr (F.CF_ERR_STATE n) 1).wr (F.CF_STAT_PASSIVE n) 1).raise Code.CF_ERR_PASSIVE (Src.can n) [])
  else s.wr (F.CF_ERR_STATE n) 0

/-- A frame is received without error (R300, R301, R303). -/
def canRxFrame (n word : Nat) (data : List Byte) (s : State) : State :=
  if 16 ≤ n ∨ s.bit (F.CF_CTL_EN n) = false ∨ s.rd (F.CF_ERR_STATE n) = 2 then s
  else
    let c := s.cf n
    let r := if 127 < c.rec_ then
        let f := s.free 8
        (119 + f.1.toNat % 9, f.2)
      else (c.rec_ - 1, s)
    let s := r.2.canCount n c.tec r.1
    match s.canFilter n word with
    | none => s
    | some k =>
      if 4 ≤ (s.fold.heldPushes.filter (fun p => p.head == 128 + n)).length then
        ((s.wr (F.CF_STAT_RX_OVR n) 1).canLost n).raise Code.CF_RX_OVR (Src.can n) []
      else
        let w : BitVec 64 := BitVec.ofNat 64 (k * 2 ^ 40 + nbits word 39 36 * 2 ^ 36 + word % 2 ^ 34)
        s.pushRx (128 + n) (withE ((hdrWord (128 + n) s.frame s.phase) :: (w, 0xB8) :: noE (dataWords data)))

def execCanRxFrame (ctl word : Nat) (data : List Byte) (s : State) : Host.Outcome State Fault Refusal :=
  .next (whenUp .edge (canRxFrame ctl word data) s)

/-- The next CAN FD data length (R302). -/
def canLen (n : Nat) : Nat :=
  if n ≤ 8 then n else if n ≤ 12 then 12 else if n ≤ 16 then 16 else if n ≤ 20 then 20 else if n ≤ 24 then 24
  else if n ≤ 32 then 32 else if n ≤ 48 then 48 else 64

/-- A send packet is refused (R302). -/
def State.canBad (s : State) (n w len : Nat) : Bool :=
  (decide (8 < len) && !CanW.fdf w) || decide (64 < len) || (CanW.fdf w && !s.bit (F.CF_CTL_FD_EN n)) ||
    (CanW.brs w && !CanW.fdf w) || (CanW.rtr w && CanW.fdf w)

/-- Take frames from the send fold until the buffer holds one (FIFO) or four (ID); `fuel` bounds the packets refused. -/
def State.canFill : Nat → Nat → State → State
  | 0, _, s => s
  | k + 1, n, s =>
    let room := if s.bit (F.CF_CTL_TXORD n) then 4 else 1
    if room ≤ (s.cf n).txBuf.length then s
    else match s.popPacket (144 + n) with
      | none => s
      | some (ws, s) =>
        let w := (getAt ⟨0, 0, false, 0, none⟩ ws 0).w.toNat
        let bs := dataBytes (ws.drop 1)
        let who := whosOf ws
        if s.canBad n w bs.length then
          let s := (s.wr (F.CF_STAT_TXBAD n) 1).raise Code.CF_TX_BAD (Src.can n) []
          ((s.canLost n).confirmAll false who).canFill k n
        else
          let bs := if CanW.rtr w then [] else slice bs 0 (canLen bs.length)
          let c := s.cf n
          (s.setCf n { c with txBuf := c.txBuf ++ [⟨w, bs, who, 0⟩] }).canFill k n

/-- The arbitration field of a frame as a number; a lower one wins (R302, ISO 11898-1). -/
def canArb (w : Nat) : Nat :=
  if CanW.ide w then (CanW.id w / 2 ^ 18) * 2 ^ 21 + 2 ^ 20 + 2 ^ 19 + (CanW.id w % 2 ^ 18) * 2 + b2n (CanW.rtr w)
  else (CanW.id w % 2 ^ 11) * 2 ^ 21 + b2n (CanW.rtr w) * 2 ^ 20

/-- The frame that wins arbitration comes first; frames with equal identifiers keep their order. -/
def canWinner (l : List CanTx) : List CanTx :=
  match l with
  | [] => []
  | t :: ts =>
    let best := ts.foldl (fun b x => if canArb x.word < canArb b.word then x else b) t
    match takeFirst (fun x => canArb x.word == canArb best.word) l with
    | some (x, rest) => x :: rest
    | none => l

/-- DLC of a data length (R302). -/
def canDlc (n : Nat) : Nat :=
  if n ≤ 8 then n else if n ≤ 12 then 9 else if n ≤ 16 then 10 else if n ≤ 20 then 11 else if n ≤ 24 then 12 else if n ≤ 32 then 13
  else if n ≤ 48 then 14 else 15

/-- The frame word of a frame as it goes onto the bus (R301, R302): FILT is ignored, DLC is that of the data but for a remote frame, and
ESI of a CAN FD frame shows error passive (R298). -/
def State.canSent (s : State) (n : Nat) (t : CanTx) : Nat :=
  let dlc := if CanW.rtr t.word then nbits t.word 39 36 else canDlc t.data.length
  t.word % 2 ^ 33 + b2n (CanW.fdf t.word && decide (s.rd (F.CF_ERR_STATE n) = 1)) * 2 ^ 33 + dlc * 2 ^ 36

/-- A frame that switches rates measures the loop delay when TDC_EN is 1: TDCV is a free value (R299, R315; log entry 70). -/
def State.canMeasure (s : State) (n : Nat) (t : CanTx) : State :=
  if CanW.brs t.word && s.bit (F.CF_CTL_TDC_EN n) then
    let f := s.free 7
    f.2.wr (F.CF_TDC_TDCV n) f.1.toNat
  else s

/-- The controller takes frames and contends for the bus (R302). -/
def canTxStart (n : Nat) (s : State) : State :=
  if 16 ≤ n ∨ s.bit (F.CF_CTL_EN n) = false ∨ s.canListens n = true ∨ s.yielding = true ∨ s.rd (F.CF_ERR_STATE n) = 2 then s
  else
    let s := s.canFill ((s.foldOf (s.headFold (144 + n))).packets + 1) n
    let c := s.cf n
    if c.sending then s
    else match canWinner c.txBuf with
      | [] => s
      | t :: ts => ((s.setCf n { c with txBuf := t :: ts, sending := true }).emit (.can n (s.canSent n t) t.data)).canMeasure n t

def execCanTxStart (ctl : Nat) (s : State) : Host.Outcome State Fault Refusal := .next (whenUp .edge (canTxStart ctl) s)

/-- The frame on the bus reaches its end without error (R302, R303). -/
def canTxDone (n : Nat) (s : State) : State :=
  let c := s.cf n
  if c.sending then
    match c.txBuf with
    | [] => s
    | t :: ts =>
      let s := s.setCf n { c with txBuf := ts, sending := false }
      let s := (s.canCount n (c.tec - 1) c.rec_).statAdd (0xAD0 + 0x10 * n + 4) 1
      s.confirmAll true t.who
  else s

def execCanTxDone (ctl : Nat) (s : State) : Host.Outcome State Fault Refusal := .next (whenUp .edge (canTxDone ctl) s)

/-- The transmission ends in an error (R303): counters, bus-off, the retransmission limit. -/
def canTxError (n lec : Nat) (counts : Bool) (s : State) : State :=
  let c := s.cf n
  if c.sending ∧ 1 ≤ lec ∧ lec ≤ 6 then
    match c.txBuf with
    | [] => s
    | t :: ts =>
      let s := s.wr (F.CF_ERR_LEC n) lec
      let t := { t with attempts := t.attempts + 1 }
      let tec := if counts then c.tec + 8 else c.tec
      let s := s.setCf n { c with txBuf := t :: ts, sending := false }
      let s := s.canCount n tec c.rec_
      if 255 < tec then s.canBusOff n
      else
        let max := s.rd (F.CF_CTL_RETX_MAX n)
        if (max ≠ 0 ∧ max ≤ t.attempts) ∨ s.bit (F.CF_CTL_EN n) = false then
          (s.setCf n { s.cf n with txBuf := ts }).canAbandon n t
        else s
  else s

def execCanTxError (ctl lec : Nat) (counts : Bool) (s : State) : Host.Outcome State Fault Refusal :=
  .next (whenUp .edge (canTxError ctl lec counts) s)

/-- An error while receiving (R303). -/
def canRxError (n lec inc : Nat) (s : State) : State :=
  if 16 ≤ n ∨ s.bit (F.CF_CTL_EN n) = false ∨ s.rd (F.CF_ERR_STATE n) = 2 ∨ lec = 0 ∨ 6 < lec then s
  else
    let c := s.cf n
    let s := s.wr (F.CF_ERR_LEC n) lec
    s.canCount n c.tec (min 255 (c.rec_ + inc))

def execCanRxError (ctl lec inc : Nat) (s : State) : Host.Outcome State Fault Refusal :=
  .next (whenUp .edge (canRxError ctl lec inc) s)

/-- Bus-off recovery starts (R303). -/
def canRecover (n : Nat) (s : State) : State :=
  if n < 16 ∧ s.rd (F.CF_ERR_STATE n) = 2 then s.setCf n { s.cf n with recovering := true } else s

def execCanRecover (ctl : Nat) (s : State) : Host.Outcome State Fault Refusal := .next (whenUp .edge (canRecover ctl) s)

/-- 128 occurrences of 11 recessive bits (R303). -/
def canRecoveryDone (n : Nat) (s : State) : State :=
  if n < 16 ∧ s.rd (F.CF_ERR_STATE n) = 2 ∧ (s.cf n).recovering = true then
    let s := s.wr (F.CF_ERR_STATE n) 0
    (s.setCf n { s.cf n with tec := 0, rec_ := 0, recovering := false }).canShow n
  else s

def execCanRecoveryDone (ctl : Nat) (s : State) : Host.Outcome State Fault Refusal :=
  .next (whenUp .edge (canRecoveryDone ctl) s)

/-- EN goes to 0 (R304): the frame on the bus finishes, the others are abandoned. -/
def State.canStop (s : State) (n : Nat) : State :=
  let s := s.wr (F.CF_CTL_EN n) 0
  let c := s.cf n
  let keep := if c.sending then c.txBuf.take 1 else []
  let s := s.setCf n { c with txBuf := keep }
  (c.txBuf.drop keep.length).foldl (fun s t => s.canAbandon n t) s

def canDisable (n : Nat) (s : State) : State := if 16 ≤ n ∨ s.bit (F.CF_CTL_EN n) = false then s else s.canStop n

def execCanDisable (ctl : Nat) (s : State) : Host.Outcome State Fault Refusal := .next (whenUp .edge (canDisable ctl) s)

end Sys2Proof.Machine
end

