-- ==== Sys2Proof/Machine/Net.lean ====
section
/-! DEFINITION. Joining, wraps, election and link delays (R262 to R273). -/

namespace Sys2Proof.Machine

/-- The oldest packet of the kind asked for in a taken queue, and the state without it. Packets of one kind keep their order, but
that the messages of R253 pass one another: an INTERRUPT may wait for room (R215). -/
def State.popTaken (s : State) (q : Nat) (want : Packet → Bool) : Option (Packet × State) :=
  let l := getAt [] s.net.taken q
  let before := l.takeWhile (fun p => !want p)
  match l.drop before.length with
  | [] => none
  | p :: rest =>
    if p.kind ≠ Kind.MESSAGE ∧ before.any (fun x => x.kind == p.kind) = true then none
    else some (p, { s with net := { s.net with taken := setAt s.net.taken q (before ++ rest) } })

/-- Do `f` with the oldest packet of queue `q` when it is of the kind wanted. -/
def State.withTaken (s : State) (q : Nat) (want : Packet → Bool) (f : Packet → State → State) : State :=
  match s.popTaken q want with
  | some (p, s) => f p s
  | none => s

/-- A MGMT packet of one type. -/
def isMgmt (t : Nat) (p : Packet) : Bool := p.kind == Kind.MGMT && p.mtype == t

/-- Send a packet on in the ring direction it arrived in: queue 0 is side W, ring A; queue 1 is side E, ring B (R256). -/
def State.sendOn (s : State) (q : Nat) (p : Packet) : State := s.sendRing q p true

/-! ### Joining (R262, R263) -/

/-- Both links up, or one up with a wrap in effect (R262). -/
def State.loopReady (s : State) : Bool :=
  (s.linkUp 0 && s.linkUp 1) || (s.linkUp 0 && s.wrapped 1) || (s.linkUp 1 && s.wrapped 0)

def netJoinStart (s : State) : State :=
  if s.bit F.NET_CTL_JOIN_EN = true ∧ s.rd F.NET_ID_STATE = 0 then
    if s.nodeId = 0x7FF then (s.wr F.NET_ID_STATE 4).raise Code.NET_ID_BAD Src.packet []
    else if s.loopReady then (s.wr F.NET_ID_STATE 1).sendJoin
    else s
  else s

def execNetJoinStart (s : State) : Host.Outcome State Fault Refusal := .next (whenUp .link netJoinStart s)

/-- The node's own JOIN has come back (R262): the loop length is HOPS + 1. -/
def State.joinReturned (s : State) (p : Packet) : State :=
  let s := { s with net := { s.net with joinOut := false } }
  let s := s.wr F.NET_STAT_NODES (p.hops + 1)
  let s := s.setNode s.nodeId ⟨true, s.bit F.NET_CTL_MCAP, 0, true⟩
  if s.rd F.NET_ID_STATE = 1 then
    let s := s.wr F.NET_ID_STATE 2
    ({ s with net := { s.net with electWait := true } }).stageStep
  else s

/-- The node is a duplicate (R263). -/
def State.duplicate (s : State) (ps : List Nat) : State :=
  ({ s with net := { s.net with joinOut := false } }.wr F.NET_ID_STATE 3).raise Code.NET_DUP_ID Src.packet ps

/-- The node becomes a candidate and sends ELECT with the next ROUND (R269). -/
def State.elect (s : State) : State :=
  let s := (s.wr F.NET_STAT_ROLE 1)
  let s := { s with net := { s.net with round := (s.net.round + 1) % 256, electOut := true, electWait := true } }
  s.sendMgmt 3 s.nodeId 0 0 true (leBytes 8 s.net.round)

/-- A JOIN with MCAP from a node of lower ID than the bellwether starts an election, unless one of this node's is on its way (R269). -/
def State.electOnJoin (s : State) (p : Packet) : State :=
  if s.bit F.NET_CTL_MCAP = true ∧ s.joined = true ∧ p.mcap = true ∧ p.subject < s.rd F.NET_STAT_BWID ∧ s.net.electOut = false then
    s.elect
  else s

/-- A JOIN is recorded and sent on with HOPS one higher, or it is this node's own, or it names this node's ID with another
serial number (R262, R263). Under a wrap it passes a node twice: each node counts it once, where it passes as on ring A (R262's "each
of which has incremented it once"; DEDUCED, log entry 66). -/
def joinRx (queue : Nat) (s : State) : State :=
  s.withTaken queue (isMgmt 1) fun p s =>
    let serial := leNum (p.payload.take 6)
    if p.subject = s.nodeId then
      if serial = s.boot.otpSerial then
        (if queue < 2 ∧ s.onInjRing queue p = false then s.sendOn queue p else s.joinReturned p)
      else if s.joined then s.sendMgmt 2 s.nodeId 0 0 false (leBytes 8 serial)
      else if s.rd F.NET_ID_STATE = 1 then s.duplicate [s.nodeId, serial % 2 ^ 32, serial / 2 ^ 32]
      else s
    else
      let s :=
        if 2 ≤ queue ∨ s.onInjRing queue p = true then
          let s := s.setNode p.subject ⟨true, p.mcap, p.hops + 1, true⟩
          if queue < 2 then s.sendOn queue p.incHops else s
        else s.sendOn queue p
      s.electOnJoin p

def execJoinRx (queue : Nat) (s : State) : Host.Outcome State Fault Refusal := .next (whenUp .link (joinRx queue) s)

/-- JOIN_MS passes (R262). -/
def joinTimeout (s : State) : State :=
  let s := if s.rd F.NET_ID_STATE = 1 ∧ s.net.joinOut = true then s.sendJoin else s
  if s.bit F.NET_STAT_REBUILD then
    let s := s.net.nodes.foldl (fun (s : State) (e : Nat × NodeRec) =>
      if e.2.fresh || e.1 == s.nodeId then s else s.setNode e.1 ⟨false, false, 0, false⟩) s
    let s := { s with net := { s.net with wrapAt := s.net.wrapAt.filter (fun w => (s.node w.1).present) } }
    s.wr F.NET_STAT_REBUILD 0
  else s

def execJoinTimeout (s : State) : Host.Outcome State Fault Refusal := .next (whenUp .link joinTimeout s)

/-- JOIN_DUP (R263). It does not carry the other node's serial number, so the fault's second parameter is a free value. -/
def joinDupRx (queue : Nat) (s : State) : State :=
  s.withTaken queue (isMgmt 2) fun p s =>
    if leNum (p.payload.take 6) = s.boot.otpSerial ∧ s.rd F.NET_ID_STATE = 1 then
      let r := s.free 48
      r.2.duplicate (r.2.nodeId :: lohi r.1.toNat)
    else if queue < 2 ∧ s.returned queue p = false then s.sendOn queue p else s

def execJoinDupRx (queue : Nat) (s : State) : Host.Outcome State Fault Refusal := .next (whenUp .link (joinDupRx queue) s)

/-! ### Wraps (R265 to R268) -/

/-- The hold of a side ends: a link that is up again becomes straight (R267, R268). -/
def State.holdEnd (s : State) (side : Nat) : State :=
  let w := s.wrapRec side
  let s := s.setWrapRec side { w with held := [], waiting := false }
  if w.unwrapDue then s.unwrapSide side else s

/-- Held frames are discarded (R266). -/
def State.wrapLost (s : State) (side : Nat) : State :=
  (s.heldLost side).holdEnd side

/-- HOLD_US passes without the partner's WRAP (R266). -/
def netWrapLost (side : Nat) (s : State) : State :=
  if side < 2 ∧ (s.wrapRec side).waiting = true then s.wrapLost side else s

def execNetWrapLost (side : Nat) (s : State) : Host.Outcome State Fault Refusal :=
  .next (whenUp .link (netWrapLost side) s)

/-- The partner's WRAP: the frames it has not had go along the wrap, in SEQ order (R266). -/
def State.partnerWrap (s : State) (side : Nat) (seqv : Bool) (nextSeq : Nat) : State :=
  if seqv then
    let keep := (s.wrapRec side).held.filter (fun x => (x.1 + 256 - nextSeq) % 256 < 128)
    let s := keep.foldl (fun s x => s.sendRing (1 - side) x.2 true) s
    s.holdEnd side
  else s.wrapLost side

/-- This node's own packet of a kind that goes round once: it is sent on until it has come back (R256, R264). -/
def State.ownPasses (s : State) (queue : Nat) (p : Packet) : State :=
  if queue < 2 ∧ s.returned queue p = false then s.sendOn queue p else s

/-- A WRAP of another node (R262, R266). -/
def wrapRx (queue : Nat) (s : State) : State :=
  s.withTaken queue (isMgmt 5) fun p s =>
    if p.src = s.nodeId then s.ownPasses queue p
    else
      let n := leNum p.payload
      let s := { s with net := { s.net with
        wrapAt := s.net.wrapAt.filter (fun w => w != (p.subject, p.side)) ++ [(p.subject, p.side)] } }
      let s := if queue < 2 then s.sendOn queue p else s
      let s := [0, 1].foldl (fun s side =>
        let w := s.wrapRec side
        if w.waiting && w.neighbour == p.subject && nbits n 26 16 == s.nodeId && p.side == 1 - side then
          s.partnerWrap side (n.testBit 8) (n % 256)
        else s) s
      if s.joined then s.startRebuild else s

def execWrapRx (queue : Nat) (s : State) : Host.Outcome State Fault Refusal := .next (whenUp .link (wrapRx queue) s)

/-- An UNWRAP of another node: sent on, and this node announces itself again (R262, R267). -/
def unwrapRx (queue : Nat) (s : State) : State :=
  s.withTaken queue (isMgmt 6) fun p s =>
    if p.src = s.nodeId then s.ownPasses queue p
    else
      let s := { s with net := { s.net with wrapAt := s.net.wrapAt.filter (fun w => w != (p.subject, p.side)) } }
      let s := if queue < 2 then s.sendOn queue p else s
      if s.joined then s.startRebuild else s

def execUnwrapRx (queue : Nat) (s : State) : Host.Outcome State Fault Refusal := .next (whenUp .link (unwrapRx queue) s)

/-! ### Election (R269, R270) -/

def electStart (s : State) : State := if s.bit F.NET_CTL_MCAP = true ∧ s.joined = true then s.elect else s

def execElectStart (s : State) : Host.Outcome State Fault Refusal := .next (whenUp .link electStart s)

/-- ELECT (R269). -/
def electRx (queue : Nat) (s : State) : State :=
  s.withTaken queue (isMgmt 3) fun p s =>
    let s := { s with net := { s.net with round := max s.net.round (leNum (p.payload.take 1)) } }
    if p.src = s.nodeId ∧ queue < 2 ∧ s.returned queue p = false then s.sendOn queue p
    else if p.src = s.nodeId then
      let s := { s with net := { s.net with electOut := false } }
      if p.subject = s.nodeId then
        let s := { s with net := { s.net with electWait := false } }
        let s := (s.wr F.NET_STAT_ROLE 2).wr F.NET_STAT_BWID s.nodeId
        (s.sendMgmt 4 s.nodeId 0 0 true []).stageStep
      else s.wr F.NET_STAT_ROLE 0
    else if s.bit F.NET_CTL_MCAP = true ∧ s.joined = true ∧ s.nodeId < p.subject then
      let p' : Packet := { p with w1 := BitVec.ofNat 64 (p.w1.toNat - p.subject * 2 ^ 45 + s.nodeId * 2 ^ 45) }
      let s := if queue < 2 then s.sendOn queue p' else s
      if s.net.electOut then s else s.elect
    else if queue < 2 then s.sendOn queue p else s

def execElectRx (queue : Nat) (s : State) : Host.Outcome State Fault Refusal := .next (whenUp .link (electRx queue) s)

/-- The election under way is over. -/
def State.electionOver (s : State) : State := { s with net := { s.net with electOut := false, electWait := false, noBwRaised := false } }

/-- A node that is not the elected one follows it. -/
def State.electedRole (s : State) (p : Packet) : State :=
  if s.rd F.NET_STAT_ROLE = 2 ∧ s.nodeId < p.subject then s else s.wr F.NET_STAT_ROLE 0

/-- ELECTED (R269, R270). -/
def electedRx (queue : Nat) (s : State) : State :=
  s.withTaken queue (isMgmt 4) fun p s =>
    if p.src = s.nodeId then s.ownPasses queue p
    else
      let t := if queue < 2 then s.sendOn queue p else s
      ((t.wr F.NET_STAT_BWID p.subject).electionOver.electedRole p).stageStep

def execElectedRx (queue : Nat) (s : State) : Host.Outcome State Fault Refusal := .next (whenUp .link (electedRx queue) s)

/-- ELECT_MS passes without ELECTED, since joining or since the election started: an election starts, or starts again with the next ROUND
(R269). -/
def electTimeout (s : State) : State :=
  if s.bit F.NET_CTL_MCAP = true ∧ s.joined = true ∧ s.net.electWait = true then s.elect
  else s

def execElectTimeout (s : State) : Host.Outcome State Fault Refusal := .next (whenUp .link electTimeout s)

/-! ### Link delays (R271 to R273) -/

def DelayRec.none : DelayRec := ⟨0, .none, []⟩
def State.delayRec (s : State) (side : Nat) : DelayRec := getAt DelayRec.none s.net.delays side
def State.setDelay (s : State) (side : Nat) (d : DelayRec) : State :=
  { s with net := { s.net with delays := setAt s.net.delays side d } }

def F.NET_DLY_VALID (side : Nat) : Fld := if side = 0 then F.NET_DLY_W_VALID else F.NET_DLY_E_VALID
def F.NET_DLY_ASYM (side : Nat) : Fld := if side = 0 then F.NET_DLY_W_ASYM else F.NET_DLY_E_ASYM
def F.NET_DLY_DLY (side : Nat) : Fld := if side = 0 then F.NET_DLY_W_DLY else F.NET_DLY_E_DLY

/-- A lane number is in both bonds (R273). -/
def State.timingLane (s : State) (side : Nat) : Bool :=
  let both := (s.rd (F.LNK_LINK_STAT_RXL side)) &&& (s.rd (F.LNK_LINK_STAT_TXL side))
  both.testBit 0 || both.testBit 1

/-- DLY_MS passes: DELAY_REQ on an up link (R272); without a common timing lane the delay is invalid (R273). -/
def delayMeasure (side : Nat) (s : State) : State :=
  if side < 2 ∧ s.linkUp side = true then
    if s.timingLane side then
      let s := s.wr (F.NET_DLY_ASYM side) 0
      let d := s.delayRec side
      let n := (d.dseq + 1) % 2 ^ 32
      let s := s.setDelay side { d with dseq := n, open_ := some s.net.epoch }
      s.enqueue side ⟨mkW0 (s.link side).rnode s.nodeId 0 0 Kind.EPOCH false (1 - side) 0 0 0,
        mkEpochW1 2 (s.rd F.NET_STAT_BWID) 0 n, []⟩ false
    else
      let was := s.bit (F.NET_DLY_ASYM side)
      let s := (s.wr (F.NET_DLY_VALID side) 0).wr (F.NET_DLY_ASYM side) 1
      if was then s else s.raise Code.NET_EPOCH_ASYM Src.epoch [side]
  else s

def execDelayMeasure (side : Nat) (s : State) : Host.Outcome State Fault Refusal :=
  .next (whenUp .link (delayMeasure side) s)

/-- An EPOCH packet of one type. -/
def isEpoch (t : Nat) (p : Packet) : Bool := p.kind == Kind.EPOCH && p.mtype == t

/-- DELAY_REQ is answered on the link it came by, with its arrival time; the departure time is written as the answer leaves
(R271, R272). -/
def delayReqRx (queue : Nat) (s : State) : State :=
  s.withTaken queue (isEpoch 2) fun p s =>
    if queue < 2 then
      s.enqueue queue ⟨mkW0 p.src s.nodeId 0 0 Kind.EPOCH false (1 - queue) 0 0 0,
        mkEpochW1 3 (s.rd F.NET_STAT_BWID) 0 p.eseq, leBytes 8 s.net.epoch ++ leBytes 8 0⟩ false
    else s

def execDelayReqRx (queue : Nat) (s : State) : Host.Outcome State Fault Refusal :=
  .next (whenUp .link (delayReqRx queue) s)

/-- The delay of R272, rounded down. -/
def linkDelay (t1 t2 t3 t4 : Nat) : Nat := (((t4 : Int) - t1 - ((t3 : Int) - t2)) / 2).toNat

/-- DELAY_RESP completes a measurement; the delay used is the mean of the last four (R272). -/
def delayRespRx (queue : Nat) (s : State) : State :=
  s.withTaken queue (isEpoch 3) fun p s =>
    if queue < 2 then
      let d := s.delayRec queue
      match d.open_ with
      | some t1 =>
        if p.eseq = d.dseq then
          let one := linkDelay t1 (leNum (p.payload.take 8)) (leNum (p.payload.drop 8)) s.net.epoch
          let last := (one :: d.last).take 4
          let s := s.setDelay queue { d with open_ := none, last := last }
          (s.wr (F.NET_DLY_VALID queue) 1).wr (F.NET_DLY_DLY queue) (last.foldl (· + ·) 0 / last.length)
        else s
      | none => s
    else s

def execDelayRespRx (queue : Nat) (s : State) : Host.Outcome State Fault Refusal :=
  .next (whenUp .link (delayRespRx queue) s)

end Sys2Proof.Machine
end

