-- ==== Sys2Proof/Machine/Serial.lean ====
section
/-! DEFINITION. Serial ports: framers, echo check, turnaround, sending (R283 to R297). -/

namespace Sys2Proof.Machine

/-! ### Receive frames -/

/-- STAT flag bits, from bit 56 (R279). -/
def Flag.FORM : Nat := 1
def Flag.GAP : Nat := 2
def Flag.SHORT : Nat := 4
def Flag.LONG : Nat := 8
def Flag.CHECK : Nat := 16
def Flag.PARITY : Nat := 32
def Flag.FRAMING : Nat := 64
def Flag.OVERRUN : Nat := 128

/-- The packet of a frame: HDR, DATA words, and a STAT word when a flag is set (R278, R279). -/
def framePacket (s : State) (n flags rx lost : Nat) (bs : List Byte) : List (BitVec 64 × Byte) :=
  let stat : List (BitVec 64 × Byte) :=
    if flags = 0 then []
    else [(BitVec.ofNat 64 (flags * 2 ^ 56 + (min lost 65535) * 2 ^ 32 + rx % 2 ^ 32), 0xBB)]
  withE ((hdrWord n s.frame s.phase) :: noE (dataWords bs) ++ stat)

/-- A frame closes (R278, R291): a reply ends the turnaround first (R293). -/
def State.serialClose (s : State) (n flags : Nat) (bs : List Byte) (rx lost : Nat) : State :=
  let p := s.sp n
  let s := if flags = 0 then s
    else ((s.bumpF (F.SP_STAT_BAD n) 1).wr (F.SP_STAT_BADFRAME n) 1).statAdd (0x6D0 + 0x10 * n + 8) 1
  let reply := p.turn
  let s := if reply then (s.setSp n { s.sp n with turn := false, turnDrover := none }).wr (F.SP_STAT_TURN n) 0 else s
  match (if reply then p.turnDrover else none) with
  | some d => s.pollReply n d flags bs
  | none =>
    if flags ≠ 0 ∧ s.bit (F.SP_CTL_BAD_DROP n) = true then s
    else s.pushRx n (framePacket s n flags rx lost bs)

/-- Empty the receive frame. -/
def SerialPort.cleared (p : SerialPort) : SerialPort :=
  { p with frame := [], rxBytes := 0, lost := 0, flags := 0, open_ := false, gapSeen := false }

/-- Close the open frame with its own flags and `more`, delivering `bs`. -/
def State.closeNow (s : State) (n more : Nat) (bs : List Byte) : State :=
  let p := s.sp n
  (s.setSp n p.cleared).serialClose n (p.flags ||| more) bs p.rxBytes p.lost

/-! ### IEC 61162-1 (R289) -/

def isStart (b : Byte) : Bool := b == 0x24 || b == 0x21

/-- The value of a hexadecimal digit. -/
def hexDigit (b : Byte) : Option Nat :=
  let c := b.toNat
  if 0x30 ≤ c ∧ c ≤ 0x39 then some (c - 0x30)
  else if 0x41 ≤ c ∧ c ≤ 0x46 then some (c - 0x37)
  else if 0x61 ≤ c ∧ c ≤ 0x66 then some (c - 0x57)
  else none

/-- The XOR of bytes. -/
def xorBytes (bs : List Byte) : Byte := bs.foldl (fun a b => a ^^^ b) 0

/-- A sentence without its CR LF: CHECK and FORM of its checksum field. -/
def checkField (body : List Byte) : Nat :=
  let inner := (body.drop 1).takeWhile (fun b => b != 0x2A)
  let tail := (body.drop 1).drop inner.length
  match tail with
  | [_, a, b] =>
    match hexDigit a, hexDigit b with
    | some x, some y => if 16 * x + y = (xorBytes inner).toNat then 0 else Flag.CHECK
    | _, _ => Flag.FORM
  | _ => Flag.FORM

/-- A sentence without a CR LF at its end. -/
def dropEol (bs : List Byte) : List Byte :=
  match bs.reverse with
  | 0x0A :: 0x0D :: r => r.reverse
  | _ => bs

/-- A sentence closes (R289, rules 4, 7 and 8). -/
def State.closeSentence (s : State) (n more : Nat) : State :=
  let p := s.sp n
  let body := dropEol p.frame
  let talker := s.rd (F.SP_REPLY_TALKER n)
  let name := (getAt 0 body 1).toNat * 256 + (getAt 0 body 2).toNat
  if talker ≠ 0 ∧ name ≠ talker then s.setSp n p.cleared
  else
    s.closeNow n (more ||| checkField body)
      (if s.bit (F.SP_CTL_KEEP_EOL n) then body ++ [0x0D, 0x0A] else body)

/-- A character of the IEC 61162-1 framer. -/
def State.feedSentence (s : State) (n : Nat) (b : Byte) (err : Nat) : State :=
  let s := if isStart b && (s.sp n).open_ then s.closeSentence n Flag.SHORT else s
  let p := s.sp n
  if isStart b then s.setSp n { p with frame := [b], rxBytes := 1, flags := err, open_ := true }
  else if !p.open_ then s
  else
    let form :=
      if b = 0x0A then (if p.frame.getLast? = some 0x0D then 0 else Flag.FORM)
      else if b = 0x0D then 0
      else if 0x20 ≤ b.toNat ∧ b.toNat ≤ 0x7E then 0 else Flag.FORM
    let closes := decide (b = 0x0A) && decide (p.frame.getLast? = some 0x0D)
    let s := s.setSp n { p with frame := p.frame ++ [b], rxBytes := p.rxBytes + 1, flags := p.flags ||| form ||| err }
    if closes then s.closeSentence n 0
    else if 82 ≤ p.frame.length + 1 then s.closeSentence n Flag.LONG
    else s

/-! ### MODBUS RTU (R290) -/

/-- A Modbus frame closes: CRC over the whole frame, CRC not delivered. -/
def State.closeModbus (s : State) (n more : Nat) : State :=
  let bs := (s.sp n).frame
  let short := if bs.length < 4 then Flag.SHORT else 0
  let check := if 2 ≤ bs.length ∧ crc16 bs = 0 then 0 else Flag.CHECK
  s.closeNow n (more ||| short ||| check) (bs.take (bs.length - 2))

def State.feedModbus (s : State) (n : Nat) (b : Byte) (err : Nat) : State :=
  let p := s.sp n
  if p.skipping then s
  else if !p.open_ && !p.quiet then s
  else
    let gap := if p.open_ && p.gapSeen then Flag.GAP else 0
    let s := s.setSp n { p with
      frame := p.frame ++ [b], rxBytes := p.rxBytes + 1, flags := p.flags ||| gap ||| err, open_ := true, gapSeen := false }
    if 256 ≤ p.frame.length + 1 then
      let s := s.closeModbus n Flag.LONG
      s.setSp n { s.sp n with skipping := true }
    else s

/-! ### RAW, FIXED and DELIM (R288) -/

def State.feedPlain (s : State) (n framer : Nat) (b : Byte) (err : Nat) : State :=
  let p := s.sp n
  let bs := p.frame ++ [b]
  let s := s.setSp n { p with frame := bs, rxBytes := p.rxBytes + 1, flags := p.flags ||| err, open_ := true }
  if framer = 4 ∧ b.toNat = s.rd (F.SP_FRAME_DELIM n) then s.closeNow n 0 bs
  else if s.rd (F.SP_FRAME_MAXLEN n) ≤ bs.length then s.closeNow n (if framer = 4 then Flag.LONG else 0) bs
  else s

/-! ### A received character -/

/-- Bytes in the receive buffer while the fold holds an earlier push of the port (R287). -/
def State.rxBuffered (s : State) (n : Nat) : Nat :=
  (s.sp n).frame.length +
    s.fold.heldPushes.foldl (fun k p => if p.head = n then
      k + p.entries.foldl (fun j e => if e.2.toNat % 8 = 0 then j + nbits e.2.toNat 5 3 + 1 else j) 0 else k) 0

/-- The buffer is full (R287). -/
def State.rxFull (s : State) (n : Nat) : Bool :=
  s.fold.heldPushes.any (fun p => p.head == n) && decide (256 ≤ s.rxBuffered n)

/-- A character is lost to overrun (R287). -/
def State.overrun (s : State) (n : Nat) : State :=
  let p := s.sp n
  let first := !p.flags.testBit 7
  let s := s.setSp n { p with
    rxBytes := p.rxBytes + 1, lost := min 65535 (p.lost + 1), flags := p.flags ||| Flag.OVERRUN, open_ := true }
  let s := s.wr (F.SP_STAT_OVR n) 1
  if first then s.raise Code.SP_OVERRUN (Src.serial n) [] else s

/-- The echo check of a packet fails (R286). -/
def State.echoFail (s : State) (n : Nat) (t : SerialTx) : State :=
  let s := (s.wr (F.SP_STAT_ECHO n) 1).raise Code.SP_ECHO (Src.serial n) []
  let s := s.setSp n { s.sp n with tx := if t.sent then none else some { t with echoBad := true, who := [] } }
  s.confirmAll false t.who

/-- A packet whose last stop bit has left and whose echo, if checked, is complete (R152). -/
def State.txFinish (s : State) (n : Nat) (t : SerialTx) (echo : Bool) : State :=
  if t.sent = true ∧ (echo = false ∨ t.bytes.length ≤ t.echoed) then
    (s.setSp n { s.sp n with tx := none }).confirmAll true t.who
  else s.setSp n { s.sp n with tx := some t }

/-- HALF wiring with the echo check on. -/
def State.echoOn (s : State) (n : Nat) : Bool := decide (s.rd (F.SP_CTL_WIRE n) = 1) && s.bit (F.SP_CTL_ECHO n)

/-- A character is received (R286 to R291). -/
def serialRxChar (n : Nat) (b : Byte) (framing parity : Bool) (s : State) : State :=
  if 64 ≤ n ∨ s.bit (F.SP_CTL_EN n) = false then s
  else
    let s := s.statAdd (0x6D0 + 0x10 * n + 12) 1
    let p := s.sp n
    let s := s.setSp n { p with quiet := false }
    let echoing := s.echoOn n && (match p.tx with | some t => !t.echoBad && decide (t.echoed < t.bytes.length) | none => false)
    if echoing then
      match p.tx with
      | some t =>
        if getAt 0 t.bytes t.echoed = b then s.txFinish n { t with echoed := t.echoed + 1 } true else s.echoFail n t
      | none => s
    else if s.rd (F.SP_CTL_WIRE n) = 1 ∧ p.de = true then s
    else if s.rxFull n then s.overrun n
    else
      let err := (if framing then Flag.FRAMING else 0) ||| (if parity then Flag.PARITY else 0)
      let s := s.setSp n p
      let s :=
        match s.rd (F.SP_CTL_FRAMER n) with
        | 1 => s.feedSentence n b err
        | 2 => s.feedModbus n b err
        | f => s.feedPlain n f b err
      s.setSp n { s.sp n with quiet := false }

def execSerialRxChar (port : Nat) (byte : Byte) (framing parity : Bool) (s : State) : Host.Outcome State Fault Refusal :=
  .next (whenUp .edge (serialRxChar port byte framing parity) s)

/-- Silence on the line: 0 IDLE_CH, 1 T1.5, 2 T3.5 (R288, R290). -/
def serialIdle (n kind : Nat) (s : State) : State :=
  if 64 ≤ n ∨ s.bit (F.SP_CTL_EN n) = false then s
  else
    let p := s.sp n
    let framer := s.rd (F.SP_CTL_FRAMER n)
    if framer = 2 then
      if kind = 1 then s.setSp n { p with gapSeen := p.open_ }
      else if kind = 2 then
        let s := if p.open_ then s.closeModbus n 0 else s
        s.setSp n { s.sp n with skipping := false, quiet := true }
      else s
    else if framer ≠ 1 ∧ kind = 0 ∧ p.open_ = true then
      s.closeNow n (if framer = 3 ∨ framer = 4 then Flag.SHORT else 0) p.frame
    else s

def execSerialIdleTimeout (port kind : Nat) (s : State) : Host.Outcome State Fault Refusal :=
  .next (whenUp .edge (serialIdle port kind) s)

/-! ### Sending (R280, R285, R292, R293) -/

/-- An uppercase hexadecimal digit. -/
def hexChar (n : Nat) : Byte := BitVec.ofNat 8 (if n < 10 then 0x30 + n else 0x37 + n)

/-- What the framer sends for a packet (R292). -/
def framerOut (framer : Nat) (bs : List Byte) : List Byte :=
  if framer = 1 then
    let x := (xorBytes (bs.drop 1)).toNat
    let c := if bs.contains 0x2A then bs else bs ++ [0x2A, hexChar (x / 16), hexChar (x % 16)]
    if dropEol c = c then c ++ [0x0D, 0x0A] else c
  else if framer = 2 then bs ++ leBytes 2 (crc16 bs)
  else bs

/-- Begin the transmission of a packet: DE, the turnaround, the characters. -/
def State.txBegin (s : State) (n : Nat) (bs : List Byte) (who : List Nat) (drover : Option Nat) : State :=
  let framer := s.rd (F.SP_CTL_FRAMER n)
  let half := decide (s.rd (F.SP_CTL_WIRE n) = 1)
  let awaits := decide (framer = 2) && decide (getAt 0 bs 0 ≠ 0)
  let out := framerOut framer bs
  let p := s.sp n
  let s := s.setSp n { p with
    tx := some ⟨out, 0, false, false, who, drover⟩, de := p.de || half, quiet := false
    turn := p.turn || awaits, turnDrover := if awaits then drover else p.turnDrover }
  let s := if awaits then s.wr (F.SP_STAT_TURN n) 1 else s
  let s := if half then s.emit (.de n true) else s
  s.emit (.serial n out)

/-- The next packet starts (R280, R292): a poll step that waits, else the oldest packet of the send fold. -/
def serialTxStart (n : Nat) (s : State) : State :=
  let p := s.sp n
  let framer := s.rd (F.SP_CTL_FRAMER n)
  if 64 ≤ n ∨ s.bit (F.SP_CTL_EN n) = false ∨ s.portsSend = false ∨ p.tx ≠ none ∨ p.turn = true ∨
      (framer = 2 ∧ p.quiet = false) then s
  else match p.pollReq with
    | some (d, bs) => (s.setSp n { p with pollReq := none }).txBegin n bs [] (some d)
    | none =>
      match s.popPacket (64 + n) with
      | none => s
      | some (ws, s) =>
        let bs := dataBytes ws
        let who := whosOf ws
        if bs = [] then s.confirmAll true who
        else if framer = 2 ∧ (bs.length < 2 ∨ 254 < bs.length) then
          ((s.wr (F.SP_STAT_TXBAD n) 1).raise Code.SP_TX_BAD (Src.serial n) []).confirmAll false who
        else s.txBegin n bs who none

def execSerialTxStart (port : Nat) (s : State) : Host.Outcome State Fault Refusal :=
  .next (whenUp .edge (serialTxStart port) s)

/-- The last stop bit leaves the pin (R285, R152). -/
def serialTxDone (n : Nat) (s : State) : State :=
  match (s.sp n).tx with
  | some t =>
    if t.sent then s
    else
      let s := s.statAdd (0x6D0 + 0x10 * n + 4) 1
      if t.echoBad then s.setSp n { s.sp n with tx := none }
      else s.txFinish n { t with sent := true } (s.echoOn n)
  | none => s

def execSerialTxDone (port : Nat) (s : State) : Host.Outcome State Fault Refusal :=
  .next (whenUp .edge (serialTxDone port) s)

/-- In HALF wiring DE falls LAG eighths of a bit after the last stop bit (R285). -/
def serialDeLagEnd (n : Nat) (s : State) : State :=
  let p := s.sp n
  let busy := match p.tx with | some t => !t.sent | none => false
  if p.de && !busy && decide (s.rd (F.SP_CTL_WIRE n) = 1) then (s.setSp n { p with de := false }).emit (.de n false) else s

def execSerialDeLagEnd (port : Nat) (s : State) : Host.Outcome State Fault Refusal :=
  .next (whenUp .edge (serialDeLagEnd port) s)

/-- The echo deadline passes (R286). -/
def spEcho (n : Nat) (s : State) : State :=
  match (s.sp n).tx with
  | some t => if t.sent = true ∧ s.echoOn n = true ∧ t.echoed < t.bytes.length then s.echoFail n t else s
  | none => s

def execSpEcho (port : Nat) (s : State) : Host.Outcome State Fault Refusal := .next (whenUp .edge (spEcho port) s)

/-- A turnaround ends without a reply (R293, R295, R296). -/
def State.noReply (s : State) (n : Nat) : State :=
  let p := s.sp n
  if p.turn then
    let s := (s.setSp n { p with turn := false, turnDrover := none }).wr (F.SP_STAT_TURN n) 0
    let s := (s.wr (F.SP_STAT_NOREPLY n) 1).raise Code.SP_NO_REPLY (Src.serial n) []
    match p.turnDrover with
    | some d => s.pollFail n d
    | none => s
  else s

/-- REPLY_MS passes (R293). -/
def spNoReply (n : Nat) (s : State) : State :=
  let busy := match (s.sp n).tx with | some t => !t.sent | none => false
  if busy then s else s.noReply n

def execSpNoReply (port : Nat) (s : State) : Host.Outcome State Fault Refusal := .next (whenUp .edge (spNoReply port) s)

/-- PERIOD_MS passes (R294). -/
def modbusPollPeriod (n : Nat) (s : State) : State :=
  if 64 ≤ n ∨ s.bit (F.SP_CTL_EN n) = false ∨ s.bit (F.SP_POLL_PEN n) = false ∨ s.rd (F.SP_CTL_FRAMER n) ≠ 2 then s
  else match (s.sp n).pass with
    | some _ => (s.wr (F.SP_STAT_PSKIP n) 1).raise Code.SP_POLL_SKIP (Src.serial n) []
    | none => s.pollGo n 0

def execModbusPollPeriod (port : Nat) (s : State) : Host.Outcome State Fault Refusal :=
  .next (whenUp .edge (modbusPollPeriod port) s)

/-- EN goes to 0 (R296): what is being sent ends with its present character, so its packet is unconfirmed. -/
def State.serialStop (s : State) (n : Nat) : State :=
  let p := s.sp n
  let s := s.wr (F.SP_CTL_EN n) 0
  let s := match p.tx with | some t => s.confirmAll false t.who | none => s
  let s := s.failSends (64 + n)
  let s := s.setSp n { (s.sp n).cleared with tx := none, de := false, skipping := false }
  let s := if p.de then s.emit (.de n false) else s
  let s := if p.open_ then ((s.bumpF (F.SP_STAT_BAD n) 1).statAdd (0x6D0 + 0x10 * n + 8) 1) else s
  let s := match p.pollReq with
    | some (d, _) =>
      ((s.setSp n { s.sp n with pollReq := none }).raise Code.SP_POLL_FAIL (Src.serial n) []).pollFail n d
    | none => s
  (s.setSp n { s.sp n with pass := none }).noReply n

def serialDisable (n : Nat) (s : State) : State := if 64 ≤ n ∨ s.bit (F.SP_CTL_EN n) = false then s else s.serialStop n

def execSerialDisable (port : Nat) (s : State) : Host.Outcome State Fault Refusal :=
  .next (whenUp .edge (serialDisable port) s)

end Sys2Proof.Machine
end

