-- ==== Sys2Proof/Machine/Twin.lean ====
section
/-! DEFINITION. The twin unit: beacons, the lease, claims, fencing and handover (R336 to R348, R356, R358). -/

namespace Sys2Proof.Machine

/-! ### Stopping the outputs (R343, R364, R365) -/

/-- Raises of the interrupter complete at once while it is off (R110). -/
def State.intrDrop (s : State) : State :=
  let vs := s.vin.vectors ++ s.vin.vectorWait
  let s := { s with vin := { s.vin with vectorWait := [] } }
  let s := (s.setVectors []).setIrq false
  vs.foldl (fun (s : State) v => s.completeVector v St.IRQ_DISABLED) s

/-- A drover's piece that waits for the bus ends: the interface is off (R337, R364). -/
def State.pieceOff (s : State) (d : Nat) : State :=
  let s := s.unwait (.drover d)
  let s := if s.drives && !s.twin.fencing then s else
    match s.job d with
    | some j => s.raiseCap Code.TWN_NOT_HOLDER Src.vmeMaster [] j.cap
    | none => s
  s.pieceEnded d St.VME_ARB_TIMEOUT

/-- The VME interface negates its strobes and disables its transceivers: a cycle in progress is cut and its piece completes with
RETRY_UNSAFE; pieces that wait for the bus end; an inbound cycle is left. -/
def State.vmeCut (s : State) : State :=
  let owner := if s.vme.strobed then s.vme.owner else none
  let s := ({ s with vme := { s.vme with iackLevel := none, grantOut := none, bclrOut := false } }).dropBus
  let s := match owner with
    | some (.drover d) => s.pieceEnded d St.RETRY_UNSAFE
    | _ => s
  let s := s.unwait .ih
  let s := (List.range 64).foldl (fun (s : State) d =>
    if s.vme.waiting.contains (.drover d) || s.vme.gap.contains (.drover d) then s.pieceOff d else s) s
  let s := match s.vin.cyc with
    | some c => ((s.letGo c).flushGather c).setCyc none
    | none => s
  s.intrDrop

/-- A serial port in its safe state: DE is negated, and a packet in progress is cut (R281, R343). -/
def State.serialCut (s : State) (n : Nat) : State :=
  let p := s.sp n
  match p.tx with
  | none => if p.de then (s.setSp n { p with de := false }).emit (.de n false) else s
  | some t =>
    let s := s.setSp n { p with tx := none, de := false }
    (if p.de then s.emit (.de n false) else s).confirmAll false t.who

/-- Every serial port that has something on the line. -/
def State.serialsCut (s : State) : State := (List.range 64).foldl (fun (s : State) n => s.serialCut n) s

/-- A CAN FD frame in progress is cut (R343): it stays in the transmit buffer. -/
def State.canCut (s : State) (n : Nat) : State := s.setCf n { s.cf n with sending := false }
def State.cansCut (s : State) : State := (List.range 16).foldl (fun (s : State) n => s.canCut n) s

/-- Every chain's pins go to high impedance, and its waiting stores end unconfirmed (R281). -/
def State.chainsOff (s : State) : State :=
  (List.range 8).foldl (fun (s : State) n =>
    if s.bit (F.DC_CTL_EN n) then
      let s := s.dcFail n
      (s.setDc n { s.dc n with inFrame := false }).emit (.chainHigh n)
    else s) s

/-- Everything the table of R337 takes from a device that does not hold the crook. -/
def State.outputsOff (s : State) : State := s.vmeCut.serialsCut.cansCut.chainsOff

/-! ### Packets (R339, R340) -/

def State.twnState (s : State) : Nat := s.rd F.TWN_STAT_STATE
def State.twnPeer (s : State) : Nat := s.rd F.TWN_CTL_PEER
def msTicks (ms : Nat) : Nat := ms * 100000

/-- A LEASE packet of this node. -/
def State.leasePacket (s : State) (ltype bseq : Nat) : Packet :=
  let w1 := (ltype % 256) * 2 ^ 56 + s.twnState * 2 ^ 53 + s.rd F.TWN_STAT_SYNC * 2 ^ 52 + s.rd F.TWN_STAT_GEN * 2 ^ 32 + bseq % 2 ^ 32
  ⟨mkW0 s.twnPeer s.nodeId bseq 0 Kind.LEASE false 0 0 0 0, BitVec.ofNat 64 w1,
    leBytes 4 (s.rd F.TWN_EPOCH_EPOCH) ++ leBytes 2 (s.rd F.TWN_LEASE_LEASE_MS) ++ leBytes 2 (s.rd F.TWN_LEASE_GUARD_MS)⟩

/-- The ring can carry packets of this node (R262, R364). -/
def State.ringOpenFor (s : State) : Bool := s.joined && !s.linkFenced

/-- Send a LEASE packet over each path: the peer lane while link P is up, and both rings (R339). -/
def State.leaseAll (s : State) (p : Packet) : State :=
  if s.halting 3 then s
  else
    let s := if s.linkUp 2 then s.enqueue 2 p false else s
    if s.ringOpenFor then (s.injectOn 0 p).injectOn 1 p else s

/-- Send on the path a packet came by: queue 3 is the peer lane (R339). -/
def State.leaseBack (s : State) (q : Nat) (p : Packet) : State :=
  if s.halting 3 then s
  else if q = 3 then (if s.linkUp 2 then s.enqueue 2 p false else s)
  else if s.ringOpenFor then s.injectOn (s.chooseRing p.dst 0) p else s

def Packet.leaseState (p : Packet) : Nat := nbits p.w1.toNat 55 53
def Packet.leaseSync (p : Packet) : Bool := p.w1.toNat.testBit 52
def Packet.leaseGen (p : Packet) : Nat := nbits p.w1.toNat 47 32
def Packet.leaseBseq (p : Packet) : Nat := nbits p.w1.toNat 31 0

/-- The higher of two generations, compared as a signed difference modulo 2^16 (R345). -/
def genMax (a b : Nat) : Nat := if (b + 65536 - a) % 65536 < 32768 then b else a
/-- GEN `a` is higher than `b`. -/
def genAbove (a b : Nat) : Bool := decide (0 < (a + 65536 - b) % 65536 ∧ (a + 65536 - b) % 65536 < 32768)

/-- Ask for a full copy (R355, R357). -/
def State.sendResync (s : State) : State :=
  if s.linkUp 2 || (s.bit F.TWN_CTL_RING_MIRROR && !s.linkFenced) then
    let s := { s with twin := { s.twin with asked := true } }
    s.sendMirror (s.mirrorPacket 4 0 0 (s.rd F.TWN_EPOCH_EPOCH) [])
  else s

/-! ### States (R338) -/

/-- The device enters STANDBY (R341, R344). -/
def State.toStandby (s : State) (sync : Bool) : State :=
  let s := ((s.wr F.TWN_STAT_STATE 1).wr F.TWN_STAT_CROOK 0).wrB F.TWN_STAT_SYNC sync
  let s := s.wr F.TWN_STAT_ALONE 0
  { s with twin := { s.twin with tHeard := s.ticks, enteredStandby := s.ticks, heardActive := none, asked := sync, handover := false
                                 stuckRaised := false } }

/-- The holder's queue and marks are given up: mirroring stops, and marks complete with TWIN_OFF (R343, R354). -/
def State.mirrorStop (s : State) : State :=
  let ms := s.twin.marks ++ s.twin.markWait
  let s := { s with twin := { s.twin with mq := [], mwait := [], marks := [], markWait := [], fullReq := false, fullOpen := false
                                          fullLeft := 0, yieldEpoch := none } }
  let s := s.wr F.TWN_MQ_DEPTH 0
  ms.foldl (fun (s : State) m => s.detachResult m.2 ⟨St.TWIN_OFF, 0, leBytes 8 0⟩) s

/-- An epoch opens at the holder (R350, R351). -/
def State.epochOpen (s : State) (n : Nat) : State :=
  let s := { s with twin := { s.twin with rseq := 0, crc := 0xFFFFFFFF#32, marks := [] } }
  s.wr F.TWN_EPOCH_EPOCH n

/-- The device takes the crook; its first epoch is `first` above the last committed (R342, R348, R356). -/
def State.takeCrook (s : State) (first : Nat) : State :=
  let l := s.rd F.TWN_EPOCH_EPOCH
  let lost := s.twin.banks.foldl (fun (n : Nat) b => n + b.recs.length) 0
  let s := if s.twin.banks = [] then s else s.bump K.TWN_CNT_EP_DISCARD
  let sync := s.bit F.TWN_STAT_SYNC
  let gen := (genMax (s.rd F.TWN_STAT_GEN) s.twin.peerGen + 1) % 65536
  let s := ((s.wr F.TWN_STAT_STATE 3).wr F.TWN_STAT_CROOK 1).wr F.TWN_STAT_GEN gen
  let s := (s.wr F.TWN_STAT_ALONE 0).wrB F.TWN_STAT_SAFE (!sync || s.bit F.TWN_CTL_TAKE_SAFE)
  let s := (s.wr F.TWN_STAT_SYNC 0).wr F.TWN_TAKE_EP_EPOCH l
  let former := s.twin.heardActive.getD s.twnPeer
  let s := { s with twin := { s.twin with banks := [], tRenew := s.ticks, beacons := [], peerLostRaised := false, holdOut := true
                                          handover := false, yieldEpoch := none } }
  let s := s.epochOpen ((l + first) % 2 ^ 32)
  let s := s.lcDropAll
  let s := (s.bump K.TWN_CNT_TAKE).raise Code.TWN_TAKEOVER Src.twin [l, lost, former * 65536 + gen, s.rd F.TWN_MARK_LO_MARK]
  -- vectors awaiting RORA release are queued again (R356)
  let vs := s.vin.vectors.map (fun v => { v with taken := false })
  ((s.setVectors vs).setIrq (vs != [])).desFull

/-- The fence (R343): 1 lapse, 2 conflict, 3 SAFE. Combining lines and inbound posted writes go on. -/
def State.twnFence (s : State) (cause : Nat) : State :=
  if s.twin.fencing || !s.crook then s
  else
    let s := { s with twin := { s.twin with fencing := true, fenceAt := s.ticks } }
    let s := s.mirrorStop
    let r := s.discardQueue
    let s := r.2.2.vmeCut.serialsCut.cansCut
    let s := (s.bump K.TWN_CNT_FENCE).bumpN K.TWN_CNT_FENCE_LOST_BYTES r.2.1
    s.raise Code.TWN_FENCE Src.twin [cause, s.rd F.TWN_STAT_GEN, r.2.1, r.1]

/-- Twin operation is enabled or disabled (R336, R338). Enabled, the device does not hold the crook and its outputs end (R337; what
then becomes of work in progress is DEDUCED, log entry 72). -/
def State.twnEnable (s : State) (on : Bool) : State :=
  if on then ((s.wr F.TWN_CTL_EN 1).toStandby false).outputsOff.desFull
  else
    let s := (s.wr F.TWN_CTL_EN 0).mirrorStop
    let s := (((s.wr F.TWN_STAT_STATE 0).wr F.TWN_STAT_CROOK 0).wr F.TWN_STAT_SYNC 0).wr F.TWN_STAT_ALONE 0
    let s := s.wr F.TWN_STAT_SAFE 0
    ({ s with twin := { s.twin with fencing := false, holdOut := false, banks := [] } }).desFull

/-- W (R341), in EDGE cycles. -/
def State.twnW (s : State) : Nat :=
  msTicks (max (s.rd F.TWN_LEASE_LEASE_MS + s.rd F.TWN_LEASE_GUARD_MS) s.twin.peerSum)

/-! ### Beacons (R339, R341, R345) -/

def twnBeacon (s : State) : State :=
  if s.twinOn && !s.twin.fencing && !s.halting 3 then
    let n := s.twin.bseq
    let s := s.leaseAll (s.leasePacket 1 n)
    { s with twin := { s.twin with bseq := (n + 1) % 2 ^ 32, beacons := s.twin.beacons ++ [(n, s.ticks)] } }
  else s

def execTwnBeacon (s : State) : Host.Outcome State Fault Refusal := .next (whenUp .mgmt twnBeacon s)

/-- A LEASE packet from the peer has been heard on a path. -/
def State.heard (s : State) (q : Nat) (p : Packet) : State :=
  let s := { s with twin := { s.twin with peerGen := genMax s.twin.peerGen p.leaseGen } }
  if q = 3 then { s with twin := { s.twin with heardLane := some s.ticks } }
  else { s with twin := { s.twin with heardRing := some s.ticks } }

/-- Take a LEASE packet of one type from the peer. -/
def State.withLease (s : State) (q ltype : Nat) (f : Packet → State → State) : State :=
  s.withTaken q (fun p => p.kind == Kind.LEASE && p.mtype == ltype) fun p s =>
    if s.twinOn && decide (p.src = s.twnPeer) then f p (s.heard q p) else s

/-- Lease settings that differ from the peer's, once for each change of either (R341). -/
def State.leaseSettings (s : State) (l g : Nat) : State :=
  let s := { s with twin := { s.twin with peerSum := l + g } }
  let own := (s.rd F.TWN_LEASE_LEASE_MS, s.rd F.TWN_LEASE_GUARD_MS)
  if (l, g) = own then { s with twin := { s.twin with mismatch := none } }
  else if s.twin.mismatch = some ((l, g), own) then s
  else ({ s with twin := { s.twin with mismatch := some ((l, g), own) } }).raise Code.TWN_CFG_MISMATCH Src.twin []

/-- A holder hears a holder (R345). -/
def State.conflict (s : State) (p : Packet) : State :=
  let own := s.rd F.TWN_STAT_GEN
  let keep := genAbove own p.leaseGen || (own == p.leaseGen && decide (s.nodeId < p.src))
  let s := s.raise Code.TWN_CONFLICT Src.twin []
  if keep then s else s.twnFence 2

/-- The peer that holds is heard. -/
def State.holderHeard (s : State) (src : Nat) : State := { s with twin := { s.twin with heardActive := some src } }
def State.heardNow (s : State) : State := { s with twin := { s.twin with tHeard := s.ticks } }

/-- A standby hears a holder's BEACON: it acknowledges, gives up a claim, and asks for a full copy when it has none. -/
def State.beaconHeard (s : State) (queue : Nat) (p : Packet) : State :=
  let s := (s.heardNow.holderHeard p.src).leaseBack queue ((s.heardNow.holderHeard p.src).leasePacket 2 p.leaseBseq)
  if s.twnState = 2 then (s.toStandby (s.bit F.TWN_STAT_SYNC)).holderHeard p.src
  else if s.twnState = 1 ∧ s.bit F.TWN_STAT_SYNC = false ∧ s.twin.asked = false then s.sendResync
  else s

/-- A BEACON from the peer is taken: its lease settings, then by the states of the two nodes. -/
def State.beaconTake (s : State) (queue : Nat) (p : Packet) : State :=
  let s := s.leaseSettings (leNum (slice p.payload 4 2)) (leNum (slice p.payload 6 2))
  let holds := p.leaseState == 3 || p.leaseState == 4
  if s.crook && !s.twin.fencing then
    let s := s.wrB F.TWN_STAT_SYNC p.leaseSync
    if holds then (s.leaseBack queue (s.leasePacket 2 p.leaseBseq)).conflict p else s
  else
    let s := if s.twnState = 5 then s.toStandby false else s
    if holds then s.beaconHeard queue p else s

def beaconRx (queue : Nat) (s : State) : State := s.withLease queue 1 fun p s => s.beaconTake queue p

def execBeaconRx (queue : Nat) (s : State) : Host.Outcome State Fault Refusal := .next (whenUp .mgmt (beaconRx queue) s)

/-- An ACK renews the lease (R341): T_renew is the send time of the BEACON it echoes, when later. -/
def leaseAckRx (queue : Nat) (s : State) : State :=
  s.withLease queue 2 fun p s =>
    if s.crook && !s.twin.fencing then
      let s := (s.wrB F.TWN_STAT_SYNC p.leaseSync).wr F.TWN_STAT_ALONE 0
      match s.twin.beacons.find? (fun b => b.1 == p.leaseBseq) with
      | some b =>
        { s with twin := { s.twin with tRenew := max s.twin.tRenew b.2, peerLostRaised := false
                                       beacons := s.twin.beacons.filter (fun c => decide (b.2 ≤ c.2)) } }
      | none => { s with twin := { s.twin with peerLostRaised := false } }
    else s

def execLeaseAckRx (queue : Nat) (s : State) : Host.Outcome State Fault Refusal := .next (whenUp .mgmt (leaseAckRx queue) s)

/-- The lease lapses (R343). -/
def twnLeaseLapse (s : State) : State :=
  let due := s.twin.tRenew + msTicks (s.rd F.TWN_LEASE_LEASE_MS - s.rd F.TWN_LEASE_GUARD_MS)
  if s.twinOn && s.crook && !s.twin.fencing && decide (due ≤ s.ticks) then
    if s.bit F.TWN_CTL_HOLD_EN ∧ s.rd F.TWN_STAT_HOLD_IN = 0 then
      let s := s.wr F.TWN_STAT_ALONE 1
      if s.twin.peerLostRaised then s
      else ({ s with twin := { s.twin with peerLostRaised := true } }).raise Code.TWN_PEER_LOST Src.twin []
    else s.twnFence 1
  else s

def execTwnLeaseLapse (s : State) : Host.Outcome State Fault Refusal := .next (whenUp .mgmt twnLeaseLapse s)

/-! ### Claims (R342) -/

/-- A claim starts: TAKE on every path, HOLD_OUT high. -/
def State.startClaim (s : State) (handover : Bool) : State :=
  let s := s.wr F.TWN_STAT_STATE 2
  let s := { s with twin := { s.twin with sawTake := false, handover := handover, holdOut := true } }
  s.leaseAll (s.leasePacket 3 s.twin.bseq)

def twnWaitEnd (s : State) : State :=
  if s.twinOn && decide (s.twnState = 1) && s.bit F.TWN_CTL_TAKE_EN && !s.flt.safe && !s.halting 3 && s.twin.committing.isNone &&
      decide (s.twin.tHeard + s.twnW ≤ s.ticks) then
    if s.bit F.TWN_CTL_HOLD_EN ∧ s.rd F.TWN_STAT_HOLD_IN = 2 then
      if s.twin.stuckRaised then s
      else ({ s with twin := { s.twin with stuckRaised := true } }).raise Code.TWN_HOLD_STUCK Src.twin []
    else if !s.bit F.TWN_CTL_PRIMARY && !s.bit F.TWN_STAT_SYNC &&
        !(decide (s.twin.enteredStandby + 2 * s.twnW ≤ s.ticks) && decide (s.twin.tHeard + 2 * s.twnW ≤ s.ticks)) then s
    else s.startClaim false
  else s

def execTwnWaitEnd (s : State) : Host.Outcome State Fault Refusal := .next (whenUp .mgmt twnWaitEnd s)

def takeRx (queue : Nat) (s : State) : State :=
  s.withLease queue 3 fun _ s => if s.twnState = 2 then { s with twin := { s.twin with sawTake := true } } else s

def execTakeRx (queue : Nat) (s : State) : Host.Outcome State Fault Refusal := .next (whenUp .mgmt (takeRx queue) s)

def twnClaimEnd (s : State) : State :=
  if s.twinOn && decide (s.twnState = 2) && s.twin.committing.isNone then
    let contested := s.twin.sawTake || (s.bit F.TWN_CTL_HOLD_EN && s.rd F.TWN_STAT_HOLD_IN == 2)
    if contested && decide (s.twnPeer < s.nodeId) then
      let t := s.toStandby (s.bit F.TWN_STAT_SYNC)
      { t with twin := { t.twin with holdOut := false } }
    else s.takeCrook (if s.twin.handover then 1 else 2)
  else s

def execTwnClaimEnd (s : State) : Host.Outcome State Fault Refusal := .next (whenUp .mgmt twnClaimEnd s)

/-! ### After a fence (R343, R344) -/

/-- Chain pins are at high impedance: CROOK clears. -/
def twnFenceDone (s : State) : State :=
  if s.twin.fencing then
    let s := s.chainsOff
    let s := ((s.wr F.TWN_STAT_CROOK 0).wr F.TWN_STAT_STATE 5).wr F.TWN_STAT_ALONE 0
    { s with twin := { s.twin with fencing := false, holdOut := false } }
  else s

def execTwnFenceDone (s : State) : Host.Outcome State Fault Refusal := .next (whenUp .mgmt twnFenceDone s)

def twnFenceRearm (s : State) : State :=
  if s.twinOn && decide (s.twnState = 5) && s.bit F.TWN_CTL_HOLD_EN && decide (s.twin.fenceAt + s.twnW ≤ s.ticks) then
    s.toStandby false else s

def execTwnFenceRearm (s : State) : Host.Outcome State Fault Refusal := .next (whenUp .mgmt twnFenceRearm s)

/-- REARM (R344): T_heard goes back by W. -/
def State.twnRearm (s : State) : State :=
  if s.twinOn && decide (s.twnState = 5) then
    let s := s.toStandby false
    { s with twin := { s.twin with tHeard := s.ticks - s.twnW } }
  else s

def execTwnRearm (s : State) : Host.Outcome State Fault Refusal := .next (whenUp .mgmt State.twnRearm s)

/-- RESUME (R342). -/
def State.twnResume (s : State) : State := s.wr F.TWN_STAT_SAFE 0

def execTwnResume (s : State) : Host.Outcome State Fault Refusal := .next (whenUp .mgmt State.twnResume s)

/-! ### Handover (R348) -/

/-- YIELD: refused without SYNC. -/
def State.twnYield (s : State) : State :=
  if s.twinOn && decide (s.twnState = 3) && !s.twin.fencing then
    if s.bit F.TWN_STAT_SYNC then s.wr F.TWN_STAT_STATE 4 else s.raise Code.TWN_YIELD_REFUSED Src.twin []
  else s

def execTwnYield (s : State) : Host.Outcome State Fault Refusal := .next (whenUp .mgmt State.twnYield s)

/-- No COMMITTED within LEASE_MS of the CLOSE: the holder is ACTIVE again, and waiting owners of the bus go on. -/
def twnYieldRefused (s : State) : State :=
  if decide (s.twnState = 4) && s.twin.yieldEpoch.isSome && !s.twin.fencing then
    let s := s.wr F.TWN_STAT_STATE 3
    (({ s with twin := { s.twin with yieldEpoch := none } }).raise Code.TWN_YIELD_REFUSED Src.twin []).tenureNext
  else s

def execTwnYieldRefused (s : State) : Host.Outcome State Fault Refusal := .next (whenUp .mgmt twnYieldRefused s)

def handoverRx (queue : Nat) (s : State) : State :=
  s.withLease queue 4 fun p s =>
    if s.twnState = 1 ∧ s.flt.safe = false ∧ s.halting 3 = false then
      ({ s with twin := { s.twin with heardActive := some p.src } }).startClaim true
    else s

def execHandoverRx (queue : Nat) (s : State) : Host.Outcome State Fault Refusal := .next (whenUp .mgmt (handoverRx queue) s)

/-! ### HOLD lines (R346) -/

def twnHoldToggle (s : State) : State :=
  if s.twinOn && !s.crook && decide (s.twnState ≠ 2) then
    { s with twin := { s.twin with holdOut := !s.twin.holdOut } } else s

def execTwnHoldToggle (s : State) : Host.Outcome State Fault Refusal := .next (whenUp .mgmt twnHoldToggle s)

/-- A change on HOLD_IN makes it ALIVE; 1 ms without one makes it LOW or HIGH. -/
def twnHoldInClassify (level changed : Bool) (s : State) : State :=
  let s := s.wr F.TWN_STAT_HOLD_IN (if changed then 1 else if level then 2 else 0)
  { s with twin := { s.twin with holdIn := level } }

def execTwnHoldInClassify (level changed : Bool) (s : State) : Host.Outcome State Fault Refusal :=
  .next (whenUp .mgmt (twnHoldInClassify level changed) s)

end Sys2Proof.Machine
end

