-- ==== Sys2Proof/Machine/Fault.lean ====
section
/-! DEFINITION. The fault collector: severity, merging, escalation, reactions, evidence, clearing and injection (R360 to R381). -/

namespace Sys2Proof.Machine

/-! ### The active table (R368, R378) -/

def noEntry (_ : Nat) : Option ActEntry := none
def noHist (_ : Nat) : List HistEntry := []
def State.actEntry (s : State) (e : Nat) : Option ActEntry := tget noEntry s.flt.active e
def State.setEntry (s : State) (e : Nat) (x : Option ActEntry) : State :=
  { s with flt := { s.flt with active := tput noEntry s.flt.active e x } }

/-- Valid entries with their numbers. -/
def State.entries (s : State) : List (Nat × ActEntry) :=
  s.flt.active.filterMap (fun p => match p.2 with | some a => some (p.1, a) | none => none)

def srcArea (src : Nat) : Nat := src / 512
def srcBlock (src : Nat) : Nat := src / 8
def srcCell (src : Nat) : Nat := src % 8

/-- PRESENT of a fault (R378). -/
def State.present (s : State) (code src : Nat) : Bool :=
  let c := srcCell src
  if code = Code.LNK_DOWN then !s.linkUp c
  else if code = Code.TWN_PEER_DOWN then !s.linkUp 2
  else if code = Code.LNK_LANE_DOWN then !s.bit (F.LNK_LANE_STAT_INBOND c)
  else if code = Code.LNK_MISWIRE then s.bit (F.LNK_LANE_STAT_MISWIRE c)
  else if code = Code.NET_ID_BAD then decide (s.rd F.NET_ID_STATE = 4)
  else if code = Code.NET_DUP_ID then decide (s.rd F.NET_ID_STATE = 3)
  else if code = Code.NET_WRAP then s.bit F.NET_STAT_WRAP_W || s.bit F.NET_STAT_WRAP_E
  else if code = Code.NET_NO_BELLWETHER then decide (s.rd F.NET_STAT_BWID = 0x7FF)
  else if code = Code.NET_EPOCH_LOSS then !s.bit F.NET_EPOCH_STAT_VALID
  else if code = Code.DRV_REMOVED then decide ((s.drover (src % 512)).st = .removed)
  else if code = Code.CF_ERR_PASSIVE then decide (1 ≤ s.rd (F.CF_ERR_STATE (srcBlock src % 64 * 8 - 72 + c)))
  else if code = Code.CF_BUS_OFF then decide (2 ≤ s.rd (F.CF_ERR_STATE (srcBlock src % 64 * 8 - 72 + c)))
  else if code = Code.DC_MISMATCH then decide ((s.dc c).unequal ≠ 0)
  else if code = Code.CAD_LOSS ∨ code = Code.CAD_FALLBACK then decide (s.rd F.CAD_STAT_STATE ≠ 1)
  else if code = Code.TWN_PEER_LOST then s.bit F.TWN_STAT_ALONE
  else if code = Code.REC_P_FAIL then s.bit F.REC_STAT_P_FAIL
  else if code = Code.REC_C_FAIL then s.bit F.REC_STAT_C_FAIL
  else if code = Code.REC_BOTH_FAIL then (s.bit F.REC_STAT_P_FAIL && s.bit F.REC_STAT_C_FAIL) || s.bit F.REC_STAT_CTL_FAIL
  else if code = Code.PWR_FEED_LOW then s.bit (F.feedLow c)
  else if code = Code.PWR_FAIL_WARN then s.bit F.PWR_STAT_WARN
  else if code = Code.PWR_SLOT_TRIP then decide (s.slotSt c = SlotSt.RETRY)
  else false

/-- A unit whose last entry has cleared returns to service where the entry held it out (R363, R413). -/
def State.entryGone (s : State) (a : ActEntry) : State :=
  if srcArea a.src = 3 ∧ srcBlock a.src % 64 = 14 then s.slotUnhold (srcCell a.src) else s

/-- Remove an entry. -/
def State.dropEntry (s : State) (e : Nat) : State :=
  match s.actEntry e with
  | some a => (s.setEntry e none).entryGone a
  | none => s

/-- The oldest entry of NOTE. -/
def State.oldestNote (s : State) : Option Nat :=
  (s.entries.foldl (fun (b : Option (Nat × ActEntry)) p =>
    if p.2.sev ≠ 1 then b
    else match b with
      | some q => if p.2.order < q.2.order then some p else b
      | none => some p) none).map (·.1)

/-- The entry a fault takes (R368): the lowest free one; a full table gives WARN and above the oldest NOTE's. -/
def State.findEntry (s : State) (sev : Nat) : Option Nat × State :=
  match (List.range 256).find? (fun e => (s.actEntry e).isNone) with
  | some e => (some e, s)
  | none =>
    if sev < 2 then (none, s)
    else match s.oldestNote with
      | some e => (some e, s.dropEntry e)
      | none => (none, s)

/-! ### Evidence (R373, R375, R376) -/

/-- A history entry of the source's block; eight are kept. -/
def State.addHistory (s : State) (f : FaultRec) (sev : Nat) (esc merge : Bool) : State :=
  let b := srcBlock f.src
  let h : HistEntry := ⟨f.code, srcCell f.src, sev, esc, merge, f.cyc, f.frame % 65536, f.phase⟩
  { s with flt := { s.flt with history := tput noHist s.flt.history b ((h :: tget noHist s.flt.history b).take 8) } }

/-- FLT_FIRST (R375). -/
def State.noteFirst (s : State) (f : FaultRec) (sev : Nat) : State :=
  if sev = 0 ∨ s.bit F.FLT_FIRST_VALID = true then s
  else (((s.wr F.FLT_FIRST_VALID 1).wr F.FLT_FIRST_SEV sev).wr F.FLT_FIRST_SOURCE f.src).wr F.FLT_FIRST_CODE f.code

/-- An ERR_N pulse starts or restarts (R376). -/
def State.errPulse (s : State) : State :=
  ({ s with flt := { s.flt with errPulse := true } }).bump K.FLT_CNT_ERR_PULSE

/-- Register of the latched error lines of an area (R381). -/
def regionKey (area : Nat) : Nat := K.FLT_REG_LINK + 4 * area

/-- The block error line is asserted (R377): a valid entry of the block at WARN or above. -/
def State.errorLine (s : State) (block : Nat) : Bool := s.entries.any (fun p => srcBlock p.2.src == block && decide (2 ≤ p.2.sev))

/-- A write of `v` to FLT_REG of an area clears the bits whose lines are negated (R377). -/
def State.regionClear (s : State) (area v : Nat) : State :=
  (List.range 24).foldl (fun (s : State) b =>
    if v.testBit b && !s.errorLine (area * 64 + b) then s.setReg (regionKey area) (setBits (s.reg (regionKey area)) b b 0) else s) s

/-! ### Severity (R367, R370, R372) -/

/-- The programmed severity: the lowest matching override, else the code's own. -/
def State.programmed (s : State) (code src : Nat) : Nat :=
  match (List.range 32).find? (fun k => s.bit (F.FLT_OVR_A_EN k) && s.rd (F.FLT_OVR_A_CODE k) == code &&
      src &&& s.rd (F.FLT_OVR_B_SMASK k) == s.rd (F.FLT_OVR_A_SOURCE k) &&& s.rd (F.FLT_OVR_B_SMASK k)) with
  | some k => s.rd (F.FLT_OVR_A_SEV k)
  | none => s.rd (F.FLT_SEV_SEV code)

/-- Fault `a` is taken before fault `b` of the same cycle (R372). -/
def faultBefore (a b : Nat × FaultRec) : Bool :=
  if a.1 ≠ b.1 then decide (b.1 < a.1)
  else if a.2.src ≠ b.2.src then decide (a.2.src < b.2.src)
  else decide (a.2.code < b.2.code)

/-- Insert a fault at its place; equal ones stay in the order of arrival. -/
def insertFault (x : Nat × FaultRec) : List (Nat × FaultRec) → List (Nat × FaultRec)
  | [] => [x]
  | y :: t => if faultBefore x y then x :: y :: t else y :: insertFault x t

/-! ### Reactions (R363 to R365) -/

/-- A drover is taken out of service (R141, R363). -/
def State.droverRemove (s : State) (d : Nat) : State :=
  let x := s.drover d
  if x.st = .removed then s
  else
    let s := s.setDrover d { x with st := .removed, fold := x.fold.map (fun t => { t with pinwhy := 0 }) }
    let s := { s with drv := { s.drv with wakeWait := s.drv.wakeWait.filter (fun e => e.1 != d) } }
    let f := if d < 32 then F.DRV_EN_LO_EN else F.DRV_EN_HI_EN
    let s := s.wr f (s.rd f - if (s.rd f).testBit (d % 32) then 2 ^ (d % 32) else 0)
    (s.raise Code.DRV_REMOVED (Src.drover d) []).placeCheck

/-- DEGRADE: the source unit leaves service (R363). Lenses and chains are out while their entry is valid. -/
def State.degrade (s : State) (src : Nat) : State :=
  let a := srcArea src
  let b := srcBlock src % 64
  let c := srcCell src
  if a = 0 ∧ b = 0 then (if c < 5 then s.laneOut c else s)
  else if a = 2 ∧ b < 8 then s.droverRemove (8 * b + c)
  else if a = 2 ∧ b = 9 then s.lcOff
  else if a = 2 ∧ b = 10 then s.wcOff
  else if a = 3 ∧ 1 ≤ b ∧ b ≤ 8 then
    (if s.bit (F.SP_CTL_EN (8 * (b - 1) + c)) then s.serialStop (8 * (b - 1) + c) else s)
  else if a = 3 ∧ (b = 9 ∨ b = 10) then
    (if s.bit (F.CF_CTL_EN (8 * (b - 9) + c)) then s.canStop (8 * (b - 9) + c) else s)
  else if a = 3 ∧ b = 14 then s.slotHold c
  else s

/-- The VME interface stops and the outbound posted write queue is discarded (R365). -/
def State.safeVme (s : State) : State :=
  let s := s.vmeCut
  let r := s.discardQueue
  (r.2.2.bumpN K.VME_CNT_LOST_BYTES r.2.1).raise Code.CHIP_SAFE_DISCARD Src.collector [r.2.1, r.1]

/-- SAFE (R365). A claim in progress is given up: a device without the crook stays without it. -/
def State.enterSafe (s : State) : State :=
  if s.flt.safe then s
  else
    let s := { s with flt := { s.flt with safe := true } }
    if s.twinOn && s.crook then s.twnFence 3
    else
      let s := if s.twinOn && decide (s.twnState = 2) then
          let t := s.toStandby (s.bit F.TWN_STAT_SYNC)
          { t with twin := { t.twin with holdOut := false } }
        else s
      s.safeVme.serialsCut

/-- FENCE: the source's region is isolated; CORE and CHIP are promoted to SAFE (R364). -/
def State.fence (s : State) (src : Nat) : State :=
  let a := srcArea src
  if a = 0 then { s with flt := { s.flt with fencedLink := true } }
  else if a = 1 then { s with flt := { s.flt with fencedHost := true } }
  else if a = 3 then
    if s.flt.fencedEdge then s
    else
      let s := { s with flt := { s.flt with fencedEdge := true } }
      s.safeVme.serialsCut
  else s.enterSafe

/-- The collector's reaction to an effective severity (R362). -/
def State.react (s : State) (f : FaultRec) (sev : Nat) : State :=
  let s := s.record f.code (f.params.map (·.toNat))
  if sev < 2 then s
  else
    let s := s.eventPost sev f.code f.phase f.frame f.params
    let s := s.setReg (regionKey (srcArea f.src)) (setBits (s.reg (regionKey (srcArea f.src))) (srcBlock f.src % 64)
      (srcBlock f.src % 64) 1)
    if sev = 3 then s.degrade f.src
    else if sev = 4 then s.fence f.src
    else if sev = 5 then s.enterSafe
    else s

/-! ### Collecting (R361, R368 to R372) -/

/-- The period statistics count every raise by effective severity (R362). -/
def State.countSeverity (s : State) (sev : Nat) : State := if 1 ≤ sev ∧ sev ≤ 5 then s.statAdd (0x1F0 + 4 * (sev - 1)) 1 else s

/-- A fault merges into entry `e` (R369). -/
def State.mergeFault (s : State) (e : Nat) (a : ActEntry) (f : FaultRec) (prog : Nat) : State :=
  let s := s.setEntry e (some { a with count := satAdd 16 a.count 1, since := s.ticks })
  ((((s.bump K.FLT_CNT_MERGED).countSeverity prog).addHistory f prog false true).noteFirst f prog)

/-- A fault that does not merge (R362, R368, R370). A REC_BOTH_FAIL of severity IGNORE, or one that merges, starts no ERR_N pulse
(DEDUCED, log entry 73). -/
def State.newFault (s : State) (f : FaultRec) (prog : Nat) : State :=
  let esc := decide (2 ≤ prog) && !s.bit (F.FLT_SEV_NOESC f.code) && s.bit F.FLT_CTL_ESC_EN &&
    s.entries.any (fun p => p.2.code == f.code && p.2.src != f.src)
  let sev := if esc then min 5 (prog + 1) else prog
  let s := if esc then s.bump K.FLT_CNT_ESCALATED else s
  let s := ((s.countSeverity sev).addHistory f sev esc false).noteFirst f sev
  if sev = 0 then s
  else
    let r := s.findEntry sev
    let s := match r.1 with
      | some e =>
        let s := r.2.setEntry e (some ⟨f.code, f.src, sev, esc, 1, f.frame % 65536, f.phase, r.2.flt.nextOrder, r.2.ticks⟩)
        let s := { s with flt := { s.flt with nextOrder := s.flt.nextOrder + 1 } }
        if s.rd F.FLT_ERR_THRESH ≤ sev ∨ f.code = Code.REC_BOTH_FAIL then s.errPulse else s
      | none =>
        let s := r.2.bump K.FLT_CNT_TABLE_OVF
        if f.code = Code.REC_BOTH_FAIL then s.errPulse else s
    s.react f sev

/-- One fault reaches the collector. -/
def State.collect (s : State) (prog : Nat) (f : FaultRec) : State :=
  let s := s.bump K.FLT_CNT_RAISED
  match s.entries.find? (fun p => p.2.code == f.code && p.2.src == f.src) with
  | some (e, a) => s.mergeFault e a f prog
  | none => s.newFault f prog

/-- The oldest `n` faults raised reach the collector in one MGMT cycle: they are ordered, then taken one by one. -/
def faultRaise (n : Nat) (s : State) : State :=
  let batch := (s.flt.raised.take n).map (fun f => (s.programmed f.code f.src, f))
  let s := { s with flt := { s.flt with raised := s.flt.raised.drop n } }
  (batch.foldl (fun (l : List (Nat × FaultRec)) x => insertFault x l) []).foldl (fun (s : State) x => s.collect x.1 x.2) s

def execFaultRaise (count : Nat) (s : State) : Host.Outcome State Fault Refusal := .next (whenUp .mgmt (faultRaise count) s)

/-- PULSE_US after the last start (R376). -/
def errNPulseEnd (s : State) : State := { s with flt := { s.flt with errPulse := false } }

def execErrNPulseEnd (s : State) : Host.Outcome State Fault Refusal := .next (whenUp .mgmt errNPulseEnd s)

/-- An entry of NOTE has aged (R371). -/
def faultNoteAge (e : Nat) (s : State) : State :=
  match s.actEntry e with
  | some a =>
    let age := s.rd F.FLT_CTL_NOTE_AGE_MS
    if a.sev = 1 ∧ age ≠ 0 ∧ s.present a.code a.src = false ∧ a.since + msTicks age ≤ s.ticks then s.dropEntry e else s
  | none => s

def execFaultNoteAge (entry : Nat) (s : State) : Host.Outcome State Fault Refusal := .next (whenUp .mgmt (faultNoteAge entry) s)

/-! ### Clearing (R366, R377) -/

/-- Software clears an active entry. -/
def State.clearEntry (s : State) (e : Nat) : State :=
  match s.actEntry e with
  | some a => if s.present a.code a.src then s.bump K.FLT_CNT_CLR_REFUSED else s.dropEntry e
  | none => s

def execFltActClear (entry : Nat) (s : State) : Host.Outcome State Fault Refusal :=
  .next (whenUp .mgmt (fun s => s.clearEntry entry) s)

/-- Outputs that SAFE or FENCE held may go on. -/
def State.outputsResume (s : State) : State := let s := s.desFull
  if s.vmeSafe then s else s.ihCheck.tenureNext

/-- SAFE_EXIT. -/
def State.safeExit (s : State) : State :=
  if s.flt.safe = false then s
  else if s.entries.any (fun p => decide (5 ≤ p.2.sev)) then s.bump K.FLT_CNT_CLR_REFUSED
  else ({ s with flt := { s.flt with safe := false } }).outputsResume

def execSafeExit (s : State) : Host.Outcome State Fault Refusal := .next (whenUp .mgmt State.safeExit s)

/-- UNFENCE of the regions in `mask`: EDGE bit 0, CORE 1, HOST 2, LINK 3, as FLT_CTL has them. -/
def State.unfence (s : State) (mask : Nat) : State :=
  [0, 1, 2, 3].foldl (fun (s : State) a =>
    if mask.testBit (3 - a) then
      if s.entries.any (fun p => srcArea p.2.src == a && decide (4 ≤ p.2.sev)) then s.bump K.FLT_CNT_CLR_REFUSED
      else if a = 0 then { s with flt := { s.flt with fencedLink := false } }
      else if a = 1 then { s with flt := { s.flt with fencedHost := false } }
      else if a = 3 ∧ s.flt.fencedEdge = true then ({ s with flt := { s.flt with fencedEdge := false } }).outputsResume
      else s
    else s) s

def execUnfence (mask : Nat) (s : State) : Host.Outcome State Fault Refusal := .next (whenUp .mgmt (fun s => s.unfence mask) s)

end Sys2Proof.Machine
end

