-- ==== Sys2Proof/Machine/DrvOps.lean ====
section
/-! DEFINITION. Revocation of a drover, its reload, and injected errors in drover memory (R137 to R141, R379). -/

namespace Sys2Proof.Machine

/-! ### Revocation (R138) -/

/-- Step 2: the RS-485 turnaround is given up, the driver enable drops and a character being shifted is cut. -/
def State.turnLost (s : State) (d : Nat) : State :=
  match (s.drover d).turn with
  | none => s
  | some n =>
    let s := s.serialCut n
    s.setDrover d { s.drover d with turn := none }

/-- The agent of this node that the drover serves, in its task not yet completed. -/
def State.served (s : State) (d : Nat) : List Nat :=
  match s.execOf d with
  | some x => if x.phase ≠ .ended ∧ x.task.orig ≠ 2 ∧ x.task.orig ≠ 4 ∧ x.task.srcNode = s.nodeId then [x.task.key] else []
  | none => []

/-- Step 3: reservations the drover holds leave the table. The revocation is an exception of every agent of this node that held one or
that the drover serves (R164). -/
def State.claimsLost (s : State) (d : Nat) : State :=
  let mine := (s.ord.claims.filter (fun c => c.drover == d && c.node == s.nodeId)).map (fun c => agentKey c.node c.agent)
  let keys := (mine ++ s.served d).eraseDups
  let s := if s.ord.claims.any (fun c => c.drover == d) then s.setClaims (s.ord.claims.filter (fun c => c.drover != d)) else s
  keys.foldl State.exception s

/-- Steps 1 and 4: a cycle in progress runs to its termination first; else the bus is released and the task ends. -/
def State.cutJob (s : State) (d : Nat) : State :=
  let o := VOwner.drover d
  if s.vme.owner = some o ∧ s.vme.strobed = true ∧ (s.job d).isSome = true then
    match s.job d with
    | some j => s.setJob d (some { j with cut := true })
    | none => s
  else
    let s := s.unwait o
    let s := if s.vme.owner = some o then s.dropBus else s
    (s.revokeTask d).tenureNext

/-- A running drover is revoked (R137, R138): its fold's tasks lose their pins (R139); it reloads (R140), or is removed when
REVOKES reaches REVOKE_MAX (R141). -/
def State.revoke (s : State) (d code : Nat) : State :=
  let x := s.drover d
  if x.st ≠ .running then s
  else
    let s := s.raise code (Src.drover d) []
    let n := min 255 (x.revokes + 1)
    let s := s.setDrover d { x with
      st := .reloading, revokes := n, asleep := false, fold := x.fold.map (fun t => { t with pinwhy := 0 }) }
    let s := { s with drv := { s.drv with wakeWait := s.drv.wakeWait.filter (fun e => e.1 != d) } }
    let s := ((s.turnLost d).claimsLost d).cutJob d
    let s := { s with flt := { s.flt with badWords := s.flt.badWords.filter (fun w => !(w.1 == 3 && w.2.1 == d)) } }
    if s.rd F.DRV_CTL_REVOKE_MAX ≤ n then s.droverRemove d else s

/-! ### Waking (R421) -/

/-- The drover goes: it leaves sleep (R127), or rejoins after its reload, and tasks that waited for a drover are placed (R140). -/
def State.droverGo (s : State) (e : Nat × Bool) : State :=
  let x := s.drover e.1
  if e.2 then
    if x.st = .reloading then ((s.setDrover e.1 { x with st := .running }).placeCheck).retryWaiting else s
  else s.setDrover e.1 { x with asleep := false }

/-- Held-back drovers stand in ascending number. -/
def insertWake (e : Nat × Bool) : List (Nat × Bool) → List (Nat × Bool)
  | [] => [e]
  | x :: xs => if x.1 < e.1 then x :: insertWake e xs else if x.1 = e.1 then e :: xs else e :: x :: xs

/-- A drover is due to go: at most WAKE_N go in one CORE cycle, the others in the following ones (R421). -/
def State.droverDue (s : State) (e : Nat × Bool) : State :=
  let u := s.drv
  let n := if u.wakeCyc = s.cyc then u.woken else 0
  if u.wakeWait = [] ∧ n < s.rd F.CLK_WAKE_WAKE_N then
    ({ s with drv := { u with wakeCyc := s.cyc, woken := n + 1 } }).droverGo e
  else { s with drv := { u with wakeWait := insertWake e u.wakeWait } }

/-- `n` CORE cycles have passed: the drovers held back that go in them (R421). -/
def State.wakeHeld (n : Nat) (s : State) : State :=
  let u := s.drv
  if u.wakeWait = [] then s
  else
    let k := s.rd F.CLK_WAKE_WAKE_N
    let go := u.wakeWait.take (n * k)
    go.foldl State.droverGo
      { s with drv := { u with wakeWait := u.wakeWait.drop (n * k), wakeCyc := s.cyc, woken := go.length - (n - 1) * k } }

/-! ### Check-bit injection (R379) -/

/-- A drover fetches a word of its memory with injected check bits. -/
def State.droverWord (s : State) (d : Nat) (dbl : Bool) : State :=
  if dbl then s.revoke d Code.DRV_MEM_UE else s.sramFault 3 d false

/-- A drover fetches: words the checker has spoilt are found. Answers whether it goes on. -/
def State.droverFetch (s : State) (d : Nat) : Bool × State :=
  match s.flt.badWords.find? (fun w => w.1 == 3 && w.2.1 == d) with
  | none => (true, s)
  | some w =>
    let s := { s with flt := { s.flt with badWords := s.flt.badWords.filter (fun x => x != w) } }
    (!w.2.2, s.droverWord d w.2.2)

/-- ARM. Areas 0, 1, 2, 4 and 6 wait for their next write; in areas 3 and 5 the checker writes the injection itself, and a drover
that runs a task finds it at once. -/
def State.injArm (s : State) (area index : Nat) (dbl : Bool) : State :=
  let s := (((s.wr F.FLT_INJ_AREA area).wr F.FLT_INJ_INDEX index).wrB F.FLT_INJ_DOUBLE dbl)
  let bad := fun (s : State) (w : Nat × Nat × Bool) =>
    { s with flt := { s.flt with badWords := s.flt.badWords.filter (fun x => x != w) ++ [w] } }
  if area = 3 then
    if 64 ≤ index then s
    else if (s.drover index).st = .running ∧ (s.execOf index).isSome = true then s.droverWord index dbl
    else bad s (3, index, dbl)
  else if area = 5 then bad s (5, index, s.bit F.CHIP_COMMIT_STAT_BANK)
  else { s.wr F.FLT_INJ_PENDING 1 with flt := { (s.wr F.FLT_INJ_PENDING 1).flt with inject := some (area, index, dbl) } }

end Sys2Proof.Machine
end

