-- ==== Sys2Proof/Machine/SetupRead.lean ====
section
/-! DEFINITION. Reading the set-up space: fields shown from the units' state, read-to-clear, windows and latch groups (R3, R4, R461 to
R463). -/

namespace Sys2Proof.Machine

/-- The selector of a window (R461). -/
def Win.selector : Win → Option Fld
  | .plain => none
  | .ntSel => some F.NET_NT_SEL_NODE
  | .crSel => some F.HST_CR_SEL_RING
  | .cqSel => some F.HST_CQ_SEL_RING
  | .fldSel => some F.FLD_SEL_FOLD
  | .schSel => some F.CAD_SCH_SEL_ENTRY
  | .sevSel => some F.FLT_SEV_SEL_CODE
  | .aSel => some F.FLT_ASEL_ENTRY
  | .hSel => some F.FLT_HSEL_BLOCK
  | .measSel => some F.PWR_MEAS_SEL_DEV

/-- The register an offset shows now: its key. -/
def State.keyAt (s : State) (r : RegRow) (off : Nat) : Nat :=
  match r.win.selector with
  | none => off
  | some f => winKey off (s.rd f)

/-- Lay a value over a field of a word. -/
def lay (f : Fld) (v : Nat) (w : Word) : Word := setBits w f.hi f.lo v

/-- State of a drover as DRV_d_STAT shows it (R142). -/
def DrvState.code : DrvState → Nat
  | .stopped => 0 | .running => 1 | .reloading => 2 | .removed => 3

/-- The state a drover shows (R142): one that is disabled and has finished its task is stopped (log entry 34). -/
def State.droverState (s : State) (d : Nat) : DrvState :=
  let v := s.drover d
  if v.st = .running ∧ s.drvEn d = false ∧ v.exec = none then .stopped else v.st

/-- Bits of drovers `base` to `base + 31` in state RUNNING (R142). -/
def State.liveBits (s : State) (base : Nat) : Nat :=
  (List.range 32).foldl (fun (n : Nat) i => if s.droverState (base + i) = .running then n + 2 ^ i else n) 0

/-- A lens's shadow differs from its settings in effect (R49): any of `n` registers from `base`. While the old bank retires the
shadow is what a refusal keeps (R441). -/
def State.lensPending (s : State) (base n : Nat) : Bool :=
  if s.bit F.CHIP_COMMIT_STAT_RETIRING then s.regs.refused.any (fun e => decide (base ≤ e.1 ∧ e.1 < base + 4 * n)) else
  (List.range n).any (fun i => let k := base + 4 * i; s.shd k != (s.reg k &&& stagedMask k))

/-- Requests resolved through outbound lens `n` and not yet completed: tasks in execution and posted entries. Whether an entry of the
posted write queue, whose request has completed under R67, still counts is not stated; it does (DESIGN CHOICE, log entry 26). -/
def State.outInflight (s : State) (n : Nat) : Nat :=
  (s.drv.drv.filter (fun e => match e.2.exec with | some x => x.resolved.contains n | none => false)).length +
    (s.vme.pwq.filter (fun e => e.job.lensNo == n)).length

/-- Ring requests issued through inbound lens `n` and not yet completed. -/
def State.inInflight (s : State) (n : Nat) : Nat :=
  (s.vin.slots.filter (fun r => match r with | some x => x.lensNo == n && x.st == .issued | none => false)).length +
    (s.vin.ipwq.filter (fun e => e.lensNo == n && e.issued && e.result.isNone)).length

/-- Bits of the levels satisfying `p`, level n at bit n − 1. -/
def levelBits (p : Nat → Bool) : Nat := (List.range 7).foldl (fun (n : Nat) i => if p (i + 1) then n + 2 ^ i else n) 0

/-- The peer has been heard on a path within LEASE_MS (R347). -/
def State.heardWithin (s : State) (t : Option Nat) : Bool :=
  match t with
  | some t => decide (s.ticks ≤ t + msTicks (s.rd F.TWN_LEASE_LEASE_MS))
  | none => false

/-- VME_MSTAT (R84). -/
def State.mstat (s : State) : Word :=
  let w := lay F.VME_MSTAT_TENURE (b2n s.vme.bbsy) 0
  match s.vme.owner with
  | some .pwq => lay F.VME_MSTAT_PWQ_OWNER 1 w
  | some .ih => lay F.VME_MSTAT_IH_OWNER 1 w
  | some (.drover d) => lay F.VME_MSTAT_DROVER d w
  | none => w

/-- VME_ISTAT (R116). -/
def State.istat (s : State) : Word :=
  let w := lay F.VME_ISTAT_RSLOTS (s.vin.slots.filter Option.isSome).length 0
  match s.vin.cyc with
  | some c => if c.held then lay F.VME_ISTAT_LENS c.lensNo (lay F.VME_ISTAT_HOLDING 1 w) else w
  | none => w

/-- VME_IH_STAT (R116). -/
def State.ihStat (s : State) : Word :=
  let en := s.rd F.VME_IH_CTL_LEVEL_EN
  lay F.VME_IH_STAT_PENDING
    (levelBits (fun n => (s.ihAt n).asserted && !(s.ihAt n).inService && en.testBit (n - 1)))
    (lay F.VME_IH_STAT_INSERVICE (levelBits (fun n => (s.ihAt n).inService)) 0)

/-- FLT_CHIP_STAT (R381). -/
def State.chipStat (s : State) (w : Word) : Word :=
  let fenced := 8 * b2n s.flt.fencedLink + 4 * b2n s.flt.fencedHost + b2n s.flt.fencedEdge
  let w := lay F.FLT_CHIP_STAT_FENCED fenced (lay F.FLT_CHIP_STAT_SAFE (b2n s.flt.safe) w)
  let w := lay F.FLT_CHIP_STAT_DEGRADED (b2n (s.entries.any (fun p => p.2.sev == 3))) w
  lay F.FLT_CHIP_STAT_ENTRIES s.entries.length
    (lay F.FLT_CHIP_STAT_ERR_LOW (b2n (s.flt.errPulse || s.bit F.FLT_ERR_LEVEL)) w)

/-- FLT_ACT_W0 to W3 of an entry (R381). -/
def State.actWord (s : State) (e i : Nat) : Word :=
  match s.actEntry e with
  | none => 0
  | some a =>
    if i = 0 then
      let w := lay (F.FLT_ACT_W0_PRESENT e) (b2n (s.present a.code a.src)) (lay (F.FLT_ACT_W0_VALID e) 1 0)
      lay (F.FLT_ACT_W0_SOURCE e) a.src (lay (F.FLT_ACT_W0_SEV e) a.sev (lay (F.FLT_ACT_W0_ESC e) (b2n a.esc) w))
    else if i = 1 then lay (F.FLT_ACT_W1_CODE e) a.code (lay (F.FLT_ACT_W1_COUNT e) a.count 0)
    else if i = 2 then a.phase
    else lay (F.FLT_ACT_W3_FRAMELO e) a.frame 0

/-- FLT_HIST_e_W0 to W3 of block `b` (R373). -/
def State.histWord (s : State) (b e i : Nat) : Word :=
  match (tget noHist s.flt.history b).drop e with
  | [] => 0
  | h :: _ =>
    if i = 0 then
      let w := lay (F.FLT_HIST_W0_CELL b e) h.cell (lay (F.FLT_HIST_W0_CODE b e) h.code 0)
      lay (F.FLT_HIST_W0_MERGE b e) (b2n h.merge) (lay (F.FLT_HIST_W0_ESC b e) (b2n h.esc) (lay (F.FLT_HIST_W0_SEV b e) h.sev w))
    else if i = 1 then BitVec.ofNat 32 h.cyc
    else if i = 2 then lay (F.FLT_HIST_W2_FRAMELO b e) h.frame (lay (F.FLT_HIST_W2_CYC_HI b e) (h.cyc / 2 ^ 32) 0)
    else h.phase

/-- Valid bits of entries 32i to 32i + 31. -/
def State.actMap (s : State) (i : Nat) : Word :=
  BitVec.ofNat 32 ((List.range 32).foldl (fun (n : Nat) j => if (s.actEntry (32 * i + j)).isSome then n + 2 ^ j else n) 0)

/-- The fault collector's registers that show its state. -/
def State.fltView (s : State) (off e : Nat) (w : Word) : Word :=
  if off = 0x8008 then s.chipStat w
  else if off = 0x8010 then BitVec.ofNat 32 s.cyc
  else if off = 0x8014 then BitVec.ofNat 32 (s.cyc / 2 ^ 32)
  else if 0x8064 ≤ off ∧ off ≤ 0x8070 then s.actWord e ((off - 0x8064) / 4)
  else if 0x80A0 ≤ off ∧ off < 0x80C0 then s.actMap ((off - 0x80A0) / 4)
  else if 0x8100 ≤ off ∧ off < 0x8180 then s.histWord e ((off - 0x8100) / 16) (off % 16 / 4)
  else w

/-- The fold manager's registers that show its state (R197). -/
def State.fldView (s : State) (off e : Nat) (w : Word) : Word :=
  if off = 0x3800 then lay F.FLD_POOL_FREE s.fold.free w
  else if off = 0x380C then lay F.FLD_SWEEP_PENDING s.fold.sweepFolds.length (lay F.FLD_SWEEP_BUSY (b2n s.fold.sweepBusy) w)
  else if off = 0x3834 then lay (F.FLD_F_LEVEL_WORDS e) (s.foldWords e) w
  else if off = 0x3838 then lay (F.FLD_F_PKT_PACKETS e) (s.foldPackets e) w
  else if off = 0x383C then lay (F.FLD_F_CELLS_HELD e) (s.foldOf e).held w
  else if off = 0x3840 then lay (F.FLD_F_STAT_OPEN e) (b2n ((s.foldOf e).chains.any (fun c => c.words != []))) w
  else w

/-- Registers of the drovers, the lens tables and the VME interface that show state. -/
def State.edgeView (s : State) (off : Nat) (w : Word) : Word :=
  if off = 0x3028 then BitVec.ofNat 32 (s.liveBits 0)
  else if off = 0x302C then BitVec.ofNat 32 (s.liveBits 32)
  else if 0x3100 ≤ off ∧ off < 0x3500 then
    let d := (off - 0x3100) / 16
    if off % 16 = 0 then
      lay (F.DRV_D_STAT_STATE d) (s.droverState d).code (lay (F.DRV_D_STAT_REVOKES d) (min 255 (s.drover d).revokes)
        (lay (F.DRV_D_STAT_DEPTH d) (min 65535 (s.drover d).fold.length) w))
    else w
  else if 0x4000 ≤ off ∧ off < 0x5000 then
    let n := (off - 0x4000) / 64
    if off % 64 = 0x24 then
      lay (F.LNSO_STAT_PENDING n) (b2n (s.lensPending (0x4000 + 64 * n) 9)) (lay (F.LNSO_STAT_INFLIGHT n) (min 4095 (s.outInflight n)) w)
    else w
  else if 0x5000 ≤ off ∧ off < 0x5800 then
    let n := (off - 0x5000) / 64
    if off % 64 = 0x1C then
      lay (F.LNSI_STAT_PENDING n) (b2n (s.lensPending (0x5000 + 64 * n) 7)) (lay (F.LNSI_STAT_INFLIGHT n) (min 4095 (s.inInflight n)) w)
    else w
  else if off = 0x5814 then s.mstat
  else if off = 0x5848 then s.istat
  else if off = 0x585C then s.ihStat
  else if 0x6800 ≤ off ∧ off < 0x6C00 then
    let n := (off - 0x6800) / 64
    -- the measured loop delay is a quantity of the bus; the reset value stands while TDC_EN is 0
    if off % 64 = 0x0C ∧ s.bit (F.CF_CTL_TDC_EN n) = true then
      lay (F.CF_TDC_TDCV n) (Config.freeValue 7 s.freeCtr).toNat w
    else w
  else if 0x6C00 ≤ off ∧ off < 0x7000 then
    let n := (off - 0x6C00) / 128
    if off % 128 = 0x0C then
      lay (F.DC_STAT_SAFE n) (b2n (s.chainSafe n)) (lay (F.DC_STAT_RUN n) (b2n ((s.dc n).inFrame || (s.dcRuns n && !s.dcHeld n))) w)
    else w
  else w

/-- Registers of the cadence and twin units, the recorder and the power path that show state. -/
def State.unitView (s : State) (off e : Nat) (w : Word) : Word :=
  if off = 0x7024 then BitVec.ofNat 32 s.phase
  else if off = 0x7028 then BitVec.ofNat 32 s.frame
  else if off = 0x702C then lay F.CAD_NOW_FR_HI_FRAME_HI (s.frame / 2 ^ 32) w
  else if off = 0x7030 then BitVec.ofNat 32 s.cad.p
  else if off = 0x7034 then BitVec.ofNat 32 (s.cad.p / 2 ^ 32)
  else if off = 0x7060 then
    lay (F.CAD_SCH_STAT_ARMED e) (b2n (s.schEntry e).armed) (lay (F.CAD_SCH_STAT_COPIED e) (b2n ((s.schEntry e).shadow.isSome && !(s.schEntry e).copying)) w)
  else if off = 0x7808 then
    lay F.TWN_STAT_PEER_LANE (b2n (s.heardWithin s.twin.heardLane)) (lay F.TWN_STAT_PEER_RING (b2n (s.heardWithin s.twin.heardRing)) w)
  else if off = 0x900C then BitVec.ofNat 32 s.recd.next
  else if off = 0x9010 then BitVec.ofNat 32 s.recd.seconds
  else if off = 0x9014 then lay F.REC_SEC_HI_PCYC s.recd.pcyc (lay F.REC_SEC_HI_SEC_HI (s.recd.seconds / 2 ^ 32) w)
  else if off = 0x9018 then lay F.REC_CLEARS_CLEARS s.recd.clears w
  else if off = 0x901C then BitVec.ofNat 32 s.recd.nonce
  else if off = 0x9020 then BitVec.ofNat 32 (s.recd.nonce / 2 ^ 32)
  else if 0x9900 ≤ off ∧ off < 0x9A00 ∧ off % 32 = 16 then
    let n := (off - 0x9900) / 32
    match (s.pslot n).retryEnd with
    | some t => lay (F.PWR_SLOT_STAT_RETRY_LEFT n) ((t - s.ticks + 999999) / 1000000) w
    | none => w
  else w

/-- What a register shows, before latching and masking. -/
def State.view (s : State) (k : Nat) : Word :=
  let off := keyOff k
  let e := k / 0x10000 - 1
  let w := s.reg k
  if off = 0x318 then lay F.CHIP_LC_STAT_VALID s.lcCount w
  else if off = 0x41C then lay F.CHIP_COMMIT_STAT_PENDING (b2n s.commitPending) w
  else if off = 0x1810 then lay F.NET_DUP_FILTER s.net.dupFilter.length w
  else if off = 0x1830 then BitVec.ofNat 32 s.net.epoch
  else if off = 0x1834 then BitVec.ofNat 32 (s.net.epoch / 2 ^ 32)
  else if off = 0x1848 then
    let n := s.node e
    lay (F.NET_NT_PRESENT e) (b2n n.present) (lay (F.NET_NT_MCAP e) (b2n n.mcap) (lay (F.NET_NT_HOPS_A e) n.hops w))
  else if off = 0x2808 then
    -- the components' temperature is outside the model (log entry 58)
    lay F.DDR_STAT_REFRESH_2X (if s.bit F.DDR_STAT_READY then (Config.freeValue 1 s.freeCtr).toNat else 0) w
  else if off < 0x3000 then w
  else if off < 0x3800 then s.edgeView off w
  else if off < 0x4000 then s.fldView off e w
  else if off < 0x7000 then s.edgeView off w
  else if off < 0x8000 then s.unitView off e w
  else if off < 0x9000 then s.fltView off e w
  else s.unitView off e w

/-- The latch groups (R463): the partners a read of the register latches. -/
def latchPartners (off : Nat) : List Nat :=
  if off = 0x1830 ∨ off = 0x7030 ∨ off = 0x8010 ∨ off = 0x9010 ∨ off = 0x901C ∨ off = 0x420 ∨ off = 0x428 then [off + 4]
  else if off = 0x7024 then [0x7028, 0x702C]
  else if 0x9880 ≤ off ∧ off < 0x98D0 ∧ off % 8 = 0 then [off + 4]
  else []

/-- The register is read through its group's latch. -/
def isPartner (off : Nat) : Bool :=
  (latchPartners (off - 4)).contains off || off == 0x702C

/-- Bits of a row with an access type. -/
def RegRow.accMask (r : RegRow) (a : Acc) : Word :=
  r.fields.foldl (fun m f => if f.acc = a then setBits m f.hi f.lo (2 ^ (f.hi - f.lo + 1) - 1) else m) 0

/-- A read of a highest count since the last read: it starts again from the count now (R190, R197). -/
def State.peakAgain (s : State) (off k : Nat) : State :=
  if off = K.FLD_POOL_PEAK then s.wr F.FLD_POOL_PEAK_PEAK (110592 - s.fold.free)
  else if off = 0x3844 then s.wr (F.FLD_F_PEAK_PEAK (k / 0x10000 - 1)) (s.foldWords (k / 0x10000 - 1))
  else if off = K.VME_PWQ then s.wr F.VME_PWQ_PEAK (s.rd F.VME_PWQ_DEPTH)
  else if off = K.VME_IPWQ then s.wr F.VME_IPWQ_PEAK (s.rd F.VME_IPWQ_DEPTH)
  else if off = K.CHIP_WC_STAT then s.wr F.CHIP_WC_STAT_PEAK (s.rd F.CHIP_WC_STAT_DEPTH)
  else if off = K.CHIP_CLM_STAT then s.wr F.CHIP_CLM_STAT_PEAK (s.rd F.CHIP_CLM_STAT_INUSE)
  else if off = K.DRV_STILE_STAT then s.wr F.DRV_STILE_STAT_PEAK (s.rd F.DRV_STILE_STAT_INUSE)
  else if off = K.TWN_MQ then s.wr F.TWN_MQ_PEAK (s.rd F.TWN_MQ_DEPTH)
  else s

/-- A read of one register (R4, R7, R463). -/
def State.readReg (s : State) (off : Nat) : Word × State :=
  match regAt off with
  | none => (0, s)
  | some r =>
    let k := s.keyAt r off
    let w := if isPartner off then tget zeroWord s.regs.latch off else s.view k
    let s := (latchPartners off).foldl (fun (s : State) p =>
      { s with regs := { s.regs with latch := tput zeroWord s.regs.latch p (s.view p) } }) s
    let rc := r.accMask .rc
    let s := if rc = 0 then s else (s.setReg k (s.reg k &&& ~~~rc)).peakAgain off k
    -- the free value of CF_n_TDC or of REFRESH_2X has been taken
    let s := if (0x6800 ≤ off ∧ off < 0x6C00 ∧ off % 64 = 0x0C) ∨ off = 0x2808 then { s with freeCtr := s.freeCtr + 1 } else s
    (w &&& ~~~(r.accMask .wo), s)

/-- A read of 4 or 8 bytes (R3). The window of each register is the one its selector names at the start of the access (R461). -/
def State.setupRead (s : State) (off len : Nat) : List Byte × State :=
  let a := s.readReg off
  if len = 8 then
    let b := a.2.readReg (off + 4)
    (leBytes 4 a.1.toNat ++ leBytes 4 b.1.toNat, b.2)
  else (leBytes 4 a.1.toNat, a.2)

end Sys2Proof.Machine
end

