-- ==== Sys2Proof/Machine/Setup.lean ====
section
/-! DEFINITION. Writing the set-up space (R3 to R9, R436 to R441, R460 to R463, and what the writes of single registers bring about). -/

namespace Sys2Proof.Machine

/-! ### Halt groups (R436, R437) -/

/-- The halt group of a STATIC field, from its block. -/
def haltGroup (off : Nat) : Nat :=
  if 0x300 ≤ off ∧ off < 0x400 then 1
  else if off < 0x1000 then 6
  else if off < 0x2000 then 2
  else if off < 0x7000 then 0
  else if off < 0x7800 then 5
  else if off < 0x8000 then 3
  else if off < 0xC000 then 4
  else 6

/-- Its HALTED bit. -/
def State.halted (s : State) (g : Nat) : Bool := (s.rd F.CHIP_HALTED_HALTED).testBit g

/-! ### Values a rule refuses beside the field's own range (R9) -/

/-- A field of a word. -/
def Fld.of (f : Fld) (w : Word) : Nat := bitsOf w f.hi f.lo

/-- The outbound and the inbound timeout rules (R83, R95): BTO_US against DATA_TO_US and every enabled inbound lens. -/
def State.btoBad (s : State) (bto : Nat) : Bool :=
  decide (s.rd F.VME_TIMEOUT_DATA_TO_US ≤ bto) ||
    (List.range 32).any (fun n => s.bit (F.LNSI_CTL_EN n) && decide (holdMax bto < s.rd (F.LNSI_ATTR_HOLD_US n)))

/-- Some drover is enabled and not reserved, under 64-bit masks (R124). -/
def someOrdinary (en rsv : Nat) : Bool := (List.range 64).any (fun i => en.testBit i && !rsv.testBit i)

/-- Enables and reservations as 64-bit masks. -/
def State.en64 (s : State) : Nat := s.rd F.DRV_EN_LO_EN + s.rd F.DRV_EN_HI_EN * 2 ^ 32
def State.rsv64 (s : State) : Nat := s.rd F.DRV_RSV_LO_RSV + s.rd F.DRV_RSV_HI_RSV * 2 ^ 32
def State.rsvShadow (s : State) : Nat := s.shdF F.DRV_RSV_LO_RSV + s.shdF F.DRV_RSV_HI_RSV * 2 ^ 32

/-- One half of a 64-bit mask replaced. -/
def halfPut (m : Nat) (hi : Bool) (v : Nat) : Nat := if hi then m % 2 ^ 32 + v * 2 ^ 32 else v + m / 2 ^ 32 * 2 ^ 32

/-- A node of an analogue test bus (R451). -/
def atbNode (n : Nat) : Bool :=
  n == 0 || n == 1 || decide (8 ≤ n ∧ n ≤ 12) || decide (0x10 ≤ n ∧ n ≤ 0x14) || decide (0x18 ≤ n ∧ n ≤ 0x1C) || n == 0x30 || n == 0x38

/-- Pages of the enabled mirror ranges in the shadow, with one register of range `r` replaced (R359). -/
def State.rngPages (s : State) (r : Nat) (base size : Word) : Nat :=
  (List.range 8).foldl (fun (n : Nat) i =>
    let b := if i = r then base else s.shd (K.TWN_RNG_BASE i)
    let z := if i = r then size else s.shd (K.TWN_RNG_SIZE i)
    if bitOf b 31 then n + (F.TWN_RNG_SIZE_PAGES i).of z else n) 0

/-- Bits of the fields a rule refuses in registers below 0x5000, given the candidate effective word `e` and shadow word `sh`. -/
def State.crossLow (s : State) (off : Nat) (e sh : Word) : Word :=
  if off = 0x300 then (if bitsOf e 31 24 = bitsOf e 23 16 then 0xFFFF0000#32 else 0)
  else if off = 0x2004 then (if F.HST_POLL_MAX_US.of e * 100 < F.HST_POLL_MIN_10NS.of e then 0xFFF003FF#32 else 0)
  else if off = 0x300C then
    ([24, 16, 8, 0] : List Nat).foldl (fun m lo => if bitsOf sh (lo + 7) lo = 0 then setBits m (lo + 7) lo 255 else m) 0
  else if off = 0x3010 ∨ off = 0x3014 then
    (if someOrdinary s.en64 (halfPut s.rsvShadow (decide (off = 0x3014)) sh.toNat) then 0 else 0xFFFFFFFF#32)
  else if off = 0x3018 ∨ off = 0x301C then
    let en := halfPut s.en64 (decide (off = 0x301C)) e.toNat
    (if someOrdinary en s.rsv64 && someOrdinary en s.rsvShadow then 0 else 0xFFFFFFFF#32)
  else if off = 0x382C then (if bitsOf sh 31 16 ≠ 0 ∧ bitsOf sh 31 16 ≤ bitsOf sh 15 0 then 0xFFFFFFFF#32 else 0)
  else 0

/-- The same for the VME interface, the chains and the cadence unit; `ent` is the entry that a window register stands for (R461). A
write of DC_n_CTL.DIV that would leave PERIOD below its limit is refused like the PERIOD itself (DESIGN CHOICE, log entry 22). -/
def State.crossMid (s : State) (off ent : Nat) (e sh : Word) : Word :=
  if off = 0x5804 then (if F.VME_TIMEOUT_DATA_TO_US.of e ≤ s.rd F.VME_BUS_TIMER_BTO_US then 0x0000FFFF#32 else 0)
  else if off = 0x5808 then (if s.btoBad (F.VME_BUS_TIMER_BTO_US.of e) then 0x0000FFFF#32 else 0)
  else if off = 0x5850 then (if bitOf (e &&& 0xFE#32) (s.rd F.VME_INTR_LEVEL) then 0xFE#32 else 0)
  else if off = 0x5860 then
    let l := F.VME_INTR_LEVEL.of e
    (if l ≠ 0 ∧ (s.rd F.VME_IH_CTL_LEVEL_EN).testBit (l - 1) = true then 0x70000000#32 else 0)
  else if 0x6C00 ≤ off ∧ off < 0x7000 then
    let n := (off - 0x6C00) / 128
    if off % 128 = 0 then
      (if s.shdF (F.DC_PERIOD_PERIOD_10NS n) < 130 * (F.DC_CTL_DIV n).of sh then 0x7F#32 else 0)
    else if off % 128 = 4 then
      let p := (F.DC_PERIOD_PERIOD_10NS n).of sh
      (if p < 1000 ∨ p < 130 * s.shdF (F.DC_CTL_DIV n) then 0xFFFFF#32 else 0)
    else 0
  else if off = 0x7000 then
    let a := F.CAD_CTL_AGENT.of e
    (if a = s.rd F.CHIP_ORD_CTL_BAR2_AGENT ∨ a = s.rd F.CHIP_ORD_CTL_VME_AGENT then 0xFF00#32 else 0)
  else if off = 0x7058 then
    (if bitsOf sh 15 0 > s.shdF (F.CAD_SCH_CTL_FDIV_M1 ent) then 0xFFFF#32 else 0)
  else 0

/-- The same for the twin unit and above. -/
def State.crossHigh (s : State) (off ent : Nat) (e sh : Word) : Word :=
  if off = 0x7800 then
    let p := F.TWN_CTL_PEER.of e
    (if bitOf e 31 && !s.twinOn && (p == 0x7FF || p == s.nodeId) then 0x80000000#32 else 0)
  else if off = 0x7804 then
    let l := F.TWN_LEASE_LEASE_MS.of e
    let g := F.TWN_LEASE_GUARD_MS.of e
    (if 2 * g < l ∧ 4 * F.TWN_LEASE_BEACON_MS.of e ≤ l - g then 0 else 0xFFFFFFFF#32)
  else if 0x7830 ≤ off ∧ off < 0x7870 then
    let r := (off - 0x7830) / 8
    let base := if off % 8 = 0 then sh else s.shd (K.TWN_RNG_BASE r)
    let size := if off % 8 = 0 then s.shd (K.TWN_RNG_SIZE r) else sh
    (if 16384 < s.rngPages r base size then 0xFFFFFFFF#32 else 0)
  else if off = 0x8044 then (if (defaultSev ent).isNone then 0xFFFFFFFF#32 else 0)
  else if 0x8200 ≤ off ∧ off < 0x8300 ∧ off % 8 = 0 then
    (if bitOf e 31 ∧ (defaultSev (bitsOf e 15 0)).isNone = true then 0xFFFFFFFF#32 else 0)
  else if off = 0x9804 then (if F.PWR_FEED_OK_MV.of sh ≤ F.PWR_FEED_LOW_MV.of sh then 0xFFFFFFFF#32 else 0)
  else if off = 0x9808 then (if bitsOf e 31 30 = 0 then 0xC0000000#32 else 0)
  else if 0x9820 ≤ off ∧ off < 0x9848 then
    let a := bitsOf e 6 0
    (if bitOf e 31 ∧ (a < 0x08 ∨ 0x77 < a) then 0x8000007F#32 else 0)
  else if off = 0xC000 ∨ off = 0xC004 then
    let n := bitsOf e 5 0
    let other := if off = 0xC000 then s.rd F.TST_ATB1_NODE else s.rd F.TST_ATB0_NODE
    (if atbNode n && (n == 0 || n != other) then 0 else 0x3F#32)
  else if off = 0xC800 then
    let a := F.SVC_CTL_AGENT.of e
    (if a = s.rd F.CHIP_ORD_CTL_BAR2_AGENT ∨ a = s.rd F.CHIP_ORD_CTL_VME_AGENT ∨ a = s.rd F.CAD_CTL_AGENT then 0xFF00#32 else 0)
  else 0

/-- Bits of the fields of the register whose key is `k` that keep their value because the whole of what is written breaks a rule
(R9). -/
def State.crossBad (s : State) (off k : Nat) (e sh : Word) : Word :=
  if off < 0x5000 then s.crossLow off e sh
  else if off < 0x7800 then s.crossMid off (k / 0x10000 - 1) e sh
  else s.crossHigh off (k / 0x10000 - 1) e sh

/-! ### What a write leaves in a register -/

/-- The candidate effective and shadow words, and whether a field was out of range or ignored under R8. -/
structure Landing where
  eff : Word
  shd : Word
  range : Bool
  late : Bool

/-- One field of the write. `halted` is the HALTED bit of the register's group at the start of the cycle (R437). A value that R9
refuses is reported as out of range alone, also where R8 would have ignored it (DESIGN CHOICE, log entry 21). -/
def Landing.field (halted staged : Bool) (v : Word) (l : Landing) (f : FieldRow) : Landing :=
  let new := bitsOf v f.hi f.lo
  let put := fun (w : Word) => setBits w f.hi f.lo new
  let ok := decide (f.min ≤ new ∧ new ≤ f.max)
  match f.acc, f.cls with
  | .rw, .staged =>
    if !staged || new == bitsOf l.shd f.hi f.lo then l
    else if ok then { l with shd := put l.shd } else { l with range := true }
  | .rw, .static =>
    if new = bitsOf l.eff f.hi f.lo then l
    else if !ok then { l with range := true }
    else if halted then { l with eff := put l.eff } else { l with late := true }
  | .rw, _ =>
    if new = bitsOf l.eff f.hi f.lo then l
    else if ok then { l with eff := put l.eff } else { l with range := true }
  | .w1c, _ => { l with eff := l.eff &&& ~~~(setBits 0 f.hi f.lo new) }
  | _, _ => l

/-- What the fields `fs` of a register take, the rules over several of them aside. -/
def State.fieldsTake (s : State) (fs : List FieldRow) (k : Nat) (v : Word) (halted staged : Bool) : Landing :=
  fs.foldl (Landing.field halted staged v) ⟨s.reg k, s.shd k, false, false⟩

/-- All fields, then the rules over several of them: what they refuse keeps its value. `staged` says that STAGED fields land now.
The rules look at `ctx` for other registers: it holds what the other register of an 8-byte access is to take (R460). A write that
is late and breaks such a rule is reported late alone (DESIGN CHOICE, log entry 21). -/
def State.landWith (s ctx : State) (fs : List FieldRow) (off k : Nat) (v : Word) (halted staged : Bool) : Landing :=
  let l := s.fieldsTake fs k v halted staged
  let bad := ctx.crossBad off k l.eff l.shd
  let e' := (l.eff &&& ~~~bad) ||| (s.reg k &&& bad)
  let sh' := (l.shd &&& ~~~bad) ||| (s.shd k &&& bad)
  ⟨e', sh', l.range || e' != l.eff || sh' != l.shd, l.late⟩

/-- What a write of one register on its own leaves in it. -/
def State.landing (s : State) (r : RegRow) (off k : Nat) (v : Word) (staged : Bool) : Landing :=
  s.landWith s r.fields off k v (s.halted (haltGroup off)) staged

/-- The state in which the rules judge one register of an 8-byte access: the other register, `k`, holds what it is to take (R460). -/
def State.beside (s : State) (k : Nat) (v : Word) (staged : Bool) : State :=
  match regAt (keyOff k) with
  | none => s
  | some r =>
    let l := s.fieldsTake r.fields k v (s.halted (haltGroup (keyOff k))) staged
    (s.setReg k l.eff).setShd k l.shd

/-! ### Halting (R436) -/

/-- A group is released: its work goes on. -/
def State.release (s : State) (g : Nat) : State :=
  let s := s.wr F.CHIP_HALTED_HALTED (s.rd F.CHIP_HALTED_HALTED - if s.halted g then 2 ^ g else 0)
  if g = 0 then s.outputsResume
  else if g = 2 then s.pumpTags s.net.tagWait.length
  else if g = 5 then s.judgeAll
  else if g = 6 then { s with boot := { s.boot with wdogAt := s.ticks - s.boot.wdogAt } }
  else s

/-- Bits of CHIP_HALT are written; the TWN group is not halted while the crook may be held (R436). -/
def State.haltWrite (s : State) (v : Nat) : State :=
  let old := s.rd F.CHIP_HALT_HALT
  let s := s.wr F.CHIP_HALT_HALT v
  (List.range 7).foldl (fun (s : State) g =>
    if old.testBit g && !v.testBit g then s.release g
    else if !old.testBit g && v.testBit g && g == 6 then
      -- the watchdog keeps what it has counted
      { s with boot := { s.boot with wdogAt := s.ticks - s.boot.wdogAt } }
    else s) s

/-- The write of 1 to bit 3 is ignored while STATE is CLAIMING, ACTIVE or YIELDING. -/
def State.haltRefused (s : State) (v : Nat) : Bool :=
  v.testBit 3 && !(s.rd F.CHIP_HALT_HALT).testBit 3 && decide (2 ≤ s.twnState ∧ s.twnState ≤ 4)

/-! ### What the write of a register brings about -/

/-- A drover's enable rises: a removed drover reloads (R141); work that waited for a drover is placed (R124). After the first half of an
8-byte access (`half`) the placement sets are not looked at yet: both registers are written in one cycle (R460). -/
def State.drvEnWrite (s : State) (base old new : Nat) (half : Bool) : State :=
  let s := (List.range 32).foldl (fun (s : State) i =>
    if new.testBit i && !old.testBit i && (s.drover (base + i)).st == .removed then
      s.setDrover (base + i) { s.drover (base + i) with st := .reloading }
    else s) s
  if half then s else s.placeCheck.retryWaiting

/-- HST_WAKE (R205, R470). -/
def State.hstWake (s : State) : State :=
  if s.bit F.HST_CTL_FETCH_EN then s.wr F.HST_STAT_INTERVAL (s.rd F.HST_POLL_MIN_10NS) else s

/-- JOIN_EN goes to 0: the node is no longer in the loop (DESIGN CHOICE, log entry 15: DISABLED). -/
def State.joinOff (s : State) : State :=
  let s := s.wr F.NET_ID_STATE (if s.nodeId = 0x7FF then 4 else 0)
  let s := if s.rd F.NET_STAT_ROLE = 3 then s else (s.wr F.NET_STAT_ROLE 3).wr F.NET_STAT_BWID 0x7FF
  ({ s with net := { s.net with joinOut := false, electOut := false, electWait := false } }).stageStep

/-- Registers below 0x3000, whose words are `old` and `new` (already in effect) when `v` has been written. -/
def State.afterLow (s : State) (off : Nat) (old new v : Word) : State :=
  let fell := fun i => bitOf old i && !bitOf new i
  let rose := fun i => !bitOf old i && bitOf new i
  if off = 0x304 then (if fell 31 then s.wcOff else s)
  else if off = 0x314 then
    let s := if bitOf v 30 then s.lcDropAll else s
    if fell 31 then s.lcOff else s
  else if off = 0x410 then (s.setReg off old).haltWrite (bitsOf new 6 0)
  else if off = 0x1000 then linkEnable new (s.setReg off old)
  else if off = 0x100C then
    (if bitOf v 31 then s.lnkInj else s)
  else if off = 0x1800 then (if fell 31 then s.joinOff else s.stageStep)
  else if off = 0x182C then { s with net := { s.net with setReq := s.net.setReq || decide (s.rd F.NET_STAT_ROLE = 2) } }
  else if off = 0x2000 then (if rose 31 then s.wr F.HST_STAT_INTERVAL (s.rd F.HST_POLL_MIN_10NS) else s)
  else if off = 0x2008 then s.hstWake
  else if off = 0x281C then (if bitOf v 31 then s.ddrInj (new ||| 0x80000000#32) else s)
  else s

/-- Registers of the drovers and the folds; `k` is the register's key, `half` says that the other half of the access is still to come. -/
def State.afterCore (s : State) (off k : Nat) (old new v : Word) (half : Bool) : State :=
  if off = 0x3018 then s.drvEnWrite 0 old.toNat new.toNat half
  else if off = 0x301C then s.drvEnWrite 32 old.toNat new.toNat half
  else if off = 0x3818 then (if bitOf v 31 then s.fldInj (new ||| 0x80000000#32) else s)
  else if off = 0x3820 then
    let f := k / 0x10000 - 1
    let s := if bitOf v 30 then s.flushFold f else s
    if bitOf v 29 then s.floorRst f else s
  else s

/-- Registers of the VME interface and the field ports. -/
def State.afterEdge (s : State) (off : Nat) (old new v : Word) : State :=
  let fell := fun i => bitOf old i && !bitOf new i
  if off = 0x5800 then
    let s := if !bitOf old 31 && bitOf new 31 then { s with vin := { s.vin with masterOffRaised := false } } else s
    -- RELEASE is LIVE: an idle bus is kept or released by it (R73)
    (if s.vme.bbsy && s.vme.owner.isNone then s.idleBus else s).ihCheck
  else if off = 0x580C then (if bitOf v 24 then s.sysrstPulse else s)
  else if off = 0x5850 then s.ihCheck
  else if off = 0x5860 then
    let s := if old != new then s.mirrorReg 3 off new else s
    if bitsOf old 30 28 ≠ 0 ∧ bitsOf new 30 28 = 0 then s.intrDrop else s
  else if off = 0x5864 then (if old != new then s.mirrorReg 3 off new else s)
  else if 0x6000 ≤ off ∧ off < 0x6800 then
    (if off % 32 ≠ 0 then s else if fell 31 then s.serialStop ((off - 0x6000) / 32) else s.deFull ((off - 0x6000) / 32))
  else if 0x6800 ≤ off ∧ off < 0x6C00 then
    let n := (off - 0x6800) / 64
    if off % 64 = 0 then
      let s := if bitOf v 17 then canRecover n s else s
      if fell 31 then s.canStop n else s
    else s
  else if 0x6C00 ≤ off ∧ off < 0x7000 then
    (if off % 128 = 0 ∧ fell 31 = true then s.dcStop ((off - 0x6C00) / 128) else s)
  else s

/-- Registers of the twin unit, the fault collector and above. -/
def State.afterHigh (s : State) (off : Nat) (old new v : Word) : State :=
  let rose := fun i => !bitOf old i && bitOf new i
  if off = 0x7800 then
    let s := if bitOf old 31 != bitOf new 31 then s.twnEnable (bitOf new 31) else s
    let s := if bitOf v 24 then s.twnYield else s
    let s := if bitOf v 23 then s.twnResume else s
    if bitOf v 22 then s.twnRearm else s
  else if off = 0x8000 then
    let s := if bitOf v 30 then s.safeExit else s
    if bitsOf v 27 24 = 0 then s else s.unfence (bitsOf v 27 24)
  else if off = 0x8050 then (if bitOf v 31 then s.injArm (bitsOf new 26 24) (bitsOf new 16 0) (bitOf new 30) else s)
  else if off = 0x9000 then (if bitOf v 31 then s.recRetest else s)
  else if off = 0x9024 then (if bitOf v 31 then s.recInj (new ||| 0x80000000#32) else s)
  else if off = 0x9800 then (if rose 31 then s.pwrEnable.feedsJudge else s.feedsJudge)
  else if off = 0x9808 then s.feedsJudge
  else if 0x9900 ≤ off ∧ off < 0x9A00 then (if off % 32 = 0 then s.slotCtl ((off - 0x9900) / 32) new else s)
  else if off = 0xC008 then (if bitOf v 31 then s.wr F.TST_ADC_BUSY 1 else s)
  else if off = 0xC800 then (if bitOf v 31 then s.wr F.SVC_STAT_LOCKED 1 else s)
  else s

/-- W1C registers whose bits clear under conditions of their own (R6, R377): these replace the plain clear. -/
def State.clearWrite (s : State) (off k : Nat) (v : Word) : Option State :=
  if 0x8020 ≤ off ∧ off ≤ 0x8030 then some (s.regionClear ((off - 0x8020) / 4) v.toNat)
  else if off = 0x8064 then some (if bitOf v 31 then s.clearEntry (k / 0x10000 - 1) else s)
  else if 0x8400 ≤ off ∧ off < 0x84C0 ∧ off % 32 = 0 then
    some (if bitOf v 31 then (List.range 8).foldl (fun (s : State) i => s.setReg (off + 4 * i) 0) s else s)
  else none

/-- A write of a schedule field copies the entry's descriptor; RELOAD copies every entry's (R329). -/
def State.stagedAfter (s : State) (off k : Nat) (v : Word) : State :=
  if 0x7054 ≤ off ∧ off ≤ 0x705C then s.schCopy (k / 0x10000 - 1)
  else if off = 0x704C ∧ bitOf v 0 = true then (List.range 256).foldl (fun (s : State) k => s.schCopy k) s
  else s

/-! ### One register, one access -/

/-- How a write fared: fields ignored (R8) or refused (R9), and whether it waits for the reload of R441. -/
structure SetupResult where
  st : State
  late : Bool
  range : Bool
  held : Bool

/-- A register has STAGED fields. -/
def RegRow.hasStaged (r : RegRow) : Bool := r.fields.any (fun f => f.cls == .staged)

/-- Report what was ignored and refused (R437, R9). -/
def State.setupReport (s : State) (off : Nat) (v : Word) (node agent : Nat) (late range : Bool) (group : Nat) : State :=
  let s := if late then s.raise Code.CFG_LATE Src.setup [off, v.toNat, node % 2048 * 65536 + agent % 256 * 256, group] else s
  if range then s.raise Code.CFG_RANGE Src.setup [] else s

/-- A write of one register whose key is `k` (R4, R7 to R9). `other` is the key and the value of the other register of an 8-byte
access, `ctx` the state in which rules over both are judged (R460). -/
def State.writeReg (s ctx : State) (other : Option (Nat × Word)) (off k : Nat) (v : Word) (node agent : Nat) : SetupResult :=
  match regAt off with
  | none => ⟨s, false, false, false⟩
  | some r =>
    match s.clearWrite off k v with
    | some t => ⟨t, false, false, false⟩
    | none =>
      let hold := r.hasStaged && s.bit F.CHIP_COMMIT_STAT_RETIRING
      let l := s.landWith ctx r.fields off k v (s.halted (haltGroup off)) (!hold)
      let twn := off == 0x410 && s.haltRefused (bitsOf v 6 0)
      let eff := if twn then l.eff &&& ~~~0x8#32 else l.eff
      let late := l.late || twn
      let old := s.reg k
      let t := (s.setReg k eff).setShd k l.shd
      let t := t.setupReport off v node agent late l.range (if twn then 3 else haltGroup off)
      let t := if off < 0x3000 then t.afterLow off old eff v
        else if off < 0x5000 then t.afterCore off k old eff v (other.isSome && off % 8 == 0)
        else if off < 0x7800 then t.afterEdge off old eff v
        else t.afterHigh off old eff v
      let t := if hold then { t with regs := { t.regs with heldWrites := t.regs.heldWrites ++ [⟨k, v, other⟩] } }
        else t.stagedAfter off k v
      ⟨t, late, l.range, hold⟩

/-- A write of 4 or 8 bytes (R3, R460, R461): both registers of an 8-byte write are those shown at the start of the access. -/
def State.setupWrite (s : State) (off : Nat) (bs : List Byte) (node agent : Nat) : SetupResult :=
  let keyOf := fun (o : Nat) => match regAt o with | some r => s.keyAt r o | none => o
  let k0 := keyOf off
  let k1 := keyOf (off + 4)
  let v0 := BitVec.ofNat 32 (leNum (bs.take 4))
  if bs.length = 8 then
    let v1 := BitVec.ofNat 32 (leNum (bs.drop 4))
    let staged := !s.bit F.CHIP_COMMIT_STAT_RETIRING
    let a := s.writeReg (s.beside k1 v1 staged) (some (k1, v1)) off k0 v0 node agent
    let b := a.st.writeReg (s.beside k0 v0 staged) (some (k0, v0)) (off + 4) k1 v1 node agent
    ⟨b.st, a.late || b.late, a.range || b.range, a.held || b.held⟩
  else s.writeReg s none off k0 v0 node agent

/-! ### Retiring the old bank (R441) -/

/-- The fields of a register that are STAGED. -/
def RegRow.stagedFields (r : RegRow) : List FieldRow := r.fields.filter (fun f => f.cls == .staged)

/-- A held STAGED write lands. `start` is the state in which the two registers of an 8-byte access are judged. -/
def State.landHeld (s start : State) (w : HeldWrite) : State :=
  let off := keyOff w.key
  match regAt off with
  | none => s
  | some r =>
    let ctx := match w.other with | some o => start.beside o.1 o.2 true | none => s
    let l := s.landWith ctx r.stagedFields off w.key w.value false true
    ((s.setShd w.key l.shd).setupReport off w.value 0 0 false l.range 0).stagedAfter off w.key w.value

/-- The held writes land in order; the second register of an 8-byte access is judged from where its first was. -/
def State.landAll (s : State) (ws : List HeldWrite) : State :=
  (ws.foldl (fun (p : Option Nat × State × State) w =>
    let start := if p.1 = some w.key then p.2.1 else p.2.2
    (if p.1 = some w.key then none else w.other.map (fun o => o.1), start, p.2.2.landHeld start w)) (none, s, s)).2.2

/-- A task's write of a STAGED field that was held completes. -/
def State.heldTasks (s : State) : State :=
  (List.range 64).foldl (fun (s : State) d =>
    match s.execOf d with
    | some x =>
      if x.phase = .held ∧ x.aux = 441 then s.finishTask d St.OK (x.task.lenm1 + 1) []
      else if x.phase = .held ∧ x.aux = 442 then s.setExec d { x with phase := .ready, aux := 0 }
      else s
    | none => s) s

/-- The old bank is reloaded from the effective one, and refused values come back into it (R438, R441). -/
def State.bankReload (s : State) : State :=
  s.regs.refused.foldl (fun (s : State) e => s.setShd e.1 e.2) (s.bankKeys.foldl (fun (s : State) k => s.setShd k (s.reg k)) s)

/-- Nothing is refused or held any longer, and the bad entries of bank `old` have been rewritten (R379). -/
def State.bankFreed (s : State) (old : Bool) : State :=
  { s with regs := { s.regs with refused := [], heldWrites := [] }
           flt := { s.flt with badWords := s.flt.badWords.filter (fun w => !(w.1 == 5 && w.2.2 == old)) } }

/-- The old bank retires: it is reloaded, refused values come back, bad lens entries are rewritten (R379), held writes land. -/
def bankRetire (s : State) : State :=
  let old := !s.bit F.CHIP_COMMIT_STAT_BANK
  if s.bit F.CHIP_COMMIT_STAT_RETIRING && !s.bankInUse old then
    (((s.bankReload.bankFreed old).wr F.CHIP_COMMIT_STAT_RETIRING 0).landAll s.regs.heldWrites).heldTasks
  else s

def execBankRetire (s : State) : Host.Outcome State Fault Refusal := .next (whenUp .core bankRetire s)

/-! ### The commands -/

/-- An access that reaches the set-up unit from agent `agent` of node `node` has a size or alignment that R3 forbids: it has no effect
and ADR_SETUP is raised (R37). The command does not say by which ring port it came: the one of side W is taken, as for a
request turned back (R493; DESIGN CHOICE, log entry 23). -/
def State.setupSizeBad (s : State) (op off len node agent : Nat) : State :=
  s.raiseCap Code.ADR_SETUP Src.setup [] ⟨0, s.nodeId * 2 ^ 48 + 0x3000000000 + off, node, agent, op, (len - 1) % 256, 0, 0⟩

/-- SETUP_WRITE: an access to the set-up unit from agent `agent` of node `node` (R460). -/
def setupWriteCmd (off : Nat) (data : List Byte) (node agent : Nat) (s : State) : State :=
  if 0x10000 ≤ off then s
  else if setupSizeOk off data.length then (s.setupWrite off data node agent).st
  else s.setupSizeBad 2 off data.length node agent

def execSetupWrite (offset : Nat) (data : List Byte) (node agent : Nat) (s : State) : Host.Outcome State Fault Refusal :=
  .next (whenUp .mgmt (setupWriteCmd offset data node agent) s)

/-- SETUP_LATCH_READ: a read of 4 or 8 bytes, with its latching and clearing (R4, R463). The command names no reader: the node's own
BAR2 agent stands for it in a capture (DESIGN CHOICE, log entry 23). -/
def setupReadCmd (off len : Nat) (s : State) : State :=
  if 0x10000 ≤ off then s
  else if setupSizeOk off len then (s.setupRead off len).2
  else s.setupSizeBad 1 off len s.nodeId (s.rd F.CHIP_ORD_CTL_BAR2_AGENT)

def execSetupLatchRead (offset len : Nat) (s : State) : Host.Outcome State Fault Refusal :=
  .next (whenUp .mgmt (setupReadCmd offset len) s)

/-- DRV_EN_WRITE: bits 63 to 0 of DRV_EN written as one 8-byte access (R124, R141). -/
def drvEnCmd (value : Nat) (node agent : Nat) (s : State) : State :=
  (s.setupWrite 0x3018 (leBytes 8 value) node agent).st

def execDrvEnWrite (value node agent : Nat) (s : State) : Host.Outcome State Fault Refusal :=
  .next (whenUp .mgmt (drvEnCmd value node agent) s)

/-- CHIP_HALT_WRITE (R436). -/
def chipHaltWrite (value : Word) (node agent : Nat) (s : State) : State :=
  (s.setupWrite 0x410 (leBytes 4 value.toNat) node agent).st

def execChipHaltWrite (value : Word) (node agent : Nat) (s : State) : Host.Outcome State Fault Refusal :=
  .next (whenUp .mgmt (chipHaltWrite value node agent) s)

/-- The work in progress of a halting group has ended (R436). -/
def State.groupDrained (s : State) (g : Nat) : Bool :=
  if g = 0 then !s.vme.bbsy && !(match s.vin.cyc with | some c => c.held | none => false) && s.vme.pwq.isEmpty && s.vin.ipwq.isEmpty
  else if g = 1 then
    s.ord.wc.isEmpty && s.drv.drv.all (fun e => match e.2.exec with | some x => x.task.opcode != 0x14 | none => true)
  else if g = 2 then decide (s.openCount = 0)
  else if g = 4 then s.pwr.ports.all (fun p => p.ops.isEmpty)
  else true

/-- HALT_DRAINED: HALTED of group `g` sets. -/
def haltDrained (g : Nat) (s : State) : State :=
  if g < 7 ∧ s.halting g = true ∧ s.groupDrained g = true ∧ s.halted g = false then
    s.wr F.CHIP_HALTED_HALTED (s.rd F.CHIP_HALTED_HALTED + 2 ^ g)
  else s

def execHaltDrained (group : Nat) (s : State) : Host.Outcome State Fault Refusal := .next (whenUp .mgmt (haltDrained group) s)

end Sys2Proof.Machine
end

