-- ==== Sys2Proof/Machine/BootOps.lean ====
section
/-! DEFINITION. Preload entries of the image, and opening the node at a boundary (R432, R433, R435). -/

namespace Sys2Proof.Machine

/-- A preload entry is written to the fields whose class `want` selects, as with every halt group halted (R432); R9 refuses a value
as in any write. With `both` a STAGED value goes into the effective bank as well. -/
def State.preloadWrite (s : State) (want : Cls → Bool) (both : Bool) (e : Nat × Word) : State :=
  let off := e.1
  let v := e.2
  match regAt off with
  | none => s
  | some r =>
    let k := s.keyAt r off
    let fields := r.fields.filter (fun f => want f.cls)
    if fields = [] then s
    else
      let old := s.reg k
      let l := s.landWith s fields off k v true true
      let eff := if both then (l.eff &&& ~~~(stagedMask k)) ||| l.shd else l.eff
      let s := ((s.setReg k eff).setShd k l.shd).setupReport off v s.nodeId 0 false l.range 6
      let s := if fields.any (fun f => f.cls != .staged) then
          (if off < 0x3000 then s.afterLow off old eff v
           else if off < 0x5000 then s.afterCore off k old eff v false
           else if off < 0x7800 then s.afterEdge off old eff v
           else s.afterHigh off old eff v)
        else s
      if want .staged then s.stagedAfter off k v else s

/-- A register has a field that an OPEN entry holds back: any but STAGED and STATIC ones. -/
def holdsLive (e : Nat × Word) : Bool :=
  match regAt e.1 with
  | some r => r.fields.any (fun f => f.cls == .live || (f.cls == .fixed && f.acc != .ro && f.acc != .rc))
  | none => false

/-- The node opens at the first boundary of stage OPEN that leaves nothing waiting (R433, R435): the LIVE entries held back are
applied in image order after the commit, and the node is in service. -/
def State.openBoundary (s : State) : State :=
  if s.stage = 5 ∧ s.bit F.CHIP_COMMIT_STAT_WAITING = false ∧ s.boot.openEntries = [] then
    let es := s.boot.heldLive
    let s := es.foldl (fun (s : State) e => s.preloadWrite (fun c => c == .live || c == .fixed) false e)
      { s with boot := { s.boot with heldLive := [] } }
    (s.wr F.CHIP_BOOT_STAT_STAGE 6).wr F.CHIP_BOOT_TIME_SVC_MS (min 65535 ((s.ticks - s.boot.releasedAt) / 100000))
  else s

end Sys2Proof.Machine
end

