-- ==== Sys2Proof/Machine/Desc.lean ====
section
/-! DEFINITION. Descriptors and what may be done with them (R208 to R212, R253), and what a request decodes to (R32 to R37). -/

namespace Sys2Proof.Machine

/-! ### Where a descriptor executes (R212, R253) -/

/-- The opcodes that execute at the node their ADDR names (R253). -/
def forwardOps : List Nat := [0x15, 0x20, 0x21, 0x22, 0x30, 0x32, 0x40, 0x41, 0x50]

/-- ADDR names no node (R212). -/
def namesNone (d : List Byte) : Bool := dOp d == 0x14 || (dOp d == 0x13 && dSub d != 0)

/-- The descriptor executes at another node (R212, R253). -/
def State.executesAway (s : State) (t : Task) : Bool :=
  decide (t.orig ≠ 0) && !namesNone t.desc && decide (faNode (dAddr t.desc) ≠ s.nodeId) &&
    (forwardOps.contains (dOp t.desc) || (dPh t.desc && decide (t.orig = 1)))

/-- A control-class descriptor that SAFE lets through (R365). -/
def safeExempt (op addr : Nat) : Bool :=
  op == 0x40 || op == 0x41 || op == 0x30 || op == 0x32 ||
    ((op == 0x01 || op == 0x02) && decide (regionOf (faOffset addr) = .setup))

/-! ### Decoding at the home node (R32 to R37) -/

/-- The host window answers in a segment (R32, R37, R39, R40, R224, R364). -/
def State.hostOpen (s : State) (seg : Nat) : Bool :=
  s.pcieUp && s.bit F.HST_PCIE_STAT_BME && s.bit (F.HST_HWIN_CTL_EN seg) && !s.flt.fencedHost

/-- The last byte of a part of field port space that starts at offset `off`'s part, as an offset in it: 4 KiB heads, 16-byte
images, 2 KiB stamp tables (R36). -/
def samePart (off len : Nat) : Bool := decide (regionOf off = regionOf (off + (len - 1)))

/-- Why a READ or WRITE (or a claim, commit or atomic, `op`) of this node's bytes does not decode: its fault code (R37, R161). A
claim, commit or atomic at a reserved offset, which both rules claim, is ADR_RESERVED (DESIGN CHOICE, log entry 28). -/
def State.decodeFault (s : State) (bank : Bool) (op off len : Nat) : Option Nat :=
  let rmw := op == 0x10 || op == 0x11 || op == 0x12
  let read := op == 0x01 || op == 0x10 || op == 0x30
  if !oneRow off len then some Code.ADR_SPAN
  else match regionOf off with
    | .outbound => if (s.pieces bank off len).isSome then none else some Code.ADR_NO_LENS
    | .ddr => if s.flt.fencedHost || !s.ddrHas (off - 0x1000000000) len then some Code.ADR_DDR_ABSENT else none
    | .recvHead h => if rmw then some Code.ADR_ATOMIC
        else if headOp h (off % 0x1000) len read = .reserved then some Code.ADR_RESERVED else none
    | .sendHead h => if rmw then some Code.ADR_ATOMIC
        else if headOp h (off % 0x1000) len read = .reserved then some Code.ADR_RESERVED else none
    | .dcIn _ => if rmw then some Code.ADR_ATOMIC else if read && samePart off len then none else some Code.ADR_RESERVED
    | .dcStamp _ => if rmw then some Code.ADR_ATOMIC else if read && samePart off len then none else some Code.ADR_RESERVED
    | .dcOut _ => if samePart off len then none else some Code.ADR_RESERVED
    | .setup => if rmw then some Code.ADR_ATOMIC else if setupSizeOk off len then none else some Code.ADR_SETUP
    | .recorder => if rmw then some Code.ADR_ATOMIC
        else if read && decide (off - 0x4000000000 + len ≤ s.mramSize) then none else some Code.ADR_RECORDER
    | .hostWin seg => if s.hostOpen seg then none else some Code.ADR_HOST_WINDOW
    | .reserved => some Code.ADR_RESERVED

/-- The ring port that received a request: side W, side E, or side W for one turned back (R493). -/
def Task.port (t : Task) : Nat := if t.link = 2 then 1 else 0

/-- The access of a task as a capture holds it (R374). -/
def Task.cap (t : Task) (unit : Nat) : CapInfo := ⟨unit, t.target, t.srcNode, t.agent, t.op, t.lenm1, t.pclass, 0⟩

/-- Raise the fault of a decode failure, captured by the unit R37 names. -/
def State.decodeRaise (s : State) (t : Task) (code : Nat) : State :=
  if code = Code.ADR_NO_LENS then s.raiseCap code (Src.lnso 0) [] (t.cap 3)
  else if code = Code.ADR_HOST_WINDOW then s.raiseCap code Src.pcie [] (t.cap 2)
  else if code = Code.ADR_SETUP then s.raiseCap code Src.setup [] (t.cap t.port)
  else s.raiseCap code Src.packet [] (t.cap t.port)

end Sys2Proof.Machine
end

