-- ==== Sys2Proof/Machine/Home.lean ====
section
/-! DEFINITION. What a ring request does at its home node (R32 to R38, R152, R161 to R165, R188, R224). -/

namespace Sys2Proof.Machine

/-! ### The host window at the PCI Express port (R38, R224) -/

/-- PCI Express address of an offset in segment `seg` (R38). -/
def State.hostAddr (s : State) (seg off : Nat) : Nat :=
  baseOf (s.rd (F.HST_HWIN_BASE_LO_HBASE_LO seg)) (s.rd (F.HST_HWIN_BASE_HI_HBASE_HI seg)) +
    (off - 0x8000000000 - seg * 0x1000000000)

/-- The TLPs of a request: cut at 4 KiB boundaries and at Max Payload Size (R224); `fuel` bounds their number. -/
def cutTlps (mps : Nat) : Nat → Nat → Nat → List (Nat × Nat)
  | 0, _, _ => []
  | n + 1, a, len =>
    if len = 0 then []
    else
      let m := min len (min mps (4096 - a % 4096))
      (a, m) :: cutTlps mps n (a + m) (len - m)

/-- A read is also no longer than Max Read Request Size (R221). -/
def State.tlpsOf (s : State) (r : HostReq) : List (Nat × Nat) :=
  cutTlps (if r.kind = 0 then min s.host.mps s.host.mrrs else s.host.mps) 8 r.addr r.len

/-- The read that proves a requester's host window writes to a segment is under way. -/
def State.proving (s : State) (k seg : Nat) : Bool :=
  s.host.reqs.any (fun r => r.drover.isNone && r.who == k && r.seg == seg)

/-- A host window store awaits the read that proves it (R152): one issued after it. -/
def State.addSeg (s : State) (k seg : Nat) : State :=
  let c := s.confirmOf k
  s.setConfirm k { c with
    segs := if c.segs.contains seg then c.segs else c.segs ++ [seg]
    again := if s.proving k seg && !c.again.contains seg then c.again ++ [seg] else c.again }

/-- Memory TLPs of a segment carry the No Snoop attribute (R39, R221). -/
def State.noSnoop (s : State) (seg : Nat) : Bool := s.bit (F.HST_HWIN_CTL_NOSNOOP seg)

/-- A request goes to the link. A write is done with its last TLP (R224). -/
def State.hostSend (s : State) (r : HostReq) : State :=
  let drop := fun (s : State) => { s with host := { s.host with reqs := s.host.reqs.filter (fun x => x.id != r.id) } }
  let sent := fun (s : State) => { s with host := { s.host with
    reqs := s.host.reqs.map (fun x => if x.id = r.id then { x with sent := true } else x) } }
  if r.kind = 1 then
    let ts := s.tlpsOf r
    let s := ts.foldl (fun (s : State) t => s.emit (.tlpWrite t.1 (slice r.data (t.1 - r.addr) t.2) (s.noSnoop r.seg))) s
    let s := drop { s with host := { s.host with credits := s.host.credits - ts.length } }
    match r.drover with
    | some d => match s.execOf d with
      | some x => ((s.addSeg x.task.key r.seg).storeSeen x.task.srcNode x.task.agent 5 x.task.addr r.len).finishTask d St.OK r.len []
      | none => s
    | none => s
  else if r.kind = 2 then
    match r.drover with
    | some d => match s.execOf d with
      | some x =>
        let sub := if x.task.op = 0x11 then 2 else (getAt 0 x.task.data 0).toNat
        sent (s.emit (.tlpAtomic r.id r.addr sub r.data (s.noSnoop r.seg)))
      | none => drop s
    | none => drop s
  else sent ((s.tlpsOf r).foldl (fun (s : State) t => s.emit (.tlpRead r.id t.1 t.2 (s.noSnoop r.seg))) s)

/-- The link can take the request: posted-request credits for a write, a tag of the 256 for each TLP of any other (R221, R224). -/
def State.hostTakes (s : State) (r : HostReq) : Bool :=
  if r.kind = 1 then decide ((s.tlpsOf r).length ≤ s.host.credits)
  else
    let tags := fun (x : HostReq) => if x.kind = 2 then 1 else (s.tlpsOf x).length
    decide ((s.host.reqs.filter (fun x => x.sent)).foldl (fun n x => n + tags x) (tags r) ≤ 256)

/-- Requests go out in order while the link takes them; `fuel` bounds their number. -/
def State.pumpHost : Nat → State → State
  | 0, s => s
  | n + 1, s =>
    match s.host.reqs.find? (fun r => !r.sent) with
    | some r => if s.hostTakes r then (s.hostSend r).pumpHost n else s
    | none => s

/-- A new request of drover `d` (or of the device itself) for `len` bytes at `off`. -/
def State.hostRequest (s : State) (d : Option Nat) (who kind seg off len : Nat) (data : List Byte) : State :=
  let id := s.host.nextReq
  let r : HostReq :=
    { id := id, drover := d, who := who, kind := kind, seg := seg, addr := s.hostAddr seg off, len := len, data := data, sent := false }
  let s := match d with
    | some e => match s.execOf e with | some x => s.setExec e { x with phase := .host } | none => s
    | none => s
  let s := { s with host := { s.host with nextReq := id + 1, reqs := s.host.reqs ++ [r] } }
  s.pumpHost s.host.reqs.length

/-! ### Reads and writes -/

/-- A request that does not decode: nothing is performed (R37). -/
def State.refuse (s : State) (d code : Nat) (t : Task) : State := (s.decodeRaise t code).finishTask d St.ADDR_ERROR 0 []

/-- A READ that decodes. -/
def State.homeRead (s : State) (d : Nat) (t : Task) : State :=
  let off := t.off
  let n := t.lenm1 + 1
  match regionOf off with
  | .outbound => s.startVme d
  | .ddr =>
    let r := s.ddrRead (off - 0x1000000000) n
    match r.1 with
    | some bs => r.2.finishTask d St.OK n bs
    | none => r.2.finishTask d St.MEM_UE 0 []
  | .dcIn c => s.finishTask d St.OK n (s.dcReadIn c (off % 0x1000) n)
  | .dcOut c => s.finishTask d St.OK n (s.dcReadOut c (off % 0x1000) n)
  | .dcStamp c => s.finishTask d St.OK n (s.dcReadStamp c (off % 0x800) n)
  | .setup =>
    let r := s.setupRead (off - 0x3000000000) n
    r.2.finishTask d St.OK n r.1
  | .recorder => s.finishTask d St.OK n (s.mramRead (off - 0x4000000000) n)
  | .hostWin seg => s.hostRequest (some d) 0 0 seg off n []
  | _ => s

/-- A WRITE of set-up registers (R7 to R9, R441): a store that R9 refuses is unconfirmed (R152). -/
def State.homeSetup (s : State) (d : Nat) (t : Task) : State :=
  let r := s.setupWrite (t.off - 0x3000000000) t.data t.srcNode t.agent
  let s := if r.range then r.st.storeFailed t.srcNode t.agent else r.st
  if r.held then
    match s.execOf d with
    | some x => s.setExec d { x with phase := .held, aux := 441 }
    | none => s
  else s.finishTask d St.OK (t.lenm1 + 1) []

/-- A WRITE or WRITE_NT that decodes. -/
def State.homeWrite (s : State) (d : Nat) (t : Task) : State :=
  let off := t.off
  let n := t.lenm1 + 1
  match regionOf off with
  | .outbound => s.startVme d
  | .ddr =>
    let r := s.ddrWrite (off - 0x1000000000) t.data
    if r.1 then (r.2.storeSeen t.srcNode t.agent 5 t.addr n).finishTask d St.OK n []
    else r.2.finishTask d St.MEM_UE 0 []
  | .dcOut c => ((s.dcWrite c (off % 0x1000) (t.key + 1) t.data).storeSeen t.srcNode t.agent 5 t.addr n).finishTask d St.OK n []
  | .setup => s.homeSetup d t
  | .hostWin seg => s.hostRequest (some d) 0 1 seg off n t.data
  | _ => s

/-! ### Claims, commits and atomics (R161 to R165) -/

/-- Take the reservation of a fabric granule with the bytes read (R162). -/
def State.claimFabric (s : State) (d : Nat) (t : Task) (bs : List Byte) : State :=
  s.takeClaim ⟨t.srcNode, t.agent, 5, t.addr / 64, t.exc, bs, none, d⟩

/-- A memory of the node itself: its bytes, and how to write them; none where an error cannot be corrected. -/
def State.cellRead (s : State) (t : Task) : Option (List Byte) × State :=
  match regionOf t.off with
  | .dcOut c => (some (s.dcReadOut c (t.off % 0x1000) (t.lenm1 + 1)), s)
  | _ => s.ddrRead (t.off - 0x1000000000) (t.lenm1 + 1)

def State.cellWrite (s : State) (t : Task) (bs : List Byte) : Bool × State :=
  match regionOf t.off with
  | .dcOut c => (true, (s.dcWrite c (t.off % 0x1000) (t.key + 1) bs).storeSeen t.srcNode t.agent 5 t.addr bs.length)
  | _ =>
    let r := s.ddrWrite (t.off - 0x1000000000) bs
    (r.1, if r.1 then r.2.storeSeen t.srcNode t.agent 5 t.addr bs.length else r.2)

/-- A CLAIM, COMMIT or ATOMIC of DDR4 or of an output image, indivisibly (R161). -/
def State.cellRmw (s : State) (d : Nat) (t : Task) : State :=
  let n := t.lenm1 + 1
  if t.op = 0x11 then
    let j := s.judgeCommit t.srcNode t.agent 5 (t.addr / 64) t.exc none
    if j.1 then
      let w := j.2.cellWrite t t.data
      if w.1 then (w.2.commitEnd t.srcNode t.agent true).finishTask d St.OK n []
      else w.2.finishTask d St.MEM_UE 0 []
    else (j.2.commitEnd t.srcNode t.agent false).finishTask d St.CLAIM_LOST 0 []
  else
    let r := s.cellRead t
    match r.1 with
    | none => r.2.finishTask d St.MEM_UE 0 []
    | some old =>
      if t.op = 0x10 then (r.2.claimFabric d t old).finishTask d St.OK n old
      else
        let w := r.2.cellWrite t (atomicBytes old t.data)
        if w.1 then w.2.finishTask d St.OK n old else w.2.finishTask d St.MEM_UE 0 []

/-- The operands of an AtomicOp TLP: the compare value first, for CAS (PCI Express Base 4.0). -/
def atomicOperands (t : Task) (n : Nat) : List Byte :=
  if (getAt 0 t.data 0).toNat = 2 then slice t.data 16 n ++ slice t.data 8 n else slice t.data 8 n

/-- A CLAIM, COMMIT or ATOMIC of the host window (R161). -/
def State.hostRmw (s : State) (d : Nat) (t : Task) (seg : Nat) : State :=
  let n := t.lenm1 + 1
  if !s.host.atomicEn then (s.raise Code.HST_ATOMIC_OFF Src.pcie []).finishTask d St.ATOMIC_UNSUPP 0 []
  else if !((n = 4 ∨ n = 8) && t.addr % n == 0) then s.finishTask d St.ATOMIC_WIDTH 0 []
  else if t.op = 0x10 then s.hostRequest (some d) 0 0 seg t.off n []
  else if t.op = 0x11 then
    let j := s.judgeCommit t.srcNode t.agent 5 (t.addr / 64) t.exc none
    match if j.1 then j.2.claimOf t.srcNode t.agent 5 (t.addr / 64) else none with
    | some c => j.2.hostRequest (some d) 0 2 seg t.off n (c.data ++ t.data)
    | none => (j.2.commitEnd t.srcNode t.agent false).finishTask d St.CLAIM_LOST 0 []
  else s.hostRequest (some d) 0 2 seg t.off n (atomicOperands t n)

/-- A CLAIM, COMMIT or ATOMIC at its home node. -/
def State.homeRmw (s : State) (d : Nat) (t : Task) : State :=
  let n := t.lenm1 + 1
  match s.decodeFault t.bank t.op t.off n with
  | some code => s.refuse d code t
  | none =>
    match regionOf t.off with
    | .outbound => s.startVme d
    | .hostWin seg => s.hostRmw d t seg
    | _ =>
      if (n = 1 ∨ n = 2 ∨ n = 4 ∨ n = 8) && t.addr % n == 0 then s.cellRmw d t
      else s.finishTask d St.ATOMIC_WIDTH 0 []

/-- What the host answered to a request of a drover (R161, R224). -/
def State.hostAnswered (s : State) (d : Nat) (r : HostReq) (bs : List Byte) : State :=
  match s.execOf d with
  | none => s
  | some x =>
    let t := x.task
    if t.op = 0x10 then (s.claimFabric d t bs).finishTask d St.OK r.len bs
    else if t.op = 0x11 then
      let ok := bs == r.data.take r.len
      let s := s.commitEnd t.srcNode t.agent ok
      if ok then ((s.addSeg t.key r.seg).storeSeen t.srcNode t.agent 5 t.addr r.len).finishTask d St.OK r.len []
      else s.finishTask d St.CLAIM_LOST 0 []
    else if t.op = 0x12 then ((s.addSeg t.key r.seg).storeSeen t.srcNode t.agent 5 t.addr r.len).finishTask d St.OK r.len bs
    else s.finishTask d St.OK r.len bs

/-! ### DONE at a target (R151, R152) -/

/-- Every earlier store of the requester is confirmed, or the device proves its host window writes first. -/
def State.homeDone (s : State) (d : Nat) (t : Task) : State :=
  let c := s.confirmOf t.key
  match s.execOf d with
  | none => s
  | some x =>
    if c.pending = 0 ∧ c.segs = [] then
      let s := s.setConfirm t.key { c with failed := 0 }
      s.endTask d (if c.failed = 0 then St.OK else St.DONE_FAILED) c.failed []
    else
      let s := s.setExec d { x with phase := .ordWait }
      (c.segs.filter (fun seg => !s.proving t.key seg)).foldl (fun (s : State) seg =>
        s.hostRequest none t.key 0 seg (0x8000000000 + seg * 0x1000000000) 4 []) s

/-- The DONE requests of a requester that wait here look again (R151). -/
def State.donesAgain (s : State) (k : Nat) : State :=
  (List.range 64).foldl (fun (s : State) d =>
    match s.execOf d with
    | some x => if x.task.opcode = 0x14 ∧ x.task.orig = 0 ∧ x.phase = .ordWait ∧ x.task.key = k then s.homeDone d x.task else s
    | none => s) s

/-- The proving read of a segment has ended (R152). Writes made after it was issued are still to be proven. -/
def State.segProven (s : State) (r : HostReq) (ok : Bool) : State :=
  let c := s.confirmOf r.who
  let c := { c with segs := if c.again.contains r.seg then c.segs else c.segs.filter (· != r.seg)
                    again := c.again.filter (· != r.seg), failed := if ok then c.failed else c.failed + 1 }
  let s := s.setConfirm r.who c
  if c.pending = 0 ∧ c.segs = [] then s.finishDone r.who else s.donesAgain r.who

/-! ### A request performed (R33, R127) -/

/-- Perform the READ or WRITE that drover `d` runs at its home node. An access to a fold head is left to the head's commands. -/
def State.homeAccess (s : State) (d : Nat) (t : Task) : State :=
  match s.decodeFault t.bank t.op t.off (t.lenm1 + 1) with
  | some code => s.refuse d code t
  | none => if t.op = 0x01 then s.homeRead d t else s.homeWrite d t

end Sys2Proof.Machine
end

