-- ==== Sys2Proof/Machine/Moves.lean ====
section
/-! DEFINITION. What a drover does for a descriptor: ring requests block by block, forwarding, claims, barriers (R145 to R159, R209 to
R212, R253). -/

namespace Sys2Proof.Machine

/-! ### Issuing for a task -/

/-- The packet with another source node: an access a carried descriptor performs at its executing node is one of the requester's
(R253). -/
def Packet.withSrc (p : Packet) (src : Nat) : Packet :=
  { p with w0 := mkW0 p.dst src p.tag p.cls p.kind p.ord 0 p.agent p.op p.lenm1 }

/-- A request of a task: READ, WRITE, CLAIM, COMMIT or ATOMIC of `len` bytes (R146, R253). -/
def State.taskIssue (s : State) (d : Nat) (t : Task) (op addr len : Nat) (payload : List Byte) : Attempt :=
  let p := s.request t.agent t.pclass op addr len payload
  let p := if faNode addr = s.nodeId then p.withSrc t.srcNode else p
  s.issueAccess t.key ⟨p.dst, p.cls, addr, len, isStoreOp op, isLoadOp op⟩ p (.sub d) false

/-- The drover waits in a phase. -/
def State.waitIn (s : State) (d : Nat) (ph : ExecPhase) : State :=
  match s.execOf d with
  | some x => s.setExec d { x with phase := ph }
  | none => s

/-- An attempt has issued a request, recorded with the offset it covers; else the drover waits, or `fail` says what its end means. -/
def State.issued (d : Nat) (r : Attempt) (u : Sub) (fail : Nat → State → State) : State :=
  if r.waits then r.st.waitIn d .ordWait
  else match r.ended with
    | some st => fail st r.st
    | none => match r.st.execOf d with
      | some x => r.st.setExec d { x with phase := .ring, subs := x.subs ++ [u] }
      | none => r.st

/-- End a descriptor's task; a store that ends in error is unconfirmed where no request of its own has counted it (R152). -/
def State.finishDesc (s : State) (d status n : Nat) (payload : List Byte) (count : Bool) : State :=
  match s.execOf d with
  | none => s
  | some x =>
    let s := if count && storeBad x.task.opcode status then s.storeFailed x.task.srcNode x.task.agent else s
    s.endTask d status n payload

/-- A store that this node performs itself for one of its agents: DONE asks this node too (R151). -/
def State.noteStore (s : State) (t : Task) : State :=
  if t.orig = 0 then s else s.noteNode s.nodeId t.key

/-- The task leaves its drover, which is at a task boundary (R125). -/
def State.handOver (s : State) (d : Nat) : State := (s.dropExec d).taskBoundary (.drover d)

/-! ### Moving bytes (R211) -/

/-- How a descriptor moves its bytes: how many, the address whose aligned 256-byte blocks cut them, where they are read and
written, and whether they are merged into the combining buffer. -/
structure Plan where
  n : Nat
  cutAt : Nat
  src : Option Nat
  dst : Option Nat
  merge : Bool

/-- WRITE_NT goes into the combining buffer (R30, R155, R159). -/
def State.merges (s : State) (dsc : List Byte) : Bool :=
  decide (dOp dsc = 0x03) && s.combining && decide (faNode (dAddr dsc) ≠ bcastNode)

def State.planOf (s : State) (t : Task) : Plan :=
  let dsc := t.desc
  let op := dOp dsc
  let a := dAddr dsc
  let n := dLen dsc
  let src := if dInline dsc then none else some (dBuf dsc)
  if op = 0x01 ∨ op = 0x31 then ⟨n, a, some a, some (dBuf dsc), false⟩
  else if op = 0x20 then ⟨n, dBuf dsc, src, none, false⟩
  else if op = 0x21 then ⟨t.data.length, dBuf dsc, none, some (dBuf dsc), false⟩
  else if op = 0x05 then ⟨n, a, none, some a, false⟩
  else if s.merges dsc then ⟨n, a, src, none, true⟩
  else ⟨n, a, src, some a, false⟩

/-- Bytes [o, o + l) of a move that reads nothing: the pattern of FILL, inline data, or a posted packet. -/
def madeBytes (t : Task) (o l : Nat) : List Byte :=
  if dOp t.desc = 0x05 then
    (List.range l).map (fun i => getAt 0 (leBytes 8 (dOperand t.desc 0)) ((dAddr t.desc + o + i) % 8))
  else if dOp t.desc = 0x21 then slice t.data o l
  else slice t.desc (24 + o) l

/-- Lay bytes at an offset of a buffer that grows. -/
def layAt (buf : List Byte) (o : Nat) (bs : List Byte) : List Byte :=
  buf.take o ++ List.replicate (o - buf.length) 0 ++ bs ++ buf.drop (o + bs.length)

/-- Bytes of BUF that a failed READ leaves undefined (R211): free values, where BUF is this node's DDR4 (log entry 6). -/
def State.undefBuf (s : State) (dsc : List Byte) (n : Nat) : State :=
  let a := faOffset (dBuf dsc) - 0x1000000000 + n
  let k := dLen dsc - n
  if faNode (dBuf dsc) = s.nodeId ∧ regionOf (faOffset (dBuf dsc)) = .ddr ∧ s.ddrHas a k = true then
    let r := s.freeBytes k
    { r.2 with ddr := { r.2.ddr with bytes := twrites zeroByte r.2.ddr.bytes a r.1 } }
  else s

/-- A move has ended: the RESULT of READ and LOG_READ, the packet of SEND. -/
def State.moveEnd (s : State) (d : Nat) (x : Exec) (status n : Nat) : State :=
  let t := x.task
  let op := t.opcode
  if op = 0x20 ∧ status = St.OK then
    let bs := if dInline t.desc then slice t.desc 24 (dLen t.desc) else x.buf
    match headAt (faOffset t.target) with
    | some (h, _) =>
      let s := (s.setExec d { x with buf := bs, phase := .field }).noteStore t
      let r := (s.awaitStore (t.key + 1)).push h (1000 + d + 64 * h) (t.key + 1) (dataWords bs) (some d)
      if r.1 then r.2.endTask d St.OK bs.length [] else r.2
    | none => s.finishDesc d St.ADDR_ERROR 0 [] true
  else
    let res := if status ≠ St.OK then []
      else if op = 0x01 ∧ dLen t.desc ≤ 8 then leBytes 8 (leNum x.buf)
      else if op = 0x31 then leBytes 8 (badSlots (dLen t.desc / 32) x.buf)
      else []
    let s := if op = 0x01 ∧ status ≠ St.OK then s.undefBuf t.desc n else s
    s.finishDesc d status n res (op == 0x20 || op == 0x21)

/-- A request failed at offset `o` with `k` of its bytes done: the lowest counts (R211). -/
def Exec.failAt (x : Exec) (o st k : Nat) : Exec :=
  match x.err with
  | some (e, _, _) => if o < e then { x with err := some (o, st, k) } else x
  | none => { x with err := some (o, st, k) }

def State.moveFail (s : State) (d o st k : Nat) : State :=
  match s.execOf d with
  | some x => s.setExec d (x.failAt o st k)
  | none => s

/-- Go on with a move; `fuel` bounds the requests issued in one turn. -/
def State.moveGo : Nat → Nat → State → State
  | 0, _, s => s
  | n + 1, d, s =>
    match s.execOf d with
    | none => s
    | some x =>
      let t := x.task
      let pl := s.planOf t
      match x.err with
      | some (e, st, k) =>
        if x.subs = [] then s.moveEnd d x st (if x.done = e then e + k else x.done) else s.setExec d { x with phase := .ring }
      | none =>
        if 8 ≤ x.subs.length then s.setExec d { x with phase := .ring }
        else match x.toWrite with
          | (o, l) :: rest =>
            let bs := if pl.src.isSome then slice x.buf o l else madeBytes t o l
            match pl.dst with
            | some a =>
              let r := s.taskIssue d t 0x02 (a + o) l bs
              let s' := State.issued d r ⟨0x02, a + o, o, l⟩ (fun st s => s.moveFail d o st 0)
              if r.waits then s'
              else match s'.execOf d with
                | some y => (s'.setExec d { y with toWrite := rest }).moveGo n d
                | none => s'
            | none => match originFault 0x03 (dAddr t.desc + o) l with
            | some code =>
              -- the originator refuses the bytes before they are combined (R29, R37)
              let s := (s.originRefuse code 0x03 (dAddr t.desc + o) l t.agent t.pclass false).storeUnsent t.key
              ((s.setExec d { x with toWrite := rest }).moveFail d o St.ADDR_ERROR 0).moveGo n d
            | none =>
              -- into the combining buffer; what finds no line waits
              let m := State.mergeBytes 128 t.key (dAddr t.desc + o) bs s
              let x := { x with done := o + m.1, toWrite := if m.1 = l then rest else (o + m.1, l - m.1) :: rest }
              if m.1 = l then (m.2.setExec d x).moveGo n d else m.2.setExec d { x with phase := .ordWait }
          | [] =>
            if x.next < pl.n then
              let l := min (pl.n - x.next) (256 - (pl.cutAt + x.next) % 256)
              match pl.src with
              | some a =>
                let r := s.taskIssue d t 0x01 (a + x.next) l []
                let s' := State.issued d r ⟨0x01, a + x.next, x.next, l⟩ (fun st s => s.moveFail d x.next st 0)
                if r.waits then s'
                else match s'.execOf d with
                  | some y => (s'.setExec d { y with next := x.next + l }).moveGo n d
                  | none => s'
              | none => (s.setExec d { x with next := x.next + l, toWrite := if pl.dst.isSome || pl.merge then [(x.next, l)] else [] }).moveGo n d
            else if x.subs = [] then s.moveEnd d x St.OK (if pl.dst.isSome || pl.merge then x.done else pl.n)
            else s.setExec d { x with phase := .ring }

/-- Requests a move can issue in one turn: eight in flight, each after a block that needed none. -/
def moveFuel : Nat := 64

/-- A request of a move has been answered. -/
def State.moveAnswered (s : State) (d : Nat) (x : Exec) (u : Sub) (r : TaskResult) : State :=
  let pl := s.planOf x.task
  let reads := u.op == 0x01
  let fine := decide (r.status = St.OK ∨ r.status = St.LATE)
  let x :=
    if !fine then x.failAt u.off r.status (if reads then 0 else r.bytesDone)
    else if reads then
      { x with buf := layAt x.buf u.off (r.payload.take u.len)
               toWrite := if pl.dst.isSome || pl.merge then x.toWrite ++ [(u.off, u.len)] else x.toWrite }
    else { x with done := if u.off = x.done then u.off + u.len else x.done }
  (s.setExec d x).moveGo moveFuel d

/-! ### Forwarding (R253) -/

/-- Send the descriptor to the node its ADDR names. -/
def State.forward (s : State) (d : Nat) (t : Task) : State :=
  let addr := dAddr t.desc
  let op := t.opcode
  let p : Packet := ⟨mkW0 (faNode addr) s.nodeId 0 (classOf t.pclass addr) Kind.REQUEST true 0 t.agent 0x7F 0, BitVec.ofNat 64 addr, t.desc⟩
  let store := isStoreOp op
  let r := s.issueAccess t.key ⟨p.dst, p.cls, addr, t.len, store, isLoadOp op⟩ p (.sub d) false
  State.issued d r ⟨0x7F, addr, 0, 0⟩ (fun st s => s.endTask d st 0 [])

/-! ### Claims, commits and atomics of a descriptor (R209) -/

/-- The payload of its one request (R253). -/
def rmwPayload (dsc : List Byte) : List Byte :=
  if dOp dsc = 0x11 then slice dsc 24 (dLen dsc)
  else if dOp dsc = 0x12 then leBytes 8 (dSub dsc) ++ slice dsc 24 16
  else []

def State.rmwGo (s : State) (d : Nat) (t : Task) : State :=
  let a := dAddr t.desc
  let r := s.taskIssue d t (dOp t.desc) a (dLen t.desc) (rmwPayload t.desc)
  State.issued d r ⟨dOp t.desc, a, 0, dLen t.desc⟩ (fun st s => s.endTask d st 0 [])

/-! ### Barriers (R149 to R153) -/

/-- A barrier covers the combining line at an address (R149, R150): a DROVER fence covers BULK traffic to its node. -/
def barrierCovers (t : Task) (own base : Nat) : Bool :=
  if dOp t.desc = 0x14 ∨ dSub t.desc = 2 then true
  else if dSub t.desc = 1 then faNode base == own
  else decide (dClass t.desc = 2) && faNode base == faNode (dAddr t.desc)

/-- Combining lines that a barrier waits for (R150). -/
def barrierLines (t : Task) (own : Nat) (l : WcLine) : Bool := barrierCovers t own l.base

/-- Accesses of the agent that a barrier waits for: those to its own node, those to every node; for DONE, its broadcasts. -/
def barrierWaits (t : Task) (own : Nat) (x : OpenAccess) : Bool :=
  x.rsp.isNone &&
    (if dOp t.desc = 0x14 then x.store && x.node == bcastNode
     else if dSub t.desc = 2 then true else if dSub t.desc = 1 then x.node == own else false)

/-- A FENCE ends (R150): WRITE_LOST counts the flush writes it waited for. -/
def State.fenceEnd (s : State) (d : Nat) (t : Task) : State :=
  let lost := ((s.agent t.key).flushLost.filter (fun e => barrierCovers t s.nodeId e.1)).foldl (fun n e => n + e.2) 0
  if lost = 0 then s.endTask d St.OK 0 [] else s.endTask d St.WRITE_LOST lost []

/-- A DONE ends with `n` unconfirmed stores (R153). -/
def State.doneEnd (s : State) (d n : Nat) : State :=
  let s := s.bump (if n = 0 then K.CHIP_CNT_DONE_OK else K.CHIP_CNT_DONE_FAIL)
  s.endTask d (if n = 0 then St.OK else St.DONE_FAILED) n []

/-- The per-node DONE requests go out and the map is cleared (R151). -/
def State.sendDones (s : State) (d : Nat) (x : Exec) : State :=
  let t := x.task
  let g := s.agent t.key
  let s := s.setAgent t.key { g with doneMap := [], unsent := 0 }
  let s := s.setExec d { x with aux := 2, done := g.unsent, phase := .ring }
  let s := g.doneMap.foldl (fun (s : State) node =>
    let addr := faMake node 0
    let p : Packet := ⟨mkW0 node s.nodeId 0 0 Kind.REQUEST true 0 t.agent 0x14 0, BitVec.ofNat 64 addr, []⟩
    let r := s.issueRec p { TagRec.mk' p 0 (.sub d) with key := t.key }
    match r.st.execOf d with
    | some y => r.st.setExec d (if r.ended.isSome then { y with done := y.done + 1 } else { y with subs := y.subs ++ [⟨0x14, addr, 0, 0⟩] })
    | none => r.st) s
  match s.execOf d with
  | some y => if y.subs = [] then s.doneEnd d y.done else s
  | none => s

/-- A FENCE or DONE of this node's own agent: its lines are flushed, then it waits for what it covers (R149 to R151). -/
def State.barrierGo (s : State) (d : Nat) (x : Exec) : State :=
  let t := x.task
  let k := t.key
  let s := if x.aux = 0 then
      (s.setAgent k { s.agent k with flushLost := [] }).flushWhere (fun l => l.writers.contains k)
    else s
  let x := { x with aux := 1, phase := .ordWait }
  let s := s.setExec d x
  if s.halting 1 || s.linesOfAgent k (barrierLines t s.nodeId) != [] || (s.agent k).accesses.any (barrierWaits t s.nodeId) then s
  else if dOp t.desc = 0x14 then s.sendDones d x
  else if dSub t.desc = 0 then
    let addr := dAddr t.desc
    let p : Packet := ⟨mkW0 (faNode addr) s.nodeId 0 t.pclass Kind.REQUEST true 0 t.agent 0x13 0, BitVec.ofNat 64 addr, []⟩
    let r := s.issueAccess k ⟨p.dst, p.cls, addr, 0, false, false⟩ p (.sub d) false
    State.issued d r ⟨0x13, addr, 0, 0⟩ (fun st s => s.endTask d st 0 [])
  else s.fenceEnd d t

/-! ### Inbound VME requests (R120 DIR 1) -/

/-- An inbound posted entry that was discarded is not issued (R174). -/
def State.postGone (s : State) (t : Task) : Bool := decide (64 ≤ t.link) && !s.vin.ipwq.any (fun e => e.id + 64 == t.link)

/-- The one request of a held cycle or a posted entry. -/
def State.dirGo (s : State) (d : Nat) (t : Task) : State :=
  if s.postGone t then s.endTask d St.OK 0 []
  else
  let len := t.lenm1 + 1
  let r := s.taskIssue d t t.op t.addr len t.data
  State.issued d r ⟨t.op, t.addr, 0, len⟩ (fun st s => s.endTask d st 0 [])

/-! ### Going on, and answers -/

/-- Opcodes that move bytes block by block at the node that performs them. -/
def moveOps : List Nat := [0x01, 0x02, 0x03, 0x04, 0x05, 0x20, 0x21, 0x31]

/-- Go on with the descriptor or inbound request that drover `d` runs, where it issues requests. -/
def State.descGo (s : State) (d : Nat) : State :=
  match s.execOf d with
  | none => s
  | some x =>
    let t := x.task
    if t.dir then s.dirGo d t
    else if s.executesAway t then s.forward d t
    else
      let op := t.opcode
      if moveOps.contains op then s.moveGo moveFuel d
      else if op = 0x10 ∨ op = 0x11 ∨ op = 0x12 then s.rmwGo d t
      else if op = 0x13 ∨ op = 0x14 then s.barrierGo d x
      else s

/-- Drovers that waited for an agent's earlier accesses try again (R146). -/
def State.wakeAgent (s : State) (k : Nat) : State :=
  (List.range 64).foldl (fun (s : State) d =>
    match s.execOf d with
    | some x => if x.phase = .ordWait ∧ x.task.key = k ∧ (x.task.dir = true ∨ x.task.desc ≠ []) then s.descGo d else s
    | none => s) s

/-- The answer to a request of the task drover `d` runs. -/
def State.subAnswered (s : State) (d op addr : Nat) (r : TaskResult) : State :=
  match s.execOf d with
  | none => s
  | some x =>
    let t := x.task
    if t.orig = 2 then
      -- the WRITE of a poll step (R295)
      if r.status = St.OK ∨ r.status = St.LATE then s.endTask d St.OK x.buf.length []
      else (s.raise Code.SP_POLL_FAIL (Src.serial (t.param % 256)) []).endTask d r.status 0 []
    else match takeFirst (fun u => u.op == op && u.addr == addr) x.subs with
      | none => s
      | some (u, rest) =>
        let x := { x with subs := rest }
        let s := s.setExec d x
        if t.dir || u.op == 0x7F then s.endTask d r.status r.bytesDone r.payload
        else if u.op = 0x14 then
          let n := if r.status = St.OK then 0 else if r.status = St.DONE_FAILED then r.bytesDone else 1
          if rest = [] then s.doneEnd d (x.done + n) else s.setExec d { x with done := x.done + n }
        else if u.op = 0x13 then
          if r.status = St.OK ∨ r.status = St.LATE then s.fenceEnd d t else s.endTask d r.status r.bytesDone []
        else if u.op = 0x10 ∨ u.op = 0x11 ∨ u.op = 0x12 then
          s.endTask d r.status r.bytesDone (if r.payload = [] then [] else leBytes 8 (leNum r.payload))
        else s.moveAnswered d x u r

end Sys2Proof.Machine
end

