-- ==== Sys2Proof/Machine/Drovers.lean ====
section
/-! DEFINITION. The drovers: running a task, the perform and release gates, stealing, the watchdog and reload (R121, R127 to R141). -/

namespace Sys2Proof.Machine

/-! ### The task record (R120, R121) -/

/-- A record that the fold manager never writes (R121). -/
def Task.bad (t : Task) : Bool :=
  decide (4 < t.cls) || decide (4 < t.pinwhy) || decide (2 < t.steals) || decide (2 < t.pclass) || decide (t.resv ≠ 0) ||
    (t.cls == 2 && decide (6 < t.param / 256 % 256))

/-- Word 0 of the record. -/
def Task.word0 (t : Task) : Nat :=
  (t.cls % 8) * 2 ^ 61 + (t.pinwhy % 8) * 2 ^ 58 + (t.steals % 4) * 2 ^ 56 + b2n t.bank * 2 ^ 55 + b2n t.idem * 2 ^ 54 +
    b2n t.ord * 2 ^ 53 + b2n t.ph * 2 ^ 52 + (t.home % 64) * 2 ^ 46 + (t.pclass % 4) * 2 ^ 44 + (t.resv % 8) * 2 ^ 41 +
    b2n t.dir * 2 ^ 40 + (t.op % 256) * 2 ^ 32 + (t.lenm1 % 256) * 2 ^ 24 + t.tag % 4096

/-- Word 3 of the record. -/
def Task.word3 (t : Task) : Nat :=
  (t.stile % 1024) * 2 ^ 54 + (t.srcNode % 2048) * 2 ^ 43 + (t.agent % 256) * 2 ^ 35 + (t.dcell % 2 ^ 17) * 2 ^ 18 +
    t.param % 2 ^ 18

/-! ### The perform gate (R133, R144) -/

/-- Whether the earlier task `e` lets a task of gate kind `kind` pass. -/
def StileTask.lets (e : StileTask) (kind addr len : Nat) : Bool :=
  let meet := rangesMeet e.addr e.len addr len
  if kind = 0 then
    if e.kind = 0 then e.done else if e.kind = 1 then !meet || e.completed else e.completed
  else if kind = 1 then
    if e.kind = 0 then !meet || e.done else if e.kind = 1 then true else e.completed
  else e.completed

/-- Tasks of the same stream that entered another stile before `e`: a stream of ring requests whose writes to send folds and output
images have fixed stiles keeps its order over them (R132, R146). -/
def State.streamBefore (s : State) (n : Nat) (e : StileTask) : List StileTask :=
  s.drv.stiles.flatMap (fun (p : Nat × Stile) =>
    if p.1 = n ∨ p.1 < 256 ∨ p.1 = 344 then [] else p.2.inflight.filter (fun f => f.stream == e.stream && decide (f.born < e.born)))

/-- The perform gate of the task's stile is open (R133); a malformed descriptor waits for nothing (R210). -/
def State.gateOpen (s : State) (t : Task) : Bool :=
  let lets := fun (l : List StileTask) => l.all (fun e => e.lets t.gate t.target t.len)
  let x := s.stileOf t.stile
  !t.ord || t.malformed || (lets (x.inflight.takeWhile (fun e => e.seq != t.seq)) &&
    (match x.inflight.find? (fun e => e.seq == t.seq) with
     | some e => t.stile < 256 || t.stile == 344 || lets (s.streamBefore t.stile e)
     | none => true))

def noOpen (_ : Nat) : List (Nat × Bool) := []
/-- The descriptors of an unordered ring not yet completed, oldest first (R144). A ring's number is its agent's (R143). -/
def State.ringOpen (s : State) (r : Nat) : List (Nat × Bool) := tget noOpen s.drv.ringOpen r
def State.setRingOpen (s : State) (r : Nat) (l : List (Nat × Bool)) : State :=
  { s with drv := { s.drv with ringOpen := tput noOpen s.drv.ringOpen r l } }

/-- In an unordered ring a FENCE or DONE waits for every descriptor fetched before it, and none fetched after it starts until it
has completed (R144). -/
def State.ringLets (s : State) (t : Task) : Bool :=
  if t.orig = 1 && !t.ord && !t.malformed then
    let before := (s.ringOpen t.agent).takeWhile (fun e => e.1 != t.index)
    if t.opcode = 0x13 ∨ t.opcode = 0x14 then before.isEmpty else before.all (fun e => !e.2)
  else true

/-! ### Field events (R107, R108, R294, R295) -/

/-- The message of a source is over: the events merged meanwhile make the next message (R108). `acked` says that its target has
acknowledged it, or that its route is off: only then an interrupt level re-arms (R105; log entry 39). -/
def State.msgDone (s : State) (kind item : Nat) (acked : Bool) : State :=
  let key := kind * 256 + item
  match s.source key with
  | none => s
  | some m =>
    let s := s.setSource key none
    if kind = 5 then if !acked then s else (s.setIh item { s.ihAt item with msgOpen := false }).rearm item
    else if m.merged = 0 then s
    else (s.setSource key (some ⟨m.route, m.merged, 0, s.frame % 65536, s.phase, 0⟩)).create (fieldTask s.nodeId kind item)

/-- The 16-byte entry of a message, with PHASE zero (R213, R253). -/
def State.messageBytes (s : State) (kind item : Nat) (m : SrcMsg) : List Byte :=
  leBytes 8 (2 ^ 60 + (kind % 256) * 2 ^ 52 + (m.count % 256) * 2 ^ 44 + (item % 256) * 2 ^ 36 + (s.nodeId % 2048) * 2 ^ 16 +
    m.frame % 65536) ++ leBytes 8 ((m.phase % 2 ^ 32) * 2 ^ 32 + m.vector % 2 ^ 32)

/-- The drover builds the message of a field event and hands it to LINK (R107, R108). -/
def State.sendMessage (s : State) (d kind item : Nat) : State :=
  match s.source (kind * 256 + item) with
  | none => s.endTask d St.OK 0 []
  | some m =>
    if !s.bit (F.VME_IRT_LO_EN m.route) then
      ((s.raise Code.VME_IRT_OFF Src.vmeIh []).endTask d St.OK 0 []).msgDone kind item true
    else
      let p : Packet := ⟨mkW0 (s.rd (F.VME_IRT_LO_TNODE m.route)) s.nodeId 0 0 Kind.MESSAGE false 0 0 0 0,
        mkMsgW1 1 (s.rd (F.VME_IRT_LO_CRING m.route)) (s.rd (F.VME_IRT_HI_MSIX_VEC m.route)) (s.bit (F.VME_IRT_LO_MSIX_EN m.route)),
        s.messageBytes kind item m⟩
      let r := s.issue p 0 (.msg kind item)
      let s := r.st.endTask d St.OK 0 []
      if r.ended.isSome then s.msgDone kind item false else s

/-- A poll step (R294, R295): the drover reads its entry and hands the request to the port, whose turnaround it then holds. -/
def State.pollStep (s : State) (d n : Nat) : State :=
  match s.execOf d, (s.sp n).pass with
  | some x, some i =>
    let r := s.ddrRead (s.pollAt n i) 32
    let bs := r.1.getD []
    let s := r.2
    let e := pollEntry bs
    let s := s.setExec d { x with buf := bs }
    if r.1.isNone || !e.ok then (s.raise Code.SP_POLL_BAD (Src.serial n) []).pollFail n d
    else
      let s := s.setExec d { x with phase := .field, buf := bs }
      let s := s.setDrover d { s.drover d with turn := some n }
      s.setSp n { s.sp n with pollReq := some (d, pollRequest e) }
  | _, _ => s.endTask d St.OK 0 []

/-- Perform a FIELD task. -/
def State.fieldGo (s : State) (d : Nat) (t : Task) : State :=
  let kind := t.param / 256 % 256
  let item := t.param % 256
  if kind = 6 then s.pollStep d item else s.sendMessage d kind item

/-! ### Running a task (R127, R134) -/

/-- A malformed descriptor: nothing is performed (R210). -/
def State.descRefuse (s : State) (d : Nat) (t : Task) : State :=
  let s := if t.orig = 0 then s
    else
      (s.raise Code.HST_DESC_BAD Src.fetcher ([t.agent, t.index] ++ lohi (descWord t.desc 0))).bump K.HST_CNT_DESC_BAD
  s.endTask d St.DESC_BAD 0 []

/-- A descriptor of class CTRL fetched at SAFE is refused (R365); a store so refused is never sent (R151). -/
def State.safeDesc (s : State) (d : Nat) (t : Task) : State :=
  let s := if storeBad t.opcode St.ADDR_ERROR then s.storeUnsent t.key else s
  (s.raiseCap Code.ADR_SAFE Src.packet [] (t.cap 1)).endTask d St.ADDR_ERROR 0 []

/-- The gate is open: the task's action. A descriptor, a claim, commit, atomic or barrier, and an access to a fold head are
performed by their own commands. -/
def State.perform (s : State) (d : Nat) (x : Exec) : State :=
  let t := x.task
  let s := s.setExec d { x with phase := .ready }
  if t.orig = 2 then s.fieldGo d t
  else if t.dir then s.descGo d
  else if t.refused then s.safeDesc d t
  else if t.desc ≠ [] then (if descBad t.desc then s.descRefuse d t else s)
  else if t.op = 0x01 ∨ t.op = 0x02 ∨ t.op = 0x03 then s.homeAccess d t
  else s

/-- A task at its gate passes when it is open. -/
def State.tryGate (s : State) (d : Nat) (x : Exec) : State :=
  if s.gateOpen x.task && s.ringLets x.task then s.perform d x else s

/-- A task in execution that has just been popped or stolen. -/
def Exec.start (t : Task) : Exec :=
  { task := t, phase := .gate, pieces := [], done := 0, buf := t.data, subs := [], next := 0, err := none, toWrite := []
    resolved := [], part := [], missed := false, aux := 0, cells := t.dataCells, result := none }

/-- Drover `d` takes a task into execution. -/
def State.begin (s : State) (d : Nat) (t : Task) : State :=
  let s := s.setDrover d { s.drover d with exec := some (Exec.start t), lastReq := some (t.srcNode, t.agent), asleep := false }
  if t.bad then
    ((s.raise Code.DRV_TASK_BAD (Src.drover d) (lohi t.word0 ++ lohi t.word3)).dropExec d).taskBoundary (.drover d)
  else
    let f := s.droverFetch d
    if f.1 then f.2.tryGate d (Exec.start t) else f.2

/-- Go on with the task in execution: at its gate, or where it waited for its agent's earlier accesses. -/
def State.resume (s : State) (d : Nat) (x : Exec) : State :=
  if x.phase = .gate then s.tryGate d x
  else if x.phase = .ordWait then
    if x.task.dir = true ∨ x.task.desc ≠ [] then s.descGo d
    else if x.task.op = 0x14 then s.homeDone d x.task
    else s
  else s

def taskRun (drover : Nat) (s : State) : State :=
  let v := s.drover drover
  if v.st ≠ .running then s
  else match v.exec with
    | some x => s.resume drover x
    | none =>
      if v.asleep || !s.drvEn drover then s
      else
        match s.popTask drover with
        | (none, s, es) => s.fire fireFuel es
        | (some t, s, es) => (s.fire fireFuel es).begin drover t

def execTaskRun (drover : Nat) (s : State) : Host.Outcome State Fault Refusal := .next (whenUp .core (taskRun drover) s)

/-! ### Stealing (R128 to R130) -/

/-- The eligible tasks of a victim's fold, oldest first (R128). -/
def State.eligible (s : State) (thief victim : Nat) : List Task :=
  (((s.drover victim).fold.take 4).filter (fun t => t.pinwhy == 0)).filter (fun t => !s.drvRsv thief || t.reservedKind)

/-- A victim is examined: enabled, or revoked, reloading or removed (R128, R139). -/
def State.examines (s : State) (victim : Nat) : Bool :=
  s.drvEn victim || decide ((s.drover victim).st = .reloading) || decide ((s.drover victim).st = .removed)

/-- The drovers of block `b` in round-robin order after `last`. -/
def blockOrder (b last : Nat) : List Nat := (List.range 8).map (fun i => 8 * b + (last + 1 + i) % 8)

/-- The first victim of block `b` that meets the threshold. -/
def State.victimIn (s : State) (thief b last min : Nat) : Option Nat :=
  (blockOrder b last).find? (fun v => v != thief && s.examines v && decide (min ≤ (s.eligible thief v).length))

/-- A stolen task: STEALS counts up to 2, where it is pinned (R126, R129). STEALS of a task that a drover's revocation unpinned stays at
2, since 3 is reserved (R121, R139; DEDUCED, log entry 45). -/
def Task.stolen (t : Task) : Task :=
  let n := min 2 (t.steals + 1)
  { t with steals := n, pinwhy := if n = 2 then 4 else t.pinwhy }

/-- What each task moved counts (R130). -/
def State.countSteal (s : State) (thief victim : Nat) : State :=
  let s := (s.bump (K.DRV_D_STOLE thief)).bump (K.DRV_D_LOSS victim)
  s.bump (if thief / 8 = victim / 8 then K.DRV_BLK_LOCAL (thief / 8) else K.DRV_BLK_CROSS (thief / 8))

/-- One task moves from the victim's fold to the thief's, its cells with it (R129). -/
def State.moveTask (s : State) (thief victim : Nat) (t : Task) : State :=
  (State.events ((State.events (s.pullTask victim t t.cells)).putTask thief t.stolen)).countSteal thief victim

/-- Take from a victim, whose pointers are compared first (R129, R193): the oldest task goes into execution, with its data cells, and
the rest into the thief's fold. -/
def State.takeFrom (s : State) (thief victim : Nat) : State :=
  let chk := s.pointerCheck victim
  let s := chk.2.1.fire fireFuel chk.2.2
  let es := s.eligible thief victim
  match es.take (min (s.rd F.DRV_STEAL_BATCH) ((es.length + 1) / 2)) with
  | [] => s
  | t :: rest =>
    let s := ((State.events (s.pullTask victim t t.cells)).takeCells thief t.dataCells).countSteal thief victim
    (rest.foldl (fun (s : State) t => s.moveTask thief victim t) s).begin thief t.stolen

/-- The sweep across blocks (R128): the block and victim found, and the last drover examined in each block. -/
def State.sweepBlocks (s : State) (thief : Nat) : List Nat → List Nat → Option (Nat × Nat) × List Nat
  | [], last => (none, last)
  | b :: bs, last =>
    match s.victimIn thief b (getAt 0 last b) (s.rd F.DRV_STEAL_REMOTE_MIN) with
    | some v => (some (b, v), setAt last b (v % 8))
    | none => s.sweepBlocks thief bs last

/-- A sweep and the steal it ends with, or sleep (R127, R128, R130). A round of a whole block leaves its pointer where it was. -/
def State.steal (s : State) (d : Nat) : State :=
  let v := s.drover d
  let b := d / 8
  match s.victimIn d b v.lastLocal (s.rd F.DRV_STEAL_LOCAL_MIN) with
  | some w => (s.setDrover d { v with lastLocal := w % 8 }).takeFrom d w
  | none =>
    let others := if s.bit F.DRV_STEAL_CROSS_EN then
        ((List.range 8).map (fun i => (v.lastBlock + 1 + i) % 8)).filter (· != b) else []
    match s.sweepBlocks d others v.lastIn with
    | (some (c, w), last) => (s.setDrover d { v with lastBlock := c, lastIn := last }).takeFrom d w
    | (none, _) => s.setDrover d { v with asleep := true }

/-- An idle drover, its own fold empty, sweeps; with stealing off it goes to sleep at once (R127). -/
def droverSteal (drover : Nat) (s : State) : State :=
  let v := s.drover drover
  if v.st = .running ∧ v.exec = none ∧ v.fold = [] ∧ s.drvEn drover = true ∧ v.asleep = false then
    if s.bit F.DRV_CTL_STEAL_EN then s.steal drover else s.setDrover drover { v with asleep := true }
  else s

def execDroverSteal (drover : Nat) (s : State) : Host.Outcome State Fault Refusal := .next (whenUp .core (droverSteal drover) s)

/-- A sleeping drover is due to wake (R127, R421). Where several are due in one CORE cycle, the sender sends them in ascending number
(DESIGN CHOICE, log entry 48). -/
def droverSleepEnd (drover : Nat) (s : State) : State :=
  if (s.drover drover).asleep then s.droverDue (drover, false) else s

def execDroverSleepEnd (drover : Nat) (s : State) : Host.Outcome State Fault Refusal :=
  .next (whenUp .core (droverSleepEnd drover) s)

/-- Waiting creations go on as limits clear (R124, R132, R180). -/
def execStileWaitClear (s : State) : Host.Outcome State Fault Refusal := .next (whenUp .core State.retryWaiting s)

/-! ### Results and the release gate (R135, R136) -/

/-- A status that would have been OK becomes LATE when the stamp had passed at arrival (R212). -/
def Task.status (t : Task) (status : Nat) : Nat := if t.late = true ∧ status = St.OK then St.LATE else status

/-- The completion ring of a descriptor: its command ring's, or its schedule entry's (R213, R329). -/
def State.cqOf (s : State) (t : Task) : Nat :=
  if t.orig = 1 then s.rd (F.HST_CR_CTL_CQ t.agent) else s.rd (F.CAD_SCH_CTL_CRING t.index)

/-- A descriptor's completion writes no entry: QUIET suppresses OK (R212). -/
def Task.quiet (t : Task) (r : TaskResult) : Bool := dQuiet t.desc && decide (t.status r.status = St.OK)

/-- The response to a request served here. A request turned back by the node itself is answered to the node itself (R31). -/
def State.answerRequest (s : State) (t : Task) (r : TaskResult) : State :=
  let src := if t.link = 1 then s.nodeId else t.srcNode
  let op := if t.desc = [] then t.op else 0x7F
  let st := t.status r.status
  let lenm1 := if t.desc = [] then t.lenm1 else 0
  -- a descriptor's RESULT is 8 bytes; only reads return data, and none when they end in error (R77, R253)
  let payload :=
    if t.desc ≠ [] then (if r.payload = [] then [] else leBytes 8 (leNum (r.payload.take 8)))
    else if performed st = true ∧ (op = 0x01 ∨ op = 0x10 ∨ op = 0x12) then r.payload else []
  s.respond ⟨mkW0 s.nodeId src t.tag t.pclass Kind.REQUEST t.ord 0 t.agent op lenm1, 0, []⟩ st r.bytesDone payload

/-- A descriptor completes, its effect done and a READ's data in BUF (R214): an exception of its agent where it failed (R164), its ring entry (R213), the open list of its ring. -/
def State.completeDesc (s : State) (t : Task) (r : TaskResult) : State :=
  let st := t.status r.status
  let s := if st = St.OK ∨ st = St.LATE then s else s.exception t.key
  let s := if t.orig = 1 ∧ t.ord = false then
      s.setRingOpen t.agent ((s.ringOpen t.agent).filter (fun e => e.1 != t.index)) else s
  if t.quiet r then s
  else s.cqPost (cmdEntry (s.cqOf t) st t.agent r.bytesDone t.index (leNum (r.payload.take 8)))

/-- Send a result. -/
def State.sendResult (s : State) (t : Task) (r : TaskResult) : State :=
  if t.orig = 2 then
    let n := t.param % 256
    if t.param / 256 % 256 = 6 then s.pollNext n
    else if r.status = St.OK then s
    else s.msgDone (t.param / 256 % 256) n false
  else if t.dir then s.slaveResult t r
  else if t.orig = 0 then s.answerRequest t r
  else s.completeDesc t r

/-- The result writes a completion entry, and the queue has no room for it (R215). -/
def State.resultWaits (s : State) (t : Task) (r : TaskResult) : Bool :=
  (t.orig == 1 || t.orig == 3) && !t.dir && !t.quiet r && !s.cqRoom

/-- A task leaves its stile; a dynamic stile with none left in flight is freed (R132). -/
def State.leaveStile (s : State) (n seq next : Nat) : State :=
  let x := s.stileOf n
  let left := x.inflight.filter (fun e => e.seq != seq)
  let x := { x with inflight := left, nextRelease := next, stream := if left = [] then none else x.stream }
  let s := s.setStile n x
  if 352 ≤ n ∧ left = [] then s.wr F.DRV_STILE_STAT_INUSE (s.rd F.DRV_STILE_STAT_INUSE - 1) else s

/-- Parked results whose turn has come are sent (R135); `fuel` bounds their number. -/
def State.drain : Nat → Nat → State → State
  | 0, _, s => s
  | k + 1, n, s =>
    let x := s.stileOf n
    match takeFirst (fun (p : Nat × Task × TaskResult) => p.1 == x.nextRelease) x.parked with
    | none => s
    | some ((q, t, r), rest) =>
      if s.resultWaits t r then s
      else
        let s := (s.setStile n { x with parked := rest }).leaveStile n q ((q + 1) % 65536)
        (s.sendResult t r).drain k n

/-- The release gate (R135): the entries of an ordered ring's descriptors are written in ring order, those of an unordered ring in the
order the descriptors complete (R214). The result of a sequence it has skipped is sent at once (R136). -/
def State.passGate (s : State) (t : Task) (r : TaskResult) : State :=
  if t.ord && t.entered then
    let x := s.stileOf t.stile
    if !x.inflight.any (fun e => e.seq == t.seq) then s.sendResult t r
    else if t.seq = x.nextRelease then
      ((s.leaveStile t.stile t.seq ((t.seq + 1) % 65536)).sendResult t r).drain 256 t.stile
    else s.setStile t.stile { x with parked := x.parked ++ [(t.seq, t, r)] }
  else s.sendResult t r

/-- A result reaches its gate: that of a drover's task, or the oldest of those other units built. A result whose completion entry
finds no room waits (R215). -/
def State.resultGo (s : State) (drover : Nat) : State :=
  if drover < 64 then
    match s.execOf drover with
    | some x => match x.result with
      | some r =>
        if s.resultWaits x.task r then s
        else ((s.handOver drover).bump (K.DRV_D_RUN drover)).passGate x.task r
      | none => s
    | none => s
  else match s.drv.results with
    | (t, r) :: rest => if s.resultWaits t r then s else ({ s with drv := { s.drv with results := rest } }).passGate t r
    | [] => s.drv.stiles.foldl (fun (s : State) (e : Nat × Stile) => s.drain 256 e.1) s

/-- Tasks at a perform gate that has opened go on (R133). -/
def State.gatesPass (s : State) : State :=
  (List.range 64).foldl (fun (s : State) d =>
    match s.execOf d with
    | some x => if x.phase = .gate ∧ (s.drover d).st = .running then s.tryGate d x else s
    | none => s) s

def stileResult (drover : Nat) (s : State) : State := (s.resultGo drover).gatesPass

def execStileResult (drover : Nat) (s : State) : Host.Outcome State Fault Refusal := .next (whenUp .core (stileResult drover) s)

/-- Some task of the sequence remains: in a fold, in execution, waiting, held by the cadence unit, or with its result under way. -/
def State.seqAlive (s : State) (n seq : Nat) : Bool :=
  let is := fun (t : Task) => t.ord && t.entered && t.stile == n && t.seq == seq
  s.drv.drv.any (fun (e : Nat × Drover) => e.2.fold.any is || (match e.2.exec with | some x => is x.task | none => false)) ||
    s.drv.waiting.any is || s.drv.results.any (fun e => is e.1) || s.cad.hold.any (fun e => is e.task) ||
    s.cad.holdWait.any (fun e => is e.task)

/-- The awaited sequence of a stile is lost (R136). -/
def State.seqLost (s : State) (n : Nat) : Bool :=
  let x := s.stileOf n
  x.parked != [] && x.parked.all (fun p => p.1 != x.nextRelease) && !s.seqAlive n x.nextRelease

/-- TO_US passes: the gate skips the sequence, which counts as done and completed (R136). -/
def drvStileSkip (stile : Nat) (s : State) : State :=
  if s.seqLost stile then
    let q := (s.stileOf stile).nextRelease
    let s := (s.raise Code.DRV_STILE_SKIP Src.stile [stile, q]).bump K.DRV_CNT_STILE_SKIP
    ((s.leaveStile stile q ((q + 1) % 65536)).drain 256 stile).gatesPass
  else s

def execDrvStileSkip (stile : Nat) (s : State) : Host.Outcome State Fault Refusal :=
  .next (whenUp .core (drvStileSkip stile) s)

/-! ### Revocation and reload (R137, R140, R141) -/

/-- Phases in which the watchdog counts (R137): not at a gate, nor while another timer bounds the wait, nor once the task has
completed. A wait for the agent's earlier accesses counts, except a DONE request's at its target; a held turnaround's reply does not,
once the frame is sent. -/
def State.wdogCounts (s : State) (d : Nat) : Bool :=
  match s.execOf d with
  | none => false
  | some x =>
    match x.phase with
    | .ready | .host | .held => true
    | .ordWait => !(x.task.orig == 0 && x.task.opcode == 0x14)
    | .field => (match (s.drover d).turn with
      | some n => !(s.sp n).turn
      | none => true)
    | .bus => decide (s.vme.owner = some (.drover d)) && !s.vme.strobed && !s.vme.gap.contains (.drover d)
    | _ => false

def drvWdog (drover : Nat) (s : State) : State := if s.wdogCounts drover then s.revoke drover Code.DRV_WDOG else s

def execDrvWdog (drover : Nat) (s : State) : Host.Outcome State Fault Refusal := .next (whenUp .core (drvWdog drover) s)

/-- An uncorrectable error in a drover's own memory (R137). -/
def execDrvMemUe (drover : Nat) (s : State) : Host.Outcome State Fault Refusal :=
  .next (whenUp .core (fun s => if drover < 64 then s.revoke drover Code.DRV_MEM_UE else s) s)

/-- An illegal firmware word or address (R137). -/
def execDrvTrap (drover : Nat) (s : State) : Host.Outcome State Fault Refusal :=
  .next (whenUp .core (fun s => if drover < 64 then s.revoke drover Code.DRV_TRAP else s) s)

/-- The code in a drover's memory has the image's check value (R140). -/
def State.codeGood (s : State) (d : Nat) : Bool := (crc32c (s.drover d).code).toNat == s.boot.goldenCrc

/-- The reload of a drover is under way: the steps of R138 before it have ended, and it does not yet wait to go. -/
def State.reloadRuns (s : State) (d : Nat) : Bool :=
  decide ((s.drover d).st = .reloading) && !(match s.job d with | some j => j.cut | none => false) &&
    !s.drv.wakeWait.any (fun e => e.1 == d)

/-- Reload ends (R140): the golden code is copied, the data cleared and the code checked. The drover is due to rejoin, or its check
fails and it is removed. `ok` says that the words read back as they were written. -/
def drvReloadDone (drover : Nat) (ok : Bool) (s : State) : State :=
  if s.reloadRuns drover then
    let s := s.loadDrover drover
    if ok && s.codeGood drover then s.droverDue (drover, true)
    else (s.raise Code.DRV_RELOAD_FAIL (Src.drover drover) []).droverRemove drover
  else s

def execDrvReloadDone (drover : Nat) (ok : Bool) (s : State) : Host.Outcome State Fault Refusal :=
  .next (whenUp .core (drvReloadDone drover ok) s)

end Sys2Proof.Machine
end

