-- ==== Sys2Proof/Machine/Opcodes.lean ====
section
/-! DEFINITION. The commands of the descriptor opcodes (R155, R162, R165, R209 to R212, R253, R394 to R398, R428, R440, R448). -/

namespace Sys2Proof.Machine

/-- Do `f` with the task drover `d` runs where it may start or go on, when `want` takes it. -/
def State.onTask (s : State) (d : Nat) (want : Task → Bool) (f : Exec → State → State) : State :=
  match s.execOf d with
  | some x =>
    if (x.phase = .ready ∨ x.phase = .ordWait) ∧ x.task.dir = false ∧ x.task.orig ≠ 2 ∧ want x.task = true then f x s else s
  | none => s

/-- A descriptor with opcode `op` and SUBOP `sub`. -/
def isDesc (op sub : Nat) (t : Task) : Bool := t.desc != [] && dOp t.desc == op && dSub t.desc == sub

/-- A ring request with opcode `op`. -/
def isRing (op : Nat) (t : Task) : Bool := t.desc == [] && t.op == op

/-- A descriptor that moves bytes or makes one request: its drover issues what it may, here or by forwarding. -/
def State.descRun (s : State) (d op sub : Nat) : State := s.onTask d (isDesc op sub) (fun _ s => s.descGo d)

/-- A CLAIM, COMMIT or ATOMIC, as a descriptor or at its home node. -/
def State.rmwRun (s : State) (d op sub : Nat) : State :=
  let own := fun (t : Task) => isRing op t && (op != 0x12 || (getAt 0 t.data 0).toNat == sub)
  s.onTask d (fun t => isDesc op sub t || own t) (fun x s => if x.task.desc = [] then s.homeRmw d x.task else s.descGo d)

def execRead (drover : Nat) (s : State) : Host.Outcome State Fault Refusal := .next (whenUp .core (fun s => s.descRun drover 0x01 0) s)
def execWrite (drover : Nat) (s : State) : Host.Outcome State Fault Refusal := .next (whenUp .core (fun s => s.descRun drover 0x02 0) s)
def execWriteNt (drover : Nat) (s : State) : Host.Outcome State Fault Refusal := .next (whenUp .core (fun s => s.descRun drover 0x03 0) s)
def execCopy (drover : Nat) (s : State) : Host.Outcome State Fault Refusal := .next (whenUp .core (fun s => s.descRun drover 0x04 0) s)
def execFill (drover : Nat) (s : State) : Host.Outcome State Fault Refusal := .next (whenUp .core (fun s => s.descRun drover 0x05 0) s)
def execClaim (drover : Nat) (s : State) : Host.Outcome State Fault Refusal := .next (whenUp .core (fun s => s.rmwRun drover 0x10 0) s)
def execCommit (drover : Nat) (s : State) : Host.Outcome State Fault Refusal := .next (whenUp .core (fun s => s.rmwRun drover 0x11 0) s)
def execFetchAdd (drover : Nat) (s : State) : Host.Outcome State Fault Refusal := .next (whenUp .core (fun s => s.rmwRun drover 0x12 0) s)
def execSwap (drover : Nat) (s : State) : Host.Outcome State Fault Refusal := .next (whenUp .core (fun s => s.rmwRun drover 0x12 1) s)
def execCmpSwap (drover : Nat) (s : State) : Host.Outcome State Fault Refusal := .next (whenUp .core (fun s => s.rmwRun drover 0x12 2) s)

/-! ### Barriers (R149 to R153, R212) -/

/-- A FENCE: one of this node's agents', or a BARRIER task that completes once its gate has opened. -/
def State.fenceRun (s : State) (d : Nat) : State :=
  let want := fun (t : Task) => (t.desc != [] && dOp t.desc == 0x13) || isRing 0x13 t
  s.onTask d want (fun x s => if x.task.orig = 0 then s.endTask d St.OK 0 [] else s.descGo d)

def execFence (drover : Nat) (s : State) : Host.Outcome State Fault Refusal := .next (whenUp .core (fun s => s.fenceRun drover) s)

/-- A DONE: one of this node's agents', or the request of another agent at this target. -/
def State.doneRun (s : State) (d : Nat) : State :=
  s.onTask d (fun t => isDesc 0x14 0 t || isRing 0x14 t)
    (fun x s => if x.task.orig = 0 then s.homeDone d x.task else s.descGo d)

def execDone (drover : Nat) (s : State) : Host.Outcome State Fault Refusal := .next (whenUp .core (fun s => s.doneRun drover) s)

/-- DONE_TO_MS passes (R153): the answers still to come find nobody. -/
def doneTimeout (d : Nat) (s : State) : State :=
  match s.execOf d with
  | some x =>
    if x.task.orig ≠ 0 ∧ isDesc 0x14 0 x.task = true ∧ x.aux ≠ 0 ∧ (x.phase = .ordWait ∨ x.phase = .ring) then
      ((s.orphan d).bump K.CHIP_CNT_DONE_FAIL).endTask d St.DONE_TIMEOUT 0 []
    else s
  | none => s

def execDoneTimeout (drover : Nat) (s : State) : Host.Outcome State Fault Refusal := .next (whenUp .core (doneTimeout drover) s)

/-- PHASE_WAIT that the cadence unit has let go (R209, R212). -/
def State.phaseWaitRun (s : State) (d : Nat) : State :=
  s.onTask d (isDesc 0x15 0) (fun x s => if s.executesAway x.task then s.descGo d else s.endTask d St.OK 0 [])

def execPhaseWait (drover : Nat) (s : State) : Host.Outcome State Fault Refusal :=
  .next (whenUp .core (fun s => s.phaseWaitRun drover) s)

/-! ### What this node executes for a descriptor (R209, R253) -/

/-- Do `f` with the descriptor where it executes here; forward it otherwise. An address that the originator refuses goes no
further (R29, R37). -/
def State.execHere (s : State) (d op sub : Nat) (f : Exec → State → State) : State :=
  s.onTask d (isDesc op sub) (fun x s =>
    let t := x.task
    if s.executesAway t then s.descGo d
    else match if t.orig = 0 then none else originFault op (dAddr t.desc) (dLen t.desc) with
      | some code =>
        let s := s.originRefuse code op (dAddr t.desc) (dLen t.desc) t.agent t.pclass false
        (if isStoreOp op then s.storeUnsent t.key else s).endTask d St.ADDR_ERROR 0 []
      | none => f x s)

/-- The task as an access to its descriptor's ADDR. -/
def Task.asAccess (t : Task) : Task :=
  { t with op := dOp t.desc, addr := dAddr t.desc, lenm1 := (dLen t.desc - 1) % 256 }

/-- An address at which the opcode cannot be performed: ADDR_ERROR. -/
def State.descAddrError (s : State) (d code : Nat) (t : Task) : State :=
  ((s.decodeRaise t.asAccess code).noteStore t).finishDesc d St.ADDR_ERROR 0 [] true

/-! #### Field ports -/

/-- The port behind a head is enabled and may send or receive (R209, R364, R365). -/
def State.headOn (s : State) (h : Nat) : Bool :=
  !s.portsSafe &&
    (if h < 64 then s.bit (F.SP_CTL_EN h) else if h < 128 then s.bit (F.SP_CTL_EN (h - 64))
     else if h < 144 then s.bit (F.CF_CTL_EN (h - 128)) else s.bit (F.CF_CTL_EN (h - 144)))

/-- The head at +0x000 that ADDR names. -/
def descHead (t : Task) (send : Bool) : Option Nat :=
  match regionOf (faOffset (dAddr t.desc)) with
  | .sendHead h => if send && faOffset (dAddr t.desc) % 0x1000 == 0 then some h else none
  | .recvHead h => if !send && faOffset (dAddr t.desc) % 0x1000 == 0 then some h else none
  | _ => none

/-- SEND (R209, R364, R365). -/
def State.sendRun (s : State) (d : Nat) : State :=
  s.execHere d 0x20 0 (fun x s =>
    let t := x.task
    match descHead t true with
    | none => s.descAddrError d Code.ADR_RESERVED t
    | some h =>
      if x.phase = .ready ∧ s.headOn h = false then (s.noteStore t).finishDesc d St.PORT_OFF 0 [] true
      else s.moveGo moveFuel d)

def execSend (drover : Nat) (s : State) : Host.Outcome State Fault Refusal := .next (whenUp .core (fun s => s.sendRun drover) s)

/-- RECV_POST (R209): posted, or the entries of its packet on their way to BUF. -/
def State.recvRun (s : State) (d : Nat) : State :=
  s.execHere d 0x21 0 (fun x s =>
    let t := x.task
    match descHead t false with
    | none => s.descAddrError d Code.ADR_RESERVED t
    | some h =>
      if t.data ≠ [] then s.moveGo moveFuel d
      else if s.headOn h = false then (s.noteStore t).finishDesc d St.PORT_OFF 0 [] true
      else if 256 ≤ s.postsOpen then (s.noteStore t).finishDesc d St.POST_FULL 0 [] true
      else
        let s := (s.handOver d).noteStore t
        let p : Post := ⟨t, h⟩
        let s : State := { s with fold := { s.fold with posts := s.fold.posts ++ [p] } }
        State.events (s.servePost (s.headFold h)))

def execRecvPost (drover : Nat) (s : State) : Host.Outcome State Fault Refusal := .next (whenUp .core (fun s => s.recvRun drover) s)

/-- The wait limit of a post expires (R209). -/
def recvPostExpiry (post : Nat) (s : State) : State :=
  match s.fold.posts[post]? with
  | some p =>
    if dOperand p.task.desc 0 = 0 then s
    else
      let s : State := { s with fold := { s.fold with posts := s.fold.posts.eraseIdx post } }
      s.detachResult p.task ⟨St.OK, 0, []⟩
  | none => s

def execRecvPostExpiry (post : Nat) (s : State) : Host.Outcome State Fault Refusal := .next (whenUp .core (recvPostExpiry post) s)

/-- IRQ_RAISE (R110): the raise leaves the drover. -/
def State.irqRun (s : State) (d : Nat) : State :=
  s.execHere d 0x22 0 (fun x s =>
    ((s.handOver d).noteStore x.task).raiseVector ⟨BitVec.ofNat 32 (dOperand x.task.desc 0), some x.task, none, false⟩)

def execIrqRaise (drover : Nat) (s : State) : Host.Outcome State Fault Refusal := .next (whenUp .core (fun s => s.irqRun drover) s)

/-! #### Set-up registers -/

/-- Why ADDR is not a set-up register that the access may take (R3, R209). -/
def State.setupFault (s : State) (t : Task) : Option Nat :=
  let off := faOffset (dAddr t.desc)
  match s.decodeFault t.bank (dOp t.desc) off (dLen t.desc) with
  | some code => some code
  | none => if regionOf off = .setup then none else some Code.ADR_RESERVED

/-- STATUS with SUBOP REG (R209). -/
def State.statusRegRun (s : State) (d : Nat) : State :=
  s.execHere d 0x30 0 (fun x s =>
    let t := x.task
    match s.setupFault t with
    | some code => s.descAddrError d code t
    | none =>
      let r := s.setupRead (faOffset (dAddr t.desc) - 0x3000000000) (dLen t.desc)
      r.2.endTask d St.OK (dLen t.desc) (leBytes 8 (leNum r.1)))

def execStatusReg (drover : Nat) (s : State) : Host.Outcome State Fault Refusal :=
  .next (whenUp .core (fun s => s.statusRegRun drover) s)

/-- STATUS with SUBOP NONCE (R395). -/
def State.statusNonceRun (s : State) (d : Nat) : State :=
  s.execHere d 0x30 1 (fun _ s => s.endTask d St.OK 0 (leBytes 8 s.recd.nonce))

def execStatusNonce (drover : Nat) (s : State) : Host.Outcome State Fault Refusal :=
  .next (whenUp .core (fun s => s.statusNonceRun drover) s)

/-- A register of the write has STAGED fields, and the old bank retires: the write is held (R441). -/
def State.stageWaits (s : State) (off len : Nat) : Bool :=
  let staged := fun (o : Nat) => match regAt o with | some r => r.hasStaged | none => false
  s.bit F.CHIP_COMMIT_STAT_RETIRING && (staged off || (len == 8 && staged (off + 4)))

/-- CONFIG_STAGE (R209, R441). -/
def State.configStageRun (s : State) (d : Nat) : State :=
  s.execHere d 0x40 0 (fun x s =>
    let t := x.task
    match s.setupFault t with
    | some code => s.descAddrError d code t
    | none =>
      let off := faOffset (dAddr t.desc) - 0x3000000000
      let n := dLen t.desc
      if s.stageWaits off n then s.setExec d { x with phase := .held, aux := 442 }
      else
        let r := s.setupWrite off ((leBytes 8 (dOperand t.desc 0)).take n) t.srcNode t.agent
        let s := r.st.noteStore t
        let s := if r.range then s.storeFailed t.srcNode t.agent else s
        if r.late || r.range then s.endTask d St.CFG_REFUSED 0 [] else s.endTask d St.OK n [])

def execConfigStage (drover : Nat) (s : State) : Host.Outcome State Fault Refusal :=
  .next (whenUp .core (fun s => s.configStageRun drover) s)

/-- A CONFIG_COMMIT waits for its commit (R440). -/
def State.commitWait (s : State) (d : Nat) (t : Task) (target : Option Nat) : State :=
  let s := (s.handOver d).noteStore t
  { s with commits := s.commits ++ [⟨t, target, s.commitPending, false⟩] }

/-- CONFIG_COMMIT with SUBOP NEXT. -/
def State.commitNextRun (s : State) (d : Nat) : State := s.execHere d 0x41 0 (fun x s => s.commitWait d x.task none)

def execConfigCommitNext (drover : Nat) (s : State) : Host.Outcome State Fault Refusal :=
  .next (whenUp .core (fun s => s.commitNextRun drover) s)

/-- CONFIG_COMMIT with SUBOP NAMED: TARGET rises to the period it names. -/
def State.commitNamedRun (s : State) (d : Nat) : State :=
  s.execHere d 0x41 1 (fun x s =>
    let n := dOperand x.task.desc 0 % 2 ^ 32
    let s := if s.commitTarget < n then (s.wr F.CHIP_COMMIT_TARGET_LO_TARGET n).wr F.CHIP_COMMIT_TARGET_HI_TARGET 0 else s
    s.commitWait d x.task (some n))

def execConfigCommitNamed (drover : Nat) (s : State) : Host.Outcome State Fault Refusal :=
  .next (whenUp .core (fun s => s.commitNamedRun drover) s)

/-- MIRROR_MARK (R354): it stands in the open epoch, or twin operation is off. -/
def State.markRun (s : State) (d : Nat) : State :=
  s.execHere d 0x50 0 (fun x s =>
    let t := x.task
    let s := s.noteStore t
    if s.twinOn && s.crook && !s.twin.fencing then
      let s := s.handOver d
      { s with twin := { s.twin with marks := s.twin.marks ++ [(dOperand t.desc 0, t)] } }
    else s.finishDesc d St.TWIN_OFF 0 [] true)

def execMirrorMark (drover : Nat) (s : State) : Host.Outcome State Fault Refusal := .next (whenUp .core (fun s => s.markRun drover) s)

/-! #### The event recorder -/

/-- LOG_READ (R394): only from the recorder window, at a multiple of 32. -/
def State.logReadRun (s : State) (d : Nat) : State :=
  s.onTask d (isDesc 0x31 0) (fun x s =>
    let t := x.task
    if s.executesAway t then s.descGo d
    else if regionOf (faOffset (dAddr t.desc)) = .recorder ∧ dAddr t.desc % 32 = 0 then s.descGo d
    else ((s.decodeRaise t.asAccess Code.ADR_RECORDER)).endTask d St.ADDR_ERROR 0 [])

def execLogRead (drover : Nat) (s : State) : Host.Outcome State Fault Refusal := .next (whenUp .core (fun s => s.logReadRun drover) s)

/-- The 32 bytes of the authentication code (R209). -/
def descMac (t : Task) : List Byte := slice t.desc 24 32

/-- A LOG_CLEAR (R396): `f` when it is authorised. -/
def State.authorised (s : State) (d sub : Nat) (f : Exec → State → State) : State :=
  s.execHere d 0x32 sub (fun x s =>
    let t := x.task
    match s.authStep sub (dBuf t.desc) (descMac t) with
    | some cause => ((s.authFail sub t.srcNode t.agent cause).noteStore t).finishDesc d St.AUTH_FAIL 0 [] true
    | none => f x (s.authOk.noteStore t))

/-- LOG_CLEAR with SUBOP CLEAR (R398); one waits while another zeroes. -/
def State.logClearRun (s : State) (d : Nat) : State :=
  if s.recd.clearing.isSome then s
  else s.authorised d 0 (fun x s => (s.handOver d).clearBegin x.task)

def execLogClearClear (drover : Nat) (s : State) : Host.Outcome State Fault Refusal :=
  .next (whenUp .core (fun s => s.logClearRun drover) s)

/-- LOG_CLEAR with SUBOP MON_UNLOCK (R448). -/
def State.monUnlockRun (s : State) (d : Nat) : State :=
  s.authorised d 1 (fun x s =>
    let s := (s.wr F.SVC_STAT_LOCKED 0).raise Code.SVC_UNLOCK Src.monitor [0, x.task.srcNode * 2 ^ 16 + x.task.agent * 2 ^ 8]
    s.endTask d St.OK 0 [])

def execMonUnlock (drover : Nat) (s : State) : Host.Outcome State Fault Refusal := .next (whenUp .core (fun s => s.monUnlockRun drover) s)

/-- LOG_CLEAR with SUBOP RESET (R428): the reset is due. -/
def State.logResetRun (s : State) (d : Nat) : State :=
  s.authorised d 2 (fun x s =>
    let s := s.raise Code.CHIP_RESET_CMD Src.mgmt [0, x.task.srcNode * 2 ^ 16 + x.task.agent * 2 ^ 8]
    ({ s with boot := { s.boot with resetDue := true } }).endTask d St.OK 0 [])

def execLogClearReset (drover : Nat) (s : State) : Host.Outcome State Fault Refusal :=
  .next (whenUp .core (fun s => s.logResetRun drover) s)

end Sys2Proof.Machine
end

