-- ==== Sys2Proof/Machine/Drop.lean ====
section
/-! DEFINITION. Requests at the drop point become tasks (R31, R32, R122, R132, R253, R365), and accesses to fold heads (R188, R189). -/

namespace Sys2Proof.Machine

/-! ### Requests taken at the drop point -/

/-- The unit a packet came by: 0 side W, 2 side E, 1 turned back by the node itself (R31). -/
def linkOf (queue : Nat) : Nat := if queue = 0 then 0 else if queue = 1 then 2 else 1

/-- The stile that a write to a send fold or an output image belongs to (R132). -/
def fixedStile (op off : Nat) : Option Nat :=
  if op = 0x02 ∨ op = 0x03 ∨ op = 0x11 ∨ op = 0x12 then
    match regionOf off with
    | .sendHead h => if h < 144 then some (256 + (h - 64)) else some (320 + (h - 144))
    | .dcOut n => some (336 + n)
    | _ => none
  else none

/-- A request of the node's own that carries its descriptor's bus-hold mark (R125, R208). -/
def State.holdMark (s : State) (queue : Nat) (p : Packet) : Bool :=
  queue == 2 &&
    (match s.tagRec p.tag with
     | some r => match r.owner with
       | .sub d => match s.execOf d with
         | some x => x.task.desc != [] && dHold x.task.desc
         | none => false
       | _ => false
     | none => false)

/-- The exception count that a request of this node's own agent carries (R164); packets have no field for it. -/
def State.excOf (s : State) (queue : Nat) (p : Packet) : Nat :=
  if queue = 2 then (match s.tagRec p.tag with | some r => r.exc | none => 0) else 0

/-- The RING task of a request (R120, R122). -/
def State.ringTask (s : State) (queue : Nat) (p : Packet) : Task :=
  { Task.blank with
    pclass := if p.op = 0x7F then p.cls else classOf p.cls p.addr, op := p.op, lenm1 := p.lenm1, tag := p.tag, addr := p.addr, srcNode := p.src, agent := p.agent, ord := p.ord
    data := p.payload, link := linkOf queue, want := fixedStile p.op (faOffset p.addr), index := b2n (s.holdMark queue p), exc := s.excOf queue p
    idem := decide (p.op = 0x01) && s.rereadable (s.bit F.CHIP_COMMIT_STAT_BANK) p.addr (p.lenm1 + 1) }

/-- At SAFE a request of class CTRL completes at the drop point, its exceptions apart (R365). -/
def State.safeRefuses (s : State) (p : Packet) : Bool :=
  s.flt.safe && decide (p.cls = 0) &&
    (if p.op = 0x7F then !safeExempt (dOp p.payload) (dAddr p.payload) else decide (regionOf (faOffset p.addr) ≠ .setup))

/-- The request is refused at the drop point. -/
def State.dropRefuse (s : State) (t : Task) : State :=
  let s := s.raiseCap Code.ADR_SAFE Src.packet [] (t.cap t.port)
  let s := if storeBad t.opcode St.ADDR_ERROR then s.storeFailed t.srcNode t.agent else s
  s.answerRequest t ⟨St.ADDR_ERROR, 0, []⟩

/-- A REQUEST other than a broadcast. -/
def isRequest (fwd : Bool) (p : Packet) : Bool := p.kind == Kind.REQUEST && (p.op == 0x7F) == fwd && p.dst != bcastNode

def ringRequestDrop (queue : Nat) (s : State) : State :=
  if queue < 3 then
    s.withTaken queue (isRequest false) (fun p s =>
      let t := s.ringTask queue p
      if s.safeRefuses p then s.dropRefuse t else s.takeIn t)
  else s

def execRingRequestDrop (queue : Nat) (s : State) : Host.Outcome State Fault Refusal :=
  .next (whenUp .core (ringRequestDrop queue) s)

/-- A carried descriptor becomes a task of the requester's stream (R253); one with a stamp is held first (R212). -/
def State.carriedTask (s : State) (queue : Nat) (p : Packet) : Task :=
  let w0 := descWord p.payload 0
  let w7 := descWord p.payload 7
  let ph := w0.testBit 53
  { s.ringTask queue p with
    data := [], desc := p.payload, want := none, index := 0, idem := false, ph := ph
    phase := if ph then nbits w7 63 32 else 0, framelo := if ph then nbits w7 31 16 else 0 }

def descFwdRx (queue : Nat) (s : State) : State :=
  if queue < 3 then
    s.withTaken queue (isRequest true) (fun p s =>
      let t := s.carriedTask queue p
      if s.safeRefuses p then s.dropRefuse t else s.takeIn t)
  else s

def execDescFwdRx (queue : Nat) (s : State) : Host.Outcome State Fault Refusal := .next (whenUp .core (descFwdRx queue) s)

/-! ### Fold heads (R188, R189) -/

/-- Do `f` with the ring access drover `d` may start on a fold head: the head, the access and the task. -/
def State.onHead (s : State) (d : Nat) (f : Nat → HeadOp → Task → State → State) : State :=
  match s.execOf d with
  | some x =>
    let t := x.task
    if x.phase = .ready ∧ t.desc = [] ∧ t.dir = false ∧ t.orig = 0 ∧ (t.op = 0x01 ∨ t.op = 0x02 ∨ t.op = 0x03) then
      match headAt t.off with
      | some (h, e) => f h (headOp h e (t.lenm1 + 1) (t.op == 0x01)) t s
      | none => s
    else s
  | none => s

/-- A read pops up to k words. -/
def foldHeadRead (drover : Nat) (s : State) : State :=
  s.onHead drover (fun h o t s =>
    match o with
    | .pop k stop =>
      let r := s.popEntries (s.headFold h) k stop
      let s := r.2.2.1.fire fireFuel r.2.2.2
      if r.1 = St.OK then s.finishTask drover St.OK (t.lenm1 + 1) r.2.1 else s.finishTask drover r.1 0 []
    | _ => s)

def execFoldHeadRead (drover : Nat) (s : State) : Host.Outcome State Fault Refusal := .next (whenUp .core (foldHeadRead drover) s)

/-- A write pushes its entries; one that finds no cell waits, and completes with its last entry (R184). -/
def foldHeadWrite (drover : Nat) (s : State) : State :=
  s.onHead drover (fun h o t s =>
    match o with
    | .push =>
      let s := match s.execOf drover with
        | some x => s.setExec drover { x with phase := .field, buf := t.data }
        | none => s
      let r := s.headPush h h (t.key + 1) (entriesOf 16 t.data) drover
      if r.1 then r.2.finishTask drover St.OK (t.lenm1 + 1) [] else r.2
    | _ => s)

def execFoldHeadWrite (drover : Nat) (s : State) : Host.Outcome State Fault Refusal :=
  .next (whenUp .core (foldHeadWrite drover) s)

/-- The counts, without popping. -/
def foldHeadCount (drover : Nat) (s : State) : State :=
  s.onHead drover (fun h o _ s =>
    match o with
    | .count => s.finishTask drover St.OK 8 (s.headCount h)
    | _ => s)

def execFoldHeadCount (drover : Nat) (s : State) : Host.Outcome State Fault Refusal :=
  .next (whenUp .core (foldHeadCount drover) s)

end Sys2Proof.Machine
end

