-- ==== Sys2Proof/Machine/HostIn.lean ====
section
/-! DEFINITION. What comes back to the device's own requests and to the host's through BAR2 (R204, R207, R223). -/

namespace Sys2Proof.Machine

/-! ### The doorbell page and descriptor fetches (R204, R207) -/

def noFetch (_ : Nat) : List FetchRec := []
/-- The fetches of a ring on their way, in ring order. -/
def State.fetchesOf (s : State) (ring : Nat) : List FetchRec := tget noFetch s.host.fetches ring
def State.setFetches (s : State) (ring : Nat) (l : List FetchRec) : State :=
  { s with host := { s.host with fetches := tput noFetch s.host.fetches ring l } }

/-- A read of the doorbell page has ended: its page offset, status and data. -/
def State.doorbellAnswered (s : State) (addr status : Nat) (data : List Byte) : State :=
  { s with host := { s.host with polled := s.host.polled ++ [(addr % 4096, status, data)] } }

/-- A descriptor fetch has ended. -/
def State.fetchAnswered (s : State) (ring addr status : Nat) (data : List Byte) : State :=
  match takeFirst (fun (f : FetchRec) => f.addr == addr && f.answer.isNone) (s.fetchesOf ring) with
  | none => s
  | some (f, _) =>
    s.setFetches ring ((s.fetchesOf ring).map (fun x => if x = f then { x with answer := some (status, data) } else x))

/-! ### BAR2 (R223) -/

/-- The agent of BAR2 requests (R143). -/
def State.bar2Agent (s : State) : Nat := agentKey s.nodeId (s.rd F.CHIP_ORD_CTL_BAR2_AGENT)

def State.setTlps (s : State) (l : List BarTlp) : State := { s with host := { s.host with tlps := l } }

/-- Change a TLP. -/
def State.putTlp (s : State) (t : BarTlp) : State := s.setTlps (s.host.tlps.map (fun x => if x.id = t.id then t else x))

/-- The status a read is answered by: ADDR_ERROR prevails over any other error (R223). -/
def worseStatus (old new : Nat) : Nat :=
  if old = St.ADDR_ERROR || performed new then old else if new = St.ADDR_ERROR || old = St.OK then new else old

/-- Read data cut into completions: at multiples of Max Payload Size (R223); `fuel` bounds their number. -/
def cutCompletions (mps : Nat) : Nat → Nat → List Byte → List (List Byte)
  | 0, _, _ => []
  | n + 1, a, bs =>
    if bs = [] then []
    else
      let m := min bs.length (mps - a % mps)
      bs.take m :: cutCompletions mps n (a + m) (bs.drop m)

/-- A read is answered: its data in address order, Unsupported Request, or Completer Abort (R223). -/
def State.answerTlp (s : State) (t : BarTlp) : State :=
  if t.write || t.dropped then s
  else if t.status = St.OK then
    (cutCompletions s.host.mps (t.data.length + 1) t.addr t.data).foldl (fun (s : State) bs => s.emit (.tlpData t.tag bs)) s
  else s.emit (.tlpStatus t.tag (decide (t.status = St.ADDR_ERROR)))

/-- A ring request of a TLP has ended: an exception of the agent and lost bytes on an error (R164, R223); the TLP is over with its
last request. -/
def State.barEnded (s : State) (id addr len status bytesDone : Nat) (payload : List Byte) : State :=
  match s.host.tlps.find? (fun t => t.id == id) with
  | none => s
  | some t =>
    let s := if performed status then s else s.exception s.bar2Agent
    let s := if t.write ∧ performed status = false then
        (s.bumpN K.HST_CNT_B2_LOST_BYTES (len - bytesDone)).raise Code.HST_B2_WRLOST Src.pcie
          (lohi addr ++ [status, len - bytesDone])
      else s
    let t := { t with open_ := t.open_.erase (addr, len), status := worseStatus t.status status
                      data := if t.write then t.data else t.data ++ payload }
    if t.next = t.len ∧ t.open_ = [] then (s.setTlps (s.host.tlps.filter (fun x => x.id != id))).answerTlp t else s.putTlp t

/-- Issue the ring requests of the TLPs in the order of their arrival, one for the bytes of each aligned 256-byte block; a read is
held until every earlier write is done (R146, R223). `fuel` bounds their number. -/
def State.barGo : Nat → State → State
  | 0, s => s
  | n + 1, s =>
    match s.host.tlps.find? (fun t => decide (t.next < t.len)) with
    | none => s
    | some t =>
      if !t.write && (s.host.tlps.takeWhile (fun x => x.id != t.id)).any (·.write) then s
      else
        let a := t.addr + t.next
        let m := min (t.len - t.next) (256 - a % 256)
        let r := s.issueOp s.bar2Agent 1 (if t.write then 0x02 else 0x01) a m (if t.write then slice t.data t.next m else [])
          (.bar2 t.id) true
        if r.waits then s
        else
          let s := r.st.putTlp { t with next := t.next + m, open_ := t.open_ ++ [(a, m)] }
          match r.ended with
          | some st => (s.barEnded t.id a m st 0 []).barGo n
          | none => s.barGo n

/-- Issue what may be issued. -/
def State.pumpBar (s : State) : State := s.barGo (s.host.tlps.foldl (fun (n : Nat) t => n + t.len + 1) 0)

end Sys2Proof.Machine
end

