-- ==== Sys2Proof/Machine/Mirror.lean ====
section
/-! DEFINITION. Mirror epochs: closing an epoch and the full copy at the holder, staging and committing at the standby
(R349 to R357). -/

namespace Sys2Proof.Machine

/-! ### The full copy (R357) -/

/-- Set-up registers of the lenses but for STAT (R349 category LENS). -/
def lensKeys : List Nat :=
  (List.range 64).flatMap (fun i => (List.range 9).map (fun j => 0x4000 + 0x40 * i + 4 * j)) ++
    (List.range 32).flatMap (fun i => (List.range 7).map (fun j => 0x5000 + 0x40 * i + 4 * j))

/-- OUTMASK and SAFE of every chain (R349 category IMAGE). -/
def imageKeys : List Nat :=
  (List.range 8).flatMap (fun n => (List.range 4).map (K.DC_OUTMASK n) ++ (List.range 4).map (K.DC_SAFE n))

/-- A record of the copy: it takes its place in the queue behind what waits there, and waits uncounted. -/
def State.copyRec (s : State) (rtype : Nat) (payload : List Byte) : State :=
  { s with twin := { s.twin with mwait := s.twin.mwait ++ [⟨rtype, payload⟩] } }

/-- A register of the copy. -/
def State.copyReg (s : State) (k : Nat) : State := s.copyRec 1 (leBytes 4 k ++ leBytes 4 (s.reg k).toNat)

/-- One DDR4 page of the copy, read through the error-correcting code; a page that cannot be corrected is copied as free bytes
(log entry 6). -/
def State.copyPage (s : State) (a : Nat) : State :=
  let r := s.ddrRead a 4096
  let q := match r.1 with
    | some bs => (bs, r.2)
    | none => State.freeBytes 4096 r.2
  (ddrRecs (0x1000000000 + a) 17 q.1).foldl (fun (s : State) p => s.copyRec 2 p) q.2

/-- The pages of the enabled ranges that the DDR4 holds. -/
def State.copyPages (s : State) : List Nat :=
  (List.range 8).flatMap (fun r =>
    if s.bit (F.TWN_RNG_BASE_EN r) then
      ((List.range (s.rd (F.TWN_RNG_SIZE_PAGES r))).map (fun i => (s.rd (F.TWN_RNG_BASE_BASE r) + i) * 4096)).filter
        (fun a => s.ddrHas a 4096)
    else [])

/-- Slots, count and taken count of the vector queue, as an INTR record carries them (R351). -/
def State.copyIntr (s : State) : State :=
  let vs := s.vin.vectors
  s.copyRec 6 ((List.range 16).flatMap (fun i =>
      match vs[i]? with | some v => leBytes 4 v.vector.toNat | none => leBytes 4 0) ++
    leBytes 1 vs.length ++ leBytes 1 (vs.filter (·.taken)).length ++ leBytes 14 0)

/-- The full copy: FULL, then everything the selected categories mirror. -/
def State.fullCopy (s : State) : State :=
  let cat := fun (i : Nat) => (s.rd F.TWN_SEL_CAT).testBit i
  let s := s.copyRec 8 []
  let s := if cat 0 then lensKeys.foldl (fun (s : State) k => s.copyReg k) s else s
  let s := if cat 2 then
      (List.range 8).foldl (fun (s : State) n => s.copyRec 3 (leBytes 8 n ++ leBytes 16 (s.dc n).outImg))
        (imageKeys.foldl (fun (s : State) k => s.copyReg k) s)
    else s
  let s := if cat 3 then ((s.copyReg K.VME_INTR).copyReg K.VME_INTR_RORA).copyIntr else s
  let s := if cat 4 then
      (List.range 256).foldl (fun (s : State) k =>
        (s.copyRec 1 (s.schPairs k)).copyRec 7 (leBytes 8 k ++ slice (s.schEntry k).desc 0 64)) (s.copyReg K.CAD_SCHB)
    else s
  let s := if cat 1 then
      s.fold.folds.foldl (fun (s : State) e =>
        if s.bit (F.FLD_F_CTL_MIRROR e.1) then
          (fappRecs e.1 e.2.words.length e.2.words).foldl (fun (s : State) p => s.copyRec 4 p) s
        else s) s
    else s
  let s := if cat 5 then s.copyPages.foldl (fun (s : State) a => s.copyPage a) s else s
  let s := { s with twin := { s.twin with fullReq := false, fullOpen := true, fullLeft := s.twin.mwait.length } }
  (s.bump K.TWN_CNT_RESYNC).pumpMirror

/-! ### The boundary at the holder (R348, R350, R351, R354) -/

/-- Mirror traffic has a path (R347). -/
def State.mirrorPath (s : State) : Bool := s.linkUp 2 || (s.bit F.TWN_CTL_RING_MIRROR && !s.linkFenced)

/-- The payload of CLOSE (R351): RCOUNT, CRC, P, flags, the last mark. -/
def State.closePayload (s : State) (p : Nat) (handover : Bool) : List Byte :=
  let u := s.twin
  let rcount := if 2 ^ 24 < u.rseq then 0xFFFFFFFF else u.rseq
  let flags := b2n u.fullOpen + 2 * b2n (u.marks != []) + 4 * b2n handover
  leBytes 4 rcount ++ leBytes 4 (u.crc ^^^ 0xFFFFFFFF#32).toNat ++ leBytes 8 p ++ leBytes 1 flags ++ leBytes 7 0 ++
    leBytes 8 (match u.marks.reverse with | m :: _ => m.1 | [] => 0)

/-- Epoch `n` ends at the boundary after which the period number is `p`: CLOSE enters the queue, marks wait for the commit, the
next epoch opens, and a full copy that was asked for starts. -/
def State.closeEpoch (s : State) (p n : Nat) : State :=
  let yields := s.yielding && s.twin.yieldEpoch.isNone
  let marks := s.twin.marks
  let path := s.mirrorPath
  let sync := s.bit F.TWN_STAT_SYNC
  let payload := s.closePayload p yields
  let s := { s with twin := { s.twin with
    mq := if path then s.twin.mq ++ [(n, 0, ⟨0, payload⟩)] else s.twin.mq
    markWait := if path && sync then s.twin.markWait ++ marks.map (fun m => (n, m.2)) else s.twin.markWait
    yieldEpoch := if yields then some n else s.twin.yieldEpoch
    fullOpen := false } }
  let s := if path && sync then s
    else marks.foldl (fun (s : State) m => s.detachResult m.2 ⟨St.TWIN_OFF, 0, leBytes 8 0⟩) s
  let s := s.epochOpen ((n + 1) % 2 ^ 32)
  if s.twin.fullReq && path then s.fullCopy else s.pumpMirror

/-- The holder's part of a boundary. An epoch that carries a full copy stays open until the copy is queued. -/
def State.mirrorBoundary (s : State) (p : Nat) : State :=
  if s.twinOn && s.crook && !s.twin.fencing then
    if s.twin.fullOpen && decide (s.twin.fullLeft ≠ 0) then s else s.closeEpoch p (s.rd F.TWN_EPOCH_EPOCH)
  else s

/-! ### MIRROR packets (R351) -/

def Packet.mirrorType (p : Packet) : Nat := nbits p.w1.toNat 63 60
def Packet.recType (p : Packet) : Nat := nbits p.w1.toNat 59 56
def Packet.recSeq (p : Packet) : Nat := nbits p.w1.toNat 55 32
def Packet.mirrorEpoch (p : Packet) : Nat := nbits p.w1.toNat 31 0

/-- Take a MIRROR packet of one type from the peer while twin operation is enabled. -/
def State.withMirror (s : State) (q mtype : Nat) (f : Packet → State → State) : State :=
  s.withTaken q (fun p => p.kind == Kind.MIRROR && p.mirrorType == mtype) fun p s =>
    if s.twinOn && decide (p.src = s.twnPeer) then f p s else s

/-! ### Staging at the standby (R352, R355) -/

/-- The bank holds a full copy. -/
def StageBank.full (b : StageBank) : Bool :=
  b.recs.any (fun r => r.1 == 0 && r.2.rtype == 8) || (match b.close with | some (_, _, fl, _) => fl.testBit 0 | none => false)

/-- An epoch is not intact, or cannot be staged (R355). A commit that runs goes on, without making SYNC. -/
def State.notIntact (s : State) (epoch : Nat) : State :=
  let s := (s.wr F.TWN_STAT_SYNC 0).raise Code.TWN_EPOCH_BAD Src.twin [epoch]
  let s := s.bumpN K.TWN_CNT_EP_DISCARD (max 1 s.twin.banks.length)
  let s := { s with twin := { s.twin with
    asked := false, banks := [], committing := s.twin.committing.map (fun (b : StageBank) => { b with bad := true }) } }
  s.sendResync

/-- The epoch after which epochs are staged: the last one committed or being committed; none while a full copy is awaited. -/
def State.stageBase (s : State) : Option Nat :=
  match s.twin.committing with
  | some b => some b.epoch
  | none =>
    if s.bit F.TWN_STAT_SYNC then some (s.rd F.TWN_EPOCH_EPOCH)
    else (s.twin.banks.find? (·.full)).map (fun b => (b.epoch + 2 ^ 32 - 1) % 2 ^ 32)

/-- Where a record or a CLOSE of an epoch goes. -/
inductive Staging where
  /-- a bank that is open -/ | held
  /-- a bank to be opened -/ | opened
  /-- a full copy drops what was staged -/ | fresh
  /-- discarded -/ | dropped
  /-- too late an epoch -/ | beyond
  deriving DecidableEq, Repr

/-- How many epochs may be staged beside the one being committed: two banks in all. -/
def State.stageRoom (s : State) : Nat := if s.twin.committing.isSome then 1 else 2

/-- Place an epoch (R352). -/
def State.placeEpoch (s : State) (epoch : Nat) (starts : Bool) : Staging :=
  if s.twin.banks.any (fun b => b.epoch == epoch) then .held
  else match s.stageBase with
    | some l =>
      let d := (epoch + 2 ^ 32 - l) % 2 ^ 32
      if d = 0 ∨ 2 ^ 31 ≤ d then (if starts && s.twin.committing.isNone then .fresh else .dropped)
      else if d ≤ s.stageRoom then .opened
      else if starts && s.twin.committing.isNone then .fresh else .beyond
    | none => if starts then .fresh else .dropped

/-- Open a bank. -/
def State.openBank (s : State) (epoch : Nat) (fresh : Bool) : State :=
  let s := if fresh && decide (s.twin.banks ≠ []) then s.bumpN K.TWN_CNT_EP_DISCARD s.twin.banks.length else s
  { s with twin := { s.twin with banks := (if fresh then [] else s.twin.banks) ++ [⟨epoch, [], 0, none, false⟩] } }

/-- Change the bank of an epoch. -/
def State.modBank (s : State) (epoch : Nat) (f : StageBank → StageBank) : State :=
  { s with twin := { s.twin with banks := s.twin.banks.map (fun (b : StageBank) => if b.epoch == epoch then f b else b) } }

/-- Stage in the bank of an epoch with `f`, opening it where it may be opened. -/
def State.stageIn (s : State) (epoch : Nat) (starts : Bool) (f : State → State) : State :=
  match s.placeEpoch epoch starts with
  | .held => f s
  | .opened => f (s.openBank epoch false)
  | .fresh => f (s.openBank epoch true)
  | .dropped => s
  | .beyond => s.notIntact epoch

/-- Bytes of a record in a bank: word 1 and payload (DESIGN CHOICE, log entry 30). -/
def recBytes (r : MirrorRec) : Nat := 8 + r.payload.length

/-- Bytes of a staging bank. -/
def State.bankSize (s : State) : Nat := s.rd F.TWN_STG_SIZE_STG_MIB * 2 ^ 20

/-- Records in RSEQ order. -/
def insertRec (x : Nat × MirrorRec) : List (Nat × MirrorRec) → List (Nat × MirrorRec)
  | [] => [x]
  | y :: ys => if x.1 < y.1 then x :: y :: ys else y :: insertRec x ys

/-- Whether a closed bank is intact: `none` while records are missing (R352). -/
def StageBank.verdict (b : StageBank) : Option Bool :=
  match b.close with
  | none => none
  | some (rcount, crc, _, _) =>
    if rcount = 0xFFFFFFFF then some false
    else if b.recs.length < rcount then none
    else
      let bytes := b.recs.flatMap (fun r => leBytes 8 (mirrorW1 1 r.2.rtype r.1 b.epoch).toNat ++ r.2.payload)
      some (decide (b.recs.map (·.1) = List.range rcount) && decide (crc32c bytes = crc))

/-- The next epoch in order starts its commit when it is intact (R353), and ends the staging when it cannot become so. -/
def State.checkBanks (s : State) : State :=
  match s.twin.committing, s.stageBase with
  | none, some l =>
    match s.twin.banks.find? (fun b => b.epoch == (l + 1) % 2 ^ 32) with
    | some b =>
      match b.verdict with
      | some true =>
        { s with twin := { s.twin with committing := some b, banks := s.twin.banks.filter (fun c => c.epoch != b.epoch) } }
      | some false => s.notIntact b.epoch
      | none => s
    | none => s
  | _, _ => s

/-- A device that stages: it does not hold the crook and is not fenced. -/
def State.stages (s : State) : Bool := s.twinOn && !s.crook && (s.twnState == 1 || s.twnState == 2)

def mirrorRecordRx (queue : Nat) (s : State) : State :=
  s.withMirror queue 1 fun p s =>
    if s.stages then
      let r : MirrorRec := ⟨p.recType, p.payload⟩
      let n := p.mirrorEpoch
      s.stageIn n (r.rtype == 8) fun s =>
        let used := (s.twin.banks.filter (fun b => b.epoch == n)).foldl (fun (n : Nat) b => n + b.bytes) 0
        if s.bankSize < used + recBytes r then (s.raise Code.TWN_STAGE_FULL Src.twin []).notIntact n
        else (s.modBank n (fun b => { b with recs := insertRec (p.recSeq, r) b.recs, bytes := b.bytes + recBytes r })).checkBanks
    else s

def execMirrorRecordRx (queue : Nat) (s : State) : Host.Outcome State Fault Refusal := .next (whenUp .mgmt (mirrorRecordRx queue) s)

def mirrorCloseRx (queue : Nat) (s : State) : State :=
  s.withMirror queue 2 fun p s =>
    if s.stages then
      let n := p.mirrorEpoch
      let bs := p.payload
      let flags := leNum (slice bs 16 1)
      s.stageIn n (flags.testBit 0) fun s =>
        (s.modBank n (fun b => { b with
          close := some (leNum (slice bs 0 4), BitVec.ofNat 32 (leNum (slice bs 4 4)), flags, leNum (slice bs 24 8)) })).checkBanks
    else s

def execMirrorCloseRx (queue : Nat) (s : State) : Host.Outcome State Fault Refusal := .next (whenUp .mgmt (mirrorCloseRx queue) s)

/-- LEASE_MS after its CLOSE an epoch still lacks records (R352). -/
def mirrorRecordWaitEnd (epoch : Nat) (s : State) : State :=
  match s.twin.banks.find? (fun b => b.epoch == epoch) with
  | some b => if b.close.isSome && b.verdict.isNone then s.notIntact epoch else s
  | none => s

def execMirrorRecordWaitEnd (epoch : Nat) (s : State) : Host.Outcome State Fault Refusal :=
  .next (whenUp .mgmt (mirrorRecordWaitEnd epoch) s)

/-! ### Committing at the standby (R353) -/

/-- Bits of a register that software may write. -/
def rwMask (k : Nat) : Word :=
  match regAt (keyOff k) with
  | some r => r.fields.foldl (fun m f => if f.acc = .rw then setBits m f.hi f.lo (2 ^ (f.hi - f.lo + 1) - 1) else m) 0
  | none => 0

/-- A REG value goes to the field in effect and its shadow. -/
def State.applyReg (s : State) (k : Nat) (v : Word) : State :=
  let m := rwMask k
  (s.setReg k ((s.reg k &&& ~~~m) ||| (v &&& m))).setShd k v

/-- The pairs of a REG record: CAD_SCH_SEL names the schedule entry of the pairs that follow it. -/
def State.applyPairs (s : State) : Nat → Nat → List Byte → State
  | 0, _, _ => s
  | n + 1, sel, bs =>
    let off := leNum (slice bs 0 4)
    let v := leNum (slice bs 4 4)
    if off = K.CAD_SCH_SEL then State.applyPairs s n (v % 256) (bs.drop 8)
    else
      let k := if 0x7054 ≤ off ∧ off ≤ 0x705C then winKey off sel else off
      State.applyPairs (s.applyReg k (BitVec.ofNat 32 v)) n sel (bs.drop 8)

/-- The words of an FAPP record: each entry's word and tag (R189). -/
def fappWords : Nat → List Byte → List (BitVec 64 × Byte)
  | 0, _ => []
  | n + 1, bs => (BitVec.ofNat 64 (leNum (slice bs 0 8)), getAt 0 bs 8) :: fappWords n (bs.drop 16)

/-- The vector queue of an INTR record: the oldest of them are taken. -/
def intrVectors (bs : List Byte) : List IntrVector :=
  (List.range (min 16 (leNum (slice bs 64 1)))).map (fun i =>
    ⟨BitVec.ofNat 32 (leNum (slice bs (4 * i) 4)), none, none, decide (i < leNum (slice bs 65 1))⟩)

/-- The producer that mirrored words come from, beside the heads and SENDs (R181). -/
def mirrorProducer : Nat := 999

/-- A register goes back to its reset value, in effect and in the shadow. -/
def State.clearReg (s : State) (k : Nat) : State := s.applyReg k (resetWord k)

/-- FULL (R357): every category the standby itself selects is cleared. -/
def State.fullClear (s : State) : State :=
  let cat := fun (i : Nat) => (s.rd F.TWN_SEL_CAT).testBit i
  let s := if cat 0 then lensKeys.foldl (fun (s : State) k => s.clearReg k) s else s
  let s := if cat 1 then
      s.fold.folds.foldl (fun (s : State) e =>
        if s.bit (F.FLD_F_CTL_MIRROR e.1) then State.events (s.emptyFold e.1 false) else s) s
    else s
  let s := if cat 2 then
      (List.range 8).foldl (fun (s : State) n => s.setDc n { s.dc n with outImg := 0 })
        (imageKeys.foldl (fun (s : State) k => s.clearReg k) s)
    else s
  let s := if cat 3 then ((s.clearReg K.VME_INTR).clearReg K.VME_INTR_RORA).setVectors [] else s
  let s := if cat 4 then
      (List.range 256).foldl (fun (s : State) k =>
        (([K.CAD_SCH_CTL k, K.CAD_SCH_FRM k, K.CAD_SCH_PH k].foldl (fun (s : State) k => s.clearReg k) s).setSch k
          (SchEntry.idle k))) (s.clearReg K.CAD_SCHB)
    else s
  if cat 5 then
    let hit := fun (a : Nat) => (List.range 8).any (fun r => s.bit (F.TWN_RNG_BASE_EN r) &&
      decide (s.rd (F.TWN_RNG_BASE_BASE r) ≤ a / 4096 ∧ a / 4096 < s.rd (F.TWN_RNG_BASE_BASE r) + s.rd (F.TWN_RNG_SIZE_PAGES r)))
    { s with ddr := { s.ddr with bytes := s.ddr.bytes.filter (fun e => !hit e.1), bad := s.ddr.bad.filter (fun b => !hit (8 * b.1)) } }
  else s

/-- Apply one record; none while a fold has no cell for its words (R184): the commit then runs longer. -/
def State.applyRec (s : State) (r : MirrorRec) : Option State :=
  let bs := r.payload
  let n := leNum (slice bs 0 8)
  match r.rtype with
  | 1 => some (s.applyPairs (bs.length / 8) (s.rd F.CAD_SCH_SEL_ENTRY) bs)
  | 2 =>
    let a := n - 0x1000000000
    let data := bs.drop 8
    some (if s.ddrHas a data.length then (s.ddrWrite a data).2 else s)
  | 3 => some (if n < 8 then s.setDc n { s.dc n with outImg := leNum (slice bs 8 16) } else s)
  | 4 =>
    let r := State.pushEntries (fappWords (nbits n 19 16) (bs.drop 8)) (n % 4096) mirrorProducer 0 false s
    if r.1 = [] then some (r.2.1.fire fireFuel r.2.2) else none
  | 5 =>
    let r := State.popWords (nbits n 63 32) false (n % 4096) s
    some (r.2.1.fire fireFuel r.2.2)
  | 6 => some (s.setVectors (intrVectors bs))
  | 7 => some (s.setSch (n % 256) { s.schEntry (n % 256) with desc := slice bs 8 64 })
  | 8 => some s.fullClear
  | _ => some s

/-- Apply records in order. -/
def State.applyRecs (s : State) : List (Nat × MirrorRec) → Option State
  | [] => some s
  | r :: rs => match s.applyRec r.2 with
    | some s => s.applyRecs rs
    | none => none

/-- The last record of the epoch has been applied. A change of a lens drops what hangs on it, as at a commit (R55). -/
def mirrorCommitDone (s : State) : State :=
  match s.twin.committing with
  | none => s
  | some b =>
    let lenses := (List.range 64).map (s.outLens (s.bit F.CHIP_COMMIT_STAT_BANK))
    match s.applyRecs b.recs with
    | none => s
    | some s =>
      let s := (List.range 64).foldl (fun (s : State) n =>
        let old := getAt (s.outLens false 0) lenses n
        if s.outLens (s.bit F.CHIP_COMMIT_STAT_BANK) n = old then s else s.lensChanged n old) s
      let s := { s with twin := { s.twin with committing := none } }
      let s := (s.wr F.TWN_EPOCH_EPOCH b.epoch).bump K.TWN_CNT_EP_COMMIT
      let s := match b.close with
        | some (_, _, fl, mark) =>
          if fl.testBit 1 then (s.wr F.TWN_MARK_LO_MARK mark).wr F.TWN_MARK_HI_MARK (mark / 2 ^ 32) else s
        | none => s
      let s := s.sendMirror (s.mirrorPacket 3 0 0 b.epoch [])
      let s := if b.full && !b.bad then s.wr F.TWN_STAT_SYNC 1 else s
      s.checkBanks

def execMirrorCommitDone (s : State) : Host.Outcome State Fault Refusal := .next (whenUp .mgmt mirrorCommitDone s)

/-! ### COMMITTED and RESYNC at the holder (R348, R354, R357) -/

/-- Output work is still under way: the handover waits for it (R348; DEDUCED, log entry 20). -/
def State.outputsBusy (s : State) : Bool :=
  s.vme.owner.isSome || decide (s.vme.pwq ≠ []) || s.port.sp.any (fun e => e.2.tx.isSome) ||
    s.port.cf.any (fun e => e.2.sending) || s.port.dc.any (fun e => e.2.inFrame)

/-- The crook is handed over after epoch `n` (R348): HANDOVER on every path, then STANDBY with SYNC. Waiting work then ends as at
a device without the crook (R337). -/
def State.yieldCrook (s : State) (n : Nat) : State :=
  let s := s.leaseAll (s.leasePacket 4 s.twin.bseq)
  let s := s.mirrorStop
  let t := s.toStandby true
  let s := { t with twin := { t.twin with holdOut := false } }
  let s := s.wr F.TWN_EPOCH_EPOCH n
  s.outputsOff

/-- Marks of epochs up to `n` end: those of `n` with OK and RESULT `n`, earlier ones with TWIN_OFF (R354). -/
def State.marksCommitted (s : State) (n : Nat) : State :=
  let past := fun (e : Nat) => decide ((n + 2 ^ 32 - e) % 2 ^ 32 < 2 ^ 31)
  let ms := s.twin.markWait
  let s := { s with twin := { s.twin with markWait := ms.filter (fun m => !past m.1) } }
  (ms.filter (fun m => past m.1)).foldl (fun (s : State) m =>
    if m.1 = n then s.detachResult m.2 ⟨St.OK, 0, leBytes 8 n⟩ else s.detachResult m.2 ⟨St.TWIN_OFF, 0, leBytes 8 0⟩) s

def committedRx (queue : Nat) (s : State) : State :=
  match s.popTaken queue (fun p => p.kind == Kind.MIRROR && p.mirrorType == 3) with
  | none => s
  | some (p, t) =>
    let n := p.mirrorEpoch
    if s.twinOn && decide (p.src = s.twnPeer) && s.crook && !s.twin.fencing then
      let hand := s.yielding && s.twin.yieldEpoch == some n
      if hand && s.outputsBusy then s
      else
        let t := t.marksCommitted n
        if hand then t.yieldCrook n else t
    else t

def execCommittedRx (queue : Nat) (s : State) : Host.Outcome State Fault Refusal := .next (whenUp .mgmt (committedRx queue) s)

/-- RESYNC: a full copy starts at the next boundary (R357). -/
def resyncRx (queue : Nat) (s : State) : State :=
  s.withMirror queue 4 fun _ s =>
    if s.crook && !s.twin.fencing then { s with twin := { s.twin with fullReq := true } } else s

def execResyncRx (queue : Nat) (s : State) : Host.Outcome State Fault Refusal := .next (whenUp .mgmt (resyncRx queue) s)

/-- Records leave for the path as it takes them, and changes that wait enter the queue (R349). -/
def mirrorQueueSpace (s : State) : State := s.pumpMirror

def execMirrorQueueSpace (s : State) : Host.Outcome State Fault Refusal := .next (whenUp .mgmt mirrorQueueSpace s)

end Sys2Proof.Machine
end

