-- ==== Sys2Proof/Machine/Cad.lean ====
section
/-! DEFINITION. The cadence unit's commands: the position's movement, the mains and encoder sources, boundaries with their
snapshot, releases, and schedule entries (R317 to R335). -/

namespace Sys2Proof.Machine

/-! ### The snapshot (R331 to R333) -/

/-- Words of the record that are not counters of the period, by word index. -/
def State.snapHead (s : State) (timeout : Bool) (i : Nat) : Nat :=
  let st := s.cadState
  let flags := s.cad.flags ||| (if st = 2 then 0x10000 else 0) ||| (if st = 3 then 0x20000 else 0) |||
    (if timeout then 0x100000 else 0)
  if i = 0 then 0x01 + s.cadSource * 2 ^ 8 + st * 2 ^ 11 + flags
  else if i = 1 then (s.cad.crossed % (2 ^ 32 : Int)).toNat
  else if i = 2 then s.cad.p
  else if i = 3 then s.cad.p / 2 ^ 32
  else if i = 4 then s.cad.startFrame
  else if i = 5 then s.cad.startFrame / 2 ^ 32
  else (s.ticks - s.cad.lastBoundary) / 100

/-- Words of the record (R333): 0xC50 bytes. -/
def snapWords : Nat := 788

/-- The statistics are latched into the bank not latched last, and its copy to the statistics ring is due (R331, R332). The first
boundary latches bank 0 (DESIGN CHOICE, log entry 71). -/
def State.snapshot (s : State) (timeout : Bool) : State :=
  let first := !s.bit F.CAD_SNAP_VALID
  let bank := if first then 0 else 1 - s.rd F.CAD_SNAP_BANK
  let s := if s.stat.copying.contains bank then
      let t := s.slotLost 0
      { t with stat := { t.stat with copying := t.stat.copying.filter (fun b => b != bank) } }
    else s
  let s := (List.range snapWords).foldl (fun (t : State) i =>
    t.setReg (K.STAT_BANK bank i) (BitVec.ofNat 32 (if i < 7 then s.snapHead timeout i else s.statGet (4 * i)))) s
  let s := (s.wr F.CAD_SNAP_BANK bank).wr F.CAD_SNAP_VALID 1
  { s with stat := { s.stat with copying := s.stat.copying ++ [bank] } }

/-- The MAINT task that copies a latched bank (R331). Its maintenance code is not stated; it is the bank (DESIGN CHOICE, log entry
49). -/
def maintTask (node bank : Nat) : Task := { Task.blank with cls := 4, orig := 4, pclass := 1, srcNode := node, param := bank, index := bank }

/-- The statistics of a new period start (R331); the pool's highest use starts from its present use (DEDUCED, log entry 31). -/
def State.periodStart (s : State) : State :=
  let s := { s with stat := { s.stat with cnt := [] } }
  let s := s.statSet 0x1E8 (110592 - s.fold.free)
  let s := s.drv.drv.foldl (fun (s : State) (e : Nat × Drover) => s.setDrover e.1 { s.drover e.1 with revokes := 0 }) s
  let st := s.cadState
  { s with cad := { s.cad with
    flags := if st = 2 then 0x10000 else if st = 3 then 0x20000 else 0
    crossed := 0, startFrame := s.frame, lastBoundary := s.ticks, due := false } }

/-! ### The boundary (R323, R330, R331) -/

/-- The period number after a boundary (R323). -/
def State.nextP (s : State) (crossing : Bool) : Nat :=
  if crossing ∧ s.cadSource = 1 ∧ s.cadState = 1 then
    max (s.cad.p + 1) (s.frame / (s.rd F.CAD_PERIOD_PLEN_M1 + 1))
  else s.cad.p + 1

/-- A boundary takes effect: snapshot, P, the mirror epoch closes, staged configuration commits, the node opens; a MAINT task is to copy
the snapshot (R331). -/
def State.boundary (s : State) (crossing timeout : Bool) : State :=
  let p := s.nextP crossing % 2 ^ 64
  let s := (s.snapshot timeout).periodStart
  let s := { s with cad := { s.cad with p := p } }
  let s := ((s.mirrorBoundary p).commitBoundary p).openBoundary
  s.create (maintTask s.nodeId (s.rd F.CAD_SNAP_BANK))

/-- A crossing that ends the period: within 1 ms of the previous boundary it is suppressed (R323). -/
def State.boundaryDue (s : State) : State :=
  if s.bit F.CAD_SNAP_VALID = true ∧ s.ticks < s.cad.lastBoundary + 100000 then
    let s := { s with cad := { s.cad with due := false } }
    ((s.bump K.CAD_CNT_PSUPP).wr F.CAD_FLAGS_PSUPP 1).raise Code.CAD_PSUPP Src.cadence []
  else s.boundary true false

/-- After a step: the boundary it makes, and the releases (R330). -/
def State.cadSettle (s : State) : State := (if s.cad.due then s.boundaryDue else s).judgeAll

/-! ### Schedule entries (R328, R329) -/

/-- The trigger positions of entry `k` crossed between two positions given without wrapping, in the order of crossing. -/
def State.schCrossed (s : State) (k old new : Nat) : List Nat :=
  let n := s.rd (F.CAD_SCH_CTL_FDIV_M1 k) + 1
  let ph := s.rd (F.CAD_SCH_PH_PHASE k)
  let lo := min old new
  let hi := max old new
  let f := lo / 2 ^ 32
  let qs := (List.range (hi / 2 ^ 32 - f + 1)).filterMap (fun i =>
    let g := f + i
    let q := g * 2 ^ 32 + ph
    if g % 2 ^ 48 % n = s.rd (F.CAD_SCH_FRM_FOFS k) ∧ lo < q ∧ q ≤ hi then some q else none)
  if old < new then qs else if s.bit (F.CAD_SCH_CTL_BOTH k) then qs.reverse else []

/-- Entry `k` fires: a CAD task that performs its descriptor (R329). -/
def State.schFire (s : State) (k : Nat) : State :=
  let d := (s.schEntry k).desc
  let desc := slice d 0 64
  let s := (s.bump K.CAD_CNT_FIRE).statAdd 0x024 1
  s.create (s.descTask 3 k (s.rd F.CAD_CTL_AGENT) k (descWord desc 1) desc false)

/-- The entry is passed: it fires and is disarmed, or is armed again at a distance of HYST (R328). At a device without the crook
it never fires (R337); while the group is halted it neither fires nor is disarmed (R436). -/
def State.schPass (old new : Nat) (s : State) (k : Nat) : State :=
  if s.bit (F.CAD_SCH_CTL_EN k) then
    let qs := if (s.schEntry k).armed && !s.halting 5 then s.schCrossed k old new else []
    let s := match qs.reverse with
      | [] => s
      | last :: _ =>
        let s := if s.drives then qs.foldl (fun (s : State) _ => s.schFire k) s else s
        s.setSch k { s.schEntry k with armed := false, firedAt := last % posMod }
    let e := s.schEntry k
    if !e.armed && decide (s.rd F.CAD_HYST_HYST ≤ (posDiff s.cad.pos e.firedAt).natAbs) then
      s.setSch k { e with armed := true }
    else s
  else s

/-! ### Movement (R317, R323, R326, R330) -/

/-- The position runs by `d` phase units: the boundary it crosses first, then releases, then fires. -/
def State.cadAdvance (s : State) (d : Int) : State :=
  -- positions without wrapping, one whole turn up so that a backward move stays above zero
  let old := s.cad.pos + posMod
  let new := ((old : Int) + d).toNat
  let f := s.frame
  let df := (new / 2 ^ 32 : Int) - (old / 2 ^ 32 : Int)
  let h := s.cad.high
  let above := decide (0 < posDiff (new % posMod) h)
  let s := { s with cad := { s.cad with
    pos := new % posMod, crossed := s.cad.crossed + df
    flags := if d < 0 then s.cad.flags ||| 0x80000 else s.cad.flags
    encBad := if df = 0 then s.cad.encBad else 0
    high := if above then new % posMod else h
    stepH := if above then none else s.cad.stepH } }
  let cross := decide (0 < df) && s.periodCrossed f df.toNat
  let s := if cross then s.boundaryDue else s
  let s := s.judgeAll
  (List.range 256).foldl (State.schPass old new) s

/-- The movement of one EDGE cycle at the rate in force, in phase units, and the fraction left. -/
def State.cadDelta (s : State) : Nat × Nat := ((s.cad.acc + s.cad.num) / s.cad.den, (s.cad.acc + s.cad.num) % s.cad.den)

/-- DIR as a sign. -/
def State.cadSigned (s : State) (n : Nat) : Int := if s.bit F.CAD_STAT_DIR then -(n : Int) else n

/-- How far interpolation may go: short of the next edge in the direction of motion (R320). -/
def State.encRoom (s : State) : Nat :=
  let c := s.rd F.CAD_ENC_CNT_COUNT
  let cpr := s.rd F.CAD_ENC_CPR
  if s.bit F.CAD_STAT_DIR then
    (posDiff s.cad.pos (nearFrame s.cad.pos (s.edgePhase c)) - 1).toNat
  else
    (posDiff (nearFrame s.cad.pos (if c + 1 < cpr then s.edgePhase (c + 1) else 0)) s.cad.pos - 1).toNat

/-- The position in the next EDGE cycle (R318 to R321). -/
def State.cadRun (s : State) : State :=
  if s.cadState = 1 ∧ s.cadSource = 1 then s.cadAdvance (posDiff s.epochPos s.cad.pos)
  else
    let m := s.cadDelta
    let n := if s.cadState = 1 ∧ s.cadSource = 3 then min m.1 s.encRoom else m.1
    let s := { s with cad := { s.cad with acc := m.2 } }
    s.cadAdvance (s.cadSigned n)

/-- Epoch time over one EDGE cycle of 10 ns, at its trimmed rate (R271). -/
def State.epochRun (s : State) : State :=
  let t := s.net.epochFrac + (160 * (1000000000 + s.net.epochRate)).toNat
  { s with net := { s.net with epoch := (s.net.epoch + t / 1000000000) % 2 ^ 64, epochFrac := t % 1000000000 } }

/-- Once in a µs: drovers with a task in execution (R333), and time at half CORE clock. -/
def State.everyUs (s : State) : State :=
  let s := (List.range 64).foldl (fun (s : State) d =>
    if (s.drover d).exec.isSome then s.statAdd (0x2DC + 0x10 * d) 1 else s) s
  if s.bit F.CLK_STAT_HALF then s.bump K.CLK_CNT_HALF_US else s

/-- CAD_TICK: one EDGE cycle of 10 ns passes. CORE runs eight cycles in it, four at half clock (R24); BAR2 requests that waited for
a halt group go on. The position runs from the end of LOAD (R433). -/
def cadTick (s : State) : State :=
  let s := { s with ticks := s.ticks + 1 }
  let s := whenUp .core (fun s =>
    let n := if s.bit F.CLK_STAT_HALF then 4 else 8
    State.wakeHeld n { s with cyc := s.cyc + n }) s
  let s := whenUp .link (fun s => s.epochRun.linkTick) s
  let s := whenUp .core (fun s => if s.ticks % 100 = 0 then s.everyUs.pumpBar else s.pumpBar) s
  whenUp .edge (fun s => if 2 ≤ s.stage then s.cadRun else s) s

def execCadTick (s : State) : Host.Outcome State Fault Refusal := .next (cadTick s)

/-- CAD_MAX_MS: MAX_MS after the previous boundary (R323); in the cycle of a crossing's boundary the two are one. -/
def cadMaxMs (s : State) : State :=
  if s.bit F.CAD_SNAP_VALID = true ∧ s.ticks = s.cad.lastBoundary then s
  else if 2 ≤ s.stage then
    let s := s.bump K.CAD_CNT_TIMEOUT
    (s.boundary false true).judgeAll
  else s

def execCadMaxMs (s : State) : Host.Outcome State Fault Refusal := .next (whenUp .edge cadMaxMs s)

/-- A latched bank whose copy is still due is written to the statistics ring (R331, R220). -/
def State.copyBank (s : State) (bank : Nat) : State :=
  if s.stat.copying.contains bank then
    let s := { s with stat := { s.stat with copying := s.stat.copying.filter (fun b => b != bank) } }
    let word := fun (i : Nat) => (s.reg (K.STAT_BANK bank i)).toNat
    s.statPost (word 2 + word 3 * 2 ^ 32) ((List.range snapWords).flatMap (fun i => leBytes 4 (word i)))
  else s

/-- A running drover that executes a MAINT task, with the task's bank. -/
def State.maintRun (s : State) : Option (Nat × Nat) :=
  (List.range 64).findSome? (fun d =>
    match (s.drover d).exec with
    | some x => if x.task.cls = 4 ∧ x.phase = .ready ∧ (s.drover d).st = .running then some (d, x.task.index) else none
    | none => none)

/-- STAT_SNAPSHOT_COPY: a drover performs the MAINT task of a latched bank (R331). -/
def statSnapshotCopy (s : State) : State :=
  match s.maintRun with
  | none => s
  | some (d, bank) => (s.copyBank bank).endTask d St.OK 0 []

def execStatSnapshotCopy (s : State) : Host.Outcome State Fault Refusal := .next (whenUp .core statSnapshotCopy s)

/-! ### Mains (R319, R321) -/

/-- Limits of a valid mains period in EDGE cycles: 15.385 ms and 22.222 ms. -/
def zcMin : Nat := 1538500
def zcMax : Nat := 2222200

/-- The mean of the last valid periods. -/
def State.zcMean (s : State) : Nat :=
  let ps := s.cad.zcPeriods
  if ps = [] then zcMax else ps.foldl (· + ·) 0 / ps.length

/-- The phase now, from the crossing accepted now: the pin rose one filter time ago, and phase 0 lies ZC_OFS after that. -/
def State.zcPhase (s : State) : Nat :=
  let us := s.rd F.CAD_MAINS_FILT_US
  let filt := if us = 0 then 20 else 1000 * us
  let ns : Int := (filt : Int) - signed16 (s.rd F.CAD_MAINS_ZC_OFS)
  ((ns * 2 ^ 32 / (10 * s.zcMean : Int)) % 2 ^ 32).toNat

/-- A crossing outside the limits is ignored (R319). -/
def State.zcBad (s : State) : State :=
  ((s.bump K.CAD_CNT_ZC_BAD).wr F.CAD_FLAGS_ZC_BAD 1).raise Code.CAD_ZC_BAD Src.cadence []

/-- A valid crossing: the rate follows the mean period, and the phase error is stepped away or trimmed over the next frame. -/
def State.zcValid (s : State) (gap : Nat) : State :=
  let s := { s with cad := { s.cad with zcLast := some s.ticks, zcPeriods := (gap :: s.cad.zcPeriods).take 4 } }
  if s.cadSource ≠ 2 then s
  else
    let want := nearFrame s.cad.pos s.zcPhase
    let mean := s.zcMean
    if s.cadState = 1 then
      let err := posDiff s.cad.pos want
      if 2 ^ 26 < err.natAbs then ((s.cadStepTo want).cadRate (2 ^ 32) mean).cadSettle
      else s.cadRate ((2 ^ 32 : Int) - err).toNat mean
    else
      let t := s.cadRef 4 want
      (if t.cadState = 1 then t.cadRate (2 ^ 32) mean else t).cadSettle

/-- CAD_ZC_EDGE: an accepted rising edge on CAD_ZC. One that follows no valid crossing, or follows it by more than the limit,
becomes the reference of the next (DESIGN CHOICE, log entry 32). -/
def cadZcEdge (s : State) : State :=
  match s.cad.zcLast with
  | none => { s.zcBad with cad := { s.zcBad.cad with zcLast := some s.ticks } }
  | some t =>
    let gap := s.ticks - t
    if gap < zcMin then s.zcBad
    else if zcMax < gap then
      let s := s.zcBad
      { s with cad := { s.cad with zcLast := some s.ticks, refs := if s.cadSource = 2 then 0 else s.cad.refs } }
    else s.zcValid gap

def execCadZcEdge (s : State) : Host.Outcome State Fault Refusal := .next (whenUp .edge cadZcEdge s)

/-- CAD_MAINS_LOSS: no valid crossing within 1.5 times the last valid period (R321); a crossing in the same cycle wins (R330). -/
def cadMainsLoss (s : State) : State :=
  if s.cadSource = 2 ∧ s.cad.zcLast ≠ some s.ticks then
    if s.cadState = 1 then s.cadLoss else { s with cad := { s.cad with refs := 0 } }
  else s

def execCadMainsLoss (s : State) : Host.Outcome State Fault Refusal := .next (whenUp .edge cadMainsLoss s)

/-- CAD_FALLBACK: COAST_MS has passed in COASTING (R321). -/
def cadFallbackCmd (s : State) : State := if s.cadState = 2 then s.cadFallback else s

def execCadFallback (s : State) : Host.Outcome State Fault Refusal := .next (whenUp .edge cadFallbackCmd s)

/-! ### Encoder (R320, R321) -/

/-- The place of a level pair in the order 00, 10, 11, 01 in which A leads. -/
def quadIndex (a b : Bool) : Nat := if a then (if b then 2 else 1) else if b then 3 else 0

/-- A and B changed together: not counted; eight of them in one frame lose the source. -/
def State.encIllegal (s : State) : State :=
  let s := ((s.bump K.CAD_CNT_QERR).wr F.CAD_FLAGS_QERR 1).raise Code.CAD_QERR Src.cadence []
  if s.cadSource = 3 then
    let s := { s with cad := { s.cad with refs := 0, encBad := s.cad.encBad + 1 } }
    if s.cadState = 1 ∧ 8 ≤ s.cad.encBad then s.cadLoss else s
  else s

/-- One count: the phase goes to that of the edge crossed, and the rate is that of the interval since the last count. -/
def State.encCount (s : State) (forward : Bool) : State :=
  let cpr := s.rd F.CAD_ENC_CPR
  let c := s.rd F.CAD_ENC_CNT_COUNT
  let c' := if forward then (c + 1) % cpr else (c + cpr - 1) % cpr
  let edge := s.edgePhase (if forward then c' else c)
  let interval := s.ticks - s.cad.encLast
  let known := decide (s.cad.encLast ≠ 0)
  let s := s.wr F.CAD_ENC_CNT_COUNT c'
  let s := { s with cad := { s.cad with encLast := s.ticks } }
  if s.cadSource ≠ 3 then s
  else if s.cadState = 1 then
    let d := posDiff (nearFrame s.cad.pos edge) s.cad.pos
    let s := s.wrB F.CAD_STAT_DIR (!forward)
    let s := if known then s.cadRate (2 ^ 32) (cpr * max 1 interval) else s
    s.cadAdvance d
  else if s.cadState = 0 then s
  else (s.cadRef 256 (nearFrame s.cad.pos edge)).cadSettle

/-- CAD_ENC_COUNT: the accepted levels of A and B after a change. -/
def cadEncCount (a b : Bool) (s : State) : State :=
  let old := quadIndex s.cad.encA s.cad.encB
  let d := (quadIndex a b + 4 - old) % 4
  let s := { s with cad := { s.cad with encA := a, encB := b } }
  if d = 0 then s
  else if d = 2 then s.encIllegal
  else s.encCount ((d == 1) != s.bit F.CAD_ENC_DIR_INV)

def execCadEncCount (a b : Bool) (s : State) : Host.Outcome State Fault Refusal := .next (whenUp .edge (cadEncCount a b) s)

/-- CAD_ENC_INDEX: a rising edge of the index, with IDX_EN set. -/
def cadEncIndex (s : State) : State :=
  if s.bit F.CAD_ENC_IDX_EN then
    let c := s.rd F.CAD_ENC_CNT_COUNT
    let dev := min c (s.rd F.CAD_ENC_CPR - c)
    if s.cadSource = 3 ∧ s.cadState = 0 then
      let s := s.wr F.CAD_ENC_CNT_COUNT 0
      ((s.cadRate 0 1).cadLock (nearFrame s.cad.pos 0)).cadSettle
    else if dev = 0 then s
    else if dev ≤ s.rd F.CAD_ENC_TOL_IDX_TOL then
      let s := (s.wr F.CAD_ENC_CNT_COUNT 0).bump K.CAD_CNT_IDX_SLIP
      let s := (s.wr F.CAD_FLAGS_IDX_SLIP 1).raise Code.CAD_IDX_SLIP Src.cadence []
      if s.cadSource = 3 ∧ s.cadState = 1 then (s.cadStepTo (nearFrame s.cad.pos 0)).cadSettle else s
    else if s.cadSource = 3 ∧ s.cadState = 1 then s.cadLoss
    else s
  else s

def execCadEncIndex (s : State) : Host.Outcome State Fault Refusal := .next (whenUp .edge cadEncIndex s)

/-! ### Schedule descriptors (R329) -/

/-- CAD_SCH_COPY_DONE: the copy of entry `k`'s descriptor from DDR4 ends; a word that cannot be corrected leaves free bytes
(log entry 6), and where no DDR4 answers the copy is of free bytes too. -/
def cadSchCopyDone (k : Nat) (s : State) : State :=
  if (s.schEntry k).copying then
    let a := s.schAt k
    let r := if s.ddrHas a 64 && s.bit F.DDR_STAT_READY then s.ddrRead a 64 else (none, s)
    let q := match r.1 with
      | some bs => (bs, r.2)
      | none => State.freeBytes 64 r.2
    q.2.setSch k { q.2.schEntry k with shadow := some q.1, copying := false }
  else s

def execCadSchCopyDone (entry : Nat) (s : State) : Host.Outcome State Fault Refusal :=
  .next (whenUp .edge (cadSchCopyDone entry) s)

/-- CAD_SCH_RELOAD: a write of 1 to RELOAD by an agent of a node. -/
def cadSchReload (node agent : Nat) (s : State) : State := (s.setupWrite K.CAD_SCH_RELOAD (leBytes 4 1) node agent).st

def execCadSchReload (node agent : Nat) (s : State) : Host.Outcome State Fault Refusal :=
  .next (whenUp .mgmt (cadSchReload node agent) s)

end Sys2Proof.Machine
end

