-- ==== Sys2Proof/Machine/Epoch.lean ====
section
/-! DEFINITION. The fabric epoch (R269 to R275). -/

namespace Sys2Proof.Machine

/-- NET_EPOCH_SET. -/
def State.epochSet (s : State) : Nat := s.rd F.NET_EPOCH_SET_LO_SET_LO + s.rd F.NET_EPOCH_SET_HI_SET_HI * 2 ^ 32

/-- Epoch time jumps; a cadence unit locked to it steps with it (R275, R322). -/
def State.epochJump (s : State) (t : Nat) : State :=
  let s := { s with net := { s.net with epoch := t % 2 ^ 64, epochFrac := 0 } }
  if s.cadSource = 1 ∧ s.cadState = 1 then (s.cadStepTo s.epochPos).cadSettle else s

/-- An epoch reference is held: VALID, and what an absence of a bellwether is measured from (R269). -/
def State.epochHeld (s : State) : State :=
  let t := s.wr F.NET_EPOCH_STAT_VALID 1
  { t with net := { t.net with everSynced := true, noBwRaised := false } }

/-- A cadence that selects the epoch and has no reference takes one. -/
def State.epochFollow (s : State) : State :=
  if s.cadState = 1 then s.epochRateSet.cadSettle else s.cadSettle

/-- VALID is set, and a cadence unit on EPOCH has a valid reference (R321). -/
def State.epochRef (s : State) : State :=
  if s.cadSource = 1 ∧ s.cadState ≠ 1 then
    let t := s.epochHeld
    (t.cadRef 1 t.epochPos).epochFollow
  else s.epochHeld

/-- EPOCH_TX: the bellwether sends an EPOCH packet on both rings (R274); a requested step takes effect with it (R275). TX_TIME is
written as the packet leaves. -/
def epochTx (s : State) : State :=
  if s.rd F.NET_STAT_ROLE = 2 ∧ s.joined = true then
    let s := if s.net.setReq || !s.net.everSynced then
        let t := { s with net := { s.net with
          steps := if s.net.setReq then (s.net.steps + 1) % 65536 else s.net.steps, setReq := false } }
        t.epochJump t.epochSet
      else s
    let n := (s.net.eseq + 1) % 2 ^ 32
    let s := { s with net := { s.net with eseq := n, stepsSeen := some s.net.steps } }
    let s := s.epochRef
    let p : Packet := ⟨mkW0 bcastNode s.nodeId 0 0 Kind.EPOCH false 0 0 0 0, mkEpochW1 1 s.nodeId 0 n,
      leBytes 8 0 ++ leBytes 2 s.net.steps ++ leBytes 6 0⟩
    (s.injectOn 0 p).injectOn 1 p
  else s

def execEpochTx (s : State) : Host.Outcome State Fault Refusal := .next (whenUp .link epochTx s)

/-- The ring whose packets the node adjusts on, after a packet of ring `r` with HOPS `h` and ESEQ `n` (R274): the other ring counts
while its last packet is of the present or the previous period. -/
def State.epochSelects (s : State) (r h n : Nat) : Bool :=
  match getAt none s.net.ringHops (1 - r) with
  | some (h', n') =>
    let near := (n + 2 ^ 32 - n') % 2 ^ 32 ≤ 1 || (n' + 2 ^ 32 - n) % 2 ^ 32 ≤ 1
    if near then decide (h < h') || (decide (h = h') && r == 0) else true
  | none => true

/-- A 16-bit two's complement number, saturating. -/
def sat16 (e : Int) : Nat := ((max (-32767) (min 32767 e)) % 65536).toNat

/-- The node adjusts on a packet of its selected ring (R274). -/
def State.epochAdjust (s : State) (r h tx steps : Nat) : State :=
  let e : Int := (tx : Int) + s.rd (F.NET_DLY_DLY r) - s.net.epoch
  let differs := match s.net.stepsSeen with | some n => n != steps | none => false
  let s := ((s.wr F.NET_EPOCH_STAT_RING r).wr F.NET_EPOCH_STAT_HOPS h).wr F.NET_EPOCH_STAT_ERR (sat16 e)
  let s := { s with net := { s.net with stepsSeen := some steps, steps := steps } }
  let s := if differs || decide (s.rd F.NET_EPOCH_STEP_STEP_NS * 16 < e.natAbs) then
      let s := (s.bump K.NET_CNT_STEP).raise Code.NET_EPOCH_STEP Src.epoch []
      s.epochJump (tx + s.rd (F.NET_DLY_DLY r))
    else
      let rate := e * 1000000000 / ((s.rd F.NET_EPOCH_CTL_PERIOD_US * 16000 : Nat) : Int)
      { s with net := { s.net with epochRate := max (-100000) (min 100000 rate) } }
  s.epochRef

/-- EPOCH_RX: an EPOCH packet from side W (queue 0, ring A) or side E (queue 1, ring B). -/
def epochRx (queue : Nat) (s : State) : State :=
  s.withTaken queue (isEpoch 1) fun p s =>
    if 2 ≤ queue ∨ s.returned queue p = true then s
    else if p.src = s.nodeId then (if p.hops + 1 ≤ 2046 then s.sendOn queue p.incHops else s)
    else
      let s := if s.rd F.NET_STAT_ROLE = 2 ∧ p.subject < s.nodeId then
          (s.wr F.NET_STAT_ROLE 0).wr F.NET_STAT_BWID p.subject
        else s
      let sel := s.epochSelects queue p.hops p.eseq
      let s := { s with net := { s.net with ringHops := setAt s.net.ringHops queue (some (p.hops, p.eseq)) } }
      let s := if sel && decide (s.rd F.NET_STAT_ROLE ≠ 2) && s.bit (F.NET_DLY_VALID queue) && !s.bit (F.NET_DLY_ASYM queue) then
          s.epochAdjust queue p.hops (leNum (slice p.payload 0 8)) (leNum (slice p.payload 8 2))
        else s
      if p.hops + 1 ≤ 2046 then s.sendOn queue p.incHops else s

def execEpochRx (queue : Nat) (s : State) : Host.Outcome State Fault Refusal := .next (whenUp .link (epochRx queue) s)

/-- Some node of the loop is master-capable. -/
def State.anyMaster (s : State) : Bool :=
  s.bit F.NET_CTL_MCAP || s.net.nodes.any (fun e => e.2.present && e.2.mcap)

/-- NET_EPOCH_LOSS: no EPOCH packet on either ring for LOSS_N periods (R269, R270, R274). -/
def netEpochLoss (s : State) : State :=
  if s.rd F.NET_STAT_ROLE = 2 then s
  else
    let s := s.raise Code.NET_EPOCH_LOSS Src.epoch []
    let s := { s with net := { s.net with ringHops := [none, none] } }
    let was := s.bit F.NET_EPOCH_STAT_VALID
    let s := s.wr F.NET_EPOCH_STAT_VALID 0
    let s := if was && s.cadSource == 1 && s.cadState == 1 then s.cadLoss else s
    if s.joined && s.bit F.NET_CTL_MCAP then s.elect
    else if s.anyMaster then s
    else
      let s := (s.wr F.NET_STAT_ROLE 3).wr F.NET_STAT_BWID 0x7FF
      if s.net.noBwRaised then s
      else ({ s with net := { s.net with noBwRaised := true } }).raise Code.NET_NO_BELLWETHER Src.epoch []

def execNetEpochLoss (s : State) : Host.Outcome State Fault Refusal := .next (whenUp .link netEpochLoss s)

/-- NET_EPOCH_SET: a write of NET_EPOCH_SET_HI by an agent of a node (R275). -/
def netEpochSet (value : Word) (node agent : Nat) (s : State) : State :=
  (s.setupWrite K.NET_EPOCH_SET_HI (leBytes 4 value.toNat) node agent).st

def execNetEpochSet (value : Word) (node agent : Nat) (s : State) : Host.Outcome State Fault Refusal :=
  .next (whenUp .mgmt (netEpochSet value node agent) s)

end Sys2Proof.Machine
end

