-- ==== Sys2Proof/Machine/NetDone.lean ====
section
/-! DEFINITION. Packets received, tags answered, messages and broadcasts (R107, R109, R110, R148, R254 to R264). -/

namespace Sys2Proof.Machine

/-! ### Tags (R148, R255, R261) -/

/-- A tag closes with its answer delivered: it may be allocated again (R255). -/
def State.closeTag (s : State) (t : Nat) : State := (s.wr F.NET_TAG_OPEN (s.openCount - 1)).freeTag t

/-- Hand the outcome of a request or message to whoever waits for it. -/
def State.tagOutcome (s : State) (r : TagRec) (x : TaskResult) : State :=
  match r.owner with
  | .sub d => s.subAnswered d r.op r.addr x
  | .bar2 id => s.barEnded id r.addr r.len x.status x.bytesDone x.payload
  | .flush => { s with ord := { s.ord with wcDone := s.ord.wcDone ++ [(r.addr, r.len, x.status, x.bytesDone)] } }
  | .doorbell => s.doorbellAnswered r.addr x.status x.payload
  | .fetch ring => s.fetchAnswered ring r.addr x.status x.payload
  | .msg kind item => s.msgDone kind item (decide (x.status = St.OK))
  | .ringWrite key => s.ringAnswered key
  | .none => s

/-- An agent's work that waited for an earlier access goes on (R146). -/
def State.wakeKey (s : State) (k : Nat) : State :=
  let s := s.wakeAgent k
  if k = s.bar2Agent then s.pumpBar else s

/-- A tag whose answer has been delivered: it closes, unless its second copy is awaited (R261) or it is in quarantine. -/
def State.delivered (s : State) (t : Nat) (r : TagRec) : State :=
  if r.closed || r.dup then s.setTag t (some { r with acc := none }) else s.closeTag t

/-- The tag of an agent's access. -/
def State.tagOf (s : State) (k id : Nat) : Option (Nat × TagRec) :=
  s.net.tags.findSome? (fun e => match e.2 with
    | some r => if r.key == k && r.acc == some id then some (e.1, r) else none
    | none => none)

/-- The reorder buffer delivers an agent's responses in issue order within each class (R148); `fuel` bounds their number. -/
def State.deliver : Nat → Nat → State → State
  | 0, _, s => s
  | n + 1, k, s =>
    match nextDelivery (s.agent k).accesses with
    | none => s
    | some x =>
      let s := s.setAgent k { s.agent k with accesses := (s.agent k).accesses.filter (fun y => y.id != x.id) }
      match s.tagOf k x.id, x.rsp with
      | some (t, r), some res => (((s.delivered t r).tagOutcome r res).wakeKey k).deliver n k
      | _, _ => (s.wakeKey k).deliver n k

/-- An open tag is answered. -/
def State.tagAnswer (s : State) (t : Nat) (r : TagRec) (x : TaskResult) : State :=
  let s := s.setTag t (some { r with answered := true })
  match r.acc with
  | some id =>
    let s := s.answered r.key id x
    s.deliver (s.agent r.key).accesses.length r.key
  | none => (s.delivered t { r with answered := true }).tagOutcome r x

/-- The second copy of an answer has come, or will not be waited for (R261): the tag closes once the first has been delivered. -/
def State.secondCopy (s : State) (t : Nat) : State :=
  match s.tagRec t with
  | some r =>
    if r.dup && !r.closed then
      (if r.answered && r.acc.isNone then s.closeTag t else s.setTag t (some { r with dup := false }))
    else s
  | none => s

/-- A RESPONSE or INT_ACK for this node (R255): one for a tag that is not open counts as late. -/
def State.answerRx (s : State) (p : Packet) (x : TaskResult) : State :=
  match s.tagRec p.tag with
  | some r => if r.closed || r.answered then s.bump K.NET_CNT_LATE_RSP else s.tagAnswer p.tag r x
  | none => s.bump K.NET_CNT_LATE_RSP

/-! ### Receiving (R254, R256, R261, R264) -/

/-- This node's own packet has come round (R256, R264). -/
def State.stripped (s : State) (side : Nat) (p : Packet) : State :=
  let s := s.bump K.NET_CNT_STRIP
  if p.kind = Kind.REQUEST then
    let st := if p.dst = bcastNode then St.OK else St.NO_NODE
    match s.tagRec p.tag with
    | some r =>
      if r.closed then s
      else if r.answered then s.secondCopy p.tag
      else s.tagAnswer p.tag r ⟨st, 0, []⟩
    | none => s
  else if p.kind = Kind.MGMT ∧ p.ok = true then s.takenPush side p
  else s

/-- A malformed packet is discarded (R254). -/
def State.packetBad (s : State) (p : Packet) : State :=
  (s.raise Code.NET_PKT_BAD Src.packet (lohi p.w0.toNat ++ lohi p.w1.toNat)).bump K.NET_CNT_PKT_BAD

/-- The CTRL packets that a drop point takes, which the duplicate filter sees (R261). -/
def dupKind (p : Packet) : Bool := p.cls == 0 && p.kind != Kind.EPOCH && p.kind != Kind.MGMT

/-- An answer to a tag of this node. -/
def isAnswer (p : Packet) : Bool := p.kind == Kind.RESPONSE || (p.kind == Kind.MESSAGE && p.mtype == 2)

/-- The duplicate filter (R261): whether the packet is a second copy. -/
def State.dupCheck (s : State) (p : Packet) : Bool × State :=
  if !dupKind p then (false, s)
  else
    let e := (p.src, p.tag, p.kind)
    let l := s.net.dupFilter
    if l.contains e then
      let s := ({ s with net := { s.net with dupFilter := l.erase e } }).bump K.NET_CNT_DUP
      (true, if isAnswer p then s.secondCopy p.tag
        else if p.kind = Kind.REQUEST ∨ p.kind = Kind.MESSAGE then
          { s with net := { s.net with dupSeen := s.net.dupSeen.filter (fun x => x != (p.src, p.tag)) ++ [(p.src, p.tag)] } }
        else s)
    else if 1024 ≤ l.length then
      (false, ({ s with net := { s.net with dupFilter := l.drop 1 ++ [e] } }).bump K.NET_CNT_DUP_EVICT)
    else (false, { s with net := { s.net with dupFilter := l ++ [e] } })

/-- An EPOCH or MGMT packet, which does not wait at the drop point: kept for its command when it is well formed. -/
def State.checkTake (s : State) (side : Nat) (p : Packet) : State := if p.ok then s.takenPush side p else s.packetBad p

/-- A broadcast on its way (R264): this node's own passes on. Another's is kept to be applied once and sent on; a second pass, which the
duplicate filter knows, is only sent on. -/
def State.broadcastTake (s : State) (side : Nat) (p : Packet) : State :=
  if p.src = s.nodeId then s.sendOn side p
  else if !p.ok then s.packetBad p
  else
    let r := s.dupCheck p
    if r.1 then r.2.sendOn side p else (r.2.takenPush side p).bump K.NET_CNT_DROP

/-- A packet for this node's drop point. -/
def State.dropTake (s : State) (side : Nat) (x : RxPkt) : State :=
  let free := fun (s : State) => s.freeUnits side x.pool x.units
  if !x.pkt.ok then free (s.packetBad x.pkt)
  else
    let r := s.dupCheck x.pkt
    if r.1 then free r.2
    else
      let s := r.2
      { s with net := { s.net with dropWait := modAt [] s.net.dropWait side (· ++ [x]) } }

/-- PACKET_RX: the oldest packet in a receiving side's buffer, by the table of R256. -/
def packetRx (side : Nat) (s : State) : State :=
  match getAt [] s.net.rx side with
  | [] => s
  | x :: rest =>
    let s := { s with net := { s.net with rx := setAt s.net.rx side rest } }
    let p := x.pkt
    let free := fun (s : State) => s.freeUnits side x.pool x.units
    match s.dispose side p with
    | .strip => (free s).stripped side p
    | .delay => (free s).checkTake side p
    | .control => (free s).checkTake side p
    | .broadcast => if s.joined then (free s).broadcastTake side p else s.sendRingFrom side p true (some side)
    | .take => s.dropTake side x
    | .remove => (free s).bump K.NET_CNT_STRIP
    | .forward => s.sendRingFrom side p true (some side)

def execPacketRx (side : Nat) (s : State) : Host.Outcome State Fault Refusal :=
  .next (whenUp .link (fun s => if side < 2 then packetRx side s else s) s)

/-- The drop path admits the packet now (R259): a request needs a task record, which waits for none (R124, R132, R324). -/
def State.admits (s : State) (x : RxPkt) : Bool :=
  x.pkt.kind != Kind.REQUEST || (s.drv.waiting.isEmpty && s.cad.holdWait.isEmpty)

/-- DROP_ADMIT: the oldest packet that can be admitted leaves the buffer of `side`, whose units are free again (R258, R259). -/
def dropAdmit (side : Nat) (s : State) : State :=
  match takeFirst s.admits (getAt [] s.net.dropWait side) with
  | none => s
  | some (x, rest) =>
    let s := { s with net := { s.net with dropWait := setAt s.net.dropWait side rest } }
    ((s.freeUnits side x.pool x.units).takenPush side x.pkt).bump K.NET_CNT_DROP

def execDropAdmit (side : Nat) (s : State) : Host.Outcome State Fault Refusal :=
  .next (whenUp .link (fun s => if side < 2 then dropAdmit side s else s) s)

/-- NET_DROP_STALL: a packet has waited STALL_US; reported once for that wait (R259). -/
def netDropStall (side : Nat) (s : State) : State :=
  let l := getAt [] s.net.dropWait side
  match l.find? (fun x => !x.stalled) with
  | none => s
  | some x =>
    let l' := l.map (fun y => if y = x then { y with stalled := true } else y)
    let s := { s with net := { s.net with dropWait := setAt s.net.dropWait side l' } }
    (s.raise Code.NET_DROP_STALL (Src.forward side) []).bump K.NET_CNT_DROP_STALL

def execNetDropStall (side : Nat) (s : State) : Host.Outcome State Fault Refusal :=
  .next (whenUp .link (fun s => if side < 2 then netDropStall side s else s) s)

/-! ### Answers -/

/-- RESPONSE_RX. -/
def responseRx (queue : Nat) (s : State) : State :=
  s.withTaken queue (fun p => p.kind == Kind.RESPONSE) (fun p s => s.answerRx p ⟨p.status, p.bytesDone, p.payload⟩)

def execResponseRx (queue : Nat) (s : State) : Host.Outcome State Fault Refusal := .next (whenUp .link (responseRx queue) s)

/-- A MESSAGE of one type. -/
def isMessage (t : Nat) (p : Packet) : Bool := p.kind == Kind.MESSAGE && p.mtype == t

/-- INT_ACK_RX. -/
def intAckRx (queue : Nat) (s : State) : State :=
  s.withTaken queue (isMessage 2) (fun p s => s.answerRx p ⟨St.OK, 0, []⟩)

def execIntAckRx (queue : Nat) (s : State) : Host.Outcome State Fault Refusal := .next (whenUp .link (intAckRx queue) s)

/-- NET_TAG_TO: the tag has been open for TO_MS without an answer (R255). -/
def netTagTo (tag : Nat) (s : State) : State :=
  match s.tagRec tag with
  | none => s
  | some r =>
    if r.closed || r.answered then s
    else
      let s := (s.raise Code.NET_TAG_TO Src.packet (r.dst :: tag :: lohi r.addr)).bump K.NET_CNT_TAG_TO
      let s := s.wr F.NET_TAG_OPEN (s.openCount - 1)
      let r := { r with closed := true }
      let s := if r.dst = bcastNode then s.storeUnsent r.key else s
      s.tagAnswer tag r ⟨St.TAG_TIMEOUT, 0, []⟩

def execNetTagTo (tag : Nat) (s : State) : Host.Outcome State Fault Refusal := .next (whenUp .link (netTagTo tag) s)

/-- TAG_QUARANTINE_END: the closed tag may be allocated again. -/
def tagQuarantineEnd (tag : Nat) (s : State) : State :=
  match s.tagRec tag with
  | some r => if r.closed && r.acc.isNone then s.freeTag tag else s
  | none => s

def execTagQuarantineEnd (tag : Nat) (s : State) : Host.Outcome State Fault Refusal :=
  .next (whenUp .link (tagQuarantineEnd tag) s)

/-- DUP_ENTRY_EXPIRE: DUP_US has passed for an entry of the duplicate filter, and for the tag it answered (R261). -/
def dupEntryExpire (src tag kind : Nat) (s : State) : State :=
  let s := { s with net := { s.net with dupFilter := s.net.dupFilter.erase (src, tag, kind) } }
  match s.tagRec tag with
  | some r => if r.dst = src ∧ (kind = Kind.RESPONSE ∨ kind = Kind.MESSAGE) then s.secondCopy tag else s
  | none => s

def execDupEntryExpire (src tag kind : Nat) (s : State) : Host.Outcome State Fault Refusal :=
  .next (whenUp .link (dupEntryExpire src tag kind) s)

/-! ### Messages and broadcasts -/

/-- INTERRUPT_RX: the entry goes to its completion ring; it waits while the completion queue is full (R107, R215). -/
def interruptRx (queue : Nat) (s : State) : State :=
  if s.cqRoom then s.withTaken queue (isMessage 1) (fun p s => s.cqPost (messageEntry p)) else s

def execInterruptRx (queue : Nat) (s : State) : Host.Outcome State Fault Refusal := .next (whenUp .host (interruptRx queue) s)

/-- VECTOR_RX: the interrupter queues the vector (R110). -/
def vectorRx (queue : Nat) (s : State) : State :=
  s.withTaken queue (isMessage 3) (fun p s => s.raiseVector ⟨BitVec.ofNat 32 (leNum p.payload), none, some p, false⟩)

def execVectorRx (queue : Nat) (s : State) : Host.Outcome State Fault Refusal := .next (whenUp .edge (vectorRx queue) s)

/-- A broadcast write of set-up registers. -/
def isBroadcast (p : Packet) : Bool := p.kind == Kind.REQUEST && p.dst == bcastNode

/-- Apply a broadcast write to the node's own set-up space, unless BCAST_EN is 0 (R264, R468). -/
def State.applyBroadcast (s : State) (p : Packet) : State :=
  let off := faOffset p.addr
  if s.bit F.CHIP_CTL_BCAST_EN ∧ (p.op = 0x02 ∨ p.op = 0x03) ∧ regionOf off = .setup ∧ setupSizeOk off (p.lenm1 + 1) = true then
    (s.setupWrite (off - 0x3000000000) p.payload p.src p.agent).st
  else s

/-- BROADCAST_RX: applied once and sent on (R264). -/
def broadcastRx (queue : Nat) (s : State) : State :=
  if queue < 3 then
    s.withTaken queue isBroadcast (fun p s =>
      let s := if queue < 2 ∧ p.src ≠ s.nodeId then s.sendOn queue p else s
      if s.up .mgmt then s.applyBroadcast p else s)
  else s

def execBroadcastRx (queue : Nat) (s : State) : Host.Outcome State Fault Refusal := .next (whenUp .link (broadcastRx queue) s)

end Sys2Proof.Machine
end

