-- ==== Sys2Proof/Machine/HostPort.lean ====
section
/-! DEFINITION. The descriptor fetcher, the rings, and the PCI Express endpoint (R204 to R207, R215, R217, R221 to R225, R434). -/

namespace Sys2Proof.Machine

/-! ### Polling (R204) -/

/-- What a doorbell READ at `a` left: an answer at once, or a request under way. -/
def doorbellGot (a : Nat) (r : Option Nat × State) : State :=
  match r.1 with
  | some st => r.2.doorbellAnswered a st []
  | none => r.2

/-- One READ of 256 bytes of the doorbell page. -/
def State.doorbellRead (s : State) (a : Nat) : State := doorbellGot a (s.ownRequest 0x01 a 256 [] .doorbell)

/-- A poll begins. -/
def State.pollBegins (s : State) : State :=
  let t := s.bump K.HST_CNT_POLL
  { t with host := { t.host with polling := true, polled := [] } }

/-- DOORBELL_POLL: sixteen READs of 256 bytes, issued together. -/
def doorbellPoll (s : State) : State :=
  if s.bit F.HST_CTL_FETCH_EN && !s.flt.fencedHost && !s.host.polling then
    (List.range 16).foldl (fun (t : State) i => t.doorbellRead (t.dbBase + 256 * i)) s.pollBegins
  else s

def execDoorbellPoll (s : State) : Host.Outcome State Fault Refusal := .next (whenUp .host doorbellPoll s)

/-- `n` bytes of the doorbell page as the poll read them. -/
def State.pollWord (s : State) (off n : Nat) : Nat :=
  match s.host.polled.find? (fun p => p.1 == off / 256 * 256) with
  | some p => leNum (slice p.2.2 (off % 256) n)
  | none => 0

/-- The lowest page offset whose READ failed, and its status. -/
def State.pollFailed (s : State) : Option (Nat × Nat) :=
  (List.range 16).findSome? (fun i =>
    match s.host.polled.find? (fun p => p.1 == 256 * i && !performed p.2.1) with
    | some p => some (p.1, p.2.1)
    | none => none)

/-- The interval doubles up to MAX. -/
def State.pollSlower (s : State) : State :=
  s.wr F.HST_STAT_INTERVAL (min (2 * s.rd F.HST_STAT_INTERVAL) (s.rd F.HST_POLL_MAX_US * 100))

/-- A ring restarts at the producer index of its doorbell word (R206). -/
def State.ringRestart (s : State) (n gen pi : Nat) : State :=
  let s := ((s.wr (F.HST_CR_CI_CI n) pi).wr (F.HST_CR_STAT_STOPPED n) 0).wr (F.HST_CR_STAT_GEN n) gen
  (s.setFetches n []).shadowRing n

/-- A ring stops (R206). -/
def State.ringStop (s : State) (n : Nat) : State := (s.wr (F.HST_CR_STAT_STOPPED n) 1).shadowRing n

/-- One enabled ring in a poll: restarted, stopped, or with work to fetch. -/
def State.ringPolled (s : State) (n : Nat) : State × Bool :=
  let w := s.pollWord (8 * n) 8
  let gen := nbits w 63 48
  let pi := nbits w 31 0
  if gen ≠ s.rd (F.HST_CR_STAT_GEN n) then (s.ringRestart n gen pi, false)
  else if s.bit (F.HST_CR_STAT_STOPPED n) then (s, false)
  else
    let held := (pi + 2 ^ 32 - s.rd (F.HST_CR_CI_CI n)) % 2 ^ 32
    if s.crSize n < held then ((s.raise Code.HST_RING_ERR Src.fetcher []).ringStop n, false)
    else (s, decide (held ≠ 0))

/-- The READ of `m` descriptors from index `i` on at `a` joins the ring's fetches. -/
def fetchSent (n i m a : Nat) (r : Option Nat × State) : State :=
  r.2.setFetches n (r.2.fetchesOf n ++ [⟨i, m, a, r.1.map (fun st => (st, []))⟩])

def State.fetchRead (s : State) (n i m a : Nat) : State := fetchSent n i m a (s.ownRequest 0x01 a (64 * m) [] (.fetch n))

/-- Fetch `count` descriptors of ring `n` from index `i` on, in READs of up to 256 bytes that do not cross the ring's end (R207);
`fuel` bounds the READs. -/
def State.fetchRing : Nat → Nat → Nat → Nat → State → State
  | 0, _, _, _, s => s
  | fuel + 1, n, i, count, s =>
    if count = 0 then s
    else
      let m := min (min count 4) (s.crSize n - i % s.crSize n)
      (s.fetchRead n i m (s.crBase n + i % s.crSize n * 64)).fetchRing fuel n ((i + m) % 2 ^ 32) (count - m)

/-- The completion ring a command ring names is full: nothing is fetched (R215). -/
def State.cqBlocks (s : State) (n : Nat) : Bool :=
  let c := s.rd (F.HST_CR_CTL_CQ n)
  s.outEn c && s.outFull c

/-- Serve a ring that has work (R207). -/
def State.serveRing (s : State) (n : Nat) : State :=
  if s.fetchesOf n ≠ [] ∨ s.cqBlocks n = true then s
  else
    let ci := s.rd (F.HST_CR_CI_CI n)
    let held := (nbits (s.pollWord (8 * n) 8) 31 0 + 2 ^ 32 - ci) % 2 ^ 32
    let s := { s with host := { s.host with lastRing := n } }
    s.fetchRing 16 n ci (min held (s.rd F.HST_POLL_FETCH_MAX))

/-- The consumer indices of the rings the device writes. -/
def State.takeIndices (s : State) : State :=
  let ci := (List.range 256).foldl (fun (t : Table Nat) c => tput (fun _ => 0) t c (s.pollWord (0x800 + 4 * c) 4)) s.host.cqCi
  { s with host := { s.host with cqCi := ci, evCi := s.pollWord 0xC00 4, stCi := s.pollWord 0xC04 4 } }

/-- A poll whose reads all ended OK. -/
def State.pollServe (s : State) : State :=
  let r := (List.range 256).foldl (fun (r : State × List Nat) n =>
    if r.1.bit (F.HST_CR_CTL_EN n) then
      let q := r.1.ringPolled n
      (q.1, if q.2 then r.2 ++ [n] else r.2)
    else r) (s, [])
  let last := s.host.lastRing
  let order := r.2.filter (fun n => decide (last < n)) ++ r.2.filter (fun n => decide (n ≤ last))
  let s := (order.foldl (fun (s : State) n => s.serveRing n) r.1).takeIndices
  if r.2 = [] then s.pollSlower else s.wr F.HST_STAT_INTERVAL (s.rd F.HST_POLL_MIN_10NS)

/-- DOORBELL_READ_DONE. A failed read serves no ring; the first such poll is reported (R204). -/
def doorbellReadDone (s : State) : State :=
  if s.host.polling && s.host.polled.length == 16 && !s.flt.fencedHost then
    match s.pollFailed with
    | some (off, st) =>
      let s := if s.host.pollBad then s else s.raise Code.HST_FETCH_ERR Src.fetcher [0x100, off, st]
      let s := s.pollSlower
      { s with host := { s.host with polling := false, polled := [], pollBad := true } }
    | none =>
      let s := s.pollServe
      { s with host := { s.host with polling := false, polled := [], pollBad := false } }
  else s

def execDoorbellReadDone (s : State) : Host.Outcome State Fault Refusal := .next (whenUp .host doorbellReadDone s)

/-- HST_WAKE: a write of any value to the register (R205). -/
def execHstWake (s : State) : Host.Outcome State Fault Refusal := .next (whenUp .mgmt State.hstWake s)

/-! ### Fetched descriptors (R206, R207, R365) -/

/-- The DESC task of a fetched descriptor, with its stamp (R120). It is held here for the stamp when the descriptor executes here and
is well formed (R212). -/
def State.fetchedTask (s : State) (ring index addr : Nat) (desc : List Byte) : Task :=
  let t := s.descTask 1 ring ring index addr desc (s.bit (F.HST_CR_CTL_ORD ring))
  let no := s.flt.safe && dClass desc == 0 && !safeExempt (dOp desc) (dAddr desc)
  { t with refused := no, pass := no || s.executesAway t || descBad desc }

/-- A descriptor becomes a task (R207); an unordered ring keeps the order of its barriers (R144). -/
def State.takeDesc (s : State) (ring index addr : Nat) (desc : List Byte) : State :=
  let t := s.fetchedTask ring index addr desc
  let s := if t.ord || t.malformed then s
    else s.setRingOpen ring (s.ringOpen ring ++ [(index, decide (dOp desc = 0x13 ∨ dOp desc = 0x14))])
  s.takeIn t

/-- DESC_FETCH_DONE: the oldest fetch of a ring has been answered. -/
def descFetchDone (ring : Nat) (s : State) : State :=
  match s.fetchesOf ring with
  | [] => s
  | f :: rest =>
    match f.answer with
    | none => s
    | some (st, bs) =>
      if performed st then
        let s := s.setFetches ring rest
        let s := (s.bumpN K.HST_CNT_DESC f.count).wr (F.HST_CR_CI_CI ring) ((s.rd (F.HST_CR_CI_CI ring) + f.count) % 2 ^ 32)
        let s := s.shadowRing ring
        (List.range f.count).foldl (fun (s : State) j =>
          s.takeDesc ring ((f.index + j) % 2 ^ 32) (f.addr + 64 * j) (slice bs (64 * j) 64)) s
      else ((s.setFetches ring []).raise Code.HST_FETCH_ERR Src.fetcher [ring, f.index, st]).ringStop ring

def execDescFetchDone (ring : Nat) (s : State) : Host.Outcome State Fault Refusal :=
  .next (whenUp .host (fun s => if ring < 256 then descFetchDone ring s else s) s)

/-! ### Rings the device writes (R215, R217) -/

/-- CQ_SPACE_FREE: entries of completion ring `ring` that waited are written. -/
def execCqSpaceFree (ring : Nat) (s : State) : Host.Outcome State Fault Refusal :=
  .next (whenUp .host (fun s => if ring < 256 then s.pumpRing ring else s) s)

/-- MSIX_COAL_EXPIRY: a deferred signal is sent, and starts an interval of its own. -/
def msixCoalExpiry (ring : Nat) (s : State) : State :=
  match s.host.coal.find? (fun x => x.1 == ring) with
  | none => s
  | some x =>
    let rest := s.host.coal.filter (fun y => y.1 != ring)
    if x.2 then
      let s := { s with host := { s.host with coal := rest ++ [(ring, false)] } }
      s.msixSignal (s.rd (F.HST_CQ_CTL_MSIX_VEC ring))
    else { s with host := { s.host with coal := rest } }

def execMsixCoalExpiry (ring : Nat) (s : State) : Host.Outcome State Fault Refusal := .next (whenUp .host (msixCoalExpiry ring) s)

/-! ### The endpoint's BARs (R222, R223) -/

/-- The endpoint takes memory requests: link up, in D0 (R221). -/
def State.pcieOpen (s : State) : Bool := s.pcieUp && !s.host.d3

/-- BAR0: a set-up access (R3, R222, R223); the writer is the BAR2 agent. -/
def bar0Tlp (write : Bool) (tag off len : Nat) (data : List Byte) (s : State) : State :=
  let n := if write then data.length else len
  if !s.pcieUp then s
  else if !s.pcieOpen then (if write then s else s.emit (.tlpStatus tag true))
  else if off + n ≤ 0x10000 ∧ setupSizeOk off n = true then
    if write then (s.setupWrite off data s.nodeId (s.rd F.CHIP_ORD_CTL_BAR2_AGENT)).st
    else
      let r := s.setupRead off n
      r.2.emit (.tlpData tag r.1)
  else
    let a := s.nodeId * 2 ^ 48 + 0x3000000000 + off
    let s := s.raiseCap Code.ADR_SETUP Src.setup []
      ⟨2, a, s.nodeId, s.rd F.CHIP_ORD_CTL_BAR2_AGENT, if write then 2 else 1, (n - 1) % 256, 0, 0⟩
    if write then s else s.emit (.tlpStatus tag true)

def execBar0Tlp (write : Bool) (tag offset len : Nat) (data : List Byte) (s : State) : Host.Outcome State Fault Refusal :=
  .next (whenUp .endpoint (fun s => if s.up .mgmt then bar0Tlp write tag offset len data s else s) s)

/-- BAR2: a window into the fabric (R223). While B2_EN is 0, and while the HOST region is fenced (R364), nothing is done. -/
def bar2Tlp (write : Bool) (tag off len : Nat) (data : List Byte) (s : State) : State :=
  let n := if write then data.length else len
  if s.pcieUp = false ∨ n = 0 ∨ 2 ^ 36 < off + n then s
  else if s.bit F.HST_PCIE_CTL_B2_EN = false ∨ s.flt.fencedHost = true ∨ s.host.d3 = true then
    if write then s.bumpN K.HST_CNT_B2_LOST_BYTES n else s.emit (.tlpStatus tag true)
  else
    let a := s.rd F.HST_B2_BASE_NODE * 2 ^ 48 + s.rd F.HST_B2_BASE_OFFSET_HI * 2 ^ 36 + off
    let t : BarTlp :=
      { id := s.host.nextTlp, tag := tag, write := write, addr := a, len := n, data := if write then data else [], next := 0
        open_ := [], status := St.OK, lost := 0, dropped := false }
    let s := { s with host := { s.host with nextTlp := s.host.nextTlp + 1, tlps := s.host.tlps ++ [t] } }
    s.pumpBar

def execBar2Tlp (write : Bool) (tag offset len : Nat) (data : List Byte) (s : State) : Host.Outcome State Fault Refusal :=
  .next (whenUp .endpoint (bar2Tlp write tag offset len data) s)

/-- UNSUPPORTED_TLP: an I/O request, a locked read or an AtomicOp (R223). -/
def execUnsupportedTlp (tag : Nat) (s : State) : Host.Outcome State Fault Refusal :=
  .next (whenUp .endpoint (fun s => if s.pcieUp then s.emit (.tlpStatus tag true) else s) s)

/-- The bytes of an MSI-X table entry (R222). -/
def MsixEntry.bytes (e : MsixEntry) : List Byte := leBytes 8 e.addr ++ leBytes 4 e.data ++ leBytes 4 (b2n e.masked)

/-- The entry its bytes describe; the two low address bits read zero. -/
def msixOf (bs : List Byte) : MsixEntry :=
  ⟨leNum (slice bs 0 8) / 4 * 4, leNum (slice bs 8 4), (leNum (slice bs 12 4)).testBit 0⟩

/-- One byte of BAR4. -/
def State.bar4Byte (s : State) (off : Nat) : Byte :=
  if off < 0x1000 then getAt 0 (s.msixEntry (off / 16)).bytes (off % 16)
  else if off < 0x1020 then
    BitVec.ofNat 8 ((List.range 8).foldl (fun (n : Nat) i => if s.host.pba.contains ((off - 0x1000) * 8 + i) then n + 2 ^ i else n) 0)
  else 0

/-- Write one byte of the MSI-X table; the pending bits are read-only. -/
def State.bar4Put (s : State) (off : Nat) (b : Byte) : State :=
  if off < 0x1000 then
    let v := off / 16
    let e := msixOf (setAt (s.msixEntry v).bytes (off % 16) b)
    { s with host := { s.host with msix := tput MsixEntry.masked' s.host.msix v e } }
  else s

/-- Pending vectors that are no longer masked are sent (PCI Express Base 4.0). -/
def State.msixFlush (s : State) : State :=
  if !s.pcieUp || !s.host.msixEn then s
  else
    let ps := s.host.pba
    ps.foldl (fun (s : State) v => s.msixSignal v) { s with host := { s.host with pba := [] } }

/-- BAR4: the MSI-X table and the pending bits. -/
def bar4Tlp (write : Bool) (tag off len : Nat) (data : List Byte) (s : State) : State :=
  let n := if write then data.length else len
  if s.pcieUp = false ∨ 0x2000 < off + n then s
  else if s.host.d3 = true ∨ s.flt.fencedHost = true then (if write then s else s.emit (.tlpStatus tag true))
  else if write then
    ((List.range n).foldl (fun (s : State) i => s.bar4Put (off + i) (getAt 0 data i)) s).msixFlush
  else s.emit (.tlpData tag ((List.range n).map (fun i => s.bar4Byte (off + i))))

def execBar4Tlp (write : Bool) (tag offset len : Nat) (data : List Byte) (s : State) : Host.Outcome State Fault Refusal :=
  .next (whenUp .endpoint (bar4Tlp write tag offset len data) s)

/-! ### The host window at the link (R224, R225) -/

/-- A window request leaves the port. -/
def State.dropReq (s : State) (r : HostReq) : State :=
  { s with host := { s.host with reqs := s.host.reqs.filter (fun x => x.id != r.id) } }

/-- A window request ends with HOST_ABORT. -/
def State.hostAbort (s : State) (r : HostReq) : State :=
  let s := (s.raise Code.HST_HOST_ABORT Src.pcie []).bump K.HST_CNT_HOST_ABORT
  match r.drover with
  | some d => s.finishTask d St.HOST_ABORT 0 []
  | none => s.segProven r false

/-- A read or AtomicOp on its way to the host. -/
def State.hostReq (s : State) (id : Nat) : Option HostReq := s.host.reqs.find? (fun r => r.id == id && r.sent)

/-- HOST_WINDOW_COMPLETION: `status` 0 is a Successful Completion with its data, any other an error or poisoned data. -/
def hostWindowCompletion (id status : Nat) (data : List Byte) (s : State) : State :=
  match s.hostReq id with
  | none => s
  | some r =>
    if status = 0 ∧ data.length ≠ r.len then s
    else
      let s := s.dropReq r
      let s := if status = 0 then
          match r.drover with
          | some d => s.hostAnswered d r data
          | none => s.segProven r true
        else s.hostAbort r
      s.pumpHost s.host.reqs.length

def execHostWindowCompletion (id status : Nat) (data : List Byte) (s : State) : Host.Outcome State Fault Refusal :=
  .next (whenUp .endpoint (hostWindowCompletion id status data) s)

/-- HOST_COMPLETION_TIMEOUT. -/
def hostCompletionTimeout (id : Nat) (s : State) : State :=
  match s.hostReq id with
  | none => s
  | some r =>
    let s := (s.dropReq r).hostAbort r
    s.pumpHost s.host.reqs.length

def execHostCompletionTimeout (id : Nat) (s : State) : Host.Outcome State Fault Refusal :=
  .next (whenUp .endpoint (hostCompletionTimeout id) s)

/-- PCIE_FLOW_CONTROL_UPDATE: posted-request credits come back, counted in TLPs. -/
def pcieCredits (credits : Nat) (s : State) : State :=
  if s.pcieUp then
    let s := { s with host := { s.host with credits := s.host.credits + credits } }
    s.pumpHost s.host.reqs.length
  else s

def execPcieFlowControlUpdate (credits : Nat) (s : State) : Host.Outcome State Fault Refusal :=
  .next (whenUp .endpoint (pcieCredits credits) s)

/-- Configuration space and MSI-X table as PCI Express Base 4.0 resets them. -/
def State.configReset (s : State) : State :=
  let s := s.wr F.HST_PCIE_STAT_BME 0
  { s with host := { s.host with msix := [], pba := [], atomicEn := false, mrrs := 512, mps := 128, d3 := false, msixEn := false
                                 funcMask := false, bars := [0x4, 0, 0xC, 0, 0x4, 0] } }

/-- What a Function Level Reset, loss of link or PERST_N does (R225): reads not yet answered are dropped while the requests issued
for them run on, window requests end, configuration space is reset; an exception of the BAR2 agent (R164). -/
def State.functionReset (s : State) : State :=
  let keep := s.host.tlps.filterMap (fun (t : BarTlp) =>
    if t.write then some t else if t.open_ = [] then none else some { t with dropped := true, next := t.len })
  let reqs := s.host.reqs
  let s := ({ s with host := { s.host with tlps := keep, reqs := [] } }).configReset
  let s := s.exception s.bar2Agent
  (reqs.foldl (fun (s : State) r => s.hostAbort r) s).pumpBar

/-- The link goes down. -/
def State.pcieDown (s : State) : State :=
  let s := ((s.wr F.HST_PCIE_STAT_LINK_UP 0).wr F.HST_PCIE_STAT_SPEED 0).wr F.HST_PCIE_STAT_WIDTH 0
  { s with host := { s.host with credits := 0 } }

/-- PCIE_FLR: `linkLoss` tells loss of link from a Function Level Reset. -/
def pcieFlr (linkLoss : Bool) (s : State) : State :=
  if s.pcieUp then (if linkLoss then s.pcieDown else s).functionReset else s

def execPcieFlr (linkLoss : Bool) (s : State) : Host.Outcome State Fault Refusal :=
  .next (whenUp .endpoint (pcieFlr linkLoss) s)

/-- PCIE_LINK_UP: speed code and lanes (R221, R434). -/
def pcieLinkUp (speed width : Nat) (s : State) : State :=
  if s.bit F.HST_CTL_HEAD ∧ s.boot.pll = true ∧ 1 ≤ speed ∧ speed ≤ 4 ∧ (width = 1 ∨ width = 2 ∨ width = 4 ∨ width = 8) then
    ((s.wr F.HST_PCIE_STAT_LINK_UP 1).wr F.HST_PCIE_STAT_SPEED speed).wr F.HST_PCIE_STAT_WIDTH width
  else s

def execPcieLinkUp (speed width : Nat) (s : State) : Host.Outcome State Fault Refusal :=
  .next (whenUp .endpoint (pcieLinkUp speed width) s)

/-- A base address register after a write of `v` (R222): 64-bit BARs of 64 KiB, of 64 GiB and prefetchable, and of 8 KiB. -/
def barAfter (n : Nat) (v : Word) : Word :=
  if n = 0 then v &&& 0xFFFF0000#32 ||| 0x4#32
  else if n = 2 then 0xC#32
  else if n = 3 then v &&& 0xFFFFFFF0#32
  else if n = 4 then v &&& 0xFFFFE000#32 ||| 0x4#32
  else v

/-- The base address register at an offset of the type 0 header. -/
def barIndex (reg : Nat) : Option Nat := if 0x10 ≤ reg ∧ reg < 0x28 then some ((reg - 0x10) / 4) else none

/-- What the manual gives of a configuration register (R221, R222): the bits it states, and their values. -/
def State.configKnown (s : State) (reg : Nat) : Word × Word :=
  match barIndex reg with
  | some n => (0xFFFFFFFF#32, getAt 0 s.host.bars n)
  | none =>
    if reg = 0x00 then (0xFFFFFFFF#32, BitVec.ofNat 32 (0x9416 * 2 ^ 16 + s.rd F.CHIP_ID_VENDOR))
    else if reg = 0x04 then (0x4#32, BitVec.ofNat 32 (4 * b2n (s.bit F.HST_PCIE_STAT_BME)))
    else if reg = 0x08 then (0xFFFFFF00#32, 0x06800000#32)
    else if reg = 0x0C then (0x00FF0000#32, 0)
    else if reg = 0x3C then (0x0000FF00#32, 0)
    else (0, 0)

/-- A configuration read: bits the manual does not give are free values (log entry 57). -/
def State.configRead (s : State) (tag reg : Nat) : State :=
  let k := s.configKnown reg
  let r := s.free 32
  r.2.emit (.tlpData tag (leBytes 4 ((k.2 &&& k.1) ||| (r.1 &&& ~~~k.1)).toNat))

/-- PCIE_CONFIG_REQUEST: CRS until the end of LOAD (R434); a read is answered, and a write sets a base address register or the fields
the endpoint acts on. -/
def pcieConfig (write : Bool) (tag reg : Nat) (value : Word) (bme : Bool) (enables : PcieEnables) (mrrs mps : Nat) (s : State) : State :=
  if !s.pcieUp then s
  else if s.stage < 2 then s.emit .crs
  else if !write then s.configRead tag reg
  else match barIndex reg with
  | some n => { s with host := { s.host with bars := setAt s.host.bars n (barAfter n value) } }
  | none =>
    let s := s.wrB F.HST_PCIE_STAT_BME bme
    let h := s.host
    let s := { s with host := { h with atomicEn := enables.atomicEn, msixEn := enables.msixEn, funcMask := enables.funcMask, d3 := enables.d3
                                       mrrs := if [128, 256, 512, 1024, 2048, 4096].contains mrrs then mrrs else h.mrrs
                                       mps := if [128, 256, 512].contains mps then mps else h.mps } }
    s.msixFlush

def execPcieConfigRequest (write : Bool) (tag reg : Nat) (value : Word) (bme : Bool) (enables : PcieEnables) (mrrs mps : Nat)
    (s : State) : Host.Outcome State Fault Refusal :=
  .next (whenUp .endpoint (pcieConfig write tag reg value bme enables mrrs mps) s)

end Sys2Proof.Machine
end

