-- ==== Sys2Proof/Machine/Service.lean ====
section
/-! DEFINITION. The service monitor and the analogue test buses (R444 to R453). -/

namespace Sys2Proof.Machine

/-! ### Reply lines (R447) -/

/-- The three conditions a status line tells of, in order. -/
def State.svcStatus (s : State) : List String :=
  (if s.bit F.FLT_CHIP_STAT_REC_FAIL then ["!REC FAIL"] else []) ++ (if s.flt.safe then ["!SAFE"] else []) ++
    (if s.stage = 7 then ["!BOOT FAIL"] else [])

/-- One line. -/
def State.svcLine (s : State) (ws : List SvcTok) : State := s.emit (.svcLine ws)

/-- Status lines and the prompt. -/
def State.svcPrompt (s : State) : State :=
  (s.svcStatus.foldl (fun (s : State) t => s.svcLine [.text t]) s).emit .svcPrompt

/-- The monitor's greeting at each release of the MGMT domain from reset (R445). -/
def State.svcGreet (s : State) : State := (s.svcLine [.text "NB-9416 ID 0x1941656F"]).svcPrompt

/-- A field's value in as many digits as it needs. -/
def State.svcField (s : State) (f : Fld) : SvcTok := .hex ((f.hi - f.lo + 4) / 4) (bitsOf (s.view f.key) f.hi f.lo)

/-- The value of a register as an ordinary read shows it, without clearing or latching (R449). -/
def State.svcReg (s : State) (k : Nat) : SvcTok :=
  let wo := match regAt (keyOff k) with | some r => r.accMask .wo | none => 0
  .hex 8 (s.view k &&& ~~~wo).toNat

/-- Agent of the monitor's accesses (R449). -/
def State.svcAgent (s : State) : Nat := s.rd F.SVC_CTL_AGENT

/-! ### Command lines (R446, R450) -/

/-- Character codes of a word. -/
def codes (w : List Char) : List Nat := w.map Char.toNat

/-- Lower case (R446). -/
def lowerCase (c : Nat) : Nat := if 65 ≤ c ∧ c ≤ 90 then c + 32 else c

/-- Words of a line, parted by spaces. -/
def splitWords : List Nat → List Nat → List (List Nat)
  | [], w => if w = [] then [] else [w]
  | c :: cs, w => if c = 32 then (if w = [] then splitWords cs [] else w :: splitWords cs []) else splitWords cs (w ++ [c])

/-- A hexadecimal digit. -/
def hexValue (c : Nat) : Option Nat :=
  if 48 ≤ c ∧ c ≤ 57 then some (c - 48) else if 97 ≤ c ∧ c ≤ 102 then some (c - 87) else none

/-- A hexadecimal number from its digits. -/
def hexDigits : List Nat → Nat → Option Nat
  | [], n => some n
  | c :: cs, n => match hexValue c with | some d => hexDigits cs (16 * n + d) | none => none

/-- An argument: hexadecimal, with or without 0x. -/
def hexArg (w : List Nat) : Option Nat :=
  match w with
  | 48 :: 120 :: c :: cs => hexDigits (c :: cs) 0
  | c :: cs => hexDigits (c :: cs) 0
  | [] => none

/-- What a line asks for. -/
inductive SvcParse where
  | run (c : MonCmd)
  | syntaxErr
  | rangeErr
  deriving DecidableEq, Repr

/-- A command where its arguments are in range. -/
def inRange (ok : Bool) (c : MonCmd) : SvcParse := if ok then .run c else .rangeErr

/-- Arguments read as numbers; none where one is no number. -/
def hexArgs : List (List Nat) → Option (List Nat)
  | [] => some []
  | w :: ws => match hexArg w, hexArgs ws with
    | some n, some ns => some (n :: ns)
    | _, _ => none

/-- Commands whose first word is followed by numbers only. -/
def parseNumeric (w : List Nat) (ns : List Nat) : SvcParse :=
  if w = codes ['p', 'e', 'e', 'k'] then
    match ns with
    | [off] => inRange (off % 4 == 0 && decide (off < 0x10000)) (.peek off 1)
    | [off, n] => inRange (off % 4 == 0 && decide (1 ≤ n ∧ n ≤ 64 ∧ off + 4 * n ≤ 0x10000)) (.peek off n)
    | _ => .syntaxErr
  else if w = codes ['p', 'o', 'k', 'e'] then
    match ns with
    | [off, v] => inRange (off % 4 == 0 && decide (off < 0x10000 ∧ v < 2 ^ 32)) (.poke off v)
    | _ => .syntaxErr
  else if w = codes ['f', 'o', 'l', 'd'] then
    match ns with
    | [n] => inRange (decide (n < 4096)) (.fold n)
    | _ => .syntaxErr
  else if w = codes ['d', 'r', 'o', 'v', 'e', 'r'] then
    match ns with
    | [] => .run (.drover none)
    | [d] => inRange (decide (d < 64)) (.drover (some d))
    | _ => .syntaxErr
  else if w = codes ['l', 'o', 'g'] then
    match ns with
    | [] => .run (.log 8)
    | [n] => inRange (decide (1 ≤ n ∧ n ≤ 64)) (.log n)
    | _ => .syntaxErr
  else if w = codes ['a', 't', 'b'] then
    match ns with
    | [b] => inRange (decide (b < 2)) (.atbRead b)
    | [b, n] => inRange (decide (b < 2 ∧ n < 64)) (.atbSet b n)
    | _ => .syntaxErr
  else .syntaxErr

/-- Commands of one word. -/
def parseWord (w : List Nat) : Option MonCmd :=
  if w = codes ['h', 'e', 'l', 'p'] then some .help
  else if w = codes ['r', 'i', 'n', 'g'] then some .ring
  else if w = codes ['c', 'a', 'd'] then some .cad
  else if w = codes ['f', 'a', 'u', 'l', 't'] then some .fault
  else if w = codes ['s', 't', 'a', 't'] then some .stat
  else if w = codes ['t', 'w', 'i', 'n'] then some .twin
  else if w = codes ['p', 'w', 'r'] then some .pwr
  else if w = codes ['l', 'o', 'c', 'k'] then some .lock
  else if w = codes ['v', 'e', 'r'] then some .ver
  else none

/-- A line's words as a command (R450). -/
def parseLine (ws : List (List Nat)) : SvcParse :=
  match ws with
  | [] => .syntaxErr
  | w :: args =>
    match parseWord w, args with
    | some c, [] => .run c
    | some .fault, [k, e] =>
      if k = codes ['c', 'l', 'r'] then (match hexArg e with | some n => inRange (decide (n < 256)) (.faultClr n) | none => .syntaxErr)
      else .syntaxErr
    | some _, _ => .syntaxErr
    | none, _ =>
      if w = codes ['l', 'e', 'n', 's'] then
        match args with
        | [k, e] =>
          match hexArg e with
          | some n =>
            if k = codes ['o'] then inRange (decide (n < 64)) (.lens false n)
            else if k = codes ['i'] then inRange (decide (n < 32)) (.lens true n)
            else .syntaxErr
          | none => .syntaxErr
        | _ => .syntaxErr
      else match hexArgs args with
        | some ns => parseNumeric w ns
        | none => .syntaxErr

/-- Commands refused while the monitor is locked (R448, R450). -/
def MonCmd.guarded : MonCmd → Bool
  | .poke .. => true
  | .faultClr _ => true
  | .atbSet .. => true
  | _ => false

/-! ### Characters (R446) -/

/-- A whole line: errors are answered at once; a command starts to run. -/
def State.svcEnter (s : State) : State :=
  let line := s.svc.line.map (fun b => lowerCase b.toNat)
  let long := s.svc.long
  let s := { s with svc := { s.svc with line := [], long := false } }
  if long then (s.svcLine [.text "ERR LONG"]).svcPrompt
  else
    let ws := splitWords line []
    if ws = [] then s.svcPrompt
    else match parseLine ws with
      | .syntaxErr => (s.svcLine [.text "ERR SYNTAX"]).svcPrompt
      | .rangeErr => (s.svcLine [.text "ERR RANGE"]).svcPrompt
      | .run c =>
        if c.guarded && s.bit F.SVC_STAT_LOCKED then
          ((s.bump K.SVC_CNT_REFUSED).svcLine [.text "ERR LOCKED"]).svcPrompt
        else ({ s with svc := { s.svc with cmd := some c } }).wr F.SVC_STAT_BUSY 1

/-- A character taken as input. -/
def State.svcChar (s : State) (c : Byte) : State :=
  if c = 0x0D#8 then (s.emit (.svcEcho c)).svcEnter
  else if c = 0x0A#8 then s
  else if c = 0x08#8 ∨ c = 0x7F#8 then
    let t := s.emit (.svcEcho c)
    { t with svc := { t.svc with line := t.svc.line.dropLast } }
  else if s.svc.line.length < 80 then
    let t := s.emit (.svcEcho c)
    { t with svc := { t.svc with line := t.svc.line ++ [c] } }
  else { s with svc := { s.svc with long := true } }

/-- Characters held while a command ran are taken, up to the next command; `n` bounds their number. -/
def State.svcHeld : Nat → State → State
  | 0, s => s
  | n + 1, s =>
    match s.svc.cmd, s.svc.held with
    | none, c :: rest => (({ s with svc := { s.svc with held := rest } }).svcChar c).svcHeld n
    | _, _ => s

/-- SVC_RX_CHAR: a character and whether its stop bit was a one. The monitor does not answer while its group is halted (R445). -/
def svcRxChar (c : Byte) (stop : Bool) (s : State) : State :=
  if stop = false ∨ s.halting 6 = true then s
  else if s.svc.cmd = none then s.svcChar c
  else if s.svc.held.length < 16 then { s with svc := { s.svc with held := s.svc.held ++ [c] } }
  else s.bump K.SVC_CNT_RX_DROP

def execSvcRxChar (c : Byte) (stop : Bool) (s : State) : Host.Outcome State Fault Refusal :=
  .next (whenUp .mgmt (svcRxChar c stop) s)

/-- The command ends: it counts, the prompt follows its reply, and held characters are taken. -/
def State.svcDone (s : State) : State :=
  let s := (s.bump K.SVC_CNT_CMD).wr F.SVC_STAT_BUSY 0
  let s := ({ s with svc := { s.svc with cmd := none } }).svcPrompt
  s.svcHeld s.svc.held.length

/-- Lines of a reply, then the end of the command. -/
def State.svcReply (s : State) (ls : List (List SvcTok)) : State :=
  (ls.foldl (fun (s : State) l => s.svcLine l) s).svcDone

/-- A command that runs while it is the one the monitor has taken; the group is not halted. -/
def State.svcRun (s : State) (f : MonCmd → Option State) : State :=
  if s.halting 6 then s
  else match s.svc.cmd with
    | some c => (f c).getD s
    | none => s

/-! ### Commands (R450) -/

/-- The names and arguments of the commands. -/
def svcHelpLines : List String :=
  ["help", "peek off [n]", "poke off val", "lens o n", "lens i n", "fold n", "drover [d]", "ring", "cad", "fault", "fault clr e",
   "log [n]", "stat", "twin", "pwr", "atb b node", "atb b", "lock", "ver"]

def svcHelp (s : State) : State :=
  s.svcRun fun c => if c = .help then some (s.svcReply (svcHelpLines.map (fun t => [.text t]))) else none

def execSvcHelp (s : State) : Host.Outcome State Fault Refusal := .next (whenUp .mgmt svcHelp s)

/-- Registers read in order, each by an ordinary read. -/
def State.svcPeekRegs (s : State) : Nat → Nat → List (List SvcTok) × State
  | 0, _ => ([], s)
  | n + 1, off =>
    let r := s.setupRead off 4
    let q := r.2.svcPeekRegs n (off + 4)
    ([.hex 4 off, .hex 8 (leNum r.1)] :: q.1, q.2)

def svcPeek (s : State) : State :=
  s.svcRun fun c => match c with
    | .peek off n => let r := s.svcPeekRegs n off; some (r.2.svcReply r.1)
    | _ => none

def execSvcPeek (s : State) : Host.Outcome State Fault Refusal := .next (whenUp .mgmt svcPeek s)

/-- A write is held while the old bank retires (R441): the command runs on until then. -/
def svcPoke (s : State) : State :=
  s.svcRun fun c => match c with
    | .poke off v =>
      let staged := match regAt off with | some r => r.hasStaged | none => false
      if staged && s.bit F.CHIP_COMMIT_STAT_RETIRING then none
      else
        let r := s.setupWrite off (leBytes 4 v) s.nodeId s.svcAgent
        some (r.st.svcReply [[.text (if r.late then "IGNORED" else if r.range then "REFUSED" else "OK")]])
    | _ => none

def execSvcPoke (s : State) : Host.Outcome State Fault Refusal := .next (whenUp .mgmt svcPoke s)

/-- Offset and value of `n` registers from `base`. -/
def State.svcRegs (s : State) (base n : Nat) : List (List SvcTok) :=
  (List.range n).map (fun i => [.hex 4 (base + 4 * i), s.svcReg (base + 4 * i)])

def svcLens (s : State) : State :=
  s.svcRun fun c => match c with
    | .lens inbound n => some (s.svcReply (if inbound then s.svcRegs (K.LNSI_CTL n) 8 else s.svcRegs (K.LNSO_CTL n) 10))
    | _ => none

def execSvcLens (s : State) : Host.Outcome State Fault Refusal := .next (whenUp .mgmt svcLens s)

def svcFold (s : State) : State :=
  s.svcRun fun c => match c with
    | .fold n => some (s.svcReply [[s.svcField (F.FLD_F_QUOTA_QUOTA n), s.svcField (F.FLD_F_RSV_RSV n),
        s.svcField (F.FLD_F_LEVEL_WORDS n), s.svcField (F.FLD_F_PKT_PACKETS n), s.svcField (F.FLD_F_CELLS_HELD n),
        s.svcReg (K.FLD_F_STAT n)]])
    | _ => none

def execSvcFold (s : State) : Host.Outcome State Fault Refusal := .next (whenUp .mgmt svcFold s)

def svcDrover (s : State) : State :=
  s.svcRun fun c => match c with
    | .drover none => some (s.svcReply [[s.svcReg K.DRV_LIVE_LO, s.svcReg K.DRV_LIVE_HI]])
    | .drover (some d) => some (s.svcReply [[s.svcReg (K.DRV_D_STAT d), s.svcReg (K.DRV_D_RUN d), s.svcReg (K.DRV_D_STOLE d),
        s.svcReg (K.DRV_D_LOSS d)]])
    | _ => none

def execSvcDrover (s : State) : Host.Outcome State Fault Refusal := .next (whenUp .mgmt svcDrover s)

def svcRing (s : State) : State :=
  s.svcRun fun c => if c = .ring then
      some (s.svcReply [[s.svcReg (K.LNK_LINK_STAT 0), s.svcReg (K.LNK_LINK_STAT 1), s.svcReg (K.LNK_LINK_STAT 2),
        s.svcReg K.NET_ID, s.svcReg K.NET_STAT, s.svcReg K.NET_EPOCH_STAT]])
    else none

def execSvcRing (s : State) : Host.Outcome State Fault Refusal := .next (whenUp .mgmt svcRing s)

def svcCad (s : State) : State :=
  s.svcRun fun c => if c = .cad then
      some (s.svcReply [[s.svcReg K.CAD_STAT, .hex 12 s.frame, .hex 8 s.phase, .hex 16 s.cad.p]])
    else none

def execSvcCad (s : State) : Host.Outcome State Fault Refusal := .next (whenUp .mgmt svcCad s)

def svcFault (s : State) : State :=
  s.svcRun fun c => if c = .fault then
      some (s.svcReply ([s.svcReg K.FLT_CHIP_STAT, s.svcReg K.FLT_FIRST] ::
        (s.flt.active.filter (fun e => e.2.isSome)).map (fun e =>
          [.hex 2 e.1, s.svcReg (K.FLT_ACT_W0 e.1), s.svcReg (K.FLT_ACT_W1 e.1)])))
    else none

def execSvcFault (s : State) : Host.Outcome State Fault Refusal := .next (whenUp .mgmt svcFault s)

def svcFaultClr (s : State) : State :=
  s.svcRun fun c => match c with
    | .faultClr e =>
      let t := s.clearEntry e
      some (t.svcReply [[.text (if (t.actEntry e).isSome then "PRESENT" else "OK")]])
    | _ => none

def execSvcFaultClr (s : State) : Host.Outcome State Fault Refusal := .next (whenUp .mgmt svcFaultClr s)

/-- The line of a record: slot, CODE, SECONDS, PCYC, FRAMELO, the parameters, and whether it is valid (R384, R386). -/
def State.svcRecord (s : State) (slot : Nat) : List (List SvcTok) :=
  let bs := s.mramRead (32 * slot) 32
  if slotEmpty bs then []
  else
    [[.hex 4 slot, .hex 4 (leNum (slice bs 0 2)), .hex 10 (leNum (slice bs 2 5)), .hex 6 (leNum (slice bs 7 3)),
      .hex 4 (leNum (slice bs 10 2)), .hex 8 (leNum (slice bs 12 4)), .hex 8 (leNum (slice bs 16 4)),
      .hex 8 (leNum (slice bs 20 4)), .hex 8 (leNum (slice bs 24 4)), .text (if slotValid bs then "V" else "X")]]

def svcLog (s : State) : State :=
  s.svcRun fun c => match c with
    | .log n =>
      let next := s.recd.next
      let slots := (List.range (min n next)).filterMap (fun i => recSlot false false false ⟨0, 0, 0, 0, []⟩ (next - 1 - i))
      some (s.svcReply (slots.flatMap s.svcRecord))
    | _ => none

def execSvcLog (s : State) : Host.Outcome State Fault Refusal := .next (whenUp .mgmt svcLog s)

def svcStat (s : State) : State :=
  s.svcRun fun c => if c = .stat then
      let b := s.rd F.CAD_SNAP_BANK
      let w := fun (i : Nat) => (s.reg (K.STAT_BANK b i)).toNat
      some (s.svcReply [[s.svcReg K.CAD_SNAP, .hex 16 (w 2 + w 3 * 2 ^ 32)], (List.range 12).map (fun i => .hex 8 (w i))])
    else none

def execSvcStat (s : State) : Host.Outcome State Fault Refusal := .next (whenUp .mgmt svcStat s)

def svcTwin (s : State) : State :=
  s.svcRun fun c => if c = .twin then
      some (s.svcReply [[s.svcReg K.TWN_STAT, s.svcReg K.TWN_EPOCH, s.svcReg K.TWN_TAKE_EP]])
    else none

def execSvcTwin (s : State) : Host.Outcome State Fault Refusal := .next (whenUp .mgmt svcTwin s)

def svcPwr (s : State) : State :=
  s.svcRun fun c => if c = .pwr then
      some (s.svcReply [s.svcReg K.PWR_STAT :: (List.range 8).map (fun n => s.svcReg (K.PWR_SLOT_STAT n))])
    else none

def execSvcPwr (s : State) : Host.Outcome State Fault Refusal := .next (whenUp .mgmt svcPwr s)

def svcAtbSet (s : State) : State :=
  s.svcRun fun c => match c with
    | .atbSet b n =>
      let r := s.setupWrite (if b = 0 then K.TST_ATB0 else K.TST_ATB1) (leBytes 4 n) s.nodeId s.svcAgent
      some (r.st.svcReply [[.text (if r.range then "REFUSED" else "OK")]])
    | _ => none

def execSvcAtbSet (s : State) : Host.Outcome State Fault Refusal := .next (whenUp .mgmt svcAtbSet s)

/-- The node on the bus that the ADC converts (R452). -/
def State.adcNode (s : State) : Nat := if s.bit F.TST_ADC_BUS then s.rd F.TST_ATB1_NODE else s.rd F.TST_ATB0_NODE

/-- A conversion ends with a code: of a bus with NODE 0 the code is a free value (R452). -/
def State.adcEnd (s : State) (code : Nat) : State :=
  let r := if s.adcNode = 0 then (let f := s.free 12; (f.1.toNat, f.2)) else (code % 4096, s)
  (r.2.wr F.TST_ADC_CODE r.1).wr F.TST_ADC_BUSY 0

/-- The code in mV, rounded to the nearest. -/
def codeMv (code : Nat) : Nat := (code * 1200 + 2048) / 4096

/-- `atb b`: `code` is what the converter finds. It waits for a conversion in progress. -/
def svcAtbRead (code : Nat) (s : State) : State :=
  s.svcRun fun c => match c with
    | .atbRead b =>
      if s.bit F.TST_ADC_BUSY then none
      else
        let s := (s.wr F.TST_ADC_BUS b).adcEnd code
        let v := s.rd F.TST_ADC_CODE
        some (s.svcReply [[.text (if b = 0 then "ATB0" else "ATB1"), .node s.adcNode, .hex 3 v, .dec (codeMv v), .text "mV"]])
    | _ => none

def execSvcAtbRead (code : Nat) (s : State) : Host.Outcome State Fault Refusal := .next (whenUp .mgmt (svcAtbRead code) s)

def svcLock (s : State) : State :=
  s.svcRun fun c => if c = .lock then some ((s.wr F.SVC_STAT_LOCKED 1).svcReply [[.text "OK"]]) else none

def execSvcLock (s : State) : Host.Outcome State Fault Refusal := .next (whenUp .mgmt svcLock s)

def svcVer (s : State) : State :=
  s.svcRun fun c => if c = .ver then
      some (s.svcReply [[s.svcReg K.TST_IDCODE, s.svcReg K.CHIP_BOOT_STAT, s.svcReg K.CHIP_RST_CAUSE]])
    else none

def execSvcVer (s : State) : Host.Outcome State Fault Refusal := .next (whenUp .mgmt svcVer s)

/-! ### Writes of single registers, by an agent of a node -/

/-- A write of bits that start something beside the register's other bits as they are. -/
def State.pulse (s : State) (k : Nat) (bits : Word) (node agent : Nat) : State :=
  (s.setupWrite k (leBytes 4 (s.reg k ||| bits).toNat) node agent).st

/-- SVC_LOCK_NOW (R448). -/
def execSvcLockNow (node agent : Nat) (s : State) : Host.Outcome State Fault Refusal :=
  .next (whenUp .mgmt (fun s => s.pulse K.SVC_CTL 0x80000000#32 node agent) s)

/-- TST_ATB_WRITE: the word written to TST_ATB0 or TST_ATB1 (R451). -/
def tstAtbWrite (bus : Nat) (value : Word) (node agent : Nat) (s : State) : State :=
  if bus < 2 then (s.setupWrite (K.TST_ATB0 + 4 * bus) (leBytes 4 value.toNat) node agent).st else s

def execTstAtbWrite (bus : Nat) (value : Word) (node agent : Nat) (s : State) : Host.Outcome State Fault Refusal :=
  .next (whenUp .mgmt (tstAtbWrite bus value node agent) s)

/-- TST_ADC_START: START, and the bus to convert (R452). A START while BUSY is 1 is ignored. -/
def tstAdcStart (bus : Bool) (node agent : Nat) (s : State) : State :=
  (s.setupWrite K.TST_ADC (leBytes 4 (0x80000000 + b2n bus * 2 ^ 29)) node agent).st

def execTstAdcStart (bus : Bool) (node agent : Nat) (s : State) : Host.Outcome State Fault Refusal :=
  .next (whenUp .mgmt (tstAdcStart bus node agent) s)

/-- TST_ADC_DONE: the conversion ends with the code found. -/
def tstAdcDone (code : Nat) (s : State) : State := if s.bit F.TST_ADC_BUSY then s.adcEnd code else s

def execTstAdcDone (code : Nat) (s : State) : Host.Outcome State Fault Refusal := .next (whenUp .mgmt (tstAdcDone code) s)

/-- LNK_INJ_ARM: the word written to LNK_INJ, with ARM (R250). -/
def execLnkInjArm (word : RegWrite) (s : State) : Host.Outcome State Fault Refusal :=
  .next (whenUp .mgmt (fun s =>
    (s.setupWrite K.LNK_INJ (leBytes 4 (word.value ||| 0x80000000#32).toNat) word.node word.agent).st) s)

/-- FLT_INJ_ARM: the word written to FLT_INJ, with ARM (R379). -/
def execFltInjArm (value : Word) (node agent : Nat) (s : State) : Host.Outcome State Fault Refusal :=
  .next (whenUp .mgmt (fun s => (s.setupWrite K.FLT_INJ (leBytes 4 (value ||| 0x80000000#32).toNat) node agent).st) s)

/-- PWR_ENABLE: the word written to PWR_CTL, with EN (R406). -/
def execPwrEnable (value : Word) (node agent : Nat) (s : State) : Host.Outcome State Fault Refusal :=
  .next (whenUp .mgmt (fun s => (s.setupWrite K.PWR_CTL (leBytes 4 (value ||| 0x80000000#32).toNat) node agent).st) s)

end Sys2Proof.Machine
end

