-- ==== Sys2Proof/Machine/Tap.lean ====
section
/-! DEFINITION. The test access port (R454, R455). -/

namespace Sys2Proof.Machine

/-- Bits of a number, the least significant first, as they leave TDO. -/
def tdoBits (n w : Nat) : List Bool := (List.range w).map (fun i => n.testBit i)

/-- The instruction in effect. -/
def State.setIr (s : State) (ir : Nat) : State := { s with tap := { s.tap with ir := ir } }

/-- RESET_N is held low. -/
def State.resetLow (s : State) : Bool := s.boot.held.contains 2

/-- TAP_RESET: Test-Logic-Reset selects IDCODE, and the pins return to what the reset gives them (R454). -/
def tapReset (s : State) : State := s.setIr 0x01

def execTapReset (s : State) : Host.Outcome State Fault Refusal := .next (tapReset s)

/-- IDCODE: its register shifts out. -/
def tapIdcode (s : State) : State := (s.setIr 0x01).emit (.tdo (tdoBits 0x1941656F 32))

def execIdcode (s : State) : Host.Outcome State Fault Refusal := .next (tapIdcode s)

/-- SAMPLE/PRELOAD: the pins' levels are captured and shift out, and the boundary register takes what shifts in. -/
def samplePreload (pins load : List Bool) (s : State) : State :=
  let s := (s.setIr 0x02).emit (.tdo pins)
  { s with tap := { s.tap with boundary := load } }

def execSamplePreload (pins load : List Bool) (s : State) : Host.Outcome State Fault Refusal := .next (samplePreload pins load s)

/-- EXTEST: the boundary register drives the pins; their levels are captured and shift out, and what shifts in drives them. Not
specified unless RESET_N is low (R454). -/
def extest (pins load : List Bool) (s : State) : State :=
  let s := ((s.setIr 0x03).emit (.scanPins s.tap.boundary)).emit (.tdo pins)
  ({ s with tap := { s.tap with boundary := load } }).emit (.scanPins load)

def execExtest (pins load : List Bool) (s : State) : Host.Outcome State Fault Refusal :=
  if s.resetLow then .next (extest pins load s) else .fault (.outsideLimits "R454")

/-- CLAMP: the boundary register holds the pins, and bypass shifts. -/
def clamp (s : State) : State := ((s.setIr 0x04).emit (.scanPins s.tap.boundary)).emit (.tdo [false])

def execClamp (s : State) : Host.Outcome State Fault Refusal := if s.resetLow then .next (clamp s) else .fault (.outsideLimits "R454")

/-- HIGHZ: the pins float, and bypass shifts. -/
def highz (s : State) : State := ((s.setIr 0x05).emit .pinsFloat).emit (.tdo [false])

def execHighz (s : State) : Host.Outcome State Fault Refusal := if s.resetLow then .next (highz s) else .fault (.outsideLimits "R454")

/-- ATB_SEL: both NODE fields at Update-DR, even during RESET_N (R453); what R451 refuses keeps its value. -/
def atbSel (value : Nat) (s : State) : State :=
  let s := s.setIr 0x40
  let n0 := nbits value 5 0
  let n1 := nbits value 11 6
  let clash := n0 == n1 && n0 != 0
  let ok0 := atbNode n0 && !clash
  let ok1 := atbNode n1 && !clash
  let s := if ok0 then s.wr F.TST_ATB0_NODE n0 else s
  let s := if ok1 then s.wr F.TST_ATB1_NODE n1 else s
  if ok0 && ok1 then s else s.raise Code.CFG_RANGE Src.setup []

def execAtbSel (value : Nat) (s : State) : Host.Outcome State Fault Refusal := .next (atbSel value s)

/-- MFG_SECONDS: its value at Update-DR, acted on only while RESET_N is low (R393, R455). -/
def tapSeconds (value : Nat) (s : State) : State :=
  let s := s.setIr 0x41
  if s.resetLow then whenUp .recorder (mfgSeconds value) s else s

def execMfgSeconds (value : Nat) (s : State) : Host.Outcome State Fault Refusal := .next (tapSeconds value s)

/-- OTP_KEY: the key is programmed once, only while RESET_N is low; TDO shifts out zeros (R455). -/
def otpKeyProgram (key : List Byte) (s : State) : State :=
  let s := (s.setIr 0x42).emit (.tdo (List.replicate 256 false))
  if s.resetLow && !s.boot.otpKeySet && decide (key.length = 32) then
    ({ s with boot := { s.boot with otpKey := key, otpKeySet := true } }).wr F.REC_STAT_KEY_SET 1
  else s

def execOtpKey (key : List Byte) (s : State) : Host.Outcome State Fault Refusal := .next (otpKeyProgram key s)

/-- Codes of the instruction register that name an instruction other than BYPASS (R454). -/
def tapCodes : List Nat := [0x01, 0x02, 0x03, 0x04, 0x05, 0x40, 0x41, 0x42]

/-- BYPASS: 0xFF or a reserved code selects the 1-bit register, which captures a zero (PRESUMED from IEEE 1149.1, log entry 19). -/
def tapBypass (ir : Nat) (s : State) : State :=
  if ir < 256 ∧ tapCodes.contains ir = false then (s.setIr ir).emit (.tdo [false]) else s

def execBypass (ir : Nat) (s : State) : Host.Outcome State Fault Refusal := .next (tapBypass ir s)

end Sys2Proof.Machine
end

