-- ==== Sys2Proof/Machine/Boot.lean ====
section
/-! DEFINITION. Reset sources, straps, the Mborus image and bring-up (R173, R424 to R435). -/

namespace Sys2Proof.Machine

/-! ### Asserting a reset (R424 to R427) -/

/-- Registers that a reset other than POWER_ON leaves as they are (R426): CHIP_RST_CAUSE, the serial number, DDR_CFG, REC_CFG,
REC_STAT and the recorder's counters. -/
def keptKey (k : Nat) : Bool :=
  [0x008, 0x00C, 0x400, 0x2804, 0x9004, 0x9008, 0x9040, 0x9044, 0x9048, 0x904C].contains k

/-- What a slot keeps through a reset other than POWER_ON: its retry timer, and how long EN_OUT has been low (R415). -/
def State.slotKept (s : State) (n : Nat) : PwrSlot :=
  let p := s.pslot n
  { settled := false, ready := false, shed := false
    lowSince := if s.bit (F.PWR_SLOT_STAT_EN_OUT n) then some s.ticks else p.lowSince, retryEnd := p.retryEnd, startAt := none }

/-- STATE, CAUSE and RETRY_LEFT of a slot whose retry timer runs (R415, R426). -/
def State.slotStatKept (old s : State) (n : Nat) : State :=
  if (old.pslot n).retryEnd.isSome then
    ((s.wr (F.PWR_SLOT_STAT_STATE n) (old.rd (F.PWR_SLOT_STAT_STATE n))).wr (F.PWR_SLOT_STAT_CAUSE n)
      (old.rd (F.PWR_SLOT_STAT_CAUSE n))).wr (F.PWR_SLOT_STAT_RETRY_LEFT n) (old.rd (F.PWR_SLOT_STAT_RETRY_LEFT n))
  else s

/-- The pins, whose levels a reset does not change. -/
def State.pinsOf (old s : State) : State :=
  { s with
    vme := { s.vme with brOther := old.vme.brOther, bbsyOther := old.vme.bbsyOther, sysrstHeld := old.vme.sysrstHeld }
    cad := { s.cad with encA := old.cad.encA, encB := old.cad.encB }
    twin := { s.twin with holdIn := old.twin.holdIn }
    out := old.out, freeCtr := old.freeCtr, pending := old.pending }

/-- The device in the power-on state, but for what survives a reset other than POWER_ON: the recorder's state (R389), DDR4 contents
with their check bits (R427), running retry timers, the fused memory, what the image header gave, and time. -/
def State.afterReset (s : State) : State :=
  let r := State.reset
  let t : State := s.pinsOf { r with
    regs := { r.regs with eff := s.regs.eff.filter (fun e => keptKey e.1) }
    boot := { r.boot with straps := s.boot.straps, otpSerial := s.boot.otpSerial, otpKey := s.boot.otpKey
                          otpKeySet := s.boot.otpKeySet, imageNode := s.boot.imageNode, stageTo := s.boot.stageTo, held := s.boot.held }
    ddr := { r.ddr with bytes := s.ddr.bytes, bad := s.ddr.bad }
    recd := { s.recd with inject := none, failNext := 0, clearDropped := s.recd.clearing.isSome }
    pwr := { r.pwr with slots := (List.range 8).foldl (fun (t : Table PwrSlot) n => tput (fun _ => r.pslot 0) t n (s.slotKept n)) [] }
    ticks := s.ticks }
  let t := (t.wr F.FLT_CHIP_STAT_REC_FAIL (s.rd F.FLT_CHIP_STAT_REC_FAIL)).wr F.CHIP_BOOT_STAT_IMAGE_VER
    (s.rd F.CHIP_BOOT_STAT_IMAGE_VER)
  (List.range 8).foldl s.slotStatKept t

/-- The device after POWER_ON: the MRAM and the fused memory keep their contents. -/
def State.afterPower (s : State) : State :=
  let r := State.reset
  s.pinsOf { r with
    boot := { r.boot with otpSerial := s.boot.otpSerial, otpKey := s.boot.otpKey, otpKeySet := s.boot.otpKeySet, held := s.boot.held }
    recd := { r.recd with mram := s.recd.mram } }

/-- A source is recorded in CHIP_RST_CAUSE: of those asserted together LAST holds the lowest (R425). -/
def State.noteCause (s : State) (code : Nat) : State :=
  let last := s.boot.held.foldl min code
  let seen := s.rd F.CHIP_RST_CAUSE_SEEN
  let s := if seen.testBit (code - 1) then s else s.wr F.CHIP_RST_CAUSE_SEEN (seen + 2 ^ (code - 1))
  let s := s.wr F.CHIP_RST_CAUSE_LAST last
  if s.boot.held.contains code then s else { s with boot := { s.boot with held := code :: s.boot.held } }

/-- The record of what a reset discards (R173), once the recorder's port is ready. -/
def State.discardRecord (s : State) (code : Nat) : State :=
  let q := s.discardQueue
  let ins := s.vin.ipwq.filter (·.result.isNone)
  let p3 := code * 2 ^ 24 + s.ord.wc.length * 2 ^ 14 + q.1 * 2 ^ 7 + ins.length
  let ps := [wcBytes s.ord.wc, q.2.1, ipwqBytes s.vin.ipwq, p3].map (fun n => BitVec.ofNat 32 n)
  if s.bit F.REC_STAT_READY then s.recordAt RecCode.WRITES_DISCARDED ps false
  else s.setRec { s.recd with discards := s.recd.discards ++ [ps] }

/-- RESET_N, RING_CMD or WATCHDOG is asserted. -/
def State.chipReset (s : State) (code : Nat) : State := ((s.discardRecord code).afterReset).noteCause code

/-- SYSRESET* is driven low while the device is held in power-on or RESET_N reset (R81), where `on` says that SYSCON and
SYSRST_OUT are 1. -/
def State.holdSysreset (s : State) (on : Bool) : State :=
  if on then ({ s with vme := { s.vme with sysrstHeld := true } }).emit (.sysReset true) else s

/-- POWER_ON: a supply below its threshold. SYSRST_OUT resets to 1; the strap is the one last sampled (log entry 38). -/
def powerOn (s : State) : State := (s.afterPower.noteCause 1).holdSysreset s.boot.straps.syscon

def execPowerOn (s : State) : Host.Outcome State Fault Refusal := .next (powerOn s)

def resetN (s : State) : State := (s.chipReset 2).holdSysreset (s.boot.straps.syscon && s.bit F.VME_SYSCTL_SYSRST_OUT)

def execResetN (s : State) : Host.Outcome State Fault Refusal := .next (resetN s)

/-- PERST_N at a head node: the endpoint, and nothing else (R424, R426). -/
def perstN (s : State) : State :=
  if s.isHead then
    let s := s.pcieDown.functionReset
    let s := ([K.HST_B2_BASE, K.HST_PCIE_CTL, K.HST_PCIE_STAT] : List Nat).foldl (fun (s : State) k =>
      (s.setReg k (resetWord k)).setShd k (resetWord k)) s
    s.noteCause 3
  else s

def execPerstN (s : State) : Host.Outcome State Fault Refusal := .next (perstN s)

/-- RING_CMD, 20 µs after the response to the command, whose record has been queued before (R428). -/
def ringCmd (s : State) : State :=
  if s.boot.resetDue && s.flt.raised.all (fun f => f.code != Code.CHIP_RESET_CMD) then s.chipReset 4 else s

def execRingCmd (s : State) : Host.Outcome State Fault Refusal := .next (whenUp .mgmt ringCmd s)

/-- CHIP_WDOG: the chip watchdog has not been restarted for TO_MS (R429). The record is queued, and WATCHDOG is asserted. -/
def chipWdog (s : State) : State :=
  if s.bit F.CHIP_WDOG_EN && !s.halting 6 && decide (s.boot.wdogAt + msTicks (s.rd F.CHIP_WDOG_TO_MS) ≤ s.ticks) then
    (s.recordAt Code.CHIP_WDOG (fourParams Src.mgmt []) false).chipReset 5
  else s

def execChipWdog (s : State) : Host.Outcome State Fault Refusal := .next (whenUp .mgmt chipWdog s)

/-- SERVICE_LOOP_COMPLETE restarts the chip watchdog (R429). -/
def serviceLoopComplete (s : State) : State :=
  if s.halting 6 then s else { s with boot := { s.boot with wdogAt := s.ticks } }

def execServiceLoopComplete (s : State) : Host.Outcome State Fault Refusal := .next (whenUp .mgmt serviceLoopComplete s)

/-! ### Releasing it (R430, R433, R445) -/

/-- A node whose ID is 0x7FF never joins (R262). -/
def State.idCheck (s : State) : State :=
  if s.nodeId = 0x7FF then (s.wr F.NET_ID_STATE 4).raise Code.NET_ID_BAD Src.packet [] else s

/-- The straps as sampled, and the fused memory, show in their registers (R430). -/
def State.sample (s : State) (x : Straps) : State :=
  let s := { s with boot := { s.boot with straps := x, releasedAt := s.ticks, wdogAt := s.ticks } }
  let s := ((s.wr F.CHIP_STRAP_NID x.nid).wrB F.CHIP_STRAP_IDSRC x.idsrc).wrB F.CHIP_STRAP_MCAP x.mcap
  let s := ((s.wrB F.CHIP_STRAP_SYSCON x.syscon).wrB F.CHIP_STRAP_HEAD x.head).wrB F.CHIP_STRAP_PRIMARY x.primary
  let s := s.wrB F.CHIP_STRAP_MONLOCK x.monlock
  let s := (s.wrB F.NET_ID_SRC x.idsrc).wr F.NET_ID_ID (if x.idsrc then s.boot.imageNode else x.nid)
  let s := ((s.wrB F.NET_CTL_MCAP x.mcap).wrB F.VME_CTL_SYSCON x.syscon).wrB F.HST_CTL_HEAD x.head
  let s := ((s.wrB F.TWN_CTL_PRIMARY x.primary).wrB F.SVC_STAT_LOCKED x.monlock).wrB F.SVC_STAT_STRAP_LOCK x.monlock
  let s := (s.wr F.CHIP_SERIAL_LO_SERIAL_LO s.boot.otpSerial).wr F.CHIP_SERIAL_HI_SERIAL_HI (s.boot.otpSerial / 2 ^ 32)
  let s := s.wrB F.REC_STAT_KEY_SET s.boot.otpKeySet
  if x.idsrc then s else s.idCheck

/-- RESET_RELEASE: a source is released, with the levels of the strap pins. With no other source left but PERST_N, the straps are
sampled, bring-up is in stage RESET and the monitor greets. -/
def resetRelease (source : Nat) (x : Straps) (s : State) : State :=
  if s.boot.held.contains source then
    let s := { s with boot := { s.boot with held := s.boot.held.filter (fun c => c != source) } }
    let s := if s.vme.sysrstHeld && s.boot.held.all (fun c => decide (2 < c)) then
        ({ s with vme := { s.vme with sysrstHeld := false } }).emit (.sysReset false) else s
    if source ≠ 3 ∧ s.boot.held.all (fun c => c == 3) = true then (s.sample x).svcGreet else s
  else s

def execResetRelease (source nid : Nat) (idsrc mcap syscon head primary monlock : Bool) (s : State) :
    Host.Outcome State Fault Refusal :=
  .next (resetRelease source ⟨nid % 2048, idsrc, mcap, syscon, head, primary, monlock⟩ s)

/-- PLL_LOCK: every PLL has locked; LOAD begins (R433). -/
def pllLock (s : State) : State :=
  if s.stage = 0 then
    let s := { s with boot := { s.boot with pll := true } }
    let s := ((s.wr F.CLK_STAT_SYS_LOCK 1).wr F.CLK_STAT_LNK_LOCK 1).wr F.CLK_STAT_HOST_LOCK 1
    (s.wr F.CLK_STAT_DDR_LOCK 1).wr F.CHIP_BOOT_STAT_STAGE 1
  else s

def execPllLock (s : State) : Host.Outcome State Fault Refusal := .next (whenUp .mgmt pllLock s)

/-! ### The Mborus image (R431, R432) -/

/-- A section: TYPE, the CRC its header gives, body. -/
abbrev Section := Nat × Nat × List Byte

/-- The sections of an image from offset 64 on; none where a header does not fit or its zero bytes are not zero. -/
def sectionsOf : Nat → List Byte → Option (List Section)
  | 0, _ => some []
  | n + 1, bs =>
    let len := leNum (slice bs 4 4)
    if bs.length < 16 + len ∨ leNum (slice bs 1 3) ≠ 0 ∨ leNum (slice bs 12 4) ≠ 0 then none
    else
      match sectionsOf n (bs.drop (16 + len)) with
      | some ss => some ((leNum (slice bs 0 1), leNum (slice bs 8 4), (bs.drop 16).take len) :: ss)
      | none => none

/-- Preload entries of a body: WHEN, set-up offset, value. Bits 61 to 48 are not looked at (DESIGN CHOICE, log entry 78). -/
def preloadsOf : Nat → List Byte → List (Nat × Nat × Word)
  | 0, _ => []
  | n + 1, bs =>
    let e := leNum (slice bs 0 8)
    (nbits e 63 62, nbits e 47 32, BitVec.ofNat 32 e) :: preloadsOf n (bs.drop 8)

/-- An image taken apart. -/
structure Image where
  version : Nat
  node : Nat
  geometry : Nat
  mram : Nat
  stageTo : Nat
  sections : List Section
  entries : List (Nat × Nat × Word)
  deriving DecidableEq, Repr

/-- The check value and the body of the DROVER_CODE section, cut to its 16 KiB (R432; a longer body fails no check: DESIGN CHOICE,
log entry 78). -/
def Image.code (i : Image) : Nat × List Byte :=
  match i.sections.find? (fun x => x.1 == 1) with
  | some x => (x.2.1, x.2.2.take 16384)
  | none => (0, [])

/-- Take an image apart; its sections may be missing. -/
def imageOf (bs : List Byte) : Image :=
  let body := (bs.take (leNum (slice bs 8 4))).drop 64
  let ss := (sectionsOf (min 16 (leNum (slice bs 6 2))) body).getD []
  { version := leNum (slice bs 12 2), node := leNum (slice bs 16 2) % 2048, geometry := leNum (slice bs 18 2)
    mram := leNum (slice bs 20 1), stageTo := leNum (slice bs 24 2), sections := ss
    entries := (ss.filter (fun x => x.1 == 4)).flatMap (fun x => preloadsOf (x.2.2.length / 8) x.2.2) }

/-- A value is accepted under R9, and the state in which the next entry is judged. -/
def State.preloadJudge (s : State) (both : Bool) (off : Nat) (v : Word) : Bool × State :=
  match regAt off with
  | none => (false, s)
  | some r =>
    let k := s.keyAt r off
    let l := s.fieldsTake r.fields k v true true
    let bad := s.crossBad off k l.eff l.shd
    let clash := ((l.eff &&& bad) != (s.reg k &&& bad)) || ((l.shd &&& bad) != (s.shd k &&& bad))
    let eff := if both then (l.eff &&& ~~~(stagedMask k)) ||| l.shd else l.eff
    (!l.range && !clash, (s.setReg k eff).setShd k l.shd)

/-- Every entry is accepted: the IMMEDIATE ones first, then those of OPEN, as they will be applied. -/
def State.preloadsOk (s : State) (es : List (Nat × Nat × Word)) : Bool :=
  let go := fun (w : Nat) (r : Bool × State) =>
    (es.filter (fun e => e.1 == w)).foldl (fun (r : Bool × State) e =>
      let q := r.2.preloadJudge (w == 0) e.2.1 e.2.2
      (r.1 && q.1, q.2)) r
  es.all (fun e => decide (e.1 < 2) && e.2.1 % 4 == 0 && (regAt e.2.1).isSome) && (go 1 (go 0 (true, s))).1

/-- The lowest check of R432 that an image fails, 0 for none. -/
def State.imageCheck (s : State) (bs : List Byte) : Nat :=
  let n := leNum (slice bs 6 2)
  let total := leNum (slice bs 8 4)
  let i := imageOf bs
  let size := i.geometry / 2 ^ 14
  let rate := i.geometry % 2 ^ 12
  let types := i.sections.map (fun x => x.1)
  let once := fun (t : Nat) => (types.filter (fun x => x == t)).length == 1
  if leNum (slice bs 0 4) ≠ 0x5352424D then 1
  else if leNum (slice bs 4 2) ≠ 1 then 2
  else if n < 3 ∨ 16 < n ∨ 0x800000 < total ∨ bs.length < total ∨ leNum (slice bs 14 2) ≠ 0 ∨ leNum (slice bs 21 3) ≠ 0 ∨
      leNum (slice bs 26 34) ≠ 0 ∨ (sectionsOf n ((bs.take total).drop 64)).isNone = true ∨
      types.any (fun t => t == 0 || decide (5 < t)) = true then 3
  else if (if size = 0 then rate ≠ 0 else ¬ (rate = 2666 ∨ rate = 2933 ∨ rate = 3200)) ∨ 3 < i.mram ∨ i.stageTo < 100 then 4
  else if (crc32c (bs.take 60)).toNat ≠ leNum (slice bs 60 4) ∨
      i.sections.any (fun x => (crc32c x.2.2).toNat != x.2.1) = true then 5
  else if once 1 && once 2 && once 3 && s.preloadsOk i.entries then 0
  else 6

/-! ### LOAD (R392, R431 to R433) -/

/-- STAGED values of IMMEDIATE entries are in effect: the sum of RSV, and schedule entries that became enabled are armed. -/
def State.preloadsDone (s : State) : State :=
  let s := s.wr F.FLD_POOL_RSV_RSV_SUM ((List.range 4096).foldl (fun (n : Nat) f => n + s.rd (F.FLD_F_RSV_RSV f)) 0)
  (List.range 256).foldl (fun (s : State) k =>
    if s.bit (F.CAD_SCH_CTL_EN k) then s.setSch k { s.schEntry k with armed := true } else s) s

/-- The image in use is applied. `trained` says that DDR4 training succeeded. -/
def State.loadImage (s : State) (copy : Nat) (i : Image) (trained : Bool) (pmbus : List (Nat × Nat × Nat)) : State :=
  let size := i.geometry / 2 ^ 14
  let s := (s.wr F.CHIP_BOOT_STAT_COPY copy).wr F.CHIP_BOOT_STAT_IMAGE_VER i.version
  let s := { s with boot := { s.boot with
    imageNode := i.node, stageTo := i.stageTo, pmbusWrites := pmbus
    golden := i.code.2, goldenCrc := i.code.1
    openEntries := (i.entries.filter (fun (e : Nat × Nat × Word) => e.1 == 1)).map (fun (e : Nat × Nat × Word) => e.2) } }
  let s := if s.bit F.NET_ID_SRC then (s.wr F.NET_ID_ID i.node).idCheck else s
  let s := ((s.wr F.DDR_CFG_SIZE size).wr F.DDR_CFG_RANKS (i.geometry / 2 ^ 13)).wr F.DDR_CFG_DEVW (i.geometry / 2 ^ 12)
  let s := (s.wr F.DDR_CFG_MTS (i.geometry % 2 ^ 12)).wr F.REC_CFG_SIZE i.mram
  let s := if s.bit F.REC_STAT_READY then s else s.recRestore
  if size ≠ 0 ∧ trained = false then
    -- the contents are undefined after a training failure (R427), and SIZE reads 0 (R228)
    let s := { s with ddr := { s.ddr with bytes := [], bad := [] } }
    ((s.wr F.DDR_CFG_SIZE 0).wr F.DDR_STAT_TRAIN_FAIL 1).wr F.CHIP_BOOT_STAT_STAGE 7
  else
    let s := if size = 0 then s else s.wr F.DDR_STAT_READY 1
    let s := (List.range 64).foldl (fun (s : State) d => (s.loadDrover d).setDrover d { (s.loadDrover d).drover d with st := .running }) s
    let s := (i.entries.filter (fun e => e.1 == 0)).foldl (fun (s : State) e => s.preloadWrite (fun _ => true) true e.2) s
    let s := s.preloadsDone
    let s := (s.wr F.CHIP_HALT_HALT 0).wr F.CHIP_HALTED_HALTED 0
    ((s.wr F.CHIP_BOOT_STAT_STAGE 2).cadSelect).stageStep

/-- One copy is bad. -/
def State.copyBad (s : State) (copy check : Nat) : State :=
  (s.wr (if copy = 0 then F.CHIP_BOOT_STAT_A_BAD else F.CHIP_BOOT_STAT_B_BAD) 1).raise Code.CHIP_IMAGE_BAD Src.mgmt [copy, check]

/-- BOOT_LOAD_DONE: the bytes of both copies in the boot flash, the result of DDR4 training, and the word writes that the
PMBUS_WRITES section lists (device, command, value), whose layout the manual does not give. -/
def bootLoadDone (copyA copyB : List Byte) (trained : Bool) (pmbus : List (Nat × Nat × Nat)) (s : State) : State :=
  if s.stage = 1 then
    let a := s.imageCheck copyA
    let b := s.imageCheck copyB
    if a = 0 then s.loadImage 0 (imageOf copyA) trained pmbus
    else
      let raiseA := fun (s : State) => s.copyBad 0 a
      if b = 0 then raiseA (s.loadImage 1 (imageOf copyB) trained pmbus)
      else ((raiseA s).copyBad 1 b).wr F.CHIP_BOOT_STAT_STAGE 7
  else s

def execBootLoadDone (copyA copyB : List Byte) (trained : Bool) (pmbus : List (Nat × Nat × Nat)) (s : State) :
    Host.Outcome State Fault Refusal :=
  .next (whenUp .mgmt (bootLoadDone copyA copyB trained pmbus) s)

/-! ### JOIN to OPEN (R433, R435) -/

/-- BOOT_STAGE_TIMEOUT: STAGE_TO_MS has passed in stage JOIN, ELECT or LOCK. -/
def bootStageTimeout (s : State) : State :=
  let n := s.stage
  if 2 ≤ n ∧ n ≤ 4 then
    let s := s.wr (if n = 2 then F.CHIP_BOOT_STAT_JOIN_LATE else if n = 3 then F.CHIP_BOOT_STAT_ELECT_LATE
      else F.CHIP_BOOT_STAT_LOCK_LATE) 1
    let s := s.raise Code.CHIP_IMAGE_BAD Src.mgmt [s.rd F.CHIP_BOOT_STAT_COPY, 7 + n]
    (s.wr F.CHIP_BOOT_STAT_STAGE (n + 1)).stageStep
  else s

def execBootStageTimeout (s : State) : Host.Outcome State Fault Refusal := .next (whenUp .mgmt bootStageTimeout s)

/-- BOOT_OPEN: on entry to OPEN the OPEN entries are written in image order; their LIVE fields are held back (R435). -/
def bootOpen (s : State) : State :=
  if s.stage = 5 then
    let es := s.boot.openEntries
    let s := es.foldl (fun (s : State) e => s.preloadWrite (fun c => c == .staged || c == .static) false e)
      { s with boot := { s.boot with openEntries := [] } }
    { s with boot := { s.boot with heldLive := s.boot.heldLive ++ es.filter holdsLive } }
  else s

def execBootOpen (s : State) : Host.Outcome State Fault Refusal := .next (whenUp .mgmt bootOpen s)

end Sys2Proof.Machine
end

