-- ==== Sys2Proof/Machine/Crossbar.lean ====
section
/-! DEFINITION. The crossbar: credits and arbitration (R13 to R21). -/

namespace Sys2Proof.Machine

/-- A transfer waiting for a destination: its region, slot and cell, its class (0 CTRL, 1 DATA, 2 BULK) and its beats. -/
structure XferReq where
  region : Nat
  slot : Nat
  cell : Nat
  cls : Nat
  beats : Nat
  deriving DecidableEq, Repr

/-- The blocks that own an arbitration slot (R12); blocks of one kind by number. -/
inductive ArbBlock where
  | forwarding | packetEngine | epoch | peerLane | endpoint | fetcher | ddr | drovers (n : Nat) | folds | lensCache | combining | stiles
  | vme | serial (n : Nat) | can (n : Nat) | chains | cadence | powerPath
  deriving DecidableEq, Repr

/-- The block that owns a slot of a region (LINK, HOST, CORE, EDGE), none where the table of R12 says so. -/
def slotBlock (region slot : Nat) : Option ArbBlock :=
  if region = 0 then
    match slot with
    | 0 => some .forwarding | 1 => some .packetEngine | 2 => some .epoch | 3 => some .peerLane | _ => none
  else if region = 1 then
    match slot with
    | 0 => some .endpoint | 1 => some .fetcher | 2 => some .ddr | _ => none
  else if region = 2 then
    if slot < 8 then some (.drovers slot) else
      match slot with
      | 8 => some .folds | 9 => some .lensCache | 10 => some .combining | 11 => some .stiles | _ => none
  else if region = 3 then
    if slot = 0 then some .vme else if slot < 9 then some (.serial (slot - 1)) else
      match slot with
      | 9 => some (.can 0) | 10 => some (.can 1) | 11 => some .chains | 12 => some .cadence | 13 => some .powerPath | _ => none
  else none

/-- Weight of a slot (R19). -/
def State.xbarWeight (s : State) (region slot : Nat) : Nat :=
  bitsOf (s.reg (0x200 + 8 * region + (if slot < 8 then 0 else 4))) (4 * (slot % 8) + 3) (4 * (slot % 8))

/-- DATA buffers of a destination (R21). -/
def State.xbarData (s : State) (dest : Nat) : Nat := bitsOf (s.reg 0x220) (8 * dest + 4) (8 * dest)

/-- Buffers of a class at a destination (R16). -/
def State.xbarLimit (s : State) (dest cls : Nat) : Nat :=
  if cls = 0 then 5 else if cls = 1 then s.xbarData dest else 27 - s.xbarData dest

/-- Beats occupied at a destination by class. -/
def State.xbarUsed (s : State) (dest cls : Nat) : Nat := getAt 0 (getAt [] s.xbar.used dest) cls

/-- The class holds credits for all of the transfer's beats (R16). After a commit of the split a buffer that the other of DATA and BULK
still occupies is not a credit before it is returned (R21); buffers free at the commit are split anew there (DEDUCED, log
entry 25). -/
def State.xbarCredit (s : State) (dest : Nat) (r : XferReq) : Bool :=
  decide (s.xbarUsed dest r.cls + r.beats ≤ s.xbarLimit dest r.cls) &&
    (r.cls == 0 || decide (s.xbarUsed dest 1 + s.xbarUsed dest 2 + r.beats ≤ 27))

/-- The first element in cyclic order from `start` that satisfies `p`, of `n` elements. -/
def firstFrom (n start : Nat) (p : Nat → Bool) : Option Nat := ((List.range n).map (fun i => (start + i) % n)).find? p

/-- The transfer a block offers (R13): CTRL before the rest, cells in turn. -/
def State.blockPick (s : State) (rs : List XferReq) (region slot : Nat) : Option XferReq :=
  let mine := rs.filter (fun r => r.region == region && r.slot == slot)
  let ctrl := mine.filter (fun r => r.cls == 0)
  let set := if ctrl = [] then mine else ctrl
  match firstFrom 8 (tget (fun _ => 0) s.xbar.nextCell (region * 16 + slot)) (fun c => set.any (fun r => r.cell == c)) with
  | some c => set.find? (fun r => r.cell == c)
  | none => none

/-- No slot of the region but `slot` has a transfer waiting among `all`. -/
def aloneWaiting (all : List XferReq) (region slot : Nat) : Bool := all.all (fun r => r.region != region || r.slot == slot)

/-- The slot a region offers (R14, R20) among the transfers `rs` that hold credits, with its turn if granted: CTRL first, then
weighted round-robin, then a slot of weight 0 when no other slot has a transfer waiting (`all`). Among several blocks with CTRL
waiting the first in slot order from the one whose turn it is goes first (DESIGN CHOICE, log entry 24). -/
def State.regionSlot (s : State) (all rs : List XferReq) (region : Nat) : Option (Nat × (Nat × Nat)) :=
  let mine := rs.filter (fun r => r.region == region)
  let has := fun (slot : Nat) (ctrl : Bool) => mine.any (fun r => r.slot == slot && (!ctrl || r.cls == 0))
  let t := getAt (0, 0) s.xbar.turn region
  match firstFrom 16 t.1 (fun x => has x true) with
  | some x => some (x, t)
  | none =>
    if has t.1 false && decide (t.2 < s.xbarWeight region t.1) then some (t.1, (t.1, t.2 + 1))
    else
      match firstFrom 16 (t.1 + 1) (fun x => has x false && decide (0 < s.xbarWeight region x)) with
      | some x => some (x, (x, 1))
      | none =>
        match firstFrom 16 (t.1 + 1) (fun x => has x false && aloneWaiting all region x) with
        | some x => some (x, (x, 1))
        | none => none

/-- A region's offer at a destination. -/
def State.regionPick (s : State) (all rs : List XferReq) (region : Nat) : Option (XferReq × (Nat × Nat)) :=
  match s.regionSlot all rs region with
  | some (slot, t) =>
    match s.blockPick rs region slot with
    | some r => some (r, t)
    | none => none
  | none => none

/-- The grant at a destination (R17): CTRL, then DATA and BULK in turn, regions in turn within a class. -/
def State.xbarPick (s : State) (all rs : List XferReq) (dest : Nat) : Option (XferReq × (Nat × Nat)) :=
  let from_ := getAt 3 s.xbar.lastRegion dest + 1
  let offers := ((List.range 4).map (fun i => (from_ + i) % 4)).filterMap (fun g => s.regionPick all rs g)
  let first := if getAt true s.xbar.lastBulk dest then 1 else 2
  match offers.find? (fun o => o.1.cls == 0) with
  | some o => some o
  | none =>
    match offers.find? (fun o => o.1.cls == first) with
    | some o => some o
    | none => offers.head?

/-- Buffers of a destination are free again: `freed` beats by class (R16). -/
def State.xbarFree (s : State) (dest : Nat) (freed : List Nat) : State :=
  { s with xbar := { s.xbar with used := setAt s.xbar.used dest ((List.range 3).map (fun c => s.xbarUsed dest c - getAt 0 freed c)) } }

/-- The transfers that wait, those of a block (R12). -/
def xbarWaiting (waiting : List (Nat × Nat × Nat × Nat)) : List XferReq :=
  (waiting.map (fun w => (⟨w.1 / 16, w.1 % 16, w.2.1, w.2.2.1, w.2.2.2⟩ : XferReq))).filter
    (fun r => (slotBlock r.region r.slot).isSome && decide (r.cell < 8) && decide (r.cls < 3))

/-- Those whose class holds credits at the destination: the others take no part in the arbitration of R13 and R14 (DESIGN CHOICE,
log entry 24). -/
def State.xbarReady (s : State) (dest : Nat) (all : List XferReq) : List XferReq := all.filter (fun r => s.xbarCredit dest r)

/-- Transfer `r` is granted at the destination: it takes its buffers, and every turn moves past it (R13 to R17); `t` is its region's
turn. -/
def State.xbarGrant (s : State) (dest : Nat) (r : XferReq) (t : Nat × Nat) : State :=
  { s with xbar := { s.xbar with
      used := setAt s.xbar.used dest (modAt 0 (getAt [] s.xbar.used dest) r.cls (· + r.beats))
      lastBulk := if r.cls = 0 then s.xbar.lastBulk else setAt s.xbar.lastBulk dest (r.cls == 2)
      lastRegion := setAt s.xbar.lastRegion dest r.region
      turn := setAt s.xbar.turn r.region t
      nextCell := tput (fun _ => 0) s.xbar.nextCell (r.region * 16 + r.slot) ((r.cell + 1) % 8) } }

/-- One transfer is granted and started at a destination port, which it holds to its last beat (R15, R16). -/
def crossbarTransfer (dest : Nat) (freed : List Nat) (waiting : List (Nat × Nat × Nat × Nat)) (s : State) : State :=
  if 4 ≤ dest then s
  else
    let s := s.xbarFree dest freed
    let all := xbarWaiting waiting
    match s.xbarPick all (s.xbarReady dest all) dest with
    | none => s
    | some (r, t) =>
      (match s.injTake [6] (fun i => i == dest) with
        | (some _, u) => u.raise Code.CHIP_XBAR_PARITY (Src.xbar dest) []
        | (none, u) => u).xbarGrant dest r t

def execCrossbarTransfer (dest : Nat) (freed : List Nat) (waiting : List (Nat × Nat × Nat × Nat)) (s : State) :
    Host.Outcome State Fault Refusal := .next (whenUp .core (crossbarTransfer dest freed waiting) s)

end Sys2Proof.Machine
end

