-- ==== Sys2Proof/Machine/Dispatch.lean ====
section
/-! DEFINITION. The dispatch: each command to its meaning. -/
namespace Sys2Proof.Machine
def exec (i : Instr) (s : State) : Host.Outcome State Fault Refusal :=
  match i with
  | .setupWrite offset data node agent => Sys2Proof.Machine.execSetupWrite offset data node agent s
  | .setupLatchRead offset len => Sys2Proof.Machine.execSetupLatchRead offset len s
  | .crossbarTransfer dest freed waiting => Sys2Proof.Machine.execCrossbarTransfer dest freed waiting s
  | .ringRequestDrop queue => Sys2Proof.Machine.execRingRequestDrop queue s
  | .stileWaitClear => Sys2Proof.Machine.execStileWaitClear s
  | .taskRun drover => Sys2Proof.Machine.execTaskRun drover s
  | .droverSteal drover => Sys2Proof.Machine.execDroverSteal drover s
  | .droverSleepEnd drover => Sys2Proof.Machine.execDroverSleepEnd drover s
  | .stileResult drover => Sys2Proof.Machine.execStileResult drover s
  | .drvStileSkip stile => Sys2Proof.Machine.execDrvStileSkip stile s
  | .drvWdog drover => Sys2Proof.Machine.execDrvWdog drover s
  | .drvMemUe drover => Sys2Proof.Machine.execDrvMemUe drover s
  | .drvTrap drover => Sys2Proof.Machine.execDrvTrap drover s
  | .drvReloadDone drover ok => Sys2Proof.Machine.execDrvReloadDone drover ok s
  | .drvEnWrite value node agent => Sys2Proof.Machine.execDrvEnWrite value node agent s
  | .pwqSpaceFree => Sys2Proof.Machine.execPwqSpaceFree s
  | .vmeBusGrant level => Sys2Proof.Machine.execVmeBusGrant level s
  | .vmeBrOther level asserted => Sys2Proof.Machine.execVmeBrOther level asserted s
  | .vmeBclrIn => Sys2Proof.Machine.execVmeBclrIn s
  | .vmeDtackIn data => Sys2Proof.Machine.execVmeDtackIn data s
  | .vmeBerrOut => Sys2Proof.Machine.execVmeBerrOut s
  | .vmeRetryIn => Sys2Proof.Machine.execVmeRetryIn s
  | .vmeRetryGap owner => Sys2Proof.Machine.execVmeRetryGap owner s
  | .vme2eEarlyEnd => Sys2Proof.Machine.execVme2eEarlyEnd s
  | .vmeDataTo => Sys2Proof.Machine.execVmeDataTo s
  | .vmeArbTo => Sys2Proof.Machine.execVmeArbTo s
  | .vmeBtoOut => Sys2Proof.Machine.execVmeBtoOut s
  | .vmeArbiterGrant busy => Sys2Proof.Machine.execVmeArbiterGrant busy s
  | .vmeGrantTo => Sys2Proof.Machine.execVmeGrantTo s
  | .sysrstPulse => Sys2Proof.Machine.execSysrstPulse s
  | .sysrstPulseEnd => Sys2Proof.Machine.execSysrstPulseEnd s
  | .vmeInAs am xam addr write rmw size beats => Sys2Proof.Machine.execVmeInAs am xam addr write rmw size beats s
  | .vmeInLensDecision => Sys2Proof.Machine.execVmeInLensDecision s
  | .vmeInDataStrobe wphase data => Sys2Proof.Machine.execVmeInDataStrobe wphase data s
  | .vmeInQueueSpace => Sys2Proof.Machine.execVmeInQueueSpace s
  | .vmeInSplitIssue => Sys2Proof.Machine.execVmeInSplitIssue s
  | .vmeInRingResult slot => Sys2Proof.Machine.execVmeInRingResult slot s
  | .vmeHoldTo => Sys2Proof.Machine.execVmeHoldTo s
  | .vmeInYield => Sys2Proof.Machine.execVmeInYield s
  | .vmeInAbandon berr => Sys2Proof.Machine.execVmeInAbandon berr s
  | .vmeRslotDiscard slot => Sys2Proof.Machine.execVmeRslotDiscard slot s
  | .vmeInPostedDone => Sys2Proof.Machine.execVmeInPostedDone s
  | .vmeIntrRoraWrite => Sys2Proof.Machine.execVmeIntrRoraWrite s
  | .vmeIrqIn level asserted => Sys2Proof.Machine.execVmeIrqIn level asserted s
  | .vmeRoakRearm level => Sys2Proof.Machine.execVmeRoakRearm level s
  | .vmeRoraRearm level => Sys2Proof.Machine.execVmeRoraRearm level s
  | .interrupterIack level width => Sys2Proof.Machine.execInterrupterIack level width s
  | .intrReassert => Sys2Proof.Machine.execIntrReassert s
  | .vmeIrqNoack => Sys2Proof.Machine.execVmeIrqNoack s
  | .read drover => Sys2Proof.Machine.execRead drover s
  | .write drover => Sys2Proof.Machine.execWrite drover s
  | .writeNt drover => Sys2Proof.Machine.execWriteNt drover s
  | .copy drover => Sys2Proof.Machine.execCopy drover s
  | .fill drover => Sys2Proof.Machine.execFill drover s
  | .claim drover => Sys2Proof.Machine.execClaim drover s
  | .commit drover => Sys2Proof.Machine.execCommit drover s
  | .fetchAdd drover => Sys2Proof.Machine.execFetchAdd drover s
  | .swap drover => Sys2Proof.Machine.execSwap drover s
  | .cmpSwap drover => Sys2Proof.Machine.execCmpSwap drover s
  | .fence drover => Sys2Proof.Machine.execFence drover s
  | .done drover => Sys2Proof.Machine.execDone drover s
  | .doneTimeout drover => Sys2Proof.Machine.execDoneTimeout drover s
  | .phaseWait drover => Sys2Proof.Machine.execPhaseWait drover s
  | .send drover => Sys2Proof.Machine.execSend drover s
  | .recvPost drover => Sys2Proof.Machine.execRecvPost drover s
  | .recvPostExpiry post => Sys2Proof.Machine.execRecvPostExpiry post s
  | .irqRaise drover => Sys2Proof.Machine.execIrqRaise drover s
  | .statusReg drover => Sys2Proof.Machine.execStatusReg drover s
  | .statusNonce drover => Sys2Proof.Machine.execStatusNonce drover s
  | .logRead drover => Sys2Proof.Machine.execLogRead drover s
  | .logClearClear drover => Sys2Proof.Machine.execLogClearClear drover s
  | .monUnlock drover => Sys2Proof.Machine.execMonUnlock drover s
  | .logClearReset drover => Sys2Proof.Machine.execLogClearReset drover s
  | .configStage drover => Sys2Proof.Machine.execConfigStage drover s
  | .configCommitNext drover => Sys2Proof.Machine.execConfigCommitNext drover s
  | .configCommitNamed drover => Sys2Proof.Machine.execConfigCommitNamed drover s
  | .mirrorMark drover => Sys2Proof.Machine.execMirrorMark drover s
  | .descFwdRx queue => Sys2Proof.Machine.execDescFwdRx queue s
  | .doorbellPoll => Sys2Proof.Machine.execDoorbellPoll s
  | .doorbellReadDone => Sys2Proof.Machine.execDoorbellReadDone s
  | .descFetchDone ring => Sys2Proof.Machine.execDescFetchDone ring s
  | .hstWake => Sys2Proof.Machine.execHstWake s
  | .cqSpaceFree ring => Sys2Proof.Machine.execCqSpaceFree ring s
  | .msixCoalExpiry ring => Sys2Proof.Machine.execMsixCoalExpiry ring s
  | .bar0Tlp write tag offset len data => Sys2Proof.Machine.execBar0Tlp write tag offset len data s
  | .bar2Tlp write tag offset len data => Sys2Proof.Machine.execBar2Tlp write tag offset len data s
  | .unsupportedTlp tag => Sys2Proof.Machine.execUnsupportedTlp tag s
  | .hostWindowCompletion id status data => Sys2Proof.Machine.execHostWindowCompletion id status data s
  | .hostCompletionTimeout id => Sys2Proof.Machine.execHostCompletionTimeout id s
  | .pcieFlr linkLoss => Sys2Proof.Machine.execPcieFlr linkLoss s
  | .ddrScrub => Sys2Proof.Machine.execDdrScrub s
  | .ddrInjArm value => Sys2Proof.Machine.execDdrInjArm value s
  | .wcTimeout base => Sys2Proof.Machine.execWcTimeout base s
  | .wcFlushDone => Sys2Proof.Machine.execWcFlushDone s
  | .wcEnClear => Sys2Proof.Machine.execWcEnClear s
  | .claimTimeout node agent => Sys2Proof.Machine.execClaimTimeout node agent s
  | .lcSnoopWrite am xam addr len overflow => Sys2Proof.Machine.execLcSnoopWrite am xam addr len overflow s
  | .lcInvAll => Sys2Proof.Machine.execLcInvAll s
  | .lcEnClear => Sys2Proof.Machine.execLcEnClear s
  | .pfDrainEmpty => Sys2Proof.Machine.execPfDrainEmpty s
  | .pfDrainDeadline => Sys2Proof.Machine.execPfDrainDeadline s
  | .foldPushGrant => Sys2Proof.Machine.execFoldPushGrant s
  | .foldHeadRead drover => Sys2Proof.Machine.execFoldHeadRead drover s
  | .foldHeadWrite drover => Sys2Proof.Machine.execFoldHeadWrite drover s
  | .foldHeadCount drover => Sys2Proof.Machine.execFoldHeadCount drover s
  | .foldStale fold => Sys2Proof.Machine.execFoldStale fold s
  | .foldFlush => Sys2Proof.Machine.execFoldFlush s
  | .floorRst => Sys2Proof.Machine.execFloorRst s
  | .sweepPassEnd => Sys2Proof.Machine.execSweepPassEnd s
  | .fldInjArm value => Sys2Proof.Machine.execFldInjArm value s
  | .linkEnable value => Sys2Proof.Machine.execLinkEnable value s
  | .laneMarkerRx lane w0 w1 w2 w3 => Sys2Proof.Machine.execLaneMarkerRx lane w0 w1 w2 w3 s
  | .initRx link rx => Sys2Proof.Machine.execInitRx link rx s
  | .linkInitTx link => Sys2Proof.Machine.execLinkInitTx link s
  | .lnkTrainFail link => Sys2Proof.Machine.execLnkTrainFail link s
  | .linkRetrain link => Sys2Proof.Machine.execLinkRetrain link s
  | .flowRx link rx => Sys2Proof.Machine.execFlowRx link rx s
  | .dataFrameRx link rx => Sys2Proof.Machine.execDataFrameRx link rx s
  | .codewordDecoded lane inData inCheck frames drained => Sys2Proof.Machine.execCodewordDecoded lane inData inCheck frames drained s
  | .ackRx link rx => Sys2Proof.Machine.execAckRx link rx s
  | .nakRx link rx => Sys2Proof.Machine.execNakRx link rx s
  | .ackTimer link => Sys2Proof.Machine.execAckTimer link s
  | .replayTimeout link => Sys2Proof.Machine.execReplayTimeout link s
  | .laneLockLoss lane => Sys2Proof.Machine.execLaneLockLoss lane s
  | .laneDegradeCheck lane => Sys2Proof.Machine.execLaneDegradeCheck lane s
  | .laneRx link rx => Sys2Proof.Machine.execLaneRx link rx s
  | .lnkInjArm word => Sys2Proof.Machine.execLnkInjArm word s
  | .packetRx side => Sys2Proof.Machine.execPacketRx side s
  | .dropAdmit side => Sys2Proof.Machine.execDropAdmit side s
  | .netDropStall side => Sys2Proof.Machine.execNetDropStall side s
  | .responseRx queue => Sys2Proof.Machine.execResponseRx queue s
  | .netTagTo tag => Sys2Proof.Machine.execNetTagTo tag s
  | .dupEntryExpire src tag kind => Sys2Proof.Machine.execDupEntryExpire src tag kind s
  | .interruptRx queue => Sys2Proof.Machine.execInterruptRx queue s
  | .intAckRx queue => Sys2Proof.Machine.execIntAckRx queue s
  | .vectorRx queue => Sys2Proof.Machine.execVectorRx queue s
  | .broadcastRx queue => Sys2Proof.Machine.execBroadcastRx queue s
  | .netJoinStart => Sys2Proof.Machine.execNetJoinStart s
  | .joinRx queue => Sys2Proof.Machine.execJoinRx queue s
  | .joinTimeout => Sys2Proof.Machine.execJoinTimeout s
  | .joinDupRx queue => Sys2Proof.Machine.execJoinDupRx queue s
  | .wrapRx queue => Sys2Proof.Machine.execWrapRx queue s
  | .netWrapLost side => Sys2Proof.Machine.execNetWrapLost side s
  | .unwrapRx queue => Sys2Proof.Machine.execUnwrapRx queue s
  | .electStart => Sys2Proof.Machine.execElectStart s
  | .electRx queue => Sys2Proof.Machine.execElectRx queue s
  | .electedRx queue => Sys2Proof.Machine.execElectedRx queue s
  | .electTimeout => Sys2Proof.Machine.execElectTimeout s
  | .epochTx => Sys2Proof.Machine.execEpochTx s
  | .epochRx queue => Sys2Proof.Machine.execEpochRx queue s
  | .netEpochLoss => Sys2Proof.Machine.execNetEpochLoss s
  | .delayMeasure side => Sys2Proof.Machine.execDelayMeasure side s
  | .delayReqRx queue => Sys2Proof.Machine.execDelayReqRx queue s
  | .delayRespRx queue => Sys2Proof.Machine.execDelayRespRx queue s
  | .netEpochSet value node agent => Sys2Proof.Machine.execNetEpochSet value node agent s
  | .serialRxChar port byte framing parity => Sys2Proof.Machine.execSerialRxChar port byte framing parity s
  | .serialIdleTimeout port kind => Sys2Proof.Machine.execSerialIdleTimeout port kind s
  | .serialTxStart port => Sys2Proof.Machine.execSerialTxStart port s
  | .serialTxDone port => Sys2Proof.Machine.execSerialTxDone port s
  | .serialDeLagEnd port => Sys2Proof.Machine.execSerialDeLagEnd port s
  | .spEcho port => Sys2Proof.Machine.execSpEcho port s
  | .spNoReply port => Sys2Proof.Machine.execSpNoReply port s
  | .modbusPollPeriod port => Sys2Proof.Machine.execModbusPollPeriod port s
  | .serialDisable port => Sys2Proof.Machine.execSerialDisable port s
  | .canRxFrame ctl word data => Sys2Proof.Machine.execCanRxFrame ctl word data s
  | .canTxStart ctl => Sys2Proof.Machine.execCanTxStart ctl s
  | .canTxDone ctl => Sys2Proof.Machine.execCanTxDone ctl s
  | .canTxError ctl lec counts => Sys2Proof.Machine.execCanTxError ctl lec counts s
  | .canRecover ctl => Sys2Proof.Machine.execCanRecover ctl s
  | .canRecoveryDone ctl => Sys2Proof.Machine.execCanRecoveryDone ctl s
  | .canDisable ctl => Sys2Proof.Machine.execCanDisable ctl s
  | .dcFrameStart chain => Sys2Proof.Machine.execDcFrameStart chain s
  | .dcFrameEnd chain din => Sys2Proof.Machine.execDcFrameEnd chain din s
  | .cadTick => Sys2Proof.Machine.execCadTick s
  | .cadZcEdge => Sys2Proof.Machine.execCadZcEdge s
  | .cadEncCount a b => Sys2Proof.Machine.execCadEncCount a b s
  | .cadEncIndex => Sys2Proof.Machine.execCadEncIndex s
  | .cadMainsLoss => Sys2Proof.Machine.execCadMainsLoss s
  | .cadFallback => Sys2Proof.Machine.execCadFallback s
  | .cadSchCopyDone entry => Sys2Proof.Machine.execCadSchCopyDone entry s
  | .cadSchReload node agent => Sys2Proof.Machine.execCadSchReload node agent s
  | .cadMaxMs => Sys2Proof.Machine.execCadMaxMs s
  | .bankRetire => Sys2Proof.Machine.execBankRetire s
  | .statSnapshotCopy => Sys2Proof.Machine.execStatSnapshotCopy s
  | .twnBeacon => Sys2Proof.Machine.execTwnBeacon s
  | .beaconRx queue => Sys2Proof.Machine.execBeaconRx queue s
  | .leaseAckRx queue => Sys2Proof.Machine.execLeaseAckRx queue s
  | .twnLeaseLapse => Sys2Proof.Machine.execTwnLeaseLapse s
  | .twnWaitEnd => Sys2Proof.Machine.execTwnWaitEnd s
  | .takeRx queue => Sys2Proof.Machine.execTakeRx queue s
  | .twnClaimEnd => Sys2Proof.Machine.execTwnClaimEnd s
  | .twnFenceDone => Sys2Proof.Machine.execTwnFenceDone s
  | .twnFenceRearm => Sys2Proof.Machine.execTwnFenceRearm s
  | .twnRearm => Sys2Proof.Machine.execTwnRearm s
  | .twnResume => Sys2Proof.Machine.execTwnResume s
  | .twnYield => Sys2Proof.Machine.execTwnYield s
  | .twnYieldRefused => Sys2Proof.Machine.execTwnYieldRefused s
  | .handoverRx queue => Sys2Proof.Machine.execHandoverRx queue s
  | .twnHoldToggle => Sys2Proof.Machine.execTwnHoldToggle s
  | .twnHoldInClassify level changed => Sys2Proof.Machine.execTwnHoldInClassify level changed s
  | .mirrorRecordRx queue => Sys2Proof.Machine.execMirrorRecordRx queue s
  | .mirrorCloseRx queue => Sys2Proof.Machine.execMirrorCloseRx queue s
  | .mirrorRecordWaitEnd epoch => Sys2Proof.Machine.execMirrorRecordWaitEnd epoch s
  | .mirrorCommitDone => Sys2Proof.Machine.execMirrorCommitDone s
  | .committedRx queue => Sys2Proof.Machine.execCommittedRx queue s
  | .resyncRx queue => Sys2Proof.Machine.execResyncRx queue s
  | .mirrorQueueSpace => Sys2Proof.Machine.execMirrorQueueSpace s
  | .faultRaise count => Sys2Proof.Machine.execFaultRaise count s
  | .errNPulseEnd => Sys2Proof.Machine.execErrNPulseEnd s
  | .faultNoteAge entry => Sys2Proof.Machine.execFaultNoteAge entry s
  | .fltActClear entry => Sys2Proof.Machine.execFltActClear entry s
  | .safeExit => Sys2Proof.Machine.execSafeExit s
  | .unfence mask => Sys2Proof.Machine.execUnfence mask s
  | .fltInjArm value node agent => Sys2Proof.Machine.execFltInjArm value node agent s
  | .recWriteDone good => Sys2Proof.Machine.execRecWriteDone good s
  | .recSecondTick => Sys2Proof.Machine.execRecSecondTick s
  | .recClearDone => Sys2Proof.Machine.execRecClearDone s
  | .authHoldEnd => Sys2Proof.Machine.execAuthHoldEnd s
  | .recRetest => Sys2Proof.Machine.execRecRetest s
  | .recInjArm value => Sys2Proof.Machine.execRecInjArm value s
  | .pwrEnable value node agent => Sys2Proof.Machine.execPwrEnable value node agent s
  | .pwrSampleCycle => Sys2Proof.Machine.execPwrSampleCycle s
  | .pmbusTransactionDone port cause word => Sys2Proof.Machine.execPmbusTransactionDone port cause word s
  | .pmbAlert port => Sys2Proof.Machine.execPmbAlert port s
  | .pwrFeedUv feed low => Sys2Proof.Machine.execPwrFeedUv feed low s
  | .pwrFailEnd => Sys2Proof.Machine.execPwrFailEnd s
  | .slotPresentChange slot present => Sys2Proof.Machine.execSlotPresentChange slot present s
  | .slotInsertSettled slot => Sys2Proof.Machine.execSlotInsertSettled slot s
  | .slotStart slot => Sys2Proof.Machine.execSlotStart slot s
  | .slotFaultIn slot faultLow pgIn => Sys2Proof.Machine.execSlotFaultIn slot faultLow pgIn s
  | .slotTrip slot => Sys2Proof.Machine.execSlotTrip slot s
  | .slotStartTimeout slot => Sys2Proof.Machine.execSlotStartTimeout slot s
  | .slotRetryExpiry slot => Sys2Proof.Machine.execSlotRetryExpiry slot s
  | .slotEnWrite slot value => Sys2Proof.Machine.execSlotEnWrite slot value s
  | .droopDetect => Sys2Proof.Machine.execDroopDetect s
  | .droopClean => Sys2Proof.Machine.execDroopClean s
  | .powerOn => Sys2Proof.Machine.execPowerOn s
  | .resetN => Sys2Proof.Machine.execResetN s
  | .perstN => Sys2Proof.Machine.execPerstN s
  | .ringCmd => Sys2Proof.Machine.execRingCmd s
  | .chipWdog => Sys2Proof.Machine.execChipWdog s
  | .resetRelease source nid idsrc mcap syscon head primary monlock => Sys2Proof.Machine.execResetRelease source nid idsrc mcap syscon head primary monlock s
  | .bootLoadDone copyA copyB trained pmbus => Sys2Proof.Machine.execBootLoadDone copyA copyB trained pmbus s
  | .bootStageTimeout => Sys2Proof.Machine.execBootStageTimeout s
  | .bootOpen => Sys2Proof.Machine.execBootOpen s
  | .chipHaltWrite value node agent => Sys2Proof.Machine.execChipHaltWrite value node agent s
  | .haltDrained group => Sys2Proof.Machine.execHaltDrained group s
  | .svcRxChar c stop => Sys2Proof.Machine.execSvcRxChar c stop s
  | .svcHelp => Sys2Proof.Machine.execSvcHelp s
  | .svcPeek => Sys2Proof.Machine.execSvcPeek s
  | .svcPoke => Sys2Proof.Machine.execSvcPoke s
  | .svcLens => Sys2Proof.Machine.execSvcLens s
  | .svcFold => Sys2Proof.Machine.execSvcFold s
  | .svcDrover => Sys2Proof.Machine.execSvcDrover s
  | .svcRing => Sys2Proof.Machine.execSvcRing s
  | .svcCad => Sys2Proof.Machine.execSvcCad s
  | .svcFault => Sys2Proof.Machine.execSvcFault s
  | .svcFaultClr => Sys2Proof.Machine.execSvcFaultClr s
  | .svcLog => Sys2Proof.Machine.execSvcLog s
  | .svcStat => Sys2Proof.Machine.execSvcStat s
  | .svcTwin => Sys2Proof.Machine.execSvcTwin s
  | .svcPwr => Sys2Proof.Machine.execSvcPwr s
  | .svcAtbSet => Sys2Proof.Machine.execSvcAtbSet s
  | .svcAtbRead code => Sys2Proof.Machine.execSvcAtbRead code s
  | .svcLock => Sys2Proof.Machine.execSvcLock s
  | .svcVer => Sys2Proof.Machine.execSvcVer s
  | .svcLockNow node agent => Sys2Proof.Machine.execSvcLockNow node agent s
  | .tstAtbWrite bus value node agent => Sys2Proof.Machine.execTstAtbWrite bus value node agent s
  | .tstAdcStart bus node agent => Sys2Proof.Machine.execTstAdcStart bus node agent s
  | .tstAdcDone code => Sys2Proof.Machine.execTstAdcDone code s
  | .tapReset => Sys2Proof.Machine.execTapReset s
  | .idcode => Sys2Proof.Machine.execIdcode s
  | .samplePreload pins load => Sys2Proof.Machine.execSamplePreload pins load s
  | .extest pins load => Sys2Proof.Machine.execExtest pins load s
  | .clamp => Sys2Proof.Machine.execClamp s
  | .highz => Sys2Proof.Machine.execHighz s
  | .atbSel value => Sys2Proof.Machine.execAtbSel value s
  | .mfgSeconds value => Sys2Proof.Machine.execMfgSeconds value s
  | .otpKey key => Sys2Proof.Machine.execOtpKey key s
  | .bypass ir => Sys2Proof.Machine.execBypass ir s
  | .pllLock => Sys2Proof.Machine.execPllLock s
  | .clockRecovered lane => Sys2Proof.Machine.execClockRecovered lane s
  | .blockLock lane gained => Sys2Proof.Machine.execBlockLock lane gained s
  | .pcieLinkUp speed width => Sys2Proof.Machine.execPcieLinkUp speed width s
  | .pcieConfigRequest write tag reg value bme enables mrrs mps => Sys2Proof.Machine.execPcieConfigRequest write tag reg value bme enables mrrs mps s
  | .bar4Tlp write tag offset len data => Sys2Proof.Machine.execBar4Tlp write tag offset len data s
  | .pcieFlowControlUpdate credits => Sys2Proof.Machine.execPcieFlowControlUpdate credits s
  | .tagQuarantineEnd tag => Sys2Proof.Machine.execTagQuarantineEnd tag s
  | .canRxError ctl lec inc => Sys2Proof.Machine.execCanRxError ctl lec inc s
  | .arbiterBclr held => Sys2Proof.Machine.execArbiterBclr held s
  | .fairRequest => Sys2Proof.Machine.execFairRequest s
  | .serviceLoopComplete => Sys2Proof.Machine.execServiceLoopComplete s
end Sys2Proof.Machine
end

