-- ==== Sys2Proof/Safety.lean ====
section
/-! DEFINITION. What a run of the block is held to: its memories keep their one canonical form, and which steps stop. -/

namespace Sys2Proof.Machine

/-- The two banks of the set-up space are canonical: keys rising, no register listed at the value it reads unlisted (R3, R438). -/
def Regs.wf (r : Regs) : Bool := twf resetWord r.eff && twf shadowReset r.shadow

/-- The memories of the node are canonical: both register banks, the DDR4 and the recorder's MRAM. -/
def State.Inv (s : State) : Prop :=
  s.regs.wf = true ∧ Memory.wf s.ddr.bytes = true ∧ Memory.wf s.recd.mram = true

/-! ### Frames -/

/-- The units a state is made of, its queue of commands apart. -/
inductive Area where
  | regs
  | flt
  | boot
  | commits
  | vme
  | vin
  | drv
  | ord
  | fold
  | net
  | cad
  | stat
  | twin
  | port
  | ddr
  | host
  | recd
  | pwr
  | xbar
  | svc
  | tap
  | cyc
  | ticks
  | out
  | freeCtr
  deriving DecidableEq, Repr

/-- A unit is in `t` as it is in `s`. -/
def State.same (s t : State) : Area → Prop
  | .regs => t.regs = s.regs
  | .flt => t.flt = s.flt
  | .boot => t.boot = s.boot
  | .commits => t.commits = s.commits
  | .vme => t.vme = s.vme
  | .vin => t.vin = s.vin
  | .drv => t.drv = s.drv
  | .ord => t.ord = s.ord
  | .fold => t.fold = s.fold
  | .net => t.net = s.net
  | .cad => t.cad = s.cad
  | .stat => t.stat = s.stat
  | .twin => t.twin = s.twin
  | .port => t.port = s.port
  | .ddr => t.ddr = s.ddr
  | .host => t.host = s.host
  | .recd => t.recd = s.recd
  | .pwr => t.pwr = s.pwr
  | .xbar => t.xbar = s.xbar
  | .svc => t.svc = s.svc
  | .tap => t.tap = s.tap
  | .cyc => t.cyc = s.cyc
  | .ticks => t.ticks = s.ticks
  | .out => t.out = s.out
  | .freeCtr => t.freeCtr = s.freeCtr

/-- Nothing changes from `s` to `t` but the units listed; the queue of commands stays. -/
structure State.Only (s t : State) (ps : List Area) : Prop where
  same : ∀ p, p ∉ ps → s.same t p
  queue : t.pending = s.pending

/-- Of the registers, only those listed change from `s` to `t`: every other register reads as before in both banks, and the latches
and what is held for the other bank stay. -/
structure State.RegsBut (s t : State) (ks : List Nat) : Prop where
  reg : ∀ k, k ∉ ks → t.reg k = s.reg k
  shd : ∀ k, k ∉ ks → t.shd k = s.shd k
  latch : t.regs.latch = s.regs.latch
  held : t.regs.heldWrites = s.regs.heldWrites
  refused : t.regs.refused = s.regs.refused

/-- The registers of capture unit `u` (R374, R381). -/
def capRegs (u : Nat) : List Nat :=
  [K.FLT_CAP_STAT u, K.FLT_CAP_ADDR_LO u, K.FLT_CAP_ADDR_HI u, K.FLT_CAP_MASTER u, K.FLT_CAP_ACCESS u, K.FLT_CAP_CYC u,
   K.FLT_CAP_FRM u, K.FLT_CAP_PHASE u]

/-- The next step goes on. -/
def State.goesOn (s : State) : Prop := ∃ t, step s = .next t

/-- The commands that may put an interface outside its limits (R2): the test instructions that drive or release the pins. -/
def Instr.testDrive : Sys2Proof.Instr → Bool
  | .extest _ _ => true
  | .clamp => true
  | .highz => true
  | _ => false

/-! ### The monitor's replies -/

/-- The command the monitor runs ends with these reply lines: then the status lines of R447 and the prompt; it counts, and nothing
runs any more. Nothing else changes (R447, R449, R450). -/
structure State.Replied (s t : State) (ls : List (List SvcTok)) : Prop where
  out : t.out = .svcPrompt :: ((t.svcStatus.map (fun w => Out.svcLine [.text w])).reverse ++ (ls.map Out.svcLine).reverse ++ s.out)
  ended : t.svc = { s.svc with cmd := none }
  idle : t.rd F.SVC_STAT_BUSY = 0
  counted : t.reg K.SVC_CNT_CMD = BitVec.ofNat 32 (satAdd 32 (s.reg K.SVC_CNT_CMD).toNat 1)

/-! ### Set-up writes -/

/-- Registers whose write brings something about beside what it leaves in the register, or which clear under conditions of their own
(R6). -/
def setupActs (off : Nat) : Bool :=
  [0x304, 0x314, 0x410, 0x1000, 0x100C, 0x1800, 0x182C, 0x2000, 0x2008, 0x281C, 0x3018, 0x301C, 0x3818, 0x3820, 0x5800, 0x580C,
    0x5850, 0x5860, 0x5864, 0x704C, 0x7054, 0x7058, 0x705C, 0x7800, 0x8000, 0x8050, 0x8064, 0x9000, 0x9024, 0x9800, 0x9808, 0xC008,
    0xC800].contains off ||
  decide (0x6000 ≤ off ∧ off < 0x7000 ∨ 0x8020 ≤ off ∧ off ≤ 0x8030 ∨ 0x8400 ≤ off ∧ off < 0x84C0 ∨ 0x9900 ≤ off ∧ off < 0x9A00)

/-! ### Sending on a ring -/

/-- A packet leaves by link `k` at once: it is up, nothing waits, the window and the credit suffice (R241, R257, R258), no error
injection is armed. -/
structure State.ClearOn (s : State) (k : Nat) (p : Packet) : Prop where
  up : s.linkUp k = true
  empty : (s.link k).waiting = []
  room : canSend (s.link k) p = true
  cls : p.cls < 3
  sound : ∀ l ∈ lanesOf k, (s.lane l).inject = none

/-- One packet has left by link `k`, as its next DATA frame, dealt to the lanes of the transmit bond (R233, R236, R241). -/
structure State.SentOn (s t : State) (k : Nat) (p : Packet) : Prop where
  frame : let f := mkFrame 0 (s.link k).nextSeq (s.link k).expect true (credWord (s.link k)) (stampPacket s.net.epoch p).bytes
    t.out = .frame k f (s.dealt k f) :: s.out
  kept : (t.link k).unacked = (s.link k).unacked ++ [((s.link k).nextSeq, p)]
  seq : (t.link k).nextSeq = ((s.link k).nextSeq + 1) % 256

/-- A packet for a ring leaves at once; the node is no loop of its own. -/
def State.Clear (s : State) (ring : Nat) (p : Packet) : Prop :=
  (s.wrapped 0 && s.wrapped 1) = false ∧ s.ClearOn (s.exitOf ring) p

/-- One packet has left for a ring. -/
def State.Sent (s t : State) (ring : Nat) (p : Packet) : Prop := s.SentOn t (s.exitOf ring) p

end Sys2Proof.Machine
end

