-- ==== Sys2Proof/Certificates/Slice0/Obligations.lean ====
section
/-! DEFINITION. The statements for the provers: first the machine as a whole, then unit by unit in the order of the manual's chapters.

A statement gives the state a command leaves, or names what it writes together with the units (`Only`) and the registers (`RegsBut`)
outside which nothing changes. Rules in brackets are those the clauses follow; a clause says its case and no more of the rule. -/

open Sys2Proof Sys2Proof.Machine

/-- A step takes the command at the front of the queue and runs it with the queue's rest; on an empty queue the block idles, which is
the model's choice (log entry 7). -/
def Obligations.StepRunsTheFrontCommand : Prop :=
  ∀ s : State, (∀ c rest, s.pending = c :: rest → step s = exec c { s with pending := rest }) ∧ (s.pending = [] → step s = .next s)

/-- No command touches the queue of waiting commands, and every command goes on in every state but the three that R454 allows only
while RESET_N is held low. -/
def Obligations.CommandsGoOnAndLeaveTheQueue : Prop :=
  ∀ (i : Instr) (s : State),
    (Sys2Proof.Machine.Instr.testDrive i = false ∨ s.boot.held.contains 2 = true → ∃ t, exec i s = .next t) ∧
    (∀ t, exec i s = .next t → t.pending = s.pending)

/-- Every step keeps the memories of the node in their one canonical form: the two banks of the set-up space (R3, R438), the DDR4
and the recorder's MRAM. -/
def Obligations.StepKeepsTheMemoriesCanonical : Prop :=
  ∀ s t : State, s.Inv → step s = .next t → t.Inv

/-- After reset the memories are canonical, nothing waits, no key is set (the model's choice, log entry 1) and the registers hold the
values of the register map's Reset column (R10). -/
def Obligations.ResetLeavesTheMapsValues : Prop :=
  State.reset.Inv ∧ State.reset.pending = [] ∧ State.reset.boot.otpKeySet = false ∧
    (∀ k, State.reset.reg k = resetWord k) ∧
    State.reset.reg K.TST_IDCODE = 0x1941656F#32 ∧ State.reset.reg K.LNK_RETRY = 0x08320014#32 ∧
    State.reset.reg K.VME_TIMEOUT = 0x00640100#32 ∧ State.reset.rd F.TWN_LEASE_LEASE_MS = 0x032 ∧
    State.reset.rd F.TWN_LEASE_GUARD_MS = 0x00A ∧ State.reset.rd F.TWN_LEASE_BEACON_MS = 0x05 ∧ State.reset.reg K.FLT_SEV_SEL = 0 ∧
    State.reset.rd F.CAD_CTL_SOURCE = 0 ∧ State.reset.bit F.CAD_CTL_RETURN_EN = true ∧ State.reset.rd F.CAD_CTL_AGENT = 0xFD ∧
    State.reset.bit F.PWR_CTL_EN = false ∧ State.reset.bit F.PWR_CTL_FAST_EN = true

/-- Once the recorder's key is programmed no step changes it, whatever the command (R396, R455). -/
def Obligations.NoStepChangesTheRecordersKey : Prop :=
  ∀ s t : State, step s = .next t → s.boot.otpKeySet = true → t.boot.otpKeySet = true ∧ t.boot.otpKey = s.boot.otpKey

/-- The device asks for, takes, keeps and gives up the VME bus (R72, R73, R76), and as system controller grants it, clears it and
drives SYSRESET* (R81). -/
def Obligations.VmeBusIsArbitrated : Prop :=
  ∀ s : State, s.up .edge = true →
    (∀ level d j x rest, s.vme.br = true → level = s.rd F.VME_CTL_BR_LEVEL → s.vme.owner = none → s.vme.waiting = [.drover d] →
      s.onlyQueue = false → s.jobHeld d = false → s.job d = some j → j.kind = .read → j.xfers = x :: rest →
      s.bit F.VME_CTL_BURST_DIS = false → x.kind ≠ .e2vme → x.kind ≠ .e2sst → ∃ t, exec (.vmeBusGrant level) s = .next t ∧
      t.vme = { s.vme with bbsy := true, since := s.ticks, br := false, fairWait := false, owner := some (.drover d), lastOwner := none,
                           waiting := [], strobed := true } ∧
      (let a := x.addr + j.beatsDone * x.beat
       t.out = .vmeCycle (amOf j.lens.am x.kind).1 (amOf j.lens.am x.kind).2 a false (cyclePins a x.beat) [] :: s.out) ∧
      s.Only t [.vme, .out]) ∧
    (∀ level, s.vme.br = false ∨ level ≠ s.rd F.VME_CTL_BR_LEVEL ∨ s.vme.waiting = [] →
      exec (.vmeBusGrant level) s = .next { s with out := .vmeGrantOut level :: s.out }) ∧
    (∀ level on, s.vme.owner.isSome = true ∨ s.vme.bbsy = false →
      exec (.vmeBrOther level on) s = .next { s with vme := { s.vme with brOther := setAt s.vme.brOther level on } }) ∧
    (∀ level, level < s.vme.brOther.length → s.vme.owner = none → s.vme.bbsy = true → s.vme.bclrIn = false → s.vme.waiting = [] → ∃ t,
      exec (.vmeBrOther level true) s = .next t ∧ t.vme = { s.vme with
        brOther := setAt s.vme.brOther level true, bbsy := false, lastOwner := none, strobed := false, bclrOut := false } ∧ s.Only t [.vme, .stat]) ∧
    (s.vme.bbsy = false → exec .vmeBclrIn s = .next s) ∧
    (s.vme.bbsy = true → s.vme.owner.isSome = true → exec .vmeBclrIn s = .next { s with vme := { s.vme with bclrIn := true } }) ∧
    (s.vme.bbsy = true → s.vme.owner = none → s.vme.waiting = [] → ∃ t, exec .vmeBclrIn s = .next t ∧
      t.vme = { s.vme with bbsy := false, lastOwner := none, strobed := false, bclrIn := false, bclrOut := false } ∧ s.Only t [.vme, .stat]) ∧
    (s.vme.fairWait = true → s.vme.br = false → getAt false s.vme.brOther (s.rd F.VME_CTL_BR_LEVEL) = false →
      exec .fairRequest s = .next { s with vme := { s.vme with br := true, fairWait := false } }) ∧
    (s.vme.fairWait = false ∨ getAt false s.vme.brOther (s.rd F.VME_CTL_BR_LEVEL) = true → exec .fairRequest s = .next s) ∧
    (∀ d j e, s.vme.bbsy = false → s.vme.br = true → s.vme.waiting.find? s.mayBegin = some (.drover d) → s.job d = some j →
      j.kind = .read → j.cut = false → s.execOf d = some e → ∃ t y, exec .vmeArbTo s = .next t ∧ t.execOf d = some y ∧
      y.phase = .ended ∧ y.result = some ⟨St.VME_ARB_TIMEOUT, e.done + j.done, []⟩ ∧ .drover d ∉ t.vme.waiting ∧
      t.reg K.VME_CNT_ARB_TO = BitVec.ofNat 32 (satAdd 32 (s.reg K.VME_CNT_ARB_TO).toNat 1) ∧
      (∃ f ∈ t.flt.raised, f.code = Code.VME_ARB_TO ∧ f.src = Src.vmeMaster)) ∧
    (s.vme.bbsy = true ∨ s.vme.br = false → exec .vmeArbTo s = .next s) ∧
    (∀ busy, s.sysOn = false ∨ s.bit F.VME_SYSCTL_ARB_EN = false ∨ busy = true ∨ s.vme.bbsy = true ∨ s.vme.grantOut.isSome = true →
      exec (.vmeArbiterGrant busy) s = .next { s with vme := { s.vme with
        bbsyOther := busy, grantOut := if busy then none else s.vme.grantOut, bclrOut := s.vme.bclrOut && (busy || s.vme.bbsy) } }) ∧
    (∀ l, s.sysOn = true → s.bit F.VME_SYSCTL_ARB_EN = true → s.vme.bbsy = false → s.vme.grantOut = none → s.arbiterPick = some l →
      s.vme.br = false ∨ l ≠ s.rd F.VME_CTL_BR_LEVEL → exec (.vmeArbiterGrant false) s = .next { s with
        vme := { s.vme with bbsyOther := false, lastGrant := l, bclrOut := false, grantOut := some l }
        out := .vmeGrantOut l :: s.out }) ∧
    (s.sysOn = false ∨ s.vme.grantOut = none → exec .vmeGrantTo s = .next s) ∧
    (s.sysOn = true → s.vme.grantOut.isSome = true → s.vme.bbsy = false → s.arbiterPick = none → exec .vmeGrantTo s = .next { s with
      vme := { s.vme with bbsyOther := false, grantOut := none, bclrOut := false } }) ∧
    (∀ held, s.sysOn = true → s.bit F.VME_SYSCTL_BCLR_EN = true → held = true → s.vme.bbsy = false → exec (.arbiterBclr held) s = .next { s with
      vme := { s.vme with grantOut := none, bclrOut := if s.rd F.VME_SYSCTL_ARB_MODE = 0
        then (List.range 4).any (fun l => decide (s.vme.lastGrant < l) && s.requesting l)
        else (List.range 4).any (fun l => decide (l ≠ s.vme.lastGrant) && s.requesting l) } }) ∧
    (∀ held, s.sysOn = false ∨ s.bit F.VME_SYSCTL_BCLR_EN = false ∨ (held = false ∧ s.vme.bbsy = false) →
      exec (.arbiterBclr held) s = .next s) ∧
    (s.sysOn = true → exec .sysrstPulse s = .next { s with vme := { s.vme with sysrstPulse := true }, out := .sysReset true :: s.out }) ∧
    (s.sysOn = false → exec .sysrstPulse s = .next s) ∧
    (s.vme.sysrstPulse = true →
      exec .sysrstPulseEnd s = .next { s with vme := { s.vme with sysrstPulse := false }, out := .sysReset false :: s.out }) ∧
    (s.vme.sysrstPulse = false → exec .sysrstPulseEnd s = .next s)

/-- How a cycle of the device ends (R65, R67, R71, R76 to R79): data go on to the next cycle or end the piece, an error or a timeout
ends the request with its status, a retry leaves the bus for GAP_US; and a write piece that waited for room enters the posted write
queue (R69). -/
def Obligations.VmeCyclesEnd : Prop :=
  ∀ s : State, s.up .edge = true →
    (s.strobing = none → (∀ data, exec (.vmeDtackIn data) s = .next s) ∧ exec .vmeBerrOut s = .next s ∧ exec .vmeRetryIn s = .next s ∧
      exec .vme2eEarlyEnd s = .next s ∧ exec .vmeDataTo s = .next s ∧
      (s.sysOn = true → s.bit F.VME_SYSCTL_BTIMER_EN = true → exec .vmeBtoOut s = .next { s with out := .vmeBerrTimer :: s.out })) ∧
    (s.sysOn = false ∨ s.bit F.VME_SYSCTL_BTIMER_EN = false → exec .vmeBtoOut s = .next s) ∧
    (∀ d j e x rest, s.strobing = some (.drover d) → s.job d = some j → j.cut = false → j.kind = .read ∨ j.kind = .write →
      j.xfers = x :: rest → s.execOf d = some e → s.endedNow = false →
      let ends := fun (t : State) (st n : Nat) (bs : List Byte) =>
        ∃ y, t.execOf d = some y ∧ y.phase = .ended ∧ y.result = some ⟨st, n, bs⟩
      let counted := fun (t : State) (k : Nat) => t.reg k = BitVec.ofNat 32 (satAdd 32 (s.reg k).toNat 1)
      let told := fun (t : State) (code : Nat) => ∃ f ∈ t.flt.raised, f.code = code ∧ f.src = Src.vmeMaster
      let left := { j with xfers := { x with addr := x.addr + j.beatsDone * x.beat, beats := x.beats - j.beatsDone } :: rest
                           beatsDone := 0, wphase := false }
      (∀ data, j.kind = .read → x.kind = .single → x.beats ≤ j.beatsDone + 1 → data.length = x.beat → rest = [] →
        e.pieces.length = 1 → e.task.op = 0x01 → ∃ t, exec (.vmeDtackIn data) s = .next t ∧
        ends t St.OK (e.done + (j.done + x.beat)) (e.buf ++ j.prism (j.rdata ++ data)) ∧ counted t K.VME_CNT_SINGLE) ∧
      (j.kind = .write → x.kind = .single → x.beats ≤ j.beatsDone + 1 → rest = [] → e.pieces.length = 1 → e.task.op ≠ 0x01 → ∃ t,
        exec (.vmeDtackIn []) s = .next t ∧ ends t St.OK (e.done + (j.done + x.beat)) [] ∧ counted t K.VME_CNT_SINGLE) ∧
      (∀ data y more, j.kind = .read → x.kind = .single → x.beats ≤ j.beatsDone + 1 → data.length = x.beat → rest = y :: more →
        s.bit F.VME_CTL_BURST_DIS = false → y.kind ≠ .e2vme → y.kind ≠ .e2sst → ∃ t,
        exec (.vmeDtackIn data) s = .next t ∧
        t.job d = some { j with done := j.done + x.beat, rdata := j.rdata ++ data, beatsDone := 0, xfers := y :: more } ∧
        t.out = .vmeCycle (amOf j.lens.am y.kind).1 (amOf j.lens.am y.kind).2 y.addr false (cyclePins y.addr y.beat) [] :: s.out ∧
        counted t K.VME_CNT_SINGLE ∧ t.vme = { s.vme with jobs := t.vme.jobs, endAt := some (s.ticks, false) } ∧ s.Only t [.regs, .vme, .stat, .out] ∧ s.RegsBut t [K.VME_CNT_SINGLE]) ∧
      (∃ t, exec .vmeBerrOut s = .next t ∧ ends t St.VME_BERR (e.done + j.done) [] ∧ counted t K.VME_CNT_BERR ∧
        told t Code.VME_BERR_OUT) ∧
      (∃ t, exec .vmeDataTo s = .next t ∧ ends t St.VME_TIMEOUT (e.done + j.done) [] ∧ counted t K.VME_CNT_TIMEOUT ∧
        told t Code.VME_DATA_TO ∧ t.vme.bbsy = false) ∧
      (s.sysOn = true → s.bit F.VME_SYSCTL_BTIMER_EN = true → ∃ t, exec .vmeBtoOut s = .next t ∧
        ends t St.VME_TIMEOUT (e.done + j.done) [] ∧ counted t K.VME_CNT_TIMEOUT ∧ told t Code.VME_BTO_OUT ∧ .vmeBerrTimer ∈ t.out) ∧
      (j.lens.retryMax ≤ j.retries → ∃ t, exec .vmeRetryIn s = .next t ∧ ends t St.VME_RETRY (e.done + j.done) [] ∧
        counted t K.VME_CNT_RETRY ∧ told t Code.VME_RETRY_OUT) ∧
      (j.retries < j.lens.retryMax → ∃ t, exec .vmeRetryIn s = .next t ∧ t.job d = some { left with retries := j.retries + 1 } ∧
        t.vme.gap = s.vme.gap ++ [.drover d] ∧ t.vme.bbsy = false ∧ t.execOf d = some e ∧ counted t K.VME_CNT_RETRY ∧
        s.Only t [.regs, .vme, .stat] ∧ s.RegsBut t [K.VME_CNT_RETRY]) ∧
      (x.kind = .e2vme ∨ x.kind = .e2sst → 0 < j.beatsDone → ∃ t, exec .vme2eEarlyEnd s = .next t ∧ t.job d = some left ∧
        t.vme.gap = s.vme.gap ++ [.drover d] ∧ t.vme.bbsy = false ∧ t.execOf d = some e ∧ s.Only t [.vme, .stat]) ∧
      (x.kind ≠ .e2vme → x.kind ≠ .e2sst → exec .vme2eEarlyEnd s = .next s)) ∧
    (∀ n, n < 64 → s.vme.gap.contains (.drover n) = true → s.vme.owner = none → s.vme.waiting = [] → s.vme.bbsy = false → s.vme.br = false →
      s.onlyQueue = false → s.jobHeld n = false → s.bit F.VME_CTL_FAIR = false → exec (.vmeRetryGap n) s = .next { s with vme := { s.vme with
        gap := s.vme.gap.filter (· != .drover n), waiting := [.drover n], askedAt := tput (fun _ => 0) s.vme.askedAt n s.ticks
        br := true, fairWait := false } }) ∧
    (∀ n, s.vme.gap.contains (ownerOf n) = false → exec (.vmeRetryGap n) s = .next s) ∧
    (s.vme.pwqWait = [] ∨ s.rd F.VME_PWQ_LIMIT ≤ s.vme.pwq.length → exec .pwqSpaceFree s = .next s) ∧
    (∀ d rest e p, s.vme.pwqWait = d :: rest → d ∉ rest → s.vme.pwq.length < s.rd F.VME_PWQ_LIMIT → s.execOf d = some e →
      e.phase = .pwqWait → e.task.op = 0x02 → e.pieces = [p] → s.lensBad e.task.bank p.lensNo = false → s.busRefused = none →
      p.lens.posted = true → s.rd F.CHIP_PF_STAT_STATE = 0 → ∃ t, exec .pwqSpaceFree s = .next t ∧
      t.vme.pwqWait = rest ∧ t.vme.pwq.length = s.vme.pwq.length + 1 ∧
      ∃ y, t.execOf d = some y ∧ y.phase = .ended ∧ y.result = some ⟨St.OK, e.done + p.len, []⟩)

/-- The VME slave decides which inbound lens answers a cycle, takes posted data into its queue, asks the ring for held cycles, and
ends them with their results (R26, R51, R85 to R103). -/
def Obligations.VmeSlaveAnswersCycles : Prop :=
  ∀ s : State, s.up .edge = true →
    (∀ am xam addr write rmw size beats, s.vme.bbsy = false → s.vin.cyc = none ∨ (∃ o, s.vin.cyc = some o ∧ (o.stage = .ended ∨ o.stage = .ignored)) → ∃ t c,
      exec (.vmeInAs am xam addr write rmw size beats) s = .next t ∧ t.vin = { s.vin with cyc := some c } ∧ c.stage = .lookup ∧
      c.bank = s.bit F.CHIP_COMMIT_STAT_BANK ∧ c.am = am ∧ c.xam = xam ∧ c.addr = addr ∧ c.write = (write && !rmw) ∧ c.rmw = rmw ∧
      c.size = size ∧ c.beats = beats ∧ c.rora = false ∧ c.strobed = false ∧ c.wphase = false ∧ c.gather = [] ∧ c.slots = [] ∧ c.taken = [] ∧
      s.Only t [.vin]) ∧
    (∀ am xam addr write rmw size beats, s.vme.bbsy = true ∨ (∃ o, s.vin.cyc = some o ∧ o.stage ≠ .ended ∧ o.stage ≠ .ignored) →
      exec (.vmeInAs am xam addr write rmw size beats) s = .next s) ∧
    (s.vin.cyc = none → exec .vmeInLensDecision s = .next s ∧ exec .vmeInQueueSpace s = .next s ∧ exec .vmeInSplitIssue s = .next s ∧
      ∀ w data, exec (.vmeInDataStrobe w data) s = .next s) ∧
    (∀ i, s.slotAt i = none ∨ (∃ r, s.slotAt i = some r ∧ r.held = false) → exec (.vmeInRingResult i) s = .next s) ∧
    (∀ c, s.vin.cyc = some c →
      let cycle := fun (c' : InCycle) => Host.Outcome.next { s with vin := { s.vin with cyc := some c' } }
      (c.stage ≠ .lookup → exec .vmeInLensDecision s = .next s) ∧
      (c.stage = .lookup →
        (s.roraHit c = true → c.write = true → c.rmw = false → c.size = 1 ∨ c.size = 2 →
          exec .vmeInLensDecision s = cycle { c with stage := .awaitData, rora := true }) ∧
        (s.roraHit c = false →
          (s.slaveOff = true ∨ amNames c.am c.xam = none → exec .vmeInLensDecision s = cycle { c with stage := .ignored }) ∧
          (∀ space cl x lock, s.slaveOff = false → amNames c.am c.xam = some (space, cl, x, lock) →
            let a := spaceAddr space c.addr
            let hit := fun n => (s.inLens c.bank n).fits space cl x a && !s.degradedSrc (Src.lnsi n)
            ((List.range 32).find? hit = none → exec .vmeInLensDecision s = cycle { c with stage := .ignored }) ∧
            (∀ n, (List.range 32).find? hit = some n → s.lensBad c.bank (64 + n) = false →
              let l := s.inLens c.bank n
              let u := { c with lensNo := n, lens := l, addr := a, cur := a }
              let bad := decide (x = 8) && (!(c.size == 1 || c.size == 2 || c.size == 4) || a % c.size != 0)
              let refused := fun (code : Nat) (ks : List Nat) => ∃ t, exec .vmeInLensDecision s = .next t ∧ t.out = .vmeBerr :: s.out ∧
                t.vin = { s.vin with cyc := some { u with stage := .ended, slots := [], taken := [] } } ∧
                (∃ f ∈ t.flt.raised, f.code = code ∧ f.src = Src.vmeSlave) ∧
                t.reg K.VME_CNT_IN_BERR = BitVec.ofNat 32 (satAdd 32 (s.reg K.VME_CNT_IN_BERR).toNat 1) ∧
                s.Only t [.regs, .flt, .vin, .ord, .stat, .out] ∧ s.RegsBut t (K.VME_CNT_IN_BERR :: ks ++ capRegs 4)
              (lock = true ∨ bad = true → refused Code.VME_IN_UNSUPP []) ∧
              (lock = false → bad = false → u.answered x = false → exec .vmeInLensDecision s = cycle { u with stage := .ignored }) ∧
              (lock = false → bad = false → u.answered x = true →
                (c.write = false ∨ c.rmw = true ∨ l.posted = false → s.loops u = true → refused Code.VME_LOOP [K.VME_CNT_IN_LOOP]) ∧
                (c.write = true → c.rmw = false → l.posted = true ∨ s.loops u = false →
                  exec .vmeInLensDecision s = if c.strobed
                    then exec (.vmeInDataStrobe false c.wdata)
                      { s with vin := { s.vin with cyc := some { u with stage := .awaitData, strobed := false, wdata := [] } } }
                    else cycle { u with stage := .awaitData }) ∧
                (c.write = false ∨ c.rmw = true → s.loops u = false →
                  exec .vmeInLensDecision s = cycle { u with stage := .heldIssue, aheadAt := u.fab a })))))) ∧
      (c.rora = true → ∀ w data, exec (.vmeInDataStrobe w data) s = .next s) ∧
      (∀ data, c.rora = false → c.stage = .lookup → c.write = false ∨ data.length = c.size →
        exec (.vmeInDataStrobe false data) s = cycle { c with strobed := true, wdata := data }) ∧
      (∀ data, c.rora = false → c.stage = .awaitData → data.length = c.size →
        let u := { c with strobed := true, wdata := data }
        (c.rmw = true ∨ c.lens.posted = false → exec (.vmeInDataStrobe c.wphase data) s = cycle { u with stage := .heldIssue }) ∧
        (c.rmw = false → c.lens.posted = true → s.canPost c data.length = false →
          exec (.vmeInDataStrobe c.wphase data) s = cycle { u with stage := .heldQueue })) ∧
      (c.block = false → c.rmw = false → c.gather = [] →
        let posted := fun (i : Instr) (data : List Byte) => ∃ t, exec i s = .next t ∧ t.out = .vmeDtack [] :: s.out ∧
          t.vin.ipwq = s.vin.ipwq ++ [⟨s.vin.nextPost, c.lensNo, c.cur, c.fab c.cur, c.carry c.cur data, true, none⟩] ∧
          (∃ y, t.vin.cyc = some y ∧ y.stage = .ended) ∧ t.vin.slots = s.vin.slots ∧
          s.Only t [.regs, .flt, .vin, .drv, .ord, .fold, .stat, .out, .freeCtr]
        (∀ data, c.rora = false → c.stage = .awaitData → c.lens.posted = true → data.length = c.size → s.canPost c c.size = true →
          posted (.vmeInDataStrobe c.wphase data) data) ∧
        (c.stage = .heldQueue → s.canPost c c.size = true → posted .vmeInQueueSpace c.wdata)) ∧
      (c.stage ≠ .heldQueue ∨ s.canPost c c.size = false → exec .vmeInQueueSpace s = .next s) ∧
      (c.stage = .heldIssue ∨ c.stage = .heldRing → c.rora = false → c.write = false → c.wphase = false → c.strobed = false →
        c.ahead.length < c.size → c.aheadEnd = none → ∀ w data, exec (.vmeInDataStrobe w data) s = cycle { c with strobed := true }) ∧
      (c.stage ≠ .heldIssue → c.stage ≠ .heldRing → exec .vmeInSplitIssue s = .next s) ∧
      (∀ op addr len bs, c.stage = .heldIssue → s.nextRequest c = some (op, addr, len, bs) → s.matchSlot c op addr len bs = none →
        (s.vin.ipwq ≠ [] ∨ (∀ i, i < 8 → (s.slotAt i).isSome = true) → exec .vmeInSplitIssue s = .next s) ∧
        (∀ i, s.vin.ipwq = [] → s.vin.slots.length = 8 → (List.range 8).find? (fun i => (s.slotAt i).isNone) = some i → ∃ t,
          exec .vmeInSplitIssue s = .next t ∧ t.vin.cyc = some { c with stage := .heldRing, slots := c.slots ++ [i] } ∧
          t.slotAt i = some ⟨c.lensNo, c.lens.space, c.am, c.xam, decide (op = 0x02 ∨ op = 0x11), c.rmw, c.block, addr, len, c.fab addr, bs,
            true, false, .issued⟩ ∧ (∀ j, j ≠ i → t.slotAt j = s.slotAt j) ∧ s.Only t [.regs, .flt, .vin, .drv, .ord, .fold, .stat, .freeCtr])) ∧
      (∀ i r st data, c.slots = [i] → s.slotAt i = some r → r.held = true → r.st = .parked st data → st = St.OK ∨ st = St.LATE →
        c.rmw = false → c.block = false → c.gather = [] → c.wphase = false → c.taken = [] →
        let ended := fun (bs : List Byte) => ∃ t y, exec (.vmeInRingResult i) s = .next t ∧ t.out = .vmeDtack bs :: s.out ∧
          t.vin = { s.vin with slots := setAt s.vin.slots i none, cyc := some y } ∧ y.stage = .ended ∧ y.slots = [] ∧
          t.reg K.VME_CNT_IN_CYCLES = BitVec.ofNat 32 (satAdd 32 (s.reg K.VME_CNT_IN_CYCLES).toNat 1) ∧
          s.Only t [.regs, .vin, .stat, .out] ∧ s.RegsBut t [K.VME_CNT_IN_CYCLES]
        (c.write = true → ended []) ∧
        (c.write = false → c.strobed = true → c.ahead = [] → data.length = c.size → ended (c.carry c.cur data))))

/-- How held cycles and their results end (R93, R94, R96, R97, R101, R113): the hold timer and a local owner's wait turn the
master away, an abandoned cycle leaves its requests running, a parked result is discarded, and a posted write that fails is lost with a
fault. -/
def Obligations.HeldCyclesAndPostedWritesEnd : Prop :=
  ∀ s : State, s.up .edge = true →
    let counted := fun (t : State) (k n : Nat) => t.reg k = BitVec.ofNat 32 (satAdd 32 (s.reg k).toNat n)
    (s.vin.cyc = none → exec .vmeHoldTo s = .next s ∧ exec .vmeInYield s = .next s ∧ exec .vmeIntrRoraWrite s = .next s ∧
      (∀ b, exec (.vmeInAbandon b) s = .next s)) ∧
    (∀ c, s.vin.cyc = some c →
      let ended := some { c with stage := .ended, slots := [], taken := [] }
      let landed := c.stage = .heldQueue ∧ s.canPost c c.size = true
      let quiet := ¬ landed ∧ ∀ i r, c.slots.head? = some i → s.slotAt i = some r → r.st = .issued
      let let_go := fun (t : State) => ∀ i r, i ∈ c.slots → s.slotAt i = some r → t.slotAt i = some { r with held := false }
      (landed → c.write = true → exec .vmeHoldTo s = exec .vmeInQueueSpace s ∧ exec .vmeInYield s = exec .vmeInQueueSpace s) ∧
      (quiet → c.held = true → c.strobed = true → ∃ t, exec .vmeHoldTo s = .next t ∧ t.vin.cyc = ended ∧ let_go t ∧ counted t K.VME_CNT_IN_HOLD_TO 1 ∧
        (∃ f ∈ t.flt.raised, f.code = Code.VME_HOLD_TO ∧ f.src = Src.vmeSlave) ∧
        t.out = (if c.lens.retryEn && !c.wphase then .vmeRetry (s.bit F.VME_ISLV_RTY_BERR) else .vmeBerr) :: s.out ∧
        counted t (if c.lens.retryEn && !c.wphase then K.VME_CNT_IN_RETRY else K.VME_CNT_IN_BERR) 1 ∧
        s.Only t [.regs, .flt, .vin, .ord, .stat, .out] ∧
        s.RegsBut t (K.VME_CNT_IN_HOLD_TO :: K.VME_CNT_IN_RETRY :: K.VME_CNT_IN_BERR :: capRegs 4)) ∧
      (quiet → c.held = false ∨ c.strobed = false → exec .vmeHoldTo s = .next s) ∧
      (quiet → c.held = true → c.lens.retryEn = true → c.wphase = false → s.vme.waiting ≠ [] → ∃ t, exec .vmeInYield s = .next t ∧
        t.vin.cyc = ended ∧ let_go t ∧ counted t K.VME_CNT_IN_RETRY 1 ∧ t.out = .vmeRetry (s.bit F.VME_ISLV_RTY_BERR) :: s.out ∧
        s.Only t [.regs, .vin, .stat, .out] ∧ s.RegsBut t [K.VME_CNT_IN_RETRY]) ∧
      (quiet → c.held = false ∨ c.lens.retryEn = false ∨ c.wphase = true ∨ s.vme.waiting = [] → exec .vmeInYield s = .next s) ∧
      (∀ b, c.engaged = true → c.between = false ∨ c.counted = true → c.gather = [] → ∃ t, exec (.vmeInAbandon b) s = .next t ∧
        t.vin.cyc = none ∧ let_go t ∧ (∃ f ∈ t.flt.raised, f.code = Code.VME_IN_ABANDON ∧ f.src = Src.vmeSlave) ∧
        s.Only t [.regs, .flt, .vin] ∧ s.RegsBut t (capRegs 4)) ∧
      (c.engaged = false → c.block = false → c.slots = [] → c.taken = [] → c.gather = [] →
        exec (.vmeInAbandon false) s = .next { s with vin := { s.vin with cyc := none } }) ∧
      (c.stage = .ended → exec (.vmeInAbandon true) s = .next s) ∧
      (c.rora = true → c.stage = .awaitData → s.vin.vectors.find? (·.taken) = none → ∃ t, exec .vmeIntrRoraWrite s = .next t ∧
        t.vin = { s.vin with cyc := some { c with stage := .ended } } ∧ t.out = .vmeDtack [] :: s.out ∧ counted t K.VME_CNT_IN_CYCLES 1 ∧
        s.Only t [.regs, .vin, .stat, .out] ∧ s.RegsBut t [K.VME_CNT_IN_CYCLES]) ∧
      (c.rora = false ∨ c.stage ≠ .awaitData → exec .vmeIntrRoraWrite s = .next s)) ∧
    (∀ i, s.slotAt i = none ∨ (∃ r, s.slotAt i = some r ∧ (r.held = true ∨ r.st = .issued)) → exec (.vmeRslotDiscard i) s = .next s) ∧
    (∀ i r st data, s.slotAt i = some r → r.held = false → r.st = .parked st data → ∃ t, exec (.vmeRslotDiscard i) s = .next t ∧
      t.vin = { s.vin with slots := setAt s.vin.slots i none } ∧ counted t K.VME_CNT_RSLOT_DISCARD 1 ∧
      t.flt = (s.raise Code.VME_RSLOT_DISCARD Src.vmeSlave [r.lensNo, r.addr % 2 ^ 32, b2n r.write, st]).flt ∧
      s.Only t [.regs, .flt, .vin, .stat] ∧ s.RegsBut t [K.VME_CNT_RSLOT_DISCARD]) ∧
    (s.vin.ipwq = [] ∨ (∃ e rest, s.vin.ipwq = e :: rest ∧ e.result = none) → exec .vmeInPostedDone s = .next s) ∧
    (∀ e rest st n, s.vin.ipwq = e :: rest → e.result = some (st, n) → ∃ t, exec .vmeInPostedDone s = .next t ∧
      t.vin = { s.vin with ipwq := rest } ∧ t.rd F.VME_IPWQ_DEPTH = rest.length % 2 ^ (F.VME_IPWQ_DEPTH.hi - F.VME_IPWQ_DEPTH.lo + 1) ∧
      (st = St.OK → t.flt = s.flt) ∧
      (st ≠ St.OK → counted t K.VME_CNT_IN_LOST_BYTES (e.data.length - n) ∧ t.flt = (s.raise Code.VME_IN_POSTED_LOST Src.vmeSlave
        [e.lensNo, e.vaddr % 2 ^ 32, st, e.data.length - n]).flt) ∧
      s.Only t [.regs, .flt, .vin, .stat] ∧ s.RegsBut t [F.VME_IPWQ_DEPTH.key, K.VME_CNT_IN_LOST_BYTES])

/-- The interrupt handler asks for the bus when a level is pending, and re-arms a level after its acknowledge (R104, R105); the
interrupter answers acknowledge cycles with its vectors, asserts its line again, and withdraws one that nobody acknowledges (R110 to
R114). -/
def Obligations.VmeInterruptsAreHandledAndRaised : Prop :=
  ∀ s : State, s.up .edge = true →
    (∀ n on, ¬ (1 ≤ n ∧ n ≤ 7) → exec (.vmeIrqIn n on) s = .next s ∧ exec (.vmeRoakRearm n) s = .next s ∧ exec (.vmeRoraRearm n) s = .next s) ∧
    (∀ n on, 1 ≤ n → n ≤ 7 →
      let u := { s with vin := { s.vin with levels := setAt s.vin.levels n { s.ihAt n with asserted := on } } }
      (u.ihPending = none → s.vme.waiting.contains .ih = false → exec (.vmeIrqIn n on) s = .next u) ∧
      (∀ m, u.ihPending = some m → s.bit F.VME_CTL_MASTER_EN = true → s.drives = true → s.vmeSafe = false → s.vme.owner = none →
        s.vme.waiting = [] → s.vme.bbsy = false → s.vme.br = false → s.onlyQueue = false → s.bit F.VME_CTL_FAIR = false →
        exec (.vmeIrqIn n on) s = .next { u with vme := { s.vme with
          iackLevel := some m, waiting := [.ih], askedAt := tput (fun _ => 0) s.vme.askedAt 65 s.ticks, br := true, fairWait := false } }) ∧
      (∀ m, u.ihPending = some m → s.bit F.VME_CTL_MASTER_EN = false → s.vin.masterOffRaised = false →
        s.vme.waiting.contains .ih = false →
        exec (.vmeIrqIn n on) s = .next { u with
          vin := { u.vin with masterOffRaised := true }
          flt := (s.raise Code.VME_MASTER_OFF Src.vmeIh []).flt })) ∧
    (∀ n, 1 ≤ n → n ≤ 7 →
      let l := s.ihAt n
      let rora := (s.rd F.VME_IH_CTL_RORA).testBit (n - 1)
      let rearms := fun (i : Instr) (l : IhLevel) =>
        let u := { s with vin := { s.vin with levels := setAt s.vin.levels n { l with inService := false, rearmReady := false } } }
        let w := { s with vin := { s.vin with levels := setAt s.vin.levels n { l with rearmReady := true } } }
        (l.msgOpen = true → s.vin.levels.length = 8 → exec i s = .next w) ∧
        (l.msgOpen = false → s.vin.levels.length = 8 → u.ihPending = none → s.vme.waiting.contains .ih = false → exec i s = .next u)
      (l.inService = true → rora = false → rearms (.vmeRoakRearm n) l) ∧
      (l.inService = true → rora = true → rearms (.vmeRoraRearm n) { l with asserted := false }) ∧
      (l.inService = false ∨ rora = true → exec (.vmeRoakRearm n) s = .next s) ∧
      (l.inService = false ∨ rora = false → exec (.vmeRoraRearm n) s = .next s)) ∧
    (∀ n w, s.vin.irqOut = false ∨ n ≠ s.rd F.VME_INTR_LEVEL ∨ s.intrOff = true ∨ s.vin.vectors = [] →
      exec (.interrupterIack n w) s = .next { s with out := .vmeIackOut :: s.out }) ∧
    (∀ n w v rest, s.vin.irqOut = true → n = s.rd F.VME_INTR_LEVEL → s.intrOff = false → s.vin.vectors = v :: rest → v.taken = false →
      let answer := Out.vmeDtack (beBytes w (v.vector.toNat % 2 ^ (8 * w)))
      let counted := fun (t : State) => t.reg K.VME_CNT_INTR_TAKEN = BitVec.ofNat 32 (satAdd 32 (s.reg K.VME_CNT_INTR_TAKEN).toNat 1)
      (s.bit F.VME_INTR_RORA = true → s.mirrors 3 = false → ∃ t, exec (.interrupterIack n w) s = .next t ∧ t.out = answer :: s.out ∧
        t.vin = { s.vin with vectors := (v :: rest).map (fun x => if x = v then { x with taken := true } else x) } ∧ counted t ∧
        s.Only t [.regs, .vin, .stat, .out] ∧ s.RegsBut t [K.VME_CNT_INTR_TAKEN, F.VME_INTR_DEPTH.key]) ∧
      (∀ k, s.bit F.VME_INTR_RORA = false → s.mirrors 3 = false → v.task = some k → v.msg = none → s.vin.vectorWait = [] → ∃ t,
        exec (.interrupterIack n w) s = .next t ∧ t.out = answer :: s.out ∧ t.vin = { s.vin with vectors := rest, irqOut := false, irqGap := true } ∧
        t.drv.results = s.drv.results ++ [(k, ⟨St.OK, 0, leBytes 8 0⟩)] ∧ counted t ∧ s.Only t [.regs, .vin, .drv, .stat, .out] ∧
        s.RegsBut t [K.VME_CNT_INTR_TAKEN, F.VME_INTR_DEPTH.key])) ∧
    (s.vin.irqGap = true → exec .intrReassert s = .next { s with vin := { s.vin with
      irqGap := false, irqOut := !s.intrOff && !s.vin.vectors.isEmpty } }) ∧
    (s.vin.irqGap = false → exec .intrReassert s = .next s) ∧
    (s.vin.vectors = [] → exec .vmeIrqNoack s = .next s) ∧
    (∀ v rest k, s.vin.vectors = v :: rest → v.task = some k → v.msg = none → s.vin.vectorWait = [] → s.mirrors 3 = false → ∃ t,
      exec .vmeIrqNoack s = .next t ∧ t.vin = { s.vin with vectors := rest, irqOut := s.vin.irqOut && !rest.isEmpty } ∧
      t.flt = (s.raise Code.VME_IRQ_NOACK Src.vmeIntr []).flt ∧
      t.drv.results = s.drv.results ++ [(k, ⟨St.IRQ_TIMEOUT, 0, leBytes 8 0⟩)] ∧ s.Only t [.regs, .flt, .vin, .drv, .ord] ∧
      s.RegsBut t [F.VME_INTR_DEPTH.key])

/-- The oldest request at the drop point becomes a task in the fold R123 chooses, or is refused at SAFE (R31, R122, R123, R253, R365);
so does a carried descriptor, and work that waited for a limit (R124, R132). -/
def Obligations.RequestsBecomeTasks : Prop :=
  ∀ s : State, s.up .core = true → (∀ d, (s.drover d).turn = none) → s.vme.owner = none → s.vme.bbsy = false →
    (∀ e ∈ s.fold.inject, 64 ≤ e.1) → (∀ d, s.slotsOf d F.FLD_NS_WM_EN 3 = []) →
    let placed := fun (i : Instr) (u : State) (k : Task) => ∀ d, u.choose k = some d → ∃ t, exec i s = .next t ∧
      (t.drover d).fold = insertAge (s.drover d).fold
        { s.rebank k with age := s.drv.nextAge, home := d, dcell := if k.dataCells = 0 then 0 else (s.free 17).1.toNat } ∧
      (t.drover d).exec = (s.drover d).exec ∧ (∀ e, e ≠ d → t.drover e = s.drover e) ∧ t.drv.nextAge = s.drv.nextAge + 1 ∧
      t.fold.free = s.fold.free - k.cells ∧ (t.foldOf d).held = (s.foldOf d).held + k.cells ∧ t.drv.waiting = [] ∧
      t.net = u.net ∧ s.Only t [.regs, .flt, .drv, .fold, .net, .stat, .freeCtr]
    (∀ q, 3 ≤ q ∨ s.popTaken q (isRequest false) = none → exec (.ringRequestDrop q) s = .next s) ∧
    (∀ q, 3 ≤ q ∨ s.popTaken q (isRequest true) = none → exec (.descFwdRx q) s = .next s) ∧
    (∀ q p u, q < 3 → s.drv.waiting = [] → s.popTaken q (isRequest false) = some (p, u) → u.safeRefuses p = false → p.ord = false →
      p.op ≠ 0x11 → u.gateOf (u.ringTask q p) = none → placed (.ringRequestDrop q) u (u.ringTask q p)) ∧
    (∀ q p u, q < 3 → s.drv.waiting = [] → s.popTaken q (isRequest true) = some (p, u) → u.safeRefuses p = false → p.ord = false →
      (descWord p.payload 0).testBit 53 = false → p.payload ≠ [] → placed (.descFwdRx q) u (u.carriedTask q p)) ∧
    (∀ q p u, q < 3 → s.popTaken q (isRequest false) = some (p, u) → u.safeRefuses p = true → ∃ t,
      exec (.ringRequestDrop q) s = .next t ∧ (∃ x ∈ t.flt.raised, x.code = Code.ADR_SAFE ∧ x.src = Src.packet) ∧
      t.drv.drv = s.drv.drv ∧ t.fold = s.fold ∧ s.Only t [.regs, .flt, .drv, .ord, .net, .stat, .out]) ∧
    (∀ q p u, q < 3 → s.popTaken q (isRequest true) = some (p, u) → u.safeRefuses p = true → ∃ t,
      exec (.descFwdRx q) s = .next t ∧ (∃ x ∈ t.flt.raised, x.code = Code.ADR_SAFE ∧ x.src = Src.packet) ∧
      t.drv.drv = s.drv.drv ∧ t.fold = s.fold ∧ s.Only t [.regs, .flt, .drv, .ord, .net, .stat, .out]) ∧
    (s.drv.waiting = [] → exec .stileWaitClear s = .next s) ∧
    (∀ w, s.drv.waiting = [w] → w.ord = false → w.ph = false → w.op ≠ 0x11 → s.gateOf w = none →
      placed .stileWaitClear { s with drv := { s.drv with waiting := [] } } w)

/-- A drover takes the oldest task of its fold (R127, R133, R121): it goes to its perform gate and through it when open; a record
the fold manager never writes is reported and its cells go back (R118); a task past its gate is left to its own command. -/
def Obligations.DroversRunTheirOldestTask : Prop :=
  ∀ (s : State) (d : Nat), s.up .core = true → s.slotsOf d F.FLD_NS_WM_EN 3 = [] →
    (s.flt.badWords.all (fun w => !(w.1 == 3 && w.2.1 == d))) = true → (∀ e ∈ s.fold.inject, e.1 ≠ d) →
    let v := s.drover d
    let took := fun (k : Task) (rest : List Task) (t : State) => (t.drover d).fold = rest ∧
      (t.drover d).lastReq = some (k.srcNode, k.agent) ∧ (t.drover d).asleep = false ∧ (∀ e, e ≠ d → t.drover e = s.drover e)
    let freed := fun (n : Nat) (t : State) => t.fold.free = s.fold.free + n ∧ (t.foldOf d).held = (s.foldOf d).held - n
    let plain := fun (k : Task) => k.orig = 0 ∧ k.dir = false ∧ k.refused = false ∧
      ((k.desc ≠ [] ∧ descBad k.desc = false) ∨ (k.desc = [] ∧ k.op ≠ 0x01 ∧ k.op ≠ 0x02 ∧ k.op ≠ 0x03))
    (v.st ≠ .running → exec (.taskRun d) s = .next s) ∧
    (v.exec = none → v.asleep = true ∨ s.drvEn d = false ∨ v.fold = [] → exec (.taskRun d) s = .next s) ∧
    (∀ k rest, v.st = .running → v.exec = none → v.asleep = false → s.drvEn d = true → v.fold = k :: rest →
      (k.bad = false → k.ord = false → plain k → ∃ t, exec (.taskRun d) s = .next t ∧ took k rest t ∧ freed 1 t ∧
        t.execOf d = some { Exec.start k with phase := .ready } ∧ s.Only t [.regs, .drv, .fold]) ∧
      (k.bad = false → s.gateOpen k = false → ∃ t, exec (.taskRun d) s = .next t ∧ took k rest t ∧ freed 1 t ∧
        t.execOf d = some (Exec.start k) ∧ s.Only t [.regs, .drv, .fold]) ∧
      (k.bad = true → s.vme.owner ≠ some (.drover d) → ∃ t, exec (.taskRun d) s = .next t ∧ took k rest t ∧
        freed k.cells t ∧ t.execOf d = none ∧
        (∃ x, t.flt.raised = s.flt.raised ++ [x] ∧ x.code = Code.DRV_TASK_BAD ∧ x.src = Src.drover d) ∧
        s.Only t [.regs, .flt, .drv, .fold])) ∧
    (∀ x, v.st = .running → v.exec = some x →
      (x.phase = .gate → s.gateOpen x.task = false → exec (.taskRun d) s = .next s) ∧
      (x.phase = .gate → x.task.ord = false → plain x.task → exec (.taskRun d) s = .next (s.setExec d { x with phase := .ready })) ∧
      (x.phase ≠ .gate → x.phase ≠ .ordWait → exec (.taskRun d) s = .next s))

/-- An idle drover steals a task by R128 and R129, which counts at both and is in execution at the thief, or goes to sleep
(R127 to R130); a sleeping one wakes, at most WAKE_N of them in one CORE cycle (R421). -/
def Obligations.IdleDroversStealOrSleep : Prop :=
  ∀ (s : State) (d : Nat), s.up .core = true →
    let v := s.drover d
    let idle := v.st = .running ∧ v.exec = none ∧ v.fold = [] ∧ s.drvEn d = true ∧ v.asleep = false
    (¬ idle → exec (.droverSteal d) s = .next s) ∧
    (idle → s.bit F.DRV_CTL_STEAL_EN = false → exec (.droverSteal d) s = .next (s.setDrover d { v with asleep := true })) ∧
    (idle → s.bit F.DRV_CTL_STEAL_EN = true → s.victimIn d (d / 8) v.lastLocal (s.rd F.DRV_STEAL_LOCAL_MIN) = none →
      s.bit F.DRV_STEAL_CROSS_EN = false → exec (.droverSteal d) s = .next (s.setDrover d { v with asleep := true })) ∧
    (∀ w k, idle → s.bit F.DRV_CTL_STEAL_EN = true → s.victimIn d (d / 8) v.lastLocal (s.rd F.DRV_STEAL_LOCAL_MIN) = some w →
      s.eligible d w = [k] → 1 ≤ s.rd F.DRV_STEAL_BATCH → s.slotsOf d F.FLD_NS_WM_EN 3 = [] → s.slotsOf w F.FLD_NS_WM_EN 3 = [] →
      (s.flt.badWords.all (fun x => !(x.1 == 3 && x.2.1 == d))) = true → (∀ e ∈ s.fold.inject, e.1 ≠ w) →
      let k' := k.stolen
      k'.bad = false → k.ord = false → k.orig = 0 → k.dir = false → k.refused = false → k.desc = [] → k.op = 0x13 ∨ k.op = 0x14 →
      ∃ t, exec (.droverSteal d) s = .next t ∧ t.execOf d = some { Exec.start k' with phase := .ready } ∧ (t.drover d).fold = [] ∧
        (t.drover w).fold = (s.drover w).fold.erase k ∧ (t.drover d).lastLocal = w % 8 ∧ t.fold.free = s.fold.free + 1 ∧
        t.reg (K.DRV_D_STOLE d) = BitVec.ofNat 32 (satAdd 32 (s.reg (K.DRV_D_STOLE d)).toNat 1) ∧
        t.reg (K.DRV_D_LOSS w) = BitVec.ofNat 32 (satAdd 32 (s.reg (K.DRV_D_LOSS w)).toNat 1) ∧
        t.reg (K.DRV_BLK_LOCAL (d / 8)) = BitVec.ofNat 32 (satAdd 32 (s.reg (K.DRV_BLK_LOCAL (d / 8))).toNat 1) ∧
        s.Only t [.regs, .drv, .fold, .stat]) ∧
    (let woken := if s.drv.wakeCyc = s.cyc then s.drv.woken else 0
     (v.asleep = true → s.drv.wakeWait = [] → woken < s.rd F.CLK_WAKE_WAKE_N → exec (.droverSleepEnd d) s = .next
       ({ s with drv := { s.drv with wakeCyc := s.cyc, woken := woken + 1 } }.setDrover d { v with asleep := false })) ∧
     (v.asleep = true → s.drv.wakeWait ≠ [] ∨ s.rd F.CLK_WAKE_WAKE_N ≤ woken → exec (.droverSleepEnd d) s = .next
       { s with drv := { s.drv with wakeWait := insertWake (d, false) s.drv.wakeWait } })) ∧
    (v.asleep = false → exec (.droverSleepEnd d) s = .next s)

/-- A result passes its release gate (R135, R136): the drover is free, the task's cells go back (R118, R185) and it has run one task more, an unordered result, or one
whose turn it is, leaves as its response, and one that is early is parked; a lost sequence is skipped when its time has passed. -/
def Obligations.ResultsPassTheReleaseGate : Prop :=
  ∀ (s : State) (d : Nat), s.up .core = true → (∀ e x, s.execOf e = some x → x.phase ≠ .gate) → s.net.taken.length = 4 → s.vme.owner ≠ some (.drover d) →
    let turned := fun (k : Task) => k.orig = 0 ∧ k.dir = false ∧ k.link = 1 ∧ k.desc = []
    let answer := fun (k : Task) (r : TaskResult) => (⟨mkW0 s.nodeId s.nodeId k.tag k.pclass Kind.RESPONSE k.ord 0 k.agent k.op k.lenm1,
      mkRspW1 (k.status r.status) r.bytesDone,
      if performed (k.status r.status) = true ∧ (k.op = 0x01 ∨ k.op = 0x10 ∨ k.op = 0x12) then r.payload else []⟩ : Packet)
    let freed := fun (x : Exec) (t : State) => t.execOf d = none ∧ t.fold.free = s.fold.free + x.cells ∧
      t.reg (K.DRV_D_RUN d) = BitVec.ofNat 32 (satAdd 32 (s.reg (K.DRV_D_RUN d)).toNat 1)
    (∀ x r, d < 64 → s.execOf d = some x → x.result = some r →
      (s.resultWaits x.task r = true → exec (.stileResult d) s = .next s) ∧
      (s.resultWaits x.task r = false → x.task.ord = false → turned x.task → ∃ t, exec (.stileResult d) s = .next t ∧ freed x t ∧
        t.net.taken = setAt s.net.taken 2 (getAt [] s.net.taken 2 ++ [answer x.task r]) ∧ s.Only t [.regs, .drv, .fold, .net, .stat]) ∧
      (s.resultWaits x.task r = false → x.task.ord = true → x.task.entered = true →
        ((s.stileOf x.task.stile).inflight.any (fun e => e.seq == x.task.seq)) = true →
        let y := s.stileOf x.task.stile
        (x.task.seq ≠ y.nextRelease → ∃ t, exec (.stileResult d) s = .next t ∧ freed x t ∧
          t.stileOf x.task.stile = { y with parked := y.parked ++ [(x.task.seq, x.task, r)] } ∧ s.Only t [.regs, .drv, .fold, .stat]) ∧
        (x.task.seq = y.nextRelease → y.parked = [] → turned x.task → ∃ t, exec (.stileResult d) s = .next t ∧ freed x t ∧
          (t.stileOf x.task.stile).nextRelease = (x.task.seq + 1) % 65536 ∧
          (t.stileOf x.task.stile).inflight = y.inflight.filter (fun e => e.seq != x.task.seq) ∧
          t.net.taken = setAt s.net.taken 2 (getAt [] s.net.taken 2 ++ [answer x.task r]) ∧ s.Only t [.regs, .drv, .fold, .net, .stat]))) ∧
    (∀ k r rest, 64 ≤ d → s.drv.results = (k, r) :: rest → s.resultWaits k r = false → k.ord = false → turned k → ∃ t,
      exec (.stileResult d) s = .next t ∧ t.drv = { s.drv with results := rest } ∧
      t.net.taken = setAt s.net.taken 2 (getAt [] s.net.taken 2 ++ [answer k r]) ∧ s.Only t [.drv, .net]) ∧
    (∀ n, s.seqLost n = false → exec (.drvStileSkip n) s = .next s) ∧
    (∀ n, s.seqLost n = true →
      let x := s.stileOf n
      let q := (x.nextRelease + 1) % 65536
      (x.parked.all (fun p => p.1 != q)) = true → ∃ t, exec (.drvStileSkip n) s = .next t ∧ (t.stileOf n).nextRelease = q ∧
        (t.stileOf n).parked = x.parked ∧ (t.stileOf n).inflight = x.inflight.filter (fun e => e.seq != x.nextRelease) ∧
        t.reg K.DRV_CNT_STILE_SKIP = BitVec.ofNat 32 (satAdd 32 (s.reg K.DRV_CNT_STILE_SKIP).toNat 1) ∧
        t.flt = (s.raise Code.DRV_STILE_SKIP Src.stile [n, x.nextRelease]).flt ∧ s.Only t [.regs, .flt, .drv, .stat])

/-- A drover is revoked by its watchdog, a memory error or a trap (R137 to R139): it reloads, or is removed once it has been revoked
REVOKE_MAX times (R141), and its tasks lose their pins; a reload copies the golden code and brings the drover
back, WAKE_N in one CORE cycle (R421), or removes it (R140).
DRV_EN is written whole: the drovers it names are enabled, and one that was removed reloads (R124, R141); HST_WAKE brings the
poll interval back to its least (R205, R470). -/
def Obligations.DroversAreEnabledRevokedAndReloaded : Prop :=
  (∀ (s : State) (d : Nat), s.up .core = true → d < 64 →
     let v := s.drover d
     let n := min 255 (v.revokes + 1)
     let revoked := fun (i : Instr) (code : Nat) => ∃ t, exec i s = .next t ∧ (t.drover d).revokes = n ∧
       (t.drover d).st = (if s.rd F.DRV_CTL_REVOKE_MAX ≤ n then .removed else .reloading) ∧ (t.drover d).asleep = false ∧
       (s.rd F.DRV_CTL_REVOKE_MAX ≤ n → t.drvEn d = false ∧ ∃ x ∈ t.flt.raised, x.code = Code.DRV_REMOVED ∧ x.src = Src.drover d) ∧
       (∃ x ∈ t.flt.raised, x.code = code ∧ x.src = Src.drover d) ∧
       (v.exec = none → v.turn = none → s.vme.owner = none → s.vme.waiting = [] →
         (t.drover d).fold = v.fold.map (fun k => { k with pinwhy := 0 })) ∧
       s.Only t [.regs, .flt, .vme, .drv, .ord, .fold, .net, .stat, .port, .host, .out, .freeCtr]
     (v.st = .running → s.wdogCounts d = true → revoked (.drvWdog d) Code.DRV_WDOG) ∧
     (v.st = .running → revoked (.drvMemUe d) Code.DRV_MEM_UE ∧ revoked (.drvTrap d) Code.DRV_TRAP) ∧
     (v.st ≠ .running → exec (.drvWdog d) s = .next s ∧ exec (.drvMemUe d) s = .next s ∧ exec (.drvTrap d) s = .next s) ∧
     (s.wdogCounts d = false → exec (.drvWdog d) s = .next s) ∧
     (s.reloadRuns d = false → ∀ ok, exec (.drvReloadDone d ok) s = .next s) ∧
     (s.reloadRuns d = true →
       let good := (crc32c s.boot.golden).toNat == s.boot.goldenCrc
       let woken := if s.drv.wakeCyc = s.cyc then s.drv.woken else 0
       (good = true → s.drv.waiting = [] → s.drv.wakeWait = [] → woken < s.rd F.CLK_WAKE_WAKE_N → ∃ t,
         exec (.drvReloadDone d true) s = .next t ∧ t.drover d = { v with st := .running, code := s.boot.golden, data := [] } ∧
         (∀ e, e ≠ d → t.drover e = s.drover e) ∧ s.Only t [.flt, .drv]) ∧
       (good = true → s.drv.wakeWait ≠ [] ∨ s.rd F.CLK_WAKE_WAKE_N ≤ woken → ∃ t, exec (.drvReloadDone d true) s = .next t ∧
         t.drover d = { v with code := s.boot.golden, data := [] } ∧ t.drv.wakeWait = insertWake (d, true) s.drv.wakeWait ∧
         (∀ e, e ≠ d → t.drover e = s.drover e) ∧ s.Only t [.drv]) ∧
       (∀ ok, ok = false ∨ good = false → ∃ t, exec (.drvReloadDone d ok) s = .next t ∧ (t.drover d).st = .removed ∧ t.drvEn d = false ∧
         (∃ x ∈ t.flt.raised, x.code = Code.DRV_RELOAD_FAIL ∧ x.src = Src.drover d) ∧ s.Only t [.regs, .flt, .drv] ∧
         s.RegsBut t [K.DRV_EN_LO, K.DRV_EN_HI]))) ∧
  (∀ s : State, s.up .mgmt = true →
     (∀ value node agent, value < 2 ^ 64 →
       someOrdinary value s.rsv64 = true → someOrdinary value s.rsvShadow = true → ∃ t, exec (.drvEnWrite value node agent) s = .next t ∧ t.en64 = value ∧
         (∀ d, d < 64 → value.testBit d = true → s.drvEn d = false → (s.drover d).st = .removed → (t.drover d).st = .reloading) ∧
         s.Only t [.regs, .flt, .drv, .ord, .fold, .cad, .stat, .freeCtr]) ∧
     (s.bit F.HST_CTL_FETCH_EN = true → ∃ t, exec .hstWake s = .next t ∧ t.rd F.HST_STAT_INTERVAL = s.rd F.HST_POLL_MIN_10NS ∧
       s.Only t [.regs] ∧ s.RegsBut t [K.HST_STAT]) ∧
     (s.bit F.HST_CTL_FETCH_EN = false → exec .hstWake s = .next s))

/-- One transfer at a time is granted at a crossbar destination (R12 to R17, R21): freed buffers return, a block's transfer whose class
holds credits takes them, CTRL goes before the rest, and an injected parity error is found there (R379). -/
def Obligations.CrossbarGrantsByClassAndCredit : Prop :=
  ∀ (s : State) (dest : Nat) (freed : List Nat) (waiting : List (Nat × Nat × Nat × Nat)), s.up .core = true → dest < 4 →
    s.xbar.used.length = 4 →
    let f := s.xbarFree dest freed
    let all := xbarWaiting waiting
    let ready := f.xbarReady dest all
    (∀ c, c < 3 → f.xbarUsed dest c = s.xbarUsed dest c - getAt 0 freed c) ∧
    (f.xbarPick all ready dest = none → exec (.crossbarTransfer dest freed waiting) s = .next f) ∧
    (ready = [] → f.xbarPick all ready dest = none) ∧
    (∀ region slot cell cls beats, (slotBlock region slot).isSome = true → cell < 8 → cls < 3 →
      f.xbarUsed dest cls + beats ≤ s.xbarLimit dest cls → cls = 0 ∨ f.xbarUsed dest 1 + f.xbarUsed dest 2 + beats ≤ 27 →
      s.flt.inject = none → ∃ t,
      exec (.crossbarTransfer dest freed [(16 * region + slot, cell, cls, beats)]) s = .next t ∧
      t.xbarUsed dest cls = f.xbarUsed dest cls + beats ∧ (∀ c, c < 3 → c ≠ cls → t.xbarUsed dest c = f.xbarUsed dest c) ∧
      (∀ d c, d < 4 → d ≠ dest → t.xbarUsed d c = s.xbarUsed d c) ∧
      tget (fun _ => 0) t.xbar.nextCell (region * 16 + slot) = (cell + 1) % 8 ∧ s.Only t [.xbar]) ∧
    (∀ r ∈ ready, r.cls = 0 → ∃ t, exec (.crossbarTransfer dest freed waiting) s = .next t ∧
      t.xbarUsed dest 1 = f.xbarUsed dest 1 ∧ t.xbarUsed dest 2 = f.xbarUsed dest 2 ∧ t.xbar.lastBulk = s.xbar.lastBulk ∧
      s.Only t [.regs, .flt, .xbar]) ∧
    (∀ i dbl, f.xbarPick all ready dest ≠ none → s.flt.inject = some (6, i, dbl) → i = dest → ∃ t,
      exec (.crossbarTransfer dest freed waiting) s = .next t ∧ t.flt.inject = none ∧ t.bit F.FLT_INJ_PENDING = false ∧
      t.flt.raised = (s.raise Code.CHIP_XBAR_PARITY (Src.xbar dest) []).flt.raised ∧ s.Only t [.regs, .flt, .xbar] ∧
      s.RegsBut t [K.FLT_INJ])

/-- The patrol scrubber reads its next word and treats what it finds, and an injection is armed (R226, R228); the combining buffer
flushes on its timer and when it is switched off, and takes up its answers (R156, R158); a reservation ends on its timer (R163). -/
def Obligations.DdrScrubsAndTheBufferFlushes : Prop :=
  ∀ s : State,
    (s.up .host = true →
      let on := s.bit F.DDR_CTL_SCRUB_EN = true ∧ s.bit F.DDR_STAT_READY = true ∧ 0 < s.ddrSize
      let w := s.ddr.scrubAt
      let next := if 8 * (w + 1) < s.ddrSize then w + 1 else 0
      let found := s.ddr.bad.filter (fun b => decide (w ≤ b.1 ∧ b.1 ≤ w))
      (¬ on → exec .ddrScrub s = .next s) ∧
      (on → found = [] → exec .ddrScrub s = .next { s with ddr := { s.ddr with scrubAt := next } }) ∧
      (on → found = [(w, false)] → ∃ t, exec .ddrScrub s = .next t ∧ t.ddr = { s.ddr with
          bad := s.ddr.bad.filter (fun b => b.1 != w), scrubAt := next } ∧
        t.reg K.DDR_CNT_CE = BitVec.ofNat 32 (satAdd 32 (s.reg K.DDR_CNT_CE).toNat 1) ∧
        t.flt = (s.raise Code.DDR_CE Src.ddr []).flt ∧ s.Only t [.regs, .flt, .stat, .ddr] ∧ s.RegsBut t [K.DDR_CNT_CE]) ∧
      (on → found = [(w, true)] → ∃ t, exec .ddrScrub s = .next t ∧ t.ddr = { s.ddr with scrubAt := next } ∧
        t.reg K.DDR_CNT_UE = BitVec.ofNat 32 (satAdd 32 (s.reg K.DDR_CNT_UE).toNat 1) ∧
        t.rd F.DDR_UE_ADDR_LO_ADDR_LO = nbits (8 * w) 31 3 ∧ t.rd F.DDR_UE_ADDR_HI_ADDR_HI = nbits (8 * w) 33 32 ∧
        t.flt = (s.raise Code.DDR_UE Src.ddr []).flt ∧ s.Only t [.regs, .flt, .stat, .ddr] ∧
        s.RegsBut t [K.DDR_CNT_UE, K.DDR_UE_ADDR_LO, K.DDR_UE_ADDR_HI]) ∧
      (∀ v : Word, ∃ t, exec (.ddrInjArm v) s = .next t ∧ t.ddr = { s.ddr with inject := some (bitOf v 0) } ∧
        t.rd F.DDR_INJ_DOUBLE = bitsOf v 0 0 ∧ s.Only t [.regs, .ddr] ∧ s.RegsBut t [K.DDR_INJ])) ∧
    (s.up .core = true →
      (∀ base, ∃ t, exec (.wcTimeout base) s = .next t ∧ (∀ x ∈ t.ord.wc, x.base = base → x.flushing = true) ∧
        t.ord.claims = s.ord.claims ∧ s.Only t [.regs, .flt, .drv, .ord, .net, .stat, .out]) ∧
      (∀ base, s.ord.wc.all (fun l => l.base != base || l.flushing) = true → exec (.wcTimeout base) s = .next s) ∧
      (∃ t, exec .wcEnClear s = .next t ∧ t.bit F.CHIP_WC_CTL_EN = false ∧ (∀ x ∈ t.ord.wc, x.flushing = true) ∧
        s.Only t [.regs, .flt, .drv, .ord, .net, .stat, .out]) ∧
      (s.ord.wcDone = [] → exec .wcFlushDone s = .next s) ∧
      (∀ a n st done rest l, s.ord.wcDone = (a, n, st, done) :: rest →
        s.ord.wc.find? (fun x => x.flushing && x.writes.contains (a, n)) = some l →
        let left := l.writes.erase (a, n)
        let wc := if left = [] then s.ord.wc.erase l else s.ord.wc.map (fun x => if x = l then { l with writes := left } else x)
        ∃ t, exec .wcFlushDone s = .next t ∧ t.ord.wcDone = rest ∧ t.ord.wc = wc ∧
          (st = St.OK → t.flt = s.flt ∧ s.Only t [.regs, .ord] ∧ s.RegsBut t [K.CHIP_WC_STAT]) ∧
          (st ≠ St.OK → t.flt = (s.raise Code.WC_FLUSH_LOST Src.combining [l.last, (a + done) % 2 ^ 32, n - done, st]).flt ∧
            t.reg K.CHIP_CNT_WC_LOST_BYTES = BitVec.ofNat 32 (satAdd 32 (s.reg K.CHIP_CNT_WC_LOST_BYTES).toNat (n - done)) ∧
            s.Only t [.regs, .flt, .ord, .stat] ∧ s.RegsBut t [K.CHIP_WC_STAT, K.CHIP_CNT_WC_LOST_BYTES])) ∧
      (∀ node agent, ∃ t, exec (.claimTimeout node agent) s = .next t ∧
        t.ord = { s.ord with claims := s.ord.claims.filter (fun d => !(d.node == node && d.agent == agent)) } ∧
        t.rd F.CHIP_CLM_STAT_INUSE = t.ord.claims.length % 1024 ∧ s.Only t [.regs, .ord] ∧ s.RegsBut t [K.CHIP_CLM_STAT]))

/-- The lens cache is invalidated as a whole, when it is switched off, and by what other masters write, which costs reservations
too (R163, R169); the power-fail drain ends when nothing is left or, where its warning stands, its
time has passed (R174, R175). -/
def Obligations.LensCacheInvalidatesAndTheDrainEnds : Prop :=
  ∀ s : State,
    let wiped := fun (i : Instr) (ks : List Nat) => ∃ t, exec i s = .next t ∧ t.ord = { s.ord with lc := [] } ∧
      t.vme = { s.vme with jobs := t.vme.jobs } ∧ (∀ e ∈ t.vme.jobs, ∀ j, e.2 = some j → j.kind = .fill → j.spoiled = true) ∧
      t.reg K.CHIP_CNT_LC_INV_ALL = BitVec.ofNat 32 (satAdd 32 (s.reg K.CHIP_CNT_LC_INV_ALL).toNat 1) ∧
      s.Only t [.regs, .vme, .ord, .stat] ∧ s.RegsBut t (K.CHIP_CNT_LC_INV_ALL :: ks)
    (s.up .core = true → wiped .lcInvAll [] ∧ wiped .lcEnClear [K.CHIP_LC_CTL] ∧
      ∃ t, exec .lcEnClear s = .next t ∧ t.bit F.CHIP_LC_CTL_EN = false) ∧
    (s.up .edge = true →
      (∀ am xam addr len, wiped (.lcSnoopWrite am xam addr len true) []) ∧
      (∀ am xam addr len, snoopSpace am xam = none → wiped (.lcSnoopWrite am xam addr len false) []) ∧
      (∀ am xam addr len space, snoopSpace am xam = some space → 0 < len → ∃ t,
        exec (.lcSnoopWrite am xam addr len false) s = .next t ∧
        let a := spaceAddr space addr
        (∀ i, ∀ x ∈ t.lcSet i, x.space = space → rangesMeet x.addr 64 a len = false) ∧
        (∀ c ∈ t.ord.claims, c.space = space → a / 64 ≤ c.key → c.key ≤ (a + len - 1) / 64 → c.node = 0xFFFF) ∧
        (∀ c ∈ s.ord.claims, c.space ≠ space ∨ c.key < a / 64 ∨ (a + len - 1) / 64 < c.key → c ∈ t.ord.claims) ∧
        s.Only t [.regs, .vme, .ord, .stat] ∧ s.RegsBut t [K.CHIP_CNT_LC_SNOOP_INV, K.CHIP_CLM_STAT])) ∧
    (s.up .core = true →
      (s.ord.pfSince = none ∨ s.pfEmpty = false → exec .pfDrainEmpty s = .next s) ∧
      (s.ord.pfSince.isSome = true → s.pfEmpty = true → ∃ t, exec .pfDrainEmpty s = .next t ∧ t.ord.pfSince = none ∧
        t.rd F.CHIP_PF_STAT_STATE = (if s.ord.pfWithdrawn then 0 else s.rd F.CHIP_PF_STAT_STATE) ∧
        (s.rd F.REC_CFG_SIZE ≠ 0 → s.bit F.REC_STAT_READY = false → s.recd.queue.length < 64 →
          ∃ e, t.recd.queue = e :: s.recd.queue ∧ e.code = RecCode.PF_DRAIN) ∧
        s.Only t [.regs, .flt, .drv, .ord, .stat, .recd]) ∧
      (s.ord.pfSince = none ∨ s.ord.pfWithdrawn = true → exec .pfDrainDeadline s = .next s) ∧
      (s.ord.pfSince.isSome = true → s.ord.pfWithdrawn = false → ∃ t, exec .pfDrainDeadline s = .next t ∧ t.ord.pfSince = none ∧ t.ord.wc = [] ∧ t.vme.pwq = [] ∧
        t.vin.ipwq = s.vin.ipwq.filter (·.result.isSome) ∧
        t.rd F.CHIP_PF_STAT_STATE = 2 ∧
        t.reg K.CHIP_CNT_PF_LOST_BYTES = BitVec.ofNat 32 (satAdd 32 (s.reg K.CHIP_CNT_PF_LOST_BYTES).toNat
          (wcBytes s.ord.wc + s.vme.pwq.foldl (fun n e => n + (e.len - e.job.done)) 0 + ipwqBytes s.vin.ipwq)) ∧
        s.Only t [.regs, .flt, .vme, .vin, .drv, .ord, .net, .stat, .recd, .out]))

/-- A descriptor that moves bytes issues its first block as one request (R211): what it reads from ADDR or BUF, or the bytes it
writes itself; WRITE_NT goes into the combining buffer where that takes it (R155, R159), unless its
address is refused at the originator (R29, R37); LOG_READ reads the recorder window (R394). -/
def Obligations.MovesIssueTheirBlocks : Prop :=
  ∀ (s : State) (d : Nat), s.up .core = true →
    (s.execOf d = none → ∀ i, i ∈ [Instr.read d, .write d, .writeNt d, .copy d, .fill d, .logRead d, .send d, .fence d, .done d, .phaseWait d,
      .claim d, .commit d, .fetchAdd d, .swap d, .cmpSwap d, .recvPost d, .irqRaise d, .statusReg d, .statusNonce d, .configStage d,
      .configCommitNext d, .configCommitNamed d, .mirrorMark d, .logClearClear d, .monUnlock d, .logClearReset d, .doneTimeout d] →
      exec i s = .next s) ∧
    (∀ x, s.execOf d = some x → x.phase = .ready → x.task.dir = false → x.task.orig ≠ 2 → x.task.desc ≠ [] →
      let k := x.task
      let pl := s.planOf k
      let away := [Area.regs, .flt, .drv, .ord, .net, .stat, .out]
      let runs := fun (i : Instr) => s.executesAway k = false → x.subs = [] → x.toWrite = [] → x.err = none → x.next = 0 → 0 < pl.n →
        pl.cutAt % 256 + pl.n ≤ 256 →
        (∀ a, pl.src = some a →
          let r := s.taskIssue d k 0x01 a pl.n []
          r.waits = false → r.ended = none → r.st.execOf d = some x → ∃ t, exec i s = .next t ∧
          t.execOf d = some { x with phase := .ring, subs := [⟨0x01, a, 0, pl.n⟩], next := pl.n } ∧ t.net = r.st.net ∧
          t.ord = r.st.ord ∧ s.Only t away) ∧
        (pl.src = none →
          let y := { x with next := pl.n, toWrite := [(0, pl.n)] }
          let bs := madeBytes k 0 pl.n
          (∀ a, pl.merge = false → pl.dst = some a →
            let r := (s.setExec d y).taskIssue d k 0x02 a pl.n bs
            r.waits = false → r.ended = none → r.st.execOf d = some y → ∃ t, exec i s = .next t ∧
            t.execOf d = some { x with phase := .ring, subs := [⟨0x02, a, 0, pl.n⟩], next := pl.n } ∧ t.net = r.st.net ∧
            t.ord = r.st.ord ∧ s.Only t away) ∧
          (pl.merge = true →
            let m := State.mergeBytes 128 k.key (dAddr k.desc) bs (s.setExec d y)
            (originFault 0x03 (dAddr k.desc) pl.n = none → m.1 = pl.n → ∃ t z, exec i s = .next t ∧ t.execOf d = some z ∧
              z.phase = .ended ∧ z.result = some ⟨St.OK, pl.n, []⟩ ∧ t.ord = m.2.ord ∧ s.Only t away) ∧
            (∀ code, originFault 0x03 (dAddr k.desc) pl.n = some code → x.done = 0 → ∃ t z, exec i s = .next t ∧ t.execOf d = some z ∧
              z.phase = .ended ∧ z.result = some ⟨St.ADDR_ERROR, 0, []⟩ ∧ t.ord.wc = s.ord.wc ∧ s.Only t away)))
      (dOp k.desc = 0x01 → dSub k.desc = 0 → runs (.read d)) ∧ (dOp k.desc = 0x02 → dSub k.desc = 0 → runs (.write d)) ∧
      (dOp k.desc = 0x03 → dSub k.desc = 0 → runs (.writeNt d)) ∧ (dOp k.desc = 0x04 → dSub k.desc = 0 → runs (.copy d)) ∧
      (dOp k.desc = 0x05 → dSub k.desc = 0 → runs (.fill d)) ∧
      (dOp k.desc = 0x31 → dSub k.desc = 0 → regionOf (faOffset (dAddr k.desc)) = .recorder → dAddr k.desc % 32 = 0 → runs (.logRead d)) ∧
      (dOp k.desc ≠ 0x01 → exec (.read d) s = .next s) ∧ (dOp k.desc ≠ 0x02 → exec (.write d) s = .next s) ∧
      (dOp k.desc ≠ 0x03 → exec (.writeNt d) s = .next s) ∧ (dOp k.desc ≠ 0x04 → exec (.copy d) s = .next s) ∧
      (dOp k.desc ≠ 0x05 → exec (.fill d) s = .next s) ∧ (dOp k.desc ≠ 0x31 → exec (.logRead d) s = .next s))

/-- CLAIM, COMMIT and the atomics at this node's DDR4 (R71, R161 to R165): a claim returns the bytes and holds the granule, a commit
writes while its reservation holds and is lost otherwise, an atomic returns the old value and writes the new one. -/
def Obligations.ClaimsCommitsAndAtomicsAtTheirHome : Prop :=
  ∀ (s : State) (d : Nat) (x : Exec), s.up .core = true → s.execOf d = some x → x.phase = .ready →
    let k := x.task
    let n := k.lenm1 + 1
    let a := k.off - 0x1000000000
    k.dir = false → k.orig ≠ 2 → k.desc = [] → regionOf k.off = .ddr → s.decodeFault k.bank k.op k.off n = none →
    n = 1 ∨ n = 2 ∨ n = 4 ∨ n = 8 → k.addr % n = 0 → s.ddr.bad = [] → s.ddr.inject = none → s.mirrors 5 = false →
    let old := tread zeroByte s.ddr.bytes a n
    let ends := fun (t : State) (st n : Nat) (bs : List Byte) => ∃ z, t.execOf d = some z ∧ z.phase = .ended ∧ z.result = some ⟨st, n, bs⟩
    let counted := fun (t : State) (r : Nat) => t.reg r = BitVec.ofNat 32 (satAdd 32 (s.reg r).toNat 1)
    (k.op = 0x10 → ∃ t, exec (.claim d) s = .next t ∧ ends t St.OK n old ∧
      t.claimOf k.srcNode k.agent 5 (k.addr / 64) = some ⟨k.srcNode, k.agent, 5, k.addr / 64, k.exc, old, none, d⟩ ∧
      s.Only t [.regs, .drv, .ord] ∧ s.RegsBut t [K.CHIP_CLM_STAT]) ∧
    (k.op = 0x11 → k.data.length = n →
      (s.claimOf k.srcNode k.agent 5 (k.addr / 64) = none → ∃ t, exec (.commit d) s = .next t ∧ ends t St.CLAIM_LOST 0 [] ∧
        counted t K.CHIP_CNT_CLM_LOST ∧ s.Only t [.regs, .drv, .ord, .stat] ∧ s.RegsBut t [K.CHIP_CLM_STAT, K.CHIP_CNT_CLM_LOST]) ∧
      (∀ c, s.claimOf k.srcNode k.agent 5 (k.addr / 64) = some c → c.node = s.nodeId → k.exc = c.exc → ∃ t,
        exec (.commit d) s = .next t ∧ ends t St.OK n [] ∧ t.ddr.bytes = twrites zeroByte s.ddr.bytes a k.data ∧
        counted t K.CHIP_CNT_CLM_OK ∧ (∀ c ∈ t.ord.claims, ¬ (c.space = 5 ∧ c.key = k.addr / 64)) ∧
        s.Only t [.regs, .drv, .ord, .stat, .ddr] ∧ s.RegsBut t [K.CHIP_CLM_STAT, K.CHIP_CNT_CLM_OK])) ∧
    (k.op = 0x12 →
      let v := leNum old
      let op0 := leNum (slice k.data 8 8) % 2 ^ (8 * n)
      let does := fun (i : Instr) (sub new : Nat) => (getAt 0 k.data 0).toNat = sub → ∃ t, exec i s = .next t ∧ ends t St.OK n old ∧
        t.ddr.bytes = twrites zeroByte s.ddr.bytes a (leBytes n new) ∧ s.Only t [.regs, .drv, .ord, .ddr] ∧ s.RegsBut t [K.CHIP_CLM_STAT]
      does (.fetchAdd d) 0 ((v + leNum (slice k.data 8 8)) % 2 ^ (8 * n)) ∧ does (.swap d) 1 op0 ∧
      does (.cmpSwap d) 2 (if v = leNum (slice k.data 16 8) % 2 ^ (8 * n) then op0 else v))

/-- Barriers (R149 to R153, R212): a FENCE at its gate, or one of this node's agents with nothing before it, ends; a DONE says how
many stores are unconfirmed; it times out; PHASE_WAIT ends when the cadence unit has let it go. -/
def Obligations.BarriersEnd : Prop :=
  ∀ (s : State) (d : Nat) (x : Exec), s.up .core = true → s.execOf d = some x →
    let k := x.task
    let ready := (x.phase = .ready ∨ x.phase = .ordWait) ∧ k.dir = false ∧ k.orig ≠ 2
    let ends := fun (t : State) (st n : Nat) => ∃ z, t.execOf d = some z ∧ z.phase = .ended ∧ z.result = some ⟨st, n, []⟩ ∧ z.task = k
    let counted := fun (t : State) (r : Nat) => t.reg r = BitVec.ofNat 32 (satAdd 32 (s.reg r).toNat 1)
    let quiet := s.halting 1 = false ∧ s.ord.wc = [] ∧ (s.agent k.key).accesses = [] ∧ x.subs = []
    (ready → k.orig = 0 → k.desc = [] → k.op = 0x13 → ∃ t, exec (.fence d) s = .next t ∧ ends t St.OK 0 ∧ s.Only t [.drv]) ∧
    (ready → k.orig ≠ 0 → k.desc ≠ [] → dOp k.desc = 0x13 → dSub k.desc = 2 → x.aux = 0 → s.executesAway k = false → quiet → ∃ t,
      exec (.fence d) s = .next t ∧ ends t St.OK 0 ∧ (t.agent k.key).flushLost = [] ∧ s.Only t [.drv, .ord]) ∧
    (ready → k.orig = 0 → k.desc = [] → k.op = 0x14 → (s.confirmOf k.key).pending = 0 → (s.confirmOf k.key).segs = [] → ∃ t,
      exec (.done d) s = .next t ∧ (t.confirmOf k.key).failed = 0 ∧ s.Only t [.drv, .ord] ∧
      ends t (if (s.confirmOf k.key).failed = 0 then St.OK else St.DONE_FAILED) (s.confirmOf k.key).failed) ∧
    (ready → k.orig ≠ 0 → k.desc ≠ [] → dOp k.desc = 0x14 → dSub k.desc = 0 → x.aux = 0 → s.executesAway k = false → quiet → (s.agent k.key).doneMap = [] →
      let n := (s.agent k.key).unsent
      ∃ t, exec (.done d) s = .next t ∧ ends t (if n = 0 then St.OK else St.DONE_FAILED) n ∧ (t.agent k.key).unsent = 0 ∧
        counted t (if n = 0 then K.CHIP_CNT_DONE_OK else K.CHIP_CNT_DONE_FAIL) ∧ s.Only t [.regs, .drv, .ord, .stat] ∧
        s.RegsBut t [K.CHIP_CNT_DONE_OK, K.CHIP_CNT_DONE_FAIL]) ∧
    (k.orig ≠ 0 → k.desc ≠ [] → dOp k.desc = 0x14 → dSub k.desc = 0 → x.aux ≠ 0 → x.phase = .ordWait ∨ x.phase = .ring → ∃ t,
      exec (.doneTimeout d) s = .next t ∧ ends t St.DONE_TIMEOUT 0 ∧ counted t K.CHIP_CNT_DONE_FAIL ∧
      (∀ n r, t.tagRec n = some r → r.owner ≠ TagOwner.sub d) ∧ s.Only t [.regs, .drv, .fold, .net, .stat, .port, .host] ∧
      s.RegsBut t [K.CHIP_CNT_DONE_FAIL]) ∧
    (k.orig = 0 ∨ k.desc = [] ∨ x.aux = 0 ∨ (x.phase ≠ .ordWait ∧ x.phase ≠ .ring) → exec (.doneTimeout d) s = .next s) ∧
    (ready → k.desc ≠ [] → dOp k.desc = 0x15 → dSub k.desc = 0 → s.executesAway k = false → ∃ t, exec (.phaseWait d) s = .next t ∧
      ends t St.OK 0 ∧ s.Only t [.drv])

/-- Descriptors that act at the node their ADDR names (R209, R253): SEND pushes a packet, RECV_POST posts, and completes with
nothing when its wait limit expires, IRQ_RAISE queues a vector, STATUS answers, CONFIG_STAGE writes set-up registers (R441), CONFIG_COMMIT waits for its commit (R440), MIRROR_MARK
stands in the open epoch (R354). -/
def Obligations.DescriptorsActAtTheirNode : Prop :=
  (∀ (s : State) (n : Nat), s.up .core = true →
    (s.fold.posts[n]? = none ∨ (∃ p, s.fold.posts[n]? = some p ∧ dOperand p.task.desc 0 = 0) → exec (.recvPostExpiry n) s = .next s) ∧
    (∀ p, s.fold.posts[n]? = some p → dOperand p.task.desc 0 ≠ 0 → ∃ t, exec (.recvPostExpiry n) s = .next t ∧
      t.fold = { s.fold with posts := s.fold.posts.eraseIdx n } ∧ t.drv.results = s.drv.results ++ [(p.task, ⟨St.OK, 0, []⟩)] ∧
      s.Only t [.drv, .fold])) ∧
  (∀ (s : State) (d : Nat) (x : Exec), s.up .core = true → s.execOf d = some x → x.phase = .ready →
    let k := x.task
    let addr := dAddr k.desc
    let n := dLen k.desc
    let runs := fun (op sub : Nat) => dOp k.desc = op ∧ dSub k.desc = sub ∧ (k.orig = 0 ∨ originFault op addr n = none)
    k.dir = false → k.orig ≠ 2 → k.desc ≠ [] → s.executesAway k = false → s.vme.owner ≠ some (.drover d) →
    let ends := fun (t : State) (st n : Nat) (bs : List Byte) => ∃ z, t.execOf d = some z ∧ z.phase = .ended ∧ z.result = some ⟨st, n, bs⟩
    (runs 0x20 0 →
      (∀ h, descHead k true = some h →
        (s.headOn h = false → ∃ t, exec (.send d) s = .next t ∧ ends t St.PORT_OFF 0 [] ∧ s.Only t [.drv, .ord]) ∧
        (s.headOn h = true → dInline k.desc = true → 0 < n → dBuf k.desc % 256 + n ≤ 256 → x.subs = [] → x.toWrite = [] → x.err = none →
          x.next = 0 →
          let bs := slice k.desc 24 n
          let u := (((s.setExec d { x with next := n }).setExec d { x with next := n, buf := bs, phase := .field }).noteStore k).awaitStore (k.key + 1)
          let r := u.push h (1000 + d + 64 * h) (k.key + 1) (dataWords bs) (some d)
          r.1 = true → (r.2.execOf d).isSome = true → ∃ t, exec (.send d) s = .next t ∧ ends t St.OK n [] ∧ t.fold = r.2.fold ∧
            s.Only t [.regs, .flt, .drv, .ord, .fold, .net, .stat, .twin, .out, .freeCtr]))) ∧
    (runs 0x21 0 → ∀ h, descHead k false = some h → k.data = [] →
      (s.headOn h = false → ∃ t, exec (.recvPost d) s = .next t ∧ ends t St.PORT_OFF 0 [] ∧ s.Only t [.drv, .ord]) ∧
      (s.headOn h = true → 256 ≤ s.postsOpen → ∃ t, exec (.recvPost d) s = .next t ∧ ends t St.POST_FULL 0 [] ∧
        s.Only t [.drv, .ord]) ∧
      (s.headOn h = true → s.postsOpen < 256 → 64 ≤ s.headFold h → (s.foldOf (s.headFold h)).packets = 0 → ∃ t,
        exec (.recvPost d) s = .next t ∧ t.execOf d = none ∧ t.fold = { (s.dropExec d).fold with posts := s.fold.posts ++ [⟨k, h⟩] } ∧
        s.Only t [.drv, .ord, .fold])) ∧
    (runs 0x22 0 →
      let v : IntrVector := ⟨BitVec.ofNat 32 (dOperand k.desc 0), some k, none, false⟩
      (s.intrOff = true → ∃ t, exec (.irqRaise d) s = .next t ∧ t.execOf d = none ∧
        t.drv.results = s.drv.results ++ [(k, ⟨St.IRQ_DISABLED, 0, leBytes 8 0⟩)] ∧ s.Only t [.drv, .ord, .fold]) ∧
      (s.intrOff = false → s.vin.vectors.length < 16 → s.vin.vectorWait = [] → s.mirrors 3 = false → ∃ t, exec (.irqRaise d) s = .next t ∧
        t.execOf d = none ∧ t.vin = { s.vin with vectors := s.vin.vectors ++ [v], irqOut := !s.vin.irqGap } ∧
        s.Only t [.regs, .vin, .drv, .ord, .fold] ∧
        s.RegsBut t [F.VME_INTR_DEPTH.key]) ∧
      (s.intrOff = false → 16 ≤ s.vin.vectors.length ∨ s.vin.vectorWait ≠ [] → ∃ t, exec (.irqRaise d) s = .next t ∧ t.execOf d = none ∧
        t.vin = { s.vin with vectorWait := s.vin.vectorWait ++ [v] } ∧ s.Only t [.vin, .drv, .ord, .fold])) ∧
    (runs 0x30 0 → s.setupFault k = none →
      let r := s.setupRead (faOffset addr - 0x3000000000) n
      r.2.drv = s.drv → ∃ t, exec (.statusReg d) s = .next t ∧ ends t St.OK n (leBytes 8 (leNum r.1)) ∧ t.regs = r.2.regs ∧
      s.Only t [.regs, .drv, .freeCtr]) ∧
    (runs 0x30 1 → ∃ t, exec (.statusNonce d) s = .next t ∧ ends t St.OK 0 (leBytes 8 s.recd.nonce) ∧ s.Only t [.drv]) ∧
    (runs 0x40 0 → s.setupFault k = none →
      let off := faOffset addr - 0x3000000000
      (s.stageWaits off n = true → ∃ t, exec (.configStage d) s = .next t ∧ t.execOf d = some { x with phase := .held, aux := 442 } ∧
        s.Only t [.drv]) ∧
      (s.stageWaits off n = false →
        let r := s.setupWrite off ((leBytes 8 (dOperand k.desc 0)).take n) k.srcNode k.agent
        (r.st.execOf d).isSome = true → ∃ t, exec (.configStage d) s = .next t ∧ t.regs = r.st.regs ∧
        ((r.late || r.range) = false → ends t St.OK n []) ∧ ((r.late || r.range) = true → ends t St.CFG_REFUSED 0 []))) ∧
    (runs 0x41 0 → ∃ t, exec (.configCommitNext d) s = .next t ∧ t.execOf d = none ∧
      t.commits = s.commits ++ [⟨k, none, s.commitPending, false⟩] ∧ s.Only t [.commits, .drv, .ord, .fold]) ∧
    (runs 0x41 1 →
      let p := dOperand k.desc 0 % 2 ^ 32
      ∃ t, exec (.configCommitNamed d) s = .next t ∧ t.execOf d = none ∧
      t.commits = s.commits ++ [⟨k, some p, s.commitPending, false⟩] ∧ t.commitTarget = max s.commitTarget p ∧
      s.Only t [.regs, .commits, .drv, .ord, .fold] ∧ s.RegsBut t [K.CHIP_COMMIT_TARGET_LO, K.CHIP_COMMIT_TARGET_HI]) ∧
    (runs 0x50 0 →
      let on := s.twinOn && s.crook && !s.twin.fencing
      (on = true → ∃ t, exec (.mirrorMark d) s = .next t ∧ t.execOf d = none ∧
        t.twin = { s.twin with marks := s.twin.marks ++ [(dOperand k.desc 0, k)] } ∧ s.Only t [.drv, .ord, .fold, .twin]) ∧
      (on = false → ∃ t, exec (.mirrorMark d) s = .next t ∧ ends t St.TWIN_OFF 0 [] ∧ s.Only t [.drv, .ord])))

/-- LOG_CLEAR (R395 to R398, R428, R448): one that is authorised clears the record, unlocks the monitor or makes a reset due; one
that is not ends with AUTH_FAIL, counts and raises its fault. -/
def Obligations.LogClearNeedsItsAuthorisation : Prop :=
  ∀ (s : State) (d : Nat) (x : Exec), s.up .core = true → s.execOf d = some x → x.phase = .ready →
    let k := x.task
    k.dir = false → k.orig ≠ 2 → k.desc ≠ [] → s.executesAway k = false → dOp k.desc = 0x32 → s.vme.owner ≠ some (.drover d) →
    k.orig = 0 ∨ originFault 0x32 (dAddr k.desc) (dLen k.desc) = none →
    let ends := fun (t : State) (st : Nat) => ∃ z, t.execOf d = some z ∧ z.phase = .ended ∧ z.result = some ⟨st, 0, []⟩
    let who := k.srcNode * 2 ^ 16 + k.agent * 2 ^ 8
    let step := fun (sub : Nat) => s.authStep sub (dBuf k.desc) (descMac k)
    let fails := fun (i : Instr) (sub : Nat) => dSub k.desc = sub → ∀ cause, step sub = some cause → ∃ t, exec i s = .next t ∧
      ends t St.AUTH_FAIL ∧ t.recd.fails = s.recd.fails + 1 ∧ (cause = 2 → t.recd.nonce = s.recd.nonce) ∧
      t.flt = (s.raise Code.REC_AUTH_FAIL Src.recorder [sub, who, cause, s.recd.fails + 1]).flt ∧
      (4 ≤ s.recd.fails + 1 → t.bit F.REC_STAT_AUTH_HOLD = true) ∧ t.recd.mram = s.recd.mram ∧
      t.reg K.REC_CNT_AUTH_FAIL = BitVec.ofNat 32 (satAdd 32 (s.reg K.REC_CNT_AUTH_FAIL).toNat 1) ∧
      s.Only t [.regs, .flt, .drv, .ord, .stat, .recd, .freeCtr] ∧ s.RegsBut t [K.REC_CNT_AUTH_FAIL, K.REC_STAT]
    (s.recd.clearing.isSome = true → exec (.logClearClear d) s = .next s) ∧
    (s.recd.clearing = none → fails (.logClearClear d) 0) ∧ fails (.monUnlock d) 1 ∧ fails (.logClearReset d) 2 ∧
    (s.recd.clearing = none → dSub k.desc = 0 → step 0 = none → ∃ t, exec (.logClearClear d) s = .next t ∧ t.execOf d = none ∧
      t.recd.clearing = some k ∧ t.recd.fails = 0 ∧ t.recd.clearStep = .zeroing ∧
      t.bit F.REC_STAT_CLEARING = true ∧ s.Only t [.regs, .drv, .ord, .fold, .recd, .freeCtr] ∧
      s.RegsBut t [K.REC_STAT]) ∧
    (dSub k.desc = 1 → step 1 = none → ∃ t, exec (.monUnlock d) s = .next t ∧ ends t St.OK ∧ t.rd F.SVC_STAT_LOCKED = 0 ∧
      t.recd.fails = 0 ∧ t.flt = (s.raise Code.SVC_UNLOCK Src.monitor [0, who]).flt ∧
      s.Only t [.regs, .flt, .drv, .ord, .recd, .freeCtr] ∧ s.RegsBut t [K.SVC_STAT]) ∧
    (dSub k.desc = 2 → step 2 = none → ∃ t, exec (.logClearReset d) s = .next t ∧ ends t St.OK ∧ t.recd.fails = 0 ∧
      t.boot = { s.boot with resetDue := true } ∧ t.flt = (s.raise Code.CHIP_RESET_CMD Src.mgmt [0, who]).flt ∧
      s.Only t [.regs, .flt, .boot, .drv, .ord, .recd, .freeCtr] ∧ t.regs = s.regs)

/-- The fold heads (R181 to R189): a read pops words with their tags, a write pushes a packet, or waits for a cell or behind
an older push and lands when one is granted, the count is read without popping.
A fold's stale-tail timer (R191), its flush and the sweep that gives its cells back (R193, R194), its floor (R190), and the
pointer injection (R197). -/
def Obligations.FoldHeadsServeAndFoldsAreSwept : Prop :=
  (∀ (s : State) (d : Nat), s.up .core = true →
     let watched := fun (f : Nat) => s.slotsOf f F.FLD_NS_WM_EN 3 ≠ [] ∨ s.foldMirrored f = true ∨ s.fold.inject ≠ [] ∨ s.fold.posts ≠ [] ∨
       s.flt.inject ≠ none
     let ends := fun (t : State) (n : Nat) (bs : List Byte) => ∃ z, t.execOf d = some z ∧ z.phase = .ended ∧ z.result = some ⟨St.OK, n, bs⟩
     -- one packet of one word lands in fold `f`
     let lands := fun (t : State) (f who : Nat) (w : BitVec 64) (tag : Byte) =>
       (t.foldOf f).words = (s.foldOf f).words ++ [⟨w, storeTag tag, true, who, none⟩] ∧ (t.foldOf f).packets = (s.foldOf f).packets + 1 ∧
       (t.foldOf f).held = (s.foldOf f).held + 1 ∧ (t.foldOf f).chains = [] ∧ t.fold.free = s.fold.free - 1 ∧
       (∀ g, g ≠ f → t.foldOf g = s.foldOf g)
     (s.execOf d = none → ∀ i, i ∈ [Instr.foldHeadRead d, .foldHeadWrite d, .foldHeadCount d] → exec i s = .next s) ∧
     (∀ x h e, s.execOf d = some x → x.phase = .ready → x.task.desc = [] → x.task.dir = false → x.task.orig = 0 →
       headAt x.task.off = some (h, e) →
       let k := x.task
       let n := k.lenm1 + 1
       let f := s.headFold h
       (k.op = 0x01 → headOp h e n true = .count → ∃ t, exec (.foldHeadCount d) s = .next t ∧ ends t 8 (s.headCount h) ∧ s.Only t [.drv]) ∧
       (∀ m stop, k.op = 0x01 → headOp h e n true = .pop m stop → 64 ≤ f → ¬ watched f →
         ((s.foldOf f).words = [] → 0 < m → ∃ t, exec (.foldHeadRead d) s = .next t ∧ ends t n (leBytes (16 * m) 0) ∧ s.Only t [.drv]) ∧
         (∀ w ws, m = 1 → (s.foldOf f).words = w :: ws → w.bad = none → ∃ t, exec (.foldHeadRead d) s = .next t ∧ ends t n (entryBytes w) ∧
           (t.foldOf f).words = ws ∧ t.fold.free = s.fold.free + (if w.last then 1 else 0) ∧
           (t.foldOf f).packets = (s.foldOf f).packets - (if w.tag.toNat.testBit 6 then 1 else 0) ∧ s.Only t [.regs, .drv, .fold] ∧
           s.RegsBut t [K.FLD_F_STAT f, K.FLD_F_PEAK f, K.FLD_F_FLOOR f])) ∧
       (∀ w tag, k.op = 0x02 → headOp h e n false = .push → 64 ≤ f → ¬ watched f → entriesOf 16 k.data = [(w, tag)] → 192 ≤ tag.toNat →
         (s.foldOf f).chains = [] → (s.fold.heldPushes.any (fun p => p.head == h)) = false →
         (s.cellGranted f = true → s.olderPush f = false → ∃ t, exec (.foldHeadWrite d) s = .next t ∧ ends t n [] ∧ lands t f (k.key + 1) w tag ∧
           s.Only t [.regs, .drv, .ord, .fold, .stat]) ∧
         (s.cellGranted f = false ∨ s.olderPush f = true → ∃ t, exec (.foldHeadWrite d) s = .next t ∧
           t.fold = { s.fold with heldPushes := s.fold.heldPushes ++ [⟨h, [(w, tag)], k.key + 1, some d⟩] } ∧
           t.execOf d = some { x with phase := .field, buf := k.data } ∧ s.Only t [.regs, .drv, .ord, .fold, .stat]))) ∧
     (s.fold.heldPushes = [] ∨ (∃ p, s.fold.heldPushes = [p] ∧ s.heldGoes p = false) →
       exec .foldPushGrant s = .next s) ∧
     (∀ p w tag x, s.fold.heldPushes = [p] → p.entries = [(w, tag)] → 192 ≤ tag.toNat → p.drover = some d → s.execOf d = some x →
       let f := s.headFold (producerHead p.head)
       s.cellGranted f = true → 64 ≤ f → ¬ watched f → (s.foldOf f).chains = [] → ∃ t, exec .foldPushGrant s = .next t ∧
       ends t x.buf.length [] ∧ lands t f p.who w tag ∧ t.fold.heldPushes = [] ∧ s.Only t [.regs, .drv, .fold, .stat])) ∧
  (∀ s : State, s.up .core = true →
     (∀ f, (s.foldOf f).staleRun = false ∨ s.rd (F.FLD_F_STALE_STALE_US f) = 0 → exec (.foldStale f) s = .next s) ∧
     (∀ f, (s.foldOf f).staleRun = true → 0 < s.rd (F.FLD_F_STALE_STALE_US f) → s.slotsOf f F.FLD_NS_STALE_EN 4 = [] → ∃ t, exec (.foldStale f) s = .next t ∧
       t.foldOf f = { s.foldOf f with staleRun := false } ∧ (∀ g, g ≠ f → t.foldOf g = s.foldOf g) ∧
       t.bit (F.FLD_F_STAT_STALE_N f) = true ∧ s.Only t [.regs, .fold] ∧ s.RegsBut t [K.FLD_F_STAT f]) ∧
     (let f := s.rd F.FLD_SEL_FOLD
      let x := s.foldOf f
      64 ≤ f → s.fold.inject = [] → s.slotsOf f F.FLD_NS_WM_EN 3 = [] → x.chains = [] → (x.words.all (fun w => w.who == 0)) = true → ∃ t,
        exec .foldFlush s = .next t ∧ t.foldOf f = ⟨[], 0, 0, [], false⟩ ∧ (∀ g, g ≠ f → t.foldOf g = s.foldOf g) ∧
        t.fold.oldNow = s.fold.oldNow + (if s.fold.sweepBusy then 0 else x.held) ∧
        t.fold.oldNext = s.fold.oldNext + (if s.fold.sweepBusy then x.held else 0) ∧ t.fold.sweepBusy = true ∧ t.fold.free = s.fold.free ∧
        t.reg K.FLD_CNT_FLUSH_WORDS = BitVec.ofNat 32 (satAdd 32 (s.reg K.FLD_CNT_FLUSH_WORDS).toNat x.words.length) ∧
        s.Only t [.regs, .fold, .stat]) ∧
     (let f := s.rd F.FLD_SEL_FOLD
      ∃ t, exec .floorRst s = .next t ∧ t.rd (F.FLD_F_FLOOR_FLOOR f) = s.foldWords f % 2 ^ 20 ∧ s.Only t [.regs] ∧
      s.RegsBut t [K.FLD_F_FLOOR f]) ∧
     (s.fold.sweepBusy = false → exec .sweepPassEnd s = .next s) ∧
     (s.fold.sweepBusy = true → exec .sweepPassEnd s = .next { s with fold := { s.fold with
       free := s.fold.free + s.fold.oldNow, oldNow := s.fold.oldNext, oldNext := 0
       sweepBusy := s.fold.sweepFolds != [], sweepFolds := [] } }) ∧
     (∀ v, ∃ t, exec (.fldInjArm v) s = .next t ∧
       t.fold = { s.fold with inject := s.fold.inject ++ [(bitsOf v 11 0, bitOf v 12)] } ∧ t.rd F.FLD_INJ_FOLD = bitsOf v 11 0 ∧
       t.rd F.FLD_INJ_TAIL = bitsOf v 12 12 ∧ s.Only t [.regs, .fold] ∧ s.RegsBut t [K.FLD_INJ]))

/-- The descriptor fetcher polls the doorbell page and fetches (R204 to R207), entries enter the rings the device writes (R200,
R201, R215), and a coalescing interval ends (R217). -/
def Obligations.HostRingsArePolledFetchedAndWritten : Prop :=
  ∀ s : State, s.up .host = true →
    (s.bit F.HST_CTL_FETCH_EN = false ∨ s.flt.fencedHost = true ∨ s.host.polling = true → exec .doorbellPoll s = .next s) ∧
    (s.bit F.HST_CTL_FETCH_EN = true → s.flt.fencedHost = false → s.host.polling = false → ∃ t, exec .doorbellPoll s = .next t ∧
      t.host = { s.host with polling := true, polled := t.host.polled } ∧ (∀ p ∈ t.host.polled, p.2.2 = []) ∧
      s.Only t [.regs, .flt, .drv, .net, .stat, .host, .out]) ∧
    (s.host.polling = false ∨ s.host.polled.length ≠ 16 ∨ s.flt.fencedHost = true → exec .doorbellReadDone s = .next s) ∧
    (s.host.polling = true → s.host.polled.length = 16 → s.flt.fencedHost = false →
      (∀ off st, s.pollFailed = some (off, st) → ∃ t, exec .doorbellReadDone s = .next t ∧
        t.host = { s.host with polling := false, polled := [], pollBad := true } ∧ t.regs = s.pollSlower.regs ∧
        t.flt = (if s.host.pollBad then s.flt else (s.raise Code.HST_FETCH_ERR Src.fetcher [0x100, off, st]).flt) ∧
        s.Only t [.regs, .flt, .host]) ∧
      (s.pollFailed = none → (∀ n, n < 256 → s.bit (F.HST_CR_CTL_EN n) = false) → ∃ t, exec .doorbellReadDone s = .next t ∧
        t.host = { s.host with
          polling := false, polled := [], pollBad := false, cqCi := t.host.cqCi, evCi := s.pollWord 0xC00 4, stCi := s.pollWord 0xC04 4 } ∧
        (∀ c, c < 256 → tget (fun _ => 0) t.host.cqCi c = s.pollWord (0x800 + 4 * c) 4) ∧ t.regs = s.pollSlower.regs ∧
        s.Only t [.regs, .host])) ∧
    (∀ n, 256 ≤ n ∨ s.fetchesOf n = [] ∨ (∃ f rest, s.fetchesOf n = f :: rest ∧ f.answer = none) → exec (.descFetchDone n) s = .next s) ∧
    (∀ n f rest st bs, n < 256 → s.fetchesOf n = f :: rest → f.answer = some (st, bs) →
      (performed st = false → ∃ t, exec (.descFetchDone n) s = .next t ∧ t.fetchesOf n = [] ∧ t.bit (F.HST_CR_STAT_STOPPED n) = true ∧
        (∃ x ∈ t.flt.raised, x.code = Code.HST_FETCH_ERR ∧ x.src = Src.fetcher) ∧ t.drv = s.drv ∧
        s.Only t [.regs, .flt, .net, .stat, .host, .out]) ∧
      (performed st = true → ∃ t, exec (.descFetchDone n) s = .next t ∧ t.fetchesOf n = rest ∧
        t.rd (F.HST_CR_CI_CI n) = (s.rd (F.HST_CR_CI_CI n) + f.count) % 2 ^ 32 ∧
        s.Only t [.regs, .flt, .drv, .ord, .fold, .net, .cad, .stat, .host, .out, .freeCtr])) ∧
    (∀ n, 256 ≤ n ∨ (s.writer n).isSome = true ∨ (s.writer n = none ∧ takeFirst (fun e : RingEntry => e.key == n) s.host.queue = none) →
      exec (.cqSpaceFree n) s = .next s) ∧
    (∀ n e rest a bs more, n < 256 → s.writer n = none → takeFirst (fun e : RingEntry => e.key == n) s.host.queue = some (e, rest) →
      e.key = n → s.outEn n = true → s.outFull n = false → s.entrySteps e = (a, bs) :: more →
      let u := { s with host := { s.host with queue := rest, fullSpell := s.host.fullSpell.filter (· != n) } }.setWriter n (some ⟨e, s.entrySteps e⟩)
      let r := u.ownRequest 0x02 a bs.length bs (.ringWrite n)
      r.1 = none → ∃ t, exec (.cqSpaceFree n) s = .next t ∧ t.host = u.host ∧ t.writer n = some ⟨e, s.entrySteps e⟩ ∧ t.net = r.2.net ∧
        s.Only t [.regs, .flt, .drv, .net, .stat, .host, .out]) ∧
    (∀ n, s.host.coal.find? (fun x => x.1 == n) = none → exec (.msixCoalExpiry n) s = .next s) ∧
    (∀ n, s.host.coal.find? (fun x => x.1 == n) = some (n, false) →
      exec (.msixCoalExpiry n) s = .next { s with host := { s.host with coal := s.host.coal.filter (fun y => y.1 != n) } }) ∧
    (∀ n, s.host.coal.find? (fun x => x.1 == n) = some (n, true) →
      let v := s.rd (F.HST_CQ_CTL_MSIX_VEC n)
      let u := { s with host := { s.host with coal := s.host.coal.filter (fun y => y.1 != n) ++ [(n, false)] } }
      (s.pcieUp = false ∨ s.host.msixEn = false → exec (.msixCoalExpiry n) s = .next u) ∧
      (s.pcieUp = true → s.host.msixEn = true → s.host.funcMask = false → (s.msixEntry v).masked = false →
        s.bit F.HST_PCIE_STAT_BME = true → s.host.d3 = false →
        exec (.msixCoalExpiry n) s = .next { u with out := .msix (s.msixEntry v).addr (s.msixEntry v).data :: s.out }) ∧
      (s.pcieUp = true → s.host.msixEn = true → (s.msixEntry v).masked = true → s.host.pba.contains v = false →
        exec (.msixCoalExpiry n) s = .next { u with host := { u.host with pba := s.host.pba ++ [v] } }))

/-- The endpoint's windows (R222, R223): BAR0 reads and writes set-up registers, BAR2 asks the ring, BAR4 holds the MSI-X table;
what a window does not take is answered or counted. -/
def Obligations.TheBarsAnswerTheHost : Prop :=
  ∀ s : State, s.up .endpoint = true →
    let agent := s.rd F.CHIP_ORD_CTL_BAR2_AGENT
    (s.pcieUp = false → ∀ w tag off len data, exec (.bar0Tlp w tag off len data) s = .next s ∧ exec (.bar2Tlp w tag off len data) s = .next s ∧
      exec (.bar4Tlp w tag off len data) s = .next s ∧ exec (.unsupportedTlp tag) s = .next s) ∧
    (s.up .mgmt = false → ∀ w tag off len data, exec (.bar0Tlp w tag off len data) s = .next s) ∧
    (s.pcieUp = true →
      let told := fun (tag : Nat) => Host.Outcome.next { s with out := .tlpStatus tag true :: s.out }
      (∀ tag, exec (.unsupportedTlp tag) s = told tag) ∧
      (s.host.d3 = true → s.up .mgmt = true → ∀ tag off len data, exec (.bar0Tlp true tag off len data) s = .next s ∧
        exec (.bar0Tlp false tag off len data) s = told tag) ∧
      (s.up .mgmt = true → s.host.d3 = false → ∀ tag off,
        (∀ len data, off + len ≤ 0x10000 → setupSizeOk off len = true →
          let r := s.setupRead off len
          ∃ t, exec (.bar0Tlp false tag off len data) s = .next t ∧ t.out = .tlpData tag r.1 :: s.out ∧ t.regs = r.2.regs ∧
          s.Only t [.regs, .freeCtr, .out]) ∧
        (∀ len data, off + data.length ≤ 0x10000 → setupSizeOk off data.length = true →
          exec (.bar0Tlp true tag off len data) s = .next (s.setupWrite off data s.nodeId agent).st) ∧
        (∀ len data, 0x10000 < off + len ∨ setupSizeOk off len = false → ∃ t, exec (.bar0Tlp false tag off len data) s = .next t ∧
          t.out = .tlpStatus tag true :: s.out ∧ (∃ x ∈ t.flt.raised, x.code = Code.ADR_SETUP ∧ x.src = Src.setup) ∧
          s.Only t [.regs, .flt, .out] ∧ s.RegsBut t (capRegs 2))) ∧
      (∀ tag off, s.bit F.HST_PCIE_CTL_B2_EN = false ∨ s.flt.fencedHost = true ∨ s.host.d3 = true →
        (∀ len data, 0 < len → off + len ≤ 2 ^ 36 → exec (.bar2Tlp false tag off len data) s = told tag) ∧
        (∀ len data, 0 < data.length → off + data.length ≤ 2 ^ 36 → ∃ t, exec (.bar2Tlp true tag off len data) s = .next t ∧
          t.reg K.HST_CNT_B2_LOST_BYTES = BitVec.ofNat 32 (satAdd 32 (s.reg K.HST_CNT_B2_LOST_BYTES).toNat data.length) ∧
          s.Only t [.regs, .stat] ∧ s.RegsBut t [K.HST_CNT_B2_LOST_BYTES])) ∧
      (∀ w tag off len data, s.bit F.HST_PCIE_CTL_B2_EN = true → s.flt.fencedHost = false → s.host.d3 = false → s.host.tlps = [] →
        let n := if w then data.length else len
        let a := s.rd F.HST_B2_BASE_NODE * 2 ^ 48 + s.rd F.HST_B2_BASE_OFFSET_HI * 2 ^ 36 + off
        0 < n → off + n ≤ 2 ^ 36 → a % 256 + n ≤ 256 →
        let k : BarTlp := ⟨s.host.nextTlp, tag, w, a, n, if w then data else [], 0, [], St.OK, 0, false⟩
        let u := { s with host := { s.host with nextTlp := s.host.nextTlp + 1, tlps := [k] } }
        let r := u.issueOp u.bar2Agent 1 (if w then 0x02 else 0x01) a n (if w then slice data 0 n else []) (.bar2 k.id) true
        (r.waits = true → exec (.bar2Tlp w tag off len data) s = .next u) ∧
        (r.waits = false → r.ended = none → ∃ t, exec (.bar2Tlp w tag off len data) s = .next t ∧ t.net = r.st.net ∧ t.ord = r.st.ord ∧
          t.host = { u.host with tlps := [{ k with next := n, open_ := [(a, n)] }] } ∧ s.Only t [.regs, .flt, .drv, .ord, .net, .stat, .host, .out])) ∧
      (∀ tag off len data, s.host.d3 = true ∨ s.flt.fencedHost = true → off + len ≤ 0x2000 → exec (.bar4Tlp false tag off len data) s = told tag) ∧
      (s.host.d3 = false → s.flt.fencedHost = false → ∀ tag off,
        (∀ len data, off + len ≤ 0x2000 → exec (.bar4Tlp false tag off len data) s = .next { s with
          out := .tlpData tag ((List.range len).map (fun i => s.bar4Byte (off + i))) :: s.out }) ∧
        (∀ v len data, off = 16 * v → v < 256 → data.length = 16 → s.host.msixEn = false → ∃ t,
          exec (.bar4Tlp true tag off len data) s = .next t ∧ t.msixEntry v = msixOf data ∧ (∀ w, w ≠ v → t.msixEntry w = s.msixEntry w) ∧
          t.host = { s.host with msix := t.host.msix } ∧ s.Only t [.host])))

/-- Requests of the host window end with the host's answer or are aborted (R224, R225); the link comes up and goes, configuration
space is read, set and reset (R221, R222, R225), credits return (R221, R225, R434). -/
def Obligations.HostWindowAndLinkEvents : Prop :=
  ∀ s : State, s.up .endpoint = true →
    (∀ id, s.hostReq id = none → (∀ st data, exec (.hostWindowCompletion id st data) s = .next s) ∧ exec (.hostCompletionTimeout id) s = .next s) ∧
    (∀ id r, s.hostReq id = some r →
      (∀ data, data.length ≠ r.len → exec (.hostWindowCompletion id 0 data) s = .next s) ∧
      (∀ d x, s.host.reqs = [r] → r.drover = some d → s.execOf d = some x →
        let left := fun (t : State) (y : TaskResult) => t.host = { s.host with reqs := [] } ∧
          (∃ z, t.execOf d = some z ∧ z.phase = .ended ∧ z.result = some y)
        let aborted := fun (i : Instr) => ∃ t, exec i s = .next t ∧ left t ⟨St.HOST_ABORT, 0, []⟩ ∧
          t.reg K.HST_CNT_HOST_ABORT = BitVec.ofNat 32 (satAdd 32 (s.reg K.HST_CNT_HOST_ABORT).toNat 1) ∧
          t.flt = (s.raise Code.HST_HOST_ABORT Src.pcie []).flt ∧ s.Only t [.regs, .flt, .drv, .ord, .stat, .host] ∧
          s.RegsBut t [K.HST_CNT_HOST_ABORT]
        aborted (.hostCompletionTimeout id) ∧ (∀ st data, st ≠ 0 → aborted (.hostWindowCompletion id st data)) ∧
        (∀ data, x.task.op = 0x01 → data.length = r.len → ∃ t, exec (.hostWindowCompletion id 0 data) s = .next t ∧
          left t ⟨St.OK, r.len, data⟩ ∧ s.Only t [.drv, .ord, .host]))) ∧
    (s.pcieUp = false → (∀ b, exec (.pcieFlr b) s = .next s) ∧ (∀ n, exec (.pcieFlowControlUpdate n) s = .next s) ∧
      ∀ w tag reg v b e r p, exec (.pcieConfigRequest w tag reg v b e r p) s = .next s) ∧
    (s.pcieUp = true → s.host.reqs = [] → s.host.tlps = [] → ∀ loss, ∃ t, exec (.pcieFlr loss) s = .next t ∧
      t.host = { s.host with
        msix := [], pba := [], atomicEn := false, mrrs := 512, mps := 128, d3 := false, msixEn := false, funcMask := false
        bars := [0x4, 0, 0xC, 0, 0x4, 0]
        credits := if loss then 0 else s.host.credits } ∧
      t.rd F.HST_PCIE_STAT_BME = 0 ∧ (loss = true → t.pcieUp = false) ∧ (t.agent s.bar2Agent).exc = ((s.agent s.bar2Agent).exc + 1) % 256 ∧
      s.Only t [.regs, .ord, .host] ∧ s.RegsBut t [K.HST_PCIE_STAT]) ∧
    (∀ n, s.pcieUp = true → s.host.reqs = [] →
      exec (.pcieFlowControlUpdate n) s = .next { s with host := { s.host with credits := s.host.credits + n } }) ∧
    (∀ speed width,
      let fine := s.bit F.HST_CTL_HEAD = true ∧ s.boot.pll = true ∧ 1 ≤ speed ∧ speed ≤ 4 ∧ (width = 1 ∨ width = 2 ∨ width = 4 ∨ width = 8)
      (fine → ∃ t, exec (.pcieLinkUp speed width) s = .next t ∧ t.pcieUp = true ∧ t.rd F.HST_PCIE_STAT_SPEED = speed ∧
        t.rd F.HST_PCIE_STAT_WIDTH = width ∧ s.Only t [.regs] ∧ s.RegsBut t [K.HST_PCIE_STAT]) ∧
      (¬ fine → exec (.pcieLinkUp speed width) s = .next s)) ∧
    (s.pcieUp = true → s.stage < 2 → ∀ w tag reg v b e r p,
      exec (.pcieConfigRequest w tag reg v b e r p) s = .next { s with out := .crs :: s.out }) ∧
    (s.pcieUp = true → 2 ≤ s.stage → ∀ tag reg v b e r p,
      (let k := s.configKnown reg
       ∃ t w, exec (.pcieConfigRequest false tag reg v b e r p) s = .next t ∧ w &&& k.1 = k.2 &&& k.1 ∧
         t.out = .tlpData tag (leBytes 4 w.toNat) :: s.out ∧ s.Only t [.out, .freeCtr]) ∧
      (∀ n, barIndex reg = some n → exec (.pcieConfigRequest true tag reg v b e r p) s = .next { s with
        host := { s.host with bars := setAt s.host.bars n (barAfter n v) } }) ∧
      (barIndex reg = none → e.msixEn = false → ∃ t, exec (.pcieConfigRequest true tag reg v b e r p) s = .next t ∧
        t.bit F.HST_PCIE_STAT_BME = b ∧ t.host = { s.host with
          atomicEn := e.atomicEn, msixEn := e.msixEn, funcMask := e.funcMask, d3 := e.d3
          mrrs := if [128, 256, 512, 1024, 2048, 4096].contains r then r else s.host.mrrs
          mps := if [128, 256, 512].contains p then p else s.host.mps } ∧
        s.Only t [.regs, .host] ∧ s.RegsBut t [K.HST_PCIE_STAT]))

/-- A serial port (R283 to R296): characters enter the receive frame or complete the echo, silences close frames, packets leave with
DE and their turnaround, polls are skipped or begun, and a port that is switched off drops what it holds. -/
def Obligations.SerialPortsFrameSendAndPoll : Prop :=
  ∀ (s : State) (n : Nat), s.up .edge = true →
    let p := s.sp n
    let on := n < 64 ∧ s.bit (F.SP_CTL_EN n) = true
    let framer := s.rd (F.SP_CTL_FRAMER n)
    let half := s.rd (F.SP_CTL_WIRE n) = 1
    let src := Src.serial n
    let left := fun (t : State) (x : SerialPort) => t.sp n = x ∧ (∀ m, m ≠ n → t.sp m = s.sp m) ∧ t.port.cf = s.port.cf ∧ t.port.dc = s.port.dc
    let fault := fun (t : State) (code : Nat) => t.flt = (s.raise code src []).flt
    let fed := fun (i : Instr) (x : SerialPort) => ∃ t, exec i s = .next t ∧ left t x ∧ s.Only t [.port, .stat]
    -- a port that is off
    (¬ on → (∀ b f e, exec (.serialRxChar n b f e) s = .next s) ∧ (∀ k, exec (.serialIdleTimeout n k) s = .next s) ∧
      exec (.serialTxStart n) s = .next s ∧ exec (.modbusPollPeriod n) s = .next s ∧ exec (.serialDisable n) s = .next s) ∧
    (on →
      -- a character
      (∀ b framing parity,
        let i := Instr.serialRxChar n b framing parity
        let err := (if framing then Flag.FRAMING else 0) ||| (if parity then Flag.PARITY else 0)
        (half → p.tx = none → p.de = true → fed i { p with quiet := false }) ∧
        (¬ half → s.rxFull n = true → ∃ t, exec i s = .next t ∧ t.bit (F.SP_STAT_OVR n) = true ∧
          left t { p with quiet := false, rxBytes := p.rxBytes + 1, lost := min 65535 (p.lost + 1), flags := p.flags ||| Flag.OVERRUN, open_ := true } ∧
          (if p.flags.testBit 7 then t.flt = s.flt else fault t Code.SP_OVERRUN) ∧ s.Only t [.regs, .flt, .port, .stat] ∧
          s.RegsBut t [K.SP_STAT n]) ∧
        (¬ half → s.rxFull n = false →
          (framer ≠ 1 → framer ≠ 2 → (framer = 4 → b.toNat ≠ s.rd (F.SP_FRAME_DELIM n)) → p.frame.length + 1 < s.rd (F.SP_FRAME_MAXLEN n) →
            fed i { p with frame := p.frame ++ [b], rxBytes := p.rxBytes + 1, flags := p.flags ||| err, open_ := true, quiet := false }) ∧
          (framer = 1 → p.open_ = false → isStart b = true →
            fed i { p with frame := [b], rxBytes := 1, flags := err, open_ := true, quiet := false }) ∧
          (framer = 1 → p.open_ = false → isStart b = false → fed i { p with quiet := false }) ∧
          (framer = 1 → p.open_ = true → 0x20 ≤ b.toNat → b.toNat ≤ 0x7E → isStart b = false → p.frame.length + 1 < 82 →
            fed i { p with frame := p.frame ++ [b], rxBytes := p.rxBytes + 1, flags := p.flags ||| err, quiet := false }) ∧
          (framer = 2 → p.skipping = true ∨ (p.open_ = false ∧ p.quiet = false) → fed i { p with quiet := false }) ∧
          (framer = 2 → p.skipping = false → p.open_ = true ∨ p.quiet = true → p.frame.length + 1 < 256 →
            fed i { p with
              frame := p.frame ++ [b], rxBytes := p.rxBytes + 1, open_ := true, gapSeen := false, quiet := false
              flags := p.flags ||| (if p.open_ && p.gapSeen then Flag.GAP else 0) ||| err })) ∧
        (∀ x, s.echoOn n = true → p.tx = some x → x.echoBad = false → x.echoed < x.bytes.length → x.sent = false →
          (getAt 0 x.bytes x.echoed = b → fed i { p with quiet := false, tx := some { x with echoed := x.echoed + 1 } }) ∧
          (getAt 0 x.bytes x.echoed ≠ b → ∃ t, exec i s = .next t ∧ t.bit (F.SP_STAT_ECHO n) = true ∧ fault t Code.SP_ECHO ∧
            left t { p with quiet := false, tx := some { x with echoBad := true, who := [] } } ∧
            s.Only t [.regs, .flt, .drv, .ord, .port, .stat] ∧ s.RegsBut t [K.SP_STAT n]))) ∧
      -- a silence
      (∀ k, (framer = 2 ∧ k = 0) ∨ (framer = 2 ∧ 3 ≤ k) ∨ framer = 1 ∨ (framer ≠ 2 ∧ (k ≠ 0 ∨ p.open_ = false)) →
        exec (.serialIdleTimeout n k) s = .next s) ∧
      (framer = 2 → exec (.serialIdleTimeout n 1) s = .next (s.setSp n { p with gapSeen := p.open_ })) ∧
      (framer = 2 → p.open_ = false → exec (.serialIdleTimeout n 2) s = .next (s.setSp n { p with skipping := false, quiet := true })) ∧
      (framer ≠ 1 → framer ≠ 2 → p.open_ = true → p.turn = false →
        (framer = 0 → p.flags = 0 → exec (.serialIdleTimeout n 0) s = .next ((s.setSp n p.cleared).pushRx n
          (withE (hdrWord n s.frame s.phase :: noE (dataWords p.frame))))) ∧
        (framer = 0 → p.flags = 0 → s.portsOff = false → (s.fold.heldPushes.any (fun h => h.head == n)) = true → ∃ t,
          exec (.serialIdleTimeout n 0) s = .next t ∧ left t p.cleared ∧
          t.fold = { s.fold with heldPushes := s.fold.heldPushes ++ [⟨n, withE (hdrWord n s.frame s.phase :: noE (dataWords p.frame)), 0, none⟩] } ∧
          s.Only t [.regs, .fold, .port, .stat] ∧ s.RegsBut t [K.FLD_CNT_QUOTA_WAIT, K.FLD_CNT_POOL_WAIT]) ∧
        (framer = 3 ∨ framer = 4 → s.bit (F.SP_CTL_BAD_DROP n) = true → ∃ t, exec (.serialIdleTimeout n 0) s = .next t ∧ left t p.cleared ∧
          t.bit (F.SP_STAT_BADFRAME n) = true ∧ t.rd (F.SP_STAT_BAD n) = satAdd 16 (s.rd (F.SP_STAT_BAD n)) 1 ∧ s.Only t [.regs, .port, .stat] ∧
          s.RegsBut t [K.SP_STAT n])) ∧
      -- sending
      (s.portsSend = false ∨ p.tx ≠ none ∨ p.turn = true ∨ (framer = 2 ∧ p.quiet = false) ∨
        (p.pollReq = none ∧ s.foldPackets (s.headFold (64 + n)) = 0) → exec (.serialTxStart n) s = .next s) ∧
      (s.portsSend = true → p.tx = none → p.turn = false → framer ≠ 2 ∨ p.quiet = true →
        let starts := fun (u : State) (bs : List Byte) (who : List Nat) (d : Option Nat) => ∃ t, exec (.serialTxStart n) s = .next t ∧
          (t.sp n).tx = some ⟨framerOut framer bs, 0, false, false, who, d⟩ ∧ (t.sp n).pollReq = none ∧ (t.sp n).quiet = false ∧
          (t.sp n).turn = (decide (framer = 2) && decide (getAt 0 bs 0 ≠ 0)) ∧
          (half → (t.sp n).de = true ∧ t.out = .serial n (framerOut framer bs) :: .de n true :: u.out) ∧
          (¬ half → (t.sp n).de = p.de ∧ t.out = .serial n (framerOut framer bs) :: u.out) ∧ t.fold = u.fold ∧
          (∀ m, m ≠ n → t.sp m = s.sp m)
        (∀ d bs, p.pollReq = some (d, bs) → starts s bs [] (some d)) ∧
        (∀ ws u, p.pollReq = none → s.popPacket (64 + n) = some (ws, u) →
          let bs := dataBytes ws
          (bs ≠ [] → framer ≠ 2 ∨ (2 ≤ bs.length ∧ bs.length ≤ 254) → starts u bs (whosOf ws) none) ∧
          (bs ≠ [] → framer = 2 → bs.length < 2 ∨ 254 < bs.length → ∃ t, exec (.serialTxStart n) s = .next t ∧ t.port = s.port ∧
            t.bit (F.SP_STAT_TXBAD n) = true ∧ (∃ x ∈ t.flt.raised, x.code = Code.SP_TX_BAD ∧ x.src = src)))) ∧
      -- a poll pass
      (s.bit (F.SP_POLL_PEN n) = false ∨ framer ≠ 2 → exec (.modbusPollPeriod n) s = .next s) ∧
      (s.bit (F.SP_POLL_PEN n) = true → framer = 2 →
        (∀ j, p.pass = some j → ∃ t, exec (.modbusPollPeriod n) s = .next t ∧ t.bit (F.SP_STAT_PSKIP n) = true ∧ fault t Code.SP_POLL_SKIP ∧
          s.Only t [.regs, .flt] ∧ s.RegsBut t [K.SP_STAT n]) ∧
        (p.pass = none → s.pollFrom n 256 0 = none → exec (.modbusPollPeriod n) s = .next (s.setSp n { p with pass := none })) ∧
        (∀ j, p.pass = none → s.pollFrom n 256 0 = some j → ∃ t, exec (.modbusPollPeriod n) s = .next t ∧ left t { p with pass := some j } ∧
          s.Only t [.regs, .flt, .drv, .ord, .fold, .port, .stat, .freeCtr])) ∧
      -- switching off
      (p.turn = false → p.pollReq = none → ∃ t, exec (.serialDisable n) s = .next t ∧ t.bit (F.SP_CTL_EN n) = false ∧
        left t { p.cleared with tx := none, de := false, skipping := false, pass := none } ∧
        t.out = (if p.de then .de n false :: s.out else s.out) ∧
        t.rd (F.SP_STAT_BAD n) = (if p.open_ then satAdd 16 (s.rd (F.SP_STAT_BAD n)) 1 else s.rd (F.SP_STAT_BAD n)) ∧
        s.Only t [.regs, .drv, .ord, .fold, .port, .stat, .out] ∧ s.RegsBut t [K.SP_CTL n, K.SP_STAT n])) ∧
    -- what is being sent
    (let busy := ∃ x, p.tx = some x ∧ x.sent = false
     (p.tx = none ∨ (∃ x, p.tx = some x ∧ x.sent = true) → exec (.serialTxDone n) s = .next s) ∧
     (∀ x, p.tx = some x → x.sent = false →
       (x.echoBad = true ∨ s.echoOn n = false ∨ x.bytes.length ≤ x.echoed → ∃ t, exec (.serialTxDone n) s = .next t ∧ left t { p with tx := none } ∧
         s.Only t [.drv, .ord, .port, .stat]) ∧
       (x.echoBad = false → s.echoOn n = true → x.echoed < x.bytes.length → ∃ t, exec (.serialTxDone n) s = .next t ∧
         left t { p with tx := some { x with sent := true } } ∧ s.Only t [.port, .stat])) ∧
     (p.de = false ∨ busy ∨ ¬ half → exec (.serialDeLagEnd n) s = .next s) ∧
     (p.de = true → ¬ busy → half → exec (.serialDeLagEnd n) s = .next { s.setSp n { p with de := false } with out := .de n false :: s.out }) ∧
     (p.tx = none ∨ busy ∨ s.echoOn n = false → exec (.spEcho n) s = .next s) ∧
     (∀ x, p.tx = some x → x.sent = true → s.echoOn n = true →
       (x.bytes.length ≤ x.echoed → exec (.spEcho n) s = .next s) ∧
       (x.echoed < x.bytes.length → ∃ t, exec (.spEcho n) s = .next t ∧ left t { p with tx := none } ∧ t.bit (F.SP_STAT_ECHO n) = true ∧
         fault t Code.SP_ECHO ∧ s.Only t [.regs, .flt, .drv, .ord, .port] ∧ s.RegsBut t [K.SP_STAT n])) ∧
     (busy ∨ p.turn = false → exec (.spNoReply n) s = .next s) ∧
     (¬ busy → p.turn = true → ∃ t, exec (.spNoReply n) s = .next t ∧ left t { p with turn := false, turnDrover := none } ∧
       t.bit (F.SP_STAT_TURN n) = false ∧ t.bit (F.SP_STAT_NOREPLY n) = true ∧ fault t Code.SP_NO_REPLY ∧
       (p.turnDrover.isSome = true → t.bit (F.SP_STAT_POLLERR n) = true) ∧ (p.turnDrover = none → t.drv = s.drv) ∧
       s.Only t [.regs, .flt, .drv, .port] ∧ s.RegsBut t [K.SP_STAT n])) ∧
    -- each command completes in every state, and touches these units only
    (∀ b f e k, ∀ i ∈ [Instr.serialRxChar n b f e, .serialIdleTimeout n k, .serialTxStart n], ∃ t, exec i s = .next t ∧
      s.Only t [.regs, .flt, .drv, .ord, .fold, .net, .stat, .twin, .port, .out, .freeCtr]) ∧
    (∀ i ∈ [Instr.serialTxDone n, .serialDeLagEnd n, .spEcho n, .spNoReply n, .modbusPollPeriod n, .serialDisable n], ∃ t,
      exec i s = .next t ∧ s.Only t [.regs, .flt, .drv, .ord, .fold, .stat, .port, .out, .freeCtr])

/-- A CAN FD controller (R298 to R304): frames received and sent, errors and their counters, bus-off and recovery, switching off. -/
def Obligations.CanControllersSendReceiveAndRecover : Prop :=
  ∀ (s : State) (n : Nat), s.up .edge = true →
    let c := s.cf n
    let on := n < 16 ∧ s.bit (F.CF_CTL_EN n) = true
    let busOff := s.rd (F.CF_ERR_STATE n) = 2
    let src := Src.can n
    let left := fun (t : State) (x : CanCtl) => t.cf n = x ∧ (∀ m, m ≠ n → t.cf m = s.cf m) ∧ t.port.sp = s.port.sp ∧ t.port.dc = s.port.dc
    let raised := fun (t : State) (codes : List Nat) => ∃ xs, t.flt = { s.flt with raised := s.flt.raised ++ xs } ∧
      xs.map (fun x => (x.code, x.src)) = codes.map (fun k => (k, src))
    -- the counters and the state they show, when no threshold is crossed upwards
    let shows := fun (t : State) (tec rec_ : Nat) => t.rd (F.CF_ERR_TEC n) = min tec 255 ∧ t.rd (F.CF_ERR_REC n) = min rec_ 127 ∧
      t.rd (F.CF_ERR_RP n) = (if 127 < rec_ then 1 else 0)
    -- receiving
    (¬ on ∨ busOff → (∀ w d, exec (.canRxFrame n w d) s = .next s) ∧ (∀ l i, exec (.canRxError n l i) s = .next s) ∧ exec (.canTxStart n) s = .next s) ∧
    (on → ¬ busOff → ∀ w data, c.tec ≤ 127 → c.rec_ ≤ 127 →
      let went := fun (t : State) => left t { c with rec_ := c.rec_ - 1 } ∧ shows t c.tec (c.rec_ - 1) ∧ t.rd (F.CF_ERR_STATE n) = 0
      let i := Instr.canRxFrame n w data
      (s.canFilter n w = none → ∃ t, exec i s = .next t ∧ went t ∧ s.Only t [.regs, .port] ∧ s.RegsBut t [K.CF_ERR n]) ∧
      (∀ k, s.canFilter n w = some k →
        (4 ≤ (s.fold.heldPushes.filter (fun p => p.head == 128 + n)).length → ∃ t, exec i s = .next t ∧ went t ∧
          t.bit (F.CF_STAT_RX_OVR n) = true ∧ t.rd (F.CF_STAT_LOST n) = satAdd 16 (s.rd (F.CF_STAT_LOST n)) 1 ∧ raised t [Code.CF_RX_OVR] ∧
          s.Only t [.regs, .flt, .port, .stat] ∧ s.RegsBut t [K.CF_ERR n, K.CF_STAT n]) ∧
        (∀ h, s.fold.heldPushes = [h] → h.head = 128 + n → s.portsOff = false →
          let word : BitVec 64 := BitVec.ofNat 64 (k * 2 ^ 40 + nbits w 39 36 * 2 ^ 36 + w % 2 ^ 34)
          ∃ t, exec i s = .next t ∧ went t ∧ t.fold = { s.fold with heldPushes :=
            [h, ⟨128 + n, withE (hdrWord (128 + n) s.frame s.phase :: (word, 0xB8) :: noE (dataWords data)), 0, none⟩] } ∧
          s.Only t [.regs, .fold, .port, .stat] ∧ s.RegsBut t [K.CF_ERR n, K.FLD_CNT_QUOTA_WAIT, K.FLD_CNT_POOL_WAIT]))) ∧
    (on → ¬ busOff → 127 < c.rec_ → ∀ w data, s.canFilter n w = none → ∃ t, exec (.canRxFrame n w data) s = .next t ∧
      119 ≤ (t.cf n).rec_ ∧ (t.cf n).rec_ ≤ 127 ∧ t.freeCtr = s.freeCtr + 1) ∧
    (∀ lec inc, lec = 0 ∨ 6 < lec → exec (.canRxError n lec inc) s = .next s) ∧
    (on → ¬ busOff → ∀ lec inc, 1 ≤ lec → lec ≤ 6 → let r := min 255 (c.rec_ + inc)
      (c.tec ≤ 127 → r ≤ 127 → (96 ≤ c.rec_ ∨ r < 96) → ∃ t, exec (.canRxError n lec inc) s = .next t ∧ t.rd (F.CF_ERR_LEC n) = lec ∧
        left t { c with rec_ := r } ∧ shows t c.tec r ∧ t.rd (F.CF_ERR_STATE n) = 0 ∧ s.Only t [.regs, .port] ∧ s.RegsBut t [K.CF_ERR n]) ∧
      (c.rec_ < 96 → 127 < r → s.rd (F.CF_ERR_STATE n) = 0 → ∃ t, exec (.canRxError n lec inc) s = .next t ∧ t.rd (F.CF_ERR_LEC n) = lec ∧
        left t { c with rec_ := r } ∧ shows t c.tec r ∧ t.rd (F.CF_ERR_STATE n) = 1 ∧ t.bit (F.CF_STAT_WARN n) = true ∧
        t.bit (F.CF_STAT_PASSIVE n) = true ∧ raised t [Code.CF_WARN, Code.CF_ERR_PASSIVE] ∧ s.Only t [.regs, .flt, .port] ∧
        s.RegsBut t [K.CF_ERR n, K.CF_STAT n])) ∧
    -- sending
    (s.canListens n = true ∨ s.yielding = true → exec (.canTxStart n) s = .next s) ∧
    (on → ¬ busOff → s.canListens n = false → s.yielding = false → s.foldPackets (s.headFold (144 + n)) = 0 →
      (c.sending = true ∨ c.txBuf = [] → exec (.canTxStart n) s = .next s) ∧
      (∀ x, c.sending = false → c.txBuf = [x] → s.bit (F.CF_CTL_TDC_EN n) = false ∨ CanW.brs x.word = false →
        exec (.canTxStart n) s = .next { s.setCf n { c with sending := true } with out := .can n (s.canSent n x) x.data :: s.out }) ∧
      -- a frame that switches rates measures the loop delay: the value shown is free
      (∀ x, c.sending = false → c.txBuf = [x] → s.bit (F.CF_CTL_TDC_EN n) = true → CanW.brs x.word = true → ∃ t,
        exec (.canTxStart n) s = .next t ∧ left t { c with sending := true } ∧ t.out = .can n (s.canSent n x) x.data :: s.out ∧
        s.Only t [.regs, .port, .out, .freeCtr] ∧ s.RegsBut t [K.CF_TDC n]) ∧
      (∀ x y, c.sending = false → c.txBuf = [x, y] → ∃ t, exec (.canTxStart n) s = .next t ∧
        (let z := if canArb y.word < canArb x.word then (y, x) else (x, y)
         left t { c with txBuf := [z.1, z.2], sending := true } ∧ t.out = .can n (s.canSent n z.1) z.1.data :: s.out) ∧
        s.Only t [.regs, .port, .out, .freeCtr] ∧ s.RegsBut t [K.CF_TDC n])) ∧
    (∀ ws u, on → ¬ busOff → s.canListens n = false → s.yielding = false → c.sending = false → c.txBuf = [] → s.bit (F.CF_CTL_TXORD n) = false →
      s.popPacket (144 + n) = some (ws, u) →
      let w := (getAt ⟨0, 0, false, 0, none⟩ ws 0).w.toNat
      let bs := dataBytes (ws.drop 1)
      s.canBad n w bs.length = false → ∃ t, exec (.canTxStart n) s = .next t ∧
        (let d := if CanW.rtr w then [] else slice bs 0 (canLen bs.length)
         let x : CanTx := ⟨w, d, whosOf ws, 0⟩
         left t { c with txBuf := [x], sending := true } ∧ t.out = .can n (u.canSent n x) d :: u.out) ∧ t.fold = u.fold) ∧
    (c.sending = false ∨ c.txBuf = [] → exec (.canTxDone n) s = .next s ∧ ∀ l b, exec (.canTxError n l b) s = .next s) ∧
    (∀ l b, l = 0 ∨ 6 < l → exec (.canTxError n l b) s = .next s) ∧
    (∀ x rest, c.sending = true → c.txBuf = x :: rest →
      (¬ busOff → c.tec ≤ 128 → c.rec_ ≤ 127 → ∃ t, exec (.canTxDone n) s = .next t ∧
        left t { c with txBuf := rest, sending := false, tec := c.tec - 1 } ∧ shows t (c.tec - 1) c.rec_ ∧ t.rd (F.CF_ERR_STATE n) = 0 ∧
        s.Only t [.regs, .drv, .ord, .port, .stat] ∧ s.RegsBut t [K.CF_ERR n]) ∧
      (∀ lec counts, 1 ≤ lec → lec ≤ 6 →
        let tec := if counts then c.tec + 8 else c.tec
        let most := s.rd (F.CF_CTL_RETX_MAX n)
        let again := { x with attempts := x.attempts + 1 }
        (¬ busOff → tec ≤ 127 → c.rec_ ≤ 127 → (96 ≤ c.tec ∨ tec < 96) → s.bit (F.CF_CTL_EN n) = true → most = 0 ∨ x.attempts + 1 < most →
          ∃ t, exec (.canTxError n lec counts) s = .next t ∧ t.rd (F.CF_ERR_LEC n) = lec ∧
          left t { c with txBuf := again :: rest, sending := false, tec := tec } ∧ shows t tec c.rec_ ∧ s.Only t [.regs, .port] ∧
          s.RegsBut t [K.CF_ERR n]) ∧
        (¬ busOff → tec ≤ 127 → c.rec_ ≤ 127 → (96 ≤ c.tec ∨ tec < 96) → s.bit (F.CF_CTL_EN n) = true → most ≠ 0 → most ≤ x.attempts + 1 →
          ∃ t, exec (.canTxError n lec counts) s = .next t ∧ left t { c with txBuf := rest, sending := false, tec := tec } ∧
          t.bit (F.CF_STAT_ABANDON n) = true ∧ t.rd (F.CF_STAT_LOST n) = satAdd 16 (s.rd (F.CF_STAT_LOST n)) 1 ∧
          raised t [Code.CF_TX_ABANDON] ∧ s.Only t [.regs, .flt, .drv, .ord, .port, .stat] ∧ s.RegsBut t [K.CF_ERR n, K.CF_STAT n]) ∧
        (255 < tec → ∃ t, exec (.canTxError n lec counts) s = .next t ∧ t.rd (F.CF_ERR_STATE n) = 2 ∧ t.bit (F.CF_STAT_BUSOFF n) = true ∧
          left t { c with txBuf := [], sending := false, tec := tec, recovering := s.bit (F.CF_CTL_AUTO_REC n) } ∧
          (∃ y ∈ t.flt.raised, y.code = Code.CF_BUS_OFF ∧ y.src = src) ∧ s.Only t [.regs, .flt, .drv, .ord, .port, .stat] ∧
          s.RegsBut t [K.CF_ERR n, K.CF_STAT n]))) ∧
    -- recovery and switching off
    (16 ≤ n ∨ ¬ busOff → exec (.canRecover n) s = .next s ∧ exec (.canRecoveryDone n) s = .next s) ∧
    (n < 16 → busOff → exec (.canRecover n) s = .next (s.setCf n { c with recovering := true }) ∧
      (c.recovering = false → exec (.canRecoveryDone n) s = .next s) ∧
      (c.recovering = true → ∃ t, exec (.canRecoveryDone n) s = .next t ∧ left t { c with tec := 0, rec_ := 0, recovering := false } ∧
        t.rd (F.CF_ERR_STATE n) = 0 ∧ shows t 0 0 ∧ s.Only t [.regs, .port] ∧ s.RegsBut t [K.CF_ERR n])) ∧
    (¬ on → exec (.canDisable n) s = .next s) ∧
    (on → ∃ t, exec (.canDisable n) s = .next t ∧ t.bit (F.CF_CTL_EN n) = false ∧
      left t { c with txBuf := if c.sending then c.txBuf.take 1 else [] } ∧
      (c.txBuf = [] → t.flt = s.flt) ∧ (c.sending = false → c.txBuf ≠ [] → t.bit (F.CF_STAT_ABANDON n) = true) ∧
      s.Only t [.regs, .flt, .drv, .ord, .port, .stat] ∧ s.RegsBut t [K.CF_CTL n, K.CF_STAT n]) ∧
    -- each command completes in every state, and touches these units only
    (∀ w d, ∀ i ∈ [Instr.canRxFrame n w d, .canTxStart n], ∃ t, exec i s = .next t ∧
      s.Only t [.regs, .flt, .drv, .ord, .fold, .net, .stat, .twin, .port, .out, .freeCtr]) ∧
    (∀ l k b, ∀ i ∈ [Instr.canRxError n l k, .canTxDone n, .canTxError n l b, .canRecover n, .canRecoveryDone n, .canDisable n], ∃ t,
      exec i s = .next t ∧ s.Only t [.regs, .flt, .drv, .ord, .stat, .port])

/-- A discrete chain (R305 to R312): a frame starts with the output image or the safe image, one that comes too soon is skipped, and
its end takes the scan and arms the comparison. -/
def Obligations.ChainFramesCarryTheImageAndTheScan : Prop :=
  ∀ (s : State) (n : Nat), s.up .edge = true →
    let c := s.dc n
    let left := fun (t : State) (x : DcChain) => t.dc n = x ∧ (∀ m, m ≠ n → t.dc m = s.dc m) ∧ t.port.sp = s.port.sp ∧ t.port.cf = s.port.cf
    let soon := c.inFrame = true ∨ (∃ t, c.lastStart = some t ∧ s.ticks < t + max 1000 (130 * s.rd (F.DC_CTL_DIV n)))
    let phased := s.rd (F.DC_CTL_SCHED n) = 1
    (s.dcRuns n = false ∨ s.dcHeld n = true ∨ (¬ phased ∧ c.inFrame = true) → exec (.dcFrameStart n) s = .next s) ∧
    (s.dcRuns n = true → s.dcHeld n = false →
      (phased → soon → ∃ t, exec (.dcFrameStart n) s = .next t ∧ t.bit (F.DC_STAT_OVERRUN n) = true ∧
        t.reg (K.DC_CNT_OVERRUN n) = BitVec.ofNat 32 (satAdd 32 (s.reg (K.DC_CNT_OVERRUN n)).toNat 1) ∧
        t.flt = (s.raise Code.DC_OVERRUN (Src.chain n) []).flt ∧ s.Only t [.regs, .flt, .stat] ∧
        s.RegsBut t [K.DC_STAT n, K.DC_CNT_OVERRUN n]) ∧
      ((phased ∧ ¬ soon) ∨ (¬ phased ∧ c.inFrame = false) →
        let begun := { c with inFrame := true, atFrame := s.frame, atPhase := s.phase, lastStart := some s.ticks }
        (s.chainSafe n = true → ∃ t, exec (.dcFrameStart n) s = .next t ∧ t.out = .chain n (s.mask128 (F.DC_SAFE_SAFE n)) true :: s.out ∧
          left t { begun with carried := s.mask128 (F.DC_SAFE_SAFE n), q := true, outNow := [] } ∧ s.Only t [.port, .out]) ∧
        (s.chainSafe n = false → let q := s.bit (F.DC_CTL_OUT_EN n)
          ∃ t, exec (.dcFrameStart n) s = .next t ∧ t.out = .chain n c.outImg q :: s.out ∧
          left t { begun with carried := c.outImg, q := q, outNow := if q then c.outPend else [], outPend := if q then [] else c.outPend } ∧
          s.Only t [.port, .out]))) ∧
    (∀ din, s.dcRuns n = false ∨ c.inFrame = false → exec (.dcFrameEnd n din) s = .next s) ∧
    (∀ din, s.dcRuns n = true → c.inFrame = true → din < 2 ^ 128 →
      ∃ t, exec (.dcFrameEnd n din) s = .next t ∧ t.reg (K.DC_CNT_SCAN n) = BitVec.ofNat 32 (satAdd 32 (s.reg (K.DC_CNT_SCAN n)).toNat 1) ∧
      (t.dc n).inFrame = false ∧ (t.dc n).latched = (if c.q then some c.carried else none) ∧
      (t.dc n).scans = ((din, c.atFrame, c.atPhase) :: c.scans).take 16 ∧ (t.dc n).outNow = [] ∧
      (t.dc n).outSent = (if c.latched.isSome then [] else c.outSent) ++ c.outNow ∧
      (s.rd (F.DC_CTL_DEB n) = 0 → c.inImg < 2 ^ 128 → (t.dc n).inImg = din) ∧
      (∀ l, c.latched = some l → (t.dc n).unequal = (din ^^^ l) &&& s.mask128 (F.DC_OUTMASK_OUT n) ∧
        ((din ^^^ l) &&& s.mask128 (F.DC_OUTMASK_OUT n) &&& (2 ^ 128 - 1 - c.unequal % 2 ^ 128) ≠ 0 → t.bit (F.DC_STAT_MISM n) = true ∧
          ∃ x ∈ t.flt.raised, x.code = Code.DC_MISMATCH ∧ x.src = Src.chain n)) ∧
      (c.latched = none → (t.dc n).unequal = c.unequal) ∧ (∀ m, m ≠ n → t.dc m = s.dc m) ∧
      s.Only t [.regs, .flt, .drv, .ord, .fold, .port, .stat, .freeCtr]) ∧
    -- each command completes in every state, and touches these units only
    (∃ t, exec (.dcFrameStart n) s = .next t ∧ s.Only t [.regs, .flt, .stat, .port, .out]) ∧
    (∀ din, ∃ t, exec (.dcFrameEnd n din) s = .next t ∧ s.Only t [.regs, .flt, .drv, .ord, .fold, .stat, .port, .freeCtr])

/-- A link trains (R234, R235): LNK_CTL enables and disables it, a lane goes through its steps, markers give codeword lock and
the bond, INIT frames in both directions bring the link up, and a link that does not come up reports it once and starts again. -/
def Obligations.TrainingBringsLinksUp : Prop :=
  ∀ s : State, s.up .link = true → s.net.lanes.length = 5 → s.net.links.length = 3 →
    let on := fun (k : Nat) => linkEn (s.reg K.LNK_CTL) k
    let st := fun (t : State) (k : Nat) => t.rd (F.LNK_LINK_STAT_STATE k)
    -- the lanes of link `k` are at step 1 again, and nothing else of the lanes has changed
    let again := fun (t : State) (k : Nat) (left : Option (Bool × Nat) → Option (Bool × Nat)) => (∀ l, l < 5 →
      (l ∈ lanesOf k → t.lane l = { s.lane l with
          clock := false, marker := none, lockTimer := false, ue := 0, ready := false, inject := left (s.lane l).inject } ∧
        t.bit (F.LNK_LANE_STAT_BLOCK l) = false ∧ t.bit (F.LNK_LANE_STAT_CWLOCK l) = false ∧ t.bit (F.LNK_LANE_STAT_INBOND l) = false) ∧
      (l ∉ lanesOf k → t.lane l = s.lane l)) ∧ t.rd (F.LNK_LINK_STAT_RXL k) = 0 ∧ t.rd (F.LNK_LINK_STAT_TXL k) = 0
    let anew := fun (t : State) (k : Nat) => again t k (fun x => x)
    -- a lane of an enabled link sends codewords: one that an armed injection corrupts leaves at once
    let fec := fun (x : Option (Bool × Nat)) => match x with | some (true, n) => some n | _ => none
    let fired := fun (k : Nat) => ((lanesOf k).filterMap (fun l => (fec (s.lane l).inject).map (Out.codewordError l))).reverse
    let statOf := fun (k : Nat) => K.LNK_LINK_STAT k :: (lanesOf k).map K.LNK_LANE_STAT
    let others := fun (t : State) (k : Nat) => ∀ j, j ≠ k → t.link j = s.link j
    -- a link in training
    (∀ value, (∀ j, j < 3 → linkEn value j = on j) →
      exec (.linkEnable value) s = .next (s.setReg K.LNK_CTL (value &&& 0xF0000000#32))) ∧
    (∀ value k, k < 3 → (∀ j, j < 3 → j ≠ k → linkEn value j = on j) →
      (linkEn value k = true → on k = false → ∃ t, exec (.linkEnable value) s = .next t ∧
        t.reg K.LNK_CTL = value &&& 0xF0000000#32 ∧ st t k = 1 ∧ t.link k = { (s.link k).fresh with failRaised := false } ∧ others t k ∧
        again t k (fun x => if (fec x).isSome then none else x) ∧ t.out = fired k ++ s.out ∧
        s.Only t [.regs, .net, .out] ∧ s.RegsBut t (K.LNK_CTL :: statOf k)) ∧
      (linkEn value k = false → on k = true → s.linkUp k = false → ∃ t, exec (.linkEnable value) s = .next t ∧
        t.reg K.LNK_CTL = value &&& 0xF0000000#32 ∧ st t k = 0 ∧
        t.link k = (s.link k).fresh ∧ others t k ∧ anew t k ∧ s.Only t [.regs, .net] ∧ s.RegsBut t (K.LNK_CTL :: statOf k))) ∧
    (∀ lane, lane < 5 → on (linkOfLane lane) = true →
      exec (.clockRecovered lane) s = .next (s.setLane lane { s.lane lane with clock := true })) ∧
    (∀ lane, 5 ≤ lane ∨ on (linkOfLane lane) = false → exec (.clockRecovered lane) s = .next s ∧ ∀ g, exec (.blockLock lane g) s = .next s) ∧
    (∀ lane, lane < 5 → on (linkOfLane lane) = true → (s.lane lane).clock = true →
      (∃ t, exec (.blockLock lane true) s = .next t ∧ t.bit (F.LNK_LANE_STAT_BLOCK lane) = true ∧
        t.net = (s.setLane lane { s.lane lane with lockTimer := false }).net ∧ s.Only t [.regs, .net] ∧ s.RegsBut t [K.LNK_LANE_STAT lane]) ∧
      (s.bit (F.LNK_LANE_STAT_BLOCK lane) = false → exec (.blockLock lane false) s = .next s) ∧
      (s.bit (F.LNK_LANE_STAT_BLOCK lane) = true → ∃ t, exec (.blockLock lane false) s = .next t ∧
        t.bit (F.LNK_LANE_STAT_BLOCK lane) = false ∧ t.bit (F.LNK_LANE_STAT_CWLOCK lane) = false ∧
        t.reg (K.LNK_LANE_CNT_LOCK_LOSS lane) = BitVec.ofNat 32 (satAdd 32 (s.reg (K.LNK_LANE_CNT_LOCK_LOSS lane)).toNat 1) ∧
        t.net = (s.setLane lane { s.lane lane with lockTimer := s.bit (F.LNK_LANE_STAT_INBOND lane), marker := none, ready := false }).net ∧
        s.Only t [.regs, .net, .stat] ∧ s.RegsBut t [K.LNK_LANE_STAT lane, K.LNK_LANE_CNT_LOCK_LOSS lane])) ∧
    -- markers
    (∀ lane w0 w1 w2 w3, 5 ≤ lane ∨ s.bit (F.LNK_LANE_STAT_BLOCK lane) = false ∨ w0 % 2 ^ 64 ≠ 0x9416C35A0F69E1D2 ∨
      w3 % 2 ^ 64 ≠ 0x6BE93CA5F0961E2D ∨ (w1 + w2) % 2 ^ 64 ≠ 2 ^ 64 - 1 ∨ nbits w1 63 56 ≠ 0xA5 →
      exec (.laneMarkerRx lane w0 w1 w2 w3) s = .next s) ∧
    (∀ lane w1 w2, lane < 5 → s.bit (F.LNK_LANE_STAT_BLOCK lane) = true → (w1 + w2) % 2 ^ 64 = 2 ^ 64 - 1 → nbits w1 63 56 = 0xA5 →
      let i := Instr.laneMarkerRx lane 0x9416C35A0F69E1D2 w1 w2 0x6BE93CA5F0961E2D
      let k := linkOfLane lane
      let count := nbits w1 31 0
      let inSeq := (s.lane lane).marker = some ((count + 2 ^ 32 - 1) % 2 ^ 32)
      let shown := fun (t : State) => t.rd (F.LNK_LANE_STAT_RSIDE lane) = nbits w1 55 54 ∧ t.rd (F.LNK_LANE_STAT_RLANE lane) = nbits w1 53 53 ∧
        t.rd (F.LNK_LANE_STAT_RNODE lane) = nbits w1 50 40 ∧ t.lane lane = { s.lane lane with marker := some count }
      (¬ inSeq → s.bit (F.LNK_LANE_STAT_CWLOCK lane) = false → ∃ t, exec i s = .next t ∧ shown t ∧ t.bit (F.LNK_LANE_STAT_CWLOCK lane) = false ∧
        s.Only t [.regs, .net] ∧ s.RegsBut t [K.LNK_LANE_STAT lane]) ∧
      (inSeq → nbits w1 55 54 = wantedSide k → st s k = 1 → s.bit (F.LNK_LANE_STAT_INBOND lane) = false →
        let o := otherLane lane
        -- the other lane has passed too, and its last marker had this count: a marker pair, by which the lanes are deskewed
        let passed := lane < 4 ∧ (s.bit (F.LNK_LANE_STAT_INBOND o) = true ∨ (s.lane o).ready = true)
        let pair := (s.lane o).marker = some count
        let took := fun (t : State) (joins : Bool) => t.rd (F.LNK_LANE_STAT_RSIDE lane) = nbits w1 55 54 ∧
          t.rd (F.LNK_LANE_STAT_RLANE lane) = nbits w1 53 53 ∧ t.rd (F.LNK_LANE_STAT_RNODE lane) = nbits w1 50 40 ∧
          t.lane lane = { s.lane lane with marker := some count, ready := !joins } ∧ t.bit (F.LNK_LANE_STAT_CWLOCK lane) = true ∧
          t.bit (F.LNK_LANE_STAT_MISWIRE lane) = false ∧ t.bit (F.LNK_LANE_STAT_INBOND lane) = joins ∧ st t k = 1 ∧
          (k < 2 → t.bit (F.LNK_LINK_STAT_SWAP k) = decide (nbits w1 53 53 ≠ laneBit lane)) ∧ (t.link k).rnode = nbits w1 50 40 ∧
          (joins = true → t.rd (F.LNK_LINK_STAT_RXL k) = t.rxBond k) ∧ s.Only t [.regs, .net]
        ((s.lane lane).ready = false → ¬ passed → ∃ t, exec i s = .next t ∧ took t true ∧ s.RegsBut t [K.LNK_LANE_STAT lane, K.LNK_LINK_STAT k]) ∧
        (passed → ¬ pair → ∃ t, exec i s = .next t ∧ took t false ∧ s.RegsBut t [K.LNK_LANE_STAT lane, K.LNK_LINK_STAT k]) ∧
        (passed → pair → ∃ t, exec i s = .next t ∧ took t true ∧ t.bit (F.LNK_LANE_STAT_INBOND o) = true ∧
          s.RegsBut t [K.LNK_LANE_STAT lane, K.LNK_LANE_STAT o, K.LNK_LINK_STAT k])) ∧
      (inSeq → nbits w1 55 54 ≠ wantedSide k → ∃ t, exec i s = .next t ∧ shown t ∧ t.bit (F.LNK_LANE_STAT_MISWIRE lane) = true ∧
        t.bit (F.LNK_LANE_STAT_INBOND lane) = s.bit (F.LNK_LANE_STAT_INBOND lane) ∧
        t.flt = (if s.bit (F.LNK_LANE_STAT_MISWIRE lane) then s.flt else (s.raise Code.LNK_MISWIRE (Src.lane lane) []).flt) ∧
        s.Only t [.regs, .flt, .net] ∧ s.RegsBut t [K.LNK_LANE_STAT lane])) ∧
    -- INIT frames
    (∀ k, k < 3 → st s k = 1 → 0 < s.rxBond k →
      -- the blocks of a frame, behind an idle block, on the lanes of the transmit bond, `n` blocks after the last markers
      let sends := fun (t : State) (n : Nat) (f : Frame) => Out.frame k f (dealBlocks (t.txLanes k) (s.link k).txMarker n (.idle :: f.blocks))
      let length := fun (f : Frame) => f.blocks.length + 1
      let n := (s.link k).txBlocks
      -- units that frames of before still hold count as sent and not freed (log entry 63)
      let empty := { (s.link k).fresh with failRaised := false, rxFreed := (List.range 4).map (fun q => (256 - s.occupied k q % 256) % 256) }
      let limits := mkFrame 5 0 0 true (credWord empty) (leBytes 8 0x4080E0E000000000)
      let init := mkFrame 3 0 0 true (credWord (s.link k)) (leBytes 8 (2 ^ 56 + k * 2 ^ 46 + s.rxBond k * 2 ^ 44 + s.nodeId * 2 ^ 32))
      let ended := fun (t : State) (n : Nat) => st t k = 2 ∧ t.rd (F.LNK_LINK_STAT_OUT k) = 0 ∧
        t.link k = { empty with ackOwed := false, txBlocks := n + length limits } ∧ others t k ∧ s.Only t [.regs, .net, .out] ∧
        s.RegsBut t [K.LNK_LINK_STAT k]
      ((s.link k).initRcvd = false → exec (.linkInitTx k) s = .next { s.setLink k { s.link k with
          ackOwed := false, initSent := true, txBlocks := n + length init } with out := sends s n init :: s.out }) ∧
      ((s.link k).initRcvd = true → k = 2 ∨ s.wrapped k = false → ∃ t, exec (.linkInitTx k) s = .next t ∧ ended t (n + length init) ∧
        t.rd (F.LNK_LINK_STAT_TXL k) = s.rd (F.LNK_LINK_STAT_TXL k) ∧
        t.out = sends t (n + length init) limits :: sends t n init :: s.out) ∧
      (∀ rx f, s.received k rx = some f → f.kind = 3 → f.crc = f.good → f.formOk = true → (s.link k).corrected = false →
        let lanes := nbits (leNum f.body) 45 44
        let seen := (s.link k).seen + 1
        (lanes = 0 → exec (.initRx k rx) s = .next (s.setLink k { s.link k with seen := seen })) ∧
        (0 < lanes → (s.link k).initSent = false → ∃ t, exec (.initRx k rx) s = .next t ∧ st t k = 1 ∧
          t.rd (F.LNK_LINK_STAT_TXL k) = lanes ∧ t.net = (s.setLink k { s.link k with initRcvd := true, seen := seen }).net ∧
          s.Only t [.regs, .net] ∧ s.RegsBut t [K.LNK_LINK_STAT k]) ∧
        (0 < lanes → (s.link k).initSent = true → k = 2 ∨ s.wrapped k = false → ∃ t, exec (.initRx k rx) s = .next t ∧ ended t n ∧
          t.rd (F.LNK_LINK_STAT_TXL k) = lanes ∧ t.out = sends t n limits :: s.out))) ∧
    (∀ k rx, 3 ≤ k ∨ s.rxBond k = 0 ∨ (∀ f, s.received k rx = some f → f.kind ≠ 3) → exec (.initRx k rx) s = .next s) ∧
    (∀ k, 3 ≤ k ∨ st s k ≠ 1 ∨ s.rxBond k = 0 → exec (.linkInitTx k) s = .next s) ∧
    -- a link that does not come up
    (∀ k, 3 ≤ k ∨ on k = false ∨ s.linkUp k = true → exec (.lnkTrainFail k) s = .next s) ∧
    (∀ k, k < 3 → on k = true → s.linkUp k = false → ∃ t, exec (.lnkTrainFail k) s = .next t ∧ st t k = 3 ∧
      t.net = (s.setLink k { s.link k with failRaised := true }).net ∧
      t.flt = (if (s.link k).failRaised then s.flt else (s.raise Code.LNK_TRAIN_FAIL (Src.link k) []).flt) ∧
      s.Only t [.regs, .flt, .net] ∧ s.RegsBut t [K.LNK_LINK_STAT k]) ∧
    (∀ k, 3 ≤ k ∨ on k = false ∨ s.linkUp k = true ∨ (st s k ≠ 3 ∧ (s.link k).failRaised = false) → exec (.linkRetrain k) s = .next s) ∧
    (∀ k, k < 3 → on k = true → s.linkUp k = false → st s k = 3 ∨ (s.link k).failRaised = true → ∃ t, exec (.linkRetrain k) s = .next t ∧
      st t k = 1 ∧ t.link k = (s.link k).fresh ∧ others t k ∧ anew t k ∧ s.Only t [.regs, .net] ∧ s.RegsBut t (statOf k)) ∧
    -- each command completes in every state, and touches these units only
    (∀ l g k rx v w0 w1 w2 w3, ∀ i ∈ [Instr.linkEnable v, .clockRecovered l, .blockLock l g, .laneMarkerRx l w0 w1 w2 w3, .initRx k rx,
      .linkInitTx k, .lnkTrainFail k, .linkRetrain k], ∃ t, exec i s = .next t ∧ s.Only t [.regs, .flt, .net, .stat, .twin, .out])

/-- Frames are checked, accepted, acknowledged and replayed (R236 to R244, R258), codewords are decoded and counted (R231, R238 to
R240), lanes leave the bond (R246 to R248), and errors are injected (R250). -/
def Obligations.LinksCheckRetryAndLoseLanes : Prop :=
  ∀ s : State, s.up .link = true → s.net.lanes.length = 5 → s.net.links.length = 3 →
    let on := fun (k : Nat) => linkEn (s.reg K.LNK_CTL) k
    let plus := fun (t : State) (key n : Nat) => t.reg key = BitVec.ofNat 32 (satAdd 32 (s.reg key).toNat n)
    let raised := fun (t : State) (code src : Nat) => ∃ x ∈ t.flt.raised, x.code = code ∧ x.src = src
    -- a frame of the sender, and how it leaves: its blocks behind an idle block on the lanes of the transmit bond (R233)
    let frame := fun (k kind seq ackseq : Nat) (body : List Byte) => mkFrame kind seq ackseq true (credWord (s.link k)) body
    let after := fun (k : Nat) (f : Frame) => (s.link k).txBlocks + f.blocks.length + 1
    let sent := fun (k : Nat) (f : Frame) => Out.frame k f (dealBlocks (s.txLanes k) (s.link k).txMarker (s.link k).txBlocks (.idle :: f.blocks))
    let kinds := fun (k : Nat) (rx : List LaneBlock) => [(1, Instr.ackRx k rx), (2, .nakRx k rx), (4, .laneRx k rx), (5, .flowRx k rx)]
    -- frames that are not taken
    (∀ k rx, (∀ c ∈ kinds k rx, (∀ f, s.received k rx = some f → f.kind ≠ c.1) → exec c.2 s = .next s) ∧
      (3 ≤ k ∨ s.rxBond k = 0 ∨ (s.link k).corrected = true ∨ s.received k rx = none → exec (.dataFrameRx k rx) s = .next s ∧
        ∀ c ∈ kinds k rx, exec c.2 s = .next s)) ∧
    (∀ k rx f, s.received k rx = some f → k < 3 → 0 < s.rxBond k → (s.link k).corrected = false →
      -- handled on the fast path: its codeword is still to come (R240)
      let seen := (s.link k).seen + 1
      let noted := s.setLink k { s.link k with seen := seen }
      let bad := f.crc ≠ f.good ∧ f.crc ≠ ~~~ f.good
      (f.crc = f.good → f.formOk = false → ∃ t, exec (.dataFrameRx k rx) s = .next t ∧
        t.flt = (s.raise Code.LNK_FRAME_BAD (Src.link k) []).flt ∧ t.net = noted.net ∧ s.Only t [.flt, .net]) ∧
      (f.crc = ~~~ f.good → ∃ t, exec (.dataFrameRx k rx) s = .next t ∧ plus t (K.LNK_LINK_CNT_STOMP_RX k) 1 ∧ t.net = noted.net ∧
        s.Only t [.regs, .net, .stat] ∧ s.RegsBut t [K.LNK_LINK_CNT_STOMP_RX k]) ∧
      -- the first check fails: the corrected path, and a copy that was cut through ends stomped (R237, R238)
      (let out := s.exitOf k
       let p := packetOf f.body
       let cut := k < 2 ∧ f.kind = 0 ∧ s.dispose k p = .forward ∧ s.linkUp out = true ∧ (s.link out).waiting = [] ∧ canSend (s.link out) p = true
       (bad → ¬ cut → exec (.dataFrameRx k rx) s = .next (s.setLink k { s.link k with corrected := true, firstFail := true })) ∧
       (bad → cut →
         let g := frame out 0 (s.link out).nextSeq (s.link out).expect (stampPacket s.net.epoch p).bytes
         let stomped := { g with crc := ~~~ g.crc }
         ∃ t, exec (.dataFrameRx k rx) s = .next t ∧ (t.link k).corrected = true ∧ (t.link k).firstFail = true ∧
           plus t (K.LNK_LINK_CNT_STOMP_TX out) 1 ∧ t.out = sent out stomped :: s.out ∧ (t.link out).nextSeq = (s.link out).nextSeq ∧
           (t.link out).unacked = (s.link out).unacked ∧ (t.link out).sent = (s.link out).sent ∧ s.Only t [.regs, .net, .stat, .out] ∧
           s.RegsBut t [K.LNK_LINK_CNT_STOMP_TX out])) ∧
      -- frames that pass
      (f.crc = f.good → f.formOk = true → s.linkUp k = true → (s.link k).waiting = [] →
        let l : Link := { s.link k with seen := seen }
        let n := match l.unacked.head? with | some (o, _) => (f.ackseq + 256 - o) % 256 | none => 0
        let freed := [nbits f.cred 31 24, nbits f.cred 23 16, nbits f.cred 15 8, nbits f.cred 7 0]
        let h := if f.ackv = true ∧ 0 < n ∧ n ≤ l.unacked.length then { l with freed := freed, unacked := l.unacked.drop n, replay := none, replays := 0, advAt := some s.ticks }
          else { l with freed := freed }
        let left := fun (t : State) (x : Link) => t.link k = x ∧ (∀ j, j ≠ k → t.link j = s.link j) ∧ t.rd (F.LNK_LINK_STAT_OUT k) = h.unacked.length % 256
        (f.kind = 1 → ∃ t, exec (.ackRx k rx) s = .next t ∧ left t h ∧ s.Only t [.regs, .net] ∧ s.RegsBut t [K.LNK_LINK_STAT k]) ∧
        (f.kind = 5 → let b := leNum f.body
          ∃ t, exec (.flowRx k rx) s = .next t ∧ left t { h with limits := [nbits b 63 56, nbits b 55 48, nbits b 47 40, nbits b 39 32] } ∧
          s.Only t [.regs, .net] ∧ s.RegsBut t [K.LNK_LINK_STAT k]) ∧
        (f.kind = 0 → f.seq = l.expect → let p := packetOf f.body
          ∃ t, exec (.dataFrameRx k rx) s = .next t ∧ plus t (K.LNK_LINK_CNT_RXOK k) 1 ∧
          (k < 2 → left t { h with expect := (l.expect + 1) % 256, discarding := false, ackOwed := true } ∧
            t.net = { s.net with links := t.net.links, rx := modAt [] s.net.rx k (· ++ [⟨p, p.pool, p.units, false⟩]) }) ∧
          (k = 2 → left t { h with
              expect := (l.expect + 1) % 256, discarding := false, ackOwed := true
              rxFreed := modAt 0 l.rxFreed p.pool (fun m => (m + p.units) % 256) } ∧
            t.net = { s.net with links := t.net.links, taken := modAt [] s.net.taken 3 (· ++ [p]) }) ∧
          s.Only t [.regs, .net, .stat] ∧ s.RegsBut t [K.LNK_LINK_STAT k, K.LNK_LINK_CNT_RXOK k]) ∧
        (f.kind = 0 → f.seq ≠ l.expect → ∃ t, exec (.dataFrameRx k rx) s = .next t ∧ left t h ∧
          t.net = { s.net with links := t.net.links } ∧ s.Only t [.regs, .net] ∧ s.RegsBut t [K.LNK_LINK_STAT k]) ∧
        (f.kind = 4 → k < 2 → let want := nbits (leNum f.body) 45 44
          let old := s.rd (F.LNK_LINK_STAT_TXL k)
          want ≠ 0 → ∃ t, exec (.laneRx k rx) s = .next t ∧ left t h ∧
          t.rd (F.LNK_LINK_STAT_TXL k) = want ∧ t.linkUp k = true ∧ (want = old → t.flt = s.flt) ∧
          (∀ b, b < 2 → (old.testBit b = true → want.testBit b = false → raised t Code.LNK_LANE_DOWN (Src.lane (2 * k + b))) ∧
            (old.testBit b = false → want.testBit b = true → raised t Code.LNK_LANE_UP (Src.lane (2 * k + b)))) ∧
          s.Only t [.regs, .flt, .net] ∧ s.RegsBut t [K.LNK_LINK_STAT k]) ∧
        (f.kind = 2 → l.replay = some f.ackseq → ∃ t, exec (.nakRx k rx) s = .next t ∧ plus t (K.LNK_LINK_CNT_NAK_RX k) 1 ∧
          t.net = noted.net ∧ s.Only t [.regs, .net, .stat] ∧ s.RegsBut t [K.LNK_LINK_CNT_NAK_RX k]) ∧
        (∀ o p, f.kind = 2 → l.unacked = [(o, p)] → f.ackseq = o → l.replay ≠ some o → (∀ m ∈ lanesOf k, (s.lane m).inject = none) →
          let g := frame k 0 o l.expect (stampPacket s.net.epoch p).bytes
          ∃ t, exec (.nakRx k rx) s = .next t ∧ plus t (K.LNK_LINK_CNT_NAK_RX k) 1 ∧ plus t (K.LNK_LINK_CNT_REPLAY k) 1 ∧
          t.link k = { l with freed := freed, replay := some o, ackOwed := false, txBlocks := after k g } ∧
          t.out = sent k g :: s.out ∧ s.Only t [.regs, .net, .stat, .out] ∧
          s.RegsBut t [K.LNK_LINK_STAT k, K.LNK_LINK_CNT_NAK_RX k, K.LNK_LINK_CNT_REPLAY k]))) ∧
    -- timers of the retry
    (∀ k, 3 ≤ k ∨ s.linkUp k = false → exec (.ackTimer k) s = .next s ∧ exec (.replayTimeout k) s = .next s) ∧
    (∀ k, k < 3 → s.linkUp k = true → let l := s.link k
      (l.ackOwed = false → exec (.ackTimer k) s = .next s) ∧
      (l.ackOwed = true → let g := frame k 1 0 l.expect (leBytes 8 0)
        exec (.ackTimer k) s = .next { s.setLink k { l with ackOwed := false, txBlocks := after k g } with out := sent k g :: s.out }) ∧
      -- an acknowledgement that has advanced in the same cycle wins (R245)
      (l.unacked = [] ∨ l.advAt = some s.ticks → exec (.replayTimeout k) s = .next s) ∧
      (∀ o p, l.unacked = [(o, p)] → l.advAt ≠ some s.ticks →
        let g := frame k 0 o l.expect (stampPacket s.net.epoch p).bytes
        (l.replays < s.rd F.LNK_RETRY_RETRY_MAX → l.waiting = [] → (∀ m ∈ lanesOf k, (s.lane m).inject = none) → ∃ t,
          exec (.replayTimeout k) s = .next t ∧ plus t (K.LNK_LINK_CNT_REPLAY k) 1 ∧
          t.link k = { l with replays := l.replays + 1, replay := some o, ackOwed := false, txBlocks := after k g } ∧
          t.out = sent k g :: s.out ∧ s.Only t [.regs, .net, .stat, .out] ∧
          s.RegsBut t [K.LNK_LINK_CNT_REPLAY k]) ∧
        (s.rd F.LNK_RETRY_RETRY_MAX ≤ l.replays → ∃ t, exec (.replayTimeout k) s = .next t ∧ t.linkUp k = false ∧
          raised t Code.LNK_RETRY_FAIL (Src.link k) ∧ raised t Code.LNK_DOWN (Src.link k) ∧
          (k < 2 → t.wrapped k = true ∧ raised t Code.NET_WRAP (Src.forward k)) ∧ s.Only t [.regs, .flt, .net, .stat, .twin, .out]))) ∧
    -- codewords: seven symbols can be corrected (R231)
    (∀ lane, 5 ≤ lane ∨ s.bit (F.LNK_LANE_STAT_CWLOCK lane) = false → ∀ a b fs d, exec (.codewordDecoded lane a b fs d) s = .next s) ∧
    (∀ lane, lane < 5 → s.bit (F.LNK_LANE_STAT_CWLOCK lane) = true →
      let k := linkOfLane lane
      let l := s.link k
      let cwUe := { s.lane lane with ue := (s.lane lane).ue + 1 }
      exec (.codewordDecoded lane 0 0 [] false) s = .next s ∧
      exec (.codewordDecoded lane 0 0 [] true) s = .next (s.setLink k { l with corrected := false, firstFail := false, seen := 0 }) ∧
      (∀ a b, 1 ≤ a + b → a + b ≤ 7 → ∃ t, exec (.codewordDecoded lane a b [] false) s = .next t ∧ plus t (K.LNK_LANE_CNT_CW_CORR lane) 1 ∧
        plus t (K.LNK_LANE_CNT_SYM_CORR lane) (a + b) ∧ s.Only t [.regs, .stat] ∧ s.RegsBut t [K.LNK_LANE_CNT_CW_CORR lane, K.LNK_LANE_CNT_SYM_CORR lane]) ∧
      -- a NAK for SEQ `q` (R239)
      (let nak := fun (t : State) (q : Nat) (first : Bool) =>
         let g := frame k 2 0 q (leBytes 8 0)
         plus t (K.LNK_LINK_CNT_CRC k) 1 ∧ plus t (K.LNK_LINK_CNT_NAK_TX k) 1 ∧
         t.link k = { l with discarding := true, expect := q, firstFail := first, ackOwed := false, txBlocks := after k g } ∧
         (∀ j, j ≠ k → t.link j = s.link j) ∧ t.out = sent k g :: s.out ∧ s.Only t [.regs, .net, .stat, .out]
       (∀ a b, 7 < a + b → ∃ t, exec (.codewordDecoded lane a b [] false) s = .next t ∧ plus t (K.LNK_LANE_CNT_CW_UNCORR lane) 1 ∧ t.lane lane = cwUe ∧
         (l.corrected = false → t.net = (s.setLane lane cwUe).net ∧ s.Only t [.regs, .net, .stat] ∧ s.RegsBut t [K.LNK_LANE_CNT_CW_UNCORR lane]) ∧
         (l.corrected = true → l.discarding = true → plus t (K.LNK_LINK_CNT_CRC k) 1 ∧ t.net = (s.setLane lane cwUe).net ∧
           s.Only t [.regs, .net, .stat] ∧ s.RegsBut t [K.LNK_LANE_CNT_CW_UNCORR lane, K.LNK_LINK_CNT_CRC k]) ∧
         (l.corrected = true → l.discarding = false → nak t l.expect l.firstFail ∧
           s.RegsBut t [K.LNK_LANE_CNT_CW_UNCORR lane, K.LNK_LINK_CNT_CRC k, K.LNK_LINK_CNT_NAK_TX k])) ∧
       -- a frame in error is asked for again, while frames are discarded only where it is the awaited one
       (l.corrected = true → l.seen = 0 → ∀ f e, f.crc ≠ f.good → f.crc ≠ ~~~ f.good →
         let seq := readableSeq l f
         (l.discarding = false ∨ seq = some l.expect → ∃ t, exec (.codewordDecoded lane 0 0 [(f, e)] false) s = .next t ∧
           nak t (seq.getD l.expect) false ∧ s.RegsBut t [K.LNK_LINK_CNT_CRC k, K.LNK_LINK_CNT_NAK_TX k]) ∧
         (l.discarding = true → seq ≠ some l.expect → ∃ t, exec (.codewordDecoded lane 0 0 [(f, e)] false) s = .next t ∧
           plus t (K.LNK_LINK_CNT_CRC k) 1 ∧ t.net = (s.setLink k { l with firstFail := false }).net ∧ s.Only t [.regs, .net, .stat] ∧
           s.RegsBut t [K.LNK_LINK_CNT_CRC k]))) ∧
      -- the frame that failed first passes after correction, and is taken (R238)
      (l.corrected = true → l.seen = 0 → l.waiting = [] → s.linkUp k = true → ∀ f e, f.crc = f.good → f.formOk = true → f.kind = 5 →
        let b := leNum f.body
        ∃ t, exec (.codewordDecoded lane 0 0 [(f, e)] false) s = .next t ∧ plus t (K.LNK_LINK_CNT_FIXED k) (if l.firstFail then 1 else 0) ∧
          (t.link k).firstFail = false ∧ (t.link k).corrected = true ∧
          (t.link k).limits = [nbits b 63 56, nbits b 55 48, nbits b 47 40, nbits b 39 32] ∧ s.Only t [.regs, .net, .stat] ∧
          s.RegsBut t [K.LNK_LINK_STAT k, K.LNK_LINK_CNT_FIXED k]) ∧
      -- a frame of the fast path: corrected symbols in it escaped the first check (R240)
      (0 < l.seen → ∀ f, exec (.codewordDecoded lane 0 0 [(f, false)] false) s = .next (s.setLink k { l with seen := l.seen - 1 }) ∧
        ∃ t, exec (.codewordDecoded lane 0 0 [(f, true)] false) s = .next t ∧ plus t (K.LNK_LINK_CNT_ESCAPE k) 1 ∧
        t.flt = (s.raise Code.LNK_CRC_ESCAPE (Src.link k) [k, f.seq, (packetOf f.body).src, (packetOf f.body).tag]).flt ∧
        t.net = (s.setLink k { l with seen := l.seen - 1 }).net ∧ s.Only t [.regs, .flt, .net, .stat] ∧ s.RegsBut t [K.LNK_LINK_CNT_ESCAPE k])) ∧
    -- lanes
    (∀ lane, 5 ≤ lane ∨ (s.lane lane).lockTimer = false ∨ s.bit (F.LNK_LANE_STAT_INBOND lane) = false → exec (.laneLockLoss lane) s = .next s) ∧
    (∀ lane, 5 ≤ lane → exec (.laneDegradeCheck lane) s = .next s) ∧
    (∀ lane, lane < 5 → (s.lane lane).ue ≤ s.rd F.LNK_TRAIN_DEG_UE ∨ lane = 4 ∨ s.bit (F.LNK_LANE_STAT_INBOND lane) = false →
      exec (.laneDegradeCheck lane) s = .next (s.setLane lane { s.lane lane with ue := 0 })) ∧
    (∀ lane i, lane < 4 → s.bit (F.LNK_LANE_STAT_INBOND lane) = true → s.bit (F.LNK_LANE_STAT_INBOND (lane ^^^ 1)) = true →
      s.linkUp (linkOfLane lane) = true →
      (i = Instr.laneLockLoss lane ∧ (s.lane lane).lockTimer = true) ∨
        (i = Instr.laneDegradeCheck lane ∧ s.rd F.LNK_TRAIN_DEG_UE < (s.lane lane).ue) →
      let k := linkOfLane lane
      let bond := 2 ^ s.laneNum (lane ^^^ 1)
      let g := frame k 4 0 (s.link k).expect (leBytes 8 (bond * 2 ^ 44))
      ∃ t, exec i s = .next t ∧ t.lane lane = { s.lane lane with clock := false, marker := none, lockTimer := false, ue := 0, ready := false } ∧
      t.bit (F.LNK_LANE_STAT_INBOND lane) = false ∧ t.rd (F.LNK_LINK_STAT_RXL k) = bond ∧ t.linkUp k = true ∧
      t.link k = { s.link k with laneOpen := true, laneAt := s.ticks, ackOwed := false, txBlocks := after k g } ∧ t.flt = (s.raise Code.LNK_LANE_DOWN (Src.lane lane) []).flt ∧
      t.out = sent k g :: s.out ∧ s.Only t [.regs, .flt, .net, .out] ∧
      s.RegsBut t [K.LNK_LANE_STAT lane, K.LNK_LINK_STAT k]) ∧
    -- injection: a value out of range is refused and the field keeps its own (R9); ARM uses the values in effect
    (s.up .mgmt = true → ∀ (v : Word) node agent,
      let lane := if bitsOf v 2 0 < 5 then bitsOf v 2 0 else s.rd F.LNK_INJ_LANE
      let syms := if bitsOf v 11 8 = 0 then s.rd F.LNK_INJ_SYMS else bitsOf v 11 8
      let refused := (5 ≤ bitsOf v 2 0 ∧ bitsOf v 2 0 ≠ s.rd F.LNK_INJ_LANE) ∨ (bitsOf v 11 8 = 0 ∧ s.rd F.LNK_INJ_SYMS ≠ 0)
      let fires := bitOf v 30 = true ∧ on (linkOfLane lane) = true
      ∃ t, exec (.lnkInjArm ⟨v, node, agent⟩) s = .next t ∧ t.rd F.LNK_INJ_LANE = lane ∧ t.rd F.LNK_INJ_SYMS = syms ∧
        t.bit F.LNK_INJ_KIND = bitOf v 30 ∧ (refused → t.flt = (s.raise Code.CFG_RANGE Src.setup []).flt) ∧ (¬ refused → t.flt = s.flt) ∧
        (lane < 5 →
          (fires → t.out = .codewordError lane syms :: s.out ∧ t.net = (s.setLane lane { s.lane lane with inject := none }).net) ∧
          (¬ fires → t.out = s.out ∧ t.net = (s.setLane lane { s.lane lane with inject := some (bitOf v 30, syms) }).net)) ∧
        s.Only t [.regs, .flt, .net, .out] ∧ s.RegsBut t [K.LNK_INJ]) ∧
    -- each command completes in every state, and touches these units only
    (∀ k rx a b fs d, ∀ i ∈ [Instr.dataFrameRx k rx, .ackRx k rx, .nakRx k rx, .laneRx k rx, .flowRx k rx, .ackTimer k, .replayTimeout k,
      .codewordDecoded k a b fs d, .laneLockLoss k, .laneDegradeCheck k], ∃ t, exec i s = .next t ∧ s.Only t [.regs, .flt, .net, .stat, .twin, .out])

/-- Packets in a receiving side's buffer are stripped, dropped, removed or forwarded (R254 to R259), answers close tags (R255,
R261), and messages and broadcasts reach their units (R107, R110, R264). -/
def Obligations.PacketsAreDroppedForwardedOrRemoved : Prop :=
  ∀ s : State, s.net.links.length = 3 → s.net.rx.length = 2 → s.net.dropWait.length = 2 → s.net.taken.length = 4 →
    let plus := fun (t : State) (key n : Nat) => t.reg key = BitVec.ofNat 32 (satAdd 32 (s.reg key).toNat n)
    let rxOf := fun (k : Nat) => getAt [] s.net.rx k
    let waits := fun (k : Nat) => getAt [] s.net.dropWait k
    let qOf := fun (q : Nat) => getAt [] s.net.taken q
    let took := fun (q : Nat) (rest : List Packet) => { s with net := { s.net with taken := setAt s.net.taken q rest } }
    -- the buffer's units are free again
    let freed := fun (t : State) (k : Nat) (x : RxPkt) => ∀ j, t.link j =
      if j = k then { s.link k with rxFreed := modAt 0 (s.link k).rxFreed x.pool (fun m => (m + x.units) % 256) } else s.link j
    (s.up .link = true →
      (∀ k, 2 ≤ k → exec (.packetRx k) s = .next s ∧ exec (.dropAdmit k) s = .next s ∧ exec (.netDropStall k) s = .next s) ∧
      (∀ k, k < 2 → rxOf k = [] → exec (.packetRx k) s = .next s) ∧
      (∀ k x rest, k < 2 → rxOf k = x :: rest →
        let p := x.pkt
        let gone := setAt s.net.rx k rest
        -- its own packet has come round
        (s.returned k p = true → p.kind ≠ Kind.REQUEST → p.kind ≠ Kind.MGMT → ∃ t, exec (.packetRx k) s = .next t ∧ freed t k x ∧
          plus t K.NET_CNT_STRIP 1 ∧ t.net = { s.net with links := t.net.links, rx := gone } ∧ s.Only t [.regs, .net, .stat] ∧
          s.RegsBut t [K.NET_CNT_STRIP]) ∧
        (s.returned k p = false → p.kind ≠ Kind.EPOCH → p.kind ≠ Kind.MGMT → p.dst ≠ bcastNode →
          (p.dst = s.nodeId → s.joined = true → s.linkFenced = false →
            (p.ok = true → dupKind p = false → exec (.packetRx k) s = .next { s with net := { s.net with
              rx := gone, dropWait := modAt [] s.net.dropWait k (· ++ [x]) } }) ∧
            -- the duplicate filter learns a CTRL packet, and knows a second copy (R261)
            (p.ok = true → dupKind p = true → (p.src, p.tag, p.kind) ∉ s.net.dupFilter → s.net.dupFilter.length < 1024 →
              exec (.packetRx k) s = .next { s with net := { s.net with
                rx := gone, dropWait := modAt [] s.net.dropWait k (· ++ [x]), dupFilter := s.net.dupFilter ++ [(p.src, p.tag, p.kind)] } }) ∧
            (p.ok = true → dupKind p = true → (p.src, p.tag, p.kind) ∈ s.net.dupFilter → p.kind = Kind.REQUEST → ∃ t,
              exec (.packetRx k) s = .next t ∧ freed t k x ∧ plus t K.NET_CNT_DUP 1 ∧ t.net = { s.net with
                links := t.net.links, rx := gone, dupFilter := s.net.dupFilter.erase (p.src, p.tag, p.kind)
                dupSeen := s.net.dupSeen.filter (fun e => e != (p.src, p.tag)) ++ [(p.src, p.tag)] } ∧
              s.Only t [.regs, .net, .stat] ∧ s.RegsBut t [K.NET_CNT_DUP]) ∧
            (p.ok = false → ∃ t, exec (.packetRx k) s = .next t ∧ freed t k x ∧ plus t K.NET_CNT_PKT_BAD 1 ∧
              t.net = { s.net with links := t.net.links, rx := gone } ∧
              t.flt = (s.raise Code.NET_PKT_BAD Src.packet (lohi p.w0.toNat ++ lohi p.w1.toNat)).flt ∧
              s.Only t [.regs, .flt, .net, .stat] ∧ s.RegsBut t [K.NET_CNT_PKT_BAD])) ∧
          (p.dst ≠ s.nodeId ∨ s.joined = false →
            ((s.node p.dst).present = false → s.bit F.NET_STAT_REBUILD = false → ∃ t, exec (.packetRx k) s = .next t ∧ freed t k x ∧
              plus t K.NET_CNT_STRIP 1 ∧ t.net = { s.net with links := t.net.links, rx := gone } ∧ s.Only t [.regs, .net, .stat] ∧
              s.RegsBut t [K.NET_CNT_STRIP]) ∧
            ((s.node p.dst).present = true ∨ s.bit F.NET_STAT_REBUILD = true → s.Clear k p → s.wrapped (outSide k) = false →
              ∃ t, exec (.packetRx k) s = .next t ∧ s.Sent t k p ∧
              t.link k = { s.link k with rxFreed := modAt 0 (s.link k).rxFreed p.pool (fun m => (m + p.units) % 256) } ∧
              t.net = { s.net with links := t.net.links, rx := gone } ∧ s.Only t [.regs, .net, .out] ∧
              s.RegsBut t [K.LNK_LINK_STAT (outSide k)])))) ∧
      -- the drop point
      (∀ k, k < 2 → takeFirst s.admits (waits k) = none → exec (.dropAdmit k) s = .next s) ∧
      (∀ k x rest, k < 2 → waits k = x :: rest →
        (x.pkt.kind ≠ Kind.REQUEST ∨ (s.drv.waiting = [] ∧ s.cad.holdWait = []) → ∃ t, exec (.dropAdmit k) s = .next t ∧ freed t k x ∧
          plus t K.NET_CNT_DROP 1 ∧ t.net = { s.net with
            links := t.net.links, dropWait := setAt s.net.dropWait k rest, taken := modAt [] s.net.taken k (· ++ [x.pkt]) } ∧
          s.Only t [.regs, .net, .stat] ∧ s.RegsBut t [K.NET_CNT_DROP]) ∧
        (x.stalled = true → rest = [] → exec (.netDropStall k) s = .next s) ∧
        (x.stalled = false → rest = [] → ∃ t, exec (.netDropStall k) s = .next t ∧ plus t K.NET_CNT_DROP_STALL 1 ∧
          t.net = { s.net with dropWait := setAt s.net.dropWait k [{ x with stalled := true }] } ∧
          t.flt = (s.raise Code.NET_DROP_STALL (Src.forward k) []).flt ∧ s.Only t [.regs, .flt, .net, .stat] ∧
          s.RegsBut t [K.NET_CNT_DROP_STALL])) ∧
      -- tags
      (∀ q, (qOf q).all (fun p => p.kind != Kind.RESPONSE) = true → exec (.responseRx q) s = .next s) ∧
      (∀ q, (qOf q).all (fun p => !isMessage 2 p) = true → exec (.intAckRx q) s = .next s) ∧
      (∀ q p rest i, q < 4 → qOf q = p :: rest →
        (i = Instr.responseRx q ∧ p.kind = Kind.RESPONSE) ∨ (i = Instr.intAckRx q ∧ isMessage 2 p = true) →
        let late := ∃ t, exec i s = .next t ∧ plus t K.NET_CNT_LATE_RSP 1 ∧ t.net = (took q rest).net ∧ s.Only t [.regs, .net, .stat] ∧
          s.RegsBut t [K.NET_CNT_LATE_RSP]
        (s.tagRec p.tag = none → late) ∧
        (∀ r, s.tagRec p.tag = some r →
          (r.closed = true ∨ r.answered = true → late) ∧
          (r.closed = false → r.answered = false → r.acc = none → r.dup = false → r.owner = .flush → s.net.tagWait = [] →
            ∃ t, exec i s = .next t ∧ t.tagRec p.tag = none ∧ t.net.freeTags = s.net.freeTags ++ [p.tag] ∧
            t.ord = { s.ord with wcDone := s.ord.wcDone ++ [if p.kind = Kind.RESPONSE then (r.addr, r.len, p.status, p.bytesDone) else (r.addr, r.len, St.OK, 0)] } ∧
            t.rd F.NET_TAG_OPEN = s.rd F.NET_TAG_OPEN - 1 ∧ s.Only t [.regs, .ord, .net] ∧ s.RegsBut t [K.NET_TAG]))) ∧
      (∀ g, (s.tagRec g = none ∨ (∃ r, s.tagRec g = some r ∧ (r.closed = true ∨ r.answered = true)) → exec (.netTagTo g) s = .next s) ∧
        (s.tagRec g = none ∨ (∃ r, s.tagRec g = some r ∧ (r.closed = false ∨ r.acc ≠ none)) → exec (.tagQuarantineEnd g) s = .next s) ∧
        (∀ r, s.tagRec g = some r → r.acc = none →
          (r.closed = false → r.answered = false → r.owner = .flush → r.dst ≠ bcastNode → ∃ t, exec (.netTagTo g) s = .next t ∧
            t.tagRec g = some { r with closed := true, answered := true } ∧ plus t K.NET_CNT_TAG_TO 1 ∧
            t.ord = { s.ord with wcDone := s.ord.wcDone ++ [(r.addr, r.len, St.TAG_TIMEOUT, 0)] } ∧
            t.rd F.NET_TAG_OPEN = s.rd F.NET_TAG_OPEN - 1 ∧
            t.flt = (s.raise Code.NET_TAG_TO Src.packet (r.dst :: g :: lohi r.addr)).flt ∧
            s.Only t [.regs, .flt, .ord, .net, .stat] ∧ s.RegsBut t [K.NET_CNT_TAG_TO, K.NET_TAG]) ∧
          (r.closed = true → s.net.tagWait = [] → ∃ t, exec (.tagQuarantineEnd g) s = .next t ∧ t.tagRec g = none ∧
            t.net = { s.net with tags := t.net.tags, freeTags := s.net.freeTags ++ [g] } ∧ s.Only t [.net])) ∧
        (∀ src kind, s.tagRec g = none → exec (.dupEntryExpire src g kind) s = .next { s with net := { s.net with
          dupFilter := s.net.dupFilter.erase (src, g, kind) } }) ∧
        (∀ r, s.tagRec g = some r → r.dup = true → r.closed = false → r.answered = true → r.acc = none → s.net.tagWait = [] → ∃ t,
          exec (.dupEntryExpire r.dst g Kind.RESPONSE) s = .next t ∧ t.tagRec g = none ∧
          t.net.dupFilter = s.net.dupFilter.erase (r.dst, g, Kind.RESPONSE) ∧ s.Only t [.regs, .net] ∧ s.RegsBut t [K.NET_TAG])) ∧
      -- broadcasts
      (∀ q, 3 ≤ q ∨ (qOf q).all (fun p => !isBroadcast p) = true → exec (.broadcastRx q) s = .next s) ∧
      (∀ q p rest, q < 3 → qOf q = p :: rest → isBroadcast p = true → q = 2 ∨ p.src = s.nodeId →
        (s.bit F.CHIP_CTL_BCAST_EN = false → exec (.broadcastRx q) s = .next (took q rest)) ∧
        (s.bit F.CHIP_CTL_BCAST_EN = true → s.up .mgmt = true → p.op = 0x02 → regionOf (faOffset p.addr) = .setup →
          setupSizeOk (faOffset p.addr) (p.lenm1 + 1) = true →
          exec (.broadcastRx q) s = .next ((took q rest).setupWrite (faOffset p.addr - 0x3000000000) p.payload p.src p.agent).st)) ∧
      (∀ q p rest, q < 2 → qOf q = p :: rest → isBroadcast p = true → p.src ≠ s.nodeId → s.bit F.CHIP_CTL_BCAST_EN = false → s.Clear q p → ∃ t,
        exec (.broadcastRx q) s = .next t ∧ s.Sent t q p ∧ t.net = { s.net with links := t.net.links, taken := setAt s.net.taken q rest } ∧
        s.Only t [.regs, .net, .out] ∧ s.RegsBut t [K.LNK_LINK_STAT (s.exitOf q)])) ∧
    -- messages
    (s.up .host = true →
      (∀ q, s.cqRoom = false ∨ (qOf q).all (fun p => !isMessage 1 p) = true → exec (.interruptRx q) s = .next s) ∧
      (∀ q p rest, q < 4 → qOf q = p :: rest → isMessage 1 p = true → s.cqRoom = true → s.outEn p.cring = true →
        (s.writer p.cring).isSome = true → exec (.interruptRx q) s = .next { took q rest with host := { s.host with
          queue := s.host.queue ++ [⟨p.cring, false, if p.msixEn then some p.msixVec else none, some p, p.payload, false⟩] } })) ∧
    (s.up .edge = true →
      (∀ q, (qOf q).all (fun p => !isMessage 3 p) = true → exec (.vectorRx q) s = .next s) ∧
      (∀ q p rest, q < 4 → qOf q = p :: rest → isMessage 3 p = true → s.intrOff = false →
        let v : IntrVector := ⟨BitVec.ofNat 32 (leNum p.payload), none, some p, false⟩
        (s.vin.vectors.length < 16 → s.vin.vectorWait = [] → s.mirrors 3 = false → ∃ t, exec (.vectorRx q) s = .next t ∧
          t.vin = { s.vin with vectors := s.vin.vectors ++ [v], irqOut := !s.vin.irqGap } ∧ t.rd F.VME_INTR_DEPTH = s.vin.vectors.length + 1 ∧
          t.net = (took q rest).net ∧ s.Only t [.regs, .vin, .net] ∧ s.RegsBut t [K.VME_INTR]) ∧
        (16 ≤ s.vin.vectors.length ∨ s.vin.vectorWait ≠ [] →
          exec (.vectorRx q) s = .next { took q rest with vin := { s.vin with vectorWait := s.vin.vectorWait ++ [v] } })))

/-- The loop forms and is kept (R262 to R270): nodes join and find duplicates, wraps are announced and their held frames resent or
lost, unwraps are passed on, and a bellwether is elected. -/
def Obligations.TheLoopJoinsWrapsAndElects : Prop :=
  ∀ s : State, s.up .link = true → s.net.links.length = 3 → s.net.taken.length = 4 → s.net.wraps.length = 2 →
    let plus := fun (t : State) (key n : Nat) => t.reg key = BitVec.ofNat 32 (satAdd 32 (s.reg key).toNat n)
    let me := s.nodeId
    let mode := s.rd F.NET_ID_STATE
    let qOf := fun (q : Nat) => getAt [] s.net.taken q
    let rests := fun (q : Nat) (rest : List Packet) => setAt s.net.taken q rest
    let took := fun (q : Nat) (rest : List Packet) => { s with net := { s.net with taken := rests q rest } }
    let own := fun (mtype : Nat) (cap : Bool) (payload : List Byte) =>
      (⟨mkW0 bcastNode me 0 0 Kind.MGMT false 0 0 0 0, mkMgmtW1 mtype me 0 0 cap, payload⟩ : Packet).withInj 0
    let join := own 1 (s.bit F.NET_CTL_MCAP) (leBytes 8 s.boot.otpSerial)
    let only := fun (t : State) (ks : List Nat) => s.Only t [.regs, .net, .stat, .out] ∧ s.RegsBut t ks
    -- nothing to take
    (∀ q m i, (m, i) ∈ [(1, Instr.joinRx q), (2, .joinDupRx q), (3, .electRx q), (4, .electedRx q), (5, .wrapRx q), (6, .unwrapRx q)] →
      (qOf q).all (fun p => !isMgmt m p) = true → exec i s = .next s) ∧
    -- joining
    (s.bit F.NET_CTL_JOIN_EN = false ∨ mode ≠ 0 ∨ (me ≠ 0x7FF ∧ s.loopReady = false) → exec .netJoinStart s = .next s) ∧
    (s.bit F.NET_CTL_JOIN_EN = true → mode = 0 →
      (me = 0x7FF → ∃ t, exec .netJoinStart s = .next t ∧ t.rd F.NET_ID_STATE = 4 ∧ t.flt = (s.raise Code.NET_ID_BAD Src.packet []).flt ∧
        s.Only t [.regs, .flt] ∧ s.RegsBut t [K.NET_ID]) ∧
      (me ≠ 0x7FF → s.loopReady = true → s.Clear 0 join → ∃ t, exec .netJoinStart s = .next t ∧ t.rd F.NET_ID_STATE = 1 ∧
        plus t K.NET_CNT_TX 1 ∧ s.Sent t 0 join ∧ t.net = { s.net with links := t.net.links, joinOut := true } ∧
        only t [K.NET_ID, K.NET_CNT_TX, K.LNK_LINK_STAT (s.exitOf 0)])) ∧
    (∀ q p rest, q < 4 → qOf q = p :: rest → isMgmt 1 p = true →
      let serial := leNum (p.payload.take 6)
      -- it passes as on the ring it was sent on: arrived by that ring, or turned onto it by this node's own wrap (log entry 66)
      let passes := 2 ≤ q ∨ s.onInjRing q p = true
      let starts := s.bit F.NET_CTL_MCAP = true ∧ s.joined = true ∧ p.mcap = true ∧ p.subject < s.rd F.NET_STAT_BWID ∧ s.net.electOut = false
      (p.subject = me → serial = s.boot.otpSerial → ¬ passes → s.Clear q p → ∃ t, exec (.joinRx q) s = .next t ∧ s.Sent t q p ∧
        t.net = { s.net with links := t.net.links, taken := rests q rest } ∧ only t [K.LNK_LINK_STAT (s.exitOf q)]) ∧
      (p.subject = me → serial = s.boot.otpSerial → passes → ∃ t, exec (.joinRx q) s = .next t ∧ t.rd F.NET_STAT_NODES = (p.hops + 1) % 2048 ∧
        (mode = 1 → t.joined = true) ∧ (mode ≠ 1 → t.rd F.NET_ID_STATE = mode) ∧
        t.net = { s.net with taken := rests q rest, joinOut := false, electWait := decide (mode = 1) || s.net.electWait, nodes := (s.setNode me ⟨true, s.bit F.NET_CTL_MCAP, 0, true⟩).net.nodes } ∧
        s.Only t [.regs, .net] ∧ s.RegsBut t [K.NET_ID, K.NET_STAT, K.CHIP_BOOT_STAT]) ∧
      (p.subject = me → serial ≠ s.boot.otpSerial →
        (mode = 2 → s.Clear 0 (own 2 false (leBytes 8 serial)) → ∃ t, exec (.joinRx q) s = .next t ∧ s.Sent t 0 (own 2 false (leBytes 8 serial)) ∧
          plus t K.NET_CNT_TX 1 ∧ t.net = { s.net with links := t.net.links, taken := rests q rest } ∧
          only t [K.NET_CNT_TX, K.LNK_LINK_STAT (s.exitOf 0)]) ∧
        (mode = 1 → ∃ t, exec (.joinRx q) s = .next t ∧ t.rd F.NET_ID_STATE = 3 ∧ t.net = { s.net with taken := rests q rest, joinOut := false } ∧
          t.flt = (s.raise Code.NET_DUP_ID Src.packet [me, serial % 2 ^ 32, serial / 2 ^ 32]).flt ∧ s.Only t [.regs, .flt, .net] ∧
          s.RegsBut t [K.NET_ID]) ∧
        (mode ≠ 1 → mode ≠ 2 → exec (.joinRx q) s = .next (took q rest))) ∧
      (p.subject ≠ me →
        let entered := s.setNode p.subject ⟨true, p.mcap, p.hops + 1, true⟩
        (2 ≤ q → ¬ starts → exec (.joinRx q) s = .next { entered with net := { entered.net with taken := rests q rest } }) ∧
        (q < 2 → passes → ¬ starts → s.Clear q p.incHops → ∃ t, exec (.joinRx q) s = .next t ∧ s.Sent t q p.incHops ∧
          t.net = { entered.net with links := t.net.links, taken := rests q rest } ∧ only t [K.LNK_LINK_STAT (s.exitOf q)]) ∧
        (¬ passes → ¬ starts → s.Clear q p → ∃ t, exec (.joinRx q) s = .next t ∧ s.Sent t q p ∧
          t.net = { s.net with links := t.net.links, taken := rests q rest } ∧ only t [K.LNK_LINK_STAT (s.exitOf q)]) ∧
        (starts → ∃ t, exec (.joinRx q) s = .next t ∧ t.rd F.NET_STAT_ROLE = 1 ∧ t.net.electOut = true ∧ t.net.electWait = true ∧
          t.net.round = (s.net.round + 1) % 256))) ∧
    (mode ≠ 1 ∨ s.net.joinOut = false → s.bit F.NET_STAT_REBUILD = false → exec .joinTimeout s = .next s) ∧
    (mode = 1 → s.net.joinOut = true → s.bit F.NET_STAT_REBUILD = false → s.Clear 0 join → ∃ t, exec .joinTimeout s = .next t ∧
      s.Sent t 0 join ∧ plus t K.NET_CNT_TX 1 ∧ only t [K.NET_CNT_TX, K.LNK_LINK_STAT (s.exitOf 0)]) ∧
    (mode ≠ 1 → s.bit F.NET_STAT_REBUILD = true → (s.net.nodes.map Prod.fst).Nodup → ∃ t, exec .joinTimeout s = .next t ∧
      t.bit F.NET_STAT_REBUILD = false ∧ (∀ n, t.node n = if (s.node n).fresh = true ∨ n = me then s.node n else ⟨false, false, 0, false⟩) ∧
      t.net = { s.net with nodes := t.net.nodes, wrapAt := s.net.wrapAt.filter (fun w => (t.node w.1).present) } ∧ s.Only t [.regs, .net] ∧ s.RegsBut t [K.NET_STAT]) ∧
    (∀ q p rest, q < 4 → qOf q = p :: rest → isMgmt 2 p = true →
      let mine := leNum (p.payload.take 6) = s.boot.otpSerial ∧ mode = 1
      (mine → ∃ t, exec (.joinDupRx q) s = .next t ∧ t.rd F.NET_ID_STATE = 3 ∧ t.net = { s.net with taken := rests q rest, joinOut := false } ∧
        (∃ x, t.flt.raised = s.flt.raised ++ [x] ∧ x.code = Code.NET_DUP_ID ∧ x.src = Src.packet) ∧ s.Only t [.regs, .flt, .net, .freeCtr] ∧
        s.RegsBut t [K.NET_ID]) ∧
      (¬ mine → 2 ≤ q ∨ s.returned q p = true → exec (.joinDupRx q) s = .next (took q rest)) ∧
      (¬ mine → q < 2 → s.returned q p = false → s.Clear q p → ∃ t, exec (.joinDupRx q) s = .next t ∧ s.Sent t q p ∧
        t.net = { s.net with links := t.net.links, taken := rests q rest } ∧ only t [K.LNK_LINK_STAT (s.exitOf q)])) ∧
    -- wraps
    (∀ side, 2 ≤ side ∨ (s.wrapRec side).waiting = false → exec (.netWrapLost side) s = .next s) ∧
    (∀ side, side < 2 → (s.wrapRec side).waiting = true → (s.wrapRec side).unwrapDue = false →
      let w := s.wrapRec side
      let past := s.setWrapRec side { w with held := [], waiting := false }
      (w.held = [] → exec (.netWrapLost side) s = .next past) ∧
      (w.held ≠ [] → ∃ t, exec (.netWrapLost side) s = .next t ∧ t.net = past.net ∧ plus t K.NET_CNT_WRAP_LOST w.held.length ∧
        t.flt = (s.raise Code.NET_WRAP_LOST (Src.forward side) [side, w.held.length]).flt ∧ s.Only t [.regs, .flt, .net, .stat] ∧
        s.RegsBut t [K.NET_CNT_WRAP_LOST])) ∧
    (∀ q p rest m i, q < 4 → qOf q = p :: rest → (m, i) ∈ [(5, Instr.wrapRx q), (6, .unwrapRx q)] → isMgmt m p = true →
      let place := (p.subject, p.side)
      let at_ := s.net.wrapAt.filter (fun w => w != place) ++ if m = 5 then [place] else []
      (p.src = me → 2 ≤ q ∨ s.onInjRing q p = true → exec i s = .next (took q rest)) ∧
      (p.src = me → q < 2 → s.onInjRing q p = false → s.Clear q p → ∃ t, exec i s = .next t ∧ s.Sent t q p ∧
        t.net = { s.net with links := t.net.links, taken := rests q rest } ∧ only t [K.LNK_LINK_STAT (s.exitOf q)]) ∧
      (p.src ≠ me → s.joined = false → (∀ side, side < 2 → (s.wrapRec side).waiting = false) →
        (2 ≤ q → exec i s = .next { s with net := { s.net with taken := rests q rest, wrapAt := at_ } }) ∧
        (q < 2 → s.Clear q p → ∃ t, exec i s = .next t ∧ s.Sent t q p ∧ t.net = { s.net with links := t.net.links, taken := rests q rest, wrapAt := at_ } ∧
          only t [K.LNK_LINK_STAT (s.exitOf q)])) ∧
      (p.src ≠ me → s.joined = true → ∃ t, exec i s = .next t ∧ t.bit F.NET_STAT_REBUILD = true ∧ t.net.joinOut = true)) ∧
    (∀ q p rest side, q < 2 → qOf q = p :: rest → isMgmt 5 p = true → p.src ≠ me → s.joined = false → side < 2 →
      let w := s.wrapRec side
      let n := leNum p.payload
      w.waiting = true → w.unwrapDue = false → (s.wrapRec (1 - side)).waiting = false → w.neighbour = p.subject → nbits n 26 16 = me →
      p.side = 1 - side → n.testBit 8 = true → (∀ x ∈ w.held, 128 ≤ (x.1 + 256 - n % 256) % 256) → s.Clear q p →
      ∃ t, exec (.wrapRx q) s = .next t ∧ s.Sent t q p ∧ t.wrapRec side = { w with held := [], waiting := false } ∧
      t.wrapRec (1 - side) = s.wrapRec (1 - side) ∧ only t [K.LNK_LINK_STAT (s.exitOf q)]) ∧
    -- the election
    (let round := (s.net.round + 1) % 256
     let elect := own 3 true (leBytes 8 round)
     let stands := s.bit F.NET_CTL_MCAP = true ∧ s.joined = true
     let due := s.net.electWait = true
     (¬ stands → exec .electStart s = .next s) ∧ (¬ (stands ∧ due) → exec .electTimeout s = .next s) ∧
     (∀ i, (i = Instr.electStart ∧ stands) ∨ (i = Instr.electTimeout ∧ stands ∧ due) → s.Clear 0 elect → ∃ t, exec i s = .next t ∧
       t.rd F.NET_STAT_ROLE = 1 ∧ s.Sent t 0 elect ∧ plus t K.NET_CNT_TX 1 ∧
       t.net = { s.net with links := t.net.links, round := round, electOut := true, electWait := true } ∧
       only t [K.NET_STAT, K.NET_CNT_TX, K.LNK_LINK_STAT (s.exitOf 0)]) ∧
     (∀ q p rest, q < 4 → qOf q = p :: rest →
       (isMgmt 3 p = true → let top := max s.net.round (leNum (p.payload.take 1))
        let back := p.src = me ∧ (2 ≤ q ∨ s.onInjRing q p = true)
        (p.src = me → ¬ back → s.Clear q p → ∃ t, exec (.electRx q) s = .next t ∧ s.Sent t q p ∧
          t.net = { s.net with links := t.net.links, taken := rests q rest, round := top } ∧ only t [K.LNK_LINK_STAT (s.exitOf q)]) ∧
        (back → p.subject ≠ me → ∃ t, exec (.electRx q) s = .next t ∧ t.rd F.NET_STAT_ROLE = 0 ∧
          t.net = { s.net with taken := rests q rest, round := top, electOut := false } ∧ s.Only t [.regs, .net] ∧ s.RegsBut t [K.NET_STAT]) ∧
        (back → p.subject = me → s.Clear 0 (own 4 true []) → ∃ t, exec (.electRx q) s = .next t ∧ t.rd F.NET_STAT_ROLE = 2 ∧
          t.rd F.NET_STAT_BWID = me ∧ s.Sent t 0 (own 4 true []) ∧ plus t K.NET_CNT_TX 1 ∧
          t.net = { s.net with links := t.net.links, taken := rests q rest, round := top, electOut := false, electWait := false } ∧
          only t [K.NET_STAT, K.NET_CNT_TX, K.LNK_LINK_STAT (s.exitOf 0), K.CHIP_BOOT_STAT]) ∧
        (p.src ≠ me → q < 2 →
          let on := if stands ∧ me < p.subject then { p with w1 := BitVec.ofNat 64 (p.w1.toNat - p.subject * 2 ^ 45 + me * 2 ^ 45) } else p
          ¬ (stands ∧ me < p.subject) ∨ s.net.electOut = true → s.Clear q on → ∃ t, exec (.electRx q) s = .next t ∧ s.Sent t q on ∧
          t.net = { s.net with links := t.net.links, taken := rests q rest, round := top } ∧ only t [K.LNK_LINK_STAT (s.exitOf q)])) ∧
       (isMgmt 4 p = true →
        (p.src = me → 2 ≤ q ∨ s.onInjRing q p = true → exec (.electedRx q) s = .next (took q rest)) ∧
        (p.src ≠ me → q < 2 → s.Clear q p → ∃ t, exec (.electedRx q) s = .next t ∧ s.Sent t q p ∧ t.rd F.NET_STAT_BWID = p.subject ∧
          t.rd F.NET_STAT_ROLE = (if s.rd F.NET_STAT_ROLE = 2 ∧ me < p.subject then 2 else 0) ∧
          t.net = { s.net with links := t.net.links, taken := rests q rest, electOut := false, electWait := false, noBwRaised := false } ∧
          only t [K.NET_STAT, K.LNK_LINK_STAT (s.exitOf q), K.CHIP_BOOT_STAT]))))

/-- The fabric epoch (R269 to R275): the bellwether's packets on both rings, a node that follows them by rate or by a step, the
loss of the epoch, and the delays of the links. -/
def Obligations.TheEpochIsKeptAndLinkDelaysMeasured : Prop :=
  ∀ s : State, s.up .link = true → s.net.links.length = 3 → s.net.taken.length = 4 → s.net.ringHops.length = 2 → s.net.delays.length = 2 →
    let plus := fun (t : State) (key n : Nat) => t.reg key = BitVec.ofNat 32 (satAdd 32 (s.reg key).toNat n)
    let raised := fun (t : State) (code : Nat) => ∃ x ∈ t.flt.raised, x.code = code ∧ x.src = Src.epoch
    let me := s.nodeId
    let role := s.rd F.NET_STAT_ROLE
    let free := s.cadSource ≠ 1
    let qOf := fun (q : Nat) => getAt [] s.net.taken q
    let took := fun (q : Nat) (rest : List Packet) => { s with net := { s.net with taken := setAt s.net.taken q rest } }
    -- the bellwether
    (role ≠ 2 ∨ s.joined = false → exec .epochTx s = .next s) ∧
    (role = 2 → s.joined = true → free →
      let n := (s.net.eseq + 1) % 2 ^ 32
      (s.net.setReq = true → ∃ t, exec .epochTx s = .next t ∧ t.net.epoch = s.epochSet ∧ t.net.steps = (s.net.steps + 1) % 65536 ∧
        t.net.setReq = false ∧ t.net.eseq = n ∧ t.bit F.NET_EPOCH_STAT_VALID = true) ∧
      (s.net.setReq = false → s.net.everSynced = true → s.wrapped 0 = false → s.wrapped 1 = false →
        let p : Packet := ⟨mkW0 bcastNode me 0 0 Kind.EPOCH false 0 0 0 0, mkEpochW1 1 me 0 n, leBytes 8 0 ++ leBytes 2 s.net.steps ++ leBytes 6 0⟩
        let l := fun (k : Nat) => s.link k
        let frame := fun (k : Nat) (q : Packet) =>
          let f := mkFrame 0 (l k).nextSeq (l k).expect true (credWord (l k)) (stampPacket s.net.epoch q).bytes
          Out.frame k f (s.dealt k f)
        s.Clear 0 (p.withInj 0) → s.Clear 1 (p.withInj 1) → ∃ t, exec .epochTx s = .next t ∧
        t.out = frame 0 (p.withInj 1) :: frame 1 (p.withInj 0) :: s.out ∧ plus t K.NET_CNT_TX 2 ∧ t.bit F.NET_EPOCH_STAT_VALID = true ∧
        t.net = { s.net with links := t.net.links, eseq := n, stepsSeen := some s.net.steps, everSynced := true, noBwRaised := false } ∧
        s.Only t [.regs, .net, .stat, .out] ∧
        s.RegsBut t [K.NET_CNT_TX, K.NET_EPOCH_STAT, K.LNK_LINK_STAT 0, K.LNK_LINK_STAT 1])) ∧
    (s.up .mgmt = true → ∀ value node agent, ∃ t, exec (.netEpochSet value node agent) s = .next t ∧ t.reg K.NET_EPOCH_SET_HI = value ∧
      t.net = { s.net with setReq := s.net.setReq || decide (role = 2) } ∧ s.Only t [.regs, .net] ∧ s.RegsBut t [K.NET_EPOCH_SET_HI]) ∧
    -- a node that receives EPOCH packets
    (∀ q, (qOf q).all (fun p => !isEpoch 1 p) = true → exec (.epochRx q) s = .next s) ∧
    (∀ q p rest, q < 4 → qOf q = p :: rest → isEpoch 1 p = true →
      (2 ≤ q ∨ s.returned q p = true → exec (.epochRx q) s = .next (took q rest)) ∧
      -- its own packet, which its own wrap or another's has still to turn (R265; log entry 66)
      (p.src = me → q < 2 → s.returned q p = false →
        (2046 < p.hops + 1 → exec (.epochRx q) s = .next (took q rest)) ∧
        (p.hops + 1 ≤ 2046 → s.Clear q p.incHops → ∃ t, exec (.epochRx q) s = .next t ∧ s.Sent t q p.incHops ∧
          t.net = { s.net with links := t.net.links, taken := setAt s.net.taken q rest } ∧ s.Only t [.regs, .net, .out] ∧
          s.RegsBut t [K.LNK_LINK_STAT (s.exitOf q)])) ∧
      (p.src ≠ me → q < 2 →
        let heard := setAt s.net.ringHops q (some (p.hops, p.eseq))
        (role = 2 → me ≤ p.subject →
          (2046 < p.hops + 1 → exec (.epochRx q) s = .next { s with net := { s.net with taken := setAt s.net.taken q rest, ringHops := heard } }) ∧
          (p.hops + 1 ≤ 2046 → s.Clear q p.incHops → ∃ t, exec (.epochRx q) s = .next t ∧ s.Sent t q p.incHops ∧
            t.net = { s.net with links := t.net.links, taken := setAt s.net.taken q rest, ringHops := heard } ∧ s.Only t [.regs, .net, .out] ∧
            s.RegsBut t [K.LNK_LINK_STAT (s.exitOf q)])) ∧
        (role = 2 → p.subject < me → (s.bit (F.NET_DLY_VALID q) = false ∨ s.bit (F.NET_DLY_ASYM q) = true) → ∃ t, exec (.epochRx q) s = .next t ∧
          t.rd F.NET_STAT_ROLE = 0 ∧ t.rd F.NET_STAT_BWID = p.subject) ∧
        (role ≠ 2 → getAt none s.net.ringHops (1 - q) = none → s.bit (F.NET_DLY_VALID q) = true → s.bit (F.NET_DLY_ASYM q) = false → free →
          let tx := leNum (slice p.payload 0 8)
          let steps := leNum (slice p.payload 8 2)
          let e : Int := (tx : Int) + s.rd (F.NET_DLY_DLY q) - s.net.epoch
          let big := s.rd F.NET_EPOCH_STEP_STEP_NS * 16 < e.natAbs
          let same := s.net.stepsSeen = none ∨ s.net.stepsSeen = some steps
          (¬ big → same → 2046 < p.hops + 1 → ∃ t, exec (.epochRx q) s = .next t ∧
            t.net = { s.net with
              taken := setAt s.net.taken q rest, ringHops := heard, stepsSeen := some steps, steps := steps, everSynced := true, noBwRaised := false
              epochRate := max (-100000) (min 100000 (e * 1000000000 / ((s.rd F.NET_EPOCH_CTL_PERIOD_US * 16000 : Nat) : Int))) } ∧
            t.bit F.NET_EPOCH_STAT_VALID = true ∧ t.rd F.NET_EPOCH_STAT_RING = q ∧ t.rd F.NET_EPOCH_STAT_HOPS = p.hops ∧
            t.rd F.NET_EPOCH_STAT_ERR = sat16 e ∧ s.Only t [.regs, .net] ∧ s.RegsBut t [K.NET_EPOCH_STAT]) ∧
          (big ∨ ¬ same → ∃ t, exec (.epochRx q) s = .next t ∧ t.net.epoch = (tx + s.rd (F.NET_DLY_DLY q)) % 2 ^ 64 ∧ t.net.epochFrac = 0 ∧
            plus t K.NET_CNT_STEP 1 ∧ raised t Code.NET_EPOCH_STEP ∧ t.bit F.NET_EPOCH_STAT_VALID = true ∧
            s.Only t [.regs, .flt, .net, .stat, .out])))) ∧
    (role = 2 → exec .netEpochLoss s = .next s) ∧
    (role ≠ 2 → free →
      (s.anyMaster = false → ∃ t, exec .netEpochLoss s = .next t ∧ t.rd F.NET_STAT_ROLE = 3 ∧ t.rd F.NET_STAT_BWID = 0x7FF ∧
        t.bit F.NET_EPOCH_STAT_VALID = false ∧ t.net = { s.net with ringHops := [none, none], noBwRaised := true } ∧
        raised t Code.NET_EPOCH_LOSS ∧ (s.net.noBwRaised = false → raised t Code.NET_NO_BELLWETHER) ∧ s.Only t [.regs, .flt, .net] ∧
        s.RegsBut t [K.NET_STAT, K.NET_EPOCH_STAT]) ∧
      (s.anyMaster = true → s.joined = false ∨ s.bit F.NET_CTL_MCAP = false → ∃ t, exec .netEpochLoss s = .next t ∧
        t.bit F.NET_EPOCH_STAT_VALID = false ∧ t.net = { s.net with ringHops := [none, none] } ∧
        t.flt = (s.raise Code.NET_EPOCH_LOSS Src.epoch []).flt ∧ s.Only t [.regs, .flt, .net] ∧ s.RegsBut t [K.NET_EPOCH_STAT]) ∧
      (s.joined = true → s.bit F.NET_CTL_MCAP = true → ∃ t, exec .netEpochLoss s = .next t ∧ t.rd F.NET_STAT_ROLE = 1 ∧ t.net.electOut = true ∧
        t.net.round = (s.net.round + 1) % 256 ∧ t.bit F.NET_EPOCH_STAT_VALID = false ∧ s.Only t [.regs, .flt, .net, .stat, .out])) ∧
    -- link delays
    (∀ side, 2 ≤ side ∨ s.linkUp side = false → exec (.delayMeasure side) s = .next s) ∧
    (∀ side, side < 2 → s.linkUp side = true →
      let d := s.delayRec side
      let n := (d.dseq + 1) % 2 ^ 32
      let keys := [K.NET_DLY_W, K.NET_DLY_E, K.LNK_LINK_STAT side]
      (s.timingLane side = false → ∃ t, exec (.delayMeasure side) s = .next t ∧ t.bit (F.NET_DLY_VALID side) = false ∧
        t.bit (F.NET_DLY_ASYM side) = true ∧
        t.flt = (if s.bit (F.NET_DLY_ASYM side) then s.flt else (s.raise Code.NET_EPOCH_ASYM Src.epoch [side]).flt) ∧ s.Only t [.regs, .flt] ∧
        s.RegsBut t keys) ∧
      (s.timingLane side = true → s.wrapped side = false →
        let p : Packet := ⟨mkW0 (s.link side).rnode me 0 0 Kind.EPOCH false (1 - side) 0 0 0, mkEpochW1 2 (s.rd F.NET_STAT_BWID) 0 n, []⟩
        s.Clear (1 - side) p → ∃ t, exec (.delayMeasure side) s = .next t ∧ s.Sent t (1 - side) p ∧ t.bit (F.NET_DLY_ASYM side) = false ∧
        t.delayRec side = { d with dseq := n, open_ := some s.net.epoch } ∧ t.delayRec (1 - side) = s.delayRec (1 - side) ∧
        s.Only t [.regs, .net, .out] ∧ s.RegsBut t keys)) ∧
    (∀ q, (qOf q).all (fun p => !isEpoch 2 p) = true → exec (.delayReqRx q) s = .next s) ∧
    (∀ q, (qOf q).all (fun p => !isEpoch 3 p) = true → exec (.delayRespRx q) s = .next s) ∧
    (∀ q p rest, q < 4 → qOf q = p :: rest →
      (isEpoch 2 p = true →
        (2 ≤ q → exec (.delayReqRx q) s = .next (took q rest)) ∧
        (q < 2 → s.wrapped q = false →
          let a : Packet := ⟨mkW0 p.src me 0 0 Kind.EPOCH false (1 - q) 0 0 0, mkEpochW1 3 (s.rd F.NET_STAT_BWID) 0 p.eseq, leBytes 8 s.net.epoch ++ leBytes 8 0⟩
          s.Clear (1 - q) a → ∃ t, exec (.delayReqRx q) s = .next t ∧ s.Sent t (1 - q) a ∧
          t.net = { s.net with links := t.net.links, taken := setAt s.net.taken q rest } ∧ s.Only t [.regs, .net, .out] ∧
          s.RegsBut t [K.LNK_LINK_STAT q])) ∧
      (isEpoch 3 p = true →
        (2 ≤ q ∨ (s.delayRec q).open_ = none ∨ p.eseq ≠ (s.delayRec q).dseq → exec (.delayRespRx q) s = .next (took q rest)) ∧
        (∀ t1, q < 2 → (s.delayRec q).open_ = some t1 → p.eseq = (s.delayRec q).dseq →
          let t2 := leNum (p.payload.take 8)
          let t3 := leNum (p.payload.drop 8)
          let last := ((((s.net.epoch : Int) - t1 - ((t3 : Int) - t2)) / 2).toNat :: (s.delayRec q).last).take 4
          ∃ t, exec (.delayRespRx q) s = .next t ∧ t.bit (F.NET_DLY_VALID q) = true ∧
          t.rd (F.NET_DLY_DLY q) = (last.foldl (· + ·) 0 / last.length) % 2 ^ 20 ∧
          t.delayRec q = { s.delayRec q with open_ := none, last := last } ∧ s.Only t [.regs, .net] ∧ s.RegsBut t [K.NET_DLY_W, K.NET_DLY_E])))

/-- The oldest fault raised reaches the collector (R362, R367 to R370, R373, R375, R376): what it leaves at IGNORE, NOTE and WARN,
when it merges, and what FENCE and SAFE isolate (R364, R365). `sev` is the severity after R370. -/
def Obligations.FaultReachesCollector : Prop :=
  ∀ (s : State) (f : FaultRec) (rest : List FaultRec), s.up .mgmt = true → s.flt.raised = f :: rest →
    let p := s.programmed f.code f.src
    let esc := decide (2 ≤ p) && !s.bit (F.FLT_SEV_NOESC f.code) && s.bit F.FLT_CTL_ESC_EN &&
      s.entries.any (fun q => q.2.code == f.code && q.2.src != f.src)
    let sev := if esc then min 5 (p + 1) else p
    let fresh := s.entries.all (fun q => !(q.2.code == f.code && q.2.src == f.src)) = true
    let noted := fun (t : State) (v : Nat) (e m : Bool) =>
      t.reg K.FLT_CNT_RAISED = BitVec.ofNat 32 (satAdd 32 (s.reg K.FLT_CNT_RAISED).toNat 1) ∧
      (tget noHist t.flt.history (f.src / 8)) =
        (⟨f.code, f.src % 8, v, e, m, f.cyc, f.frame % 65536, f.phase⟩ :: tget noHist s.flt.history (f.src / 8)).take 8 ∧
      (1 ≤ v → v ≤ 5 → t.statGet (0x1F0 + 4 * (v - 1)) = satAdd 32 (s.statGet (0x1F0 + 4 * (v - 1))) 1) ∧
      (1 ≤ v → s.bit F.FLT_FIRST_VALID = false → t.bit F.FLT_FIRST_VALID = true ∧ t.rd F.FLT_FIRST_SEV = v % 8 ∧
        t.rd F.FLT_FIRST_SOURCE = f.src % 4096 ∧ t.rd F.FLT_FIRST_CODE = f.code % 65536) ∧
      (s.bit F.FLT_FIRST_VALID = true → t.reg K.FLT_FIRST = s.reg K.FLT_FIRST)
    (fresh → p = 0 → ∃ t, exec (.faultRaise 1) s = .next t ∧ noted t 0 false false ∧ t.flt.active = s.flt.active ∧
      t.flt.raised = rest ∧ s.Only t [.regs, .flt] ∧ s.RegsBut t [K.FLT_CNT_RAISED]) ∧
    (∀ e a, s.entries.find? (fun q => q.2.code == f.code && q.2.src == f.src) = some (e, a) → ∃ t,
      exec (.faultRaise 1) s = .next t ∧ noted t p false true ∧
      t.actEntry e = some { a with count := satAdd 16 a.count 1, since := s.ticks } ∧
      (∀ i, i ≠ e → t.actEntry i = s.actEntry i) ∧ t.flt.raised = rest ∧
      t.reg K.FLT_CNT_MERGED = BitVec.ofNat 32 (satAdd 32 (s.reg K.FLT_CNT_MERGED).toNat 1) ∧
      s.Only t [.regs, .flt, .stat] ∧ s.RegsBut t [K.FLT_CNT_RAISED, K.FLT_CNT_MERGED, K.FLT_FIRST]) ∧
    (∀ e, fresh → sev = 1 ∨ sev = 2 → e < 256 → s.actEntry e = none → (∀ i, i < e → (s.actEntry i).isSome = true) → ∃ t,
      exec (.faultRaise 1) s = .next t ∧ noted t sev esc false ∧
      t.actEntry e = some ⟨f.code, f.src, sev, esc, 1, f.frame % 65536, f.phase, s.flt.nextOrder, s.ticks⟩ ∧
      (∀ i, i ≠ e → t.actEntry i = s.actEntry i) ∧
      t.flt.errPulse = (s.flt.errPulse || decide (s.rd F.FLT_ERR_THRESH ≤ sev) || f.code == Code.REC_BOTH_FAIL) ∧
      (sev = 2 → bitOf (t.reg (0x8020 + 4 * (f.src / 512))) (f.src / 8 % 64) = true ∨ 24 ≤ f.src / 8 % 64 ∨ 5 ≤ f.src / 512) ∧
      (sev = 1 → s.Only t [.regs, .flt, .drv, .stat, .recd])) ∧
    (sev = 4 → fresh → f.src / 512 = 0 → ∃ t, exec (.faultRaise 1) s = .next t ∧ t.flt.fencedLink = true ∧ t.flt.safe = s.flt.safe) ∧
    (sev = 4 → fresh → f.src / 512 = 1 → ∃ t, exec (.faultRaise 1) s = .next t ∧ t.flt.fencedHost = true ∧ t.flt.safe = s.flt.safe) ∧
    (sev = 5 → fresh → ∃ t, exec (.faultRaise 1) s = .next t ∧ t.flt.safe = true)

/-- Entries, SAFE and FENCE clear under their conditions (R366, R371, R376 to R378), and FLT_INJ arms (R379). -/
def Obligations.FaultsClearUnderConditions : Prop :=
  ∀ s : State, s.up .mgmt = true →
    (∀ e a, s.actEntry e = some a → s.present a.code a.src = true → ∃ t, exec (.fltActClear e) s = .next t ∧ t.flt = s.flt ∧
      t.reg K.FLT_CNT_CLR_REFUSED = BitVec.ofNat 32 (satAdd 32 (s.reg K.FLT_CNT_CLR_REFUSED).toNat 1) ∧
      s.Only t [.regs] ∧ s.RegsBut t [K.FLT_CNT_CLR_REFUSED]) ∧
    (∀ e a, s.actEntry e = some a → s.present a.code a.src = false → a.src / 8 ≠ 206 →
      exec (.fltActClear e) s = .next (s.setEntry e none)) ∧
    (∀ e a, s.actEntry e = some a → s.present a.code a.src = false → ∃ t, exec (.fltActClear e) s = .next t ∧
      t.actEntry e = none ∧ (∀ i, i ≠ e → t.actEntry i = s.actEntry i) ∧ s.Only t [.regs, .flt, .pwr]) ∧
    (∀ e a, s.actEntry e = some a → a.sev = 1 → s.present a.code a.src = false → s.rd F.FLT_CTL_NOTE_AGE_MS ≠ 0 →
      a.since + s.rd F.FLT_CTL_NOTE_AGE_MS * 100000 ≤ s.ticks → ∃ t, exec (.faultNoteAge e) s = .next t ∧
      t.actEntry e = none ∧ (∀ i, i ≠ e → t.actEntry i = s.actEntry i) ∧ s.Only t [.regs, .flt, .pwr]) ∧
    (∀ e a, s.actEntry e = some a → a.sev ≠ 1 ∨ s.present a.code a.src = true ∨ s.rd F.FLT_CTL_NOTE_AGE_MS = 0 →
      exec (.faultNoteAge e) s = .next s) ∧
    exec .errNPulseEnd s = .next { s with flt := { s.flt with errPulse := false } } ∧
    (s.flt.safe = true → s.entries.any (fun p => decide (5 ≤ p.2.sev)) = true → ∃ t, exec .safeExit s = .next t ∧
      t.flt = s.flt ∧ t.reg K.FLT_CNT_CLR_REFUSED = BitVec.ofNat 32 (satAdd 32 (s.reg K.FLT_CNT_CLR_REFUSED).toNat 1) ∧
      s.Only t [.regs] ∧ s.RegsBut t [K.FLT_CNT_CLR_REFUSED]) ∧
    (s.flt.safe = true → s.entries.any (fun p => decide (5 ≤ p.2.sev)) = false → ∃ t, exec .safeExit s = .next t ∧
      t.flt.safe = false ∧ t.flt.active = s.flt.active ∧ s.Only t [.regs, .flt, .vme, .vin, .ord, .stat, .port, .out]) ∧
    (s.entries.any (fun p => srcArea p.2.src == 0 && decide (4 ≤ p.2.sev)) = false →
      exec (.unfence 8) s = .next { s with flt := { s.flt with fencedLink := false } }) ∧
    (s.entries.any (fun p => srcArea p.2.src == 1 && decide (4 ≤ p.2.sev)) = false →
      exec (.unfence 4) s = .next { s with flt := { s.flt with fencedHost := false } }) ∧
    (s.flt.fencedEdge = true → s.entries.any (fun p => srcArea p.2.src == 3 && decide (4 ≤ p.2.sev)) = false → ∃ t,
      exec (.unfence 1) s = .next t ∧ t.flt.fencedEdge = false ∧ t.flt.safe = s.flt.safe) ∧
    (s.entries.any (fun p => srcArea p.2.src == 0 && decide (4 ≤ p.2.sev)) = true → ∃ t, exec (.unfence 8) s = .next t ∧
      t.flt = s.flt ∧ t.reg K.FLT_CNT_CLR_REFUSED = BitVec.ofNat 32 (satAdd 32 (s.reg K.FLT_CNT_CLR_REFUSED).toNat 1)) ∧
    (∀ (v : Word) node agent, bitsOf v 26 24 = 0 ∨ bitsOf v 26 24 = 1 ∨ bitsOf v 26 24 = 2 ∨ bitsOf v 26 24 = 4 ∨ bitsOf v 26 24 = 6 →
      ∃ t, exec (.fltInjArm v node agent) s = .next t ∧ t.bit F.FLT_INJ_PENDING = true ∧
        t.flt.inject = some (bitsOf v 26 24, bitsOf v 16 0, bitOf v 30) ∧ t.rd F.FLT_INJ_AREA = bitsOf v 26 24 ∧
        t.rd F.FLT_INJ_INDEX = bitsOf v 16 0 ∧ s.Only t [.regs, .flt] ∧ s.RegsBut t [K.FLT_INJ])

/-- The recorder's MRAM port ends its writes (R385, R387, R399, R400, R404): a write that reads back equal is in the MRAM and the
next follows; the last of a record counts it, advances NEXT and sends the control copies; a first failure repeats the write, a second
marks its area and is reported. The bytes of a failed write are free values (log entry 6). -/
def Obligations.RecorderWritesAndVerifies : Prop :=
  ∀ (s : State) (op : RecOp) (rest : List RecOp), s.up .recorder = true → s.recd.ops = op :: rest →
    let written := twrites zeroByte s.recd.mram op.at_ op.bytes
    let failed := fun (good : Bool) (flag : Fld) (code : Nat) => ∃ t, exec (.recWriteDone good) s = .next t ∧ t.bit flag = true ∧
      (∃ f ∈ t.flt.raised, f.code = code ∧ f.src = Src.recorder) ∧
      t.recd.mram = twrites zeroByte s.recd.mram op.at_ (s.freeBytes op.bytes.length).1 ∧
      t.reg K.REC_CNT_VERIFY = BitVec.ofNat 32 (satAdd 32 (s.reg K.REC_CNT_VERIFY).toNat 1) ∧
      s.Only t [.regs, .flt, .drv, .stat, .recd, .freeCtr] ∧ s.RegsBut t [K.REC_STAT, K.REC_CNT_VERIFY, K.REC_CNT_DROP, K.FLT_CHIP_STAT]
    (s.recd.failNext = 0 → rest ≠ [] → exec (.recWriteDone true) s = .next { s with recd := { s.recd with
      mram := written, ops := rest, again := false, failNext := 0 } }) ∧
    (∀ e, s.recd.failNext = 0 → rest = [] → s.recd.now = some e → e.code ≠ Code.REC_C_FAIL → e.code ≠ RecCode.CLEARED → s.bit F.REC_STAT_READY = true →
      s.bit F.REC_STAT_CTL_FAIL = false → ∃ t, exec (.recWriteDone true) s = .next t ∧ t.recd.mram = written ∧
        t.recd.next = satAdd 32 s.recd.next 1 ∧ t.recd.now = none ∧ t.recd.queue = s.recd.queue ∧
        t.recd.ops = t.recd.copies ∧ t.recd.ctlDue = false ∧ t.recd.seconds = s.recd.seconds ∧
        t.reg K.REC_CNT_WRITTEN = BitVec.ofNat 32 (satAdd 32 (s.reg K.REC_CNT_WRITTEN).toNat 1) ∧
        s.Only t [.regs, .stat, .recd] ∧ s.RegsBut t [K.REC_CNT_WRITTEN]) ∧
    (∀ good, good = false ∨ 0 < s.recd.failNext → s.recd.again = false → ∃ t, exec (.recWriteDone good) s = .next t ∧
      t.recd = { s.recd with
        mram := twrites zeroByte s.recd.mram op.at_ (s.freeBytes op.bytes.length).1, again := true, failNext := s.recd.failNext - 1 } ∧
      t.reg K.REC_CNT_VERIFY = BitVec.ofNat 32 (satAdd 32 (s.reg K.REC_CNT_VERIFY).toNat 1) ∧
      s.Only t [.regs, .stat, .recd, .freeCtr] ∧ s.RegsBut t [K.REC_CNT_VERIFY]) ∧
    (∀ good, good = false ∨ 0 < s.recd.failNext → s.recd.again = true →
      (op.area = 0 → s.bit F.REC_STAT_C_FAIL = false → failed good F.REC_STAT_P_FAIL Code.REC_P_FAIL) ∧
      (op.area = 1 → s.bit F.REC_STAT_P_FAIL = false → failed good F.REC_STAT_C_FAIL Code.REC_C_FAIL) ∧
      (op.area = 2 → failed good F.REC_STAT_CTL_FAIL Code.REC_BOTH_FAIL ∧ failed good F.FLT_CHIP_STAT_REC_FAIL Code.REC_BOTH_FAIL))

/-- The recorder's time, its clearing, its hold of failed authentication, RETEST and its injections (R390, R393, R397, R398, R401,
R404, R455). -/
def Obligations.RecorderKeepsTimeAndClears : Prop :=
  ∀ s : State, s.up .recorder = true →
    (s.recd.ops ≠ [] → exec .recSecondTick s = .next { s with recd := { s.recd with
      seconds := min (2 ^ 40 - 1) (s.recd.seconds + 1), ctlDue := true } }) ∧
    (s.recd.ops = [] → s.bit F.REC_STAT_READY = true → s.bit F.REC_STAT_CTL_FAIL = false → ∃ t, exec .recSecondTick s = .next t ∧
      t.recd.seconds = min (2 ^ 40 - 1) (s.recd.seconds + 1) ∧ t.recd.ops = t.recd.copies ∧ t.recd.next = s.recd.next ∧
      t.recd.queue = s.recd.queue ∧ t.recd.mram = s.recd.mram ∧ s.Only t [.recd]) ∧
    (∀ v, s.boot.held.contains 2 = true → s.recd.seconds < v → v < 2 ^ 40 → ∃ t, exec (.mfgSeconds v) s = .next t ∧
      t.recd.seconds = v ∧ t.tap = { s.tap with ir := 0x41 } ∧ t.recd.mram = s.recd.mram ∧
      s.Only t [.regs, .flt, .drv, .stat, .recd, .tap]) ∧
    (∀ v, v < 2 ^ 40 → s.boot.held.contains 2 = false ∨ v ≤ s.recd.seconds →
      exec (.mfgSeconds v) s = .next { s with tap := { s.tap with ir := 0x41 } }) ∧
    exec .authHoldEnd s = .next (s.wr F.REC_STAT_AUTH_HOLD 0) ∧
    (∃ t, exec .recRetest s = .next t ∧ t.bit F.REC_STAT_P_FAIL = false ∧ t.bit F.REC_STAT_C_FAIL = false ∧
      t.bit F.REC_STAT_CTL_FAIL = false ∧ t.recd.mram = s.recd.mram ∧ t.recd.seconds = s.recd.seconds ∧ t.recd.next = s.recd.next ∧
      s.Only t [.regs, .flt, .drv, .stat, .recd] ∧ s.RegsBut t [K.REC_STAT, K.REC_CNT_DROP]) ∧
    (∀ v : Word, ∃ t, exec (.recInjArm v) s = .next t ∧ t.recd = { s.recd with inject := some (bitOf v 30) } ∧
      t.rd F.REC_INJ_KIND = bitsOf v 30 30 ∧ s.Only t [.regs, .recd] ∧ s.RegsBut t [K.REC_INJ]) ∧
    -- a CLEAR: the memory is zeroed, then CLEARED is written as record 0, then the control copies, then the command completes
    (let zeroed := fun (t : State) => (∀ a, a < 0x200000 ∨ (0x200060 ≤ a ∧ a < 0x201000) → tget zeroByte t.recd.mram a = 0) ∧
       (∀ a, (0x200000 ≤ a ∧ a < 0x200060) ∨ 0x201000 ≤ a → tget zeroByte t.recd.mram a = tget zeroByte s.recd.mram a)
     (s.recd.clearing = none ∨ s.recd.clearStep ≠ .zeroing ∨ s.recd.now ≠ none → exec .recClearDone s = .next s) ∧
     (∀ k, s.recd.clearing = some k → s.recd.clearStep = .zeroing → s.recd.now = none →
       let e : RecEntry := ⟨RecCode.CLEARED, s.recd.seconds, s.recd.pcyc, s.frame % 65536,
         [BitVec.ofNat 32 (k.srcNode * 2 ^ 16 + k.agent * 2 ^ 8), BitVec.ofNat 32 (min s.recd.next 4095),
          BitVec.ofNat 32 (min (s.recd.next - 4095) 61440), BitVec.ofNat 32 (s.recd.next - 65535)]⟩
       (s.recd.ops ≠ [] → ∃ t, exec .recClearDone s = .next t ∧ zeroed t ∧
         t.recd = { s.recd with mram := t.recd.mram, clearStep := .record e } ∧ s.Only t [.recd]) ∧
       (s.recd.ops = [] → s.bit F.REC_STAT_READY = true → s.recd.ctlDue = false → s.bit F.REC_STAT_CTL_FAIL = false →
         s.bit F.REC_STAT_P_FAIL = false → s.recd.inject = none → ∃ t, exec .recClearDone s = .next t ∧ zeroed t ∧
         t.recd = { s.recd with
           mram := t.recd.mram, clearStep := .record e, now := some e, again := false, failNext := 0
           ops := recOps (s.rd F.REC_CTL_CHECK) 0 0 e.body false } ∧ s.Only t [.recd]))) ∧
    (∀ op, s.recd.ops = [op] → s.recd.failNext = 0 → s.bit F.REC_STAT_READY = true → s.bit F.REC_STAT_CTL_FAIL = false →
      let written := twrites zeroByte s.recd.mram op.at_ op.bytes
      (∀ e, s.recd.now = some e → e.code = RecCode.CLEARED → ∃ t, exec (.recWriteDone true) s = .next t ∧ t.recd.mram = written ∧
        t.recd.next = 1 ∧ t.recd.clears = s.recd.clears + 1 ∧ t.recd.now = none ∧ t.recd.clearStep = .copies ∧
        t.recd.clearing = s.recd.clearing ∧ t.recd.ops = t.recd.copies ∧ t.recd.queue = s.recd.queue ∧
        t.reg K.REC_CNT_WRITTEN = BitVec.ofNat 32 (satAdd 32 (s.reg K.REC_CNT_WRITTEN).toNat 1) ∧
        s.Only t [.regs, .stat, .recd] ∧ s.RegsBut t [K.REC_CNT_WRITTEN]) ∧
      (∀ k, s.recd.now = none → s.recd.ctlDue = false → s.recd.clearing = some k → s.recd.clearStep = .copies → s.recd.queue = [] → ∃ t,
        exec (.recWriteDone true) s = .next t ∧ t.recd.mram = written ∧ t.recd.clearing = none ∧ t.bit F.REC_STAT_CLEARING = false ∧
        t.recd.ops = [] ∧ t.recd.next = s.recd.next ∧ t.recd.seconds = s.recd.seconds ∧
        (s.recd.clearDropped = false → t.drv.results = s.drv.results ++ [(k, ⟨St.OK, 0, leBytes 8 0⟩)]) ∧
        (s.recd.clearDropped = true → t.drv = s.drv) ∧ s.Only t [.regs, .drv, .recd] ∧ s.RegsBut t [K.REC_STAT]))

/-- A slot's module comes and goes, settles and starts (R412, R413, R416). -/
def Obligations.SlotsFollowModules : Prop :=
  ∀ (s : State) (n : Nat), s.up .edge = true → n < 8 →
    let stat := [K.PWR_SLOT_STAT n]
    (s.bit (F.PWR_SLOT_STAT_PRESENT n) = false → ∃ t, exec (.slotPresentChange n true) s = .next t ∧
      t.bit (F.PWR_SLOT_STAT_PRESENT n) = true ∧ t.slotSt n = s.slotSt n ∧
      t.flt = (s.raise Code.PWR_SLOT_PRESENT (Src.slot n) [n, 1]).flt ∧ s.Only t [.regs, .flt] ∧ s.RegsBut t stat) ∧
    (s.bit (F.PWR_SLOT_STAT_PRESENT n) = true → s.slotSt n = 2 ∨ s.slotSt n = 3 → ∃ t,
      exec (.slotPresentChange n false) s = .next t ∧ t.bit (F.PWR_SLOT_STAT_PRESENT n) = false ∧ t.slotSt n = 1 ∧
      t.bit (F.PWR_SLOT_STAT_EN_OUT n) = false ∧ t.bit (F.PWR_SLOT_STAT_PG n) = false ∧
      t.bit (F.PWR_SLOT_STAT_FTIMER n) = false ∧ (t.pslot n).settled = false ∧ (t.pslot n).retryEnd = (s.pslot n).retryEnd ∧
      t.flt = (s.raise Code.PWR_SLOT_PRESENT (Src.slot n) [n, 0]).flt ∧ s.Only t [.regs, .flt, .pwr] ∧ s.RegsBut t stat) ∧
    (s.bit (F.PWR_SLOT_STAT_PRESENT n) = true → s.slotSt n = 4 → (s.pslot n).retryEnd.isSome = true → ∃ t,
      exec (.slotPresentChange n false) s = .next t ∧ t.bit (F.PWR_SLOT_STAT_PRESENT n) = false ∧ t.slotSt n = 4 ∧
      (t.pslot n).retryEnd = (s.pslot n).retryEnd ∧ s.Only t [.regs, .flt, .pwr] ∧ s.RegsBut t stat) ∧
    (s.bit (F.PWR_SLOT_STAT_PRESENT n) = true → s.slotSt n = 1 →
      exec (.slotInsertSettled n) s = .next (s.setPslot n { s.pslot n with settled := true, ready := true })) ∧
    (s.bit (F.PWR_SLOT_STAT_PRESENT n) = true → s.slotSt n ≠ 1 →
      exec (.slotInsertSettled n) s = .next (s.setPslot n { s.pslot n with settled := true })) ∧
    ((s.pslot n).ready = true → s.mayStart n = true → s.bit F.PWR_STAT_WARN = false →
      s.bit (F.PWR_SLOT_STAT_PG_IN n) = false → s.bit (F.PWR_SLOT_STAT_FAULT n) = false → ∃ t,
      exec (.slotStart n) s = .next t ∧ t.slotSt n = 2 ∧ t.bit (F.PWR_SLOT_STAT_EN_OUT n) = true ∧
      (t.pslot n).ready = false ∧ (t.pslot n).startAt = some s.ticks ∧ t.bit (F.PWR_SLOT_STAT_FTIMER n) = false ∧
      s.Only t [.regs, .pwr] ∧ s.RegsBut t stat) ∧
    ((s.pslot n).ready = true → s.mayStart n = true → s.bit F.PWR_STAT_WARN = true → s.bit (F.PWR_SLOT_CTL_SHED n) = true → ∃ t,
      exec (.slotStart n) s = .next t ∧ t.bit (F.PWR_SLOT_STAT_EN_OUT n) = false ∧ t.bit (F.PWR_SLOT_STAT_PG n) = false ∧
      (t.pslot n).shed = true ∧ s.Only t [.regs, .pwr] ∧ s.RegsBut t stat) ∧
    ((s.pslot n).ready = false ∨ s.mayStart n = false → exec (.slotStart n) s = .next s)

/-- A slot's fault and power-good inputs, its trips and its retry (R414, R415, R418). -/
def Obligations.SlotsTripAndRetry : Prop :=
  ∀ (s : State) (n : Nat), s.up .edge = true → n < 8 →
    let stat := [K.PWR_SLOT_STAT n]
    let tripped := fun (i : Instr) (cause : Nat) => ∃ t, exec i s = .next t ∧ t.slotSt n = 4 ∧
      t.bit (F.PWR_SLOT_STAT_EN_OUT n) = false ∧ t.bit (F.PWR_SLOT_STAT_PG n) = false ∧ t.bit (F.PWR_SLOT_STAT_FTIMER n) = false ∧
      t.rd (F.PWR_SLOT_STAT_CAUSE n) = cause ∧ t.rd (F.PWR_SLOT_STAT_RETRY_LEFT n) = s.rd (F.PWR_SLOT_TIME_RETRY_10MS n) ∧
      (t.pslot n).retryEnd = some (s.ticks + s.rd (F.PWR_SLOT_TIME_RETRY_10MS n) * 1000000) ∧
      t.reg (K.PWR_SLOT_CNT_TRIP n) = BitVec.ofNat 32 (satAdd 32 (s.reg (K.PWR_SLOT_CNT_TRIP n)).toNat 1) ∧
      t.statGet (0x260 + 4 * n) = satAdd 32 (s.statGet (0x260 + 4 * n)) 1 ∧
      t.flt = (s.raise Code.PWR_SLOT_TRIP (Src.slot n)
        [n, cause, s.rd (F.PWR_MEAS_I_MA (2 + n)), s.rd (F.PWR_SLOT_TIME_RETRY_10MS n)]).flt ∧
      s.Only t [.regs, .flt, .stat, .pwr] ∧ s.RegsBut t [K.PWR_SLOT_STAT n, K.PWR_SLOT_CNT_TRIP n]
    (s.slotLive n = true → (s.pslot n).shed = false → ∀ pg, ∃ t, exec (.slotFaultIn n true pg) s = .next t ∧
      t.bit (F.PWR_SLOT_STAT_FAULT n) = true ∧ t.bit (F.PWR_SLOT_STAT_PG_IN n) = pg ∧ t.bit (F.PWR_SLOT_STAT_FTIMER n) = true ∧
      t.bit (F.PWR_SLOT_STAT_PG n) = false ∧ t.slotSt n = s.slotSt n ∧ s.Only t [.regs] ∧ s.RegsBut t stat) ∧
    (s.slotLive n = true → (s.pslot n).shed = false → ∃ t, exec (.slotFaultIn n false true) s = .next t ∧
      t.bit (F.PWR_SLOT_STAT_FTIMER n) = false ∧ t.bit (F.PWR_SLOT_STAT_PG n) = true ∧ t.slotSt n = 3 ∧
      s.Only t [.regs] ∧ s.RegsBut t stat) ∧
    (s.slotSt n = 3 → (s.pslot n).shed = false → ∃ t, exec (.slotFaultIn n false false) s = .next t ∧
      t.bit (F.PWR_SLOT_STAT_FTIMER n) = true ∧ t.bit (F.PWR_SLOT_STAT_PG n) = false ∧ t.slotSt n = 3 ∧
      s.Only t [.regs] ∧ s.RegsBut t stat) ∧
    (s.bit (F.PWR_SLOT_STAT_FTIMER n) = true → s.slotLive n = true → (s.pslot n).shed = false →
      s.bit (F.PWR_SLOT_STAT_FAULT n) = true → tripped (.slotTrip n) 1) ∧
    (s.bit (F.PWR_SLOT_STAT_FTIMER n) = true → s.slotSt n = 3 → (s.pslot n).shed = false →
      s.bit (F.PWR_SLOT_STAT_FAULT n) = false → s.bit (F.PWR_SLOT_STAT_PG_IN n) = false → tripped (.slotTrip n) 2) ∧
    (s.slotCond n = 0 → exec (.slotTrip n) s = .next s) ∧
    (s.slotSt n = 2 → s.bit (F.PWR_SLOT_STAT_PG n) = false → (s.pslot n).shed = false → tripped (.slotStartTimeout n) 3) ∧
    ((s.pslot n).retryEnd.isSome = true → s.bit (F.PWR_SLOT_CTL_EN n) = false → ∃ t, exec (.slotRetryExpiry n) s = .next t ∧
      t.slotSt n = 0 ∧ t.bit (F.PWR_SLOT_STAT_EN_OUT n) = false ∧ (t.pslot n).retryEnd = none ∧ t.rd (F.PWR_SLOT_STAT_RETRY_LEFT n) = 0 ∧
      s.Only t [.regs, .pwr] ∧ s.RegsBut t stat) ∧
    ((s.pslot n).retryEnd.isSome = true → s.bit (F.PWR_SLOT_CTL_EN n) = true → s.slotDegraded n = true → ∃ t,
      exec (.slotRetryExpiry n) s = .next t ∧ t.slotSt n = 5 ∧ t.bit (F.PWR_SLOT_STAT_EN_OUT n) = false ∧
      (t.pslot n).retryEnd = none ∧ s.Only t [.regs, .pwr] ∧ s.RegsBut t stat) ∧
    ((s.pslot n).retryEnd.isSome = true → s.bit (F.PWR_SLOT_CTL_EN n) = true → s.slotDegraded n = false →
      s.bit (F.PWR_SLOT_STAT_PRESENT n) = false ∨ (s.pslot n).settled = false → ∃ t,
      exec (.slotRetryExpiry n) s = .next t ∧ t.slotSt n = 1 ∧ (t.pslot n).retryEnd = none ∧ s.Only t [.regs, .pwr] ∧ s.RegsBut t stat) ∧
    (∀ v : Word, bitOf v 31 = false → (s.pslot n).retryEnd = none → ∃ t, exec (.slotEnWrite n v) s = .next t ∧ t.slotSt n = 0 ∧
      t.bit (F.PWR_SLOT_STAT_EN_OUT n) = false ∧ t.bit (F.PWR_SLOT_CTL_EN n) = false ∧ t.bit (F.PWR_SLOT_CTL_SHED n) = bitOf v 30 ∧
      s.Only t [.regs, .pwr] ∧ s.RegsBut t [K.PWR_SLOT_CTL n, K.PWR_SLOT_STAT n]) ∧
    (∀ v : Word, bitOf v 31 = true → (s.pslot n).retryEnd = none → s.slotSt n = 0 → s.slotDegraded n = false → ∃ t,
      exec (.slotEnWrite n v) s = .next t ∧ t.slotSt n = 1 ∧ t.bit (F.PWR_SLOT_CTL_EN n) = true ∧
      (t.pslot n).ready = (s.bit (F.PWR_SLOT_STAT_PRESENT n) && (s.pslot n).settled) ∧
      s.Only t [.regs, .pwr] ∧ s.RegsBut t [K.PWR_SLOT_CTL n, K.PWR_SLOT_STAT n]) ∧
    (∀ v : Word, (s.pslot n).retryEnd.isSome = true → ∃ t, exec (.slotEnWrite n v) s = .next t ∧ t.slotSt n = s.slotSt n ∧
      t.bit (F.PWR_SLOT_CTL_EN n) = bitOf v 31 ∧ t.pwr = s.pwr ∧ s.Only t [.regs] ∧ s.RegsBut t [K.PWR_SLOT_CTL n])

/-- The core supply droops and recovers: CLK_CORE halves, the droop counts and is reported; then the clock is whole again
(R419, R420).
A feed becomes low on its UV input; the warning stands while every fitted feed is low, and ends with the feeds' recovery
(R410, R411, R417). -/
def Obligations.SupplyDroopsAndFeedsWarn : Prop :=
  (∀ s : State, s.up .mgmt = true →
     (s.bit F.CLK_DROOP_CTL_EN = true → s.bit F.CLK_STAT_HALF = false → ∃ t, exec .droopDetect s = .next t ∧
       t.bit F.CLK_STAT_HALF = true ∧ t.reg K.CLK_CNT_DROOP = BitVec.ofNat 32 (satAdd 32 (s.reg K.CLK_CNT_DROOP).toNat 1) ∧
       t.flt = (s.raise Code.CLK_DROOP Src.droop []).flt ∧ s.Only t [.regs, .flt, .stat] ∧
       s.RegsBut t [K.CLK_STAT, K.CLK_CNT_DROOP]) ∧
     (s.bit F.CLK_DROOP_CTL_EN = false ∨ s.bit F.CLK_STAT_HALF = true → exec .droopDetect s = .next s) ∧
     ∃ t, exec .droopClean s = .next t ∧ t.bit F.CLK_STAT_HALF = false ∧ s.Only t [.regs] ∧ s.RegsBut t [K.CLK_STAT]) ∧
  (∀ s : State, s.up .edge = true →
     (∀ x, x < 2 → s.bit F.PWR_CTL_FAST_EN = true → s.bit (F.feedFit x) = true → s.bit (F.feedLow x) = false →
       s.bit (F.feedFit (1 - x)) = true → s.bit (F.feedLow (1 - x)) = false → ∃ t,
       exec (.pwrFeedUv x true) s = .next t ∧ t.bit (F.feedUv x) = true ∧ t.bit (F.feedLow x) = true ∧
       t.bit F.PWR_STAT_WARN = s.bit F.PWR_STAT_WARN ∧ t.flt = (s.raise Code.PWR_FEED_LOW (Src.feed x) []).flt ∧
       s.Only t [.regs, .flt] ∧ s.RegsBut t [K.PWR_STAT]) ∧
     (∀ x, x < 2 → s.bit F.PWR_CTL_FAST_EN = true → s.bit (F.feedFit x) = true → s.bit (F.feedLow x) = false →
       s.bit (F.feedFit (1 - x)) = false ∨ s.bit (F.feedLow (1 - x)) = true → s.bit F.PWR_STAT_WARN = false →
       s.rd F.CHIP_PF_STAT_STATE = 0 → s.ord.wc = [] → (∀ n, n < 8 → s.bit (F.PWR_SLOT_CTL_SHED n) = false) → ∃ t,
       exec (.pwrFeedUv x true) s = .next t ∧ t.bit (F.feedLow x) = true ∧ t.bit F.PWR_STAT_WARN = true ∧
       t.bit F.PWR_FLAGS_PFW_SEEN = true ∧ t.reg K.PWR_CNT_PFW = BitVec.ofNat 32 (satAdd 32 (s.reg K.PWR_CNT_PFW).toNat 1) ∧
       t.rd F.CHIP_PF_STAT_STATE = 1 ∧ t.ord.pfSince = some s.us ∧
       t.flt = ((s.raise Code.PWR_FEED_LOW (Src.feed x) []).raise Code.PWR_FAIL_WARN (Src.feed 0) []).flt ∧
       s.Only t [.regs, .flt, .ord] ∧ s.RegsBut t [K.PWR_STAT, K.PWR_FLAGS, K.PWR_CNT_PFW, K.CHIP_PF_STAT]) ∧
     (s.bit F.PWR_STAT_WARN = true → s.feedsLow = false → s.rd F.CHIP_PF_STAT_STATE = 0 → ∃ t, exec .pwrFailEnd s = .next t ∧
       t.bit F.PWR_STAT_WARN = false ∧ (∀ n, n < 8 → (s.pslot n).shed = true → (t.pslot n).ready = true) ∧
       (∀ n, n < 8 → (s.pslot n).shed = false → t.pslot n = s.pslot n) ∧
       t.flt = (s.raise Code.PWR_FAIL_END (Src.feed 0) []).flt ∧
       s.Only t [.regs, .flt, .pwr] ∧ s.RegsBut t [K.PWR_STAT]))

/-- The PMBus host (R406 to R409): what enabling writes, what a sample cycle reads, how a reading lands, a retry, an alert. -/
def Obligations.PmbusHostSamplesDevices : Prop :=
  ∀ s : State, s.up .edge = true →
    (∀ d, d < 10 → s.up .mgmt = true → s.halted 4 = true → s.bit F.PWR_CTL_EN = false → s.bit (F.PWR_DEV_EN d) = true →
      (∀ e, e < 10 → e ≠ d → s.bit (F.PWR_DEV_EN e) = false) → s.boot.pmbusWrites = [] → (s.pmb (pmbPortOf d)).ops = [] →
      pmbPortOf d < s.pwr.ports.length →
      -- neither feed is to be judged otherwise than it stands
      (∀ x, x < 2 → s.bit (F.feedLow x) = false ∧ (s.bit (F.feedFit x) = false ∨ (s.bit (F.feedUv x) = false ∧ (s.pdev x).mv = none))) →
      ∀ (node agent : Nat), ∃ t, exec (.pwrEnable (s.reg K.PWR_CTL) node agent) s = .next t ∧ t.bit F.PWR_CTL_EN = true ∧
        (let w := (Config.freeValue 16 s.freeCtr).toNat
         let c := if d < 2 then 0x58 else 0x4A
         (t.pmb (pmbPortOf d)).ops = (if 2 ≤ d then [⟨d, 0x20, .mode, 0⟩] else []) ++ [⟨d, c, .write, w⟩, ⟨d, c, .back, w⟩]) ∧
        s.Only t [.regs, .pwr, .out, .freeCtr] ∧ s.RegsBut t [K.PWR_CTL]) ∧
    (s.halting 4 = false → s.bit F.PWR_CTL_EN = true → s.pwr.ports.length = 2 → (∀ p, p < 2 → (s.pmb p).ops = []) →
      (∀ d, d < 10 → (s.pdev d).cycled = false) → ∃ t, exec .pwrSampleCycle s = .next t ∧
      (∀ p, p < 2 → (t.pmb p).ops = (pmbDevs p).flatMap (fun d => if s.bit (F.PWR_DEV_EN d) then
        [(⟨d, if d < 2 then 0x88 else 0x8B, .volts, 0⟩ : PmbOp), ⟨d, if d < 2 then 0x89 else 0x8C, .amps, 0⟩] else [])) ∧
      (∀ d, d < 10 → (t.pdev d).cycled = s.bit (F.PWR_DEV_EN d)) ∧ s.Only t [.pwr, .out]) ∧
    (∀ p w o rest v, p < s.pwr.ports.length → (s.pmb p).ops = o :: rest → o.kind = .amps → 2 ≤ o.dev → o.dev < 10 →
      (s.pdev o.dev).volts = some v → ∃ t, exec (.pmbusTransactionDone p 0 w) s = .next t ∧
      t.rd (F.PWR_MEAS_V_MV o.dev) = v % 65536 ∧ t.bit (F.PWR_MEAS_V_VALID o.dev) = true ∧
      t.rd (F.PWR_MEAS_I_MA o.dev) = linear11 w ∧ t.rd (F.PWR_MEAS_P_MW o.dev) = v * linear11 w / 1000 % 2 ^ 24 ∧
      (t.pdev o.dev).uj = satAdd 64 (s.pdev o.dev).uj (v * linear11 w / 1000) ∧ (t.pdev o.dev).missing = 0 ∧
      (t.pmb p).ops = rest ∧ s.Only t [.regs, .stat, .pwr, .out] ∧
      s.RegsBut t [K.PWR_MEAS_V o.dev, K.PWR_MEAS_I o.dev, K.PWR_MEAS_P o.dev, K.PWR_E_LO o.dev, K.PWR_E_HI o.dev]) ∧
    (∀ p w cause o rest, p < s.pwr.ports.length → (s.pmb p).ops = o :: rest → cause = 1 ∨ cause = 2 → (s.pmb p).again = false →
      ∃ t, exec (.pmbusTransactionDone p cause w) s = .next t ∧ (t.pmb p) = ⟨o :: rest, true⟩ ∧ s.Only t [.pwr, .out]) ∧
    (∀ p w cause o rest, p < s.pwr.ports.length → (s.pmb p).ops = o :: rest → cause = 1 ∨ cause = 2 → (s.pmb p).again = true →
      ∃ t, exec (.pmbusTransactionDone p cause w) s = .next t ∧ (t.pmb p) = ⟨rest, false⟩ ∧ (t.pdev o.dev).cause = cause ∧
        (t.pdev o.dev).lastCmd = o.cmd ∧ s.Only t [.pwr, .out]) ∧
    (∀ p, p < 2 → s.pwr.ports.length = 2 → s.bit F.PWR_CTL_EN = true → ∃ t, exec (.pmbAlert p) s = .next t ∧
      (t.pmb p).ops = (s.pmb p).ops.take 1 ++ [⟨0, 0, .alertAddr, 0⟩] ++ (s.pmb p).ops.drop 1 ∧ s.Only t [.pwr, .out])

/-- The five reset sources (R424 to R429): what each returns to its power-on state, what survives it, and how CHIP_RST_CAUSE
records it. The reset values the manual does not give are the model's choice (log entries 1 and 2). -/
def Obligations.ResetSourcesRestore : Prop :=
  ∀ s : State,
    -- SYSRESET* is driven low while POWER_ON or RESET_N holds the device and SYSCON and SYSRST_OUT are 1 (R81; log entry 38)
    let drives := fun (on : Bool) => if on then Out.sysReset true :: s.out else s.out
    let noted := fun (t : State) (code : Nat) (on : Bool) => t.rd F.CHIP_RST_CAUSE_LAST = s.boot.held.foldl min code ∧
      (t.rd F.CHIP_RST_CAUSE_SEEN).testBit (code - 1) = true ∧ code ∈ t.boot.held ∧ t.pending = s.pending ∧ t.out = drives on
    let restored := fun (i : Instr) (code : Nat) (on : Bool) => ∃ t, exec i s = .next t ∧ noted t code on ∧
      (∀ k, keptKey k = false → k ≠ K.FLT_CHIP_STAT → k ≠ K.CHIP_BOOT_STAT → (∀ n, n < 8 → k ≠ K.PWR_SLOT_STAT n) →
        t.reg k = resetWord k) ∧
      (∀ k, t.shd k = shadowReset k) ∧ t.reg K.DDR_CFG = s.reg K.DDR_CFG ∧ t.reg K.REC_CFG = s.reg K.REC_CFG ∧
      t.rd F.FLT_CHIP_STAT_REC_FAIL = s.rd F.FLT_CHIP_STAT_REC_FAIL ∧ t.stage = 0 ∧
      t.flt = State.reset.flt ∧ t.drv = State.reset.drv ∧ t.fold = State.reset.fold ∧ t.ord = State.reset.ord ∧
      t.net = State.reset.net ∧ t.port = State.reset.port ∧ t.host = State.reset.host ∧ t.vme.pwq = [] ∧ t.commits = [] ∧
      t.ddr.bytes = s.ddr.bytes ∧ t.recd.mram = s.recd.mram ∧ t.recd.seconds = s.recd.seconds ∧
      (s.recd.clearing = none → t.recd.next = s.recd.next) ∧ t.boot.otpKey = s.boot.otpKey ∧ t.boot.otpKeySet = s.boot.otpKeySet ∧ t.ticks = s.ticks
    (∃ t, exec .powerOn s = .next t ∧ noted t 1 s.boot.straps.syscon ∧ (∀ k, k ≠ K.CHIP_RST_CAUSE → t.reg k = resetWord k) ∧
      (∀ k, t.shd k = shadowReset k) ∧ t.flt = State.reset.flt ∧ t.drv = State.reset.drv ∧ t.fold = State.reset.fold ∧
      t.ddr = State.reset.ddr ∧ t.recd = { State.reset.recd with mram := s.recd.mram } ∧
      t.boot.otpKey = s.boot.otpKey ∧ t.boot.otpKeySet = s.boot.otpKeySet) ∧
    restored .resetN 2 (s.boot.straps.syscon && s.bit F.VME_SYSCTL_SYSRST_OUT) ∧
    (s.up .mgmt = true → s.boot.resetDue = true → (s.flt.raised.all (fun f => f.code != Code.CHIP_RESET_CMD)) = true →
      restored .ringCmd 4 false) ∧
    (s.up .mgmt = true → s.boot.resetDue = false → exec .ringCmd s = .next s) ∧
    (s.up .mgmt = true → s.bit F.CHIP_WDOG_EN = true → s.halting 6 = false →
      s.boot.wdogAt + s.rd F.CHIP_WDOG_TO_MS * 100000 ≤ s.ticks → restored .chipWdog 5 false) ∧
    (s.up .mgmt = true → s.bit F.CHIP_WDOG_EN = false ∨ s.halting 6 = true ∨ s.ticks < s.boot.wdogAt + s.rd F.CHIP_WDOG_TO_MS * 100000 →
      exec .chipWdog s = .next s) ∧
    (s.up .mgmt = true → s.halting 6 = false →
      exec .serviceLoopComplete s = .next { s with boot := { s.boot with wdogAt := s.ticks } }) ∧
    (s.isHead = false → exec .perstN s = .next s) ∧
    (s.isHead = true → ∃ t, exec .perstN s = .next t ∧ t.rd F.CHIP_RST_CAUSE_LAST = s.boot.held.foldl min 3 ∧
      (t.rd F.CHIP_RST_CAUSE_SEEN).testBit 2 = true ∧ 3 ∈ t.boot.held ∧ t.bit F.HST_PCIE_STAT_LINK_UP = false ∧
      (∀ k ∈ [K.HST_B2_BASE, K.HST_PCIE_CTL, K.HST_PCIE_STAT], t.reg k = resetWord k) ∧ t.host.credits = 0 ∧
      s.Only t [.regs, .flt, .boot, .drv, .ord, .net, .stat, .host, .out])

/-- Release from reset samples the straps, and bring-up goes on by the PLLs' lock, LOAD, the timeouts of stages JOIN, ELECT and
LOCK, and OPEN (R430 to R435). -/
def Obligations.BringUpGoesByItsStages : Prop :=
  ∀ s : State,
    (∀ src nid idsrc mcap syscon head primary monlock,
      let go := Instr.resetRelease src nid idsrc mcap syscon head primary monlock
      let left := s.boot.held.filter (fun c => c != src)
      (src ∉ s.boot.held → exec go s = .next s) ∧
      -- SYSRESET* goes high again
      let frees := s.vme.sysrstHeld && left.all (fun c => decide (2 < c))
      let out := if frees then .sysReset false :: s.out else s.out
      (src ∈ s.boot.held → src = 3 ∨ left.all (fun c => c == 3) = false → exec go s = .next { s with
        boot := { s.boot with held := left }, vme := { s.vme with sysrstHeld := s.vme.sysrstHeld && !frees }, out := out }) ∧
      (src ∈ s.boot.held → src ≠ 3 → left.all (fun c => c == 3) = true → ∃ t, exec go s = .next t ∧ t.boot.held = left ∧
        t.boot.straps = ⟨nid % 2048, idsrc, mcap, syscon, head, primary, monlock⟩ ∧ t.boot.releasedAt = s.ticks ∧
        t.rd F.CHIP_STRAP_NID = nid % 2048 ∧ t.bit F.CHIP_STRAP_HEAD = head ∧ t.bit F.CHIP_STRAP_SYSCON = syscon ∧
        t.bit F.VME_CTL_SYSCON = syscon ∧ t.bit F.HST_CTL_HEAD = head ∧ t.bit F.NET_CTL_MCAP = mcap ∧
        t.bit F.TWN_CTL_PRIMARY = primary ∧ t.bit F.SVC_STAT_LOCKED = monlock ∧
        t.nodeId = (if idsrc then s.boot.imageNode % 2048 else nid % 2048) ∧ t.bit F.REC_STAT_KEY_SET = s.boot.otpKeySet ∧
        t.out = .svcPrompt :: ((t.svcStatus.map (fun w => Out.svcLine [.text w])).reverse ++
          .svcLine [.text "NB-9416 ID 0x1941656F"] :: out) ∧
        -- a node whose ID is 0x7FF never joins (R262)
        (idsrc = false → nid % 2048 = 0x7FF → t.rd F.NET_ID_STATE = 4 ∧ t.flt = (s.raise Code.NET_ID_BAD Src.packet []).flt) ∧
        (idsrc = true ∨ nid % 2048 ≠ 0x7FF → t.flt = s.flt) ∧ s.Only t [.regs, .flt, .boot, .vme, .out])) ∧
    (s.up .mgmt = true →
      (s.stage = 0 → ∃ t, exec .pllLock s = .next t ∧ t.stage = 1 ∧ t.boot = { s.boot with pll := true } ∧
        t.bit F.CLK_STAT_SYS_LOCK = true ∧ t.bit F.CLK_STAT_LNK_LOCK = true ∧ t.bit F.CLK_STAT_HOST_LOCK = true ∧
        t.bit F.CLK_STAT_DDR_LOCK = true ∧ s.Only t [.regs, .boot] ∧ s.RegsBut t [K.CLK_STAT, K.CHIP_BOOT_STAT]) ∧
      (s.stage ≠ 0 → exec .pllLock s = .next s) ∧
      (∀ a b trained pm, s.stage = 1 → s.imageCheck a ≠ 0 → s.imageCheck b ≠ 0 → ∃ t,
        exec (.bootLoadDone a b trained pm) s = .next t ∧ t.stage = 7 ∧ t.bit F.CHIP_BOOT_STAT_A_BAD = true ∧
        t.bit F.CHIP_BOOT_STAT_B_BAD = true ∧
        t.flt = ((s.raise Code.CHIP_IMAGE_BAD Src.mgmt [0, s.imageCheck a]).raise Code.CHIP_IMAGE_BAD Src.mgmt [1, s.imageCheck b]).flt ∧
        s.Only t [.regs, .flt] ∧ s.RegsBut t [K.CHIP_BOOT_STAT]) ∧
      (∀ a b pm, s.stage = 1 → s.imageCheck a = 0 → (imageOf a).entries = [] → ∃ t,
        exec (.bootLoadDone a b true pm) s = .next t ∧ 2 ≤ t.stage ∧ t.stage ≤ 5 ∧ t.rd F.CHIP_BOOT_STAT_COPY = 0 ∧
        t.rd F.CHIP_BOOT_STAT_IMAGE_VER = (imageOf a).version ∧ t.rd F.DDR_CFG_SIZE = (imageOf a).geometry / 2 ^ 14 ∧
        t.rd F.REC_CFG_SIZE = (imageOf a).mram ∧ t.boot.stageTo = (imageOf a).stageTo ∧ t.boot.pmbusWrites = pm ∧
        t.bit F.DDR_STAT_READY = (s.bit F.DDR_STAT_READY || decide ((imageOf a).geometry / 2 ^ 14 ≠ 0)) ∧
        t.rd F.CHIP_HALT_HALT = 0 ∧ t.rd F.CHIP_HALTED_HALTED = 0 ∧ (∀ d, d < 64 → (t.drover d).st = .running)) ∧
      (∀ a b pm, s.stage = 1 → s.imageCheck a = 0 → (imageOf a).geometry / 2 ^ 14 ≠ 0 → ∃ t,
        exec (.bootLoadDone a b false pm) s = .next t ∧ t.stage = 7 ∧ t.bit F.DDR_STAT_TRAIN_FAIL = true ∧ t.rd F.DDR_CFG_SIZE = 0) ∧
      (∀ a b trained pm, s.stage ≠ 1 → exec (.bootLoadDone a b trained pm) s = .next s) ∧
      (∀ n late, (n = 2 ∧ late = F.CHIP_BOOT_STAT_JOIN_LATE) ∨ (n = 3 ∧ late = F.CHIP_BOOT_STAT_ELECT_LATE) ∨
          (n = 4 ∧ late = F.CHIP_BOOT_STAT_LOCK_LATE) → s.stage = n → ∃ t,
        exec .bootStageTimeout s = .next t ∧ t.bit late = true ∧ n < t.stage ∧ t.stage ≤ 5 ∧
        t.flt = (s.raise Code.CHIP_IMAGE_BAD Src.mgmt [s.rd F.CHIP_BOOT_STAT_COPY, 7 + n]).flt ∧
        s.Only t [.regs, .flt] ∧ s.RegsBut t [K.CHIP_BOOT_STAT]) ∧
      (s.stage < 2 ∨ 4 < s.stage → exec .bootStageTimeout s = .next s) ∧
      (s.stage = 5 → ∃ t, exec .bootOpen s = .next t ∧ t.boot.openEntries = [] ∧
        t.boot.heldLive = s.boot.heldLive ++ s.boot.openEntries.filter holdsLive) ∧
      (s.stage ≠ 5 → exec .bootOpen s = .next s))

/-- CHIP_HALT halts and releases the groups, the TWN group never while the crook may be held, and HALTED follows once the work in
progress has ended (R436, R437).
The old bank retires once nothing uses it: it is reloaded from the effective bank, and nothing more of it is held (R438,
R441). -/
def Obligations.HaltGroupsHaltAndTheOldBankRetires : Prop :=
  (∀ s : State, s.up .mgmt = true →
     (∀ (v : Word) node agent, s.haltRefused (bitsOf v 6 0) = false →
       (∀ g, g < 7 → (s.rd F.CHIP_HALT_HALT).testBit g = true → (bitsOf v 6 0).testBit g = true) → ∃ t,
       exec (.chipHaltWrite v node agent) s = .next t ∧ t.rd F.CHIP_HALT_HALT = bitsOf v 6 0 ∧
       t.rd F.CHIP_HALTED_HALTED = s.rd F.CHIP_HALTED_HALTED ∧ s.Only t [.regs, .boot] ∧ s.RegsBut t [K.CHIP_HALT]) ∧
     (∀ (v : Word) node agent g, g < 7 → (s.rd F.CHIP_HALT_HALT).testBit g = true → (bitsOf v 6 0).testBit g = false → ∃ t,
       exec (.chipHaltWrite v node agent) s = .next t ∧ t.halting g = false ∧ t.halted g = false ∧
       s.Only t [.regs, .flt, .boot, .vme, .vin, .drv, .ord, .fold, .net, .cad, .stat, .port, .out, .freeCtr]) ∧
     (∀ (v : Word) node agent, s.haltRefused (bitsOf v 6 0) = true → ∃ t,
       exec (.chipHaltWrite v node agent) s = .next t ∧ t.halting 3 = false ∧
       ∃ x ∈ t.flt.raised, x.code = Code.CFG_LATE ∧ x.src = Src.setup ∧ x.params = [0x410#32, v,
         BitVec.ofNat 32 (node % 2048 * 65536 + agent % 256 * 256), 3#32]) ∧
     (∀ g, g < 7 → s.halting g = true → s.groupDrained g = true → s.halted g = false → ∃ t, exec (.haltDrained g) s = .next t ∧
       t.halted g = true ∧ (∀ i, i < 7 → i ≠ g → t.halted i = s.halted i) ∧ s.Only t [.regs] ∧ s.RegsBut t [K.CHIP_HALTED]) ∧
     (∀ g, 7 ≤ g ∨ s.halting g = false ∨ s.groupDrained g = false ∨ s.halted g = true → exec (.haltDrained g) s = .next s)) ∧
  (∀ s : State, s.up .core = true →
     let old := !s.bit F.CHIP_COMMIT_STAT_BANK
     (s.bit F.CHIP_COMMIT_STAT_RETIRING = false ∨ s.bankInUse old = true → exec .bankRetire s = .next s) ∧
     (s.bit F.CHIP_COMMIT_STAT_RETIRING = true → s.bankInUse old = false → s.regs.heldWrites = [] →
       (∀ d x, s.execOf d = some x → x.phase ≠ .held) → ∃ t, exec .bankRetire s = .next t ∧
       t.bit F.CHIP_COMMIT_STAT_RETIRING = false ∧ t.regs.refused = [] ∧ t.regs.heldWrites = [] ∧
       (∀ k, s.regs.refused.all (fun e => e.1 != k) = true → t.shd k = s.reg k &&& stagedMask k) ∧
       (∀ k v, s.regs.refused = [(k, v)] → t.shd k = v &&& stagedMask k) ∧
       (∀ k, k ≠ K.CHIP_COMMIT_STAT → t.reg k = s.reg k) ∧ s.Only t [.regs, .flt]))

/-- The monitor's commands that show state. Each runs when it is the command taken, replies with the lines of R450's table, then the
status lines and the prompt, and changes nothing but its own count, BUSY, the monitor and the line out; the characters held while it
ran are then taken as input (R446, R447, R449, R450). -/
def Obligations.MonitorShowsState : Prop :=
  ∀ s : State, s.up .mgmt = true → s.halting 6 = false →
    let shows := fun (i : Instr) (ls : List (List SvcTok)) => ∃ t, exec i s = .next (t.svcHeld s.svc.held.length) ∧ s.Replied t ls ∧
      s.Only t [.regs, .svc, .out] ∧ s.RegsBut t [K.SVC_CNT_CMD, K.SVC_STAT]
    (s.svc.cmd = some .help → shows .svcHelp (svcHelpLines.map (fun l => [.text l]))) ∧
    (∀ n, s.svc.cmd = some (.lens false n) → shows .svcLens (s.svcRegs (0x4000 + 0x40 * n) 10)) ∧
    (∀ n, s.svc.cmd = some (.lens true n) → shows .svcLens (s.svcRegs (0x5000 + 0x40 * n) 8)) ∧
    (∀ n, s.svc.cmd = some (.fold n) → shows .svcFold [[s.svcField (F.FLD_F_QUOTA_QUOTA n), s.svcField (F.FLD_F_RSV_RSV n),
      s.svcField (F.FLD_F_LEVEL_WORDS n), s.svcField (F.FLD_F_PKT_PACKETS n), s.svcField (F.FLD_F_CELLS_HELD n),
      s.svcReg (K.FLD_F_STAT n)]]) ∧
    (s.svc.cmd = some (.drover none) → shows .svcDrover [[s.svcReg K.DRV_LIVE_LO, s.svcReg K.DRV_LIVE_HI]]) ∧
    (∀ d, s.svc.cmd = some (.drover (some d)) → shows .svcDrover
      [[s.svcReg (K.DRV_D_STAT d), s.svcReg (K.DRV_D_RUN d), s.svcReg (K.DRV_D_STOLE d), s.svcReg (K.DRV_D_LOSS d)]]) ∧
    (s.svc.cmd = some .ring → shows .svcRing [[s.svcReg (K.LNK_LINK_STAT 0), s.svcReg (K.LNK_LINK_STAT 1),
      s.svcReg (K.LNK_LINK_STAT 2), s.svcReg K.NET_ID, s.svcReg K.NET_STAT, s.svcReg K.NET_EPOCH_STAT]]) ∧
    (s.svc.cmd = some .cad → shows .svcCad [[s.svcReg K.CAD_STAT, .hex 12 s.frame, .hex 8 s.phase, .hex 16 s.cad.p]]) ∧
    (s.svc.cmd = some .fault → shows .svcFault ([s.svcReg K.FLT_CHIP_STAT, s.svcReg K.FLT_FIRST] ::
      (s.flt.active.filter (fun e => e.2.isSome)).map (fun e =>
        [.hex 2 e.1, s.svcReg (K.FLT_ACT_W0 e.1), s.svcReg (K.FLT_ACT_W1 e.1)]))) ∧
    (s.svc.cmd = some .stat → shows .svcStat
      [[s.svcReg K.CAD_SNAP, .hex 16 ((s.reg (K.STAT_BANK (s.rd F.CAD_SNAP_BANK) 2)).toNat +
          (s.reg (K.STAT_BANK (s.rd F.CAD_SNAP_BANK) 3)).toNat * 2 ^ 32)],
       (List.range 12).map (fun i => .hex 8 (s.reg (K.STAT_BANK (s.rd F.CAD_SNAP_BANK) i)).toNat)]) ∧
    (s.svc.cmd = some .twin → shows .svcTwin [[s.svcReg K.TWN_STAT, s.svcReg K.TWN_EPOCH, s.svcReg K.TWN_TAKE_EP]]) ∧
    (s.svc.cmd = some .pwr → shows .svcPwr [s.svcReg K.PWR_STAT :: (List.range 8).map (fun n => s.svcReg (K.PWR_SLOT_STAT n))]) ∧
    (s.svc.cmd = some .ver → shows .svcVer [[s.svcReg K.TST_IDCODE, s.svcReg K.CHIP_BOOT_STAT, s.svcReg K.CHIP_RST_CAUSE]])

/-- A character reaches the service monitor (R444 to R446, R448).
CR ends the line. A line that is too long, that names no command, or whose arguments are out of range is answered at once; one
that names a command refused while the monitor is locked is refused and counted; any other command runs (R446, R448, R450). -/
def Obligations.MonitorTakesCharactersAndLines : Prop :=
  (∀ (s : State) (c : Byte), s.up .mgmt = true → s.halting 6 = false →
     exec (.svcRxChar c false) s = .next s ∧
     (s.svc.cmd = none → c ≠ 0x0D#8 → c ≠ 0x0A#8 → c ≠ 0x08#8 → c ≠ 0x7F#8 → s.svc.line.length < 80 →
       exec (.svcRxChar c true) s = .next { s with svc := { s.svc with line := s.svc.line ++ [c] }, out := .svcEcho c :: s.out }) ∧
     (s.svc.cmd = none → c ≠ 0x0D#8 → c ≠ 0x0A#8 → c ≠ 0x08#8 → c ≠ 0x7F#8 → 80 ≤ s.svc.line.length →
       exec (.svcRxChar c true) s = .next { s with svc := { s.svc with long := true } }) ∧
     (s.svc.cmd = none → exec (.svcRxChar 0x0A#8 true) s = .next s) ∧
     (s.svc.cmd = none → c = 0x08#8 ∨ c = 0x7F#8 →
       exec (.svcRxChar c true) s =
         .next { s with svc := { s.svc with line := s.svc.line.dropLast }, out := .svcEcho c :: s.out }) ∧
     (s.svc.cmd ≠ none → s.svc.held.length < 16 →
       exec (.svcRxChar c true) s = .next { s with svc := { s.svc with held := s.svc.held ++ [c] } }) ∧
     (s.svc.cmd ≠ none → 16 ≤ s.svc.held.length → ∃ t, exec (.svcRxChar c true) s = .next t ∧
       t.reg K.SVC_CNT_RX_DROP = BitVec.ofNat 32 (satAdd 32 (s.reg K.SVC_CNT_RX_DROP).toNat 1) ∧
       s.Only t [.regs] ∧ s.RegsBut t [K.SVC_CNT_RX_DROP])) ∧
  (∀ s : State, s.up .mgmt = true → s.halting 6 = false → s.svc.cmd = none →
     let words := splitWords (s.svc.line.map (fun b => lowerCase b.toNat)) []
     let answers := fun (e : String) (ks : List Nat) => ∃ t, exec (.svcRxChar 0x0D#8 true) s = .next t ∧
       t.svc = { s.svc with line := [], long := false } ∧
       t.out = .svcPrompt :: ((t.svcStatus.map (fun w => Out.svcLine [.text w])).reverse ++
         .svcLine [.text e] :: .svcEcho 0x0D#8 :: s.out) ∧
       s.Only t [.regs, .svc, .out] ∧ s.RegsBut t ks ∧
       ∀ k ∈ ks, t.reg k = BitVec.ofNat 32 (satAdd 32 (s.reg k).toNat 1)
     (s.svc.long = true → answers "ERR LONG" []) ∧
     (s.svc.long = false → words ≠ [] → parseLine words = .syntaxErr → answers "ERR SYNTAX" []) ∧
     (s.svc.long = false → words ≠ [] → parseLine words = .rangeErr → answers "ERR RANGE" []) ∧
     (∀ m, s.svc.long = false → words ≠ [] → parseLine words = .run m → m.guarded = true → s.bit F.SVC_STAT_LOCKED = true →
       answers "ERR LOCKED" [K.SVC_CNT_REFUSED]) ∧
     (∀ m, s.svc.long = false → words ≠ [] → parseLine words = .run m → ¬ (m.guarded = true ∧ s.bit F.SVC_STAT_LOCKED = true) →
       ∃ t, exec (.svcRxChar 0x0D#8 true) s = .next t ∧ t.svc = { s.svc with line := [], long := false, cmd := some m } ∧
         t.rd F.SVC_STAT_BUSY = 1 ∧ t.out = .svcEcho 0x0D#8 :: s.out ∧ s.Only t [.regs, .svc, .out] ∧ s.RegsBut t [K.SVC_STAT]))

/-- The monitor's commands that act. Each works as its own set-up accesses do and ends with its reply (R449, R450).
The monitor neither takes characters nor runs a command while its group is halted or the MGMT part is held in reset (R445). -/
def Obligations.MonitorActsAndIsSilentWhileHalted : Prop :=
  (∀ s : State, s.up .mgmt = true → s.halting 6 = false →
     let ends := fun (i : Instr) (u : State) (ls : List (List SvcTok)) => ∃ t, exec i s = .next (t.svcHeld u.svc.held.length) ∧
       u.Replied t ls ∧ u.Only t [.regs, .svc, .out] ∧ u.RegsBut t [K.SVC_CNT_CMD, K.SVC_STAT]
     (∀ off, s.svc.cmd = some (.peek off 1) → ends .svcPeek (s.setupRead off 4).2
       [[.hex 4 off, .hex 8 (leNum (s.setupRead off 4).1)]]) ∧
     (∀ off n, s.svc.cmd = some (.peek off n) → ends .svcPeek (s.svcPeekRegs n off).2 (s.svcPeekRegs n off).1) ∧
     (∀ off v, s.svc.cmd = some (.poke off v) → s.bit F.CHIP_COMMIT_STAT_RETIRING = false →
       let r := s.setupWrite off (leBytes 4 v) s.nodeId (s.rd F.SVC_CTL_AGENT)
       ends .svcPoke r.st [[.text (if r.late then "IGNORED" else if r.range then "REFUSED" else "OK")]]) ∧
     (∀ e, s.svc.cmd = some (.faultClr e) → ends .svcFaultClr (s.clearEntry e)
       [[.text (if ((s.clearEntry e).actEntry e).isSome then "PRESENT" else "OK")]]) ∧
     (∀ n, s.svc.cmd = some (.log n) → ends .svcLog s
       (((List.range (min n s.recd.next)).filterMap
         (fun i => recSlot false false false ⟨0, 0, 0, 0, []⟩ (s.recd.next - 1 - i))).flatMap s.svcRecord)) ∧
     (∀ b n, s.svc.cmd = some (.atbSet b n) →
       let r := s.setupWrite (if b = 0 then 0xC000 else 0xC004) (leBytes 4 n) s.nodeId (s.rd F.SVC_CTL_AGENT)
       ends .svcAtbSet r.st [[.text (if r.range then "REFUSED" else "OK")]]) ∧
     (∀ b code, s.svc.cmd = some (.atbRead b) → s.bit F.TST_ADC_BUSY = false →
       let u := (s.wr F.TST_ADC_BUS b).adcEnd code
       ends (.svcAtbRead code) u [[.text (if b = 0 then "ATB0" else "ATB1"), .node u.adcNode, .hex 3 (u.rd F.TST_ADC_CODE),
         .dec (codeMv (u.rd F.TST_ADC_CODE)), .text "mV"]]) ∧
     (s.svc.cmd = some .lock → ends .svcLock (s.wr F.SVC_STAT_LOCKED 1) [[.text "OK"]])) ∧
  (∀ s : State, s.up .mgmt = false ∨ s.halting 6 = true →
     ∀ i ∈ ([.svcHelp, .svcPeek, .svcPoke, .svcLens, .svcFold, .svcDrover, .svcRing, .svcCad, .svcFault, .svcFaultClr, .svcLog,
       .svcStat, .svcTwin, .svcPwr, .svcAtbSet, .svcLock, .svcVer] : List Instr), exec i s = .next s ∧
     ∀ c stop code, exec (.svcRxChar c stop) s = .next s ∧ exec (.svcAtbRead code) s = .next s)

/-- The test access port's instructions (R454, R455): what each selects and shifts out.
While RESET_N is not held low, EXTEST, CLAMP and HIGHZ stop, because R454 leaves the behaviour unspecified. -/
def Obligations.TestAccessPortSelectsAndStops : Prop :=
  (∀ s : State,
     exec .tapReset s = .next { s with tap := { s.tap with ir := 0x01 } } ∧
     exec .idcode s = .next { s with tap := { s.tap with ir := 0x01 }, out := .tdo (tdoBits 0x1941656F 32) :: s.out } ∧
     (∀ pins load, exec (.samplePreload pins load) s = .next { s with tap := ⟨0x02, load⟩, out := .tdo pins :: s.out }) ∧
     (∀ pins load, s.boot.held.contains 2 = true →
       exec (.extest pins load) s = .next { s with tap := ⟨0x03, load⟩, out := .scanPins load :: .tdo pins :: .scanPins s.tap.boundary :: s.out }) ∧
     (s.boot.held.contains 2 = true → exec .clamp s = .next { s with tap := { s.tap with ir := 0x04 }
                                                                     out := .tdo [false] :: .scanPins s.tap.boundary :: s.out }) ∧
     (s.boot.held.contains 2 = true →
       exec .highz s = .next { s with tap := { s.tap with ir := 0x05 }, out := .tdo [false] :: .pinsFloat :: s.out }) ∧
     (∀ ir, ir < 256 → ir ∉ [0x01, 0x02, 0x03, 0x04, 0x05, 0x40, 0x41, 0x42] →
       exec (.bypass ir) s = .next { s with tap := { s.tap with ir := ir }, out := .tdo [false] :: s.out })) ∧
  (∀ s : State, s.boot.held.contains 2 = false →
     (∀ pins load, exec (.extest pins load) s = .fault (.outsideLimits "R454")) ∧
     exec .clamp s = .fault (.outsideLimits "R454") ∧ exec .highz s = .fault (.outsideLimits "R454"))

/-- OTP_KEY programs the key while RESET_N is low and no key is set, and nothing otherwise; TDO shifts out zeros (R455). -/
def Obligations.OtpKeyProgramsOnce : Prop :=
  ∀ (s : State) (key : List Byte), key.length = 32 →
    (s.boot.held.contains 2 = true → s.boot.otpKeySet = false → ∃ t, exec (.otpKey key) s = .next t ∧
      t.boot = { s.boot with otpKey := key, otpKeySet := true } ∧ t.bit F.REC_STAT_KEY_SET = true ∧
      t.tap = { s.tap with ir := 0x42 } ∧ t.out = .tdo (List.replicate 256 false) :: s.out ∧
      s.Only t [.regs, .boot, .tap, .out] ∧ s.RegsBut t [K.REC_STAT]) ∧
    (s.boot.held.contains 2 = false ∨ s.boot.otpKeySet = true →
      exec (.otpKey key) s = .next { s with tap := { s.tap with ir := 0x42 }, out := .tdo (List.replicate 256 false) :: s.out })

/-- The two test buses and the converter (R451 to R453): a node code that R451 names, and that the other bus does not have, connects;
any other is refused under R9; a conversion raises BUSY and ends with the code found; ATB_SEL writes both fields; LOCK_NOW locks. -/
def Obligations.TestBusesConnectAndConvert : Prop :=
  ∀ s : State,
    (∀ n m, n < 64 → m < 64 → atbNode n = true → atbNode m = true → n = 0 ∨ n ≠ m → ∃ t,
      exec (.atbSel (n + 64 * m)) s = .next t ∧ t.rd F.TST_ATB0_NODE = n ∧ t.rd F.TST_ATB1_NODE = m ∧
      t.tap = { s.tap with ir := 0x40 } ∧ s.Only t [.regs, .tap] ∧ s.RegsBut t [K.TST_ATB0, K.TST_ATB1]) ∧
    (∀ n m, n < 64 → m < 64 → (atbNode n = false ∧ atbNode m = false) ∨ (n = m ∧ n ≠ 0) →
      exec (.atbSel (n + 64 * m)) s = .next (({ s with tap := { s.tap with ir := 0x40 } }).raise Code.CFG_RANGE Src.setup [])) ∧
    (s.up .mgmt = true →
      (∀ (v : Word) node agent, atbNode (bitsOf v 5 0) = true → bitsOf v 5 0 = 0 ∨ bitsOf v 5 0 ≠ s.rd F.TST_ATB1_NODE →
        ∃ t, exec (.tstAtbWrite 0 v node agent) s = .next t ∧ t.rd F.TST_ATB0_NODE = bitsOf v 5 0 ∧
          s.Only t [.regs] ∧ s.RegsBut t [K.TST_ATB0]) ∧
      (∀ (v : Word) node agent, atbNode (bitsOf v 5 0) = true → bitsOf v 5 0 = 0 ∨ bitsOf v 5 0 ≠ s.rd F.TST_ATB0_NODE →
        ∃ t, exec (.tstAtbWrite 1 v node agent) s = .next t ∧ t.rd F.TST_ATB1_NODE = bitsOf v 5 0 ∧
          s.Only t [.regs] ∧ s.RegsBut t [K.TST_ATB1]) ∧
      (∀ (v : Word) node agent, atbNode (bitsOf v 5 0) = false →
        ∃ t, exec (.tstAtbWrite 0 v node agent) s = .next t ∧ (∀ k, t.reg k = s.reg k) ∧
          t.flt.raised = (s.raise Code.CFG_RANGE Src.setup []).flt.raised ∧ s.Only t [.regs, .flt]) ∧
      (∀ bus node agent, s.bit F.TST_ADC_BUSY = false → ∃ t, exec (.tstAdcStart bus node agent) s = .next t ∧
        t.bit F.TST_ADC_BUSY = true ∧ t.bit F.TST_ADC_BUS = bus ∧ t.rd F.TST_ADC_CODE = s.rd F.TST_ADC_CODE ∧
        s.Only t [.regs] ∧ s.RegsBut t [K.TST_ADC]) ∧
      (∀ code, s.bit F.TST_ADC_BUSY = true → s.adcNode ≠ 0 → ∃ t, exec (.tstAdcDone code) s = .next t ∧
        t.rd F.TST_ADC_CODE = code % 4096 ∧ t.bit F.TST_ADC_BUSY = false ∧ t.rd F.TST_ADC_BUS = s.rd F.TST_ADC_BUS ∧
        s.Only t [.regs] ∧ s.RegsBut t [K.TST_ADC]) ∧
      (∀ code, s.bit F.TST_ADC_BUSY = true → s.adcNode = 0 → ∃ t, exec (.tstAdcDone code) s = .next t ∧
        t.rd F.TST_ADC_CODE = (Config.freeValue 12 s.freeCtr).toNat ∧ t.bit F.TST_ADC_BUSY = false ∧
        s.Only t [.regs, .freeCtr] ∧ s.RegsBut t [K.TST_ADC]) ∧
      (∀ node agent, ∃ t, exec (.svcLockNow node agent) s = .next t ∧ t.bit F.SVC_STAT_LOCKED = true ∧
        s.Only t [.regs] ∧ s.RegsBut t [K.SVC_STAT]))

/-- A 4-byte write of a register that brings nothing about beside it (R3, R4, R7 to R9, R461): every field takes the written value
as its access, its class and its range say, and nothing else changes but the faults that report what was ignored or refused. A
reserved offset leaves everything as it is; so does an access of a size or alignment R3 does not permit, but for ADR_SETUP and its
capture (R37). -/
def Obligations.SetupWriteLandsFieldByField : Prop :=
  ∀ (s : State) (off node agent : Nat), s.up .mgmt = true →
    (∀ (r : RegRow) (v : Word), off < 0x10000 → off % 4 = 0 → regAt off = some r → setupActs off = false →
      s.bit F.CHIP_COMMIT_STAT_RETIRING = false → (∀ k e sh, s.crossBad off k e sh = 0) →
      let k := s.keyAt r off
      ∃ t, exec (.setupWrite off (leBytes 4 v.toNat) node agent) s = .next t ∧
        (∀ f ∈ r.fields, f.acc = .rw → f.cls = .live → f.min ≤ bitsOf v f.hi f.lo → bitsOf v f.hi f.lo ≤ f.max →
          bitsOf (t.reg k) f.hi f.lo = bitsOf v f.hi f.lo) ∧
        (∀ f ∈ r.fields, f.acc = .rw → f.cls = .static → f.min ≤ bitsOf v f.hi f.lo → bitsOf v f.hi f.lo ≤ f.max →
          s.halted (haltGroup off) = true → bitsOf (t.reg k) f.hi f.lo = bitsOf v f.hi f.lo) ∧
        (∀ f ∈ r.fields, f.acc = .rw → f.cls = .static → s.halted (haltGroup off) = false →
          bitsOf (t.reg k) f.hi f.lo = bitsOf (s.reg k) f.hi f.lo) ∧
        (∀ f ∈ r.fields, f.acc = .rw → f.cls = .staged → f.min ≤ bitsOf v f.hi f.lo → bitsOf v f.hi f.lo ≤ f.max →
          bitsOf (t.shd k) f.hi f.lo = bitsOf v f.hi f.lo ∧ bitsOf (t.reg k) f.hi f.lo = bitsOf (s.reg k) f.hi f.lo) ∧
        (∀ f ∈ r.fields, f.acc = .rw → bitsOf v f.hi f.lo < f.min ∨ f.max < bitsOf v f.hi f.lo →
          bitsOf (t.reg k) f.hi f.lo = bitsOf (s.reg k) f.hi f.lo ∧
            (f.cls = .staged → bitsOf (t.shd k) f.hi f.lo = bitsOf (s.shd k) f.hi f.lo)) ∧
        (∀ f ∈ r.fields, f.acc = .rw → f.cls = .live → bitsOf v f.hi f.lo < f.min ∨ f.max < bitsOf v f.hi f.lo →
          bitsOf v f.hi f.lo ≠ bitsOf (s.reg k) f.hi f.lo → ∃ x ∈ t.flt.raised, x.code = Code.CFG_RANGE ∧ x.src = Src.setup) ∧
        (∀ f ∈ r.fields, f.acc = .w1c → ∀ i, f.lo ≤ i → i ≤ f.hi → bitOf (t.reg k) i = (bitOf (s.reg k) i && !bitOf v i)) ∧
        (∀ f ∈ r.fields, f.acc = .ro ∨ f.acc = .wo ∨ f.acc = .rc → bitsOf (t.reg k) f.hi f.lo = bitsOf (s.reg k) f.hi f.lo) ∧
        ((∀ f ∈ r.fields, f.acc = .rw → f.cls ≠ .static ∧ f.min ≤ bitsOf v f.hi f.lo ∧ bitsOf v f.hi f.lo ≤ f.max) → t.flt = s.flt) ∧
        s.Only t [.regs, .flt] ∧ s.RegsBut t [k]) ∧
    (∀ v : Word, off % 4 = 0 → regAt off = none → exec (.setupWrite off (leBytes 4 v.toNat) node agent) s = .next s) ∧
    (∀ bs, 0x10000 ≤ off → exec (.setupWrite off bs node agent) s = .next s) ∧
    (∀ bs, off < 0x10000 → setupSizeOk off bs.length = false → ∃ t, exec (.setupWrite off bs node agent) s = .next t ∧
      (∃ x ∈ t.flt.raised, x.code = Code.ADR_SETUP ∧ x.src = Src.setup) ∧ s.Only t [.regs, .flt] ∧ s.RegsBut t (capRegs 0))

/-- A STATIC field changes only while its group's HALTED bit is 1 (R437), and CFG_LATE reports any other write that would change
it, with the parameters of R437. -/
def Obligations.StaticFieldsWaitForTheHalt : Prop :=
  ∀ (s : State) (off node agent : Nat) (r : RegRow) (v : Word), s.up .mgmt = true → off < 0x10000 → off % 4 = 0 → regAt off = some r →
    r.win.selector = none → (s.landing r off off v true).range = false → ∀ f ∈ r.fields, f.acc = .rw → f.cls = .static →
    ∃ t, exec (.setupWrite off (leBytes 4 v.toNat) node agent) s = .next t ∧
      (s.halted (haltGroup off) = true → bitsOf (t.reg off) f.hi f.lo = bitsOf v f.hi f.lo) ∧
      (bitsOf v f.hi f.lo = bitsOf (s.reg off) f.hi f.lo → bitsOf (t.reg off) f.hi f.lo = bitsOf v f.hi f.lo) ∧
      (s.halted (haltGroup off) = false → bitsOf v f.hi f.lo ≠ bitsOf (s.reg off) f.hi f.lo →
        bitsOf (t.reg off) f.hi f.lo = bitsOf (s.reg off) f.hi f.lo ∧
        (∃ x ∈ t.flt.raised, x.code = Code.CFG_LATE ∧ x.src = Src.setup ∧ x.params = [BitVec.ofNat 32 off, v,
          BitVec.ofNat 32 (node % 2048 * 65536 + agent % 256 * 256), BitVec.ofNat 32 (haltGroup off)]) ∧
        (∀ g ∈ r.fields, g.acc = .rw → g.cls = .live → bitsOf (t.reg off) g.hi g.lo = bitsOf v g.hi g.lo) ∧
        (∀ g ∈ r.fields, g.acc = .rw → g.cls = .staged → s.bit F.CHIP_COMMIT_STAT_RETIRING = false →
          bitsOf (t.shd off) g.hi g.lo = bitsOf v g.hi g.lo))

/-- A read of a register clears its RC fields, where a highest count starts again from the count now (R190, R197), and fills its
group's latch, and changes nothing else (R4, R461, R463). A read of a size
R3 does not permit raises ADR_SETUP (R37). -/
def Obligations.SetupReadClearsAndLatches : Prop :=
  ∀ (s : State) (off : Nat), s.up .mgmt = true → off < 0x10000 → off % 4 = 0 →
    (∀ r, regAt off = some r → ∃ t, exec (.setupLatchRead off 4) s = .next t ∧
      (off ∉ [K.FLD_POOL_PEAK, keyOff (K.FLD_F_PEAK 0), K.VME_PWQ, K.VME_IPWQ, K.CHIP_WC_STAT, K.CHIP_CLM_STAT, K.DRV_STILE_STAT, K.TWN_MQ] →
        ∀ f ∈ r.fields, f.acc = .rc → bitsOf (t.reg (s.keyAt r off)) f.hi f.lo = 0) ∧
      (off = K.FLD_POOL_PEAK → t.rd F.FLD_POOL_PEAK_PEAK = 110592 - s.fold.free) ∧
      (∀ n, off = keyOff (K.FLD_F_PEAK 0) → s.keyAt r off = K.FLD_F_PEAK n → t.rd (F.FLD_F_PEAK_PEAK n) = s.foldWords n % 2 ^ 20) ∧
      (off = K.VME_PWQ → t.rd F.VME_PWQ_PEAK = s.rd F.VME_PWQ_DEPTH) ∧ (off = K.VME_IPWQ → t.rd F.VME_IPWQ_PEAK = s.rd F.VME_IPWQ_DEPTH) ∧
      (off = K.CHIP_WC_STAT → t.rd F.CHIP_WC_STAT_PEAK = s.rd F.CHIP_WC_STAT_DEPTH) ∧
      (off = K.CHIP_CLM_STAT → t.rd F.CHIP_CLM_STAT_PEAK = s.rd F.CHIP_CLM_STAT_INUSE) ∧
      (off = K.DRV_STILE_STAT → t.rd F.DRV_STILE_STAT_PEAK = s.rd F.DRV_STILE_STAT_INUSE) ∧
      (off = K.TWN_MQ → t.rd F.TWN_MQ_PEAK = s.rd F.TWN_MQ_DEPTH) ∧
      (∀ f ∈ r.fields, f.acc ≠ .rc → bitsOf (t.reg (s.keyAt r off)) f.hi f.lo = bitsOf (s.reg (s.keyAt r off)) f.hi f.lo) ∧
      (∀ k, k ≠ s.keyAt r off → t.reg k = s.reg k) ∧ (∀ k, t.shd k = s.shd k) ∧
      (∀ p ∈ latchPartners off, tget zeroWord t.regs.latch p = s.view p) ∧
      (∀ p, p ∉ latchPartners off → tget zeroWord t.regs.latch p = tget zeroWord s.regs.latch p) ∧
      s.Only t [.regs, .freeCtr]) ∧
    (regAt off = none → exec (.setupLatchRead off 4) s = .next s) ∧
    (∀ len, setupSizeOk off len = false → ∃ t, exec (.setupLatchRead off len) s = .next t ∧
      (∃ x ∈ t.flt.raised, x.code = Code.ADR_SETUP ∧ x.src = Src.setup) ∧ s.Only t [.regs, .flt] ∧ s.RegsBut t (capRegs 0))

/-- VME_TIMEOUT.DATA_TO_US stays above VME_BUS_TIMER.BTO_US: a write that would break this is refused, whichever register it goes
to (R83). -/
def Obligations.DataTimeoutStaysAboveBusTimeout : Prop :=
  ∀ (s : State) (v : Word) (node agent : Nat), s.up .mgmt = true → s.rd F.VME_BUS_TIMER_BTO_US < s.rd F.VME_TIMEOUT_DATA_TO_US →
    (F.VME_TIMEOUT_DATA_TO_US.of v ≤ s.rd F.VME_BUS_TIMER_BTO_US → ∃ t,
      exec (.setupWrite K.VME_TIMEOUT (leBytes 4 v.toNat) node agent) s = .next t ∧
      t.rd F.VME_TIMEOUT_DATA_TO_US = s.rd F.VME_TIMEOUT_DATA_TO_US ∧ t.rd F.VME_BUS_TIMER_BTO_US = s.rd F.VME_BUS_TIMER_BTO_US ∧
      ∃ x ∈ t.flt.raised, x.code = Code.CFG_RANGE ∧ x.src = Src.setup) ∧
    (s.rd F.VME_TIMEOUT_DATA_TO_US ≤ F.VME_BUS_TIMER_BTO_US.of v → s.halted 0 = true → ∃ t,
      exec (.setupWrite K.VME_BUS_TIMER (leBytes 4 v.toNat) node agent) s = .next t ∧
      t.rd F.VME_BUS_TIMER_BTO_US = s.rd F.VME_BUS_TIMER_BTO_US ∧ t.rd F.VME_TIMEOUT_DATA_TO_US = s.rd F.VME_TIMEOUT_DATA_TO_US ∧
      ∃ x ∈ t.flt.raised, x.code = Code.CFG_RANGE ∧ x.src = Src.setup) ∧
    (∀ off bs t, exec (.setupWrite off bs node agent) s = .next t →
      t.rd F.VME_BUS_TIMER_BTO_US < t.rd F.VME_TIMEOUT_DATA_TO_US)

/-- Time and the cadence position (R317 to R322): a tick of the EDGE clock, the mains and the encoder as sources, loss, coasting
and fallback. The links' markers leave by the clock (R231, R232). -/
def Obligations.TheCadenceFollowsItsSource : Prop :=
  ∀ s : State,
    let plus := fun (t : State) (key n : Nat) => t.reg key = BitVec.ofNat 32 (satAdd 32 (s.reg key).toNat n)
    let raised := fun (t : State) (codes : List Nat) => ∃ xs, t.flt = { s.flt with raised := s.flt.raised ++ xs } ∧
      xs.map (fun x => (x.code, x.src)) = codes.map (fun c => (c, Src.cadence))
    let src := s.cadSource
    let st := s.cadState
    let keys := [K.CAD_STAT, K.CAD_FLAGS, K.CAD_RATE]
    -- the source is lost: COASTING, and FALLBACK at once where COAST_MS is 0
    let lost := fun (t : State) => plus t K.CAD_CNT_LOSS 1 ∧ t.bit F.CAD_FLAGS_LOSS = true ∧ s.Only t [.regs, .flt, .cad, .stat] ∧
      s.RegsBut t (K.CAD_CNT_LOSS :: keys) ∧
      (s.rd F.CAD_COAST_COAST_MS ≠ 0 → t.cadState = 2 ∧ raised t [Code.CAD_LOSS] ∧
        t.cad = { s.cad with refs := 0, encBad := 0, flags := s.cad.flags ||| 0x10000 }) ∧
      (s.rd F.CAD_COAST_COAST_MS = 0 → t.cadState = 3 ∧ raised t [Code.CAD_LOSS, Code.CAD_FALLBACK] ∧ t.cad.num = 2 ^ 32 ∧ t.cad.den = 100000)
    -- a tick
    (s.up .core = false → s.up .link = false → s.up .edge = false → exec .cadTick s = .next { s with ticks := s.ticks + 1 }) ∧
    (s.up .core = true → s.up .link = true → s.up .edge = true → s.host.tlps = [] → s.drv.wakeWait = [] → (s.ticks + 1) % 100 ≠ 0 →
        (∀ k, k < 2 → (s.link k).laneOpen = false) →
      let f := s.net.epochFrac + (160 * (1000000000 + s.net.epochRate)).toNat
      let w := { s with
        ticks := s.ticks + 1, cyc := s.cyc + (if s.bit F.CLK_STAT_HALF then 4 else 8)
        net := { s.net with epoch := (s.net.epoch + f / 1000000000) % 2 ^ 64, epochFrac := f % 1000000000 } }
      let u := if (s.ticks + 1) * 100 % 2097152 < 100 then [0, 1, 2].foldl State.sendMarkers w else w
      (s.stage < 2 → exec .cadTick s = .next u) ∧
      (2 ≤ s.stage → src ≠ 1 → src ≠ 3 → s.bit F.CAD_STAT_DIR = false → s.cad.hold = [] → s.cad.holdWait = [] →
        (∀ k, k < 256 → s.bit (F.CAD_SCH_CTL_EN k) = false) →
        let d := (s.cad.acc + s.cad.num) / s.cad.den
        s.cad.pos < 2 ^ 80 → (s.cad.pos + d) / 2 ^ 32 = s.cad.pos / 2 ^ 32 → ∃ t, exec .cadTick s = .next t ∧ t.cad.pos = s.cad.pos + d ∧
        t.cad.acc = (s.cad.acc + s.cad.num) % s.cad.den ∧ t.cad.p = s.cad.p ∧ t.cad.crossed = s.cad.crossed ∧ t.net = u.net ∧ t.ticks = u.ticks ∧
        t.cyc = u.cyc ∧ t.out = u.out ∧ s.Only t [.regs, .net, .cad, .cyc, .ticks, .out] ∧ s.RegsBut t [K.CAD_STAT])) ∧
    (s.up .edge = true →
      -- the mains
      (let now := s.ticks
       let bad := fun (t : State) => plus t K.CAD_CNT_ZC_BAD 1 ∧ t.bit F.CAD_FLAGS_ZC_BAD = true ∧ raised t [Code.CAD_ZC_BAD] ∧
         s.Only t [.regs, .flt, .cad, .stat] ∧ s.RegsBut t [K.CAD_CNT_ZC_BAD, K.CAD_FLAGS]
       (s.cad.zcLast = none → ∃ t, exec .cadZcEdge s = .next t ∧ bad t ∧ t.cad = { s.cad with zcLast := some now }) ∧
       (∀ z, s.cad.zcLast = some z →
         (now - z < 1538500 → ∃ t, exec .cadZcEdge s = .next t ∧ bad t ∧ t.cad = s.cad) ∧
         (2222200 < now - z → ∃ t, exec .cadZcEdge s = .next t ∧ bad t ∧
           t.cad = { s.cad with zcLast := some now, refs := if src = 2 then 0 else s.cad.refs }) ∧
         (1538500 ≤ now - z → now - z ≤ 2222200 →
           let u := { s with cad := { s.cad with zcLast := some now, zcPeriods := ((now - z) :: s.cad.zcPeriods).take 4 } }
           let err := posDiff s.cad.pos (nearFrame s.cad.pos u.zcPhase)
           (src ≠ 2 → exec .cadZcEdge s = .next u) ∧
           (src = 2 → st = 1 → err.natAbs ≤ 2 ^ 26 → ∃ t, exec .cadZcEdge s = .next t ∧
             t.cad = { u.cad with num := ((2 ^ 32 : Int) - err).toNat, den := u.zcMean, acc := 0 } ∧ s.Only t [.regs, .cad] ∧
             s.RegsBut t [K.CAD_RATE])))) ∧
      (src ≠ 2 ∨ s.cad.zcLast = some s.ticks → exec .cadMainsLoss s = .next s) ∧
      (src = 2 → s.cad.zcLast ≠ some s.ticks → st ≠ 1 → exec .cadMainsLoss s = .next { s with cad := { s.cad with refs := 0 } }) ∧
      (src = 2 → s.cad.zcLast ≠ some s.ticks → st = 1 → ∃ t, exec .cadMainsLoss s = .next t ∧ lost t) ∧
      (st ≠ 2 → exec .cadFallback s = .next s) ∧
      (st = 2 → ∃ t, exec .cadFallback s = .next t ∧ t.cadState = 3 ∧ t.bit F.CAD_FLAGS_FALLBACK = true ∧ raised t [Code.CAD_FALLBACK] ∧
        t.cad = { s.cad with flags := s.cad.flags ||| 0x20000, num := 2 ^ 32, den := 100000, acc := 0 } ∧ s.Only t [.regs, .flt, .cad] ∧
        s.RegsBut t keys) ∧
      -- the encoder
      (∀ a b, let d := (quadIndex a b + 4 - quadIndex s.cad.encA s.cad.encB) % 4
        let seen := { s with cad := { s.cad with encA := a, encB := b } }
        (d = 0 → exec (.cadEncCount a b) s = .next seen) ∧
        (d = 2 → src ≠ 3 → ∃ t, exec (.cadEncCount a b) s = .next t ∧ plus t K.CAD_CNT_QERR 1 ∧ t.bit F.CAD_FLAGS_QERR = true ∧
          raised t [Code.CAD_QERR] ∧ t.cad = seen.cad ∧ s.Only t [.regs, .flt, .cad, .stat] ∧ s.RegsBut t [K.CAD_CNT_QERR, K.CAD_FLAGS]) ∧
        (d = 2 → src = 3 → st = 1 → 7 ≤ s.cad.encBad → s.rd F.CAD_COAST_COAST_MS ≠ 0 → ∃ t, exec (.cadEncCount a b) s = .next t ∧ t.cadState = 2 ∧
          plus t K.CAD_CNT_QERR 1 ∧ plus t K.CAD_CNT_LOSS 1 ∧ raised t [Code.CAD_QERR, Code.CAD_LOSS]) ∧
        (d = 1 ∨ d = 3 → src ≠ 3 ∨ st = 0 →
          let c := s.rd F.CAD_ENC_CNT_COUNT
          let cpr := s.rd F.CAD_ENC_CPR
          let forward := ((d == 1) != s.bit F.CAD_ENC_DIR_INV)
          ∃ t, exec (.cadEncCount a b) s = .next t ∧
          t.rd F.CAD_ENC_CNT_COUNT = (if forward then (c + 1) % cpr else (c + cpr - 1) % cpr) % 2 ^ 24 ∧
          t.cad = { seen.cad with encLast := s.ticks } ∧ s.Only t [.regs, .cad] ∧ s.RegsBut t [K.CAD_ENC_CNT])) ∧
      (let c := s.rd F.CAD_ENC_CNT_COUNT
       let dev := min c (s.rd F.CAD_ENC_CPR - c)
       let indexed := s.bit F.CAD_ENC_IDX_EN
       (indexed = false ∨ (¬ (src = 3 ∧ st = 0) ∧ dev = 0) ∨ (¬ (src = 3 ∧ st < 2) ∧ s.rd F.CAD_ENC_TOL_IDX_TOL < dev) →
         exec .cadEncIndex s = .next s) ∧
       (indexed = true → ¬ (src = 3 ∧ st < 2) → 0 < dev → dev ≤ s.rd F.CAD_ENC_TOL_IDX_TOL → ∃ t, exec .cadEncIndex s = .next t ∧
         t.rd F.CAD_ENC_CNT_COUNT = 0 ∧ plus t K.CAD_CNT_IDX_SLIP 1 ∧ t.bit F.CAD_FLAGS_IDX_SLIP = true ∧ raised t [Code.CAD_IDX_SLIP] ∧
         s.Only t [.regs, .flt, .stat] ∧ s.RegsBut t [K.CAD_ENC_CNT, K.CAD_CNT_IDX_SLIP, K.CAD_FLAGS]) ∧
       (indexed = true → src = 3 → st = 1 → s.rd F.CAD_ENC_TOL_IDX_TOL < dev → ∃ t, exec .cadEncIndex s = .next t ∧ lost t)))

/-- Periods end, their statistics are latched and copied out, and the schedule's descriptors are copied (R323, R328 to R333). -/
def Obligations.PeriodsAreSnappedAndSchedulesCopied : Prop :=
  ∀ s : State,
    (s.up .edge = true →
      (s.stage < 2 → exec .cadMaxMs s = .next s) ∧
      (s.bit F.CAD_SNAP_VALID = true → s.cad.lastBoundary = s.ticks → exec .cadMaxMs s = .next s) ∧
      (s.stage = 6 → s.commitPending = false → s.bit F.CAD_SNAP_VALID = false ∨ s.cad.lastBoundary ≠ s.ticks → ∃ t, exec .cadMaxMs s = .next t ∧ t.cad.p = (s.cad.p + 1) % 2 ^ 64 ∧
        t.bit F.CAD_SNAP_VALID = true ∧ t.rd F.CAD_SNAP_BANK = (if s.bit F.CAD_SNAP_VALID then 1 - s.rd F.CAD_SNAP_BANK else 0) ∧
        t.cad.lastBoundary = s.ticks ∧ t.cad.startFrame = s.frame)) ∧
    (s.up .core = true →
      (s.maintRun = none → exec .statSnapshotCopy s = .next s) ∧
      (∀ d b, s.maintRun = some (d, b) →
        let rest := s.stat.copying.filter (fun c => c != b)
        let copied := fun (u : State) => exec .statSnapshotCopy s = .next (u.endTask d St.OK 0 [])
        (b ∉ s.stat.copying → copied s) ∧
        (b ∈ s.stat.copying → s.outEn 257 = false ∨ s.outSize 257 ≤ s.outTaken 257 → ∃ u, copied u ∧ u.stat.copying = rest ∧
          u.host = { s.host with stLost := satAdd 16 s.host.stLost 1 } ∧
          u.reg K.HST_CNT_ST_LOST = BitVec.ofNat 32 (satAdd 32 (s.reg K.HST_CNT_ST_LOST).toNat 1) ∧ s.Only u [.regs, .stat, .host] ∧
          s.RegsBut u [K.HST_CNT_ST_LOST]) ∧
        (b ∈ s.stat.copying → s.outEn 257 = true → s.outTaken 257 < s.outSize 257 → (s.writer 257).isSome = true → ∃ e, copied { s with
            stat := { s.stat with copying := rest }, host := { s.host with stLost := 0, queue := s.host.queue ++ [e] } } ∧
          e.key = 257 ∧ e.bytes.length = 32 + 0xC50 ∧
          leNum (e.bytes.take 4) = (s.reg (K.STAT_BANK b 2)).toNat))) ∧
    (∀ k, s.up .edge = true →
      ((s.schEntry k).copying = false → exec (.cadSchCopyDone k) s = .next s) ∧
      ((s.schEntry k).copying = true →
        (∀ bs, s.ddrHas (s.schAt k) 64 = true → s.bit F.DDR_STAT_READY = true → (s.ddrRead (s.schAt k) 64).1 = some bs → ∃ t,
          exec (.cadSchCopyDone k) s = .next t ∧ t.schEntry k = { s.schEntry k with shadow := some bs, copying := false } ∧
          t.bit (F.CAD_SCH_STAT_COPIED k) = true ∧ (∀ j, j ≠ k → t.schEntry j = s.schEntry j) ∧ s.Only t [.regs, .flt, .cad, .stat, .ddr]) ∧
        (s.ddrHas (s.schAt k) 64 = false ∨ s.bit F.DDR_STAT_READY = false → ∃ t bs, exec (.cadSchCopyDone k) s = .next t ∧ bs.length = 64 ∧
          t.schEntry k = { s.schEntry k with shadow := some bs, copying := false } ∧ t.freeCtr = s.freeCtr + 64 ∧
          s.Only t [.regs, .cad, .freeCtr] ∧ s.RegsBut t [K.CAD_SCH_STAT k]))) ∧
    (s.up .mgmt = true → ∀ node agent, ∃ t, exec (.cadSchReload node agent) s = .next t ∧
      (s.bit F.CHIP_COMMIT_STAT_RETIRING = false → ∀ k, k < 256 → t.schEntry k = { s.schEntry k with copying := true } ∧
        t.bit (F.CAD_SCH_STAT_COPIED k) = false) ∧
      (s.bit F.CHIP_COMMIT_STAT_RETIRING = true → t.cad = s.cad ∧
        t.regs.heldWrites = s.regs.heldWrites ++ [⟨K.CAD_SCH_RELOAD, 1#32, none⟩]) ∧ s.Only t [.regs, .cad])

/-- Two nodes share the crook (R336 to R348): beacons and their answers, the lease and its lapse, claims, fences, the handover and
the HOLD lines. -/
def Obligations.TheCrookIsLeasedClaimedAndHandedOver : Prop :=
  ∀ s : State, s.up .mgmt = true → s.net.taken.length = 4 → s.net.links.length = 3 →
    let plus := fun (t : State) (key n : Nat) => t.reg key = BitVec.ofNat 32 (satAdd 32 (s.reg key).toNat n)
    let raised := fun (t : State) (code : Nat) => ∃ x ∈ t.flt.raised, x.code = code ∧ x.src = Src.twin
    let qOf := fun (q : Nat) => getAt [] s.net.taken q
    let took := fun (q : Nat) (rest : List Packet) => { s with net := { s.net with taken := setAt s.net.taken q rest } }
    let isLease := fun (m : Nat) (p : Packet) => p.kind == Kind.LEASE && p.mtype == m
    let on := s.twinOn
    let holds := s.crook = true ∧ s.twin.fencing = false
    let st := s.twnState
    let mute := (s.linkUp 2 = false ∧ s.ringOpenFor = false) ∨ s.halting 3 = true
    let sync := s.bit F.TWN_STAT_SYNC
    let stat := [K.TWN_STAT]
    -- the device is in STANDBY from now on
    let standby := fun (t : State) (b : Bool) => t.twnState = 1 ∧ t.crook = false ∧ t.bit F.TWN_STAT_SYNC = b ∧ t.bit F.TWN_STAT_ALONE = false ∧
      t.twin.enteredStandby = s.ticks ∧ t.twin.handover = false
    let fenced := fun (t : State) => t.twin.fencing = true ∧ t.twin.fenceAt = s.ticks ∧ plus t K.TWN_CNT_FENCE 1 ∧ raised t Code.TWN_FENCE
    -- beacons
    (on = false ∨ s.twin.fencing = true ∨ s.halting 3 = true → exec .twnBeacon s = .next s) ∧
    (on = true → s.twin.fencing = false → s.halting 3 = false →
      let n := s.twin.bseq
      let sent := { s.twin with bseq := (n + 1) % 2 ^ 32, beacons := s.twin.beacons ++ [(n, s.ticks)] }
      (mute → exec .twnBeacon s = .next { s with twin := sent }) ∧
      (s.ringOpenFor = false → s.ClearOn 2 (s.leasePacket 1 n) → ∃ t, exec .twnBeacon s = .next t ∧ t.twin = sent ∧
        s.SentOn t 2 (s.leasePacket 1 n) ∧ s.Only t [.regs, .net, .twin, .out] ∧ s.RegsBut t [K.LNK_LINK_STAT 2])) ∧
    -- LEASE packets
    (∀ q m i, (m, i) ∈ [(1, Instr.beaconRx q), (2, .leaseAckRx q), (3, .takeRx q), (4, .handoverRx q)] →
      ((qOf q).all (fun p => !isLease m p) = true → exec i s = .next s) ∧
      (∀ p rest, q < 4 → qOf q = p :: rest → isLease m p = true → on = false ∨ p.src ≠ s.twnPeer → exec i s = .next (took q rest))) ∧
    (∀ q p rest, q < 4 → qOf q = p :: rest → on = true → p.src = s.twnPeer →
      let h := (took q rest).heard q p
      let l := leNum (slice p.payload 4 2)
      let g := leNum (slice p.payload 6 2)
      let own := (s.rd F.TWN_LEASE_LEASE_MS, s.rd F.TWN_LEASE_GUARD_MS)
      let agrees := l = s.rd F.TWN_LEASE_LEASE_MS ∧ g = s.rd F.TWN_LEASE_GUARD_MS
      let peerHolds := p.leaseState = 3 ∨ p.leaseState = 4
      (isLease 1 p = true →
        (holds → ¬ peerHolds → ∃ t, exec (.beaconRx q) s = .next t ∧ t.bit F.TWN_STAT_SYNC = p.leaseSync ∧
          (agrees → t.twin = { h.twin with peerSum := l + g, mismatch := none } ∧ t.flt = s.flt) ∧
          (¬ agrees → t.twin = { h.twin with peerSum := l + g, mismatch := some ((l, g), own) } ∧
            t.flt = (if s.twin.mismatch = some ((l, g), own) then s.flt else (s.raise Code.TWN_CFG_MISMATCH Src.twin []).flt)) ∧
          s.Only t [.regs, .flt, .net, .twin] ∧ s.RegsBut t stat) ∧
        (holds → peerHolds → mute → agrees →
          let gen := s.rd F.TWN_STAT_GEN
          let keeps := genAbove gen p.leaseGen = true ∨ (gen = p.leaseGen ∧ s.nodeId < p.src)
          (keeps → ∃ t, exec (.beaconRx q) s = .next t ∧ t.crook = true ∧ t.twin = { h.twin with peerSum := l + g, mismatch := none } ∧
            t.flt = (s.raise Code.TWN_CONFLICT Src.twin []).flt ∧ s.Only t [.regs, .flt, .net, .twin] ∧ s.RegsBut t stat) ∧
          (¬ keeps → ∃ t, exec (.beaconRx q) s = .next t ∧ raised t Code.TWN_CONFLICT ∧ fenced t)) ∧
        (¬ holds → st = 1 ∨ st = 2 → peerHolds → mute → agrees → sync = true ∨ s.twin.asked = true →
          ∃ t, exec (.beaconRx q) s = .next t ∧ t.twnState = 1 ∧ t.twin.heardActive = some p.src ∧ t.twin.tHeard = s.ticks ∧
          t.bit F.TWN_STAT_SYNC = sync ∧ s.Only t [.regs, .net, .twin] ∧ s.RegsBut t stat) ∧
        (¬ holds → st = 5 → ¬ peerHolds → agrees → ∃ t, exec (.beaconRx q) s = .next t ∧ standby t false ∧ s.Only t [.regs, .net, .twin] ∧
          s.RegsBut t stat)) ∧
      (isLease 2 p = true →
        (¬ holds → exec (.leaseAckRx q) s = .next h) ∧
        (holds → ∃ t, exec (.leaseAckRx q) s = .next t ∧ t.bit F.TWN_STAT_SYNC = p.leaseSync ∧ t.bit F.TWN_STAT_ALONE = false ∧
          (∀ b, s.twin.beacons = [b] → t.twin = { h.twin with
            peerLostRaised := false, tRenew := if b.1 = p.leaseBseq then max s.twin.tRenew b.2 else s.twin.tRenew }) ∧
          s.Only t [.regs, .net, .twin] ∧ s.RegsBut t stat)) ∧
      (isLease 3 p = true → exec (.takeRx q) s = .next { h with twin := { h.twin with sawTake := h.twin.sawTake || decide (st = 2) } }) ∧
      (isLease 4 p = true →
        (st ≠ 1 ∨ s.flt.safe = true ∨ s.halting 3 = true → exec (.handoverRx q) s = .next h) ∧
        (st = 1 → s.flt.safe = false → s.halting 3 = false → mute → ∃ t, exec (.handoverRx q) s = .next t ∧ t.twnState = 2 ∧
          t.twin = { h.twin with heardActive := some p.src, sawTake := false, handover := true, holdOut := true } ∧
          s.Only t [.regs, .net, .twin] ∧ s.RegsBut t stat))) ∧
    -- the lease lapses
    (let due := s.twin.tRenew + msTicks (s.rd F.TWN_LEASE_LEASE_MS - s.rd F.TWN_LEASE_GUARD_MS)
     let peerDead := s.bit F.TWN_CTL_HOLD_EN = true ∧ s.rd F.TWN_STAT_HOLD_IN = 0
     (on = false ∨ ¬ holds ∨ s.ticks < due → exec .twnLeaseLapse s = .next s) ∧
     (on = true → holds → due ≤ s.ticks →
       (peerDead → ∃ t, exec .twnLeaseLapse s = .next t ∧ t.bit F.TWN_STAT_ALONE = true ∧ t.crook = true ∧
         t.twin = { s.twin with peerLostRaised := true } ∧
         t.flt = (if s.twin.peerLostRaised then s.flt else (s.raise Code.TWN_PEER_LOST Src.twin []).flt) ∧ s.Only t [.regs, .flt, .twin] ∧
         s.RegsBut t stat) ∧
       (¬ peerDead → ∃ t, exec .twnLeaseLapse s = .next t ∧ fenced t))) ∧
    -- claims
    (let w := s.twnW
     let may := on = true ∧ st = 1 ∧ s.bit F.TWN_CTL_TAKE_EN = true ∧ s.flt.safe = false ∧ s.halting 3 = false ∧ s.twin.committing = none ∧
       s.twin.tHeard + w ≤ s.ticks
     let stuck := s.bit F.TWN_CTL_HOLD_EN = true ∧ s.rd F.TWN_STAT_HOLD_IN = 2
     let early := s.bit F.TWN_CTL_PRIMARY = false ∧ sync = false ∧ (s.ticks < s.twin.enteredStandby + 2 * w ∨ s.ticks < s.twin.tHeard + 2 * w)
     (¬ may ∨ (¬ stuck ∧ early) → exec .twnWaitEnd s = .next s) ∧
     (may → stuck → ∃ t, exec .twnWaitEnd s = .next t ∧ t.twin = { s.twin with stuckRaised := true } ∧
       t.flt = (if s.twin.stuckRaised then s.flt else (s.raise Code.TWN_HOLD_STUCK Src.twin []).flt) ∧ s.Only t [.flt, .twin]) ∧
     (may → ¬ stuck → ¬ early → mute → ∃ t, exec .twnWaitEnd s = .next t ∧ t.twnState = 2 ∧
       t.twin = { s.twin with sawTake := false, handover := false, holdOut := true } ∧ s.Only t [.regs, .twin] ∧ s.RegsBut t stat) ∧
     (let ready := on = true ∧ st = 2 ∧ s.twin.committing = none
      let contested := (s.twin.sawTake = true ∨ stuck) ∧ s.twnPeer < s.nodeId
      (¬ ready → exec .twnClaimEnd s = .next s) ∧
      (ready → contested → ∃ t, exec .twnClaimEnd s = .next t ∧ standby t sync ∧ t.twin.holdOut = false ∧ s.Only t [.regs, .twin] ∧
        s.RegsBut t stat) ∧
      (ready → ¬ contested → ∃ t, exec .twnClaimEnd s = .next t ∧ t.twnState = 3 ∧ t.crook = true ∧ t.twin.holdOut = true ∧
        t.rd F.TWN_STAT_GEN = (genMax (s.rd F.TWN_STAT_GEN) s.twin.peerGen + 1) % 65536 ∧
        t.bit F.TWN_STAT_SAFE = (!sync || s.bit F.TWN_CTL_TAKE_SAFE) ∧ t.bit F.TWN_STAT_SYNC = false ∧
        t.rd F.TWN_TAKE_EP_EPOCH = s.rd F.TWN_EPOCH_EPOCH ∧
        t.rd F.TWN_EPOCH_EPOCH = (s.rd F.TWN_EPOCH_EPOCH + (if s.twin.handover then 1 else 2)) % 2 ^ 32 ∧ plus t K.TWN_CNT_TAKE 1 ∧
        raised t Code.TWN_TAKEOVER ∧ t.twin.banks = []))) ∧
    -- after a fence
    (s.twin.fencing = false → exec .twnFenceDone s = .next s) ∧
    (s.twin.fencing = true → ∃ t, exec .twnFenceDone s = .next t ∧ t.crook = false ∧ t.twnState = 5 ∧
      t.twin = { s.twin with fencing := false, holdOut := false } ∧ s.Only t [.regs, .drv, .ord, .twin, .port, .out] ∧ s.RegsBut t stat) ∧
    (let back := on = true ∧ st = 5 ∧ s.bit F.TWN_CTL_HOLD_EN = true ∧ s.twin.fenceAt + s.twnW ≤ s.ticks
     (¬ back → exec .twnFenceRearm s = .next s) ∧
     (back → ∃ t, exec .twnFenceRearm s = .next t ∧ standby t false ∧ t.twin.tHeard = s.ticks ∧ s.Only t [.regs, .twin] ∧ s.RegsBut t stat)) ∧
    (on = false ∨ st ≠ 5 → exec .twnRearm s = .next s) ∧
    (on = true → st = 5 → ∃ t, exec .twnRearm s = .next t ∧ standby t false ∧ t.twin.tHeard = s.ticks - s.twnW ∧ s.Only t [.regs, .twin] ∧
      s.RegsBut t stat) ∧
    (∃ t, exec .twnResume s = .next t ∧ t.bit F.TWN_STAT_SAFE = false ∧ s.Only t [.regs] ∧ s.RegsBut t stat) ∧
    -- the handover
    (on = false ∨ st ≠ 3 ∨ s.twin.fencing = true → exec .twnYield s = .next s) ∧
    (on = true → st = 3 → s.twin.fencing = false →
      (sync = true → ∃ t, exec .twnYield s = .next t ∧ t.twnState = 4 ∧ s.Only t [.regs] ∧ s.RegsBut t stat) ∧
      (sync = false → exec .twnYield s = .next (s.raise Code.TWN_YIELD_REFUSED Src.twin []))) ∧
    (st ≠ 4 ∨ s.twin.yieldEpoch = none ∨ s.twin.fencing = true → exec .twnYieldRefused s = .next s) ∧
    (st = 4 → s.twin.yieldEpoch ≠ none → s.twin.fencing = false → ∃ t, exec .twnYieldRefused s = .next t ∧ t.twnState = 3 ∧
      t.twin = { s.twin with yieldEpoch := none } ∧ raised t Code.TWN_YIELD_REFUSED) ∧
    -- the HOLD lines
    (on = false ∨ s.crook = true ∨ st = 2 → exec .twnHoldToggle s = .next s) ∧
    (on = true → s.crook = false → st ≠ 2 → exec .twnHoldToggle s = .next { s with twin := { s.twin with holdOut := !s.twin.holdOut } }) ∧
    (∀ level changed, ∃ t, exec (.twnHoldInClassify level changed) s = .next t ∧
      t.rd F.TWN_STAT_HOLD_IN = (if changed then 1 else if level then 2 else 0) ∧ t.twin = { s.twin with holdIn := level } ∧
      s.Only t [.regs, .twin] ∧ s.RegsBut t stat)

/-- What the holder changes is mirrored to its twin (R349 to R357): records leave as the path takes them; the standby stages each
epoch, commits the one that follows, whole and in order, and turns away what it cannot stage; COMMITTED and RESYNC at the holder. -/
def Obligations.EpochsAreMirroredAndCommitted : Prop :=
  ∀ s : State, s.up .mgmt = true → s.net.taken.length = 4 → s.net.links.length = 3 →
    let plus := fun (t : State) (key n : Nat) => t.reg key = BitVec.ofNat 32 (satAdd 32 (s.reg key).toNat n)
    let qOf := fun (q : Nat) => getAt [] s.net.taken q
    let took := fun (q : Nat) (rest : List Packet) => { s with net := { s.net with taken := setAt s.net.taken q rest } }
    let isMirror := fun (m : Nat) (p : Packet) => p.kind == Kind.MIRROR && p.mirrorType == m
    let on := s.twinOn
    let holds := s.crook = true ∧ s.twin.fencing = false
    let noPath := s.linkUp 2 = false ∧ s.bit F.TWN_CTL_RING_MIRROR = false
    let sync := s.bit F.TWN_STAT_SYNC
    let last := s.rd F.TWN_EPOCH_EPOCH
    let roomy := fun (k : Nat) => k ≤ s.bankSize
    -- an epoch is given up: SYNC clears, the banks are dropped
    let bad := fun (h u t : State) (n : Nat) => t.bit F.TWN_STAT_SYNC = false ∧ t.flt = (u.raise Code.TWN_EPOCH_BAD Src.twin [n]).flt ∧
      plus t K.TWN_CNT_EP_DISCARD 1 ∧ t.twin = { s.twin with
        asked := false, banks := [], committing := s.twin.committing.map (fun (b : StageBank) => { b with bad := true }) } ∧
      h.Only t [.regs, .flt, .twin] ∧ h.RegsBut t [K.TWN_STAT, K.TWN_CNT_EP_DISCARD]
    -- MIRROR packets that are not acted on
    (∀ q m i, (m, i) ∈ [(1, Instr.mirrorRecordRx q), (2, .mirrorCloseRx q), (3, .committedRx q), (4, .resyncRx q)] →
      ((qOf q).all (fun p => !isMirror m p) = true → exec i s = .next s) ∧
      (∀ p rest, q < 4 → qOf q = p :: rest → isMirror m p = true → on = false ∨ p.src ≠ s.twnPeer ∨ (m < 3 ∧ s.stages = false) ∨
        (2 < m ∧ ¬ holds) → exec i s = .next (took q rest))) ∧
    (∀ q p rest, q < 4 → qOf q = p :: rest → on = true → p.src = s.twnPeer →
      let h := took q rest
      let n := p.mirrorEpoch
      let follows := sync = true ∧ n = (last + 1) % 2 ^ 32
      -- a record is staged
      (isMirror 1 p = true → s.stages = true →
        let r : MirrorRec := ⟨p.recType, p.payload⟩
        let len := 8 + p.payload.length
        (∀ b, s.twin.banks = [b] → b.epoch = n → b.close = none →
          (roomy (b.bytes + len) → exec (.mirrorRecordRx q) s = .next { h with twin := { s.twin with
            banks := [{ b with recs := insertRec (p.recSeq, r) b.recs, bytes := b.bytes + len }] } }) ∧
          (¬ roomy (b.bytes + len) → noPath → ∃ t, exec (.mirrorRecordRx q) s = .next t ∧
            bad h ((h.raise Code.TWN_STAGE_FULL Src.twin []).wr F.TWN_STAT_SYNC 0) t n)) ∧
        (s.twin.banks = [] → s.twin.committing = none →
          (follows ∨ (sync = false ∧ p.recType = 8) → roomy len →
            exec (.mirrorRecordRx q) s = .next { h with twin := { s.twin with banks := [⟨n, [(p.recSeq, r)], len, none, false⟩] } }) ∧
          (sync = false → p.recType ≠ 8 → exec (.mirrorRecordRx q) s = .next h))) ∧
      -- a CLOSE completes it
      (isMirror 2 p = true → s.stages = true →
        let c := (leNum (slice p.payload 0 4), BitVec.ofNat 32 (leNum (slice p.payload 4 4)), leNum (slice p.payload 16 1),
          leNum (slice p.payload 24 8))
        ∀ b, s.twin.banks = [b] → b.epoch = n →
          let closed := { b with close := some c }
          (s.twin.committing ≠ none ∨ closed.verdict = none →
            exec (.mirrorCloseRx q) s = .next { h with twin := { s.twin with banks := [closed] } }) ∧
          (s.twin.committing = none → follows ∨ (sync = false ∧ closed.full = true) →
            (closed.verdict = some true →
              exec (.mirrorCloseRx q) s = .next { h with twin := { s.twin with banks := [], committing := some closed } }) ∧
            (closed.verdict = some false → noPath → ∃ t, exec (.mirrorCloseRx q) s = .next t ∧ bad h h t n))) ∧
      -- at the holder
      (isMirror 4 p = true → holds → exec (.resyncRx q) s = .next { h with twin := { s.twin with fullReq := true } }) ∧
      (isMirror 3 p = true → holds →
        let hand := s.yielding = true ∧ s.twin.yieldEpoch = some n
        let settled := { h with twin := { s.twin with markWait := [] } }
        (hand → s.outputsBusy = true → exec (.committedRx q) s = .next s) ∧
        (¬ hand → s.twin.markWait = [] → exec (.committedRx q) s = .next h) ∧
        (¬ hand → ∀ e k, s.twin.markWait = [(e, k)] → (n + 2 ^ 32 - e) % 2 ^ 32 < 2 ^ 31 →
          exec (.committedRx q) s = .next (settled.detachResult k
            (if e = n then ⟨St.OK, 0, leBytes 8 n⟩ else ⟨St.TWIN_OFF, 0, leBytes 8 0⟩))) ∧
        (hand → s.outputsBusy = false → s.twin.marks = [] → s.twin.markWait = [] →
          (s.linkUp 2 = false ∧ s.ringOpenFor = false) ∨ s.halting 3 = true → s.vme.waiting = [] → s.vme.gap = [] →
          s.vin.cyc = none → s.vin.vectors = [] → s.vin.vectorWait = [] → ∃ t, exec (.committedRx q) s = .next t ∧ t.twnState = 1 ∧
          t.crook = false ∧ t.bit F.TWN_STAT_SYNC = true ∧ t.rd F.TWN_EPOCH_EPOCH = n ∧ t.twin.holdOut = false ∧
          t.twin.enteredStandby = s.ticks ∧ t.twin.mq = [] ∧ (∀ c < 8, s.bit (F.DC_CTL_EN c) = true → Out.chainHigh c ∈ t.out) ∧
          s.Only t [.regs, .vme, .vin, .drv, .ord, .net, .stat, .twin, .port, .out]))) ∧
    -- records that stay missing
    (∀ e, s.twin.banks.any (fun b => b.epoch == e) = false → exec (.mirrorRecordWaitEnd e) s = .next s) ∧
    (∀ b, s.twin.banks = [b] →
      (b.close = none ∨ b.verdict ≠ none → exec (.mirrorRecordWaitEnd b.epoch) s = .next s) ∧
      (b.close ≠ none → b.verdict = none → noPath → ∃ t, exec (.mirrorRecordWaitEnd b.epoch) s = .next t ∧ bad s s t b.epoch)) ∧
    -- the commit
    (s.twin.committing = none → exec .mirrorCommitDone s = .next s) ∧
    (∀ b, s.twin.committing = some b →
      (s.applyRecs b.recs = none → exec .mirrorCommitDone s = .next s) ∧
      (s.twin.banks = [] → noPath →
        let done := fun (t : State) => t.twin = { s.twin with committing := none } ∧ t.rd F.TWN_EPOCH_EPOCH = b.epoch % 2 ^ 32 ∧
          plus t K.TWN_CNT_EP_COMMIT 1 ∧ t.bit F.TWN_STAT_SYNC = (sync || (b.full && !b.bad)) ∧
          (∀ rc crc fl mark, b.close = some (rc, crc, fl, mark) → fl.testBit 1 = true →
            t.rd F.TWN_MARK_LO_MARK = mark % 2 ^ 32 ∧ t.rd F.TWN_MARK_HI_MARK = mark / 2 ^ 32 % 2 ^ 32) ∧
          s.RegsBut t [K.TWN_EPOCH, K.TWN_CNT_EP_COMMIT, K.TWN_MARK_LO, K.TWN_MARK_HI, K.TWN_STAT]
        (b.recs = [] → ∃ t, exec .mirrorCommitDone s = .next t ∧ done t ∧ s.Only t [.regs, .twin]) ∧
        (∀ k payload, b.recs = [(k, ⟨3, payload⟩)] → leNum (slice payload 0 8) < 8 → ∃ t, exec .mirrorCommitDone s = .next t ∧ done t ∧
          (let c := leNum (slice payload 0 8)
           t.port = (s.setDc c { s.dc c with outImg := leNum (slice payload 8 16) }).port) ∧ s.Only t [.regs, .twin, .port]))) ∧
    -- the queue at the holder
    (s.twin.mq = [] → s.twin.mwait = [] → exec .mirrorQueueSpace s = .next s) ∧
    (∀ epoch seq r, s.twin.mq = [(epoch, seq, r)] → s.twin.mwait = [] →
      let p := s.mirrorPacket (if r.rtype = 0 then 2 else 1) r.rtype seq epoch r.payload
      (noPath → exec .mirrorQueueSpace s = .next s) ∧
      (s.ClearOn 2 p → ∃ t, exec .mirrorQueueSpace s = .next t ∧ t.twin = { s.twin with mq := [] } ∧ t.rd F.TWN_MQ_DEPTH = 0 ∧
        t.rd F.TWN_MQ_PEAK = s.rd F.TWN_MQ_PEAK ∧ s.SentOn t 2 p ∧ s.Only t [.regs, .net, .twin, .out] ∧
        s.RegsBut t [K.TWN_MQ, K.LNK_LINK_STAT 2])) ∧
    (∀ r, s.twin.mq = [] → s.twin.mwait = [r] → recUnits r ≤ 1024 → noPath → ∃ t, exec .mirrorQueueSpace s = .next t ∧
      t.twin = { s.twin with
        mwait := [], fullLeft := s.twin.fullLeft - 1, mq := [(last, s.twin.rseq, r)], rseq := s.twin.rseq + 1
        crc := (leBytes 8 (mirrorW1 1 r.rtype s.twin.rseq last).toNat ++ r.payload).foldl crcByte s.twin.crc } ∧
      t.rd F.TWN_MQ_DEPTH = recUnits r ∧ t.rd F.TWN_MQ_PEAK = max (s.rd F.TWN_MQ_PEAK) (recUnits r) ∧ s.Only t [.regs, .twin] ∧
      s.RegsBut t [K.TWN_MQ])
end

