-- ==== Sys2Proof/Laws/Table.lean ====
section
/-! SUPPORT. Sparse tables: a read after a write, and that every operation keeps the canonical form. -/

namespace Sys2Proof.Machine

variable {α : Type}

/-! ### Reading after writing -/

theorem tget_terase (d : Nat → α) (t : Table α) (k j : Nat) :
    tget d (terase t k) j = if j = k then d k else tget d t j := by
  induction t with
  | nil => by_cases h : j = k <;> simp [terase, tget, h]
  | cons e t ih =>
    obtain ⟨i, v⟩ := e
    simp only [terase]
    by_cases hik : i = k
    · subst hik
      by_cases hj : j = i
      · subst hj; simp [ih]
      · simp [ih, hj, tget, Ne.symm hj]
    · by_cases hj : j = k
      · subst hj; simp [tget, ih, hik]
      · simp [tget, ih, hik, hj]

theorem tget_tinsert (d : Nat → α) (t : Table α) (k j : Nat) (v : α) :
    tget d (tinsert t k v) j = if j = k then v else tget d t j := by
  induction t with
  | nil =>
    by_cases h : j = k
    · subst h; simp [tinsert, tget]
    · simp [tinsert, tget, h, Ne.symm h]
  | cons e t ih =>
    obtain ⟨i, w⟩ := e
    simp only [tinsert]
    by_cases hki : k < i
    · by_cases hj : j = k
      · subst hj; simp [tget, hki]
      · simp [tget, hki, hj, Ne.symm hj]
    · by_cases hik : i = k
      · subst hik
        by_cases hj : j = i
        · simp [tget, hj]
        · simp [tget, hj, Ne.symm hj]
      · by_cases hj : j = k
        · subst hj; simp [tget, ih, hik, hki]
        · simp [tget, ih, hik, hki, hj]

variable [DecidableEq α]

/-- A read after a write gives the value written at that key and the old value at every other. -/
@[simp] theorem tget_tput (d : Nat → α) (t : Table α) (k j : Nat) (v : α) :
    tget d (tput d t k v) j = if j = k then v else tget d t j := by
  unfold tput
  by_cases h : v = d k
  · simp [h, tget_terase]
  · simp [h, tget_tinsert]

@[simp] theorem tget_nil (d : Nat → α) (k : Nat) : tget d [] k = d k := rfl

/-! ### The canonical form -/

theorem twfFrom_mono (d : Nat → α) (t : Table α) {lo lo' : Nat} (h : lo' ≤ lo) (hw : twfFrom d (some lo) t = true) :
    twfFrom d (some lo') t = true := by
  cases t with
  | nil => rfl
  | cons e t =>
    obtain ⟨i, v⟩ := e
    simp only [twfFrom, Bool.and_eq_true, decide_eq_true_eq] at hw ⊢
    exact ⟨⟨by omega, hw.1.2⟩, hw.2⟩

theorem twfFrom_none (d : Nat → α) (t : Table α) (o : Option Nat) (hw : twfFrom d o t = true) : twfFrom d none t = true := by
  cases t with
  | nil => rfl
  | cons e t =>
    obtain ⟨i, v⟩ := e
    cases o <;> simp_all [twfFrom]

theorem twfFrom_tail (d : Nat → α) (o : Option Nat) (i : Nat) (v : α) (t : Table α)
    (hw : twfFrom d o ((i, v) :: t) = true) : twfFrom d (some i) t = true := by
  simp only [twfFrom, Bool.and_eq_true] at hw
  exact hw.2

/-- Dropping entries keeps the canonical form. -/
theorem twfFrom_filter (d : Nat → α) (p : Nat × α → Bool) (t : Table α) (o : Option Nat) (hw : twfFrom d o t = true) :
    twfFrom d o (t.filter p) = true := by
  induction t generalizing o with
  | nil => simpa using hw
  | cons e t ih =>
    obtain ⟨i, v⟩ := e
    have ht := twfFrom_tail d o i v t hw
    by_cases hp : p (i, v) = true
    · simp only [List.filter_cons, hp, if_true]
      simp only [twfFrom, Bool.and_eq_true] at hw ⊢
      exact ⟨hw.1, ih _ ht⟩
    · simp only [List.filter_cons, hp]
      apply ih
      cases o with
      | none => exact twfFrom_none d t _ ht
      | some lo =>
        simp only [twfFrom, Bool.and_eq_true, decide_eq_true_eq] at hw
        exact twfFrom_mono d t (by omega) ht

theorem terase_eq_filter (t : Table α) (k : Nat) : terase t k = t.filter (fun e => decide (e.1 ≠ k)) := by
  induction t with
  | nil => rfl
  | cons e t ih =>
    obtain ⟨i, v⟩ := e
    by_cases h : i = k <;> simp [terase, ih, h]

theorem twfFrom_tinsert (d : Nat → α) (t : Table α) (o : Option Nat) (k : Nat) (v : α) (hv : v ≠ d k)
    (ho : ∀ lo, o = some lo → lo < k) (hw : twfFrom d o t = true) : twfFrom d o (tinsert t k v) = true := by
  induction t generalizing o with
  | nil => cases o <;> simp_all [tinsert, twfFrom]
  | cons e t ih =>
    obtain ⟨i, w⟩ := e
    have ht := twfFrom_tail d o i w t hw
    simp only [tinsert]
    by_cases hki : k < i
    · simp only [hki, if_true, twfFrom, Bool.and_eq_true, decide_eq_true_eq] at hw ⊢
      exact ⟨⟨by cases o <;> simp_all, hv⟩, ⟨trivial, hw.1.2⟩, ht⟩
    · by_cases hik : i = k
      · subst hik
        simp only [hki, if_false, if_true, twfFrom, Bool.and_eq_true, decide_eq_true_eq] at hw ⊢
        exact ⟨⟨hw.1.1, hv⟩, ht⟩
      · have hlt : i < k := by omega
        simp only [hki, hik, if_false, twfFrom, Bool.and_eq_true] at hw ⊢
        refine ⟨hw.1, ih (some i) (fun lo h => ?_) ht⟩
        cases h; exact hlt

/-- A write keeps the canonical form. -/
theorem twf_tput (d : Nat → α) (t : Table α) (k : Nat) (v : α) (hw : twf d t = true) : twf d (tput d t k v) = true := by
  unfold twf tput at *
  by_cases h : v = d k
  · simp only [h, if_true, terase_eq_filter]
    exact twfFrom_filter d _ t none hw
  · simp only [h, if_false]
    exact twfFrom_tinsert d t none k v h (fun _ hl => by cases hl) hw

/-- Writing consecutive keys keeps the canonical form. -/
theorem twf_twrites (d : Nat → α) (vs : List α) (t : Table α) (a : Nat) (hw : twf d t = true) :
    twf d (twrites d t a vs) = true := by
  induction vs generalizing t a with
  | nil => exact hw
  | cons v vs ih => exact ih _ _ (twf_tput d t a v hw)

theorem twf_filter (d : Nat → α) (p : Nat × α → Bool) (t : Table α) (hw : twf d t = true) : twf d (t.filter p) = true :=
  twfFrom_filter d p t none hw

@[simp] theorem twf_nil (d : Nat → α) : twf d [] = true := rfl

/-- Writing a byte keeps a memory canonical. -/
theorem Memory.wf_tput (m : Table Byte) (a : Nat) (b : Byte) (h : Memory.wf m = true) : Memory.wf (tput zeroByte m a b) = true :=
  twf_tput zeroByte m a b h

theorem Memory.wf_twrites (m : Table Byte) (a : Nat) (bs : List Byte) (h : Memory.wf m = true) :
    Memory.wf (twrites zeroByte m a bs) = true :=
  twf_twrites zeroByte bs m a h

theorem Memory.wf_filter (m : Table Byte) (p : Nat × Byte → Bool) (h : Memory.wf m = true) : Memory.wf (m.filter p) = true :=
  twf_filter zeroByte p m h

/-- A read after writing consecutive bytes: inside the written range the byte written, outside it the old one. -/
theorem tget_twrites (d : Nat → α) (vs : List α) (t : Table α) (a j : Nat) :
    tget d (twrites d t a vs) j = if h : a ≤ j ∧ j < a + vs.length then vs[j - a]'(by omega) else tget d t j := by
  induction vs generalizing t a with
  | nil =>
    have h : ¬ (a ≤ j ∧ j < a + ([] : List α).length) := by simp
    rw [dif_neg h]; rfl
  | cons v vs ih =>
    simp only [twrites, ih, tget_tput, List.length_cons]
    by_cases h1 : j = a
    · subst h1
      have h2 : ¬ (j + 1 ≤ j ∧ j < j + 1 + vs.length) := by omega
      rw [dif_neg h2, dif_pos ⟨by omega, by omega⟩]; simp
    · by_cases h2 : a + 1 ≤ j ∧ j < a + 1 + vs.length
      · have h3 : a ≤ j ∧ j < a + (vs.length + 1) := by omega
        have h4 : j - a = (j - (a + 1)) + 1 := by omega
        simp only [h2, h3, and_self, dite_true]
        simp [h4]
      · have h3 : ¬ (a ≤ j ∧ j < a + (vs.length + 1)) := by omega
        rw [dif_neg h2, dif_neg h3, if_neg h1]

end Sys2Proof.Machine
end

