-- ==== Sys2Proof/Laws/Registers.lean ====
section
/-! SUPPORT. Registers and their fields: what a write of one field does to every field and every register. -/

namespace Sys2Proof.Machine

/-! ### Bit fields -/

/-- The bits of a register written with one field, as a number. -/
theorem toNat_setBits (w : Word) (hi lo v : Nat) (hl : lo ≤ hi) (hh : hi < 32) :
    (setBits w hi lo v).toNat =
      w.toNat % 2 ^ lo + (v % 2 ^ (hi - lo + 1)) * 2 ^ lo + (w.toNat / 2 ^ (hi + 1)) * 2 ^ (hi + 1) := by
  have e : lo + (hi - lo + 1) = hi + 1 := by omega
  simp only [setBits, BitVec.toNat_ofNat, e]
  apply Nat.mod_eq_of_lt
  have hw := w.isLt
  have p1 : 2 ^ (hi + 1) = 2 ^ lo * 2 ^ (hi - lo + 1) := by rw [← Nat.pow_add, e]
  have p2 : 2 ^ 32 = 2 ^ (hi + 1) * 2 ^ (31 - hi) := by rw [← Nat.pow_add]; congr 1; omega
  have h1 : w.toNat % 2 ^ lo < 2 ^ lo := Nat.mod_lt _ (Nat.two_pow_pos _)
  have h2 : v % 2 ^ (hi - lo + 1) < 2 ^ (hi - lo + 1) := Nat.mod_lt _ (Nat.two_pow_pos _)
  have h3 : w.toNat / 2 ^ (hi + 1) < 2 ^ (31 - hi) := by
    apply Nat.div_lt_of_lt_mul; rw [← p2]; exact hw
  have h4 : (v % 2 ^ (hi - lo + 1)) * 2 ^ lo + 2 ^ lo ≤ 2 ^ (hi - lo + 1) * 2 ^ lo := by
    have := Nat.mul_le_mul_right (2 ^ lo) (Nat.succ_le_of_lt h2)
    rwa [Nat.succ_mul] at this
  have h5 : (w.toNat / 2 ^ (hi + 1)) * 2 ^ (hi + 1) + 2 ^ (hi + 1) ≤ 2 ^ (31 - hi) * 2 ^ (hi + 1) := by
    have := Nat.mul_le_mul_right (2 ^ (hi + 1)) (Nat.succ_le_of_lt h3)
    rwa [Nat.succ_mul] at this
  rw [p2, Nat.mul_comm (2 ^ (hi + 1))]
  rw [Nat.mul_comm (2 ^ (hi - lo + 1))] at h4
  omega

/-- A field reads what was written to it, modulo its width. -/
theorem bitsOf_setBits (w : Word) (hi lo v : Nat) (hl : lo ≤ hi) (hh : hi < 32) :
    bitsOf (setBits w hi lo v) hi lo = v % 2 ^ (hi - lo + 1) := by
  have e : lo + (hi - lo + 1) = hi + 1 := by omega
  have p1 : 2 ^ (hi + 1) = 2 ^ lo * 2 ^ (hi - lo + 1) := by rw [← Nat.pow_add, e]
  unfold bitsOf
  rw [toNat_setBits w hi lo v hl hh, p1]
  have h1 : w.toNat % 2 ^ lo < 2 ^ lo := Nat.mod_lt _ (Nat.two_pow_pos _)
  rw [show w.toNat % 2 ^ lo + v % 2 ^ (hi - lo + 1) * 2 ^ lo + w.toNat / (2 ^ lo * 2 ^ (hi - lo + 1)) * (2 ^ lo * 2 ^ (hi - lo + 1)) =
      w.toNat % 2 ^ lo + 2 ^ lo * (v % 2 ^ (hi - lo + 1) + w.toNat / (2 ^ lo * 2 ^ (hi - lo + 1)) * 2 ^ (hi - lo + 1)) by
    rw [Nat.mul_add]; ac_rfl]
  rw [Nat.add_mul_div_left _ _ (Nat.two_pow_pos _), Nat.div_eq_of_lt h1, Nat.zero_add, Nat.add_mul_mod_self_right, Nat.mod_mod]

/-- Bits outside a field are not changed by a write to it. -/
theorem testBit_setBits (w : Word) (hi lo v i : Nat) (hl : lo ≤ hi) (hh : hi < 32) (hi' : i < lo ∨ hi < i) :
    (setBits w hi lo v).toNat.testBit i = w.toNat.testBit i := by
  rw [toNat_setBits w hi lo v hl hh]
  have h1 : w.toNat % 2 ^ lo < 2 ^ lo := Nat.mod_lt _ (Nat.two_pow_pos _)
  have e : lo + (hi - lo + 1) = hi + 1 := by omega
  have p1 : 2 ^ (hi + 1) = 2 ^ lo * 2 ^ (hi - lo + 1) := by rw [← Nat.pow_add, e]
  have h2 : v % 2 ^ (hi - lo + 1) < 2 ^ (hi - lo + 1) := Nat.mod_lt _ (Nat.two_pow_pos _)
  have h3 : w.toNat % 2 ^ lo + v % 2 ^ (hi - lo + 1) * 2 ^ lo < 2 ^ (hi + 1) := by
    have := Nat.mul_le_mul_right (2 ^ lo) (Nat.succ_le_of_lt h2)
    rw [Nat.succ_mul] at this
    rw [p1, Nat.mul_comm (2 ^ lo)]; omega
  rcases hi' with h | h
  · rw [show w.toNat % 2 ^ lo + v % 2 ^ (hi - lo + 1) * 2 ^ lo + w.toNat / 2 ^ (hi + 1) * 2 ^ (hi + 1) =
        2 ^ lo * (v % 2 ^ (hi - lo + 1) + w.toNat / 2 ^ (hi + 1) * 2 ^ (hi - lo + 1)) + w.toNat % 2 ^ lo by
      rw [p1, Nat.mul_add]; ac_rfl]
    rw [Nat.testBit_two_pow_mul_add _ h1]
    simp [h, Nat.testBit_mod_two_pow]
  · rw [show w.toNat % 2 ^ lo + v % 2 ^ (hi - lo + 1) * 2 ^ lo + w.toNat / 2 ^ (hi + 1) * 2 ^ (hi + 1) =
        2 ^ (hi + 1) * (w.toNat / 2 ^ (hi + 1)) + (w.toNat % 2 ^ lo + v % 2 ^ (hi - lo + 1) * 2 ^ lo) by ac_rfl]
    rw [Nat.testBit_two_pow_mul_add _ h3]
    have : ¬ i < hi + 1 := by omega
    simp only [this, if_false, Nat.testBit_div_two_pow]
    congr 1; omega

/-- A bit of a field value is the register's bit. -/
theorem testBit_bitsOf (w : Word) (hi lo i : Nat) :
    (bitsOf w hi lo).testBit i = (decide (i < hi - lo + 1) && w.toNat.testBit (lo + i)) := by
  unfold bitsOf
  rw [Nat.testBit_mod_two_pow, Nat.testBit_div_two_pow, Nat.add_comm i lo]

/-- A field that shares no bit with the one written reads as before. -/
theorem bitsOf_setBits_other (w : Word) (hi lo v h l : Nat) (hl : lo ≤ hi) (hh : hi < 32) (ho : h < lo ∨ hi < l) (hlh : l ≤ h) :
    bitsOf (setBits w hi lo v) h l = bitsOf w h l := by
  apply Nat.eq_of_testBit_eq
  intro i
  simp only [testBit_bitsOf]
  by_cases hi' : i < h - l + 1
  · rw [testBit_setBits w hi lo v (l + i) hl hh (by omega)]
  · simp [hi']

theorem bitsOf_lt (w : Word) (hi lo : Nat) : bitsOf w hi lo < 2 ^ (hi - lo + 1) := Nat.mod_lt _ (Nat.two_pow_pos _)

theorem bitsOf_zero (hi lo : Nat) : bitsOf 0#32 hi lo = 0 := by simp [bitsOf]

/-! ### Registers -/

@[simp] theorem reg_setReg (s : State) (k j : Nat) (v : Word) : (s.setReg k v).reg j = if j = k then v else s.reg j := by
  simp [State.reg, State.setReg]

theorem reg_wr (s : State) (f : Fld) (v j : Nat) :
    (s.wr f v).reg j = if j = f.key then setBits (s.reg f.key) f.hi f.lo v else s.reg j := by
  simp [State.wr]

/-- A register without the field written keeps its value. -/
theorem reg_wr_other (s : State) (f : Fld) (v j : Nat) (h : j ≠ f.key) : (s.wr f v).reg j = s.reg j := by
  simp [reg_wr, h]

/-- A field reads what was written to it. -/
theorem rd_wr_self (s : State) (f : Fld) (v : Nat) (hl : f.lo ≤ f.hi) (hh : f.hi < 32) :
    (s.wr f v).rd f = v % 2 ^ (f.hi - f.lo + 1) := by
  simp only [State.rd, reg_wr, if_true]
  exact bitsOf_setBits _ _ _ _ hl hh

/-- A field of another register, or of other bits of the register, reads as before. -/
theorem rd_wr_other (s : State) (f g : Fld) (v : Nat) (hl : f.lo ≤ f.hi) (hh : f.hi < 32) (hg : g.lo ≤ g.hi)
    (h : g.key ≠ f.key ∨ g.hi < f.lo ∨ f.hi < g.lo) : (s.wr f v).rd g = s.rd g := by
  simp only [State.rd, reg_wr]
  by_cases hk : g.key = f.key
  · have h' : g.hi < f.lo ∨ f.hi < g.lo := h.resolve_left (fun hn => hn hk)
    rw [if_pos hk, ← hk]
    exact bitsOf_setBits_other _ _ _ _ _ _ hl hh h' hg
  · rw [if_neg hk]

theorem rd_setReg_other (s : State) (k : Nat) (v : Word) (g : Fld) (h : g.key ≠ k) : (s.setReg k v).rd g = s.rd g := by
  simp [State.rd, h]

theorem bit_setReg_other (s : State) (k : Nat) (v : Word) (g : Fld) (h : g.key ≠ k) : (s.setReg k v).bit g = s.bit g := by
  rw [State.bit, rd_setReg_other s k v g h]; rfl

theorem bit_wr_other (s : State) (f g : Fld) (v : Nat) (hl : f.lo ≤ f.hi) (hh : f.hi < 32) (hg : g.lo ≤ g.hi)
    (h : g.key ≠ f.key ∨ g.hi < f.lo ∨ f.hi < g.lo) : (s.wr f v).bit g = s.bit g := by
  simp only [State.bit, rd_wr_other s f g v hl hh hg h]

/-- A counter of 32 bits rises and stops at its greatest value (R11). -/
theorem reg_bumpN (s : State) (k n : Nat) : (s.bumpN k n).reg k = BitVec.ofNat 32 (satAdd 32 (s.reg k).toNat n) := by
  simp only [State.bumpN]
  split <;> simp [State.statAdd, State.statSet, State.reg, State.setReg]

theorem reg_bumpN_other (s : State) (k n j : Nat) (h : j ≠ k) : (s.bumpN k n).reg j = s.reg j := by
  simp only [State.bumpN]
  split <;> simp [State.statAdd, State.statSet, State.reg, State.setReg, h]

theorem rd_bump_other (s : State) (k : Nat) (g : Fld) (h : g.key ≠ k) : (s.bump k).rd g = s.rd g := by
  simp [State.rd, State.bump, reg_bumpN_other _ _ _ _ h]

/-- The banks of the set-up space stay canonical under a register write (R3). -/
theorem setReg_eff_wf (s : State) (k : Nat) (v : Word) (h : twf resetWord s.regs.eff = true) :
    twf resetWord (s.setReg k v).regs.eff = true := twf_tput _ _ _ _ h

theorem bit_eq_false (s : State) (f : Fld) : s.bit f = false ↔ s.rd f = 0 := by
  unfold State.bit
  rw [decide_eq_false_iff_not, Classical.not_not]

theorem bit_eq_true (s : State) (f : Fld) : s.bit f = true ↔ s.rd f ≠ 0 := by
  unfold State.bit
  rw [decide_eq_true_iff]

end Sys2Proof.Machine
end

