-- ==== Sys2Proof/Laws/Keep.lean ====
section
/-! SUPPORT. What an operation leaves alone. `Keep m s t`: going from `s` to `t`, the memories stay canonical (`State.Inv`), the queue
of commands is untouched, a recorder key once set stays as it is, and every unit whose bit of the mask `m` is clear is unchanged.

Bits of a mask: 0 regs, 1 flt, 2 boot, 3 commits, 4 vme, 5 vin, 6 drv, 7 ord, 8 fold, 9 net, 10 cad, 11 stat, 12 twin, 13 port, 14 ddr,
15 host, 16 recd, 17 pwr, 18 xbar, 19 svc, 20 tap, 21 cyc, 22 ticks, 23 out, 24 freeCtr. -/

namespace Sys2Proof.Machine

structure Keep (m : Nat) (s t : State) : Prop where
  inv : s.Inv → t.Inv
  queue : t.pending = s.pending
  key : s.boot.otpKeySet = true → t.boot.otpKeySet = true ∧ t.boot.otpKey = s.boot.otpKey
  regs : m.testBit 0 = false → t.regs = s.regs
  flt : m.testBit 1 = false → t.flt = s.flt
  boot : m.testBit 2 = false → t.boot = s.boot
  commits : m.testBit 3 = false → t.commits = s.commits
  vme : m.testBit 4 = false → t.vme = s.vme
  vin : m.testBit 5 = false → t.vin = s.vin
  drv : m.testBit 6 = false → t.drv = s.drv
  ord : m.testBit 7 = false → t.ord = s.ord
  fold : m.testBit 8 = false → t.fold = s.fold
  net : m.testBit 9 = false → t.net = s.net
  cad : m.testBit 10 = false → t.cad = s.cad
  stat : m.testBit 11 = false → t.stat = s.stat
  twin : m.testBit 12 = false → t.twin = s.twin
  port : m.testBit 13 = false → t.port = s.port
  ddr : m.testBit 14 = false → t.ddr = s.ddr
  host : m.testBit 15 = false → t.host = s.host
  recd : m.testBit 16 = false → t.recd = s.recd
  pwr : m.testBit 17 = false → t.pwr = s.pwr
  xbar : m.testBit 18 = false → t.xbar = s.xbar
  svc : m.testBit 19 = false → t.svc = s.svc
  tap : m.testBit 20 = false → t.tap = s.tap
  cyc : m.testBit 21 = false → t.cyc = s.cyc
  ticks : m.testBit 22 = false → t.ticks = s.ticks
  out : m.testBit 23 = false → t.out = s.out
  freeCtr : m.testBit 24 = false → t.freeCtr = s.freeCtr

variable {m F G : Nat} {s t : State}

/-- One mask lies within another. -/
def Within (F m : Nat) : Prop := F &&& m = F

theorem Within.refl (F : Nat) : Within F F := Nat.and_self F

theorem Within.trans (h : G &&& F = G) (hm : Within F m) : Within G m := by
  unfold Within at *
  rw [← h, Nat.and_assoc, hm]

theorem Within.bit (hm : Within F m) (i : Nat) (h : F.testBit i = true) : m.testBit i = true := by
  have := congrArg (fun n => n.testBit i) hm
  simpa [h] using this

theorem Keep.refl (m : Nat) (s : State) : Keep m s s := by
  constructor <;> simp_all

theorem Keep.trans {u : State} (h : Keep m s t) (k : Keep m t u) : Keep m s u where
  inv hi := k.inv (h.inv hi)
  queue := k.queue.trans h.queue
  key hk := ⟨(k.key (h.key hk).1).1, (k.key (h.key hk).1).2.trans (h.key hk).2⟩
  regs hm := (k.regs hm).trans (h.regs hm)
  flt hm := (k.flt hm).trans (h.flt hm)
  boot hm := (k.boot hm).trans (h.boot hm)
  commits hm := (k.commits hm).trans (h.commits hm)
  vme hm := (k.vme hm).trans (h.vme hm)
  vin hm := (k.vin hm).trans (h.vin hm)
  drv hm := (k.drv hm).trans (h.drv hm)
  ord hm := (k.ord hm).trans (h.ord hm)
  fold hm := (k.fold hm).trans (h.fold hm)
  net hm := (k.net hm).trans (h.net hm)
  cad hm := (k.cad hm).trans (h.cad hm)
  stat hm := (k.stat hm).trans (h.stat hm)
  twin hm := (k.twin hm).trans (h.twin hm)
  port hm := (k.port hm).trans (h.port hm)
  ddr hm := (k.ddr hm).trans (h.ddr hm)
  host hm := (k.host hm).trans (h.host hm)
  recd hm := (k.recd hm).trans (h.recd hm)
  pwr hm := (k.pwr hm).trans (h.pwr hm)
  xbar hm := (k.xbar hm).trans (h.xbar hm)
  svc hm := (k.svc hm).trans (h.svc hm)
  tap hm := (k.tap hm).trans (h.tap hm)
  cyc hm := (k.cyc hm).trans (h.cyc hm)
  ticks hm := (k.ticks hm).trans (h.ticks hm)
  out hm := (k.out hm).trans (h.out hm)
  freeCtr hm := (k.freeCtr hm).trans (h.freeCtr hm)

/-- Introduce an intermediate state with what is known of it. -/
theorem Keep.use {P : Prop} {x : State} (h : Keep m s x) (k : Keep m s x → P) : P := k h

/-! ### The two banks -/

theorem Regs.wf_left {r : Regs} (h : r.wf = true) : twf resetWord r.eff = true := by
  simp only [Regs.wf, Bool.and_eq_true] at h; exact h.1

theorem Regs.wf_right {r : Regs} (h : r.wf = true) : twf shadowReset r.shadow = true := by
  simp only [Regs.wf, Bool.and_eq_true] at h; exact h.2

theorem Regs.wf_mk {r : Regs} (h : twf resetWord r.eff = true) (k : twf shadowReset r.shadow = true) : r.wf = true := by
  simp only [Regs.wf, h, k, Bool.and_self]

/-! ### One unit changes -/

theorem Keep.setRegs (h : Keep m s t) (hm : m.testBit 0 = true) {x : Regs} (hx : t.regs.wf = true → x.wf = true) :
    Keep m s { t with regs := x } :=
  { h with inv := fun hi => ⟨hx (h.inv hi).1, (h.inv hi).2⟩, regs := fun c => by simp [hm] at c }

/-- A change of the registers' side tables, the two banks untouched. -/
theorem Keep.setRegs' (h : Keep m s t) (hm : m.testBit 0 = true) {x : Regs} (he : x.eff = t.regs.eff)
    (hs : x.shadow = t.regs.shadow) : Keep m s { t with regs := x } :=
  h.setRegs hm (fun w => Regs.wf_mk (he ▸ Regs.wf_left w) (hs ▸ Regs.wf_right w))

theorem Keep.setBoot (h : Keep m s t) (hm : m.testBit 2 = true) {x : BootUnit}
    (hx : t.boot.otpKeySet = true → x.otpKeySet = true ∧ x.otpKey = t.boot.otpKey) : Keep m s { t with boot := x } :=
  { h with key := fun hk => ⟨(hx (h.key hk).1).1, (hx (h.key hk).1).2.trans (h.key hk).2⟩, boot := fun c => by simp [hm] at c }

theorem Keep.setDdr (h : Keep m s t) (hm : m.testBit 14 = true) {x : DdrUnit}
    (hx : Memory.wf t.ddr.bytes = true → Memory.wf x.bytes = true) : Keep m s { t with ddr := x } :=
  { h with inv := fun hi => ⟨(h.inv hi).1, hx (h.inv hi).2.1, (h.inv hi).2.2⟩, ddr := fun c => by simp [hm] at c }

theorem Keep.setRecd (h : Keep m s t) (hm : m.testBit 16 = true) {x : RecUnit}
    (hx : Memory.wf t.recd.mram = true → Memory.wf x.mram = true) : Keep m s { t with recd := x } :=
  { h with inv := fun hi => ⟨(h.inv hi).1, (h.inv hi).2.1, hx (h.inv hi).2.2⟩, recd := fun c => by simp [hm] at c }

theorem Keep.setFlt (h : Keep m s t) (hm : m.testBit 1 = true) {x : FaultUnit} : Keep m s { t with flt := x } :=
  { h with flt := fun c => by simp [hm] at c }

theorem Keep.setCommits (h : Keep m s t) (hm : m.testBit 3 = true) {x : List CommitWait} : Keep m s { t with commits := x } :=
  { h with commits := fun c => by simp [hm] at c }

theorem Keep.setVme (h : Keep m s t) (hm : m.testBit 4 = true) {x : VmeBus} : Keep m s { t with vme := x } :=
  { h with vme := fun c => by simp [hm] at c }

theorem Keep.setVin (h : Keep m s t) (hm : m.testBit 5 = true) {x : VmeIn} : Keep m s { t with vin := x } :=
  { h with vin := fun c => by simp [hm] at c }

theorem Keep.setDrv (h : Keep m s t) (hm : m.testBit 6 = true) {x : DrvUnit} : Keep m s { t with drv := x } :=
  { h with drv := fun c => by simp [hm] at c }

theorem Keep.setOrd (h : Keep m s t) (hm : m.testBit 7 = true) {x : OrdUnit} : Keep m s { t with ord := x } :=
  { h with ord := fun c => by simp [hm] at c }

theorem Keep.setFold (h : Keep m s t) (hm : m.testBit 8 = true) {x : FoldUnit} : Keep m s { t with fold := x } :=
  { h with fold := fun c => by simp [hm] at c }

theorem Keep.setNet (h : Keep m s t) (hm : m.testBit 9 = true) {x : NetUnit} : Keep m s { t with net := x } :=
  { h with net := fun c => by simp [hm] at c }

theorem Keep.setCad (h : Keep m s t) (hm : m.testBit 10 = true) {x : CadUnit} : Keep m s { t with cad := x } :=
  { h with cad := fun c => by simp [hm] at c }

theorem Keep.setStat (h : Keep m s t) (hm : m.testBit 11 = true) {x : StatUnit} : Keep m s { t with stat := x } :=
  { h with stat := fun c => by simp [hm] at c }

theorem Keep.setTwin (h : Keep m s t) (hm : m.testBit 12 = true) {x : TwinUnit} : Keep m s { t with twin := x } :=
  { h with twin := fun c => by simp [hm] at c }

theorem Keep.setPort (h : Keep m s t) (hm : m.testBit 13 = true) {x : PortUnit} : Keep m s { t with port := x } :=
  { h with port := fun c => by simp [hm] at c }

theorem Keep.setHost (h : Keep m s t) (hm : m.testBit 15 = true) {x : HostUnit} : Keep m s { t with host := x } :=
  { h with host := fun c => by simp [hm] at c }

theorem Keep.setPwr (h : Keep m s t) (hm : m.testBit 17 = true) {x : PwrUnit} : Keep m s { t with pwr := x } :=
  { h with pwr := fun c => by simp [hm] at c }

theorem Keep.setXbar (h : Keep m s t) (hm : m.testBit 18 = true) {x : XbarUnit} : Keep m s { t with xbar := x } :=
  { h with xbar := fun c => by simp [hm] at c }

theorem Keep.setSvc (h : Keep m s t) (hm : m.testBit 19 = true) {x : SvcUnit} : Keep m s { t with svc := x } :=
  { h with svc := fun c => by simp [hm] at c }

theorem Keep.setTap (h : Keep m s t) (hm : m.testBit 20 = true) {x : TapUnit} : Keep m s { t with tap := x } :=
  { h with tap := fun c => by simp [hm] at c }

theorem Keep.setCyc (h : Keep m s t) (hm : m.testBit 21 = true) {x : Nat} : Keep m s { t with cyc := x } :=
  { h with cyc := fun c => by simp [hm] at c }

theorem Keep.setTicks (h : Keep m s t) (hm : m.testBit 22 = true) {x : Nat} : Keep m s { t with ticks := x } :=
  { h with ticks := fun c => by simp [hm] at c }

theorem Keep.setOut (h : Keep m s t) (hm : m.testBit 23 = true) {x : List Out} : Keep m s { t with out := x } :=
  { h with out := fun c => by simp [hm] at c }

theorem Keep.setFreeCtr (h : Keep m s t) (hm : m.testBit 24 = true) {x : Nat} : Keep m s { t with freeCtr := x } :=
  { h with freeCtr := fun c => by simp [hm] at c }

/-- With every bit set only the invariant, the queue and the recorder key are at stake. -/
theorem Keep.all (hm : Within 33554431 m) {u : State} (h : Keep m s t) (hi : t.Inv → u.Inv) (hq : u.pending = t.pending)
    (hk : t.boot.otpKeySet = true → u.boot.otpKeySet = true ∧ u.boot.otpKey = t.boot.otpKey) : Keep m s u where
  inv c := hi (h.inv c)
  queue := hq.trans h.queue
  key c := ⟨(hk (h.key c).1).1, (hk (h.key c).1).2.trans (h.key c).2⟩
  regs c := by simp [hm.bit 0 rfl] at c
  flt c := by simp [hm.bit 1 rfl] at c
  boot c := by simp [hm.bit 2 rfl] at c
  commits c := by simp [hm.bit 3 rfl] at c
  vme c := by simp [hm.bit 4 rfl] at c
  vin c := by simp [hm.bit 5 rfl] at c
  drv c := by simp [hm.bit 6 rfl] at c
  ord c := by simp [hm.bit 7 rfl] at c
  fold c := by simp [hm.bit 8 rfl] at c
  net c := by simp [hm.bit 9 rfl] at c
  cad c := by simp [hm.bit 10 rfl] at c
  stat c := by simp [hm.bit 11 rfl] at c
  twin c := by simp [hm.bit 12 rfl] at c
  port c := by simp [hm.bit 13 rfl] at c
  ddr c := by simp [hm.bit 14 rfl] at c
  host c := by simp [hm.bit 15 rfl] at c
  recd c := by simp [hm.bit 16 rfl] at c
  pwr c := by simp [hm.bit 17 rfl] at c
  xbar c := by simp [hm.bit 18 rfl] at c
  svc c := by simp [hm.bit 19 rfl] at c
  tap c := by simp [hm.bit 20 rfl] at c
  cyc c := by simp [hm.bit 21 rfl] at c
  ticks c := by simp [hm.bit 22 rfl] at c
  out c := by simp [hm.bit 23 rfl] at c
  freeCtr c := by simp [hm.bit 24 rfl] at c

theorem Keep.ite {c : Prop} [Decidable c] {u : State} (h : Keep m s t) (k : Keep m s u) : Keep m s (if c then t else u) := by
  split
  · exact h
  · exact k

/-! ### Repeating -/

/-- A fold over a list of steps each of which keeps. -/
theorem Keep.foldl {α : Type} {f : State → α → State} (hf : ∀ x a, Keep m s x → Keep m s (f x a)) (l : List α) (h : Keep m s t) :
    Keep m s (l.foldl f t) := by
  induction l generalizing t with
  | nil => exact h
  | cons a l ih => exact ih (hf t a h)

theorem Keep.foldl2 {α β : Type} {f : β × State → α → β × State} (hf : ∀ x a, Keep m s x.2 → Keep m s (f x a).2) (l : List α)
    {p : β × State} (h : Keep m s p.2) : Keep m s (l.foldl f p).2 := by
  induction l generalizing p with
  | nil => exact h
  | cons a l ih => exact ih (hf p a h)

theorem Keep.foldl1 {α β : Type} {f : State × β → α → State × β} (hf : ∀ x a, Keep m s x.1 → Keep m s (f x a).1) (l : List α)
    {p : State × β} (h : Keep m s p.1) : Keep m s (l.foldl f p).1 := by
  induction l generalizing p with
  | nil => exact h
  | cons a l ih => exact ih (hf p a h)

end Sys2Proof.Machine
end

