-- ==== Sys2Proof/Laws/KeepOps.lean ====
section
/-! SUPPORT. What each operation of Ops, LinkOps, NetOps, TwinOps leaves alone and keeps: its footprint as a mask of units, and that it keeps
the memories canonical, the queue of commands and a recorder key once set (see Laws/Keep.lean). -/

namespace Sys2Proof.Machine

set_option maxRecDepth 4000

theorem State.setReg_keep {m : Nat} {s₀ : State} {s : State} {k : Nat} {v : Word} (hm : Within 1 m) (h : Keep m s₀ s) :
    Keep m s₀ (State.setReg s k v) := by
  exact Keep.setRegs h (hm.bit 0 rfl) (fun hx => Regs.wf_mk (r := Regs.mk _ _ _ _ _) (twf_tput _ _ _ _ (Regs.wf_left (r := s.regs) hx)) (Regs.wf_right (r := s.regs) hx))

theorem State.wr_keep {m : Nat} {s₀ : State} {s : State} {f : Fld} {v : Nat} (hm : Within 1 m) (h : Keep m s₀ s) :
    Keep m s₀ (State.wr s f v) := by
  unfold State.wr
  iterate 60 try any_goals first
    | with_reducible assumption
    | with_reducible refine State.setReg_keep (Within.trans rfl hm) ?_

theorem State.wrB_keep {m : Nat} {s₀ : State} {s : State} {f : Fld} {b : Bool} (hm : Within 1 m) (h : Keep m s₀ s) :
    Keep m s₀ (State.wrB s f b) := by
  unfold State.wrB
  iterate 60 try any_goals first
    | with_reducible assumption
    | with_reducible refine State.wr_keep (Within.trans rfl hm) ?_

theorem State.setShd_keep {m : Nat} {s₀ : State} {s : State} {k : Nat} {v : Word} (hm : Within 1 m) (h : Keep m s₀ s) :
    Keep m s₀ (State.setShd s k v) := by
  exact Keep.setRegs h (hm.bit 0 rfl) (fun hx => Regs.wf_mk (r := Regs.mk _ _ _ _ _) (Regs.wf_left (r := s.regs) hx) (twf_tput _ _ _ _ (Regs.wf_right (r := s.regs) hx)))

theorem State.peak_keep {m : Nat} {s₀ : State} {s : State} {f : Fld} {v : Nat} (hm : Within 1 m) (h : Keep m s₀ s) :
    Keep m s₀ (State.peak s f v) := by
  unfold State.peak
  iterate 60 try any_goals first
    | with_reducible assumption
    | with_reducible refine State.wr_keep (Within.trans rfl hm) ?_
    | with_reducible refine Keep.ite ?_ ?_

theorem State.statSet_keep {m : Nat} {s₀ : State} {s : State} {off : Nat} {v : Nat} (hm : Within 2048 m) (h : Keep m s₀ s) :
    Keep m s₀ (State.statSet s off v) := by
  unfold State.statSet
  iterate 60 try any_goals first
    | with_reducible assumption
    | with_reducible refine Keep.setStat ?_ (hm.bit 11 rfl)

theorem State.statAdd_keep {m : Nat} {s₀ : State} {s : State} {off : Nat} {n : Nat} (hm : Within 2048 m) (h : Keep m s₀ s) :
    Keep m s₀ (State.statAdd s off n) := by
  unfold State.statAdd
  iterate 60 try any_goals first
    | with_reducible assumption
    | with_reducible refine State.statSet_keep (Within.trans rfl hm) ?_

theorem State.bumpN_keep {m : Nat} {s₀ : State} {s : State} {k : Nat} {n : Nat} (hm : Within 2049 m) (h : Keep m s₀ s) :
    Keep m s₀ (State.bumpN s k n) := by
  unfold State.bumpN
  iterate 60 try any_goals first
    | with_reducible assumption
    | with_reducible refine State.setReg_keep (Within.trans rfl hm) ?_
    | with_reducible refine State.statAdd_keep (Within.trans rfl hm) ?_
    | with_reducible refine Keep.ite ?_ ?_

theorem State.bump_keep {m : Nat} {s₀ : State} {s : State} {k : Nat} (hm : Within 2049 m) (h : Keep m s₀ s) :
    Keep m s₀ (State.bump s k) := by
  unfold State.bump
  iterate 60 try any_goals first
    | with_reducible assumption
    | with_reducible refine State.bumpN_keep (Within.trans rfl hm) ?_

theorem State.bumpF_keep {m : Nat} {s₀ : State} {s : State} {f : Fld} {n : Nat} (hm : Within 1 m) (h : Keep m s₀ s) :
    Keep m s₀ (State.bumpF s f n) := by
  unfold State.bumpF
  iterate 60 try any_goals first
    | with_reducible assumption
    | with_reducible refine State.wr_keep (Within.trans rfl hm) ?_

theorem State.emit_keep {m : Nat} {s₀ : State} {s : State} {o : Out} (hm : Within 8388608 m) (h : Keep m s₀ s) :
    Keep m s₀ (State.emit s o) := by
  unfold State.emit
  iterate 60 try any_goals first
    | with_reducible assumption
    | with_reducible refine Keep.setOut ?_ (hm.bit 23 rfl)

theorem State.free_keep {m : Nat} {s₀ : State} {w : Nat} {s : State} (hm : Within 16777216 m) (h : Keep m s₀ s) :
    Keep m s₀ (State.free w s).2 := by
  unfold State.free
  iterate 60 try any_goals first
    | with_reducible assumption
    | with_reducible refine Keep.setFreeCtr ?_ (hm.bit 24 rfl)

theorem State.freeBytes_keep {m : Nat} {s₀ : State} {a0 : Nat} {a1 : State} (hm : Within 16777216 m) (h : Keep m s₀ a1) :
    Keep m s₀ (State.freeBytes a0 a1).2 := by
  induction a0 generalizing a1 with
  | zero => unfold State.freeBytes; first | exact h | (split <;> exact h)
  | succ n ih =>
    unfold State.freeBytes
    iterate 60 try any_goals first
      | with_reducible assumption
      | with_reducible refine ih ?_
      | with_reducible refine State.free_keep (Within.trans rfl hm) ?_

theorem State.after_keep {m : Nat} {s₀ : State} {α : Type} {r : α × State} (hm : Within 0 m) (h : Keep m s₀ r.2) :
    Keep m s₀ (State.after (α := α) r) := by
  unfold State.after
  iterate 60 try any_goals first
    | with_reducible assumption
    | with_reducible refine Keep.ite ?_ ?_

theorem whenUp_keep {m : Nat} {s₀ : State} {p0 : Part} {f : State → State} {s : State} (hm : Within 0 m) (h : ∀ x, Keep m s₀ x → Keep m s₀ (f x)) (h1 : Keep m s₀ s) :
    Keep m s₀ (whenUp p0 f s) := by
  unfold whenUp
  iterate 60 try any_goals first
    | with_reducible assumption
    | with_reducible refine h _ ?_
    | with_reducible refine Keep.ite ?_ ?_

theorem State.stageStep_keep {m : Nat} {s₀ : State} {s : State} (hm : Within 1 m) (h : Keep m s₀ s) :
    Keep m s₀ (State.stageStep s) := by
  unfold State.stageStep
  iterate 60 try any_goals first
    | with_reducible assumption
    | with_reducible refine State.wr_keep (Within.trans rfl hm) ?_
    | with_reducible refine Keep.ite ?_ ?_

theorem State.capture_keep {m : Nat} {s₀ : State} {s : State} {code : Nat} {c : CapInfo} (hm : Within 1 m) (h : Keep m s₀ s) :
    Keep m s₀ (State.capture s code c) := by
  unfold State.capture
  iterate 60 try any_goals first
    | with_reducible assumption
    | with_reducible refine State.bumpF_keep (Within.trans rfl hm) ?_
    | with_reducible refine State.wr_keep (Within.trans rfl hm) ?_
    | with_reducible refine State.setReg_keep (Within.trans rfl hm) ?_
    | with_reducible refine Keep.ite ?_ ?_

theorem State.raise_keep {m : Nat} {s₀ : State} {s : State} {code : Nat} {src : Nat} {ps : List Nat} (hm : Within 2 m) (h : Keep m s₀ s) :
    Keep m s₀ (State.raise s code src ps) := by
  unfold State.raise
  iterate 60 try any_goals first
    | with_reducible assumption
    | with_reducible refine Keep.setFlt ?_ (hm.bit 1 rfl)

theorem State.raiseCap_keep {m : Nat} {s₀ : State} {s : State} {code : Nat} {src : Nat} {ps : List Nat} {c : CapInfo} (hm : Within 3 m) (h : Keep m s₀ s) :
    Keep m s₀ (State.raiseCap s code src ps c) := by
  unfold State.raiseCap
  iterate 60 try any_goals first
    | with_reducible assumption
    | with_reducible refine State.raise_keep (Within.trans rfl hm) ?_
    | with_reducible refine State.capture_keep (Within.trans rfl hm) ?_

theorem State.injTake_keep {m : Nat} {s₀ : State} {s : State} {areas : List Nat} {named : Nat → Bool} (hm : Within 3 m) (h : Keep m s₀ s) :
    Keep m s₀ (State.injTake s areas named).2 := by
  unfold State.injTake
  iterate 60 try any_goals first
    | with_reducible assumption
    | with_reducible refine State.wr_keep (Within.trans rfl hm) ?_
    | split
    | with_reducible refine Keep.setFlt ?_ (hm.bit 1 rfl)

theorem State.injTake_keep' {m : Nat} {s₀ : State} {s : State} {areas : List Nat} {named : Nat → Bool} {p : Option (Nat × Nat × Bool) × State} (e : State.injTake s areas named = p) (hm : Within 3 m) (h : Keep m s₀ s) :
    Keep m s₀ p.2 :=
  e ▸ State.injTake_keep hm h

theorem State.sramFault_keep {m : Nat} {s₀ : State} {s : State} {area : Nat} {index : Nat} {dbl : Bool} (hm : Within 2 m) (h : Keep m s₀ s) :
    Keep m s₀ (State.sramFault s area index dbl) := by
  unfold State.sramFault
  iterate 60 try any_goals first
    | with_reducible assumption
    | with_reducible refine State.raise_keep (Within.trans rfl hm) ?_

theorem State.setLink_keep {m : Nat} {s₀ : State} {s : State} {k : Nat} {x : Link} (hm : Within 512 m) (h : Keep m s₀ s) :
    Keep m s₀ (State.setLink s k x) := by
  unfold State.setLink
  iterate 60 try any_goals first
    | with_reducible assumption
    | with_reducible refine Keep.setNet ?_ (hm.bit 9 rfl)

theorem State.setLane_keep {m : Nat} {s₀ : State} {s : State} {l : Nat} {x : Lane} (hm : Within 512 m) (h : Keep m s₀ s) :
    Keep m s₀ (State.setLane s l x) := by
  unfold State.setLane
  iterate 60 try any_goals first
    | with_reducible assumption
    | with_reducible refine Keep.setNet ?_ (hm.bit 9 rfl)

theorem State.emitFrame_keep {m : Nat} {s₀ : State} {s : State} {k : Nat} {f : Frame} (hm : Within 8389120 m) (h : Keep m s₀ s) :
    Keep m s₀ (State.emitFrame s k f) := by
  unfold State.emitFrame
  iterate 60 try any_goals first
    | with_reducible assumption
    | with_reducible refine State.emit_keep (Within.trans rfl hm) ?_
    | with_reducible refine State.setLink_keep (Within.trans rfl hm) ?_
    | split

theorem State.sendFrame_keep {m : Nat} {s₀ : State} {s : State} {k : Nat} {kind : Nat} {seq : Nat} {ackseq : Nat} {body : List Byte} {bad : Bool} (hm : Within 8389120 m) (h : Keep m s₀ s) :
    Keep m s₀ (State.sendFrame s k kind seq ackseq body bad) := by
  unfold State.sendFrame
  iterate 60 try any_goals first
    | with_reducible assumption
    | with_reducible refine State.setLink_keep (Within.trans rfl hm) ?_
    | with_reducible refine State.emitFrame_keep (Within.trans rfl hm) ?_
    | with_reducible refine Keep.ite ?_ ?_
    | (intro hx)
    | split

theorem State.takeInject_keep {m : Nat} {s₀ : State} {s : State} {k : Nat} (hm : Within 512 m) (h : Keep m s₀ s) :
    Keep m s₀ (State.takeInject s k).2 := by
  unfold State.takeInject
  iterate 60 try any_goals first
    | with_reducible assumption
    | with_reducible refine State.setLane_keep (Within.trans rfl hm) ?_
    | split

theorem State.sendSeq_keep {m : Nat} {s₀ : State} {s : State} {k : Nat} {seq : Nat} {p0 : Packet} (hm : Within 8389120 m) (h : Keep m s₀ s) :
    Keep m s₀ (State.sendSeq s k seq p0) := by
  unfold State.sendSeq
  iterate 60 try any_goals first
    | with_reducible assumption
    | with_reducible refine State.takeInject_keep (Within.trans rfl hm) ?_
    | with_reducible refine State.sendFrame_keep (Within.trans rfl hm) ?_

theorem State.sendData_keep {m : Nat} {s₀ : State} {s : State} {k : Nat} {p0 : Packet} (hm : Within 8389121 m) (h : Keep m s₀ s) :
    Keep m s₀ (State.sendData s k p0) := by
  unfold State.sendData
  iterate 60 try any_goals first
    | with_reducible assumption
    | with_reducible refine State.setLink_keep (Within.trans rfl hm) ?_
    | with_reducible refine State.wr_keep (Within.trans rfl hm) ?_
    | with_reducible refine State.sendSeq_keep (Within.trans rfl hm) ?_

theorem State.freeUnits_keep {m : Nat} {s₀ : State} {s : State} {k : Nat} {pool : Nat} {units : Nat} (hm : Within 512 m) (h : Keep m s₀ s) :
    Keep m s₀ (State.freeUnits s k pool units) := by
  unfold State.freeUnits
  iterate 60 try any_goals first
    | with_reducible assumption
    | with_reducible refine State.setLink_keep (Within.trans rfl hm) ?_

theorem State.pump_keep {m : Nat} {s₀ : State} {a0 : Nat} {a1 : Nat} {a2 : State} (hm : Within 8389121 m) (h : Keep m s₀ a2) :
    Keep m s₀ (State.pump a0 a1 a2) := by
  induction a0 generalizing a1 a2 with
  | zero => unfold State.pump; first | exact h | (split <;> exact h)
  | succ n ih =>
    unfold State.pump
    iterate 60 try any_goals first
      | with_reducible assumption
      | with_reducible refine ih ?_
      | with_reducible refine State.setLink_keep (Within.trans rfl hm) ?_
      | with_reducible refine State.freeUnits_keep (Within.trans rfl hm) ?_
      | with_reducible refine State.sendData_keep (Within.trans rfl hm) ?_
      | split

theorem State.pumpLink_keep {m : Nat} {s₀ : State} {s : State} {k : Nat} (hm : Within 8389121 m) (h : Keep m s₀ s) :
    Keep m s₀ (State.pumpLink s k) := by
  unfold State.pumpLink
  iterate 60 try any_goals first
    | with_reducible assumption
    | with_reducible refine State.pump_keep (Within.trans rfl hm) ?_

theorem State.enqueueFrom_keep {m : Nat} {s₀ : State} {s : State} {k : Nat} {p0 : Packet} {pass : Bool} {from_ : Option Nat} (hm : Within 8389121 m) (h : Keep m s₀ s) :
    Keep m s₀ (State.enqueueFrom s k p0 pass from_) := by
  unfold State.enqueueFrom
  iterate 60 try any_goals first
    | with_reducible assumption
    | with_reducible refine State.pumpLink_keep (Within.trans rfl hm) ?_
    | with_reducible refine State.setLink_keep (Within.trans rfl hm) ?_

theorem State.enqueue_keep {m : Nat} {s₀ : State} {s : State} {k : Nat} {p0 : Packet} {pass : Bool} (hm : Within 8389121 m) (h : Keep m s₀ s) :
    Keep m s₀ (State.enqueue s k p0 pass) := by
  unfold State.enqueue
  iterate 60 try any_goals first
    | with_reducible assumption
    | with_reducible refine State.enqueueFrom_keep (Within.trans rfl hm) ?_

theorem State.replayFrom_keep {m : Nat} {s₀ : State} {s : State} {k : Nat} {seq : Nat} (hm : Within 8391169 m) (h : Keep m s₀ s) :
    Keep m s₀ (State.replayFrom s k seq) := by
  unfold State.replayFrom
  iterate 60 try any_goals first
    | with_reducible assumption
    | with_reducible refine State.setLink_keep (Within.trans rfl hm) ?_
    | with_reducible refine State.bumpN_keep (Within.trans rfl hm) ?_
    | with_reducible refine State.sendSeq_keep (Within.trans rfl hm) ?_
    | with_reducible refine State.pumpLink_keep (Within.trans rfl hm) ?_
    | with_reducible refine Keep.foldl (fun x a hx => ?_) _ ?_

theorem State.takeAck_keep {m : Nat} {s₀ : State} {s : State} {k : Nat} {f : Frame} (hm : Within 513 m) (h : Keep m s₀ s) :
    Keep m s₀ (State.takeAck s k f) := by
  unfold State.takeAck
  iterate 60 try any_goals first
    | with_reducible assumption
    | with_reducible refine State.wr_keep (Within.trans rfl hm) ?_
    | with_reducible refine State.setLink_keep (Within.trans rfl hm) ?_
    | with_reducible refine Keep.ite ?_ ?_
    | (intro hx)
    | split

theorem State.takeHeader_keep {m : Nat} {s₀ : State} {s : State} {k : Nat} {f : Frame} (hm : Within 8389121 m) (h : Keep m s₀ s) :
    Keep m s₀ (State.takeHeader s k f) := by
  unfold State.takeHeader
  iterate 60 try any_goals first
    | with_reducible assumption
    | with_reducible refine State.pumpLink_keep (Within.trans rfl hm) ?_
    | with_reducible refine State.takeAck_keep (Within.trans rfl hm) ?_
    | split

theorem State.sendLane_keep {m : Nat} {s₀ : State} {s : State} {k : Nat} (hm : Within 8389120 m) (h : Keep m s₀ s) :
    Keep m s₀ (State.sendLane s k) := by
  unfold State.sendLane
  iterate 60 try any_goals first
    | with_reducible assumption
    | with_reducible refine State.sendFrame_keep (Within.trans rfl hm) ?_

theorem State.openLane_keep {m : Nat} {s₀ : State} {s : State} {k : Nat} (hm : Within 8389120 m) (h : Keep m s₀ s) :
    Keep m s₀ (State.openLane s k) := by
  unfold State.openLane
  iterate 60 try any_goals first
    | with_reducible assumption
    | with_reducible refine State.setLink_keep (Within.trans rfl hm) ?_
    | with_reducible refine State.sendLane_keep (Within.trans rfl hm) ?_
    | split

theorem State.sendMarkers_keep {m : Nat} {s₀ : State} {s : State} {k : Nat} (hm : Within 8389120 m) (h : Keep m s₀ s) :
    Keep m s₀ (State.sendMarkers s k) := by
  unfold State.sendMarkers
  iterate 60 try any_goals first
    | with_reducible assumption
    | with_reducible refine State.emit_keep (Within.trans rfl hm) ?_
    | with_reducible refine State.setLink_keep (Within.trans rfl hm) ?_
    | with_reducible refine Keep.foldl (fun x a hx => ?_) _ ?_
    | with_reducible refine Keep.ite ?_ ?_
    | (intro hx)
    | split

theorem State.linkTick_keep {m : Nat} {s₀ : State} {s : State} (hm : Within 8389120 m) (h : Keep m s₀ s) :
    Keep m s₀ (State.linkTick s) := by
  unfold State.linkTick
  iterate 60 try any_goals first
    | with_reducible assumption
    | with_reducible refine State.sendLane_keep (Within.trans rfl hm) ?_
    | with_reducible refine State.sendMarkers_keep (Within.trans rfl hm) ?_
    | with_reducible refine Keep.foldl (fun x a hx => ?_) _ ?_
    | with_reducible refine Keep.ite ?_ ?_
    | (intro hx)
    | split

theorem State.originRefuse_keep {m : Nat} {s₀ : State} {s : State} {code : Nat} {op : Nat} {addr : Nat} {len : Nat} {agent : Nat} {cls : Nat} {host : Bool} (hm : Within 3 m) (h : Keep m s₀ s) :
    Keep m s₀ (State.originRefuse s code op addr len agent cls host) := by
  unfold State.originRefuse
  iterate 60 try any_goals first
    | with_reducible assumption
    | with_reducible refine State.raiseCap_keep (Within.trans rfl hm) ?_
    | with_reducible refine Keep.ite ?_ ?_

theorem State.setNode_keep {m : Nat} {s₀ : State} {s : State} {n : Nat} {r : NodeRec} (hm : Within 512 m) (h : Keep m s₀ s) :
    Keep m s₀ (State.setNode s n r) := by
  unfold State.setNode
  iterate 60 try any_goals first
    | with_reducible assumption
    | with_reducible refine Keep.setNet ?_ (hm.bit 9 rfl)

theorem State.setTag_keep {m : Nat} {s₀ : State} {s : State} {t : Nat} {r : Option TagRec} (hm : Within 512 m) (h : Keep m s₀ s) :
    Keep m s₀ (State.setTag s t r) := by
  unfold State.setTag
  iterate 60 try any_goals first
    | with_reducible assumption
    | with_reducible refine Keep.setNet ?_ (hm.bit 9 rfl)

theorem State.rxPush_keep {m : Nat} {s₀ : State} {s : State} {side : Nat} {p0 : Packet} (hm : Within 512 m) (h : Keep m s₀ s) :
    Keep m s₀ (State.rxPush s side p0) := by
  unfold State.rxPush
  iterate 60 try any_goals first
    | with_reducible assumption
    | with_reducible refine Keep.setNet ?_ (hm.bit 9 rfl)

theorem State.takenPush_keep {m : Nat} {s₀ : State} {s : State} {q : Nat} {p0 : Packet} (hm : Within 512 m) (h : Keep m s₀ s) :
    Keep m s₀ (State.takenPush s q p0) := by
  unfold State.takenPush
  iterate 60 try any_goals first
    | with_reducible assumption
    | with_reducible refine Keep.setNet ?_ (hm.bit 9 rfl)

theorem State.sendRingFrom_keep {m : Nat} {s₀ : State} {s : State} {ring : Nat} {p0 : Packet} {pass : Bool} {from_ : Option Nat} (hm : Within 8389121 m) (h : Keep m s₀ s) :
    Keep m s₀ (State.sendRingFrom s ring p0 pass from_) := by
  unfold State.sendRingFrom
  iterate 60 try any_goals first
    | with_reducible assumption
    | with_reducible refine State.rxPush_keep (Within.trans rfl hm) ?_
    | with_reducible refine State.enqueueFrom_keep (Within.trans rfl hm) ?_
    | with_reducible refine Keep.ite ?_ ?_

theorem State.sendRing_keep {m : Nat} {s₀ : State} {s : State} {ring : Nat} {p0 : Packet} {pass : Bool} (hm : Within 8389121 m) (h : Keep m s₀ s) :
    Keep m s₀ (State.sendRing s ring p0 pass) := by
  unfold State.sendRing
  iterate 60 try any_goals first
    | with_reducible assumption
    | with_reducible refine State.sendRingFrom_keep (Within.trans rfl hm) ?_

theorem State.injectAs_keep {m : Nat} {s₀ : State} {s : State} {p : Packet} {both : Bool} (hm : Within 8391169 m) (h : Keep m s₀ s) :
    Keep m s₀ (State.injectAs s p both) := by
  unfold State.injectAs
  iterate 60 try any_goals first
    | with_reducible assumption
    | with_reducible refine State.bump_keep (Within.trans rfl hm) ?_
    | with_reducible refine State.sendRing_keep (Within.trans rfl hm) ?_
    | with_reducible refine Keep.ite ?_ ?_
    | (intro hx)
    | split

theorem State.inject_keep {m : Nat} {s₀ : State} {s : State} {p : Packet} (hm : Within 8391169 m) (h : Keep m s₀ s) :
    Keep m s₀ (State.inject s p) := by
  unfold State.inject
  iterate 60 try any_goals first
    | with_reducible assumption
    | with_reducible refine State.injectAs_keep (Within.trans rfl hm) ?_
    | split

theorem State.injectAnswer_keep {m : Nat} {s₀ : State} {s : State} {src : Nat} {tag : Nat} {p : Packet} (hm : Within 8391169 m) (h : Keep m s₀ s) :
    Keep m s₀ (State.injectAnswer s src tag p) := by
  unfold State.injectAnswer
  iterate 60 try any_goals first
    | with_reducible assumption
    | with_reducible refine State.injectAs_keep (Within.trans rfl hm) ?_
    | split
    | with_reducible refine Keep.setNet ?_ (hm.bit 9 rfl)

theorem State.injectOn_keep {m : Nat} {s₀ : State} {s : State} {ring : Nat} {p0 : Packet} (hm : Within 8391169 m) (h : Keep m s₀ s) :
    Keep m s₀ (State.injectOn s ring p0) := by
  unfold State.injectOn
  iterate 60 try any_goals first
    | with_reducible assumption
    | with_reducible refine State.sendRing_keep (Within.trans rfl hm) ?_
    | with_reducible refine State.bump_keep (Within.trans rfl hm) ?_

theorem State.setDrover_keep {m : Nat} {s₀ : State} {s : State} {d : Nat} {x : Drover} (hm : Within 64 m) (h : Keep m s₀ s) :
    Keep m s₀ (State.setDrover s d x) := by
  unfold State.setDrover
  iterate 60 try any_goals first
    | with_reducible assumption
    | with_reducible refine Keep.setDrv ?_ (hm.bit 6 rfl)

theorem State.noteTag_keep {m : Nat} {s₀ : State} {s : State} {o : TagOwner} {t : Nat} (hm : Within 64 m) (h : Keep m s₀ s) :
    Keep m s₀ (State.noteTag s o t) := by
  unfold State.noteTag
  iterate 60 try any_goals first
    | with_reducible assumption
    | with_reducible refine State.setDrover_keep (Within.trans rfl hm) ?_
    | with_reducible refine Keep.ite ?_ ?_
    | (intro hx)
    | split

theorem State.sendTagged_keep {m : Nat} {s₀ : State} {s : State} {p0 : Packet} {r : TagRec} {p : (Nat × State)} (e : State.sendTagged s p0 r = some p) (hm : Within 8391233 m) (h : Keep m s₀ s) :
    Keep m s₀ p.2 := by
  unfold State.sendTagged at e
  split at e
  · cases e
  · extract_lets s1 p1 dup s2 s3 at e
    have h1 : Keep m s₀ s1 := Keep.setNet h (hm.bit 9 rfl)
    have h3 : Keep m s₀ s3 :=
      State.wr_keep (Within.trans rfl hm) (State.noteTag_keep (Within.trans rfl hm) (State.setTag_keep (Within.trans rfl hm) h1))
    clear_value s3
    cases e
    dsimp only
    split
    · exact State.takenPush_keep (Within.trans rfl hm) (State.injectOn_keep (Within.trans rfl hm) h3)
    · split
      · exact State.takenPush_keep (Within.trans rfl hm) h3
      · exact State.inject_keep (Within.trans rfl hm) h3

theorem State.issueRec_keep {m : Nat} {s₀ : State} {s : State} {p0 : Packet} {r : TagRec} (hm : Within 8391235 m) (h : Keep m s₀ s) :
    Keep m s₀ (State.issueRec s p0 r).st := by
  unfold State.issueRec
  iterate 60 try any_goals first
    | with_reducible assumption
    | with_reducible refine State.bump_keep (Within.trans rfl hm) ?_
    | with_reducible refine State.raise_keep (Within.trans rfl hm) ?_
    | (have hx := State.sendTagged_keep (by with_reducible assumption) (Within.trans rfl hm) (by with_reducible assumption); with_reducible exact hx)
    | split
    | with_reducible refine Keep.setNet ?_ (hm.bit 9 rfl)

theorem State.issue_keep {m : Nat} {s₀ : State} {s : State} {p0 : Packet} {len : Nat} {o : TagOwner} (hm : Within 8391235 m) (h : Keep m s₀ s) :
    Keep m s₀ (State.issue s p0 len o).st := by
  unfold State.issue
  iterate 60 try any_goals first
    | with_reducible assumption
    | with_reducible refine State.issueRec_keep (Within.trans rfl hm) ?_

theorem State.pumpTags_keep {m : Nat} {s₀ : State} {a0 : Nat} {a1 : State} (hm : Within 8391233 m) (h : Keep m s₀ a1) :
    Keep m s₀ (State.pumpTags a0 a1) := by
  induction a0 generalizing a1 with
  | zero => unfold State.pumpTags; exact h
  | succ n ih =>
    unfold State.pumpTags
    split
    · exact h
    · split
      · exact h
      · split
        · next e => exact ih (State.sendTagged_keep e (Within.trans rfl hm) (Keep.setNet h (hm.bit 9 rfl)))
        · exact h

theorem State.freeTag_keep {m : Nat} {s₀ : State} {s : State} {t : Nat} (hm : Within 8391233 m) (h : Keep m s₀ s) :
    Keep m s₀ (State.freeTag s t) := by
  unfold State.freeTag
  iterate 60 try any_goals first
    | with_reducible assumption
    | with_reducible refine State.setTag_keep (Within.trans rfl hm) ?_
    | with_reducible refine State.pumpTags_keep (Within.trans rfl hm) ?_
    | with_reducible refine Keep.setNet ?_ (hm.bit 9 rfl)

theorem State.respond_keep {m : Nat} {s₀ : State} {s : State} {req : Packet} {status : Nat} {bytesDone : Nat} {payload : List Byte} (hm : Within 8391169 m) (h : Keep m s₀ s) :
    Keep m s₀ (State.respond s req status bytesDone payload) := by
  unfold State.respond
  iterate 60 try any_goals first
    | with_reducible assumption
    | with_reducible refine State.takenPush_keep (Within.trans rfl hm) ?_
    | with_reducible refine State.injectAnswer_keep (Within.trans rfl hm) ?_
    | with_reducible refine Keep.ite ?_ ?_
    | (intro hx)
    | split

theorem State.sendMgmt_keep {m : Nat} {s₀ : State} {s : State} {mtype : Nat} {id : Nat} {hops : Nat} {side : Nat} {mcap : Bool} {payload : List Byte} (hm : Within 8391169 m) (h : Keep m s₀ s) :
    Keep m s₀ (State.sendMgmt s mtype id hops side mcap payload) := by
  unfold State.sendMgmt
  iterate 60 try any_goals first
    | with_reducible assumption
    | with_reducible refine State.injectOn_keep (Within.trans rfl hm) ?_

theorem State.sendJoin_keep {m : Nat} {s₀ : State} {s : State} (hm : Within 8391169 m) (h : Keep m s₀ s) :
    Keep m s₀ (State.sendJoin s) := by
  unfold State.sendJoin
  iterate 60 try any_goals first
    | with_reducible assumption
    | with_reducible refine State.sendMgmt_keep (Within.trans rfl hm) ?_
    | with_reducible refine Keep.setNet ?_ (hm.bit 9 rfl)

theorem State.startRebuild_keep {m : Nat} {s₀ : State} {s : State} (hm : Within 8391169 m) (h : Keep m s₀ s) :
    Keep m s₀ (State.startRebuild s) := by
  unfold State.startRebuild
  iterate 60 try any_goals first
    | with_reducible assumption
    | with_reducible refine State.setNode_keep (Within.trans rfl hm) ?_
    | with_reducible refine State.sendJoin_keep (Within.trans rfl hm) ?_
    | with_reducible refine State.wr_keep (Within.trans rfl hm) ?_
    | with_reducible refine Keep.foldl (fun x a hx => ?_) _ ?_

theorem State.setWrapRec_keep {m : Nat} {s₀ : State} {s : State} {side : Nat} {w : WrapRec} (hm : Within 512 m) (h : Keep m s₀ s) :
    Keep m s₀ (State.setWrapRec s side w) := by
  unfold State.setWrapRec
  iterate 60 try any_goals first
    | with_reducible assumption
    | with_reducible refine Keep.setNet ?_ (hm.bit 9 rfl)

theorem State.heldLost_keep {m : Nat} {s₀ : State} {s : State} {side : Nat} (hm : Within 2051 m) (h : Keep m s₀ s) :
    Keep m s₀ (State.heldLost s side) := by
  unfold State.heldLost
  iterate 60 try any_goals first
    | with_reducible assumption
    | with_reducible refine State.bumpN_keep (Within.trans rfl hm) ?_
    | with_reducible refine State.raise_keep (Within.trans rfl hm) ?_
    | with_reducible refine Keep.ite ?_ ?_
    | (intro hx)
    | split

theorem State.wrapSide_keep {m : Nat} {s₀ : State} {s : State} {side : Nat} {held : List (Nat × Packet)} {nextSeq : Nat} (hm : Within 8391171 m) (h : Keep m s₀ s) :
    Keep m s₀ (State.wrapSide s side held nextSeq) := by
  unfold State.wrapSide
  iterate 60 try any_goals first
    | with_reducible assumption
    | with_reducible refine State.wr_keep (Within.trans rfl hm) ?_
    | with_reducible refine State.bump_keep (Within.trans rfl hm) ?_
    | with_reducible refine State.raise_keep (Within.trans rfl hm) ?_
    | with_reducible refine State.setLink_keep (Within.trans rfl hm) ?_
    | with_reducible refine State.sendRingFrom_keep (Within.trans rfl hm) ?_
    | with_reducible refine State.sendMgmt_keep (Within.trans rfl hm) ?_
    | with_reducible refine State.startRebuild_keep (Within.trans rfl hm) ?_
    | with_reducible refine State.setWrapRec_keep (Within.trans rfl hm) ?_
    | with_reducible refine State.heldLost_keep (Within.trans rfl hm) ?_
    | with_reducible refine Keep.foldl (fun x a hx => ?_) _ ?_
    | with_reducible refine Keep.ite ?_ ?_
    | (intro hx)
    | split

theorem State.unwrapSide_keep {m : Nat} {s₀ : State} {s : State} {side : Nat} (hm : Within 8391169 m) (h : Keep m s₀ s) :
    Keep m s₀ (State.unwrapSide s side) := by
  unfold State.unwrapSide
  iterate 60 try any_goals first
    | with_reducible assumption
    | with_reducible refine State.sendMgmt_keep (Within.trans rfl hm) ?_
    | with_reducible refine State.wr_keep (Within.trans rfl hm) ?_
    | with_reducible refine State.setWrapRec_keep (Within.trans rfl hm) ?_
    | with_reducible refine State.startRebuild_keep (Within.trans rfl hm) ?_
    | with_reducible refine Keep.ite ?_ ?_

theorem State.sendMirror_keep {m : Nat} {s₀ : State} {s : State} {p0 : Packet} (hm : Within 8391169 m) (h : Keep m s₀ s) :
    Keep m s₀ (State.sendMirror s p0) := by
  unfold State.sendMirror
  iterate 60 try any_goals first
    | with_reducible assumption
    | with_reducible refine State.enqueue_keep (Within.trans rfl hm) ?_
    | with_reducible refine State.injectOn_keep (Within.trans rfl hm) ?_
    | with_reducible refine Keep.ite ?_ ?_

theorem State.drainMirror_keep {m : Nat} {s₀ : State} {a0 : Nat} {a1 : State} (hm : Within 8395265 m) (h : Keep m s₀ a1) :
    Keep m s₀ (State.drainMirror a0 a1) := by
  induction a0 generalizing a1 with
  | zero => unfold State.drainMirror; first | exact h | (split <;> exact h)
  | succ n ih =>
    unfold State.drainMirror
    iterate 60 try any_goals first
      | with_reducible assumption
      | with_reducible refine ih ?_
      | with_reducible refine State.wr_keep (Within.trans rfl hm) ?_
      | with_reducible refine State.sendMirror_keep (Within.trans rfl hm) ?_
      | split
      | with_reducible refine Keep.setTwin ?_ (hm.bit 12 rfl)

theorem State.queueRec_keep {m : Nat} {s₀ : State} {s : State} {r : MirrorRec} (hm : Within 4097 m) (h : Keep m s₀ s) :
    Keep m s₀ (State.queueRec s r) := by
  unfold State.queueRec
  iterate 60 try any_goals first
    | with_reducible assumption
    | with_reducible refine State.peak_keep (Within.trans rfl hm) ?_
    | with_reducible refine State.wr_keep (Within.trans rfl hm) ?_
    | with_reducible refine Keep.setTwin ?_ (hm.bit 12 rfl)

theorem State.fillMirror_keep {m : Nat} {s₀ : State} {a0 : Nat} {a1 : State} (hm : Within 4097 m) (h : Keep m s₀ a1) :
    Keep m s₀ (State.fillMirror a0 a1) := by
  induction a0 generalizing a1 with
  | zero => unfold State.fillMirror; first | exact h | (split <;> exact h)
  | succ n ih =>
    unfold State.fillMirror
    iterate 60 try any_goals first
      | with_reducible assumption
      | with_reducible refine ih ?_
      | with_reducible refine State.queueRec_keep (Within.trans rfl hm) ?_
      | split
      | with_reducible refine Keep.setTwin ?_ (hm.bit 12 rfl)

theorem State.pumpMirror_keep {m : Nat} {s₀ : State} {s : State} (hm : Within 8395265 m) (h : Keep m s₀ s) :
    Keep m s₀ (State.pumpMirror s) := by
  unfold State.pumpMirror
  iterate 60 try any_goals first
    | with_reducible assumption
    | with_reducible refine State.drainMirror_keep (Within.trans rfl hm) ?_
    | with_reducible refine State.fillMirror_keep (Within.trans rfl hm) ?_

theorem State.mirror_keep {m : Nat} {s₀ : State} {s : State} {rtype : Nat} {payload : List Byte} (hm : Within 8395265 m) (h : Keep m s₀ s) :
    Keep m s₀ (State.mirror s rtype payload) := by
  unfold State.mirror
  iterate 60 try any_goals first
    | with_reducible assumption
    | with_reducible refine State.queueRec_keep (Within.trans rfl hm) ?_
    | with_reducible refine State.drainMirror_keep (Within.trans rfl hm) ?_
    | with_reducible refine State.bump_keep (Within.trans rfl hm) ?_
    | with_reducible refine Keep.ite ?_ ?_
    | with_reducible refine Keep.setTwin ?_ (hm.bit 12 rfl)

theorem State.mirrorReg_keep {m : Nat} {s₀ : State} {s : State} {cat : Nat} {off : Nat} {v : Word} (hm : Within 8395265 m) (h : Keep m s₀ s) :
    Keep m s₀ (State.mirrorReg s cat off v) := by
  unfold State.mirrorReg
  iterate 60 try any_goals first
    | with_reducible assumption
    | with_reducible refine State.mirror_keep (Within.trans rfl hm) ?_
    | with_reducible refine Keep.ite ?_ ?_

end Sys2Proof.Machine
end

