-- ==== Sys2Proof/Laws/KeepFolds.lean ====
section
/-! SUPPORT. What each operation of FoldOps, DdrOps, PortOps leaves alone and keeps: its footprint as a mask of units, and that it keeps
the memories canonical, the queue of commands and a recorder key once set (see Laws/Keep.lean). -/

namespace Sys2Proof.Machine

set_option maxRecDepth 4000

theorem State.setFold_keep {m : Nat} {s₀ : State} {s : State} {f : Nat} {x : Fold} (hm : Within 256 m) (h : Keep m s₀ s) :
    Keep m s₀ (State.setFold s f x) := by
  unfold State.setFold
  iterate 60 try any_goals first
    | with_reducible assumption
    | with_reducible refine Keep.setFold ?_ (hm.bit 8 rfl)

theorem State.loadDrover_keep {m : Nat} {s₀ : State} {s : State} {d : Nat} (hm : Within 64 m) (h : Keep m s₀ s) :
    Keep m s₀ (State.loadDrover s d) := by
  unfold State.loadDrover
  iterate 60 try any_goals first
    | with_reducible assumption
    | with_reducible refine State.setDrover_keep (Within.trans rfl hm) ?_
    | split

theorem State.takeCells_keep {m : Nat} {s₀ : State} {s : State} {f : Nat} {n : Nat} (hm : Within 2305 m) (h : Keep m s₀ s) :
    Keep m s₀ (State.takeCells s f n) := by
  unfold State.takeCells
  iterate 60 try any_goals first
    | with_reducible assumption
    | with_reducible refine State.setFold_keep (Within.trans rfl hm) ?_
    | with_reducible refine State.peak_keep (Within.trans rfl hm) ?_
    | with_reducible refine State.statSet_keep (Within.trans rfl hm) ?_
    | with_reducible refine Keep.ite ?_ ?_
    | with_reducible refine Keep.setFold ?_ (hm.bit 8 rfl)

theorem State.giveCells_keep {m : Nat} {s₀ : State} {s : State} {f : Nat} {n : Nat} (hm : Within 256 m) (h : Keep m s₀ s) :
    Keep m s₀ (State.giveCells s f n) := by
  unfold State.giveCells
  iterate 60 try any_goals first
    | with_reducible assumption
    | with_reducible refine State.setFold_keep (Within.trans rfl hm) ?_
    | with_reducible refine Keep.setFold ?_ (hm.bit 8 rfl)

theorem State.dropExec_keep {m : Nat} {s₀ : State} {s : State} {d : Nat} (hm : Within 320 m) (h : Keep m s₀ s) :
    Keep m s₀ (State.dropExec s d) := by
  unfold State.dropExec
  iterate 60 try any_goals first
    | with_reducible assumption
    | with_reducible refine State.setDrover_keep (Within.trans rfl hm) ?_
    | with_reducible refine State.giveCells_keep (Within.trans rfl hm) ?_
    | split

theorem State.level_keep {m : Nat} {s₀ : State} {s : State} {f : Nat} {old : Nat} {new : Nat} {popped : Bool} (hm : Within 257 m) (h : Keep m s₀ s) :
    Keep m s₀ (State.level s f old new popped).1 := by
  unfold State.level
  iterate 60 try any_goals first
    | with_reducible assumption
    | with_reducible refine State.wr_keep (Within.trans rfl hm) ?_
    | with_reducible refine State.peak_keep (Within.trans rfl hm) ?_
    | with_reducible refine State.setFold_keep (Within.trans rfl hm) ?_
    | with_reducible refine Keep.ite ?_ ?_

theorem State.setStile_keep {m : Nat} {s₀ : State} {s : State} {n : Nat} {x : Stile} (hm : Within 64 m) (h : Keep m s₀ s) :
    Keep m s₀ (State.setStile s n x) := by
  unfold State.setStile
  iterate 60 try any_goals first
    | with_reducible assumption
    | with_reducible refine Keep.setDrv ?_ (hm.bit 6 rfl)

theorem State.setConfirm_keep {m : Nat} {s₀ : State} {s : State} {k : Nat} {c : Confirm} (hm : Within 128 m) (h : Keep m s₀ s) :
    Keep m s₀ (State.setConfirm s k c) := by
  unfold State.setConfirm
  iterate 60 try any_goals first
    | with_reducible assumption
    | with_reducible refine Keep.setOrd ?_ (hm.bit 7 rfl)

theorem State.markStile_keep {m : Nat} {s₀ : State} {s : State} {t : Task} {completed : Bool} (hm : Within 64 m) (h : Keep m s₀ s) :
    Keep m s₀ (State.markStile s t completed) := by
  unfold State.markStile
  iterate 60 try any_goals first
    | with_reducible assumption
    | with_reducible refine State.setStile_keep (Within.trans rfl hm) ?_
    | with_reducible refine Keep.ite ?_ ?_

theorem State.endTask_keep {m : Nat} {s₀ : State} {s : State} {d : Nat} {status : Nat} {bytesDone : Nat} {payload : List Byte} (hm : Within 64 m) (h : Keep m s₀ s) :
    Keep m s₀ (State.endTask s d status bytesDone payload) := by
  unfold State.endTask
  iterate 60 try any_goals first
    | with_reducible assumption
    | with_reducible refine State.markStile_keep (Within.trans rfl hm) ?_
    | with_reducible refine State.setDrover_keep (Within.trans rfl hm) ?_
    | split

theorem State.finishDone_keep {m : Nat} {s₀ : State} {s : State} {k : Nat} (hm : Within 192 m) (h : Keep m s₀ s) :
    Keep m s₀ (State.finishDone s k) := by
  unfold State.finishDone
  iterate 60 try any_goals first
    | with_reducible assumption
    | with_reducible refine State.setConfirm_keep (Within.trans rfl hm) ?_
    | with_reducible refine State.endTask_keep (Within.trans rfl hm) ?_
    | with_reducible refine Keep.foldl (fun x a hx => ?_) _ ?_
    | split

theorem State.awaitStore_keep {m : Nat} {s₀ : State} {s : State} {who : Nat} (hm : Within 128 m) (h : Keep m s₀ s) :
    Keep m s₀ (State.awaitStore s who) := by
  unfold State.awaitStore
  iterate 60 try any_goals first
    | with_reducible assumption
    | with_reducible refine State.setConfirm_keep (Within.trans rfl hm) ?_
    | with_reducible refine Keep.ite ?_ ?_

theorem State.confirm_keep {m : Nat} {s₀ : State} {s : State} {ok : Bool} {who : Nat} (hm : Within 192 m) (h : Keep m s₀ s) :
    Keep m s₀ (State.confirm s ok who) := by
  unfold State.confirm
  iterate 60 try any_goals first
    | with_reducible assumption
    | with_reducible refine State.setConfirm_keep (Within.trans rfl hm) ?_
    | with_reducible refine State.finishDone_keep (Within.trans rfl hm) ?_
    | with_reducible refine Keep.ite ?_ ?_

theorem State.confirmAll_keep {m : Nat} {s₀ : State} {s : State} {ok : Bool} {whos : List Nat} (hm : Within 192 m) (h : Keep m s₀ s) :
    Keep m s₀ (State.confirmAll s ok whos) := by
  unfold State.confirmAll
  iterate 60 try any_goals first
    | with_reducible assumption
    | with_reducible refine State.confirm_keep (Within.trans rfl hm) ?_
    | with_reducible refine Keep.foldl (fun x a hx => ?_) _ ?_

theorem State.storeFailed_keep {m : Nat} {s₀ : State} {s : State} {node : Nat} {agent : Nat} (hm : Within 128 m) (h : Keep m s₀ s) :
    Keep m s₀ (State.storeFailed s node agent) := by
  unfold State.storeFailed
  iterate 60 try any_goals first
    | with_reducible assumption
    | with_reducible refine State.setConfirm_keep (Within.trans rfl hm) ?_

theorem State.emptyFold_keep {m : Nat} {s₀ : State} {s : State} {f : Nat} {flush : Bool} (hm : Within 449 m) (h : Keep m s₀ s) :
    Keep m s₀ (State.emptyFold s f flush).1 := by
  unfold State.emptyFold
  extract_lets x old held s1 v s2 s3 u s4
  have h1 : Keep m s₀ s1 := State.confirmAll_keep (Within.trans rfl hm) h
  have h2 : Keep m s₀ s2 := Keep.ite (State.setDrover_keep (Within.trans rfl hm) h1) h1
  have h3 : Keep m s₀ s3 := State.setFold_keep (Within.trans rfl hm) h2
  exact State.level_keep (Within.trans rfl hm) (Keep.setFold h3 (hm.bit 8 rfl))

theorem State.pointerCheck_keep {m : Nat} {s₀ : State} {s : State} {f : Nat} (hm : Within 2499 m) (h : Keep m s₀ s) :
    Keep m s₀ (State.pointerCheck s f).2.1 := by
  unfold State.pointerCheck
  iterate 60 try any_goals first
    | with_reducible assumption
    | with_reducible refine State.bumpN_keep (Within.trans rfl hm) ?_
    | with_reducible refine State.bump_keep (Within.trans rfl hm) ?_
    | with_reducible refine State.bumpF_keep (Within.trans rfl hm) ?_
    | with_reducible refine State.raise_keep (Within.trans rfl hm) ?_
    | with_reducible refine State.emptyFold_keep (Within.trans rfl hm) ?_
    | split
    | with_reducible refine Keep.setFold ?_ (hm.bit 8 rfl)

theorem State.placeCheck_keep {m : Nat} {s₀ : State} {s : State} (hm : Within 66 m) (h : Keep m s₀ s) :
    Keep m s₀ (State.placeCheck s) := by
  unfold State.placeCheck
  iterate 60 try any_goals first
    | with_reducible assumption
    | with_reducible refine State.raise_keep (Within.trans rfl hm) ?_
    | with_reducible refine Keep.foldl (fun x a hx => ?_) _ ?_
    | with_reducible refine Keep.ite ?_ ?_
    | with_reducible refine Keep.setDrv ?_ (hm.bit 6 rfl)

theorem State.putTask_keep {m : Nat} {s₀ : State} {s : State} {d : Nat} {t : Task} (hm : Within 2499 m) (h : Keep m s₀ s) :
    Keep m s₀ (State.putTask s d t).1 := by
  unfold State.putTask
  iterate 60 try any_goals first
    | with_reducible assumption
    | with_reducible refine State.setDrover_keep (Within.trans rfl hm) ?_
    | with_reducible refine State.takeCells_keep (Within.trans rfl hm) ?_
    | with_reducible refine State.level_keep (Within.trans rfl hm) ?_
    | with_reducible refine State.pointerCheck_keep (Within.trans rfl hm) ?_
    | split

theorem State.pullTask_keep {m : Nat} {s₀ : State} {s : State} {d : Nat} {t : Task} {n : Nat} (hm : Within 321 m) (h : Keep m s₀ s) :
    Keep m s₀ (State.pullTask s d t n).1 := by
  unfold State.pullTask
  iterate 60 try any_goals first
    | with_reducible assumption
    | with_reducible refine State.setDrover_keep (Within.trans rfl hm) ?_
    | with_reducible refine State.giveCells_keep (Within.trans rfl hm) ?_
    | with_reducible refine State.level_keep (Within.trans rfl hm) ?_
    | split

theorem State.popTask_keep {m : Nat} {s₀ : State} {s : State} {d : Nat} (hm : Within 2499 m) (h : Keep m s₀ s) :
    Keep m s₀ (State.popTask s d).2.1 := by
  unfold State.popTask
  iterate 60 try any_goals first
    | with_reducible assumption
    | with_reducible refine State.pointerCheck_keep (Within.trans rfl hm) ?_
    | with_reducible refine State.pullTask_keep (Within.trans rfl hm) ?_
    | (extract_lets +onlyGivenNames y; revert y; intro _)
    | split

theorem State.popTask_keep' {m : Nat} {s₀ : State} {s : State} {d : Nat} {p : Option Task × State × List FieldEvent}
    (e : State.popTask s d = p) (hm : Within 2499 m) (h : Keep m s₀ s) : Keep m s₀ p.2.1 :=
  e ▸ State.popTask_keep hm h

theorem State.landTask_keep {m : Nat} {s₀ : State} {s : State} {d : Nat} {t : Task} {why : Nat} (hm : Within 16779715 m) (h : Keep m s₀ s) :
    Keep m s₀ (State.landTask s d t why).1 := by
  unfold State.landTask
  extract_lets c age
  have h1 : Keep m s₀ c.2 := by
    unfold c
    split
    · exact h
    · exact State.free_keep (Within.trans rfl hm) h
  exact State.putTask_keep (Within.trans rfl hm) (Keep.setDrv h1 (hm.bit 6 rfl))

theorem State.place_keep {m : Nat} {s₀ : State} {s : State} {t : Task} {p : (State × List FieldEvent)} (e : State.place s t = some p) (hm : Within 16779715 m) (h : Keep m s₀ s) :
    Keep m s₀ p.1 := by
  unfold State.place at e
  extract_lets s1 at e
  have h1 : Keep m s₀ s1 := State.placeCheck_keep (Within.trans rfl hm) h
  clear_value s1
  split at e
  · split at e
    · cases e
      exact State.landTask_keep (Within.trans rfl hm) h1
    · cases e
  · split at e
    · cases e
    · cases e
      exact State.landTask_keep (Within.trans rfl hm) (Keep.setDrv h1 (hm.bit 6 rfl))

theorem State.enterStile_keep {m : Nat} {s₀ : State} {s : State} {t : Task} {wish : StileWish} {p : (State × Task)} (e : State.enterStile s t wish = some p) (hm : Within 65 m) (h : Keep m s₀ s) :
    Keep m s₀ p.1 := by
  unfold State.enterStile at e
  extract_lets stream n? src s1 at e
  clear_value n?
  split at e
  · cases e
  · next n =>
    extract_lets x fresh seq e1 x1 s2 k s3 at e
    have h2 : Keep m s₀ s2 := State.setStile_keep (Within.trans rfl hm) (Keep.setDrv h (hm.bit 6 rfl))
    have h3 : Keep m s₀ s3 := by
      unfold s3
      split
      · exact State.peak_keep (Within.trans rfl hm) (State.wr_keep (Within.trans rfl hm) h2)
      · exact h2
    split at e
    · cases e
    · cases e
      exact h3

theorem State.waitTask_keep {m : Nat} {s₀ : State} {s : State} {t : Task} {stile : Bool} (hm : Within 2113 m) (h : Keep m s₀ s) :
    Keep m s₀ (State.waitTask s t stile) := by
  unfold State.waitTask
  iterate 60 try any_goals first
    | with_reducible assumption
    | with_reducible refine State.bump_keep (Within.trans rfl hm) ?_
    | with_reducible refine Keep.ite ?_ ?_
    | with_reducible refine Keep.setDrv ?_ (hm.bit 6 rfl)

theorem State.createStep_keep {m : Nat} {s₀ : State} {s : State} {t : Task} (hm : Within 16779715 m) (h : Keep m s₀ s) :
    Keep m s₀ (State.createStep s t).1 := by
  unfold State.createStep
  extract_lets t1 ahead
  clear_value t1 ahead
  split
  · exact State.waitTask_keep (Within.trans rfl hm) h
  · split
    · exact State.waitTask_keep (Within.trans rfl hm) h
    · next s1 t2 e =>
      have h1 : Keep m s₀ s1 := by
        split at e
        · exact State.enterStile_keep e (Within.trans rfl hm) h
        · cases e; exact h
      split
      · next r e2 => exact State.place_keep e2 (Within.trans rfl hm) h1
      · exact State.waitTask_keep (Within.trans rfl hm) (State.placeCheck_keep (Within.trans rfl hm) h1)

theorem State.placeAgain_keep {m : Nat} {s₀ : State} {s : State} {t : Task} (hm : Within 16779715 m) (h : Keep m s₀ s) :
    Keep m s₀ (State.placeAgain s t).1 := by
  unfold State.placeAgain
  iterate 60 try any_goals first
    | with_reducible assumption
    | with_reducible refine State.placeCheck_keep (Within.trans rfl hm) ?_
    | (have hx := State.place_keep (by with_reducible assumption) (Within.trans rfl hm) (by with_reducible assumption); with_reducible exact hx)
    | with_reducible refine State.waitTask_keep (Within.trans rfl hm) ?_
    | split

theorem State.setSource_keep {m : Nat} {s₀ : State} {s : State} {k : Nat} {m0 : Option SrcMsg} (hm : Within 64 m) (h : Keep m s₀ s) :
    Keep m s₀ (State.setSource s k m0) := by
  unfold State.setSource
  iterate 60 try any_goals first
    | with_reducible assumption
    | with_reducible refine Keep.setDrv ?_ (hm.bit 6 rfl)

theorem State.eventStep_keep {m : Nat} {s₀ : State} {s : State} {e0 : FieldEvent} (hm : Within 16779715 m) (h : Keep m s₀ s) :
    Keep m s₀ (State.eventStep s e0).1 := by
  unfold State.eventStep
  iterate 60 try any_goals first
    | with_reducible assumption
    | with_reducible refine State.setSource_keep (Within.trans rfl hm) ?_
    | with_reducible refine State.createStep_keep (Within.trans rfl hm) ?_
    | (extract_lets +onlyGivenNames y; revert y; intro _)
    | split

theorem State.fire_keep {m : Nat} {s₀ : State} {a0 : Nat} {a1 : List FieldEvent} {a2 : State} (hm : Within 16779715 m) (h : Keep m s₀ a2) :
    Keep m s₀ (State.fire a0 a1 a2) := by
  induction a0 generalizing a1 a2 with
  | zero => unfold State.fire; exact h
  | succ n ih =>
    cases a1 with
    | nil => unfold State.fire; exact h
    | cons e es =>
      unfold State.fire
      exact ih (State.eventStep_keep (Within.trans rfl hm) h)

theorem State.events_keep {m : Nat} {s₀ : State} {r : State × List FieldEvent} (hm : Within 16779715 m) (h : Keep m s₀ r.1) :
    Keep m s₀ (State.events r) := by
  unfold State.events
  iterate 60 try any_goals first
    | with_reducible assumption
    | with_reducible refine State.fire_keep (Within.trans rfl hm) ?_

theorem State.create_keep {m : Nat} {s₀ : State} {s : State} {t : Task} (hm : Within 16779715 m) (h : Keep m s₀ s) :
    Keep m s₀ (State.create s t) := by
  unfold State.create
  iterate 60 try any_goals first
    | with_reducible assumption
    | with_reducible refine State.events_keep (Within.trans rfl hm) ?_
    | with_reducible refine State.createStep_keep (Within.trans rfl hm) ?_

theorem State.event_keep {m : Nat} {s₀ : State} {s : State} {kind : Nat} {item : Nat} {route : Nat} (hm : Within 16779715 m) (h : Keep m s₀ s) :
    Keep m s₀ (State.event s kind item route) := by
  unfold State.event
  iterate 60 try any_goals first
    | with_reducible assumption
    | with_reducible refine State.fire_keep (Within.trans rfl hm) ?_

theorem State.appendChain_keep {m : Nat} {s₀ : State} {s : State} {f : Nat} {h0 : Nat} (hm : Within 8395521 m) (h : Keep m s₀ s) :
    Keep m s₀ (State.appendChain s f h0).1 := by
  unfold State.appendChain
  iterate 60 try any_goals first
    | with_reducible assumption
    | with_reducible refine State.mirror_keep (Within.trans rfl hm) ?_
    | with_reducible refine State.setFold_keep (Within.trans rfl hm) ?_
    | with_reducible refine State.level_keep (Within.trans rfl hm) ?_
    | with_reducible refine Keep.foldl (fun x a hx => ?_) _ ?_
    | with_reducible refine Keep.ite ?_ ?_
    | (intro hx)
    | split

theorem State.poolBits_keep {m : Nat} {s₀ : State} {s : State} (hm : Within 16777219 m) (h : Keep m s₀ s) :
    Keep m s₀ (State.poolBits s).2 := by
  unfold State.poolBits
  iterate 60 try any_goals first
    | with_reducible assumption
    | with_reducible refine State.free_keep (Within.trans rfl hm) ?_
    | with_reducible refine State.injTake_keep (Within.trans rfl hm) ?_
    | split

theorem State.pushWord_keep {m : Nat} {s₀ : State} {s : State} {f : Nat} {h0 : Nat} {who : Nat} {yields : Bool} {w : BitVec 64} {tag : Byte} {p : (State × List FieldEvent)} (e : State.pushWord s f h0 who yields w tag = some p) (hm : Within 25172931 m) (h : Keep m s₀ s) :
    Keep m s₀ p.1 := by
  unfold State.pushWord at e
  extract_lets chk s1 x c ee s2 s3 needs s4 bits s5 x1 s6 r at e
  have h1 : Keep m s₀ s1 := State.pointerCheck_keep (Within.trans rfl hm) h
  have h4 : Keep m s₀ s4 := by
    unfold s4
    split
    · exact State.takeCells_keep (Within.trans rfl hm) h1
    · exact h1
  have h5 : Keep m s₀ s5 := State.poolBits_keep (Within.trans rfl hm) h4
  have h6 : Keep m s₀ s6 := State.setFold_keep (Within.trans rfl hm) h5
  have hr : Keep m s₀ r.1 := State.appendChain_keep (Within.trans rfl hm) h6
  have h3 : Keep m s₀ s3 := State.confirm_keep (Within.trans rfl hm) (State.setFold_keep (Within.trans rfl hm) h1)
  clear_value r s6 s3 needs
  split at e
  · cases e
    dsimp only
    exact State.bumpN_keep (Within.trans rfl hm) h3
  · split at e
    · cases e
    · split at e
      · cases e
        exact hr
      · cases e
        exact h6

theorem State.popWord_keep {m : Nat} {s₀ : State} {s : State} {f : Nat} (hm : Within 2499 m) (h : Keep m s₀ s) :
    Keep m s₀ (State.popWord s f).2.1 := by
  unfold State.popWord
  iterate 60 try any_goals first
    | with_reducible assumption
    | with_reducible refine State.pointerCheck_keep (Within.trans rfl hm) ?_
    | with_reducible refine State.setFold_keep (Within.trans rfl hm) ?_
    | with_reducible refine State.giveCells_keep (Within.trans rfl hm) ?_
    | with_reducible refine State.sramFault_keep (Within.trans rfl hm) ?_
    | with_reducible refine State.level_keep (Within.trans rfl hm) ?_
    | (extract_lets +onlyGivenNames y; revert y; intro _)
    | split

theorem State.popWord_keep' {m : Nat} {s₀ : State} {s : State} {f : Nat} {p : Option FWord × State × List FieldEvent} (e : State.popWord s f = p) (hm : Within 2499 m) (h : Keep m s₀ s) :
    Keep m s₀ p.2.1 :=
  e ▸ State.popWord_keep hm h

theorem State.popWords_keep {m : Nat} {s₀ : State} {a0 : Nat} {a1 : Bool} {a2 : Nat} {a3 : State} (hm : Within 2499 m) (h : Keep m s₀ a3) :
    Keep m s₀ (State.popWords a0 a1 a2 a3).2.1 := by
  induction a0 generalizing a1 a2 a3 with
  | zero => unfold State.popWords; first | exact h | (split <;> exact h)
  | succ n ih =>
    unfold State.popWords
    iterate 60 try any_goals first
      | with_reducible assumption
      | with_reducible refine ih ?_
      | (have hx := State.popWord_keep' (by with_reducible assumption) (Within.trans rfl hm) (by with_reducible assumption); with_reducible exact hx)
      | split

theorem State.popEntries_keep {m : Nat} {s₀ : State} {s : State} {f : Nat} {k : Nat} {stop : Bool} (hm : Within 8395715 m) (h : Keep m s₀ s) :
    Keep m s₀ (State.popEntries s f k stop).2.2.1 := by
  unfold State.popEntries
  iterate 60 try any_goals first
    | with_reducible assumption
    | with_reducible refine State.popWords_keep (Within.trans rfl hm) ?_
    | with_reducible refine State.mirror_keep (Within.trans rfl hm) ?_
    | with_reducible refine Keep.ite ?_ ?_

theorem State.servePost_keep {m : Nat} {s₀ : State} {s : State} {f : Nat} (hm : Within 25172931 m) (h : Keep m s₀ s) :
    Keep m s₀ (State.servePost s f).1 := by
  unfold State.servePost
  iterate 60 try any_goals first
    | with_reducible assumption
    | with_reducible refine State.mirror_keep (Within.trans rfl hm) ?_
    | with_reducible refine State.placeAgain_keep (Within.trans rfl hm) ?_
    | with_reducible refine State.popWords_keep (Within.trans rfl hm) ?_
    | with_reducible refine Keep.ite ?_ ?_
    | (intro hx)
    | (extract_lets +onlyGivenNames y; revert y; intro _)
    | split
    | with_reducible refine Keep.setFold ?_ (hm.bit 8 rfl)

theorem State.splitStuck_keep {m : Nat} {s₀ : State} {s : State} {f : Nat} {h0 : Nat} (hm : Within 25172931 m) (h : Keep m s₀ s) :
    Keep m s₀ (State.splitStuck s f h0).1 := by
  unfold State.splitStuck
  iterate 60 try any_goals first
    | with_reducible assumption
    | with_reducible refine State.bump_keep (Within.trans rfl hm) ?_
    | with_reducible refine State.raise_keep (Within.trans rfl hm) ?_
    | with_reducible refine State.setFold_keep (Within.trans rfl hm) ?_
    | with_reducible refine State.pointerCheck_keep (Within.trans rfl hm) ?_
    | with_reducible refine State.appendChain_keep (Within.trans rfl hm) ?_
    | with_reducible refine State.servePost_keep (Within.trans rfl hm) ?_
    | with_reducible refine Keep.ite ?_ ?_
    | (intro hx)
    | (extract_lets +onlyGivenNames y; revert y; intro _)
    | split

theorem State.pushEntries_keep {m : Nat} {s₀ : State} {a0 : List (BitVec 64 × Byte)} {a1 : Nat} {a2 : Nat} {a3 : Nat} {y : Bool} {a4 : State} (hm : Within 25172931 m) (h : Keep m s₀ a4) :
    Keep m s₀ (State.pushEntries a0 a1 a2 a3 y a4).2.1 := by
  induction a0 generalizing a1 a2 a3 a4 with
  | nil => unfold State.pushEntries; first | exact h | (split <;> exact h)
  | cons b l ih =>
    unfold State.pushEntries
    iterate 60 try any_goals first
      | with_reducible assumption
      | with_reducible refine ih ?_
      | with_reducible refine State.splitStuck_keep (Within.trans rfl hm) ?_
      | (have hx := State.pushWord_keep (by with_reducible assumption) (Within.trans rfl hm) (by with_reducible assumption); with_reducible exact hx)
      | with_reducible refine State.servePost_keep (Within.trans rfl hm) ?_
      | (extract_lets +onlyGivenNames y; refine Keep.use (m := m) (s := s₀) (x := y.1) ?_ ?_; (focus (unfold y; clear y)); rotate_left; (focus (intro hy; clear_value y; revert y; intro _ _)))
      | split

theorem State.countWait_keep {m : Nat} {s₀ : State} {s : State} {f : Nat} (hm : Within 2049 m) (h : Keep m s₀ s) :
    Keep m s₀ (State.countWait s f) := by
  unfold State.countWait
  iterate 60 try any_goals first
    | with_reducible assumption
    | with_reducible refine State.bump_keep (Within.trans rfl hm) ?_
    | with_reducible refine Keep.ite ?_ ?_
    | (intro hx)
    | split

theorem State.push_keep {m : Nat} {s₀ : State} {s : State} {h0 : Nat} {producer : Nat} {who : Nat} {es : List (BitVec 64 × Byte)} {drover : Option Nat} (hm : Within 25172931 m) (h : Keep m s₀ s) :
    Keep m s₀ (State.push s h0 producer who es drover).2 := by
  unfold State.push
  extract_lets f r s1 s2
  have hr : Keep m s₀ r.2.1 := by
    unfold r
    split
    · exact h
    · exact State.pushEntries_keep (Within.trans rfl hm) h
  have h1 : Keep m s₀ s1 := State.fire_keep (Within.trans rfl hm) hr
  split
  · exact h1
  · exact Keep.setFold (State.countWait_keep (Within.trans rfl hm) h1) (hm.bit 8 rfl)

theorem State.ddrCe_keep {m : Nat} {s₀ : State} {s : State} {word : Nat} (hm : Within 18435 m) (h : Keep m s₀ s) :
    Keep m s₀ (State.ddrCe s word) := by
  unfold State.ddrCe
  iterate 60 try any_goals first
    | with_reducible assumption
    | with_reducible refine State.raise_keep (Within.trans rfl hm) ?_
    | with_reducible refine State.bump_keep (Within.trans rfl hm) ?_
    | with_reducible refine Keep.setDdr ?_ (hm.bit 14 rfl) (fun hx => hx)

theorem State.ddrUe_keep {m : Nat} {s₀ : State} {s : State} {word : Nat} (hm : Within 2051 m) (h : Keep m s₀ s) :
    Keep m s₀ (State.ddrUe s word) := by
  unfold State.ddrUe
  iterate 60 try any_goals first
    | with_reducible assumption
    | with_reducible refine State.wr_keep (Within.trans rfl hm) ?_
    | with_reducible refine State.raise_keep (Within.trans rfl hm) ?_
    | with_reducible refine State.bump_keep (Within.trans rfl hm) ?_
    | with_reducible refine Keep.ite ?_ ?_

theorem State.ddrCheck_keep {m : Nat} {s₀ : State} {s : State} {lo : Nat} {hi : Nat} (hm : Within 18435 m) (h : Keep m s₀ s) :
    Keep m s₀ (State.ddrCheck s lo hi).2 := by
  unfold State.ddrCheck
  iterate 60 try any_goals first
    | with_reducible assumption
    | with_reducible refine State.ddrUe_keep (Within.trans rfl hm) ?_
    | with_reducible refine State.ddrCe_keep (Within.trans rfl hm) ?_
    | with_reducible refine Keep.foldl2 (fun x a hx => ?_) _ ?_
    | split

theorem State.ddrRead_keep {m : Nat} {s₀ : State} {s : State} {a : Nat} {n : Nat} (hm : Within 18435 m) (h : Keep m s₀ s) :
    Keep m s₀ (State.ddrRead s a n).2 := by
  unfold State.ddrRead
  iterate 60 try any_goals first
    | with_reducible assumption
    | with_reducible refine State.ddrCheck_keep (Within.trans rfl hm) ?_

theorem State.mirrorDdr_keep {m : Nat} {s₀ : State} {s : State} {a : Nat} {bs : List Byte} (hm : Within 8395265 m) (h : Keep m s₀ s) :
    Keep m s₀ (State.mirrorDdr s a bs) := by
  unfold State.mirrorDdr
  iterate 60 try any_goals first
    | with_reducible assumption
    | with_reducible refine State.mirror_keep (Within.trans rfl hm) ?_
    | with_reducible refine Keep.foldl (fun x a hx => ?_) _ ?_
    | split

theorem State.ddrStore_keep {m : Nat} {s₀ : State} {s : State} {a : Nat} {bs : List Byte} (hm : Within 16384 m) (h : Keep m s₀ s) :
    Keep m s₀ (State.ddrStore s a bs) := by
  unfold State.ddrStore
  iterate 60 try any_goals first
    | with_reducible assumption
    | with_reducible refine Keep.setDdr ?_ (hm.bit 14 rfl) (fun hx => Memory.wf_twrites _ _ _ hx)

theorem State.ddrWrite_keep {m : Nat} {s₀ : State} {s : State} {a : Nat} {bs : List Byte} (hm : Within 8411651 m) (h : Keep m s₀ s) :
    Keep m s₀ (State.ddrWrite s a bs).2 := by
  unfold State.ddrWrite
  iterate 60 try any_goals first
    | with_reducible assumption
    | with_reducible refine State.ddrCheck_keep (Within.trans rfl hm) ?_
    | with_reducible refine State.mirrorDdr_keep (Within.trans rfl hm) ?_
    | with_reducible refine State.ddrStore_keep (Within.trans rfl hm) ?_
    | with_reducible refine Keep.foldl2 (fun x a hx => ?_) _ ?_
    | (extract_lets +onlyGivenNames y; refine Keep.use (m := m) (s := s₀) (x := y.2) ?_ ?_; (focus (unfold y; clear y)); rotate_left; (focus (intro hy; clear_value y; revert y; intro _ _)))
    | split

theorem State.ddrInj_keep {m : Nat} {s₀ : State} {s : State} {v : Word} (hm : Within 16385 m) (h : Keep m s₀ s) :
    Keep m s₀ (State.ddrInj s v) := by
  unfold State.ddrInj
  iterate 60 try any_goals first
    | with_reducible assumption
    | with_reducible refine State.wr_keep (Within.trans rfl hm) ?_
    | with_reducible refine Keep.ite ?_ ?_
    | with_reducible refine Keep.setDdr ?_ (hm.bit 14 rfl) (fun hx => hx)

theorem ddrScrub_keep {m : Nat} {s₀ : State} {s : State} (hm : Within 18435 m) (h : Keep m s₀ s) :
    Keep m s₀ (ddrScrub s) := by
  unfold ddrScrub
  iterate 60 try any_goals first
    | with_reducible assumption
    | with_reducible refine State.ddrCheck_keep (Within.trans rfl hm) ?_
    | with_reducible refine Keep.ite ?_ ?_
    | with_reducible refine Keep.setDdr ?_ (hm.bit 14 rfl) (fun hx => hx)

theorem State.setSp_keep {m : Nat} {s₀ : State} {s : State} {n : Nat} {x : SerialPort} (hm : Within 8192 m) (h : Keep m s₀ s) :
    Keep m s₀ (State.setSp s n x) := by
  unfold State.setSp
  iterate 60 try any_goals first
    | with_reducible assumption
    | with_reducible refine Keep.setPort ?_ (hm.bit 13 rfl)

theorem State.setCf_keep {m : Nat} {s₀ : State} {s : State} {n : Nat} {x : CanCtl} (hm : Within 8192 m) (h : Keep m s₀ s) :
    Keep m s₀ (State.setCf s n x) := by
  unfold State.setCf
  iterate 60 try any_goals first
    | with_reducible assumption
    | with_reducible refine Keep.setPort ?_ (hm.bit 13 rfl)

theorem State.setDc_keep {m : Nat} {s₀ : State} {s : State} {n : Nat} {x : DcChain} (hm : Within 8192 m) (h : Keep m s₀ s) :
    Keep m s₀ (State.setDc s n x) := by
  unfold State.setDc
  iterate 60 try any_goals first
    | with_reducible assumption
    | with_reducible refine Keep.setPort ?_ (hm.bit 13 rfl)

theorem State.deFull_keep {m : Nat} {s₀ : State} {s : State} {n : Nat} (hm : Within 8396800 m) (h : Keep m s₀ s) :
    Keep m s₀ (State.deFull s n) := by
  unfold State.deFull
  iterate 60 try any_goals first
    | with_reducible assumption
    | with_reducible refine State.emit_keep (Within.trans rfl hm) ?_
    | with_reducible refine State.setSp_keep (Within.trans rfl hm) ?_
    | with_reducible refine Keep.ite ?_ ?_
    | (intro hx)
    | split

theorem State.desFull_keep {m : Nat} {s₀ : State} {s : State} (hm : Within 8396800 m) (h : Keep m s₀ s) :
    Keep m s₀ (State.desFull s) := by
  unfold State.desFull
  iterate 60 try any_goals first
    | with_reducible assumption
    | with_reducible refine State.deFull_keep (Within.trans rfl hm) ?_
    | with_reducible refine Keep.foldl (fun x a hx => ?_) _ ?_
    | split

theorem State.landed_keep {m : Nat} {s₀ : State} {s : State} {h0 : Nat} (hm : Within 16779715 m) (h : Keep m s₀ s) :
    Keep m s₀ (State.landed s h0) := by
  unfold State.landed
  iterate 60 try any_goals first
    | with_reducible assumption
    | with_reducible refine State.statAdd_keep (Within.trans rfl hm) ?_
    | with_reducible refine State.event_keep (Within.trans rfl hm) ?_
    | with_reducible refine Keep.ite ?_ ?_

theorem State.pushRx_keep {m : Nat} {s₀ : State} {s : State} {h0 : Nat} {es : List (BitVec 64 × Byte)} (hm : Within 25172931 m) (h : Keep m s₀ s) :
    Keep m s₀ (State.pushRx s h0 es) := by
  unfold State.pushRx
  iterate 60 try any_goals first
    | with_reducible assumption
    | with_reducible refine State.push_keep (Within.trans rfl hm) ?_
    | with_reducible refine State.landed_keep (Within.trans rfl hm) ?_
    | with_reducible refine Keep.ite ?_ ?_

theorem State.popPacket_keep {m : Nat} {s₀ : State} {s : State} {h0 : Nat} {p : (List FWord × State)} (e : State.popPacket s h0 = some p) (hm : Within 25172931 m) (h : Keep m s₀ s) :
    Keep m s₀ p.2 := by
  unfold State.popPacket at e
  extract_lets f mm n r s1 s2 at e
  split at e
  · cases e
  · have hr : Keep m s₀ r.2.1 := State.popWords_keep (Within.trans rfl hm) h
    have h1 : Keep m s₀ s1 := State.fire_keep (Within.trans rfl hm) hr
    clear_value r s1
    have h2 : Keep m s₀ s2 := by
      unfold s2
      split
      · exact State.mirror_keep (Within.trans rfl hm) h1
      · exact h1
    clear_value s2
    split at e
    · cases e
    · cases e; exact h2

theorem State.failSends_keep {m : Nat} {s₀ : State} {s : State} {h0 : Nat} (hm : Within 448 m) (h : Keep m s₀ s) :
    Keep m s₀ (State.failSends s h0) := by
  unfold State.failSends
  iterate 60 try any_goals first
    | with_reducible assumption
    | with_reducible refine State.setFold_keep (Within.trans rfl hm) ?_
    | with_reducible refine State.confirmAll_keep (Within.trans rfl hm) ?_

theorem State.pollGo_keep {m : Nat} {s₀ : State} {s : State} {n : Nat} {i : Nat} (hm : Within 16787907 m) (h : Keep m s₀ s) :
    Keep m s₀ (State.pollGo s n i) := by
  unfold State.pollGo
  iterate 60 try any_goals first
    | with_reducible assumption
    | with_reducible refine State.create_keep (Within.trans rfl hm) ?_
    | with_reducible refine State.setSp_keep (Within.trans rfl hm) ?_
    | split

theorem State.pollNext_keep {m : Nat} {s₀ : State} {s : State} {n : Nat} (hm : Within 16787907 m) (h : Keep m s₀ s) :
    Keep m s₀ (State.pollNext s n) := by
  unfold State.pollNext
  iterate 60 try any_goals first
    | with_reducible assumption
    | with_reducible refine State.pollGo_keep (Within.trans rfl hm) ?_
    | split

theorem State.pollFail_keep {m : Nat} {s₀ : State} {s : State} {n : Nat} {d : Nat} (hm : Within 65 m) (h : Keep m s₀ s) :
    Keep m s₀ (State.pollFail s n d) := by
  unfold State.pollFail
  iterate 60 try any_goals first
    | with_reducible assumption
    | with_reducible refine State.setDrover_keep (Within.trans rfl hm) ?_
    | with_reducible refine State.endTask_keep (Within.trans rfl hm) ?_
    | with_reducible refine State.wr_keep (Within.trans rfl hm) ?_

theorem State.pollReply_keep {m : Nat} {s₀ : State} {s : State} {n : Nat} {d : Nat} {flags : Nat} {bs : List Byte} (hm : Within 8391235 m) (h : Keep m s₀ s) :
    Keep m s₀ (State.pollReply s n d flags bs) := by
  unfold State.pollReply
  iterate 60 try any_goals first
    | with_reducible assumption
    | with_reducible refine State.raise_keep (Within.trans rfl hm) ?_
    | with_reducible refine State.originRefuse_keep (Within.trans rfl hm) ?_
    | with_reducible refine State.setDrover_keep (Within.trans rfl hm) ?_
    | with_reducible refine State.issue_keep (Within.trans rfl hm) ?_
    | with_reducible refine State.endTask_keep (Within.trans rfl hm) ?_
    | with_reducible refine State.pollFail_keep (Within.trans rfl hm) ?_
    | with_reducible refine Keep.ite ?_ ?_
    | (intro hx)
    | (extract_lets +onlyGivenNames y; revert y; intro _)
    | split

end Sys2Proof.Machine
end

