-- ==== Sys2Proof/Laws/KeepPieces.lean ====
section
/-! SUPPORT. What each operation of OrdOps, VmeOps, Issue, Pieces leaves alone and keeps: its footprint as a mask of units, and that it keeps
the memories canonical, the queue of commands and a recorder key once set (see Laws/Keep.lean). -/

namespace Sys2Proof.Machine

set_option maxRecDepth 4000

theorem State.setAgent_keep {m : Nat} {s₀ : State} {s : State} {k : Nat} {a : AgentState} (hm : Within 128 m) (h : Keep m s₀ s) :
    Keep m s₀ (State.setAgent s k a) := by
  unfold State.setAgent
  iterate 60 try any_goals first
    | with_reducible assumption
    | with_reducible refine Keep.setOrd ?_ (hm.bit 7 rfl)

theorem State.exception_keep {m : Nat} {s₀ : State} {s : State} {k : Nat} (hm : Within 128 m) (h : Keep m s₀ s) :
    Keep m s₀ (State.exception s k) := by
  unfold State.exception
  iterate 60 try any_goals first
    | with_reducible assumption
    | with_reducible refine State.setAgent_keep (Within.trans rfl hm) ?_

theorem State.setClaims_keep {m : Nat} {s₀ : State} {s : State} {cs : List Claim} (hm : Within 129 m) (h : Keep m s₀ s) :
    Keep m s₀ (State.setClaims s cs) := by
  unfold State.setClaims
  iterate 60 try any_goals first
    | with_reducible assumption
    | with_reducible refine State.peak_keep (Within.trans rfl hm) ?_
    | with_reducible refine State.wr_keep (Within.trans rfl hm) ?_
    | with_reducible refine Keep.setOrd ?_ (hm.bit 7 rfl)

theorem State.storeSeen_keep {m : Nat} {s₀ : State} {s : State} {node : Nat} {agent : Nat} {space : Nat} {lo : Nat} {len : Nat} (hm : Within 129 m) (h : Keep m s₀ s) :
    Keep m s₀ (State.storeSeen s node agent space lo len) := by
  unfold State.storeSeen
  iterate 60 try any_goals first
    | with_reducible assumption
    | with_reducible refine State.setClaims_keep (Within.trans rfl hm) ?_
    | with_reducible refine Keep.ite ?_ ?_

theorem State.takeClaim_keep {m : Nat} {s₀ : State} {s : State} {c : Claim} (hm : Within 129 m) (h : Keep m s₀ s) :
    Keep m s₀ (State.takeClaim s c) := by
  unfold State.takeClaim
  iterate 60 try any_goals first
    | with_reducible assumption
    | with_reducible refine State.setClaims_keep (Within.trans rfl hm) ?_

theorem State.dropClaim_keep {m : Nat} {s₀ : State} {s : State} {node : Nat} {agent : Nat} (hm : Within 129 m) (h : Keep m s₀ s) :
    Keep m s₀ (State.dropClaim s node agent) := by
  unfold State.dropClaim
  iterate 60 try any_goals first
    | with_reducible assumption
    | with_reducible refine State.setClaims_keep (Within.trans rfl hm) ?_

theorem State.sameExc_keep {m : Nat} {s₀ : State} {s : State} {c : Claim} {exc : Nat} (hm : Within 16777216 m) (h : Keep m s₀ s) :
    Keep m s₀ (State.sameExc s c exc).2 := by
  unfold State.sameExc
  split
  · exact h
  · exact State.free_keep (w := 1) (Within.trans rfl hm) h

theorem State.judgeCommit_keep {m : Nat} {s₀ : State} {s : State} {node : Nat} {agent : Nat} {space : Nat} {key : Nat} {exc : Nat} {cmp : Option (List Byte)} (hm : Within 16777216 m) (h : Keep m s₀ s) :
    Keep m s₀ (State.judgeCommit s node agent space key exc cmp).2 := by
  unfold State.judgeCommit
  iterate 60 try any_goals first
    | with_reducible assumption
    | with_reducible refine State.sameExc_keep (Within.trans rfl hm) ?_
    | split

theorem State.commitEnd_keep {m : Nat} {s₀ : State} {s : State} {node : Nat} {agent : Nat} {ok : Bool} (hm : Within 2177 m) (h : Keep m s₀ s) :
    Keep m s₀ (State.commitEnd s node agent ok) := by
  unfold State.commitEnd
  iterate 60 try any_goals first
    | with_reducible assumption
    | with_reducible refine State.bump_keep (Within.trans rfl hm) ?_
    | with_reducible refine State.dropClaim_keep (Within.trans rfl hm) ?_

theorem State.setLcSet_keep {m : Nat} {s₀ : State} {s : State} {i : Nat} {l : List LcLine} (hm : Within 128 m) (h : Keep m s₀ s) :
    Keep m s₀ (State.setLcSet s i l) := by
  unfold State.setLcSet
  iterate 60 try any_goals first
    | with_reducible assumption
    | with_reducible refine Keep.setOrd ?_ (hm.bit 7 rfl)

theorem State.lcLook_keep {m : Nat} {s₀ : State} {s : State} {space : Nat} {line : Nat} {ttl : Nat} {counted : Bool} (hm : Within 2179 m) (h : Keep m s₀ s) :
    Keep m s₀ (State.lcLook s space line ttl counted).2 := by
  unfold State.lcLook
  iterate 60 try any_goals first
    | with_reducible assumption
    | with_reducible refine State.bump_keep (Within.trans rfl hm) ?_
    | with_reducible refine State.sramFault_keep (Within.trans rfl hm) ?_
    | with_reducible refine State.setLcSet_keep (Within.trans rfl hm) ?_
    | with_reducible refine Keep.ite ?_ ?_
    | (intro hx)
    | (extract_lets +onlyGivenNames y; revert y; intro _)
    | split

theorem State.lcLook_keep' {m : Nat} {s₀ : State} {s : State} {space : Nat} {line : Nat} {ttl : Nat} {counted : Bool} {p : Option (List Byte) × State} (e : State.lcLook s space line ttl counted = p) (hm : Within 2179 m) (h : Keep m s₀ s) :
    Keep m s₀ p.2 :=
  e ▸ State.lcLook_keep hm h

theorem State.lcInstall_keep {m : Nat} {s₀ : State} {s : State} {space : Nat} {line : Nat} {bytes : List Byte} (hm : Within 131 m) (h : Keep m s₀ s) :
    Keep m s₀ (State.lcInstall s space line bytes) := by
  unfold State.lcInstall
  iterate 60 try any_goals first
    | with_reducible assumption
    | with_reducible refine State.injTake_keep (Within.trans rfl hm) ?_
    | with_reducible refine State.setLcSet_keep (Within.trans rfl hm) ?_

theorem State.lcDrop_keep {m : Nat} {s₀ : State} {s : State} {space : Nat} {lo : Nat} {len : Nat} (hm : Within 144 m) (h : Keep m s₀ s) :
    Keep m s₀ (State.lcDrop s space lo len).2 := by
  unfold State.lcDrop
  iterate 60 try any_goals first
    | with_reducible assumption
    | with_reducible refine Keep.foldl (fun x a hx => ?_) _ ?_
    | with_reducible refine Keep.ite ?_ ?_
    | (intro hx)
    | split
    | with_reducible refine Keep.setVme ?_ (hm.bit 4 rfl)
    | with_reducible refine Keep.setOrd ?_ (hm.bit 7 rfl)

theorem State.lcDropAll_keep {m : Nat} {s₀ : State} {s : State} (hm : Within 2193 m) (h : Keep m s₀ s) :
    Keep m s₀ (State.lcDropAll s) := by
  unfold State.lcDropAll
  extract_lets jobs
  clear_value jobs
  have h1 := Keep.setOrd h (hm.bit 7 rfl) (x := { s.ord with lc := [] })
  have h2 := Keep.setVme h1 (hm.bit 4 rfl) (x := { s.vme with jobs := jobs })
  exact State.bump_keep (Within.trans rfl hm) h2

theorem State.setJob_keep {m : Nat} {s₀ : State} {s : State} {d : Nat} {j : Option VJob} (hm : Within 16 m) (h : Keep m s₀ s) :
    Keep m s₀ (State.setJob s d j) := by
  unfold State.setJob
  iterate 60 try any_goals first
    | with_reducible assumption
    | with_reducible refine Keep.ite ?_ ?_
    | with_reducible refine Keep.setVme ?_ (hm.bit 4 rfl)

theorem State.setOwnerJob_keep {m : Nat} {s₀ : State} {s : State} {o : VOwner} {j : VJob} (hm : Within 16 m) (h : Keep m s₀ s) :
    Keep m s₀ (State.setOwnerJob s o j) := by
  unfold State.setOwnerJob
  iterate 60 try any_goals first
    | with_reducible assumption
    | with_reducible refine State.setJob_keep (Within.trans rfl hm) ?_
    | split
    | with_reducible refine Keep.setVme ?_ (hm.bit 4 rfl)

theorem State.joinWait_keep {m : Nat} {s₀ : State} {s : State} {o : VOwner} (hm : Within 16 m) (h : Keep m s₀ s) :
    Keep m s₀ (State.joinWait s o) := by
  unfold State.joinWait
  iterate 60 try any_goals first
    | with_reducible assumption
    | split
    | with_reducible refine Keep.setVme ?_ (hm.bit 4 rfl)

theorem State.askBus_keep {m : Nat} {s₀ : State} {s : State} (hm : Within 16 m) (h : Keep m s₀ s) :
    Keep m s₀ (State.askBus s) := by
  unfold State.askBus
  iterate 60 try any_goals first
    | with_reducible assumption
    | with_reducible refine Keep.ite ?_ ?_
    | with_reducible refine Keep.setVme ?_ (hm.bit 4 rfl)

theorem State.firstCycle_keep {m : Nat} {s₀ : State} {s : State} {j : VJob} (hm : Within 145 m) (h : Keep m s₀ s) :
    Keep m s₀ (State.firstCycle s j) := by
  unfold State.firstCycle
  iterate 60 try any_goals first
    | with_reducible assumption
    | with_reducible refine State.lcDrop_keep (Within.trans rfl hm) ?_
    | with_reducible refine State.storeSeen_keep (Within.trans rfl hm) ?_
    | with_reducible refine Keep.ite ?_ ?_

theorem State.liveCover_keep {m : Nat} {s₀ : State} {s : State} {o : VOwner} {j : VJob} (hm : Within 2065 m) (h : Keep m s₀ s) :
    Keep m s₀ (State.liveCover s o j) := by
  unfold State.liveCover
  iterate 60 try any_goals first
    | with_reducible assumption
    | with_reducible refine State.bump_keep (Within.trans rfl hm) ?_
    | with_reducible refine State.setOwnerJob_keep (Within.trans rfl hm) ?_
    | with_reducible refine Keep.ite ?_ ?_
    | (intro hx)
    | split

theorem State.addressPhase_keep {m : Nat} {s₀ : State} {s : State} {j : VJob} {x : Xfer} (hm : Within 8388608 m) (h : Keep m s₀ s) :
    Keep m s₀ (State.addressPhase s j x) := by
  unfold State.addressPhase
  iterate 60 try any_goals first
    | with_reducible assumption
    | with_reducible refine State.emit_keep (Within.trans rfl hm) ?_
    | with_reducible refine Keep.ite ?_ ?_
    | (intro hx)
    | split

theorem State.beginCycle_keep {m : Nat} {s₀ : State} {s : State} {o : VOwner} (hm : Within 8390801 m) (h : Keep m s₀ s) :
    Keep m s₀ (State.beginCycle s o) := by
  unfold State.beginCycle
  iterate 60 try any_goals first
    | with_reducible assumption
    | with_reducible refine State.emit_keep (Within.trans rfl hm) ?_
    | with_reducible refine State.firstCycle_keep (Within.trans rfl hm) ?_
    | with_reducible refine State.liveCover_keep (Within.trans rfl hm) ?_
    | with_reducible refine State.addressPhase_keep (Within.trans rfl hm) ?_
    | with_reducible refine Keep.ite ?_ ?_
    | (intro hx)
    | split
    | with_reducible refine Keep.setVme ?_ (hm.bit 4 rfl)

theorem State.tenureNext_keep {m : Nat} {s₀ : State} {s : State} (hm : Within 8390801 m) (h : Keep m s₀ s) :
    Keep m s₀ (State.tenureNext s) := by
  unfold State.tenureNext
  iterate 60 try any_goals first
    | with_reducible assumption
    | with_reducible refine State.askBus_keep (Within.trans rfl hm) ?_
    | with_reducible refine State.beginCycle_keep (Within.trans rfl hm) ?_
    | with_reducible refine Keep.ite ?_ ?_
    | (intro hx)
    | split
    | with_reducible refine Keep.setVme ?_ (hm.bit 4 rfl)

theorem State.requestTenure_keep {m : Nat} {s₀ : State} {s : State} {o : VOwner} (hm : Within 8390801 m) (h : Keep m s₀ s) :
    Keep m s₀ (State.requestTenure s o) := by
  unfold State.requestTenure
  iterate 60 try any_goals first
    | with_reducible assumption
    | with_reducible refine State.joinWait_keep (Within.trans rfl hm) ?_
    | with_reducible refine State.beginCycle_keep (Within.trans rfl hm) ?_
    | with_reducible refine State.tenureNext_keep (Within.trans rfl hm) ?_
    | with_reducible refine Keep.ite ?_ ?_
    | (intro hx)
    | split

theorem State.dropBus_keep {m : Nat} {s₀ : State} {s : State} (hm : Within 2064 m) (h : Keep m s₀ s) :
    Keep m s₀ (State.dropBus s) := by
  unfold State.dropBus
  iterate 60 try any_goals first
    | with_reducible assumption
    | with_reducible refine State.statAdd_keep (Within.trans rfl hm) ?_
    | with_reducible refine Keep.ite ?_ ?_
    | (intro hx)
    | split
    | with_reducible refine Keep.setVme ?_ (hm.bit 4 rfl)

theorem State.idleBus_keep {m : Nat} {s₀ : State} {s : State} (hm : Within 8390801 m) (h : Keep m s₀ s) :
    Keep m s₀ (State.idleBus s) := by
  unfold State.idleBus
  iterate 60 try any_goals first
    | with_reducible assumption
    | with_reducible refine State.tenureNext_keep (Within.trans rfl hm) ?_
    | with_reducible refine State.dropBus_keep (Within.trans rfl hm) ?_
    | with_reducible refine Keep.ite ?_ ?_

theorem State.taskBoundary_keep {m : Nat} {s₀ : State} {s : State} {o : VOwner} (hm : Within 8390801 m) (h : Keep m s₀ s) :
    Keep m s₀ (State.taskBoundary s o) := by
  unfold State.taskBoundary
  iterate 60 try any_goals first
    | with_reducible assumption
    | with_reducible refine State.idleBus_keep (Within.trans rfl hm) ?_
    | with_reducible refine Keep.ite ?_ ?_
    | (intro hx)
    | split
    | with_reducible refine Keep.setVme ?_ (hm.bit 4 rfl)

theorem State.takeGrant_keep {m : Nat} {s₀ : State} {s : State} {level : Nat} (hm : Within 8390801 m) (h : Keep m s₀ s) :
    Keep m s₀ (State.takeGrant s level) := by
  unfold State.takeGrant
  iterate 60 try any_goals first
    | with_reducible assumption
    | with_reducible refine State.tenureNext_keep (Within.trans rfl hm) ?_
    | with_reducible refine State.emit_keep (Within.trans rfl hm) ?_
    | with_reducible refine Keep.ite ?_ ?_
    | with_reducible refine Keep.setVme ?_ (hm.bit 4 rfl)

theorem State.rmwRead_keep {m : Nat} {s₀ : State} {s : State} {o : VOwner} {j : VJob} {data : List Byte} (hm : Within 25168017 m) (h : Keep m s₀ s) :
    Keep m s₀ (State.rmwRead s o j data) := by
  unfold State.rmwRead
  iterate 60 try any_goals first
    | with_reducible assumption
    | with_reducible refine State.storeSeen_keep (Within.trans rfl hm) ?_
    | with_reducible refine State.dropClaim_keep (Within.trans rfl hm) ?_
    | with_reducible refine State.judgeCommit_keep (Within.trans rfl hm) ?_
    | with_reducible refine State.setOwnerJob_keep (Within.trans rfl hm) ?_
    | with_reducible refine State.beginCycle_keep (Within.trans rfl hm) ?_
    | with_reducible refine Keep.ite ?_ ?_
    | (intro hx)
    | split

theorem State.cycleDone_keep {m : Nat} {s₀ : State} {s : State} {o : VOwner} {j : VJob} {x : Xfer} {rest : List Xfer} {data : List Byte} (hm : Within 25168017 m) (h : Keep m s₀ s) :
    Keep m s₀ (State.cycleDone s o j x rest data).1 := by
  unfold State.cycleDone
  iterate 60 try any_goals first
    | with_reducible assumption
    | with_reducible refine State.setOwnerJob_keep (Within.trans rfl hm) ?_
    | with_reducible refine State.bump_keep (Within.trans rfl hm) ?_
    | with_reducible refine State.rmwRead_keep (Within.trans rfl hm) ?_
    | with_reducible refine State.beginCycle_keep (Within.trans rfl hm) ?_
    | (extract_lets +onlyGivenNames y; revert y; intro _)
    | split

theorem State.leaveGap_keep {m : Nat} {s₀ : State} {s : State} {o : VOwner} {j : VJob} (hm : Within 8390801 m) (h : Keep m s₀ s) :
    Keep m s₀ (State.leaveGap s o j) := by
  unfold State.leaveGap
  iterate 60 try any_goals first
    | with_reducible assumption
    | with_reducible refine State.setOwnerJob_keep (Within.trans rfl hm) ?_
    | with_reducible refine State.dropBus_keep (Within.trans rfl hm) ?_
    | with_reducible refine State.tenureNext_keep (Within.trans rfl hm) ?_
    | with_reducible refine Keep.setVme ?_ (hm.bit 4 rfl)

theorem State.retryJob_keep {m : Nat} {s₀ : State} {s : State} {o : VOwner} {j : VJob} (hm : Within 8390803 m) (h : Keep m s₀ s) :
    Keep m s₀ (State.retryJob s o j).1 := by
  unfold State.retryJob
  iterate 60 try any_goals first
    | with_reducible assumption
    | with_reducible refine State.bump_keep (Within.trans rfl hm) ?_
    | with_reducible refine State.raiseCap_keep (Within.trans rfl hm) ?_
    | with_reducible refine State.leaveGap_keep (Within.trans rfl hm) ?_
    | split

theorem State.failJob_keep {m : Nat} {s₀ : State} {s : State} {o : VOwner} {status : Nat} {code : Nat} (hm : Within 3 m) (h : Keep m s₀ s) :
    Keep m s₀ (State.failJob s o status code).1 := by
  unfold State.failJob
  iterate 60 try any_goals first
    | with_reducible assumption
    | with_reducible refine State.raiseCap_keep (Within.trans rfl hm) ?_
    | split

theorem State.tookEnd_keep {m : Nat} {s₀ : State} {s : State} {berr : Bool} (hm : Within 16 m) (h : Keep m s₀ s) :
    Keep m s₀ (State.tookEnd s berr) := by
  unfold State.tookEnd
  iterate 60 try any_goals first
    | with_reducible assumption
    | split
    | with_reducible refine Keep.setVme ?_ (hm.bit 4 rfl)

theorem State.cycleLost_keep {m : Nat} {s₀ : State} {s : State} (hm : Within 8390801 m) (h : Keep m s₀ s) :
    Keep m s₀ (State.cycleLost s) := by
  unfold State.cycleLost
  iterate 60 try any_goals first
    | with_reducible assumption
    | with_reducible refine State.idleBus_keep (Within.trans rfl hm) ?_
    | split
    | with_reducible refine Keep.setVme ?_ (hm.bit 4 rfl)

theorem State.unwait_keep {m : Nat} {s₀ : State} {s : State} {o : VOwner} (hm : Within 16 m) (h : Keep m s₀ s) :
    Keep m s₀ (State.unwait s o) := by
  unfold State.unwait
  iterate 60 try any_goals first
    | with_reducible assumption
    | with_reducible refine Keep.ite ?_ ?_
    | with_reducible refine Keep.setVme ?_ (hm.bit 4 rfl)

theorem State.setPwq_keep {m : Nat} {s₀ : State} {s : State} {q : List PwqEntry} (hm : Within 17 m) (h : Keep m s₀ s) :
    Keep m s₀ (State.setPwq s q) := by
  unfold State.setPwq
  iterate 60 try any_goals first
    | with_reducible assumption
    | with_reducible refine State.peak_keep (Within.trans rfl hm) ?_
    | with_reducible refine State.wr_keep (Within.trans rfl hm) ?_
    | with_reducible refine Keep.setVme ?_ (hm.bit 4 rfl)

theorem State.startQueue_keep {m : Nat} {s₀ : State} {s : State} (hm : Within 8390801 m) (h : Keep m s₀ s) :
    Keep m s₀ (State.startQueue s) := by
  unfold State.startQueue
  iterate 60 try any_goals first
    | with_reducible assumption
    | with_reducible refine State.requestTenure_keep (Within.trans rfl hm) ?_
    | with_reducible refine Keep.ite ?_ ?_

theorem State.enterQueue_keep {m : Nat} {s₀ : State} {s : State} {j : VJob} (hm : Within 8390801 m) (h : Keep m s₀ s) :
    Keep m s₀ (State.enterQueue s j) := by
  unfold State.enterQueue
  iterate 60 try any_goals first
    | with_reducible assumption
    | with_reducible refine State.lcDrop_keep (Within.trans rfl hm) ?_
    | with_reducible refine State.storeSeen_keep (Within.trans rfl hm) ?_
    | with_reducible refine State.awaitStore_keep (Within.trans rfl hm) ?_
    | with_reducible refine State.startQueue_keep (Within.trans rfl hm) ?_
    | with_reducible refine State.setPwq_keep (Within.trans rfl hm) ?_

theorem State.endEntry_keep {m : Nat} {s₀ : State} {s : State} {status : Nat} (hm : Within 2259 m) (h : Keep m s₀ s) :
    Keep m s₀ (State.endEntry s status) := by
  unfold State.endEntry
  iterate 60 try any_goals first
    | with_reducible assumption
    | with_reducible refine State.setPwq_keep (Within.trans rfl hm) ?_
    | with_reducible refine State.raise_keep (Within.trans rfl hm) ?_
    | with_reducible refine State.bumpN_keep (Within.trans rfl hm) ?_
    | with_reducible refine State.confirm_keep (Within.trans rfl hm) ?_
    | split

theorem State.discardQueue_keep {m : Nat} {s₀ : State} {s : State} (hm : Within 209 m) (h : Keep m s₀ s) :
    Keep m s₀ (State.discardQueue s).2.2 := by
  unfold State.discardQueue
  iterate 60 try any_goals first
    | with_reducible assumption
    | with_reducible refine State.confirmAll_keep (Within.trans rfl hm) ?_
    | with_reducible refine State.unwait_keep (Within.trans rfl hm) ?_
    | with_reducible refine State.setPwq_keep (Within.trans rfl hm) ?_
    | with_reducible refine Keep.foldl (fun x a hx => ?_) _ ?_
    | with_reducible refine Keep.ite ?_ ?_
    | (intro hx)
    | split
    | with_reducible refine Keep.setVme ?_ (hm.bit 4 rfl)

theorem State.storeUnsent_keep {m : Nat} {s₀ : State} {s : State} {k : Nat} (hm : Within 128 m) (h : Keep m s₀ s) :
    Keep m s₀ (State.storeUnsent s k) := by
  unfold State.storeUnsent
  iterate 60 try any_goals first
    | with_reducible assumption
    | with_reducible refine State.setAgent_keep (Within.trans rfl hm) ?_

theorem State.issueAccess_keep {m : Nat} {s₀ : State} {s : State} {k : Nat} {a : Access} {p : Packet} {owner : TagOwner} {host : Bool} (hm : Within 8391363 m) (h : Keep m s₀ s) :
    Keep m s₀ (State.issueAccess s k a p owner host).st := by
  unfold State.issueAccess
  iterate 60 try any_goals first
    | with_reducible assumption
    | with_reducible refine State.originRefuse_keep (Within.trans rfl hm) ?_
    | with_reducible refine State.issueRec_keep (Within.trans rfl hm) ?_
    | with_reducible refine State.setAgent_keep (Within.trans rfl hm) ?_
    | with_reducible refine State.storeUnsent_keep (Within.trans rfl hm) ?_
    | with_reducible refine Keep.ite ?_ ?_
    | (intro hx)
    | (extract_lets +onlyGivenNames y; revert y; intro _)
    | split

theorem State.issueOp_keep {m : Nat} {s₀ : State} {s : State} {k : Nat} {cls : Nat} {op : Nat} {addr : Nat} {len : Nat} {payload : List Byte} {owner : TagOwner} {host : Bool} (hm : Within 8391363 m) (h : Keep m s₀ s) :
    Keep m s₀ (State.issueOp s k cls op addr len payload owner host).st := by
  unfold State.issueOp
  iterate 60 try any_goals first
    | with_reducible assumption
    | with_reducible refine State.issueAccess_keep (Within.trans rfl hm) ?_
    | with_reducible refine Keep.ite ?_ ?_

theorem State.answered_keep {m : Nat} {s₀ : State} {s : State} {k : Nat} {id : Nat} {r : TaskResult} (hm : Within 128 m) (h : Keep m s₀ s) :
    Keep m s₀ (State.answered s k id r) := by
  unfold State.answered
  iterate 60 try any_goals first
    | with_reducible assumption
    | with_reducible refine State.setAgent_keep (Within.trans rfl hm) ?_

theorem State.setWc_keep {m : Nat} {s₀ : State} {s : State} {w : List WcLine} (hm : Within 129 m) (h : Keep m s₀ s) :
    Keep m s₀ (State.setWc s w) := by
  unfold State.setWc
  iterate 60 try any_goals first
    | with_reducible assumption
    | with_reducible refine State.peak_keep (Within.trans rfl hm) ?_
    | with_reducible refine State.wr_keep (Within.trans rfl hm) ?_
    | with_reducible refine Keep.setOrd ?_ (hm.bit 7 rfl)

theorem State.flushEnded_keep {m : Nat} {s₀ : State} {s : State} {addr : Nat} {len : Nat} {status : Nat} {bytesDone : Nat} (hm : Within 2179 m) (h : Keep m s₀ s) :
    Keep m s₀ (State.flushEnded s addr len status bytesDone) := by
  unfold State.flushEnded
  iterate 60 try any_goals first
    | with_reducible assumption
    | with_reducible refine State.bumpN_keep (Within.trans rfl hm) ?_
    | with_reducible refine State.raise_keep (Within.trans rfl hm) ?_
    | with_reducible refine State.setAgent_keep (Within.trans rfl hm) ?_
    | with_reducible refine State.storeUnsent_keep (Within.trans rfl hm) ?_
    | with_reducible refine State.setWc_keep (Within.trans rfl hm) ?_
    | with_reducible refine Keep.foldl (fun x a hx => ?_) _ ?_
    | with_reducible refine Keep.ite ?_ ?_
    | (intro hx)
    | split

theorem State.noteNode_keep {m : Nat} {s₀ : State} {s : State} {node : Nat} {k : Nat} (hm : Within 128 m) (h : Keep m s₀ s) :
    Keep m s₀ (State.noteNode s node k) := by
  unfold State.noteNode
  iterate 60 try any_goals first
    | with_reducible assumption
    | with_reducible refine State.setAgent_keep (Within.trans rfl hm) ?_
    | with_reducible refine Keep.ite ?_ ?_
    | (intro hx)
    | split

theorem State.flushLine_keep {m : Nat} {s₀ : State} {s : State} {l : WcLine} (hm : Within 8391363 m) (h : Keep m s₀ s) :
    Keep m s₀ (State.flushLine s l) := by
  unfold State.flushLine
  iterate 60 try any_goals first
    | with_reducible assumption
    | with_reducible refine State.bump_keep (Within.trans rfl hm) ?_
    | with_reducible refine State.issueRec_keep (Within.trans rfl hm) ?_
    | with_reducible refine State.storeUnsent_keep (Within.trans rfl hm) ?_
    | with_reducible refine State.setWc_keep (Within.trans rfl hm) ?_
    | with_reducible refine State.flushEnded_keep (Within.trans rfl hm) ?_
    | with_reducible refine State.noteNode_keep (Within.trans rfl hm) ?_
    | with_reducible refine Keep.foldl (fun x a hx => ?_) _ ?_
    | with_reducible refine Keep.ite ?_ ?_
    | (intro hx)
    | (extract_lets +onlyGivenNames y; revert y; intro _)
    | split

theorem State.flushWhere_keep {m : Nat} {s₀ : State} {s : State} {p0 : WcLine → Bool} (hm : Within 8391363 m) (h : Keep m s₀ s) :
    Keep m s₀ (State.flushWhere s p0) := by
  unfold State.flushWhere
  iterate 60 try any_goals first
    | with_reducible assumption
    | with_reducible refine State.flushLine_keep (Within.trans rfl hm) ?_
    | with_reducible refine Keep.foldl (fun x a hx => ?_) _ ?_

theorem State.mergeLine_keep {m : Nat} {s₀ : State} {s : State} {k : Nat} {addr : Nat} {bs : List Byte} {p : State} (e : State.mergeLine s k addr bs = some p) (hm : Within 8391363 m) (h : Keep m s₀ s) :
    Keep m s₀ p := by
  have ha : ∀ (l : WcLine) x, Keep m s₀ x → Keep m s₀ (if l.count = 64 then x.flushLine l else x) := by
    intro l x hx
    split
    · exact State.flushLine_keep (Within.trans rfl hm) hx
    · exact hx
  unfold State.mergeLine at e
  extract_lets base put after l1 at e
  split at e
  · cases e
    exact ha _ _ (State.setWc_keep (Within.trans rfl hm) h)
  · split at e
    · cases e
      exact ha _ _ (State.setWc_keep (Within.trans rfl hm) h)
    · cases e

theorem State.makeRoom_keep {m : Nat} {s₀ : State} {s : State} (hm : Within 8391363 m) (h : Keep m s₀ s) :
    Keep m s₀ (State.makeRoom s) := by
  unfold State.makeRoom
  iterate 60 try any_goals first
    | with_reducible assumption
    | with_reducible refine State.flushLine_keep (Within.trans rfl hm) ?_
    | split

theorem State.mergeBytes_keep {m : Nat} {s₀ : State} {a0 : Nat} {a1 : Nat} {a2 : Nat} {a3 : List Byte} {a4 : State} (hm : Within 8391363 m) (h : Keep m s₀ a4) :
    Keep m s₀ (State.mergeBytes a0 a1 a2 a3 a4).2 := by
  induction a0 generalizing a1 a2 a3 a4 with
  | zero => unfold State.mergeBytes; first | exact h | (split <;> exact h)
  | succ n ih =>
    unfold State.mergeBytes
    iterate 60 try any_goals first
      | with_reducible assumption
      | with_reducible refine ih ?_
      | (have hx := State.mergeLine_keep (by with_reducible assumption) (Within.trans rfl hm) (by with_reducible assumption); with_reducible exact hx)
      | with_reducible refine State.makeRoom_keep (Within.trans rfl hm) ?_
      | (extract_lets +onlyGivenNames y; refine Keep.use (m := m) (s := s₀) (x := y) ?_ ?_; (focus (unfold y; clear y)); rotate_left; (focus (intro hy; clear_value y; revert y; intro _ _)))
      | (extract_lets +onlyGivenNames y; revert y; intro _)
      | split

theorem State.setExec_keep {m : Nat} {s₀ : State} {s : State} {d : Nat} {x : Exec} (hm : Within 64 m) (h : Keep m s₀ s) :
    Keep m s₀ (State.setExec s d x) := by
  unfold State.setExec
  iterate 60 try any_goals first
    | with_reducible assumption
    | with_reducible refine State.setDrover_keep (Within.trans rfl hm) ?_

theorem State.finishTask_keep {m : Nat} {s₀ : State} {s : State} {d : Nat} {status : Nat} {bytesDone : Nat} {payload : List Byte} (hm : Within 192 m) (h : Keep m s₀ s) :
    Keep m s₀ (State.finishTask s d status bytesDone payload) := by
  unfold State.finishTask
  iterate 60 try any_goals first
    | with_reducible assumption
    | with_reducible refine State.storeFailed_keep (Within.trans rfl hm) ?_
    | with_reducible refine State.endTask_keep (Within.trans rfl hm) ?_
    | split

theorem State.unlist_keep {m : Nat} {s₀ : State} {s : State} {d : Nat} (hm : Within 16 m) (h : Keep m s₀ s) :
    Keep m s₀ (State.unlist s d) := by
  unfold State.unlist
  iterate 60 try any_goals first
    | with_reducible assumption
    | split
    | with_reducible refine Keep.setVme ?_ (hm.bit 4 rfl)

theorem State.vmeEnd_keep {m : Nat} {s₀ : State} {s : State} {d : Nat} {status : Nat} {bytesDone : Nat} {payload : List Byte} (hm : Within 8390865 m) (h : Keep m s₀ s) :
    Keep m s₀ (State.vmeEnd s d status bytesDone payload) := by
  unfold State.vmeEnd
  iterate 60 try any_goals first
    | with_reducible assumption
    | with_reducible refine State.bump_keep (Within.trans rfl hm) ?_
    | with_reducible refine State.setJob_keep (Within.trans rfl hm) ?_
    | with_reducible refine State.taskBoundary_keep (Within.trans rfl hm) ?_
    | with_reducible refine State.setExec_keep (Within.trans rfl hm) ?_
    | with_reducible refine State.finishTask_keep (Within.trans rfl hm) ?_
    | with_reducible refine State.unlist_keep (Within.trans rfl hm) ?_
    | with_reducible refine Keep.ite ?_ ?_
    | (intro hx)
    | split

theorem State.countDegraded_keep {m : Nat} {s₀ : State} {s : State} {deg : Bool} (hm : Within 2049 m) (h : Keep m s₀ s) :
    Keep m s₀ (State.countDegraded s deg) := by
  unfold State.countDegraded
  iterate 60 try any_goals first
    | with_reducible assumption
    | with_reducible refine State.bump_keep (Within.trans rfl hm) ?_
    | with_reducible refine Keep.ite ?_ ?_
    | (intro hx)
    | split

theorem State.startJob_keep {m : Nat} {s₀ : State} {s : State} {d : Nat} {j : VJob} (hm : Within 8390865 m) (h : Keep m s₀ s) :
    Keep m s₀ (State.startJob s d j) := by
  unfold State.startJob
  iterate 60 try any_goals first
    | with_reducible assumption
    | with_reducible refine State.requestTenure_keep (Within.trans rfl hm) ?_
    | with_reducible refine State.setJob_keep (Within.trans rfl hm) ?_
    | with_reducible refine State.setExec_keep (Within.trans rfl hm) ?_
    | split

theorem State.passTenure_keep {m : Nat} {s₀ : State} {s : State} {d : Nat} (hm : Within 8390801 m) (h : Keep m s₀ s) :
    Keep m s₀ (State.passTenure s d) := by
  unfold State.passTenure
  iterate 60 try any_goals first
    | with_reducible assumption
    | with_reducible refine State.beginCycle_keep (Within.trans rfl hm) ?_
    | with_reducible refine State.idleBus_keep (Within.trans rfl hm) ?_
    | with_reducible refine Keep.ite ?_ ?_
    | (intro hx)
    | split
    | with_reducible refine Keep.setVme ?_ (hm.bit 4 rfl)

theorem State.waitQueue_keep {m : Nat} {s₀ : State} {s : State} {d : Nat} (hm : Within 8390865 m) (h : Keep m s₀ s) :
    Keep m s₀ (State.waitQueue s d) := by
  unfold State.waitQueue
  iterate 60 try any_goals first
    | with_reducible assumption
    | with_reducible refine State.passTenure_keep (Within.trans rfl hm) ?_
    | with_reducible refine State.setExec_keep (Within.trans rfl hm) ?_
    | split

theorem State.gatherLines_keep {m : Nat} {s₀ : State} {space : Nat} {ttl : Nat} {va : Nat} {len : Nat} {a4 : Nat} {counted : Bool} {a5 : List Byte} {a6 : State} (hm : Within 2179 m) (h : Keep m s₀ a6) :
    Keep m s₀ (State.gatherLines space ttl va len a4 counted a5 a6).2.2 := by
  induction a4 generalizing space ttl va len counted a5 a6 with
  | zero => unfold State.gatherLines; first | exact h | (split <;> exact h)
  | succ n ih =>
    unfold State.gatherLines
    iterate 60 try any_goals first
      | with_reducible assumption
      | with_reducible refine ih ?_
      | (have hx := State.lcLook_keep' (by with_reducible assumption) (Within.trans rfl hm) (by with_reducible assumption); with_reducible exact hx)
      | (extract_lets +onlyGivenNames y; revert y; intro _)
      | split

theorem State.nextPiece_keep {m : Nat} {s₀ : State} {a0 : Nat} {a1 : Nat} {a2 : State} (hm : Within 8390867 m) (h : Keep m s₀ a2) :
    Keep m s₀ (State.nextPiece a0 a1 a2) := by
  induction a0 generalizing a1 a2 with
  | zero => unfold State.nextPiece; first | exact h | (split <;> exact h)
  | succ n ih =>
    unfold State.nextPiece
    split
    · exact h
    · extract_lets +onlyGivenNames t
      clear_value t
      split
      · exact State.vmeEnd_keep (Within.trans rfl hm) h
      · extract_lets +onlyGivenNames l va
        split
        · exact State.vmeEnd_keep (Within.trans rfl hm) (State.raiseCap_keep (Within.trans rfl hm) h)
        extract_lets +onlyGivenNames dis refuse
        have hr : ∀ y, Keep m s₀ y → Keep m s₀ (refuse y) := by
          intro y hy
          unfold refuse
          split
          · exact State.vmeEnd_keep (Within.trans rfl hm) (State.raiseCap_keep (Within.trans rfl hm) hy)
          · exact State.vmeEnd_keep (Within.trans rfl hm) hy
        clear_value refuse dis va
        iterate 60 try any_goals first
          | with_reducible assumption
          | with_reducible refine ih ?_
          | with_reducible refine hr _ ?_
          | with_reducible refine State.vmeEnd_keep (Within.trans rfl hm) ?_
          | with_reducible refine State.setExec_keep (Within.trans rfl hm) ?_
          | with_reducible refine State.sramFault_keep (Within.trans rfl hm) ?_
          | with_reducible refine State.lcDrop_keep (Within.trans rfl hm) ?_
          | with_reducible refine State.gatherLines_keep (Within.trans rfl hm) ?_
          | with_reducible refine State.waitQueue_keep (Within.trans rfl hm) ?_
          | with_reducible refine State.countDegraded_keep (Within.trans rfl hm) ?_
          | with_reducible refine State.unlist_keep (Within.trans rfl hm) ?_
          | with_reducible refine State.startJob_keep (Within.trans rfl hm) ?_
          | with_reducible refine State.enterQueue_keep (Within.trans rfl hm) ?_
          | with_reducible refine Keep.ite ?_ ?_
          | (extract_lets +onlyGivenNames g; (have hg : Keep m s₀ g.2.2 := by (unfold g; split <;> first | assumption | exact State.gatherLines_keep (Within.trans rfl hm) h)); clear_value g)
          | (extract_lets +onlyGivenNames y; revert y; intro _)
          | split
          | with_reducible refine Keep.setVme ?_ (hm.bit 4 rfl)

theorem State.goPieces_keep {m : Nat} {s₀ : State} {s : State} {d : Nat} (hm : Within 8390867 m) (h : Keep m s₀ s) :
    Keep m s₀ (State.goPieces s d) := by
  unfold State.goPieces
  iterate 60 try any_goals first
    | with_reducible assumption
    | with_reducible refine State.nextPiece_keep (Within.trans rfl hm) ?_

theorem State.rmwPiece_keep {m : Nat} {s₀ : State} {s : State} {d : Nat} {x : Exec} (hm : Within 8390867 m) (h : Keep m s₀ s) :
    Keep m s₀ (State.rmwPiece s d x) := by
  unfold State.rmwPiece
  iterate 60 try any_goals first
    | with_reducible assumption
    | with_reducible refine State.raiseCap_keep (Within.trans rfl hm) ?_
    | with_reducible refine State.vmeEnd_keep (Within.trans rfl hm) ?_
    | with_reducible refine State.startJob_keep (Within.trans rfl hm) ?_
    | with_reducible refine State.waitQueue_keep (Within.trans rfl hm) ?_
    | with_reducible refine Keep.ite ?_ ?_
    | (intro hx)
    | split

theorem State.goVme_keep {m : Nat} {s₀ : State} {s : State} {d : Nat} (hm : Within 8390867 m) (h : Keep m s₀ s) :
    Keep m s₀ (State.goVme s d) := by
  unfold State.goVme
  iterate 60 try any_goals first
    | with_reducible assumption
    | with_reducible refine State.goPieces_keep (Within.trans rfl hm) ?_
    | with_reducible refine State.rmwPiece_keep (Within.trans rfl hm) ?_
    | split

theorem State.startVme_keep {m : Nat} {s₀ : State} {s : State} {d : Nat} (hm : Within 8390867 m) (h : Keep m s₀ s) :
    Keep m s₀ (State.startVme s d) := by
  unfold State.startVme
  iterate 60 try any_goals first
    | with_reducible assumption
    | with_reducible refine State.raiseCap_keep (Within.trans rfl hm) ?_
    | with_reducible refine State.setExec_keep (Within.trans rfl hm) ?_
    | with_reducible refine State.vmeEnd_keep (Within.trans rfl hm) ?_
    | with_reducible refine State.goVme_keep (Within.trans rfl hm) ?_
    | with_reducible refine Keep.ite ?_ ?_
    | (intro hx)
    | (extract_lets +onlyGivenNames y; revert y; intro _)
    | split

theorem State.retryOverlaps_keep {m : Nat} {s₀ : State} {s : State} (hm : Within 8390867 m) (h : Keep m s₀ s) :
    Keep m s₀ (State.retryOverlaps s) := by
  unfold State.retryOverlaps
  iterate 60 try any_goals first
    | with_reducible assumption
    | with_reducible refine State.goVme_keep (Within.trans rfl hm) ?_
    | with_reducible refine Keep.foldl (fun x a hx => ?_) _ ?_
    | split

theorem State.pieceEnded_keep {m : Nat} {s₀ : State} {s : State} {d : Nat} {status : Nat} (hm : Within 8390867 m) (h : Keep m s₀ s) :
    Keep m s₀ (State.pieceEnded s d status) := by
  unfold State.pieceEnded
  iterate 60 try any_goals first
    | with_reducible assumption
    | with_reducible refine State.takeClaim_keep (Within.trans rfl hm) ?_
    | with_reducible refine State.commitEnd_keep (Within.trans rfl hm) ?_
    | with_reducible refine State.lcInstall_keep (Within.trans rfl hm) ?_
    | with_reducible refine State.setJob_keep (Within.trans rfl hm) ?_
    | with_reducible refine State.setExec_keep (Within.trans rfl hm) ?_
    | with_reducible refine State.vmeEnd_keep (Within.trans rfl hm) ?_
    | with_reducible refine State.goPieces_keep (Within.trans rfl hm) ?_
    | with_reducible refine Keep.ite ?_ ?_
    | (intro hx)
    | split

end Sys2Proof.Machine
end

