-- ==== Sys2Proof/Laws/KeepVme.lean ====
section
/-! SUPPORT. What each operation of Vme, Interrupter, Inbound leaves alone and keeps: its footprint as a mask of units, and that it keeps
the memories canonical, the queue of commands and a recorder key once set (see Laws/Keep.lean). -/

namespace Sys2Proof.Machine

set_option maxRecDepth 4000

theorem State.setIh_keep {m : Nat} {s₀ : State} {s : State} {n : Nat} {l : IhLevel} (hm : Within 32 m) (h : Keep m s₀ s) :
    Keep m s₀ (State.setIh s n l) := by
  unfold State.setIh
  iterate 60 try any_goals first
    | with_reducible assumption
    | with_reducible refine Keep.setVin ?_ (hm.bit 5 rfl)

theorem State.ihCheck_keep {m : Nat} {s₀ : State} {s : State} (hm : Within 8390835 m) (h : Keep m s₀ s) :
    Keep m s₀ (State.ihCheck s) := by
  unfold State.ihCheck
  iterate 60 try any_goals first
    | with_reducible assumption
    | with_reducible refine State.raise_keep (Within.trans rfl hm) ?_
    | with_reducible refine State.requestTenure_keep (Within.trans rfl hm) ?_
    | with_reducible refine State.unwait_keep (Within.trans rfl hm) ?_
    | with_reducible refine Keep.ite ?_ ?_
    | (intro hx)
    | split
    | with_reducible refine Keep.setVme ?_ (hm.bit 4 rfl)
    | with_reducible refine Keep.setVin ?_ (hm.bit 5 rfl)

theorem State.rearm_keep {m : Nat} {s₀ : State} {s : State} {n : Nat} (hm : Within 8390835 m) (h : Keep m s₀ s) :
    Keep m s₀ (State.rearm s n) := by
  unfold State.rearm
  iterate 60 try any_goals first
    | with_reducible assumption
    | with_reducible refine State.ihCheck_keep (Within.trans rfl hm) ?_
    | with_reducible refine State.setIh_keep (Within.trans rfl hm) ?_
    | with_reducible refine Keep.ite ?_ ?_

theorem State.iackEnded_keep {m : Nat} {s₀ : State} {s : State} {vector : Option Nat} (hm : Within 25168371 m) (h : Keep m s₀ s) :
    Keep m s₀ (State.iackEnded s vector) := by
  unfold State.iackEnded
  iterate 60 try any_goals first
    | with_reducible assumption
    | with_reducible refine State.taskBoundary_keep (Within.trans rfl hm) ?_
    | with_reducible refine State.bump_keep (Within.trans rfl hm) ?_
    | with_reducible refine State.setIh_keep (Within.trans rfl hm) ?_
    | with_reducible refine State.setSource_keep (Within.trans rfl hm) ?_
    | with_reducible refine State.create_keep (Within.trans rfl hm) ?_
    | with_reducible refine State.raise_keep (Within.trans rfl hm) ?_
    | with_reducible refine State.ihCheck_keep (Within.trans rfl hm) ?_
    | split
    | with_reducible refine Keep.setVme ?_ (hm.bit 4 rfl)

theorem State.orphan_keep {m : Nat} {s₀ : State} {s : State} {d : Nat} (hm : Within 41728 m) (h : Keep m s₀ s) :
    Keep m s₀ (State.orphan s d) := by
  unfold State.orphan
  iterate 60 try any_goals first
    | with_reducible assumption
    | with_reducible refine Keep.setFold ?_ (hm.bit 8 rfl)
    | with_reducible refine Keep.setNet ?_ (hm.bit 9 rfl)
    | with_reducible refine Keep.setPort ?_ (hm.bit 13 rfl)
    | with_reducible refine Keep.setHost ?_ (hm.bit 15 rfl)

theorem State.detachResult_keep {m : Nat} {s₀ : State} {s : State} {t : Task} {r : TaskResult} (hm : Within 64 m) (h : Keep m s₀ s) :
    Keep m s₀ (State.detachResult s t r) := by
  unfold State.detachResult
  iterate 60 try any_goals first
    | with_reducible assumption
    | with_reducible refine State.markStile_keep (Within.trans rfl hm) ?_
    | with_reducible refine Keep.setDrv ?_ (hm.bit 6 rfl)

theorem State.revokeTask_keep {m : Nat} {s₀ : State} {s : State} {d : Nat} (hm : Within 16821203 m) (h : Keep m s₀ s) :
    Keep m s₀ (State.revokeTask s d) := by
  unfold State.revokeTask
  iterate 60 try any_goals first
    | with_reducible assumption
    | with_reducible refine State.bump_keep (Within.trans rfl hm) ?_
    | with_reducible refine State.dropExec_keep (Within.trans rfl hm) ?_
    | with_reducible refine State.storeFailed_keep (Within.trans rfl hm) ?_
    | with_reducible refine State.putTask_keep (Within.trans rfl hm) ?_
    | with_reducible refine State.events_keep (Within.trans rfl hm) ?_
    | with_reducible refine State.setJob_keep (Within.trans rfl hm) ?_
    | with_reducible refine State.orphan_keep (Within.trans rfl hm) ?_
    | with_reducible refine State.detachResult_keep (Within.trans rfl hm) ?_
    | with_reducible refine Keep.ite ?_ ?_
    | (intro hx)
    | split
    | with_reducible refine Keep.setVme ?_ (hm.bit 4 rfl)

theorem State.queueEnded_keep {m : Nat} {s₀ : State} {s : State} {status : Nat} (hm : Within 8390867 m) (h : Keep m s₀ s) :
    Keep m s₀ (State.queueEnded s status) := by
  unfold State.queueEnded
  iterate 60 try any_goals first
    | with_reducible assumption
    | with_reducible refine State.joinWait_keep (Within.trans rfl hm) ?_
    | with_reducible refine State.idleBus_keep (Within.trans rfl hm) ?_
    | with_reducible refine State.endEntry_keep (Within.trans rfl hm) ?_
    | with_reducible refine State.retryOverlaps_keep (Within.trans rfl hm) ?_
    | with_reducible refine Keep.ite ?_ ?_
    | (intro hx)
    | split
    | with_reducible refine Keep.setVme ?_ (hm.bit 4 rfl)

theorem State.ownerDone_keep {m : Nat} {s₀ : State} {r : State × VEnd} (hm : Within 25209843 m) (h : Keep m s₀ r.1) :
    Keep m s₀ (State.ownerDone r) := by
  unfold State.ownerDone
  iterate 60 try any_goals first
    | with_reducible assumption
    | with_reducible refine State.dropBus_keep (Within.trans rfl hm) ?_
    | with_reducible refine State.tenureNext_keep (Within.trans rfl hm) ?_
    | with_reducible refine State.revokeTask_keep (Within.trans rfl hm) ?_
    | with_reducible refine State.pieceEnded_keep (Within.trans rfl hm) ?_
    | with_reducible refine State.queueEnded_keep (Within.trans rfl hm) ?_
    | with_reducible refine State.iackEnded_keep (Within.trans rfl hm) ?_
    | split
    | with_reducible refine Keep.setVme ?_ (hm.bit 4 rfl)

theorem vmeDtackIn_keep {m : Nat} {s₀ : State} {data : List Byte} {s : State} (hm : Within 25209843 m) (h : Keep m s₀ s) :
    Keep m s₀ (vmeDtackIn data s) := by
  unfold vmeDtackIn
  iterate 60 try any_goals first
    | with_reducible assumption
    | with_reducible refine State.cycleDone_keep (Within.trans rfl hm) ?_
    | with_reducible refine State.tookEnd_keep (Within.trans rfl hm) ?_
    | with_reducible refine State.cycleLost_keep (Within.trans rfl hm) ?_
    | with_reducible refine State.iackEnded_keep (Within.trans rfl hm) ?_
    | with_reducible refine State.ownerDone_keep (Within.trans rfl hm) ?_
    | with_reducible refine Keep.ite ?_ ?_
    | (intro hx)
    | split
    | with_reducible refine Keep.setVme ?_ (hm.bit 4 rfl)

theorem vmeBerrOut_keep {m : Nat} {s₀ : State} {s : State} (hm : Within 25209843 m) (h : Keep m s₀ s) :
    Keep m s₀ (vmeBerrOut s) := by
  unfold vmeBerrOut
  iterate 60 try any_goals first
    | with_reducible assumption
    | with_reducible refine State.bump_keep (Within.trans rfl hm) ?_
    | with_reducible refine State.failJob_keep (Within.trans rfl hm) ?_
    | with_reducible refine State.tookEnd_keep (Within.trans rfl hm) ?_
    | with_reducible refine State.cycleLost_keep (Within.trans rfl hm) ?_
    | with_reducible refine State.ownerDone_keep (Within.trans rfl hm) ?_
    | with_reducible refine Keep.ite ?_ ?_
    | (intro hx)
    | split

theorem vmeRetryIn_keep {m : Nat} {s₀ : State} {s : State} (hm : Within 25209843 m) (h : Keep m s₀ s) :
    Keep m s₀ (vmeRetryIn s) := by
  unfold vmeRetryIn
  iterate 60 try any_goals first
    | with_reducible assumption
    | with_reducible refine State.bump_keep (Within.trans rfl hm) ?_
    | with_reducible refine State.tenureNext_keep (Within.trans rfl hm) ?_
    | with_reducible refine State.dropBus_keep (Within.trans rfl hm) ?_
    | with_reducible refine State.retryJob_keep (Within.trans rfl hm) ?_
    | with_reducible refine State.tookEnd_keep (Within.trans rfl hm) ?_
    | with_reducible refine State.cycleLost_keep (Within.trans rfl hm) ?_
    | with_reducible refine State.ihCheck_keep (Within.trans rfl hm) ?_
    | with_reducible refine State.ownerDone_keep (Within.trans rfl hm) ?_
    | split

theorem vmeRetryGap_keep {m : Nat} {s₀ : State} {owner : Nat} {s : State} (hm : Within 8390801 m) (h : Keep m s₀ s) :
    Keep m s₀ (vmeRetryGap owner s) := by
  unfold vmeRetryGap
  iterate 60 try any_goals first
    | with_reducible assumption
    | with_reducible refine State.requestTenure_keep (Within.trans rfl hm) ?_
    | with_reducible refine Keep.ite ?_ ?_
    | with_reducible refine Keep.setVme ?_ (hm.bit 4 rfl)

theorem vme2eEarlyEnd_keep {m : Nat} {s₀ : State} {s : State} (hm : Within 25209843 m) (h : Keep m s₀ s) :
    Keep m s₀ (vme2eEarlyEnd s) := by
  unfold vme2eEarlyEnd
  iterate 60 try any_goals first
    | with_reducible assumption
    | with_reducible refine State.leaveGap_keep (Within.trans rfl hm) ?_
    | with_reducible refine State.retryJob_keep (Within.trans rfl hm) ?_
    | with_reducible refine State.tookEnd_keep (Within.trans rfl hm) ?_
    | with_reducible refine State.ownerDone_keep (Within.trans rfl hm) ?_
    | with_reducible refine Keep.ite ?_ ?_
    | (intro hx)
    | split

theorem vmeDataTo_keep {m : Nat} {s₀ : State} {s : State} (hm : Within 25209843 m) (h : Keep m s₀ s) :
    Keep m s₀ (vmeDataTo s) := by
  unfold vmeDataTo
  iterate 60 try any_goals first
    | with_reducible assumption
    | with_reducible refine State.bump_keep (Within.trans rfl hm) ?_
    | with_reducible refine State.tenureNext_keep (Within.trans rfl hm) ?_
    | with_reducible refine State.dropBus_keep (Within.trans rfl hm) ?_
    | with_reducible refine State.failJob_keep (Within.trans rfl hm) ?_
    | with_reducible refine State.ownerDone_keep (Within.trans rfl hm) ?_
    | with_reducible refine Keep.ite ?_ ?_
    | (intro hx)
    | split

theorem vmeArbTo_keep {m : Nat} {s₀ : State} {s : State} (hm : Within 25209843 m) (h : Keep m s₀ s) :
    Keep m s₀ (vmeArbTo s) := by
  unfold vmeArbTo
  iterate 60 try any_goals first
    | with_reducible assumption
    | with_reducible refine State.bump_keep (Within.trans rfl hm) ?_
    | with_reducible refine State.raise_keep (Within.trans rfl hm) ?_
    | with_reducible refine State.tenureNext_keep (Within.trans rfl hm) ?_
    | with_reducible refine State.failJob_keep (Within.trans rfl hm) ?_
    | with_reducible refine State.unwait_keep (Within.trans rfl hm) ?_
    | with_reducible refine State.ownerDone_keep (Within.trans rfl hm) ?_
    | with_reducible refine Keep.ite ?_ ?_
    | (intro hx)
    | split

theorem pwqSpaceFree_keep {m : Nat} {s₀ : State} {s : State} (hm : Within 8390867 m) (h : Keep m s₀ s) :
    Keep m s₀ (pwqSpaceFree s) := by
  unfold pwqSpaceFree
  iterate 60 try any_goals first
    | with_reducible assumption
    | with_reducible refine State.goVme_keep (Within.trans rfl hm) ?_
    | with_reducible refine Keep.ite ?_ ?_
    | (intro hx)
    | split
    | with_reducible refine Keep.setVme ?_ (hm.bit 4 rfl)

theorem vmeBrOther_keep {m : Nat} {s₀ : State} {level : Nat} {asserted : Bool} {s : State} (hm : Within 8390801 m) (h : Keep m s₀ s) :
    Keep m s₀ (vmeBrOther level asserted s) := by
  unfold vmeBrOther
  iterate 60 try any_goals first
    | with_reducible assumption
    | with_reducible refine State.idleBus_keep (Within.trans rfl hm) ?_
    | split
    | with_reducible refine Keep.setVme ?_ (hm.bit 4 rfl)

theorem vmeBclrIn_keep {m : Nat} {s₀ : State} {s : State} (hm : Within 8390801 m) (h : Keep m s₀ s) :
    Keep m s₀ (vmeBclrIn s) := by
  unfold vmeBclrIn
  iterate 60 try any_goals first
    | with_reducible assumption
    | with_reducible refine State.idleBus_keep (Within.trans rfl hm) ?_
    | split
    | with_reducible refine Keep.setVme ?_ (hm.bit 4 rfl)

theorem fairRequest_keep {m : Nat} {s₀ : State} {s : State} (hm : Within 16 m) (h : Keep m s₀ s) :
    Keep m s₀ (fairRequest s) := by
  unfold fairRequest
  iterate 60 try any_goals first
    | with_reducible assumption
    | with_reducible refine State.askBus_keep (Within.trans rfl hm) ?_
    | with_reducible refine Keep.ite ?_ ?_

theorem vmeArbiterGrant_keep {m : Nat} {s₀ : State} {busy : Bool} {s : State} (hm : Within 8390801 m) (h : Keep m s₀ s) :
    Keep m s₀ (vmeArbiterGrant busy s) := by
  unfold vmeArbiterGrant
  iterate 60 try any_goals first
    | with_reducible assumption
    | with_reducible refine State.emit_keep (Within.trans rfl hm) ?_
    | with_reducible refine State.takeGrant_keep (Within.trans rfl hm) ?_
    | with_reducible refine Keep.ite ?_ ?_
    | (intro hx)
    | split
    | with_reducible refine Keep.setVme ?_ (hm.bit 4 rfl)

theorem vmeGrantTo_keep {m : Nat} {s₀ : State} {s : State} (hm : Within 8390801 m) (h : Keep m s₀ s) :
    Keep m s₀ (vmeGrantTo s) := by
  unfold vmeGrantTo
  iterate 60 try any_goals first
    | with_reducible assumption
    | with_reducible refine vmeArbiterGrant_keep (Within.trans rfl hm) ?_
    | with_reducible refine Keep.ite ?_ ?_
    | with_reducible refine Keep.setVme ?_ (hm.bit 4 rfl)

theorem arbiterBclr_keep {m : Nat} {s₀ : State} {held : Bool} {s : State} (hm : Within 8390801 m) (h : Keep m s₀ s) :
    Keep m s₀ (arbiterBclr held s) := by
  unfold arbiterBclr
  iterate 60 try any_goals first
    | with_reducible assumption
    | with_reducible refine vmeBclrIn_keep (Within.trans rfl hm) ?_
    | with_reducible refine Keep.ite ?_ ?_
    | with_reducible refine Keep.setVme ?_ (hm.bit 4 rfl)

theorem vmeBtoOut_keep {m : Nat} {s₀ : State} {s : State} (hm : Within 25209843 m) (h : Keep m s₀ s) :
    Keep m s₀ (vmeBtoOut s) := by
  unfold vmeBtoOut
  iterate 60 try any_goals first
    | with_reducible assumption
    | with_reducible refine State.bump_keep (Within.trans rfl hm) ?_
    | with_reducible refine State.emit_keep (Within.trans rfl hm) ?_
    | with_reducible refine State.failJob_keep (Within.trans rfl hm) ?_
    | with_reducible refine State.ownerDone_keep (Within.trans rfl hm) ?_
    | with_reducible refine Keep.ite ?_ ?_
    | (intro hx)
    | split

theorem State.sysrstPulse_keep {m : Nat} {s₀ : State} {s : State} (hm : Within 8388624 m) (h : Keep m s₀ s) :
    Keep m s₀ (State.sysrstPulse s) := by
  unfold State.sysrstPulse
  iterate 60 try any_goals first
    | with_reducible assumption
    | with_reducible refine State.emit_keep (Within.trans rfl hm) ?_
    | with_reducible refine Keep.ite ?_ ?_
    | with_reducible refine Keep.setVme ?_ (hm.bit 4 rfl)

theorem sysrstPulseEnd_keep {m : Nat} {s₀ : State} {s : State} (hm : Within 8388624 m) (h : Keep m s₀ s) :
    Keep m s₀ (sysrstPulseEnd s) := by
  unfold sysrstPulseEnd
  iterate 60 try any_goals first
    | with_reducible assumption
    | with_reducible refine State.emit_keep (Within.trans rfl hm) ?_
    | with_reducible refine Keep.ite ?_ ?_
    | with_reducible refine Keep.setVme ?_ (hm.bit 4 rfl)

theorem State.ackMessage_keep {m : Nat} {s₀ : State} {s : State} {p : Packet} (hm : Within 8391169 m) (h : Keep m s₀ s) :
    Keep m s₀ (State.ackMessage s p) := by
  unfold State.ackMessage
  iterate 60 try any_goals first
    | with_reducible assumption
    | with_reducible refine State.takenPush_keep (Within.trans rfl hm) ?_
    | with_reducible refine State.injectAnswer_keep (Within.trans rfl hm) ?_
    | with_reducible refine Keep.ite ?_ ?_
    | (intro hx)
    | split

theorem State.completeVector_keep {m : Nat} {s₀ : State} {s : State} {v : IntrVector} {status : Nat} (hm : Within 8391361 m) (h : Keep m s₀ s) :
    Keep m s₀ (State.completeVector s v status) := by
  unfold State.completeVector
  iterate 60 try any_goals first
    | with_reducible assumption
    | with_reducible refine State.storeFailed_keep (Within.trans rfl hm) ?_
    | with_reducible refine State.detachResult_keep (Within.trans rfl hm) ?_
    | with_reducible refine State.ackMessage_keep (Within.trans rfl hm) ?_
    | split

theorem State.setVectors_keep {m : Nat} {s₀ : State} {s : State} {vs : List IntrVector} (hm : Within 8395297 m) (h : Keep m s₀ s) :
    Keep m s₀ (State.setVectors s vs) := by
  unfold State.setVectors
  iterate 60 try any_goals first
    | with_reducible assumption
    | with_reducible refine State.wr_keep (Within.trans rfl hm) ?_
    | with_reducible refine State.mirror_keep (Within.trans rfl hm) ?_
    | with_reducible refine Keep.ite ?_ ?_
    | with_reducible refine Keep.setVin ?_ (hm.bit 5 rfl)

theorem State.setIrq_keep {m : Nat} {s₀ : State} {s : State} {b : Bool} (hm : Within 32 m) (h : Keep m s₀ s) :
    Keep m s₀ (State.setIrq s b) := by
  unfold State.setIrq
  iterate 60 try any_goals first
    | with_reducible assumption
    | with_reducible refine Keep.setVin ?_ (hm.bit 5 rfl)

theorem State.fillVectors_keep {m : Nat} {s₀ : State} {a0 : Nat} {a1 : State} (hm : Within 8395297 m) (h : Keep m s₀ a1) :
    Keep m s₀ (State.fillVectors a0 a1) := by
  induction a0 generalizing a1 with
  | zero => unfold State.fillVectors; first | exact h | (split <;> exact h)
  | succ n ih =>
    unfold State.fillVectors
    iterate 60 try any_goals first
      | with_reducible assumption
      | with_reducible refine ih ?_
      | with_reducible refine State.setIrq_keep (Within.trans rfl hm) ?_
      | with_reducible refine State.setVectors_keep (Within.trans rfl hm) ?_
      | split
      | with_reducible refine Keep.setVin ?_ (hm.bit 5 rfl)

theorem State.raiseVector_keep {m : Nat} {s₀ : State} {s : State} {v : IntrVector} (hm : Within 8395489 m) (h : Keep m s₀ s) :
    Keep m s₀ (State.raiseVector s v) := by
  unfold State.raiseVector
  iterate 60 try any_goals first
    | with_reducible assumption
    | with_reducible refine State.completeVector_keep (Within.trans rfl hm) ?_
    | with_reducible refine State.setVectors_keep (Within.trans rfl hm) ?_
    | with_reducible refine State.setIrq_keep (Within.trans rfl hm) ?_
    | with_reducible refine Keep.ite ?_ ?_
    | (intro hx)
    | split
    | with_reducible refine Keep.setVin ?_ (hm.bit 5 rfl)

theorem State.dropVector_keep {m : Nat} {s₀ : State} {s : State} {v : IntrVector} (hm : Within 8395297 m) (h : Keep m s₀ s) :
    Keep m s₀ (State.dropVector s v) := by
  unfold State.dropVector
  iterate 60 try any_goals first
    | with_reducible assumption
    | with_reducible refine State.setVectors_keep (Within.trans rfl hm) ?_
    | with_reducible refine State.fillVectors_keep (Within.trans rfl hm) ?_

theorem interrupterIack_keep {m : Nat} {s₀ : State} {level : Nat} {width : Nat} {s : State} (hm : Within 8395489 m) (h : Keep m s₀ s) :
    Keep m s₀ (interrupterIack level width s) := by
  unfold interrupterIack
  iterate 60 try any_goals first
    | with_reducible assumption
    | with_reducible refine State.bump_keep (Within.trans rfl hm) ?_
    | with_reducible refine State.emit_keep (Within.trans rfl hm) ?_
    | with_reducible refine State.completeVector_keep (Within.trans rfl hm) ?_
    | with_reducible refine State.setVectors_keep (Within.trans rfl hm) ?_
    | with_reducible refine State.setIrq_keep (Within.trans rfl hm) ?_
    | with_reducible refine State.dropVector_keep (Within.trans rfl hm) ?_
    | with_reducible refine Keep.ite ?_ ?_
    | (intro hx)
    | split
    | with_reducible refine Keep.setVin ?_ (hm.bit 5 rfl)

theorem intrReassert_keep {m : Nat} {s₀ : State} {s : State} (hm : Within 32 m) (h : Keep m s₀ s) :
    Keep m s₀ (intrReassert s) := by
  unfold intrReassert
  iterate 60 try any_goals first
    | with_reducible assumption
    | with_reducible refine State.setIrq_keep (Within.trans rfl hm) ?_
    | with_reducible refine Keep.ite ?_ ?_
    | (intro hx)
    | split
    | with_reducible refine Keep.setVin ?_ (hm.bit 5 rfl)

theorem State.roraRelease_keep {m : Nat} {s₀ : State} {s : State} (hm : Within 8395489 m) (h : Keep m s₀ s) :
    Keep m s₀ (State.roraRelease s) := by
  unfold State.roraRelease
  iterate 60 try any_goals first
    | with_reducible assumption
    | with_reducible refine State.completeVector_keep (Within.trans rfl hm) ?_
    | with_reducible refine State.setIrq_keep (Within.trans rfl hm) ?_
    | with_reducible refine State.dropVector_keep (Within.trans rfl hm) ?_
    | split

theorem vmeIrqNoack_keep {m : Nat} {s₀ : State} {s : State} (hm : Within 8395491 m) (h : Keep m s₀ s) :
    Keep m s₀ (vmeIrqNoack s) := by
  unfold vmeIrqNoack
  iterate 60 try any_goals first
    | with_reducible assumption
    | with_reducible refine State.completeVector_keep (Within.trans rfl hm) ?_
    | with_reducible refine State.raise_keep (Within.trans rfl hm) ?_
    | with_reducible refine State.dropVector_keep (Within.trans rfl hm) ?_
    | with_reducible refine State.setIrq_keep (Within.trans rfl hm) ?_
    | split

theorem vmeIrqIn_keep {m : Nat} {s₀ : State} {level : Nat} {asserted : Bool} {s : State} (hm : Within 8390835 m) (h : Keep m s₀ s) :
    Keep m s₀ (vmeIrqIn level asserted s) := by
  unfold vmeIrqIn
  iterate 60 try any_goals first
    | with_reducible assumption
    | with_reducible refine State.ihCheck_keep (Within.trans rfl hm) ?_
    | with_reducible refine State.setIh_keep (Within.trans rfl hm) ?_
    | with_reducible refine Keep.ite ?_ ?_

theorem vmeRoakRearm_keep {m : Nat} {s₀ : State} {level : Nat} {s : State} (hm : Within 8390835 m) (h : Keep m s₀ s) :
    Keep m s₀ (vmeRoakRearm level s) := by
  unfold vmeRoakRearm
  iterate 60 try any_goals first
    | with_reducible assumption
    | with_reducible refine State.rearm_keep (Within.trans rfl hm) ?_
    | with_reducible refine State.setIh_keep (Within.trans rfl hm) ?_
    | with_reducible refine Keep.ite ?_ ?_

theorem vmeRoraRearm_keep {m : Nat} {s₀ : State} {level : Nat} {s : State} (hm : Within 8390835 m) (h : Keep m s₀ s) :
    Keep m s₀ (vmeRoraRearm level s) := by
  unfold vmeRoraRearm
  iterate 60 try any_goals first
    | with_reducible assumption
    | with_reducible refine State.rearm_keep (Within.trans rfl hm) ?_
    | with_reducible refine State.setIh_keep (Within.trans rfl hm) ?_
    | with_reducible refine Keep.ite ?_ ?_

theorem State.setSlot_keep {m : Nat} {s₀ : State} {s : State} {i : Nat} {r : Option RSlot} (hm : Within 32 m) (h : Keep m s₀ s) :
    Keep m s₀ (State.setSlot s i r) := by
  unfold State.setSlot
  iterate 60 try any_goals first
    | with_reducible assumption
    | with_reducible refine Keep.setVin ?_ (hm.bit 5 rfl)

theorem State.setCyc_keep {m : Nat} {s₀ : State} {s : State} {c : Option InCycle} (hm : Within 32 m) (h : Keep m s₀ s) :
    Keep m s₀ (State.setCyc s c) := by
  unfold State.setCyc
  iterate 60 try any_goals first
    | with_reducible assumption
    | with_reducible refine Keep.setVin ?_ (hm.bit 5 rfl)

theorem State.setIpwq_keep {m : Nat} {s₀ : State} {s : State} {q : List IpwqEntry} (hm : Within 33 m) (h : Keep m s₀ s) :
    Keep m s₀ (State.setIpwq s q) := by
  unfold State.setIpwq
  iterate 60 try any_goals first
    | with_reducible assumption
    | with_reducible refine State.peak_keep (Within.trans rfl hm) ?_
    | with_reducible refine State.wr_keep (Within.trans rfl hm) ?_
    | with_reducible refine Keep.setVin ?_ (hm.bit 5 rfl)

theorem State.giveBerr_keep {m : Nat} {s₀ : State} {s : State} {c : InCycle} (hm : Within 8390817 m) (h : Keep m s₀ s) :
    Keep m s₀ (State.giveBerr s c) := by
  unfold State.giveBerr
  iterate 60 try any_goals first
    | with_reducible assumption
    | with_reducible refine State.bump_keep (Within.trans rfl hm) ?_
    | with_reducible refine State.emit_keep (Within.trans rfl hm) ?_
    | with_reducible refine State.exception_keep (Within.trans rfl hm) ?_
    | with_reducible refine State.setCyc_keep (Within.trans rfl hm) ?_
    | split

theorem State.giveRetry_keep {m : Nat} {s₀ : State} {s : State} {c : InCycle} (hm : Within 8390689 m) (h : Keep m s₀ s) :
    Keep m s₀ (State.giveRetry s c) := by
  unfold State.giveRetry
  iterate 60 try any_goals first
    | with_reducible assumption
    | with_reducible refine State.bump_keep (Within.trans rfl hm) ?_
    | with_reducible refine State.emit_keep (Within.trans rfl hm) ?_
    | with_reducible refine State.setCyc_keep (Within.trans rfl hm) ?_
    | split

theorem vmeInAs_keep {m : Nat} {s₀ : State} {am : Nat} {xam : Nat} {addr : Nat} {write : Bool} {rmw : Bool} {size : Nat} {beats : Nat} {s : State} (hm : Within 32 m) (h : Keep m s₀ s) :
    Keep m s₀ (vmeInAs am xam addr write rmw size beats s) := by
  unfold vmeInAs
  iterate 60 try any_goals first
    | with_reducible assumption
    | with_reducible refine State.setCyc_keep (Within.trans rfl hm) ?_
    | with_reducible refine Keep.ite ?_ ?_
    | (intro hx)
    | split

theorem State.postEntry_keep {m : Nat} {s₀ : State} {s : State} {lensNo : Nat} {vaddr : Nat} {faddr : Nat} {data : List Byte} (hm : Within 16779747 m) (h : Keep m s₀ s) :
    Keep m s₀ (State.postEntry s lensNo vaddr faddr data) := by
  unfold State.postEntry
  iterate 60 try any_goals first
    | with_reducible assumption
    | with_reducible refine State.create_keep (Within.trans rfl hm) ?_
    | with_reducible refine State.setIpwq_keep (Within.trans rfl hm) ?_
    | with_reducible refine Keep.ite ?_ ?_
    | (intro hx)
    | split
    | with_reducible refine Keep.setVin ?_ (hm.bit 5 rfl)

theorem State.flushGather_keep {m : Nat} {s₀ : State} {s : State} {c : InCycle} (hm : Within 16779747 m) (h : Keep m s₀ s) :
    Keep m s₀ (State.flushGather s c) := by
  unfold State.flushGather
  iterate 60 try any_goals first
    | with_reducible assumption
    | with_reducible refine State.postEntry_keep (Within.trans rfl hm) ?_
    | with_reducible refine State.setCyc_keep (Within.trans rfl hm) ?_
    | with_reducible refine Keep.ite ?_ ?_

theorem State.ackBeat_keep {m : Nat} {s₀ : State} {s : State} {c : InCycle} {data : List Byte} (hm : Within 25168355 m) (h : Keep m s₀ s) :
    Keep m s₀ (State.ackBeat s c data) := by
  unfold State.ackBeat
  iterate 60 try any_goals first
    | with_reducible assumption
    | with_reducible refine State.emit_keep (Within.trans rfl hm) ?_
    | with_reducible refine State.setCyc_keep (Within.trans rfl hm) ?_
    | with_reducible refine State.bump_keep (Within.trans rfl hm) ?_
    | with_reducible refine State.flushGather_keep (Within.trans rfl hm) ?_
    | with_reducible refine Keep.ite ?_ ?_

theorem State.acceptPosted_keep {m : Nat} {s₀ : State} {s : State} {c : InCycle} {data : List Byte} (hm : Within 25168355 m) (h : Keep m s₀ s) :
    Keep m s₀ (State.acceptPosted s c data) := by
  unfold State.acceptPosted
  iterate 60 try any_goals first
    | with_reducible assumption
    | with_reducible refine State.flushGather_keep (Within.trans rfl hm) ?_
    | with_reducible refine State.ackBeat_keep (Within.trans rfl hm) ?_
    | with_reducible refine State.postEntry_keep (Within.trans rfl hm) ?_
    | with_reducible refine Keep.ite ?_ ?_

theorem State.serveRead_keep {m : Nat} {s₀ : State} {s : State} {c : InCycle} (hm : Within 25168355 m) (h : Keep m s₀ s) :
    Keep m s₀ (State.serveRead s c) := by
  unfold State.serveRead
  iterate 60 try any_goals first
    | with_reducible assumption
    | with_reducible refine State.free_keep (Within.trans rfl hm) ?_
    | with_reducible refine State.capture_keep (Within.trans rfl hm) ?_
    | with_reducible refine State.setSlot_keep (Within.trans rfl hm) ?_
    | with_reducible refine State.setCyc_keep (Within.trans rfl hm) ?_
    | with_reducible refine State.giveBerr_keep (Within.trans rfl hm) ?_
    | with_reducible refine State.giveRetry_keep (Within.trans rfl hm) ?_
    | with_reducible refine State.ackBeat_keep (Within.trans rfl hm) ?_
    | with_reducible refine Keep.foldl (fun x a hx => ?_) _ ?_
    | with_reducible refine Keep.ite ?_ ?_
    | (intro hx)
    | split

theorem vmeInDataStrobe_keep {m : Nat} {s₀ : State} {wphase : Bool} {data : List Byte} {s : State} (hm : Within 25168355 m) (h : Keep m s₀ s) :
    Keep m s₀ (vmeInDataStrobe wphase data s) := by
  unfold vmeInDataStrobe
  iterate 60 try any_goals first
    | with_reducible assumption
    | with_reducible refine State.setCyc_keep (Within.trans rfl hm) ?_
    | with_reducible refine State.acceptPosted_keep (Within.trans rfl hm) ?_
    | with_reducible refine State.serveRead_keep (Within.trans rfl hm) ?_
    | with_reducible refine Keep.ite ?_ ?_
    | (intro hx)
    | split

theorem State.lensDecision_keep {m : Nat} {s₀ : State} {s : State} (hm : Within 8390819 m) (h : Keep m s₀ s) :
    Keep m s₀ (State.lensDecision s) := by
  unfold State.lensDecision
  iterate 60 try any_goals first
    | with_reducible assumption
    | with_reducible refine State.bump_keep (Within.trans rfl hm) ?_
    | with_reducible refine State.raiseCap_keep (Within.trans rfl hm) ?_
    | with_reducible refine State.setCyc_keep (Within.trans rfl hm) ?_
    | with_reducible refine State.giveBerr_keep (Within.trans rfl hm) ?_
    | with_reducible refine Keep.ite ?_ ?_
    | (intro hx)
    | (extract_lets +onlyGivenNames y; revert y; intro _)
    | split

theorem vmeInLensDecision_keep {m : Nat} {s₀ : State} {s : State} (hm : Within 25168355 m) (h : Keep m s₀ s) :
    Keep m s₀ (vmeInLensDecision s) := by
  unfold vmeInLensDecision
  iterate 60 try any_goals first
    | with_reducible assumption
    | with_reducible refine State.setCyc_keep (Within.trans rfl hm) ?_
    | with_reducible refine vmeInDataStrobe_keep (Within.trans rfl hm) ?_
    | with_reducible refine State.lensDecision_keep (Within.trans rfl hm) ?_
    | with_reducible refine Keep.ite ?_ ?_
    | (intro hx)
    | (extract_lets +onlyGivenNames y; revert y; intro _)
    | split

theorem vmeInQueueSpace_keep {m : Nat} {s₀ : State} {s : State} (hm : Within 25168355 m) (h : Keep m s₀ s) :
    Keep m s₀ (vmeInQueueSpace s) := by
  unfold vmeInQueueSpace
  iterate 60 try any_goals first
    | with_reducible assumption
    | with_reducible refine State.acceptPosted_keep (Within.trans rfl hm) ?_
    | split

theorem State.takeSlot_keep {m : Nat} {s₀ : State} {s : State} {c : InCycle} {i : Nat} (hm : Within 32 m) (h : Keep m s₀ s) :
    Keep m s₀ (State.takeSlot s c i).1 := by
  unfold State.takeSlot
  iterate 60 try any_goals first
    | with_reducible assumption
    | with_reducible refine State.setSlot_keep (Within.trans rfl hm) ?_

theorem State.writeResult_keep {m : Nat} {s₀ : State} {s : State} {c : InCycle} {status : Nat} (hm : Within 25168355 m) (h : Keep m s₀ s) :
    Keep m s₀ (State.writeResult s c status) := by
  unfold State.writeResult
  iterate 60 try any_goals first
    | with_reducible assumption
    | with_reducible refine State.ackBeat_keep (Within.trans rfl hm) ?_
    | with_reducible refine State.raiseCap_keep (Within.trans rfl hm) ?_
    | with_reducible refine State.giveBerr_keep (Within.trans rfl hm) ?_
    | with_reducible refine State.giveRetry_keep (Within.trans rfl hm) ?_
    | with_reducible refine State.free_keep (Within.trans rfl hm) ?_
    | with_reducible refine State.capture_keep (Within.trans rfl hm) ?_
    | with_reducible refine Keep.ite ?_ ?_

theorem State.discardSlot_keep {m : Nat} {s₀ : State} {s : State} {i : Nat} (hm : Within 32 m) (h : Keep m s₀ s) :
    Keep m s₀ (State.discardSlot s i) := by
  unfold State.discardSlot
  iterate 60 try any_goals first
    | with_reducible assumption
    | with_reducible refine State.setSlot_keep (Within.trans rfl hm) ?_
    | split

theorem State.deliverSlots_keep {m : Nat} {s₀ : State} {a0 : Nat} {a1 : State} (hm : Within 25168355 m) (h : Keep m s₀ a1) :
    Keep m s₀ (State.deliverSlots a0 a1) := by
  induction a0 generalizing a1 with
  | zero => unfold State.deliverSlots; first | exact h | (split <;> exact h)
  | succ n ih =>
    unfold State.deliverSlots
    iterate 60 try any_goals first
      | with_reducible assumption
      | with_reducible refine ih ?_
      | with_reducible refine State.discardSlot_keep (Within.trans rfl hm) ?_
      | with_reducible refine State.takeSlot_keep (Within.trans rfl hm) ?_
      | with_reducible refine State.writeResult_keep (Within.trans rfl hm) ?_
      | with_reducible refine State.serveRead_keep (Within.trans rfl hm) ?_
      | with_reducible refine State.setSlot_keep (Within.trans rfl hm) ?_
      | with_reducible refine Keep.foldl (fun x a hx => ?_) _ ?_
      | with_reducible refine Keep.ite ?_ ?_
      | split

theorem vmeInRingResult_keep {m : Nat} {s₀ : State} {slot : Nat} {s : State} (hm : Within 25168355 m) (h : Keep m s₀ s) :
    Keep m s₀ (vmeInRingResult slot s) := by
  unfold vmeInRingResult
  iterate 60 try any_goals first
    | with_reducible assumption
    | with_reducible refine State.deliverSlots_keep (Within.trans rfl hm) ?_
    | split

theorem vmeInSplitIssue_keep {m : Nat} {s₀ : State} {s : State} (hm : Within 25168355 m) (h : Keep m s₀ s) :
    Keep m s₀ (vmeInSplitIssue s) := by
  unfold vmeInSplitIssue
  iterate 60 try any_goals first
    | with_reducible assumption
    | with_reducible refine State.create_keep (Within.trans rfl hm) ?_
    | with_reducible refine State.setSlot_keep (Within.trans rfl hm) ?_
    | with_reducible refine State.setCyc_keep (Within.trans rfl hm) ?_
    | with_reducible refine State.deliverSlots_keep (Within.trans rfl hm) ?_
    | with_reducible refine Keep.ite ?_ ?_
    | (intro hx)
    | split

theorem State.slaveResult_keep {m : Nat} {s₀ : State} {s : State} {t : Task} {r : TaskResult} (hm : Within 32 m) (h : Keep m s₀ s) :
    Keep m s₀ (State.slaveResult s t r) := by
  unfold State.slaveResult
  iterate 60 try any_goals first
    | with_reducible assumption
    | with_reducible refine State.setSlot_keep (Within.trans rfl hm) ?_
    | with_reducible refine Keep.ite ?_ ?_
    | (intro hx)
    | split
    | with_reducible refine Keep.setVin ?_ (hm.bit 5 rfl)

theorem State.letGo_keep {m : Nat} {s₀ : State} {s : State} {c : InCycle} (hm : Within 32 m) (h : Keep m s₀ s) :
    Keep m s₀ (State.letGo s c) := by
  unfold State.letGo
  iterate 60 try any_goals first
    | with_reducible assumption
    | with_reducible refine State.setSlot_keep (Within.trans rfl hm) ?_
    | with_reducible refine Keep.foldl (fun x a hx => ?_) _ ?_
    | split

theorem State.landedFirst_keep {m : Nat} {s₀ : State} {s : State} (hm : Within 25168355 m) (h : Keep m s₀ s) :
    Keep m s₀ (State.landedFirst s) := by
  unfold State.landedFirst
  iterate 60 try any_goals first
    | with_reducible assumption
    | with_reducible refine State.acceptPosted_keep (Within.trans rfl hm) ?_
    | with_reducible refine State.deliverSlots_keep (Within.trans rfl hm) ?_
    | with_reducible refine Keep.ite ?_ ?_
    | (intro hx)
    | split

theorem vmeHoldTo_keep {m : Nat} {s₀ : State} {s : State} (hm : Within 25168355 m) (h : Keep m s₀ s) :
    Keep m s₀ (vmeHoldTo s) := by
  unfold vmeHoldTo
  iterate 60 try any_goals first
    | with_reducible assumption
    | with_reducible refine State.bump_keep (Within.trans rfl hm) ?_
    | with_reducible refine State.raiseCap_keep (Within.trans rfl hm) ?_
    | with_reducible refine State.giveBerr_keep (Within.trans rfl hm) ?_
    | with_reducible refine State.giveRetry_keep (Within.trans rfl hm) ?_
    | with_reducible refine State.letGo_keep (Within.trans rfl hm) ?_
    | with_reducible refine State.landedFirst_keep (Within.trans rfl hm) ?_
    | with_reducible refine Keep.ite ?_ ?_
    | (intro hx)
    | (extract_lets +onlyGivenNames y; revert y; intro _)
    | split

theorem vmeInYield_keep {m : Nat} {s₀ : State} {s : State} (hm : Within 25168355 m) (h : Keep m s₀ s) :
    Keep m s₀ (vmeInYield s) := by
  unfold vmeInYield
  iterate 60 try any_goals first
    | with_reducible assumption
    | with_reducible refine State.giveRetry_keep (Within.trans rfl hm) ?_
    | with_reducible refine State.letGo_keep (Within.trans rfl hm) ?_
    | with_reducible refine State.landedFirst_keep (Within.trans rfl hm) ?_
    | with_reducible refine Keep.ite ?_ ?_
    | (intro hx)
    | (extract_lets +onlyGivenNames y; revert y; intro _)
    | split

theorem vmeInAbandon_keep {m : Nat} {s₀ : State} {berr : Bool} {s : State} (hm : Within 16779747 m) (h : Keep m s₀ s) :
    Keep m s₀ (vmeInAbandon berr s) := by
  unfold vmeInAbandon
  iterate 60 try any_goals first
    | with_reducible assumption
    | with_reducible refine State.bump_keep (Within.trans rfl hm) ?_
    | with_reducible refine State.raiseCap_keep (Within.trans rfl hm) ?_
    | with_reducible refine State.setCyc_keep (Within.trans rfl hm) ?_
    | with_reducible refine State.flushGather_keep (Within.trans rfl hm) ?_
    | with_reducible refine State.discardSlot_keep (Within.trans rfl hm) ?_
    | with_reducible refine State.letGo_keep (Within.trans rfl hm) ?_
    | with_reducible refine Keep.foldl (fun x a hx => ?_) _ ?_
    | with_reducible refine Keep.ite ?_ ?_
    | (intro hx)
    | split

theorem vmeRslotDiscard_keep {m : Nat} {s₀ : State} {slot : Nat} {s : State} (hm : Within 2083 m) (h : Keep m s₀ s) :
    Keep m s₀ (vmeRslotDiscard slot s) := by
  unfold vmeRslotDiscard
  iterate 60 try any_goals first
    | with_reducible assumption
    | with_reducible refine State.raise_keep (Within.trans rfl hm) ?_
    | with_reducible refine State.bump_keep (Within.trans rfl hm) ?_
    | with_reducible refine State.setSlot_keep (Within.trans rfl hm) ?_
    | split

theorem vmeInPostedDone_keep {m : Nat} {s₀ : State} {s : State} (hm : Within 2083 m) (h : Keep m s₀ s) :
    Keep m s₀ (vmeInPostedDone s) := by
  unfold vmeInPostedDone
  iterate 60 try any_goals first
    | with_reducible assumption
    | with_reducible refine State.setIpwq_keep (Within.trans rfl hm) ?_
    | with_reducible refine State.raise_keep (Within.trans rfl hm) ?_
    | with_reducible refine State.bumpN_keep (Within.trans rfl hm) ?_
    | split

theorem vmeIntrRoraWrite_keep {m : Nat} {s₀ : State} {s : State} (hm : Within 8395489 m) (h : Keep m s₀ s) :
    Keep m s₀ (vmeIntrRoraWrite s) := by
  unfold vmeIntrRoraWrite
  iterate 60 try any_goals first
    | with_reducible assumption
    | with_reducible refine State.roraRelease_keep (Within.trans rfl hm) ?_
    | with_reducible refine State.emit_keep (Within.trans rfl hm) ?_
    | with_reducible refine State.bump_keep (Within.trans rfl hm) ?_
    | with_reducible refine State.setCyc_keep (Within.trans rfl hm) ?_
    | split

end Sys2Proof.Machine
end

