-- ==== Sys2Proof/Laws/KeepRecorder.lean ====
section
/-! SUPPORT. What each operation of Recorder, HostOps, CadOps, CadSource, Order leaves alone and keeps: its footprint as a mask of units, and that it keeps
the memories canonical, the queue of commands and a recorder key once set (see Laws/Keep.lean). -/

namespace Sys2Proof.Machine

set_option maxRecDepth 4000

theorem State.restoreChoice_mram (s : State) : s.restoreChoice.2.mram = s.recd.mram := by
  unfold State.restoreChoice
  extract_lets cs r0
  repeat' split
  all_goals rfl

theorem State.setRec_keep {m : Nat} {s₀ s : State} {r : RecUnit} (hm : Within 65536 m) (h : Keep m s₀ s)
    (hr : Memory.wf s.recd.mram = true → Memory.wf r.mram = true) : Keep m s₀ (s.setRec r) := by
  exact Keep.setRecd h (hm.bit 16 rfl) hr

theorem State.recDepth_keep {m : Nat} {s₀ : State} {s : State} (hm : Within 1 m) (h : Keep m s₀ s) :
    Keep m s₀ (State.recDepth s) := by
  unfold State.recDepth
  iterate 60 try any_goals first
    | with_reducible assumption
    | with_reducible refine State.wr_keep (Within.trans rfl hm) ?_

theorem State.recDrop_keep {m : Nat} {s₀ : State} {s : State} (hm : Within 67585 m) (h : Keep m s₀ s) :
    Keep m s₀ (State.recDrop s) := by
  unfold State.recDrop
  iterate 60 try any_goals first
    | with_reducible assumption
    | with_reducible refine State.bump_keep (Within.trans rfl hm) ?_
    | with_reducible refine State.setRec_keep (Within.trans rfl hm) ?_ (fun hx => hx)

theorem State.queueRead_keep {m : Nat} {s₀ : State} {s : State} (hm : Within 2 m) (h : Keep m s₀ s) :
    Keep m s₀ (State.queueRead s) := by
  unfold State.queueRead
  iterate 60 try any_goals first
    | with_reducible assumption
    | with_reducible refine State.sramFault_keep (Within.trans rfl hm) ?_
    | split
    | with_reducible refine Keep.setFlt ?_ (hm.bit 1 rfl)

theorem State.recStart_keep {m : Nat} {s₀ : State} {s : State} {e : RecEntry} {slot : Nat} (hm : Within 65536 m) (h : Keep m s₀ s) :
    Keep m s₀ (State.recStart s e slot) := by
  unfold State.recStart
  iterate 60 try any_goals first
    | with_reducible assumption
    | with_reducible refine State.setRec_keep (Within.trans rfl hm) ?_ (fun hx => hx)
    | with_reducible refine Keep.ite ?_ ?_
    | (intro hx)
    | split

theorem State.clearCounted_keep {m : Nat} {s₀ : State} {s : State} {n : Nat} (hm : Within 65536 m) (h : Keep m s₀ s) :
    Keep m s₀ (State.clearCounted s n) := by
  unfold State.clearCounted
  iterate 60 try any_goals first
    | with_reducible assumption
    | with_reducible refine State.setRec_keep (Within.trans rfl hm) ?_ (fun hx => hx)
    | split

theorem State.clearEnd_keep {m : Nat} {s₀ : State} {s : State} {t : Task} (hm : Within 65601 m) (h : Keep m s₀ s) :
    Keep m s₀ (State.clearEnd s t) := by
  unfold State.clearEnd
  iterate 60 try any_goals first
    | with_reducible assumption
    | with_reducible refine State.wr_keep (Within.trans rfl hm) ?_
    | with_reducible refine State.detachResult_keep (Within.trans rfl hm) ?_
    | with_reducible refine State.setRec_keep (Within.trans rfl hm) ?_ (fun hx => hx)
    | with_reducible refine Keep.ite ?_ ?_
    | (intro hx)
    | split

theorem State.recGo_keep {m : Nat} {s₀ : State} {a0 : Nat} {a1 : State} (hm : Within 67651 m) (h : Keep m s₀ a1) :
    Keep m s₀ (State.recGo a0 a1) := by
  induction a0 generalizing a1 with
  | zero => unfold State.recGo; exact h
  | succ n ih =>
    unfold State.recGo
    extract_lets +onlyGivenNames r
    iterate 60 try any_goals first
      | with_reducible assumption
      | with_reducible refine ih ?_
      | with_reducible refine State.recStart_keep (Within.trans rfl hm) ?_
      | with_reducible refine State.clearCounted_keep (Within.trans rfl hm) ?_
      | with_reducible refine State.clearEnd_keep (Within.trans rfl hm) ?_
      | with_reducible refine State.recDrop_keep (Within.trans rfl hm) ?_
      | with_reducible refine State.recDepth_keep (Within.trans rfl hm) ?_
      | with_reducible refine State.queueRead_keep (Within.trans rfl hm) ?_
      | with_reducible refine State.setRec_keep (Within.trans rfl hm) ?_ (fun hx => hx)
      | split
      | (extract_lets +onlyGivenNames y; revert y; intro _)

theorem State.recPump_keep {m : Nat} {s₀ : State} {s : State} (hm : Within 67651 m) (h : Keep m s₀ s) :
    Keep m s₀ (State.recPump s) := by
  unfold State.recPump
  iterate 60 try any_goals first
    | with_reducible assumption
    | with_reducible refine State.recGo_keep (Within.trans rfl hm) ?_

theorem State.recordAt_keep {m : Nat} {s₀ : State} {s : State} {code : Nat} {params : List Word} {front : Bool} (hm : Within 67651 m) (h : Keep m s₀ s) :
    Keep m s₀ (State.recordAt s code params front) := by
  unfold State.recordAt
  extract_lets r e s1
  have h1 : Keep m s₀ s1 := by
    unfold s1
    split
    · next e => exact Keep.setFlt (State.injTake_keep' e (Within.trans rfl hm) h) (hm.bit 1 rfl)
    · next e => exact State.injTake_keep' e (Within.trans rfl hm) h
  clear_value s1
  exact Keep.ite (State.recDrop_keep (Within.trans rfl hm) h) (State.recPump_keep (Within.trans rfl hm) (State.recDepth_keep
    (Within.trans rfl hm) (State.setRec_keep (Within.trans rfl hm) h1 (fun hx => hx))))

theorem State.record_keep {m : Nat} {s₀ : State} {s : State} {code : Nat} {params : List Nat} (hm : Within 67651 m) (h : Keep m s₀ s) :
    Keep m s₀ (State.record s code params) := by
  unfold State.record
  iterate 60 try any_goals first
    | with_reducible assumption
    | with_reducible refine State.recordAt_keep (Within.trans rfl hm) ?_

theorem State.areaFail_keep {m : Nat} {s₀ : State} {s : State} {area : Nat} (hm : Within 3 m) (h : Keep m s₀ s) :
    Keep m s₀ (State.areaFail s area) := by
  unfold State.areaFail
  iterate 60 try any_goals first
    | with_reducible assumption
    | with_reducible refine State.wr_keep (Within.trans rfl hm) ?_
    | with_reducible refine State.raise_keep (Within.trans rfl hm) ?_
    | with_reducible refine Keep.ite ?_ ?_

theorem State.recDone_keep {m : Nat} {s₀ : State} {s : State} (hm : Within 67651 m) (h : Keep m s₀ s) :
    Keep m s₀ (State.recDone s) := by
  unfold State.recDone
  iterate 60 try any_goals first
    | with_reducible assumption
    | with_reducible refine State.bump_keep (Within.trans rfl hm) ?_
    | with_reducible refine State.setRec_keep (Within.trans rfl hm) ?_ (fun hx => hx)
    | with_reducible refine State.clearCounted_keep (Within.trans rfl hm) ?_
    | with_reducible refine State.recPump_keep (Within.trans rfl hm) ?_
    | with_reducible refine Keep.ite ?_ ?_
    | (intro hx)
    | (extract_lets +onlyGivenNames y; revert y; intro _)
    | split

theorem recWriteDone_keep {m : Nat} {s₀ : State} {good : Bool} {s : State} (hm : Within 16844867 m) (h : Keep m s₀ s) :
    Keep m s₀ (recWriteDone good s) := by
  unfold recWriteDone
  extract_lets r
  split
  · exact h
  · extract_lets g bs s1 c1 r1 s2 c2 s3 q
    have hg : Keep m s₀ g.2 := by
      unfold g
      split
      · exact h
      · exact State.freeBytes_keep (Within.trans rfl hm) h
    clear_value g
    have h1 : Keep m s₀ r1 := State.setRec_keep (Within.trans rfl hm) hg (fun hx => Memory.wf_twrites _ _ _ hx)
    have h2 : Keep m s₀ s2 := State.bump_keep (Within.trans rfl hm) (State.setRec_keep (Within.trans rfl hm) hg
      (fun hx => Memory.wf_twrites _ _ _ hx))
    clear_value r1 s2
    exact Keep.ite (Keep.ite (State.recDone_keep (Within.trans rfl hm) h1) h1) (Keep.ite h2 (State.recPump_keep (Within.trans rfl hm)
      (State.recDepth_keep (Within.trans rfl hm) (State.areaFail_keep (Within.trans rfl hm) (State.setRec_keep (Within.trans rfl hm) h2
        (fun hx => hx))))))

theorem recSecondTick_keep {m : Nat} {s₀ : State} {s : State} (hm : Within 67651 m) (h : Keep m s₀ s) :
    Keep m s₀ (recSecondTick s) := by
  unfold recSecondTick
  iterate 60 try any_goals first
    | with_reducible assumption
    | with_reducible refine State.recPump_keep (Within.trans rfl hm) ?_
    | with_reducible refine State.setRec_keep (Within.trans rfl hm) ?_ (fun hx => hx)

theorem mfgSeconds_keep {m : Nat} {s₀ : State} {value : Nat} {s : State} (hm : Within 67651 m) (h : Keep m s₀ s) :
    Keep m s₀ (mfgSeconds value s) := by
  unfold mfgSeconds
  iterate 60 try any_goals first
    | with_reducible assumption
    | with_reducible refine State.setRec_keep (Within.trans rfl hm) ?_ (fun hx => hx)
    | with_reducible refine State.record_keep (Within.trans rfl hm) ?_
    | with_reducible refine Keep.ite ?_ ?_

theorem State.nextFix_keep {m : Nat} {s₀ : State} {s : State} (hm : Within 65536 m) (h : Keep m s₀ s) :
    Keep m s₀ (State.nextFix s) := by
  unfold State.nextFix
  iterate 60 try any_goals first
    | with_reducible assumption
    | with_reducible refine State.setRec_keep (Within.trans rfl hm) ?_ (fun hx => hx)
    | with_reducible refine Keep.ite ?_ ?_
    | (intro hx)
    | (extract_lets +onlyGivenNames y; revert y; intro _)
    | split

theorem State.powerCycle_keep {m : Nat} {s₀ : State} {s : State} (hm : Within 65536 m) (h : Keep m s₀ s) :
    Keep m s₀ (State.powerCycle s) := by
  unfold State.powerCycle
  iterate 60 try any_goals first
    | with_reducible assumption
    | with_reducible refine State.setRec_keep (Within.trans rfl hm) ?_ (fun hx => hx)

theorem State.discardsRecord_keep {m : Nat} {s₀ : State} {s : State} (hm : Within 67651 m) (h : Keep m s₀ s) :
    Keep m s₀ (State.discardsRecord s) := by
  unfold State.discardsRecord
  iterate 60 try any_goals first
    | with_reducible assumption
    | with_reducible refine State.setRec_keep (Within.trans rfl hm) ?_ (fun hx => hx)
    | with_reducible refine State.recordAt_keep (Within.trans rfl hm) ?_
    | with_reducible refine Keep.foldl (fun x a hx => ?_) _ ?_
    | split

theorem State.restoreTime_keep {m : Nat} {s₀ : State} {s : State} (hm : Within 65537 m) (h : Keep m s₀ s) :
    Keep m s₀ (State.restoreTime s) := by
  unfold State.restoreTime
  iterate 60 try any_goals first
    | with_reducible assumption
    | with_reducible refine State.wr_keep (Within.trans rfl hm) ?_
    | with_reducible refine State.setRec_keep (Within.trans rfl hm) ?_ (fun hx => (State.restoreChoice_mram _).symm ▸ hx)

theorem State.restoreRecord_keep {m : Nat} {s₀ : State} {s : State} (hm : Within 67651 m) (h : Keep m s₀ s) :
    Keep m s₀ (State.restoreRecord s) := by
  unfold State.restoreRecord
  iterate 60 try any_goals first
    | with_reducible assumption
    | with_reducible refine State.record_keep (Within.trans rfl hm) ?_

theorem State.recRestore_keep {m : Nat} {s₀ : State} {s : State} (hm : Within 67651 m) (h : Keep m s₀ s) :
    Keep m s₀ (State.recRestore s) := by
  unfold State.recRestore
  iterate 60 try any_goals first
    | with_reducible assumption
    | with_reducible refine State.discardsRecord_keep (Within.trans rfl hm) ?_
    | with_reducible refine State.restoreRecord_keep (Within.trans rfl hm) ?_
    | with_reducible refine State.wr_keep (Within.trans rfl hm) ?_
    | with_reducible refine State.powerCycle_keep (Within.trans rfl hm) ?_
    | with_reducible refine State.nextFix_keep (Within.trans rfl hm) ?_
    | with_reducible refine State.restoreTime_keep (Within.trans rfl hm) ?_
    | with_reducible refine Keep.ite ?_ ?_

theorem State.newNonce_keep {m : Nat} {s₀ : State} {s : State} (hm : Within 16842752 m) (h : Keep m s₀ s) :
    Keep m s₀ (State.newNonce s) := by
  unfold State.newNonce
  iterate 60 try any_goals first
    | with_reducible assumption
    | with_reducible refine State.free_keep (Within.trans rfl hm) ?_
    | with_reducible refine State.setRec_keep (Within.trans rfl hm) ?_ (fun hx => hx)

theorem State.authFail_keep {m : Nat} {s₀ : State} {s : State} {subop : Nat} {node : Nat} {agent : Nat} {cause : Nat} (hm : Within 16844803 m) (h : Keep m s₀ s) :
    Keep m s₀ (State.authFail s subop node agent cause) := by
  unfold State.authFail
  iterate 60 try any_goals first
    | with_reducible assumption
    | with_reducible refine State.raise_keep (Within.trans rfl hm) ?_
    | with_reducible refine State.bump_keep (Within.trans rfl hm) ?_
    | with_reducible refine State.newNonce_keep (Within.trans rfl hm) ?_
    | with_reducible refine State.setRec_keep (Within.trans rfl hm) ?_ (fun hx => hx)
    | with_reducible refine State.wr_keep (Within.trans rfl hm) ?_
    | with_reducible refine Keep.ite ?_ ?_

theorem State.authOk_keep {m : Nat} {s₀ : State} {s : State} (hm : Within 16842752 m) (h : Keep m s₀ s) :
    Keep m s₀ (State.authOk s) := by
  unfold State.authOk
  iterate 60 try any_goals first
    | with_reducible assumption
    | with_reducible refine State.newNonce_keep (Within.trans rfl hm) ?_
    | with_reducible refine State.setRec_keep (Within.trans rfl hm) ?_ (fun hx => hx)

theorem authHoldEnd_keep {m : Nat} {s₀ : State} {s : State} (hm : Within 1 m) (h : Keep m s₀ s) :
    Keep m s₀ (authHoldEnd s) := by
  unfold authHoldEnd
  iterate 60 try any_goals first
    | with_reducible assumption
    | with_reducible refine State.wr_keep (Within.trans rfl hm) ?_

theorem State.clearBegin_keep {m : Nat} {s₀ : State} {s : State} {t : Task} (hm : Within 65537 m) (h : Keep m s₀ s) :
    Keep m s₀ (State.clearBegin s t) := by
  unfold State.clearBegin
  iterate 60 try any_goals first
    | with_reducible assumption
    | with_reducible refine State.wr_keep (Within.trans rfl hm) ?_
    | with_reducible refine State.setRec_keep (Within.trans rfl hm) ?_ (fun hx => hx)
    | split

theorem recClearDone_keep {m : Nat} {s₀ : State} {s0 : State} (hm : Within 67651 m) (h : Keep m s₀ s0) :
    Keep m s₀ (recClearDone s0) := by
  unfold recClearDone
  split
  · exact h
  · exact Keep.ite (State.recPump_keep (Within.trans rfl hm) (State.setRec_keep (Within.trans rfl hm) h
      (fun hx => Memory.wf_filter _ _ hx))) h

theorem State.recRetest_keep {m : Nat} {s₀ : State} {s : State} (hm : Within 67651 m) (h : Keep m s₀ s) :
    Keep m s₀ (State.recRetest s) := by
  unfold State.recRetest
  iterate 60 try any_goals first
    | with_reducible assumption
    | with_reducible refine State.recPump_keep (Within.trans rfl hm) ?_
    | with_reducible refine State.wr_keep (Within.trans rfl hm) ?_

theorem State.recInj_keep {m : Nat} {s₀ : State} {s : State} {v : Word} (hm : Within 65537 m) (h : Keep m s₀ s) :
    Keep m s₀ (State.recInj s v) := by
  unfold State.recInj
  iterate 60 try any_goals first
    | with_reducible assumption
    | with_reducible refine State.wr_keep (Within.trans rfl hm) ?_
    | with_reducible refine State.setRec_keep (Within.trans rfl hm) ?_ (fun hx => hx)
    | with_reducible refine Keep.ite ?_ ?_

theorem State.ownRequest_keep {m : Nat} {s₀ : State} {s : State} {op : Nat} {addr : Nat} {len : Nat} {data : List Byte} {owner : TagOwner} (hm : Within 8391235 m) (h : Keep m s₀ s) :
    Keep m s₀ (State.ownRequest s op addr len data owner).2 := by
  unfold State.ownRequest
  iterate 60 try any_goals first
    | with_reducible assumption
    | with_reducible refine State.originRefuse_keep (Within.trans rfl hm) ?_
    | with_reducible refine State.issue_keep (Within.trans rfl hm) ?_
    | split

theorem State.setOutPi_keep {m : Nat} {s₀ : State} {s : State} {key : Nat} {v : Nat} (hm : Within 32769 m) (h : Keep m s₀ s) :
    Keep m s₀ (State.setOutPi s key v) := by
  unfold State.setOutPi
  iterate 60 try any_goals first
    | with_reducible assumption
    | with_reducible refine State.wr_keep (Within.trans rfl hm) ?_
    | with_reducible refine Keep.ite ?_ ?_
    | with_reducible refine Keep.setHost ?_ (hm.bit 15 rfl)

theorem State.setWriter_keep {m : Nat} {s₀ : State} {s : State} {key : Nat} {w : Option RingWrite} (hm : Within 32768 m) (h : Keep m s₀ s) :
    Keep m s₀ (State.setWriter s key w) := by
  unfold State.setWriter
  iterate 60 try any_goals first
    | with_reducible assumption
    | with_reducible refine Keep.setHost ?_ (hm.bit 15 rfl)

theorem State.shadowWrite_keep {m : Nat} {s₀ : State} {s : State} {at_ : Nat} {bytes : List Byte} (hm : Within 8391235 m) (h : Keep m s₀ s) :
    Keep m s₀ (State.shadowWrite s at_ bytes) := by
  unfold State.shadowWrite
  iterate 60 try any_goals first
    | with_reducible assumption
    | with_reducible refine State.after_keep (Within.trans rfl hm) ?_
    | with_reducible refine State.ownRequest_keep (Within.trans rfl hm) ?_

theorem State.shadowRing_keep {m : Nat} {s₀ : State} {s : State} {r : Nat} (hm : Within 8391235 m) (h : Keep m s₀ s) :
    Keep m s₀ (State.shadowRing s r) := by
  unfold State.shadowRing
  iterate 60 try any_goals first
    | with_reducible assumption
    | with_reducible refine State.shadowWrite_keep (Within.trans rfl hm) ?_

theorem State.msixSignal_keep {m : Nat} {s₀ : State} {s : State} {v : Nat} (hm : Within 8421376 m) (h : Keep m s₀ s) :
    Keep m s₀ (State.msixSignal s v) := by
  unfold State.msixSignal
  iterate 60 try any_goals first
    | with_reducible assumption
    | with_reducible refine State.emit_keep (Within.trans rfl hm) ?_
    | with_reducible refine Keep.ite ?_ ?_
    | with_reducible refine Keep.setHost ?_ (hm.bit 15 rfl)

theorem State.cqSignal_keep {m : Nat} {s₀ : State} {s : State} {c : Nat} (hm : Within 8421376 m) (h : Keep m s₀ s) :
    Keep m s₀ (State.cqSignal s c) := by
  unfold State.cqSignal
  iterate 60 try any_goals first
    | with_reducible assumption
    | with_reducible refine State.msixSignal_keep (Within.trans rfl hm) ?_
    | with_reducible refine Keep.ite ?_ ?_
    | with_reducible refine Keep.setHost ?_ (hm.bit 15 rfl)

theorem State.entryOff_keep {m : Nat} {s₀ : State} {s : State} {e0 : RingEntry} (hm : Within 8391171 m) (h : Keep m s₀ s) :
    Keep m s₀ (State.entryOff s e0) := by
  unfold State.entryOff
  iterate 60 try any_goals first
    | with_reducible assumption
    | with_reducible refine State.raise_keep (Within.trans rfl hm) ?_
    | with_reducible refine State.bump_keep (Within.trans rfl hm) ?_
    | with_reducible refine State.ackMessage_keep (Within.trans rfl hm) ?_
    | split

theorem State.entryDone_keep {m : Nat} {s₀ : State} {s : State} {e0 : RingEntry} (hm : Within 8424003 m) (h : Keep m s₀ s) :
    Keep m s₀ (State.entryDone s e0) := by
  unfold State.entryDone
  iterate 60 try any_goals first
    | with_reducible assumption
    | with_reducible refine State.setOutPi_keep (Within.trans rfl hm) ?_
    | with_reducible refine State.shadowWrite_keep (Within.trans rfl hm) ?_
    | with_reducible refine State.msixSignal_keep (Within.trans rfl hm) ?_
    | with_reducible refine State.cqSignal_keep (Within.trans rfl hm) ?_
    | with_reducible refine State.ackMessage_keep (Within.trans rfl hm) ?_
    | split

theorem State.countFull_keep {m : Nat} {s₀ : State} {s : State} {key : Nat} (hm : Within 34819 m) (h : Keep m s₀ s) :
    Keep m s₀ (State.countFull s key) := by
  unfold State.countFull
  iterate 60 try any_goals first
    | with_reducible assumption
    | with_reducible refine State.bumpN_keep (Within.trans rfl hm) ?_
    | with_reducible refine State.raise_keep (Within.trans rfl hm) ?_
    | with_reducible refine Keep.ite ?_ ?_
    | (intro hx)
    | split
    | with_reducible refine Keep.setHost ?_ (hm.bit 15 rfl)

theorem State.eventLost_keep {m : Nat} {s₀ : State} {s : State} {told : Nat} (hm : Within 34817 m) (h : Keep m s₀ s) :
    Keep m s₀ (State.eventLost s told) := by
  unfold State.eventLost
  iterate 60 try any_goals first
    | with_reducible assumption
    | with_reducible refine State.bump_keep (Within.trans rfl hm) ?_
    | split
    | with_reducible refine Keep.setHost ?_ (hm.bit 15 rfl)

theorem State.slotLost_keep {m : Nat} {s₀ : State} {s : State} {told : Nat} (hm : Within 34817 m) (h : Keep m s₀ s) :
    Keep m s₀ (State.slotLost s told) := by
  unfold State.slotLost
  iterate 60 try any_goals first
    | with_reducible assumption
    | with_reducible refine State.bump_keep (Within.trans rfl hm) ?_
    | split
    | with_reducible refine Keep.setHost ?_ (hm.bit 15 rfl)

theorem State.entryDropped_keep {m : Nat} {s₀ : State} {s : State} {e : RingEntry} (hm : Within 8423939 m) (h : Keep m s₀ s) :
    Keep m s₀ (State.entryDropped s e) := by
  unfold State.entryDropped
  iterate 60 try any_goals first
    | with_reducible assumption
    | with_reducible refine State.entryOff_keep (Within.trans rfl hm) ?_
    | with_reducible refine State.eventLost_keep (Within.trans rfl hm) ?_
    | with_reducible refine State.slotLost_keep (Within.trans rfl hm) ?_
    | with_reducible refine Keep.ite ?_ ?_
    | (intro hx)
    | split

theorem State.ringGo_keep {m : Nat} {s₀ : State} {a0 : Nat} {a1 : Nat} {a2 : State} (hm : Within 8424003 m) (h : Keep m s₀ a2) :
    Keep m s₀ (State.ringGo a0 a1 a2) := by
  induction a0 generalizing a1 a2 with
  | zero => unfold State.ringGo; first | exact h | (split <;> exact h)
  | succ n ih =>
    unfold State.ringGo
    iterate 60 try any_goals first
      | with_reducible assumption
      | with_reducible refine ih ?_
      | with_reducible refine State.countFull_keep (Within.trans rfl hm) ?_
      | with_reducible refine State.entryDropped_keep (Within.trans rfl hm) ?_
      | with_reducible refine State.entryDone_keep (Within.trans rfl hm) ?_
      | with_reducible refine State.setWriter_keep (Within.trans rfl hm) ?_
      | with_reducible refine State.ownRequest_keep (Within.trans rfl hm) ?_
      | with_reducible refine State.entryOff_keep (Within.trans rfl hm) ?_
      | split
      | with_reducible refine Keep.setHost ?_ (hm.bit 15 rfl)

theorem State.ringTurn_keep {m : Nat} {s₀ : State} {s : State} {key : Nat} (hm : Within 8424003 m) (h : Keep m s₀ s) :
    Keep m s₀ (State.ringTurn s key) := by
  unfold State.ringTurn
  exact State.ringGo_keep (Within.trans rfl hm) h

theorem State.pumpRing_keep {m : Nat} {s₀ : State} {s : State} {key : Nat} (hm : Within 8424003 m) (h : Keep m s₀ s) :
    Keep m s₀ (State.pumpRing s key) := by
  unfold State.pumpRing
  iterate 60 try any_goals first
    | with_reducible assumption
    | with_reducible refine State.ringTurn_keep (Within.trans rfl hm) ?_
    | with_reducible refine Keep.ite ?_ ?_

theorem State.ringAnswered_keep {m : Nat} {s₀ : State} {s : State} {key : Nat} (hm : Within 8424003 m) (h : Keep m s₀ s) :
    Keep m s₀ (State.ringAnswered s key) := by
  unfold State.ringAnswered
  iterate 60 try any_goals first
    | with_reducible assumption
    | with_reducible refine State.ringTurn_keep (Within.trans rfl hm) ?_
    | with_reducible refine State.setWriter_keep (Within.trans rfl hm) ?_
    | split

theorem State.cqPost_keep {m : Nat} {s₀ : State} {s : State} {e : RingEntry} (hm : Within 8424003 m) (h : Keep m s₀ s) :
    Keep m s₀ (State.cqPost s e) := by
  unfold State.cqPost
  iterate 60 try any_goals first
    | with_reducible assumption
    | with_reducible refine State.entryOff_keep (Within.trans rfl hm) ?_
    | with_reducible refine State.pumpRing_keep (Within.trans rfl hm) ?_
    | with_reducible refine Keep.ite ?_ ?_
    | (intro hx)
    | split
    | with_reducible refine Keep.setHost ?_ (hm.bit 15 rfl)

theorem State.eventPost_keep {m : Nat} {s₀ : State} {s : State} {sev : Nat} {code : Nat} {phase : Word} {frame : Nat} {params : List Word} (hm : Within 8424003 m) (h : Keep m s₀ s) :
    Keep m s₀ (State.eventPost s sev code phase frame params) := by
  unfold State.eventPost
  iterate 60 try any_goals first
    | with_reducible assumption
    | with_reducible refine State.eventLost_keep (Within.trans rfl hm) ?_
    | with_reducible refine State.pumpRing_keep (Within.trans rfl hm) ?_
    | with_reducible refine Keep.ite ?_ ?_
    | (intro hx)
    | split
    | with_reducible refine Keep.setHost ?_ (hm.bit 15 rfl)

theorem State.statPost_keep {m : Nat} {s₀ : State} {s : State} {period : Nat} {record : List Byte} (hm : Within 8424003 m) (h : Keep m s₀ s) :
    Keep m s₀ (State.statPost s period record) := by
  unfold State.statPost
  iterate 60 try any_goals first
    | with_reducible assumption
    | with_reducible refine State.slotLost_keep (Within.trans rfl hm) ?_
    | with_reducible refine State.pumpRing_keep (Within.trans rfl hm) ?_
    | with_reducible refine Keep.ite ?_ ?_
    | (intro hx)
    | split
    | with_reducible refine Keep.setHost ?_ (hm.bit 15 rfl)

theorem State.setHold_keep {m : Nat} {s₀ : State} {s : State} {h0 : List HoldEntry} (hm : Within 1025 m) (h : Keep m s₀ s) :
    Keep m s₀ (State.setHold s h0) := by
  unfold State.setHold
  iterate 60 try any_goals first
    | with_reducible assumption
    | with_reducible refine State.wr_keep (Within.trans rfl hm) ?_
    | with_reducible refine Keep.setCad ?_ (hm.bit 10 rfl)

theorem State.cadRelease_keep {m : Nat} {s₀ : State} {s : State} {t : Task} (hm : Within 16779715 m) (h : Keep m s₀ s) :
    Keep m s₀ (State.cadRelease s t) := by
  unfold State.cadRelease
  iterate 60 try any_goals first
    | with_reducible assumption
    | with_reducible refine State.statAdd_keep (Within.trans rfl hm) ?_
    | with_reducible refine State.bump_keep (Within.trans rfl hm) ?_
    | with_reducible refine State.placeAgain_keep (Within.trans rfl hm) ?_
    | with_reducible refine State.events_keep (Within.trans rfl hm) ?_
    | with_reducible refine Keep.ite ?_ ?_
    | (intro hx)
    | split

theorem State.judgeHold_keep {m : Nat} {s₀ : State} {s : State} {e : HoldEntry} (hm : Within 16779715 m) (h : Keep m s₀ s) :
    Keep m s₀ (State.judgeHold s e).2 := by
  unfold State.judgeHold
  iterate 60 try any_goals first
    | with_reducible assumption
    | with_reducible refine State.cadRelease_keep (Within.trans rfl hm) ?_
    | with_reducible refine Keep.ite ?_ ?_
    | (intro hx)
    | (extract_lets +onlyGivenNames y; revert y; intro _)
    | split

theorem State.judgeHold_keep' {m : Nat} {s₀ : State} {s : State} {e0 : HoldEntry} {p : Option HoldEntry × State} (e : State.judgeHold s e0 = p) (hm : Within 16779715 m) (h : Keep m s₀ s) :
    Keep m s₀ p.2 :=
  e ▸ State.judgeHold_keep hm h

theorem State.enterHold_keep {m : Nat} {s₀ : State} {s : State} {t : Task} {gate : Option (Nat × Nat)} (hm : Within 16780739 m) (h : Keep m s₀ s) :
    Keep m s₀ (State.enterHold s t gate) := by
  unfold State.enterHold
  iterate 60 try any_goals first
    | with_reducible assumption
    | (have hx := State.judgeHold_keep' (by with_reducible assumption) (Within.trans rfl hm) (by with_reducible assumption); with_reducible exact hx)
    | with_reducible refine State.setHold_keep (Within.trans rfl hm) ?_
    | (extract_lets +onlyGivenNames y; revert y; intro _)
    | split

theorem State.cadHold_keep {m : Nat} {s₀ : State} {s : State} {t : Task} {gate : Option (Nat × Nat)} (hm : Within 16780739 m) (h : Keep m s₀ s) :
    Keep m s₀ (State.cadHold s t gate) := by
  unfold State.cadHold
  iterate 60 try any_goals first
    | with_reducible assumption
    | with_reducible refine State.wr_keep (Within.trans rfl hm) ?_
    | with_reducible refine State.statAdd_keep (Within.trans rfl hm) ?_
    | with_reducible refine State.bump_keep (Within.trans rfl hm) ?_
    | with_reducible refine State.raise_keep (Within.trans rfl hm) ?_
    | with_reducible refine State.enterHold_keep (Within.trans rfl hm) ?_
    | with_reducible refine Keep.ite ?_ ?_
    | (intro hx)
    | split
    | with_reducible refine Keep.setCad ?_ (hm.bit 10 rfl)

theorem State.fillHold_keep {m : Nat} {s₀ : State} {a0 : Nat} {a1 : State} (hm : Within 16780739 m) (h : Keep m s₀ a1) :
    Keep m s₀ (State.fillHold a0 a1) := by
  induction a0 generalizing a1 with
  | zero => unfold State.fillHold; first | exact h | (split <;> exact h)
  | succ n ih =>
    unfold State.fillHold
    iterate 60 try any_goals first
      | with_reducible assumption
      | with_reducible refine ih ?_
      | with_reducible refine State.enterHold_keep (Within.trans rfl hm) ?_
      | split
      | with_reducible refine Keep.setCad ?_ (hm.bit 10 rfl)

theorem State.judgeAll_keep {m : Nat} {s₀ : State} {s : State} (hm : Within 16780739 m) (h : Keep m s₀ s) :
    Keep m s₀ (State.judgeAll s) := by
  unfold State.judgeAll
  iterate 60 try any_goals first
    | with_reducible assumption
    | with_reducible refine State.setHold_keep (Within.trans rfl hm) ?_
    | with_reducible refine State.judgeHold_keep (Within.trans rfl hm) ?_
    | (have hx := State.judgeHold_keep' (by with_reducible assumption) (Within.trans rfl hm) (by with_reducible assumption); with_reducible exact hx)
    | with_reducible refine State.fillHold_keep (Within.trans rfl hm) ?_
    | with_reducible refine Keep.foldl (fun x a hx => ?_) _ ?_
    | with_reducible refine Keep.foldl2 (fun x a hx => ?_) _ ?_
    | split
    | with_reducible refine Keep.setCad ?_ (hm.bit 10 rfl)

theorem State.cadStepTo_keep {m : Nat} {s₀ : State} {s : State} {pos : Nat} (hm : Within 3075 m) (h : Keep m s₀ s) :
    Keep m s₀ (State.cadStepTo s pos) := by
  unfold State.cadStepTo
  iterate 60 try any_goals first
    | with_reducible assumption
    | with_reducible refine State.wr_keep (Within.trans rfl hm) ?_
    | with_reducible refine State.bump_keep (Within.trans rfl hm) ?_
    | with_reducible refine State.raise_keep (Within.trans rfl hm) ?_
    | with_reducible refine State.setHold_keep (Within.trans rfl hm) ?_
    | with_reducible refine Keep.setCad ?_ (hm.bit 10 rfl)

theorem State.admitTask_keep {m : Nat} {s₀ : State} {s : State} {again : Bool} {t : Task} (hm : Within 16780739 m) (h : Keep m s₀ s) :
    Keep m s₀ (State.admitTask s again t) := by
  unfold State.admitTask
  extract_lets t1
  clear_value t1
  split
  · exact State.waitTask_keep (Within.trans rfl hm) h
  · split
    · exact State.waitTask_keep (Within.trans rfl hm) h
    · next s1 t2 e =>
      have h1 : Keep m s₀ s1 := by
        split at e
        · exact State.enterStile_keep e (Within.trans rfl hm) h
        · cases e; exact h
      extract_lets gate
      clear_value gate
      split
      · exact State.cadHold_keep (Within.trans rfl hm) h1
      · split
        · next r e2 => exact State.events_keep (Within.trans rfl hm) (State.place_keep e2 (Within.trans rfl hm) h1)
        · exact State.waitTask_keep (Within.trans rfl hm) (State.placeCheck_keep (Within.trans rfl hm) h1)

theorem State.takeIn_keep {m : Nat} {s₀ : State} {s : State} {t : Task} (hm : Within 16780739 m) (h : Keep m s₀ s) :
    Keep m s₀ (State.takeIn s t) := by
  unfold State.takeIn
  iterate 60 try any_goals first
    | with_reducible assumption
    | with_reducible refine State.admitTask_keep (Within.trans rfl hm) ?_

theorem State.retryWaiting_keep {m : Nat} {s₀ : State} {s : State} (hm : Within 16780739 m) (h : Keep m s₀ s) :
    Keep m s₀ (State.retryWaiting s) := by
  unfold State.retryWaiting
  iterate 60 try any_goals first
    | with_reducible assumption
    | with_reducible refine State.admitTask_keep (Within.trans rfl hm) ?_
    | with_reducible refine Keep.foldl (fun x a hx => ?_) _ ?_
    | with_reducible refine Keep.setDrv ?_ (hm.bit 6 rfl)

theorem State.cadRate_keep {m : Nat} {s₀ : State} {s : State} {num : Nat} {den : Nat} (hm : Within 1025 m) (h : Keep m s₀ s) :
    Keep m s₀ (State.cadRate s num den) := by
  unfold State.cadRate
  iterate 60 try any_goals first
    | with_reducible assumption
    | with_reducible refine State.wr_keep (Within.trans rfl hm) ?_
    | with_reducible refine Keep.setCad ?_ (hm.bit 10 rfl)

theorem State.cadRate1ms_keep {m : Nat} {s₀ : State} {s : State} (hm : Within 1025 m) (h : Keep m s₀ s) :
    Keep m s₀ (State.cadRate1ms s) := by
  unfold State.cadRate1ms
  iterate 60 try any_goals first
    | with_reducible assumption
    | with_reducible refine State.cadRate_keep (Within.trans rfl hm) ?_

theorem State.epochRateSet_keep {m : Nat} {s₀ : State} {s : State} (hm : Within 1025 m) (h : Keep m s₀ s) :
    Keep m s₀ (State.epochRateSet s) := by
  unfold State.epochRateSet
  iterate 60 try any_goals first
    | with_reducible assumption
    | with_reducible refine State.cadRate_keep (Within.trans rfl hm) ?_

theorem State.cadLock_keep {m : Nat} {s₀ : State} {s : State} {pos : Nat} (hm : Within 3075 m) (h : Keep m s₀ s) :
    Keep m s₀ (State.cadLock s pos) := by
  unfold State.cadLock
  iterate 60 try any_goals first
    | with_reducible assumption
    | with_reducible refine State.cadStepTo_keep (Within.trans rfl hm) ?_
    | with_reducible refine State.wr_keep (Within.trans rfl hm) ?_
    | with_reducible refine State.raise_keep (Within.trans rfl hm) ?_
    | with_reducible refine State.stageStep_keep (Within.trans rfl hm) ?_
    | with_reducible refine Keep.ite ?_ ?_
    | with_reducible refine Keep.setCad ?_ (hm.bit 10 rfl)

theorem State.cadFallback_keep {m : Nat} {s₀ : State} {s : State} (hm : Within 1027 m) (h : Keep m s₀ s) :
    Keep m s₀ (State.cadFallback s) := by
  unfold State.cadFallback
  iterate 60 try any_goals first
    | with_reducible assumption
    | with_reducible refine State.raise_keep (Within.trans rfl hm) ?_
    | with_reducible refine State.cadRate1ms_keep (Within.trans rfl hm) ?_
    | with_reducible refine State.wr_keep (Within.trans rfl hm) ?_
    | with_reducible refine Keep.setCad ?_ (hm.bit 10 rfl)

theorem State.cadLoss_keep {m : Nat} {s₀ : State} {s : State} (hm : Within 3075 m) (h : Keep m s₀ s) :
    Keep m s₀ (State.cadLoss s) := by
  unfold State.cadLoss
  extract_lets c s1 s2
  have h1 : Keep m s₀ s1 := Keep.setCad h (hm.bit 10 rfl)
  have h2 : Keep m s₀ s2 := State.raise_keep (Within.trans rfl hm) (State.bump_keep (Within.trans rfl hm)
    (State.wr_keep (Within.trans rfl hm) (State.wr_keep (Within.trans rfl hm) h1)))
  exact Keep.ite (State.cadFallback_keep (Within.trans rfl hm) h2) h2

theorem State.cadRef_keep {m : Nat} {s₀ : State} {s : State} {need : Nat} {pos : Nat} (hm : Within 3075 m) (h : Keep m s₀ s) :
    Keep m s₀ (State.cadRef s need pos) := by
  unfold State.cadRef
  iterate 60 try any_goals first
    | with_reducible assumption
    | with_reducible refine State.cadLock_keep (Within.trans rfl hm) ?_
    | with_reducible refine Keep.ite ?_ ?_
    | with_reducible refine Keep.setCad ?_ (hm.bit 10 rfl)

theorem State.cadSelect_keep {m : Nat} {s₀ : State} {s : State} (hm : Within 3075 m) (h : Keep m s₀ s) :
    Keep m s₀ (State.cadSelect s) := by
  unfold State.cadSelect
  iterate 60 try any_goals first
    | with_reducible assumption
    | with_reducible refine State.wr_keep (Within.trans rfl hm) ?_
    | with_reducible refine State.cadRate1ms_keep (Within.trans rfl hm) ?_
    | with_reducible refine State.stageStep_keep (Within.trans rfl hm) ?_
    | with_reducible refine State.cadLock_keep (Within.trans rfl hm) ?_
    | with_reducible refine State.epochRateSet_keep (Within.trans rfl hm) ?_
    | with_reducible refine State.cadRate_keep (Within.trans rfl hm) ?_
    | with_reducible refine Keep.ite ?_ ?_
    | with_reducible refine Keep.setCad ?_ (hm.bit 10 rfl)

theorem State.setSch_keep {m : Nat} {s₀ : State} {s : State} {k : Nat} {e0 : SchEntry} (hm : Within 1025 m) (h : Keep m s₀ s) :
    Keep m s₀ (State.setSch s k e0) := by
  unfold State.setSch
  iterate 60 try any_goals first
    | with_reducible assumption
    | with_reducible refine State.wrB_keep (Within.trans rfl hm) ?_
    | with_reducible refine Keep.setCad ?_ (hm.bit 10 rfl)

theorem State.schCopy_keep {m : Nat} {s₀ : State} {s : State} {k : Nat} (hm : Within 1025 m) (h : Keep m s₀ s) :
    Keep m s₀ (State.schCopy s k) := by
  unfold State.schCopy
  iterate 60 try any_goals first
    | with_reducible assumption
    | with_reducible refine State.setSch_keep (Within.trans rfl hm) ?_

theorem wcTimeout_keep {m : Nat} {s₀ : State} {base : Nat} {s : State} (hm : Within 8391363 m) (h : Keep m s₀ s) :
    Keep m s₀ (wcTimeout base s) := by
  unfold wcTimeout
  iterate 60 try any_goals first
    | with_reducible assumption
    | with_reducible refine State.flushWhere_keep (Within.trans rfl hm) ?_

theorem wcFlushDone_keep {m : Nat} {s₀ : State} {s : State} (hm : Within 2179 m) (h : Keep m s₀ s) :
    Keep m s₀ (wcFlushDone s) := by
  unfold wcFlushDone
  iterate 60 try any_goals first
    | with_reducible assumption
    | with_reducible refine State.flushEnded_keep (Within.trans rfl hm) ?_
    | split
    | with_reducible refine Keep.setOrd ?_ (hm.bit 7 rfl)

theorem State.wcOff_keep {m : Nat} {s₀ : State} {s : State} (hm : Within 8391363 m) (h : Keep m s₀ s) :
    Keep m s₀ (State.wcOff s) := by
  unfold State.wcOff
  iterate 60 try any_goals first
    | with_reducible assumption
    | with_reducible refine State.flushWhere_keep (Within.trans rfl hm) ?_
    | with_reducible refine State.wr_keep (Within.trans rfl hm) ?_

theorem claimTimeout_keep {m : Nat} {s₀ : State} {node : Nat} {agent : Nat} {s : State} (hm : Within 129 m) (h : Keep m s₀ s) :
    Keep m s₀ (claimTimeout node agent s) := by
  unfold claimTimeout
  iterate 60 try any_goals first
    | with_reducible assumption
    | with_reducible refine State.dropClaim_keep (Within.trans rfl hm) ?_

theorem lcSnoopWrite_keep {m : Nat} {s₀ : State} {am : Nat} {xam : Nat} {addr : Nat} {len : Nat} {overflow : Bool} {s : State} (hm : Within 2193 m) (h : Keep m s₀ s) :
    Keep m s₀ (lcSnoopWrite am xam addr len overflow s) := by
  unfold lcSnoopWrite
  iterate 60 try any_goals first
    | with_reducible assumption
    | with_reducible refine State.lcDropAll_keep (Within.trans rfl hm) ?_
    | with_reducible refine State.lcDrop_keep (Within.trans rfl hm) ?_
    | with_reducible refine State.storeSeen_keep (Within.trans rfl hm) ?_
    | with_reducible refine State.bumpN_keep (Within.trans rfl hm) ?_
    | split

theorem State.lcOff_keep {m : Nat} {s₀ : State} {s : State} (hm : Within 2193 m) (h : Keep m s₀ s) :
    Keep m s₀ (State.lcOff s) := by
  unfold State.lcOff
  iterate 60 try any_goals first
    | with_reducible assumption
    | with_reducible refine State.lcDropAll_keep (Within.trans rfl hm) ?_
    | with_reducible refine State.wr_keep (Within.trans rfl hm) ?_

theorem State.pfWarn_keep {m : Nat} {s₀ : State} {s : State} (hm : Within 8391363 m) (h : Keep m s₀ s) :
    Keep m s₀ (State.pfWarn s) := by
  unfold State.pfWarn
  iterate 60 try any_goals first
    | with_reducible assumption
    | with_reducible refine State.wr_keep (Within.trans rfl hm) ?_
    | with_reducible refine State.flushWhere_keep (Within.trans rfl hm) ?_
    | with_reducible refine Keep.ite ?_ ?_
    | with_reducible refine Keep.setOrd ?_ (hm.bit 7 rfl)

theorem State.pfNormal_keep {m : Nat} {s₀ : State} {s : State} (hm : Within 129 m) (h : Keep m s₀ s) :
    Keep m s₀ (State.pfNormal s) := by
  unfold State.pfNormal
  iterate 60 try any_goals first
    | with_reducible assumption
    | with_reducible refine State.wr_keep (Within.trans rfl hm) ?_
    | with_reducible refine Keep.setOrd ?_ (hm.bit 7 rfl)

theorem State.pfWithdraw_keep {m : Nat} {s₀ : State} {s : State} (hm : Within 129 m) (h : Keep m s₀ s) :
    Keep m s₀ (State.pfWithdraw s) := by
  unfold State.pfWithdraw
  iterate 60 try any_goals first
    | with_reducible assumption
    | with_reducible refine State.pfNormal_keep (Within.trans rfl hm) ?_
    | with_reducible refine Keep.ite ?_ ?_
    | with_reducible refine Keep.setOrd ?_ (hm.bit 7 rfl)

theorem State.pfRecord_keep {m : Nat} {s₀ : State} {s : State} {wcBytes : Nat} {outBytes : Nat} {inBytes : Nat} {wcLines : Nat} {outs : Nat} {ins : Nat} (hm : Within 67779 m) (h : Keep m s₀ s) :
    Keep m s₀ (State.pfRecord s wcBytes outBytes inBytes wcLines outs ins) := by
  unfold State.pfRecord
  iterate 60 try any_goals first
    | with_reducible assumption
    | with_reducible refine State.recordAt_keep (Within.trans rfl hm) ?_
    | with_reducible refine State.pfNormal_keep (Within.trans rfl hm) ?_
    | split
    | with_reducible refine Keep.setOrd ?_ (hm.bit 7 rfl)

theorem pfDrainEmpty_keep {m : Nat} {s₀ : State} {s : State} (hm : Within 67779 m) (h : Keep m s₀ s) :
    Keep m s₀ (pfDrainEmpty s) := by
  unfold pfDrainEmpty
  iterate 60 try any_goals first
    | with_reducible assumption
    | with_reducible refine State.pfRecord_keep (Within.trans rfl hm) ?_
    | with_reducible refine Keep.ite ?_ ?_

theorem State.dropFlushes_keep {m : Nat} {s₀ : State} {s : State} (hm : Within 512 m) (h : Keep m s₀ s) :
    Keep m s₀ (State.dropFlushes s) := by
  unfold State.dropFlushes
  iterate 60 try any_goals first
    | with_reducible assumption
    | split
    | with_reducible refine Keep.setNet ?_ (hm.bit 9 rfl)

theorem pfDrainDeadline_keep {m : Nat} {s₀ : State} {s : State} (hm : Within 8456947 m) (h : Keep m s₀ s) :
    Keep m s₀ (pfDrainDeadline s) := by
  unfold pfDrainDeadline
  iterate 60 try any_goals first
    | with_reducible assumption
    | with_reducible refine State.wr_keep (Within.trans rfl hm) ?_
    | with_reducible refine State.bumpN_keep (Within.trans rfl hm) ?_
    | with_reducible refine State.idleBus_keep (Within.trans rfl hm) ?_
    | with_reducible refine State.discardQueue_keep (Within.trans rfl hm) ?_
    | with_reducible refine State.setWc_keep (Within.trans rfl hm) ?_
    | with_reducible refine State.setIpwq_keep (Within.trans rfl hm) ?_
    | with_reducible refine State.pfRecord_keep (Within.trans rfl hm) ?_
    | with_reducible refine State.dropFlushes_keep (Within.trans rfl hm) ?_
    | with_reducible refine Keep.ite ?_ ?_
    | (intro hx)
    | split

end Sys2Proof.Machine
end

