-- ==== Sys2Proof/Laws/KeepPower.lean ====
section
/-! SUPPORT. What each operation of Power, Commit leaves alone and keeps: its footprint as a mask of units, and that it keeps
the memories canonical, the queue of commands and a recorder key once set (see Laws/Keep.lean). -/

namespace Sys2Proof.Machine

set_option maxRecDepth 4000

theorem State.setPmb_keep {m : Nat} {s₀ : State} {s : State} {p0 : Nat} {x : PmbPort} (hm : Within 131072 m) (h : Keep m s₀ s) :
    Keep m s₀ (State.setPmb s p0 x) := by
  unfold State.setPmb
  iterate 60 try any_goals first
    | with_reducible assumption
    | with_reducible refine Keep.setPwr ?_ (hm.bit 17 rfl)

theorem State.setPdev_keep {m : Nat} {s₀ : State} {s : State} {d : Nat} {x : PwrDev} (hm : Within 131072 m) (h : Keep m s₀ s) :
    Keep m s₀ (State.setPdev s d x) := by
  unfold State.setPdev
  iterate 60 try any_goals first
    | with_reducible assumption
    | with_reducible refine Keep.setPwr ?_ (hm.bit 17 rfl)

theorem State.setPslot_keep {m : Nat} {s₀ : State} {s : State} {n : Nat} {x : PwrSlot} (hm : Within 131072 m) (h : Keep m s₀ s) :
    Keep m s₀ (State.setPslot s n x) := by
  unfold State.setPslot
  iterate 60 try any_goals first
    | with_reducible assumption
    | with_reducible refine Keep.setPwr ?_ (hm.bit 17 rfl)

theorem State.slotLow_keep {m : Nat} {s₀ : State} {s : State} {n : Nat} (hm : Within 131073 m) (h : Keep m s₀ s) :
    Keep m s₀ (State.slotLow s n) := by
  unfold State.slotLow
  iterate 60 try any_goals first
    | with_reducible assumption
    | with_reducible refine State.setPslot_keep (Within.trans rfl hm) ?_
    | with_reducible refine State.wrB_keep (Within.trans rfl hm) ?_

theorem State.slotTo_keep {m : Nat} {s₀ : State} {s : State} {n : Nat} {st : Nat} (hm : Within 131073 m) (h : Keep m s₀ s) :
    Keep m s₀ (State.slotTo s n st) := by
  unfold State.slotTo
  iterate 60 try any_goals first
    | with_reducible assumption
    | with_reducible refine State.wr_keep (Within.trans rfl hm) ?_
    | with_reducible refine State.slotLow_keep (Within.trans rfl hm) ?_

theorem State.slotJudge_keep {m : Nat} {s₀ : State} {s : State} {n : Nat} (hm : Within 1 m) (h : Keep m s₀ s) :
    Keep m s₀ (State.slotJudge s n) := by
  unfold State.slotJudge
  iterate 60 try any_goals first
    | with_reducible assumption
    | with_reducible refine State.wrB_keep (Within.trans rfl hm) ?_
    | with_reducible refine State.wr_keep (Within.trans rfl hm) ?_
    | with_reducible refine Keep.ite ?_ ?_

theorem State.slotGo_keep {m : Nat} {s₀ : State} {s : State} {n : Nat} (hm : Within 131073 m) (h : Keep m s₀ s) :
    Keep m s₀ (State.slotGo s n) := by
  unfold State.slotGo
  iterate 60 try any_goals first
    | with_reducible assumption
    | with_reducible refine State.wr_keep (Within.trans rfl hm) ?_
    | with_reducible refine State.wrB_keep (Within.trans rfl hm) ?_
    | with_reducible refine State.setPslot_keep (Within.trans rfl hm) ?_
    | with_reducible refine State.slotJudge_keep (Within.trans rfl hm) ?_
    | split

theorem State.slotReady_keep {m : Nat} {s₀ : State} {s : State} {n : Nat} (hm : Within 131073 m) (h : Keep m s₀ s) :
    Keep m s₀ (State.slotReady s n) := by
  unfold State.slotReady
  iterate 60 try any_goals first
    | with_reducible assumption
    | with_reducible refine State.slotGo_keep (Within.trans rfl hm) ?_
    | with_reducible refine State.setPslot_keep (Within.trans rfl hm) ?_
    | with_reducible refine Keep.ite ?_ ?_

theorem State.slotFree_keep {m : Nat} {s₀ : State} {s : State} {n : Nat} (hm : Within 131073 m) (h : Keep m s₀ s) :
    Keep m s₀ (State.slotFree s n) := by
  unfold State.slotFree
  iterate 60 try any_goals first
    | with_reducible assumption
    | with_reducible refine State.slotTo_keep (Within.trans rfl hm) ?_
    | with_reducible refine State.slotReady_keep (Within.trans rfl hm) ?_
    | with_reducible refine Keep.ite ?_ ?_

theorem State.slotHold_keep {m : Nat} {s₀ : State} {s : State} {n : Nat} (hm : Within 131073 m) (h : Keep m s₀ s) :
    Keep m s₀ (State.slotHold s n) := by
  unfold State.slotHold
  iterate 60 try any_goals first
    | with_reducible assumption
    | with_reducible refine State.slotTo_keep (Within.trans rfl hm) ?_
    | with_reducible refine Keep.ite ?_ ?_

theorem State.slotUnhold_keep {m : Nat} {s₀ : State} {s : State} {n : Nat} (hm : Within 131073 m) (h : Keep m s₀ s) :
    Keep m s₀ (State.slotUnhold s n) := by
  unfold State.slotUnhold
  iterate 60 try any_goals first
    | with_reducible assumption
    | with_reducible refine State.slotFree_keep (Within.trans rfl hm) ?_
    | with_reducible refine Keep.ite ?_ ?_

theorem State.slotTrip_keep {m : Nat} {s₀ : State} {s : State} {n : Nat} {cause : Nat} (hm : Within 133123 m) (h : Keep m s₀ s) :
    Keep m s₀ (State.slotTrip s n cause) := by
  unfold State.slotTrip
  iterate 60 try any_goals first
    | with_reducible assumption
    | with_reducible refine State.slotTo_keep (Within.trans rfl hm) ?_
    | with_reducible refine State.wr_keep (Within.trans rfl hm) ?_
    | with_reducible refine State.statAdd_keep (Within.trans rfl hm) ?_
    | with_reducible refine State.bump_keep (Within.trans rfl hm) ?_
    | with_reducible refine State.setPslot_keep (Within.trans rfl hm) ?_
    | with_reducible refine State.raise_keep (Within.trans rfl hm) ?_

theorem slotPresentChange_keep {m : Nat} {s₀ : State} {n : Nat} {present : Bool} {s : State} (hm : Within 131075 m) (h : Keep m s₀ s) :
    Keep m s₀ (slotPresentChange n present s) := by
  unfold slotPresentChange
  iterate 60 try any_goals first
    | with_reducible assumption
    | with_reducible refine State.wrB_keep (Within.trans rfl hm) ?_
    | with_reducible refine State.raise_keep (Within.trans rfl hm) ?_
    | with_reducible refine State.setPslot_keep (Within.trans rfl hm) ?_
    | with_reducible refine State.slotTo_keep (Within.trans rfl hm) ?_
    | with_reducible refine Keep.ite ?_ ?_

theorem slotInsertSettled_keep {m : Nat} {s₀ : State} {n : Nat} {s : State} (hm : Within 131072 m) (h : Keep m s₀ s) :
    Keep m s₀ (slotInsertSettled n s) := by
  unfold slotInsertSettled
  iterate 60 try any_goals first
    | with_reducible assumption
    | with_reducible refine State.setPslot_keep (Within.trans rfl hm) ?_
    | with_reducible refine Keep.ite ?_ ?_

theorem slotStart_keep {m : Nat} {s₀ : State} {n : Nat} {s : State} (hm : Within 131073 m) (h : Keep m s₀ s) :
    Keep m s₀ (slotStart n s) := by
  unfold slotStart
  iterate 60 try any_goals first
    | with_reducible assumption
    | with_reducible refine State.slotGo_keep (Within.trans rfl hm) ?_
    | with_reducible refine State.slotLow_keep (Within.trans rfl hm) ?_
    | with_reducible refine State.setPslot_keep (Within.trans rfl hm) ?_
    | with_reducible refine Keep.ite ?_ ?_

theorem slotFaultIn_keep {m : Nat} {s₀ : State} {n : Nat} {faultLow : Bool} {pgIn : Bool} {s : State} (hm : Within 1 m) (h : Keep m s₀ s) :
    Keep m s₀ (slotFaultIn n faultLow pgIn s) := by
  unfold slotFaultIn
  iterate 60 try any_goals first
    | with_reducible assumption
    | with_reducible refine State.wrB_keep (Within.trans rfl hm) ?_
    | with_reducible refine State.slotJudge_keep (Within.trans rfl hm) ?_
    | with_reducible refine Keep.ite ?_ ?_

theorem slotTripNow_keep {m : Nat} {s₀ : State} {n : Nat} {s : State} (hm : Within 133123 m) (h : Keep m s₀ s) :
    Keep m s₀ (slotTripNow n s) := by
  unfold slotTripNow
  iterate 60 try any_goals first
    | with_reducible assumption
    | with_reducible refine State.slotTrip_keep (Within.trans rfl hm) ?_
    | with_reducible refine Keep.ite ?_ ?_

theorem slotStartTimeout_keep {m : Nat} {s₀ : State} {n : Nat} {s : State} (hm : Within 133123 m) (h : Keep m s₀ s) :
    Keep m s₀ (slotStartTimeout n s) := by
  unfold slotStartTimeout
  iterate 60 try any_goals first
    | with_reducible assumption
    | with_reducible refine State.slotTrip_keep (Within.trans rfl hm) ?_
    | with_reducible refine Keep.ite ?_ ?_

theorem slotRetryExpiry_keep {m : Nat} {s₀ : State} {n : Nat} {s : State} (hm : Within 131073 m) (h : Keep m s₀ s) :
    Keep m s₀ (slotRetryExpiry n s) := by
  unfold slotRetryExpiry
  iterate 60 try any_goals first
    | with_reducible assumption
    | with_reducible refine State.setPslot_keep (Within.trans rfl hm) ?_
    | with_reducible refine State.slotFree_keep (Within.trans rfl hm) ?_
    | with_reducible refine State.wr_keep (Within.trans rfl hm) ?_
    | with_reducible refine Keep.ite ?_ ?_

theorem State.slotCtl_keep {m : Nat} {s₀ : State} {s : State} {n : Nat} {v : Word} (hm : Within 131073 m) (h : Keep m s₀ s) :
    Keep m s₀ (State.slotCtl s n v) := by
  unfold State.slotCtl
  iterate 60 try any_goals first
    | with_reducible assumption
    | with_reducible refine State.wrB_keep (Within.trans rfl hm) ?_
    | with_reducible refine State.slotTo_keep (Within.trans rfl hm) ?_
    | with_reducible refine State.setPslot_keep (Within.trans rfl hm) ?_
    | with_reducible refine Keep.ite ?_ ?_

theorem slotEnWrite_keep {m : Nat} {s₀ : State} {n : Nat} {v : Word} {s : State} (hm : Within 131073 m) (h : Keep m s₀ s) :
    Keep m s₀ (slotEnWrite n v s) := by
  unfold slotEnWrite
  iterate 60 try any_goals first
    | with_reducible assumption
    | with_reducible refine State.slotCtl_keep (Within.trans rfl hm) ?_
    | with_reducible refine Keep.ite ?_ ?_

theorem State.warnStart_keep {m : Nat} {s₀ : State} {s : State} (hm : Within 8522435 m) (h : Keep m s₀ s) :
    Keep m s₀ (State.warnStart s) := by
  unfold State.warnStart
  iterate 60 try any_goals first
    | with_reducible assumption
    | with_reducible refine State.wr_keep (Within.trans rfl hm) ?_
    | with_reducible refine State.bump_keep (Within.trans rfl hm) ?_
    | with_reducible refine State.raise_keep (Within.trans rfl hm) ?_
    | with_reducible refine State.pfWarn_keep (Within.trans rfl hm) ?_
    | with_reducible refine State.setPslot_keep (Within.trans rfl hm) ?_
    | with_reducible refine State.slotLow_keep (Within.trans rfl hm) ?_
    | with_reducible refine Keep.foldl (fun x a hx => ?_) _ ?_
    | with_reducible refine Keep.ite ?_ ?_
    | (intro hx)
    | split

theorem State.feedJudge_keep {m : Nat} {s₀ : State} {s : State} {x : Nat} (hm : Within 8522435 m) (h : Keep m s₀ s) :
    Keep m s₀ (State.feedJudge s x) := by
  unfold State.feedJudge
  iterate 60 try any_goals first
    | with_reducible assumption
    | with_reducible refine State.wr_keep (Within.trans rfl hm) ?_
    | with_reducible refine State.raise_keep (Within.trans rfl hm) ?_
    | with_reducible refine State.warnStart_keep (Within.trans rfl hm) ?_
    | with_reducible refine Keep.ite ?_ ?_
    | (intro hx)
    | split

theorem State.feedsJudge_keep {m : Nat} {s₀ : State} {s : State} (hm : Within 8522435 m) (h : Keep m s₀ s) :
    Keep m s₀ (State.feedsJudge s) := by
  unfold State.feedsJudge
  iterate 60 try any_goals first
    | with_reducible assumption
    | with_reducible refine State.feedJudge_keep (Within.trans rfl hm) ?_
    | split

theorem pwrFeedUv_keep {m : Nat} {s₀ : State} {x : Nat} {low : Bool} {s : State} (hm : Within 8522435 m) (h : Keep m s₀ s) :
    Keep m s₀ (pwrFeedUv x low s) := by
  unfold pwrFeedUv
  iterate 60 try any_goals first
    | with_reducible assumption
    | with_reducible refine State.feedJudge_keep (Within.trans rfl hm) ?_
    | with_reducible refine State.wrB_keep (Within.trans rfl hm) ?_
    | with_reducible refine Keep.ite ?_ ?_

theorem pwrFailEnd_keep {m : Nat} {s₀ : State} {s : State} (hm : Within 131203 m) (h : Keep m s₀ s) :
    Keep m s₀ (pwrFailEnd s) := by
  unfold pwrFailEnd
  iterate 60 try any_goals first
    | with_reducible assumption
    | with_reducible refine State.wr_keep (Within.trans rfl hm) ?_
    | with_reducible refine State.raise_keep (Within.trans rfl hm) ?_
    | with_reducible refine State.pfWithdraw_keep (Within.trans rfl hm) ?_
    | with_reducible refine State.setPslot_keep (Within.trans rfl hm) ?_
    | with_reducible refine Keep.foldl (fun x a hx => ?_) _ ?_
    | with_reducible refine Keep.ite ?_ ?_
    | (intro hx)
    | split

theorem State.pmbBegin_keep {m : Nat} {s₀ : State} {s : State} {p0 : Nat} (hm : Within 8388608 m) (h : Keep m s₀ s) :
    Keep m s₀ (State.pmbBegin s p0) := by
  unfold State.pmbBegin
  iterate 60 try any_goals first
    | with_reducible assumption
    | with_reducible refine State.emit_keep (Within.trans rfl hm) ?_
    | with_reducible refine Keep.ite ?_ ?_
    | split

theorem State.pmbAdd_keep {m : Nat} {s₀ : State} {s : State} {p0 : Nat} {ops : List PmbOp} (hm : Within 8519680 m) (h : Keep m s₀ s) :
    Keep m s₀ (State.pmbAdd s p0 ops) := by
  unfold State.pmbAdd
  iterate 60 try any_goals first
    | with_reducible assumption
    | with_reducible refine State.setPmb_keep (Within.trans rfl hm) ?_
    | with_reducible refine State.pmbBegin_keep (Within.trans rfl hm) ?_
    | with_reducible refine Keep.ite ?_ ?_

theorem State.devWrites_keep {m : Nat} {s₀ : State} {s : State} {d : Nat} {mode : Bool} (hm : Within 25296896 m) (h : Keep m s₀ s) :
    Keep m s₀ (State.devWrites s d mode) := by
  unfold State.devWrites
  iterate 60 try any_goals first
    | with_reducible assumption
    | with_reducible refine State.free_keep (Within.trans rfl hm) ?_
    | with_reducible refine State.pmbAdd_keep (Within.trans rfl hm) ?_

theorem State.pmbLimits_keep {m : Nat} {s₀ : State} {s : State} {mode : Bool} (hm : Within 25296896 m) (h : Keep m s₀ s) :
    Keep m s₀ (State.pmbLimits s mode) := by
  unfold State.pmbLimits
  iterate 60 try any_goals first
    | with_reducible assumption
    | with_reducible refine State.devWrites_keep (Within.trans rfl hm) ?_
    | with_reducible refine Keep.foldl (fun x a hx => ?_) _ ?_
    | with_reducible refine Keep.ite ?_ ?_

theorem State.pwrEnable_keep {m : Nat} {s₀ : State} {s : State} (hm : Within 25296897 m) (h : Keep m s₀ s) :
    Keep m s₀ (State.pwrEnable s) := by
  unfold State.pwrEnable
  iterate 60 try any_goals first
    | with_reducible assumption
    | with_reducible refine State.pmbLimits_keep (Within.trans rfl hm) ?_
    | with_reducible refine State.wr_keep (Within.trans rfl hm) ?_

theorem State.missSample_keep {m : Nat} {s₀ : State} {s : State} {d : Nat} (hm : Within 133123 m) (h : Keep m s₀ s) :
    Keep m s₀ (State.missSample s d) := by
  unfold State.missSample
  iterate 60 try any_goals first
    | with_reducible assumption
    | with_reducible refine State.bump_keep (Within.trans rfl hm) ?_
    | with_reducible refine State.setPdev_keep (Within.trans rfl hm) ?_
    | with_reducible refine State.wr_keep (Within.trans rfl hm) ?_
    | with_reducible refine State.raise_keep (Within.trans rfl hm) ?_
    | with_reducible refine Keep.ite ?_ ?_

theorem State.portCycle_keep {m : Nat} {s₀ : State} {s : State} {p0 : Nat} (hm : Within 8521731 m) (h : Keep m s₀ s) :
    Keep m s₀ (State.portCycle s p0) := by
  unfold State.portCycle
  iterate 60 try any_goals first
    | with_reducible assumption
    | with_reducible refine State.missSample_keep (Within.trans rfl hm) ?_
    | with_reducible refine State.setPdev_keep (Within.trans rfl hm) ?_
    | with_reducible refine State.setPmb_keep (Within.trans rfl hm) ?_
    | with_reducible refine State.pmbAdd_keep (Within.trans rfl hm) ?_
    | with_reducible refine Keep.foldl (fun x a hx => ?_) _ ?_
    | with_reducible refine Keep.ite ?_ ?_

theorem pwrSampleCycle_keep {m : Nat} {s₀ : State} {s : State} (hm : Within 8521731 m) (h : Keep m s₀ s) :
    Keep m s₀ (pwrSampleCycle s) := by
  unfold pwrSampleCycle
  iterate 60 try any_goals first
    | with_reducible assumption
    | with_reducible refine State.setPdev_keep (Within.trans rfl hm) ?_
    | with_reducible refine State.portCycle_keep (Within.trans rfl hm) ?_
    | with_reducible refine Keep.foldl (fun x a hx => ?_) _ ?_
    | with_reducible refine Keep.ite ?_ ?_

theorem State.sampleDone_keep {m : Nat} {s₀ : State} {s : State} {d : Nat} {mv : Nat} {ma : Nat} (hm : Within 8522435 m) (h : Keep m s₀ s) :
    Keep m s₀ (State.sampleDone s d mv ma) := by
  unfold State.sampleDone
  iterate 60 try any_goals first
    | with_reducible assumption
    | with_reducible refine State.wr_keep (Within.trans rfl hm) ?_
    | with_reducible refine State.statSet_keep (Within.trans rfl hm) ?_
    | with_reducible refine State.setPdev_keep (Within.trans rfl hm) ?_
    | with_reducible refine State.feedJudge_keep (Within.trans rfl hm) ?_
    | with_reducible refine Keep.ite ?_ ?_
    | (intro hx)
    | split

theorem State.pmbResult_keep {m : Nat} {s₀ : State} {s : State} {p0 : Nat} {o : PmbOp} {w : Nat} (hm : Within 8522435 m) (h : Keep m s₀ s) :
    Keep m s₀ (State.pmbResult s p0 o w) := by
  unfold State.pmbResult
  iterate 60 try any_goals first
    | with_reducible assumption
    | with_reducible refine State.sampleDone_keep (Within.trans rfl hm) ?_
    | with_reducible refine State.setPdev_keep (Within.trans rfl hm) ?_
    | with_reducible refine State.raise_keep (Within.trans rfl hm) ?_
    | with_reducible refine State.wr_keep (Within.trans rfl hm) ?_
    | with_reducible refine State.setPmb_keep (Within.trans rfl hm) ?_
    | with_reducible refine State.bump_keep (Within.trans rfl hm) ?_
    | (extract_lets +onlyGivenNames y; revert y; intro _)
    | split

theorem pmbusTransactionDone_keep {m : Nat} {s₀ : State} {p : Nat} {cause : Nat} {w : Nat} {s : State} (hm : Within 8522435 m) (h : Keep m s₀ s) :
    Keep m s₀ (pmbusTransactionDone p cause w s) := by
  unfold pmbusTransactionDone
  iterate 60 try any_goals first
    | with_reducible assumption
    | with_reducible refine State.setPmb_keep (Within.trans rfl hm) ?_
    | with_reducible refine State.setPdev_keep (Within.trans rfl hm) ?_
    | with_reducible refine State.pmbBegin_keep (Within.trans rfl hm) ?_
    | with_reducible refine State.pmbResult_keep (Within.trans rfl hm) ?_
    | with_reducible refine Keep.ite ?_ ?_
    | (intro hx)
    | (extract_lets +onlyGivenNames y; revert y; intro _)
    | split

theorem pmbAlert_keep {m : Nat} {s₀ : State} {p0 : Nat} {s : State} (hm : Within 8519680 m) (h : Keep m s₀ s) :
    Keep m s₀ (pmbAlert p0 s) := by
  unfold pmbAlert
  iterate 60 try any_goals first
    | with_reducible assumption
    | with_reducible refine State.pmbAdd_keep (Within.trans rfl hm) ?_
    | with_reducible refine State.setPmb_keep (Within.trans rfl hm) ?_
    | split

theorem droopDetect_keep {m : Nat} {s₀ : State} {s : State} (hm : Within 2051 m) (h : Keep m s₀ s) :
    Keep m s₀ (droopDetect s) := by
  unfold droopDetect
  iterate 60 try any_goals first
    | with_reducible assumption
    | with_reducible refine State.raise_keep (Within.trans rfl hm) ?_
    | with_reducible refine State.statAdd_keep (Within.trans rfl hm) ?_
    | with_reducible refine State.bump_keep (Within.trans rfl hm) ?_
    | with_reducible refine State.wr_keep (Within.trans rfl hm) ?_
    | with_reducible refine Keep.ite ?_ ?_

theorem droopClean_keep {m : Nat} {s₀ : State} {s : State} (hm : Within 1 m) (h : Keep m s₀ s) :
    Keep m s₀ (droopClean s) := by
  unfold droopClean
  iterate 60 try any_goals first
    | with_reducible assumption
    | with_reducible refine State.wr_keep (Within.trans rfl hm) ?_

theorem State.lensMarks_keep {m : Nat} {s₀ : State} {s : State} {causes : List Nat} (hm : Within 1 m) (h : Keep m s₀ s) :
    Keep m s₀ (State.lensMarks s causes) := by
  unfold State.lensMarks
  iterate 60 try any_goals first
    | with_reducible assumption
    | with_reducible refine State.wr_keep (Within.trans rfl hm) ?_
    | with_reducible refine Keep.foldl (fun x a hx => ?_) _ ?_
    | with_reducible refine Keep.ite ?_ ?_

theorem State.lensChanged_keep {m : Nat} {s₀ : State} {s : State} {n : Nat} {old : OutLens} (hm : Within 145 m) (h : Keep m s₀ s) :
    Keep m s₀ (State.lensChanged s n old) := by
  unfold State.lensChanged
  iterate 60 try any_goals first
    | with_reducible assumption
    | with_reducible refine State.setClaims_keep (Within.trans rfl hm) ?_
    | with_reducible refine State.lcDrop_keep (Within.trans rfl hm) ?_
    | with_reducible refine Keep.ite ?_ ?_

theorem State.mirrorDesc_keep {m : Nat} {s₀ : State} {s : State} {k : Nat} (hm : Within 8395265 m) (h : Keep m s₀ s) :
    Keep m s₀ (State.mirrorDesc s k) := by
  unfold State.mirrorDesc
  iterate 60 try any_goals first
    | with_reducible assumption
    | with_reducible refine State.mirror_keep (Within.trans rfl hm) ?_

theorem State.schCommitted_keep {m : Nat} {s₀ : State} {s : State} {was : List Nat} (hm : Within 8396289 m) (h : Keep m s₀ s) :
    Keep m s₀ (State.schCommitted s was) := by
  unfold State.schCommitted
  iterate 60 try any_goals first
    | with_reducible assumption
    | with_reducible refine State.setSch_keep (Within.trans rfl hm) ?_
    | with_reducible refine State.mirrorDesc_keep (Within.trans rfl hm) ?_
    | with_reducible refine Keep.foldl (fun x a hx => ?_) _ ?_
    | with_reducible refine Keep.ite ?_ ?_

theorem State.mirrorCommitted_keep {m : Nat} {s₀ : State} {s : State} {keys : List Nat} (hm : Within 8395265 m) (h : Keep m s₀ s) :
    Keep m s₀ (State.mirrorCommitted s keys) := by
  unfold State.mirrorCommitted
  iterate 60 try any_goals first
    | with_reducible assumption
    | with_reducible refine State.mirrorReg_keep (Within.trans rfl hm) ?_
    | with_reducible refine State.mirror_keep (Within.trans rfl hm) ?_
    | with_reducible refine Keep.foldl (fun x a hx => ?_) _ ?_
    | with_reducible refine Keep.ite ?_ ?_

theorem State.commitDone_keep {m : Nat} {s₀ : State} {s : State} {w : CommitWait} {p0 : Nat} {bits : Nat} (hm : Within 64 m) (h : Keep m s₀ s) :
    Keep m s₀ (State.commitDone s w p0 bits) := by
  unfold State.commitDone
  iterate 60 try any_goals first
    | with_reducible assumption
    | with_reducible refine State.detachResult_keep (Within.trans rfl hm) ?_

theorem State.exchange_keep {m : Nat} {s₀ : State} {s : State} {refused : Nat → Bool} {keys : List Nat} (hm : Within 1 m) (h : Keep m s₀ s) :
    Keep m s₀ (State.exchange s refused keys) := by
  unfold State.exchange
  iterate 60 try any_goals first
    | with_reducible assumption
    | with_reducible refine State.setShd_keep (Within.trans rfl hm) ?_
    | with_reducible refine State.setReg_keep (Within.trans rfl hm) ?_
    | with_reducible refine Keep.foldl (fun x a hx => ?_) _ ?_
    | with_reducible refine Keep.ite ?_ ?_

theorem State.keepRefused_keep {m : Nat} {s₀ : State} {s : State} {l : List (Nat × Word)} (hm : Within 1 m) (h : Keep m s₀ s) :
    Keep m s₀ (State.keepRefused s l) := by
  unfold State.keepRefused
  iterate 60 try any_goals first
    | with_reducible assumption
    | with_reducible refine Keep.setRegs' ?_ (hm.bit 0 rfl) rfl rfl

theorem State.commitMarks_keep {m : Nat} {s₀ : State} {s : State} {p0 : Nat} (hm : Within 2049 m) (h : Keep m s₀ s) :
    Keep m s₀ (State.commitMarks s p0) := by
  unfold State.commitMarks
  iterate 60 try any_goals first
    | with_reducible assumption
    | with_reducible refine State.wr_keep (Within.trans rfl hm) ?_
    | with_reducible refine State.wrB_keep (Within.trans rfl hm) ?_
    | with_reducible refine State.bump_keep (Within.trans rfl hm) ?_

theorem State.lensRefusal_keep {m : Nat} {s₀ : State} {s : State} {oldBank : Bool} {causes : List Nat} (hm : Within 2 m) (h : Keep m s₀ s) :
    Keep m s₀ (State.lensRefusal s oldBank causes) := by
  unfold State.lensRefusal
  iterate 60 try any_goals first
    | with_reducible assumption
    | with_reducible refine State.raise_keep (Within.trans rfl hm) ?_
    | with_reducible refine Keep.setFlt ?_ (hm.bit 1 rfl)

theorem State.foldVerdict_keep {m : Nat} {s₀ : State} {s : State} {fc : Nat × Nat} (hm : Within 3 m) (h : Keep m s₀ s) :
    Keep m s₀ (State.foldVerdict s fc) := by
  unfold State.foldVerdict
  iterate 60 try any_goals first
    | with_reducible assumption
    | with_reducible refine State.wr_keep (Within.trans rfl hm) ?_
    | with_reducible refine State.wrB_keep (Within.trans rfl hm) ?_
    | with_reducible refine State.raise_keep (Within.trans rfl hm) ?_
    | with_reducible refine Keep.ite ?_ ?_

theorem State.commitRefusals_keep {m : Nat} {s₀ : State} {s : State} {o : State} (hm : Within 3 m) (h : Keep m s₀ s) (h1 : Keep m s₀ o) :
    Keep m s₀ (State.commitRefusals s o) := by
  unfold State.commitRefusals
  iterate 60 try any_goals first
    | with_reducible assumption
    | with_reducible refine State.lensMarks_keep (Within.trans rfl hm) ?_
    | with_reducible refine State.lensRefusal_keep (Within.trans rfl hm) ?_
    | with_reducible refine State.raise_keep (Within.trans rfl hm) ?_
    | with_reducible refine State.foldVerdict_keep (Within.trans rfl hm) ?_
    | with_reducible refine Keep.foldl (fun x a hx => ?_) _ ?_
    | with_reducible refine Keep.ite ?_ ?_

theorem State.lensesCommitted_keep {m : Nat} {s₀ : State} {s : State} {o : State} (hm : Within 145 m) (h : Keep m s₀ s) (h1 : Keep m s₀ o) :
    Keep m s₀ (State.lensesCommitted s o) := by
  unfold State.lensesCommitted
  iterate 60 try any_goals first
    | with_reducible assumption
    | with_reducible refine State.lensChanged_keep (Within.trans rfl hm) ?_
    | with_reducible refine Keep.foldl (fun x a hx => ?_) _ ?_
    | with_reducible refine Keep.ite ?_ ?_

theorem State.cadCommitted_keep {m : Nat} {s₀ : State} {s : State} {o : State} (hm : Within 3075 m) (h : Keep m s₀ s) (h1 : Keep m s₀ o) :
    Keep m s₀ (State.cadCommitted s o) := by
  unfold State.cadCommitted
  iterate 60 try any_goals first
    | with_reducible assumption
    | with_reducible refine State.cadSelect_keep (Within.trans rfl hm) ?_
    | with_reducible refine State.cadStepTo_keep (Within.trans rfl hm) ?_
    | with_reducible refine State.epochRateSet_keep (Within.trans rfl hm) ?_
    | with_reducible refine Keep.ite ?_ ?_

theorem State.limitsCommitted_keep {m : Nat} {s₀ : State} {s : State} {o : State} (hm : Within 25299651 m) (h : Keep m s₀ s) :
    Keep m s₀ (State.limitsCommitted s o) := by
  unfold State.limitsCommitted
  iterate 60 try any_goals first
    | with_reducible assumption
    | with_reducible refine State.feedsJudge_keep (Within.trans rfl hm) ?_
    | with_reducible refine State.pmbLimits_keep (Within.trans rfl hm) ?_
    | with_reducible refine Keep.ite ?_ ?_
    | (intro hx)
    | split

theorem State.staleCommitted_keep {m : Nat} {s₀ : State} {s : State} (hm : Within 256 m) (h : Keep m s₀ s) :
    Keep m s₀ (State.staleCommitted s) := by
  unfold State.staleCommitted
  iterate 60 try any_goals first
    | with_reducible assumption
    | with_reducible refine State.setFold_keep (Within.trans rfl hm) ?_
    | with_reducible refine Keep.foldl (fun x a hx => ?_) _ ?_
    | with_reducible refine Keep.ite ?_ ?_
    | (intro hx)
    | split

theorem State.commitAnswers_keep {m : Nat} {s₀ : State} {s : State} {p0 : Nat} {bits : Nat} (hm : Within 72 m) (h : Keep m s₀ s) :
    Keep m s₀ (State.commitAnswers s p0 bits) := by
  unfold State.commitAnswers
  iterate 60 try any_goals first
    | with_reducible assumption
    | with_reducible refine State.commitDone_keep (Within.trans rfl hm) ?_
    | with_reducible refine Keep.foldl (fun x a hx => ?_) _ ?_
    | with_reducible refine Keep.setCommits ?_ (hm.bit 3 rfl)

theorem State.wireCommitted_keep {m : Nat} {s₀ : State} {s : State} {old : State} (hm : Within 8396800 m) (h : Keep m s₀ s) :
    Keep m s₀ (State.wireCommitted s old) := by
  unfold State.wireCommitted
  iterate 60 try any_goals first
    | with_reducible assumption
    | with_reducible refine State.emit_keep (Within.trans rfl hm) ?_
    | with_reducible refine State.setSp_keep (Within.trans rfl hm) ?_
    | with_reducible refine State.deFull_keep (Within.trans rfl hm) ?_
    | with_reducible refine Keep.foldl (fun x a hx => ?_) _ ?_
    | with_reducible refine Keep.ite ?_ ?_
    | (intro hx)
    | split

theorem State.commitNow_keep {m : Nat} {s₀ : State} {s : State} {p : Nat} (hm : Within 25313243 m) (h : Keep m s₀ s) :
    Keep m s₀ (State.commitNow s p) := by
  unfold State.commitNow
  iterate 60 try any_goals first
    | with_reducible assumption
    | with_reducible refine State.placeCheck_keep (Within.trans rfl hm) ?_
    | with_reducible refine State.retryWaiting_keep (Within.trans rfl hm) ?_
    | with_reducible refine State.schCommitted_keep (Within.trans rfl hm) ?_
    | with_reducible refine State.mirrorCommitted_keep (Within.trans rfl hm) ?_
    | with_reducible refine State.exchange_keep (Within.trans rfl hm) ?_
    | with_reducible refine State.keepRefused_keep (Within.trans rfl hm) ?_
    | with_reducible refine State.commitMarks_keep (Within.trans rfl hm) ?_
    | with_reducible refine State.commitRefusals_keep (Within.trans rfl hm) ?_ ?_
    | with_reducible refine State.lensesCommitted_keep (Within.trans rfl hm) ?_ ?_
    | with_reducible refine State.cadCommitted_keep (Within.trans rfl hm) ?_ ?_
    | with_reducible refine State.limitsCommitted_keep (Within.trans rfl hm) ?_
    | with_reducible refine State.staleCommitted_keep (Within.trans rfl hm) ?_
    | with_reducible refine State.commitAnswers_keep (Within.trans rfl hm) ?_
    | with_reducible refine State.wireCommitted_keep (Within.trans rfl hm) ?_
    | (intro hx)
    | split
    | dsimp only

theorem State.commitBoundary_keep {m : Nat} {s₀ : State} {s : State} {p0 : Nat} (hm : Within 25313243 m) (h : Keep m s₀ s) :
    Keep m s₀ (State.commitBoundary s p0) := by
  unfold State.commitBoundary
  iterate 60 try any_goals first
    | with_reducible assumption
    | with_reducible refine State.commitNow_keep (Within.trans rfl hm) ?_
    | with_reducible refine State.raise_keep (Within.trans rfl hm) ?_
    | with_reducible refine State.bump_keep (Within.trans rfl hm) ?_
    | with_reducible refine State.wr_keep (Within.trans rfl hm) ?_
    | with_reducible refine State.commitDone_keep (Within.trans rfl hm) ?_
    | with_reducible refine Keep.foldl (fun x a hx => ?_) _ ?_
    | with_reducible refine Keep.ite ?_ ?_
    | with_reducible refine Keep.setCommits ?_ (hm.bit 3 rfl)

end Sys2Proof.Machine
end

