-- ==== Sys2Proof/Laws/KeepPorts.lean ====
section
/-! SUPPORT. What each operation of Net, Chains, Serial leaves alone and keeps: its footprint as a mask of units, and that it keeps
the memories canonical, the queue of commands and a recorder key once set (see Laws/Keep.lean). -/

namespace Sys2Proof.Machine

set_option maxRecDepth 4000

theorem State.popTaken_keep {m : Nat} {s₀ : State} {s : State} {q : Nat} {want : Packet → Bool} {p : (Packet × State)} (e : State.popTaken s q want = some p) (hm : Within 512 m) (h : Keep m s₀ s) :
    Keep m s₀ p.2 := by
  unfold State.popTaken at e
  extract_lets l before y at e
  clear_value before
  split at e
  · cases e
  · split at e
    · cases e
    · cases e
      exact Keep.setNet h (hm.bit 9 rfl)

theorem State.withTaken_keep {m : Nat} {s₀ : State} {s : State} {q : Nat} {want : Packet → Bool} {f : Packet → State → State} (hm : Within 512 m) (h : Keep m s₀ s) (h1 : ∀ y0 x, Keep m s₀ x → Keep m s₀ (f y0 x)) :
    Keep m s₀ (State.withTaken s q want f) := by
  unfold State.withTaken
  iterate 60 try any_goals first
    | with_reducible assumption
    | with_reducible refine h1 _ _ ?_
    | (have hx := State.popTaken_keep (by with_reducible assumption) (Within.trans rfl hm) (by with_reducible assumption); with_reducible exact hx)
    | split

theorem State.sendOn_keep {m : Nat} {s₀ : State} {s : State} {q : Nat} {p0 : Packet} (hm : Within 8389121 m) (h : Keep m s₀ s) :
    Keep m s₀ (State.sendOn s q p0) := by
  unfold State.sendOn
  iterate 60 try any_goals first
    | with_reducible assumption
    | with_reducible refine State.sendRing_keep (Within.trans rfl hm) ?_

theorem netJoinStart_keep {m : Nat} {s₀ : State} {s : State} (hm : Within 8391171 m) (h : Keep m s₀ s) :
    Keep m s₀ (netJoinStart s) := by
  unfold netJoinStart
  iterate 60 try any_goals first
    | with_reducible assumption
    | with_reducible refine State.raise_keep (Within.trans rfl hm) ?_
    | with_reducible refine State.wr_keep (Within.trans rfl hm) ?_
    | with_reducible refine State.sendJoin_keep (Within.trans rfl hm) ?_
    | with_reducible refine Keep.ite ?_ ?_

theorem State.joinReturned_keep {m : Nat} {s₀ : State} {s : State} {p : Packet} (hm : Within 513 m) (h : Keep m s₀ s) :
    Keep m s₀ (State.joinReturned s p) := by
  unfold State.joinReturned
  iterate 60 try any_goals first
    | with_reducible assumption
    | with_reducible refine State.wr_keep (Within.trans rfl hm) ?_
    | with_reducible refine State.stageStep_keep (Within.trans rfl hm) ?_
    | with_reducible refine State.setNode_keep (Within.trans rfl hm) ?_
    | with_reducible refine Keep.ite ?_ ?_
    | (intro hx)
    | split
    | with_reducible refine Keep.setNet ?_ (hm.bit 9 rfl)

theorem State.duplicate_keep {m : Nat} {s₀ : State} {s : State} {ps : List Nat} (hm : Within 515 m) (h : Keep m s₀ s) :
    Keep m s₀ (State.duplicate s ps) := by
  unfold State.duplicate
  iterate 60 try any_goals first
    | with_reducible assumption
    | with_reducible refine State.raise_keep (Within.trans rfl hm) ?_
    | with_reducible refine State.wr_keep (Within.trans rfl hm) ?_
    | with_reducible refine Keep.setNet ?_ (hm.bit 9 rfl)

theorem State.elect_keep {m : Nat} {s₀ : State} {s : State} (hm : Within 8391169 m) (h : Keep m s₀ s) :
    Keep m s₀ (State.elect s) := by
  unfold State.elect
  iterate 60 try any_goals first
    | with_reducible assumption
    | with_reducible refine State.wr_keep (Within.trans rfl hm) ?_
    | with_reducible refine State.sendMgmt_keep (Within.trans rfl hm) ?_
    | split
    | with_reducible refine Keep.setNet ?_ (hm.bit 9 rfl)

theorem State.electOnJoin_keep {m : Nat} {s₀ : State} {s : State} {p : Packet} (hm : Within 8391169 m) (h : Keep m s₀ s) :
    Keep m s₀ (State.electOnJoin s p) := by
  unfold State.electOnJoin
  iterate 60 try any_goals first
    | with_reducible assumption
    | with_reducible refine State.elect_keep (Within.trans rfl hm) ?_
    | with_reducible refine Keep.ite ?_ ?_
    | (intro hx)
    | split

theorem joinRx_keep {m : Nat} {s₀ : State} {queue : Nat} {s : State} (hm : Within 8391171 m) (h : Keep m s₀ s) :
    Keep m s₀ (joinRx queue s) := by
  unfold joinRx
  iterate 60 try any_goals first
    | with_reducible assumption
    | with_reducible refine State.setNode_keep (Within.trans rfl hm) ?_
    | with_reducible refine State.sendMgmt_keep (Within.trans rfl hm) ?_
    | with_reducible refine State.withTaken_keep (Within.trans rfl hm) ?_ ?_
    | with_reducible refine State.sendOn_keep (Within.trans rfl hm) ?_
    | with_reducible refine State.joinReturned_keep (Within.trans rfl hm) ?_
    | with_reducible refine State.duplicate_keep (Within.trans rfl hm) ?_
    | with_reducible refine State.electOnJoin_keep (Within.trans rfl hm) ?_
    | with_reducible refine Keep.ite ?_ ?_
    | (intro hx)
    | split
    | dsimp only

theorem joinTimeout_keep {m : Nat} {s₀ : State} {s : State} (hm : Within 8391169 m) (h : Keep m s₀ s) :
    Keep m s₀ (joinTimeout s) := by
  unfold joinTimeout
  iterate 60 try any_goals first
    | with_reducible assumption
    | with_reducible refine State.wr_keep (Within.trans rfl hm) ?_
    | with_reducible refine State.setNode_keep (Within.trans rfl hm) ?_
    | with_reducible refine State.sendJoin_keep (Within.trans rfl hm) ?_
    | with_reducible refine Keep.foldl (fun x a hx => ?_) _ ?_
    | with_reducible refine Keep.ite ?_ ?_
    | (intro hx)
    | split
    | with_reducible refine Keep.setNet ?_ (hm.bit 9 rfl)

theorem joinDupRx_keep {m : Nat} {s₀ : State} {queue : Nat} {s : State} (hm : Within 25166339 m) (h : Keep m s₀ s) :
    Keep m s₀ (joinDupRx queue s) := by
  unfold joinDupRx
  iterate 60 try any_goals first
    | with_reducible assumption
    | with_reducible refine State.free_keep (Within.trans rfl hm) ?_
    | with_reducible refine State.withTaken_keep (Within.trans rfl hm) ?_ ?_
    | with_reducible refine State.sendOn_keep (Within.trans rfl hm) ?_
    | with_reducible refine State.duplicate_keep (Within.trans rfl hm) ?_
    | with_reducible refine Keep.ite ?_ ?_
    | (intro hx)
    | split
    | dsimp only

theorem State.holdEnd_keep {m : Nat} {s₀ : State} {s : State} {side : Nat} (hm : Within 8391169 m) (h : Keep m s₀ s) :
    Keep m s₀ (State.holdEnd s side) := by
  unfold State.holdEnd
  iterate 60 try any_goals first
    | with_reducible assumption
    | with_reducible refine State.setWrapRec_keep (Within.trans rfl hm) ?_
    | with_reducible refine State.unwrapSide_keep (Within.trans rfl hm) ?_
    | with_reducible refine Keep.ite ?_ ?_

theorem State.wrapLost_keep {m : Nat} {s₀ : State} {s : State} {side : Nat} (hm : Within 8391171 m) (h : Keep m s₀ s) :
    Keep m s₀ (State.wrapLost s side) := by
  unfold State.wrapLost
  iterate 60 try any_goals first
    | with_reducible assumption
    | with_reducible refine State.heldLost_keep (Within.trans rfl hm) ?_
    | with_reducible refine State.holdEnd_keep (Within.trans rfl hm) ?_
    | split

theorem netWrapLost_keep {m : Nat} {s₀ : State} {side : Nat} {s : State} (hm : Within 8391171 m) (h : Keep m s₀ s) :
    Keep m s₀ (netWrapLost side s) := by
  unfold netWrapLost
  iterate 60 try any_goals first
    | with_reducible assumption
    | with_reducible refine State.wrapLost_keep (Within.trans rfl hm) ?_
    | with_reducible refine Keep.ite ?_ ?_

theorem State.partnerWrap_keep {m : Nat} {s₀ : State} {s : State} {side : Nat} {seqv : Bool} {nextSeq : Nat} (hm : Within 8391171 m) (h : Keep m s₀ s) :
    Keep m s₀ (State.partnerWrap s side seqv nextSeq) := by
  unfold State.partnerWrap
  iterate 60 try any_goals first
    | with_reducible assumption
    | with_reducible refine State.sendRing_keep (Within.trans rfl hm) ?_
    | with_reducible refine State.holdEnd_keep (Within.trans rfl hm) ?_
    | with_reducible refine State.wrapLost_keep (Within.trans rfl hm) ?_
    | with_reducible refine Keep.foldl (fun x a hx => ?_) _ ?_
    | with_reducible refine Keep.ite ?_ ?_

theorem State.ownPasses_keep {m : Nat} {s₀ : State} {s : State} {queue : Nat} {p : Packet} (hm : Within 8389121 m) (h : Keep m s₀ s) :
    Keep m s₀ (State.ownPasses s queue p) := by
  unfold State.ownPasses
  iterate 60 try any_goals first
    | with_reducible assumption
    | with_reducible refine State.sendOn_keep (Within.trans rfl hm) ?_
    | with_reducible refine Keep.ite ?_ ?_
    | (intro hx)
    | split

theorem wrapRx_keep {m : Nat} {s₀ : State} {queue : Nat} {s : State} (hm : Within 8391171 m) (h : Keep m s₀ s) :
    Keep m s₀ (wrapRx queue s) := by
  unfold wrapRx
  iterate 60 try any_goals first
    | with_reducible assumption
    | with_reducible refine State.startRebuild_keep (Within.trans rfl hm) ?_
    | with_reducible refine State.withTaken_keep (Within.trans rfl hm) ?_ ?_
    | with_reducible refine State.sendOn_keep (Within.trans rfl hm) ?_
    | with_reducible refine State.partnerWrap_keep (Within.trans rfl hm) ?_
    | with_reducible refine State.ownPasses_keep (Within.trans rfl hm) ?_
    | with_reducible refine Keep.foldl (fun x a hx => ?_) _ ?_
    | with_reducible refine Keep.ite ?_ ?_
    | (intro hx)
    | split
    | dsimp only
    | with_reducible refine Keep.setNet ?_ (hm.bit 9 rfl)

theorem unwrapRx_keep {m : Nat} {s₀ : State} {queue : Nat} {s : State} (hm : Within 8391169 m) (h : Keep m s₀ s) :
    Keep m s₀ (unwrapRx queue s) := by
  unfold unwrapRx
  iterate 60 try any_goals first
    | with_reducible assumption
    | with_reducible refine State.startRebuild_keep (Within.trans rfl hm) ?_
    | with_reducible refine State.withTaken_keep (Within.trans rfl hm) ?_ ?_
    | with_reducible refine State.sendOn_keep (Within.trans rfl hm) ?_
    | with_reducible refine State.ownPasses_keep (Within.trans rfl hm) ?_
    | with_reducible refine Keep.ite ?_ ?_
    | (intro hx)
    | split
    | dsimp only
    | with_reducible refine Keep.setNet ?_ (hm.bit 9 rfl)

theorem electStart_keep {m : Nat} {s₀ : State} {s : State} (hm : Within 8391169 m) (h : Keep m s₀ s) :
    Keep m s₀ (electStart s) := by
  unfold electStart
  iterate 60 try any_goals first
    | with_reducible assumption
    | with_reducible refine State.elect_keep (Within.trans rfl hm) ?_
    | with_reducible refine Keep.ite ?_ ?_

theorem electRx_keep {m : Nat} {s₀ : State} {queue : Nat} {s : State} (hm : Within 8391169 m) (h : Keep m s₀ s) :
    Keep m s₀ (electRx queue s) := by
  unfold electRx
  iterate 60 try any_goals first
    | with_reducible assumption
    | with_reducible refine State.wr_keep (Within.trans rfl hm) ?_
    | with_reducible refine State.stageStep_keep (Within.trans rfl hm) ?_
    | with_reducible refine State.sendMgmt_keep (Within.trans rfl hm) ?_
    | with_reducible refine State.withTaken_keep (Within.trans rfl hm) ?_ ?_
    | with_reducible refine State.sendOn_keep (Within.trans rfl hm) ?_
    | with_reducible refine State.elect_keep (Within.trans rfl hm) ?_
    | with_reducible refine Keep.ite ?_ ?_
    | (intro hx)
    | split
    | dsimp only
    | with_reducible refine Keep.setNet ?_ (hm.bit 9 rfl)

theorem State.electionOver_keep {m : Nat} {s₀ : State} {s : State} (hm : Within 512 m) (h : Keep m s₀ s) :
    Keep m s₀ (State.electionOver s) := by
  unfold State.electionOver
  iterate 60 try any_goals first
    | with_reducible assumption
    | split
    | with_reducible refine Keep.setNet ?_ (hm.bit 9 rfl)

theorem State.electedRole_keep {m : Nat} {s₀ : State} {s : State} {p0 : Packet} (hm : Within 1 m) (h : Keep m s₀ s) :
    Keep m s₀ (State.electedRole s p0) := by
  unfold State.electedRole
  iterate 60 try any_goals first
    | with_reducible assumption
    | with_reducible refine State.wr_keep (Within.trans rfl hm) ?_
    | with_reducible refine Keep.ite ?_ ?_

theorem electedRx_keep {m : Nat} {s₀ : State} {queue : Nat} {s : State} (hm : Within 8389121 m) (h : Keep m s₀ s) :
    Keep m s₀ (electedRx queue s) := by
  unfold electedRx
  iterate 60 try any_goals first
    | with_reducible assumption
    | with_reducible refine State.wr_keep (Within.trans rfl hm) ?_
    | with_reducible refine State.stageStep_keep (Within.trans rfl hm) ?_
    | with_reducible refine State.withTaken_keep (Within.trans rfl hm) ?_ ?_
    | with_reducible refine State.sendOn_keep (Within.trans rfl hm) ?_
    | with_reducible refine State.ownPasses_keep (Within.trans rfl hm) ?_
    | with_reducible refine State.electionOver_keep (Within.trans rfl hm) ?_
    | with_reducible refine State.electedRole_keep (Within.trans rfl hm) ?_
    | with_reducible refine Keep.ite ?_ ?_
    | (intro hx)
    | split
    | dsimp only

theorem electTimeout_keep {m : Nat} {s₀ : State} {s : State} (hm : Within 8391169 m) (h : Keep m s₀ s) :
    Keep m s₀ (electTimeout s) := by
  unfold electTimeout
  iterate 60 try any_goals first
    | with_reducible assumption
    | with_reducible refine State.elect_keep (Within.trans rfl hm) ?_
    | with_reducible refine Keep.ite ?_ ?_
    | (intro hx)
    | split

theorem State.setDelay_keep {m : Nat} {s₀ : State} {s : State} {side : Nat} {d : DelayRec} (hm : Within 512 m) (h : Keep m s₀ s) :
    Keep m s₀ (State.setDelay s side d) := by
  unfold State.setDelay
  iterate 60 try any_goals first
    | with_reducible assumption
    | with_reducible refine Keep.setNet ?_ (hm.bit 9 rfl)

theorem delayMeasure_keep {m : Nat} {s₀ : State} {side : Nat} {s : State} (hm : Within 8389123 m) (h : Keep m s₀ s) :
    Keep m s₀ (delayMeasure side s) := by
  unfold delayMeasure
  iterate 60 try any_goals first
    | with_reducible assumption
    | with_reducible refine State.wr_keep (Within.trans rfl hm) ?_
    | with_reducible refine State.raise_keep (Within.trans rfl hm) ?_
    | with_reducible refine State.enqueue_keep (Within.trans rfl hm) ?_
    | with_reducible refine State.setDelay_keep (Within.trans rfl hm) ?_
    | with_reducible refine Keep.ite ?_ ?_
    | (intro hx)
    | split

theorem delayReqRx_keep {m : Nat} {s₀ : State} {queue : Nat} {s : State} (hm : Within 8389121 m) (h : Keep m s₀ s) :
    Keep m s₀ (delayReqRx queue s) := by
  unfold delayReqRx
  iterate 60 try any_goals first
    | with_reducible assumption
    | with_reducible refine State.withTaken_keep (Within.trans rfl hm) ?_ ?_
    | with_reducible refine State.enqueue_keep (Within.trans rfl hm) ?_
    | (intro hx)
    | with_reducible refine Keep.ite ?_ ?_

theorem delayRespRx_keep {m : Nat} {s₀ : State} {queue : Nat} {s : State} (hm : Within 513 m) (h : Keep m s₀ s) :
    Keep m s₀ (delayRespRx queue s) := by
  unfold delayRespRx
  iterate 60 try any_goals first
    | with_reducible assumption
    | with_reducible refine State.withTaken_keep (Within.trans rfl hm) ?_ ?_
    | with_reducible refine State.setDelay_keep (Within.trans rfl hm) ?_
    | with_reducible refine State.wr_keep (Within.trans rfl hm) ?_
    | (intro hx)
    | (extract_lets +onlyGivenNames y; revert y; intro _)
    | split

theorem State.dcBegin_keep {m : Nat} {s₀ : State} {s : State} {n : Nat} (hm : Within 8396800 m) (h : Keep m s₀ s) :
    Keep m s₀ (State.dcBegin s n) := by
  unfold State.dcBegin
  iterate 60 try any_goals first
    | with_reducible assumption
    | with_reducible refine State.setDc_keep (Within.trans rfl hm) ?_
    | with_reducible refine State.emit_keep (Within.trans rfl hm) ?_

theorem State.dcStart_keep {m : Nat} {s₀ : State} {s : State} {n : Nat} (hm : Within 8398851 m) (h : Keep m s₀ s) :
    Keep m s₀ (State.dcStart s n) := by
  unfold State.dcStart
  iterate 60 try any_goals first
    | with_reducible assumption
    | with_reducible refine State.raise_keep (Within.trans rfl hm) ?_
    | with_reducible refine State.statAdd_keep (Within.trans rfl hm) ?_
    | with_reducible refine State.bump_keep (Within.trans rfl hm) ?_
    | with_reducible refine State.wr_keep (Within.trans rfl hm) ?_
    | with_reducible refine State.dcBegin_keep (Within.trans rfl hm) ?_
    | with_reducible refine Keep.ite ?_ ?_

theorem State.dcMismatch_keep {m : Nat} {s₀ : State} {s : State} {n : Nat} {line : Nat} (hm : Within 2051 m) (h : Keep m s₀ s) :
    Keep m s₀ (State.dcMismatch s n line) := by
  unfold State.dcMismatch
  iterate 60 try any_goals first
    | with_reducible assumption
    | with_reducible refine State.setReg_keep (Within.trans rfl hm) ?_
    | with_reducible refine State.statAdd_keep (Within.trans rfl hm) ?_
    | with_reducible refine State.bump_keep (Within.trans rfl hm) ?_
    | with_reducible refine State.wr_keep (Within.trans rfl hm) ?_
    | with_reducible refine State.raise_keep (Within.trans rfl hm) ?_

theorem State.dcReadback_keep {m : Nat} {s₀ : State} {s : State} {n : Nat} {din : Nat} (hm : Within 10435 m) (h : Keep m s₀ s) :
    Keep m s₀ (State.dcReadback s n din) := by
  unfold State.dcReadback
  iterate 60 try any_goals first
    | with_reducible assumption
    | with_reducible refine State.setDc_keep (Within.trans rfl hm) ?_
    | with_reducible refine State.dcMismatch_keep (Within.trans rfl hm) ?_
    | with_reducible refine State.confirm_keep (Within.trans rfl hm) ?_
    | with_reducible refine Keep.foldl (fun x a hx => ?_) _ ?_
    | (extract_lets +onlyGivenNames y; revert y; intro _)
    | split

theorem State.dcScan_keep {m : Nat} {s₀ : State} {s : State} {n : Nat} {din : Nat} (hm : Within 16787907 m) (h : Keep m s₀ s) :
    Keep m s₀ (State.dcScan s n din) := by
  unfold State.dcScan
  iterate 60 try any_goals first
    | with_reducible assumption
    | with_reducible refine State.setDc_keep (Within.trans rfl hm) ?_
    | with_reducible refine State.statAdd_keep (Within.trans rfl hm) ?_
    | with_reducible refine State.event_keep (Within.trans rfl hm) ?_
    | with_reducible refine Keep.ite ?_ ?_

theorem dcFrameEnd_keep {m : Nat} {s₀ : State} {n : Nat} {din : Nat} {s : State} (hm : Within 16787907 m) (h : Keep m s₀ s) :
    Keep m s₀ (dcFrameEnd n din s) := by
  unfold dcFrameEnd
  iterate 60 try any_goals first
    | with_reducible assumption
    | with_reducible refine State.statAdd_keep (Within.trans rfl hm) ?_
    | with_reducible refine State.bump_keep (Within.trans rfl hm) ?_
    | with_reducible refine State.dcReadback_keep (Within.trans rfl hm) ?_
    | with_reducible refine State.dcScan_keep (Within.trans rfl hm) ?_
    | with_reducible refine State.setDc_keep (Within.trans rfl hm) ?_
    | with_reducible refine Keep.ite ?_ ?_

theorem State.dcFail_keep {m : Nat} {s₀ : State} {s : State} {n : Nat} (hm : Within 8384 m) (h : Keep m s₀ s) :
    Keep m s₀ (State.dcFail s n) := by
  unfold State.dcFail
  iterate 60 try any_goals first
    | with_reducible assumption
    | with_reducible refine State.setDc_keep (Within.trans rfl hm) ?_
    | with_reducible refine State.confirmAll_keep (Within.trans rfl hm) ?_

theorem State.dcStop_keep {m : Nat} {s₀ : State} {s : State} {n : Nat} (hm : Within 8396993 m) (h : Keep m s₀ s) :
    Keep m s₀ (State.dcStop s n) := by
  unfold State.dcStop
  iterate 60 try any_goals first
    | with_reducible assumption
    | with_reducible refine State.dcFail_keep (Within.trans rfl hm) ?_
    | with_reducible refine State.wr_keep (Within.trans rfl hm) ?_
    | with_reducible refine State.emit_keep (Within.trans rfl hm) ?_
    | with_reducible refine State.setDc_keep (Within.trans rfl hm) ?_

theorem State.mirrorImage_keep {m : Nat} {s₀ : State} {s : State} {n : Nat} (hm : Within 8395265 m) (h : Keep m s₀ s) :
    Keep m s₀ (State.mirrorImage s n) := by
  unfold State.mirrorImage
  iterate 60 try any_goals first
    | with_reducible assumption
    | with_reducible refine State.mirror_keep (Within.trans rfl hm) ?_
    | with_reducible refine Keep.ite ?_ ?_

theorem State.dcWrite_keep {m : Nat} {s₀ : State} {s : State} {n : Nat} {at_ : Nat} {who : Nat} {bs : List Byte} (hm : Within 8403649 m) (h : Keep m s₀ s) :
    Keep m s₀ (State.dcWrite s n at_ who bs) := by
  unfold State.dcWrite
  iterate 60 try any_goals first
    | with_reducible assumption
    | with_reducible refine State.mirrorImage_keep (Within.trans rfl hm) ?_
    | with_reducible refine State.setDc_keep (Within.trans rfl hm) ?_
    | with_reducible refine State.awaitStore_keep (Within.trans rfl hm) ?_
    | with_reducible refine State.dcFail_keep (Within.trans rfl hm) ?_
    | with_reducible refine Keep.ite ?_ ?_

theorem State.serialClose_keep {m : Nat} {s₀ : State} {s : State} {n : Nat} {flags : Nat} {bs : List Byte} {rx : Nat} {lost : Nat} (hm : Within 25181123 m) (h : Keep m s₀ s) :
    Keep m s₀ (State.serialClose s n flags bs rx lost) := by
  unfold State.serialClose
  iterate 60 try any_goals first
    | with_reducible assumption
    | with_reducible refine State.statAdd_keep (Within.trans rfl hm) ?_
    | with_reducible refine State.wr_keep (Within.trans rfl hm) ?_
    | with_reducible refine State.bumpF_keep (Within.trans rfl hm) ?_
    | with_reducible refine State.setSp_keep (Within.trans rfl hm) ?_
    | with_reducible refine State.pollReply_keep (Within.trans rfl hm) ?_
    | with_reducible refine State.pushRx_keep (Within.trans rfl hm) ?_
    | (extract_lets +onlyGivenNames y; refine Keep.use (m := m) (s := s₀) (x := y) ?_ ?_; (focus (unfold y; clear y)); rotate_left; (focus (intro hy; clear_value y; revert y; intro _ _)))
    | (extract_lets +onlyGivenNames y; revert y; intro _)
    | split

theorem State.closeNow_keep {m : Nat} {s₀ : State} {s : State} {n : Nat} {more : Nat} {bs : List Byte} (hm : Within 25181123 m) (h : Keep m s₀ s) :
    Keep m s₀ (State.closeNow s n more bs) := by
  unfold State.closeNow
  iterate 60 try any_goals first
    | with_reducible assumption
    | with_reducible refine State.serialClose_keep (Within.trans rfl hm) ?_
    | with_reducible refine State.setSp_keep (Within.trans rfl hm) ?_

theorem State.closeSentence_keep {m : Nat} {s₀ : State} {s : State} {n : Nat} {more : Nat} (hm : Within 25181123 m) (h : Keep m s₀ s) :
    Keep m s₀ (State.closeSentence s n more) := by
  unfold State.closeSentence
  iterate 60 try any_goals first
    | with_reducible assumption
    | with_reducible refine State.setSp_keep (Within.trans rfl hm) ?_
    | with_reducible refine State.closeNow_keep (Within.trans rfl hm) ?_
    | with_reducible refine Keep.ite ?_ ?_

theorem State.feedSentence_keep {m : Nat} {s₀ : State} {s : State} {n : Nat} {b : Byte} {err : Nat} (hm : Within 25181123 m) (h : Keep m s₀ s) :
    Keep m s₀ (State.feedSentence s n b err) := by
  unfold State.feedSentence
  iterate 60 try any_goals first
    | with_reducible assumption
    | with_reducible refine State.closeSentence_keep (Within.trans rfl hm) ?_
    | with_reducible refine State.setSp_keep (Within.trans rfl hm) ?_
    | with_reducible refine Keep.ite ?_ ?_

theorem State.closeModbus_keep {m : Nat} {s₀ : State} {s : State} {n : Nat} {more : Nat} (hm : Within 25181123 m) (h : Keep m s₀ s) :
    Keep m s₀ (State.closeModbus s n more) := by
  unfold State.closeModbus
  iterate 60 try any_goals first
    | with_reducible assumption
    | with_reducible refine State.closeNow_keep (Within.trans rfl hm) ?_

theorem State.feedModbus_keep {m : Nat} {s₀ : State} {s : State} {n : Nat} {b : Byte} {err : Nat} (hm : Within 25181123 m) (h : Keep m s₀ s) :
    Keep m s₀ (State.feedModbus s n b err) := by
  unfold State.feedModbus
  iterate 60 try any_goals first
    | with_reducible assumption
    | with_reducible refine State.setSp_keep (Within.trans rfl hm) ?_
    | with_reducible refine State.closeModbus_keep (Within.trans rfl hm) ?_
    | with_reducible refine Keep.ite ?_ ?_

theorem State.feedPlain_keep {m : Nat} {s₀ : State} {s : State} {n : Nat} {framer : Nat} {b : Byte} {err : Nat} (hm : Within 25181123 m) (h : Keep m s₀ s) :
    Keep m s₀ (State.feedPlain s n framer b err) := by
  unfold State.feedPlain
  iterate 60 try any_goals first
    | with_reducible assumption
    | with_reducible refine State.setSp_keep (Within.trans rfl hm) ?_
    | with_reducible refine State.closeNow_keep (Within.trans rfl hm) ?_
    | with_reducible refine Keep.ite ?_ ?_

theorem State.overrun_keep {m : Nat} {s₀ : State} {s : State} {n : Nat} (hm : Within 8195 m) (h : Keep m s₀ s) :
    Keep m s₀ (State.overrun s n) := by
  unfold State.overrun
  iterate 60 try any_goals first
    | with_reducible assumption
    | with_reducible refine State.setSp_keep (Within.trans rfl hm) ?_
    | with_reducible refine State.wr_keep (Within.trans rfl hm) ?_
    | with_reducible refine State.raise_keep (Within.trans rfl hm) ?_
    | with_reducible refine Keep.ite ?_ ?_

theorem State.echoFail_keep {m : Nat} {s₀ : State} {s : State} {n : Nat} {t : SerialTx} (hm : Within 8387 m) (h : Keep m s₀ s) :
    Keep m s₀ (State.echoFail s n t) := by
  unfold State.echoFail
  iterate 60 try any_goals first
    | with_reducible assumption
    | with_reducible refine State.raise_keep (Within.trans rfl hm) ?_
    | with_reducible refine State.wr_keep (Within.trans rfl hm) ?_
    | with_reducible refine State.setSp_keep (Within.trans rfl hm) ?_
    | with_reducible refine State.confirmAll_keep (Within.trans rfl hm) ?_

theorem State.txFinish_keep {m : Nat} {s₀ : State} {s : State} {n : Nat} {t : SerialTx} {echo : Bool} (hm : Within 8384 m) (h : Keep m s₀ s) :
    Keep m s₀ (State.txFinish s n t echo) := by
  unfold State.txFinish
  iterate 60 try any_goals first
    | with_reducible assumption
    | with_reducible refine State.confirmAll_keep (Within.trans rfl hm) ?_
    | with_reducible refine State.setSp_keep (Within.trans rfl hm) ?_
    | with_reducible refine Keep.ite ?_ ?_

theorem serialRxChar_keep {m : Nat} {s₀ : State} {n : Nat} {b : Byte} {framing : Bool} {parity : Bool} {s : State} (hm : Within 25181123 m) (h : Keep m s₀ s) :
    Keep m s₀ (serialRxChar n b framing parity s) := by
  unfold serialRxChar
  iterate 60 try any_goals first
    | with_reducible assumption
    | with_reducible refine State.statAdd_keep (Within.trans rfl hm) ?_
    | with_reducible refine State.setSp_keep (Within.trans rfl hm) ?_
    | with_reducible refine State.txFinish_keep (Within.trans rfl hm) ?_
    | with_reducible refine State.echoFail_keep (Within.trans rfl hm) ?_
    | with_reducible refine State.overrun_keep (Within.trans rfl hm) ?_
    | with_reducible refine State.feedSentence_keep (Within.trans rfl hm) ?_
    | with_reducible refine State.feedModbus_keep (Within.trans rfl hm) ?_
    | with_reducible refine State.feedPlain_keep (Within.trans rfl hm) ?_
    | with_reducible refine Keep.ite ?_ ?_
    | split

theorem serialIdle_keep {m : Nat} {s₀ : State} {n : Nat} {kind : Nat} {s : State} (hm : Within 25181123 m) (h : Keep m s₀ s) :
    Keep m s₀ (serialIdle n kind s) := by
  unfold serialIdle
  iterate 60 try any_goals first
    | with_reducible assumption
    | with_reducible refine State.setSp_keep (Within.trans rfl hm) ?_
    | with_reducible refine State.closeModbus_keep (Within.trans rfl hm) ?_
    | with_reducible refine State.closeNow_keep (Within.trans rfl hm) ?_
    | with_reducible refine Keep.ite ?_ ?_

theorem State.txBegin_keep {m : Nat} {s₀ : State} {s : State} {n : Nat} {bs : List Byte} {who : List Nat} {drover : Option Nat} (hm : Within 8396801 m) (h : Keep m s₀ s) :
    Keep m s₀ (State.txBegin s n bs who drover) := by
  unfold State.txBegin
  iterate 60 try any_goals first
    | with_reducible assumption
    | with_reducible refine State.setSp_keep (Within.trans rfl hm) ?_
    | with_reducible refine State.wr_keep (Within.trans rfl hm) ?_
    | with_reducible refine State.emit_keep (Within.trans rfl hm) ?_
    | with_reducible refine Keep.ite ?_ ?_

theorem serialTxStart_keep {m : Nat} {s₀ : State} {n : Nat} {s : State} (hm : Within 25181123 m) (h : Keep m s₀ s) :
    Keep m s₀ (serialTxStart n s) := by
  unfold serialTxStart
  iterate 60 try any_goals first
    | with_reducible assumption
    | with_reducible refine State.txBegin_keep (Within.trans rfl hm) ?_
    | with_reducible refine State.setSp_keep (Within.trans rfl hm) ?_
    | (have hx := State.popPacket_keep (by with_reducible assumption) (Within.trans rfl hm) (by with_reducible assumption); with_reducible exact hx)
    | with_reducible refine State.confirmAll_keep (Within.trans rfl hm) ?_
    | with_reducible refine State.raise_keep (Within.trans rfl hm) ?_
    | with_reducible refine State.wr_keep (Within.trans rfl hm) ?_
    | with_reducible refine Keep.ite ?_ ?_
    | split

theorem serialTxDone_keep {m : Nat} {s₀ : State} {n : Nat} {s : State} (hm : Within 10432 m) (h : Keep m s₀ s) :
    Keep m s₀ (serialTxDone n s) := by
  unfold serialTxDone
  iterate 60 try any_goals first
    | with_reducible assumption
    | with_reducible refine State.statAdd_keep (Within.trans rfl hm) ?_
    | with_reducible refine State.setSp_keep (Within.trans rfl hm) ?_
    | with_reducible refine State.txFinish_keep (Within.trans rfl hm) ?_
    | split

theorem serialDeLagEnd_keep {m : Nat} {s₀ : State} {n : Nat} {s : State} (hm : Within 8396800 m) (h : Keep m s₀ s) :
    Keep m s₀ (serialDeLagEnd n s) := by
  unfold serialDeLagEnd
  iterate 60 try any_goals first
    | with_reducible assumption
    | with_reducible refine State.emit_keep (Within.trans rfl hm) ?_
    | with_reducible refine State.setSp_keep (Within.trans rfl hm) ?_
    | with_reducible refine Keep.ite ?_ ?_
    | (intro hx)
    | split

theorem spEcho_keep {m : Nat} {s₀ : State} {n : Nat} {s : State} (hm : Within 8387 m) (h : Keep m s₀ s) :
    Keep m s₀ (spEcho n s) := by
  unfold spEcho
  iterate 60 try any_goals first
    | with_reducible assumption
    | with_reducible refine State.echoFail_keep (Within.trans rfl hm) ?_
    | split

theorem State.noReply_keep {m : Nat} {s₀ : State} {s : State} {n : Nat} (hm : Within 8259 m) (h : Keep m s₀ s) :
    Keep m s₀ (State.noReply s n) := by
  unfold State.noReply
  iterate 60 try any_goals first
    | with_reducible assumption
    | with_reducible refine State.wr_keep (Within.trans rfl hm) ?_
    | with_reducible refine State.setSp_keep (Within.trans rfl hm) ?_
    | with_reducible refine State.raise_keep (Within.trans rfl hm) ?_
    | with_reducible refine State.pollFail_keep (Within.trans rfl hm) ?_
    | with_reducible refine Keep.ite ?_ ?_
    | split

theorem spNoReply_keep {m : Nat} {s₀ : State} {n : Nat} {s : State} (hm : Within 8259 m) (h : Keep m s₀ s) :
    Keep m s₀ (spNoReply n s) := by
  unfold spNoReply
  iterate 60 try any_goals first
    | with_reducible assumption
    | with_reducible refine State.noReply_keep (Within.trans rfl hm) ?_
    | with_reducible refine Keep.ite ?_ ?_

theorem modbusPollPeriod_keep {m : Nat} {s₀ : State} {n : Nat} {s : State} (hm : Within 16787907 m) (h : Keep m s₀ s) :
    Keep m s₀ (modbusPollPeriod n s) := by
  unfold modbusPollPeriod
  iterate 60 try any_goals first
    | with_reducible assumption
    | with_reducible refine State.raise_keep (Within.trans rfl hm) ?_
    | with_reducible refine State.wr_keep (Within.trans rfl hm) ?_
    | with_reducible refine State.pollGo_keep (Within.trans rfl hm) ?_
    | split

theorem State.serialStop_keep {m : Nat} {s₀ : State} {s : State} {n : Nat} (hm : Within 8399299 m) (h : Keep m s₀ s) :
    Keep m s₀ (State.serialStop s n) := by
  unfold State.serialStop
  iterate 60 try any_goals first
    | with_reducible assumption
    | with_reducible refine State.wr_keep (Within.trans rfl hm) ?_
    | with_reducible refine State.confirmAll_keep (Within.trans rfl hm) ?_
    | with_reducible refine State.failSends_keep (Within.trans rfl hm) ?_
    | with_reducible refine State.setSp_keep (Within.trans rfl hm) ?_
    | with_reducible refine State.emit_keep (Within.trans rfl hm) ?_
    | with_reducible refine State.statAdd_keep (Within.trans rfl hm) ?_
    | with_reducible refine State.bumpF_keep (Within.trans rfl hm) ?_
    | with_reducible refine State.pollFail_keep (Within.trans rfl hm) ?_
    | with_reducible refine State.raise_keep (Within.trans rfl hm) ?_
    | with_reducible refine State.noReply_keep (Within.trans rfl hm) ?_
    | split

theorem serialDisable_keep {m : Nat} {s₀ : State} {n : Nat} {s : State} (hm : Within 8399299 m) (h : Keep m s₀ s) :
    Keep m s₀ (serialDisable n s) := by
  unfold serialDisable
  iterate 60 try any_goals first
    | with_reducible assumption
    | with_reducible refine State.serialStop_keep (Within.trans rfl hm) ?_
    | with_reducible refine Keep.ite ?_ ?_

end Sys2Proof.Machine
end

