-- ==== Sys2Proof/Laws/KeepTwin.lean ====
section
/-! SUPPORT. What each operation of Can, Twin leaves alone and keeps: its footprint as a mask of units, and that it keeps
the memories canonical, the queue of commands and a recorder key once set (see Laws/Keep.lean). -/

namespace Sys2Proof.Machine

set_option maxRecDepth 4000

theorem State.canShow_keep {m : Nat} {s₀ : State} {s : State} {n : Nat} (hm : Within 1 m) (h : Keep m s₀ s) :
    Keep m s₀ (State.canShow s n) := by
  unfold State.canShow
  iterate 60 try any_goals first
    | with_reducible assumption
    | with_reducible refine State.wr_keep (Within.trans rfl hm) ?_

theorem State.canLost_keep {m : Nat} {s₀ : State} {s : State} {n : Nat} (hm : Within 2049 m) (h : Keep m s₀ s) :
    Keep m s₀ (State.canLost s n) := by
  unfold State.canLost
  iterate 60 try any_goals first
    | with_reducible assumption
    | with_reducible refine State.statAdd_keep (Within.trans rfl hm) ?_
    | with_reducible refine State.bumpF_keep (Within.trans rfl hm) ?_

theorem State.canAbandon_keep {m : Nat} {s₀ : State} {s : State} {n : Nat} {t : CanTx} (hm : Within 2243 m) (h : Keep m s₀ s) :
    Keep m s₀ (State.canAbandon s n t) := by
  unfold State.canAbandon
  iterate 60 try any_goals first
    | with_reducible assumption
    | with_reducible refine State.raise_keep (Within.trans rfl hm) ?_
    | with_reducible refine State.wr_keep (Within.trans rfl hm) ?_
    | with_reducible refine State.confirmAll_keep (Within.trans rfl hm) ?_
    | with_reducible refine State.canLost_keep (Within.trans rfl hm) ?_

theorem State.canBusOff_keep {m : Nat} {s₀ : State} {s : State} {n : Nat} (hm : Within 10435 m) (h : Keep m s₀ s) :
    Keep m s₀ (State.canBusOff s n) := by
  unfold State.canBusOff
  iterate 60 try any_goals first
    | with_reducible assumption
    | with_reducible refine State.setCf_keep (Within.trans rfl hm) ?_
    | with_reducible refine State.statAdd_keep (Within.trans rfl hm) ?_
    | with_reducible refine State.canAbandon_keep (Within.trans rfl hm) ?_
    | with_reducible refine State.raise_keep (Within.trans rfl hm) ?_
    | with_reducible refine State.wr_keep (Within.trans rfl hm) ?_
    | with_reducible refine Keep.foldl (fun x a hx => ?_) _ ?_

theorem State.canCount_keep {m : Nat} {s₀ : State} {s : State} {n : Nat} {tec : Nat} {rec_ : Nat} (hm : Within 8195 m) (h : Keep m s₀ s) :
    Keep m s₀ (State.canCount s n tec rec_) := by
  unfold State.canCount
  iterate 60 try any_goals first
    | with_reducible assumption
    | with_reducible refine State.canShow_keep (Within.trans rfl hm) ?_
    | with_reducible refine State.setCf_keep (Within.trans rfl hm) ?_
    | with_reducible refine State.raise_keep (Within.trans rfl hm) ?_
    | with_reducible refine State.wr_keep (Within.trans rfl hm) ?_
    | with_reducible refine Keep.ite ?_ ?_

theorem canRxFrame_keep {m : Nat} {s₀ : State} {n : Nat} {word : Nat} {data : List Byte} {s : State} (hm : Within 25181123 m) (h : Keep m s₀ s) :
    Keep m s₀ (canRxFrame n word data s) := by
  unfold canRxFrame
  iterate 60 try any_goals first
    | with_reducible assumption
    | with_reducible refine State.free_keep (Within.trans rfl hm) ?_
    | with_reducible refine State.canCount_keep (Within.trans rfl hm) ?_
    | with_reducible refine State.raise_keep (Within.trans rfl hm) ?_
    | with_reducible refine State.canLost_keep (Within.trans rfl hm) ?_
    | with_reducible refine State.wr_keep (Within.trans rfl hm) ?_
    | with_reducible refine State.pushRx_keep (Within.trans rfl hm) ?_
    | (extract_lets +onlyGivenNames y; refine Keep.use (m := m) (s := s₀) (x := y.2) ?_ ?_; (focus (unfold y; clear y)); rotate_left; (focus (intro hy; clear_value y; revert y; intro _ _)))
    | (extract_lets +onlyGivenNames y; revert y; intro _)
    | split

theorem State.canFill_keep {m : Nat} {s₀ : State} {a0 : Nat} {a1 : Nat} {a2 : State} (hm : Within 25181123 m) (h : Keep m s₀ a2) :
    Keep m s₀ (State.canFill a0 a1 a2) := by
  induction a0 generalizing a1 a2 with
  | zero => unfold State.canFill; first | exact h | (split <;> exact h)
  | succ n ih =>
    unfold State.canFill
    iterate 60 try any_goals first
      | with_reducible assumption
      | with_reducible refine ih ?_
      | (have hx := State.popPacket_keep (by with_reducible assumption) (Within.trans rfl hm) (by with_reducible assumption); with_reducible exact hx)
      | with_reducible refine State.raise_keep (Within.trans rfl hm) ?_
      | with_reducible refine State.wr_keep (Within.trans rfl hm) ?_
      | with_reducible refine State.confirmAll_keep (Within.trans rfl hm) ?_
      | with_reducible refine State.canLost_keep (Within.trans rfl hm) ?_
      | with_reducible refine State.setCf_keep (Within.trans rfl hm) ?_
      | with_reducible refine Keep.ite ?_ ?_
      | split

theorem State.canMeasure_keep {m : Nat} {s₀ : State} {s : State} {n : Nat} {t : CanTx} (hm : Within 16777217 m) (h : Keep m s₀ s) :
    Keep m s₀ (State.canMeasure s n t) := by
  unfold State.canMeasure
  iterate 60 try any_goals first
    | with_reducible assumption
    | with_reducible refine State.wr_keep (Within.trans rfl hm) ?_
    | with_reducible refine State.free_keep (Within.trans rfl hm) ?_
    | with_reducible refine Keep.ite ?_ ?_
    | (intro hx)
    | split

theorem canTxStart_keep {m : Nat} {s₀ : State} {n : Nat} {s : State} (hm : Within 25181123 m) (h : Keep m s₀ s) :
    Keep m s₀ (canTxStart n s) := by
  unfold canTxStart
  iterate 60 try any_goals first
    | with_reducible assumption
    | with_reducible refine State.emit_keep (Within.trans rfl hm) ?_
    | with_reducible refine State.setCf_keep (Within.trans rfl hm) ?_
    | with_reducible refine State.canFill_keep (Within.trans rfl hm) ?_
    | with_reducible refine State.canMeasure_keep (Within.trans rfl hm) ?_
    | with_reducible refine Keep.ite ?_ ?_
    | (intro hx)
    | split

theorem canTxDone_keep {m : Nat} {s₀ : State} {n : Nat} {s : State} (hm : Within 10435 m) (h : Keep m s₀ s) :
    Keep m s₀ (canTxDone n s) := by
  unfold canTxDone
  iterate 60 try any_goals first
    | with_reducible assumption
    | with_reducible refine State.setCf_keep (Within.trans rfl hm) ?_
    | with_reducible refine State.statAdd_keep (Within.trans rfl hm) ?_
    | with_reducible refine State.canCount_keep (Within.trans rfl hm) ?_
    | with_reducible refine State.confirmAll_keep (Within.trans rfl hm) ?_
    | with_reducible refine Keep.ite ?_ ?_
    | split

theorem canTxError_keep {m : Nat} {s₀ : State} {n : Nat} {lec : Nat} {counts : Bool} {s : State} (hm : Within 10435 m) (h : Keep m s₀ s) :
    Keep m s₀ (canTxError n lec counts s) := by
  unfold canTxError
  iterate 60 try any_goals first
    | with_reducible assumption
    | with_reducible refine State.wr_keep (Within.trans rfl hm) ?_
    | with_reducible refine State.setCf_keep (Within.trans rfl hm) ?_
    | with_reducible refine State.canCount_keep (Within.trans rfl hm) ?_
    | with_reducible refine State.canBusOff_keep (Within.trans rfl hm) ?_
    | with_reducible refine State.canAbandon_keep (Within.trans rfl hm) ?_
    | with_reducible refine Keep.ite ?_ ?_
    | split

theorem canRxError_keep {m : Nat} {s₀ : State} {n : Nat} {lec : Nat} {inc : Nat} {s : State} (hm : Within 8195 m) (h : Keep m s₀ s) :
    Keep m s₀ (canRxError n lec inc s) := by
  unfold canRxError
  iterate 60 try any_goals first
    | with_reducible assumption
    | with_reducible refine State.wr_keep (Within.trans rfl hm) ?_
    | with_reducible refine State.canCount_keep (Within.trans rfl hm) ?_
    | with_reducible refine Keep.ite ?_ ?_

theorem canRecover_keep {m : Nat} {s₀ : State} {n : Nat} {s : State} (hm : Within 8192 m) (h : Keep m s₀ s) :
    Keep m s₀ (canRecover n s) := by
  unfold canRecover
  iterate 60 try any_goals first
    | with_reducible assumption
    | with_reducible refine State.setCf_keep (Within.trans rfl hm) ?_
    | with_reducible refine Keep.ite ?_ ?_

theorem canRecoveryDone_keep {m : Nat} {s₀ : State} {n : Nat} {s : State} (hm : Within 8193 m) (h : Keep m s₀ s) :
    Keep m s₀ (canRecoveryDone n s) := by
  unfold canRecoveryDone
  iterate 60 try any_goals first
    | with_reducible assumption
    | with_reducible refine State.wr_keep (Within.trans rfl hm) ?_
    | with_reducible refine State.canShow_keep (Within.trans rfl hm) ?_
    | with_reducible refine State.setCf_keep (Within.trans rfl hm) ?_
    | with_reducible refine Keep.ite ?_ ?_

theorem State.canStop_keep {m : Nat} {s₀ : State} {s : State} {n : Nat} (hm : Within 10435 m) (h : Keep m s₀ s) :
    Keep m s₀ (State.canStop s n) := by
  unfold State.canStop
  iterate 60 try any_goals first
    | with_reducible assumption
    | with_reducible refine State.wr_keep (Within.trans rfl hm) ?_
    | with_reducible refine State.setCf_keep (Within.trans rfl hm) ?_
    | with_reducible refine State.canAbandon_keep (Within.trans rfl hm) ?_
    | with_reducible refine Keep.foldl (fun x a hx => ?_) _ ?_

theorem canDisable_keep {m : Nat} {s₀ : State} {n : Nat} {s : State} (hm : Within 10435 m) (h : Keep m s₀ s) :
    Keep m s₀ (canDisable n s) := by
  unfold canDisable
  iterate 60 try any_goals first
    | with_reducible assumption
    | with_reducible refine State.canStop_keep (Within.trans rfl hm) ?_
    | with_reducible refine Keep.ite ?_ ?_

theorem State.intrDrop_keep {m : Nat} {s₀ : State} {s : State} (hm : Within 8395489 m) (h : Keep m s₀ s) :
    Keep m s₀ (State.intrDrop s) := by
  unfold State.intrDrop
  iterate 60 try any_goals first
    | with_reducible assumption
    | with_reducible refine State.setIrq_keep (Within.trans rfl hm) ?_
    | with_reducible refine State.setVectors_keep (Within.trans rfl hm) ?_
    | with_reducible refine State.completeVector_keep (Within.trans rfl hm) ?_
    | with_reducible refine Keep.foldl (fun x a hx => ?_) _ ?_
    | with_reducible refine Keep.setVin ?_ (hm.bit 5 rfl)

theorem State.pieceOff_keep {m : Nat} {s₀ : State} {s : State} {d : Nat} (hm : Within 8390867 m) (h : Keep m s₀ s) :
    Keep m s₀ (State.pieceOff s d) := by
  unfold State.pieceOff
  iterate 60 try any_goals first
    | with_reducible assumption
    | with_reducible refine State.unwait_keep (Within.trans rfl hm) ?_
    | with_reducible refine State.raiseCap_keep (Within.trans rfl hm) ?_
    | with_reducible refine State.pieceEnded_keep (Within.trans rfl hm) ?_
    | split

theorem State.vmeCut_keep {m : Nat} {s₀ : State} {s : State} (hm : Within 25172979 m) (h : Keep m s₀ s) :
    Keep m s₀ (State.vmeCut s) := by
  unfold State.vmeCut
  iterate 60 try any_goals first
    | with_reducible assumption
    | with_reducible refine State.dropBus_keep (Within.trans rfl hm) ?_
    | with_reducible refine State.pieceEnded_keep (Within.trans rfl hm) ?_
    | with_reducible refine State.unwait_keep (Within.trans rfl hm) ?_
    | with_reducible refine State.pieceOff_keep (Within.trans rfl hm) ?_
    | with_reducible refine State.setCyc_keep (Within.trans rfl hm) ?_
    | with_reducible refine State.flushGather_keep (Within.trans rfl hm) ?_
    | with_reducible refine State.letGo_keep (Within.trans rfl hm) ?_
    | with_reducible refine State.intrDrop_keep (Within.trans rfl hm) ?_
    | with_reducible refine Keep.foldl (fun x a hx => ?_) _ ?_
    | split
    | with_reducible refine Keep.setVme ?_ (hm.bit 4 rfl)

theorem State.serialCut_keep {m : Nat} {s₀ : State} {s : State} {n : Nat} (hm : Within 8396992 m) (h : Keep m s₀ s) :
    Keep m s₀ (State.serialCut s n) := by
  unfold State.serialCut
  iterate 60 try any_goals first
    | with_reducible assumption
    | with_reducible refine State.emit_keep (Within.trans rfl hm) ?_
    | with_reducible refine State.setSp_keep (Within.trans rfl hm) ?_
    | with_reducible refine State.confirmAll_keep (Within.trans rfl hm) ?_
    | (extract_lets +onlyGivenNames y; revert y; intro _)
    | split

theorem State.serialsCut_keep {m : Nat} {s₀ : State} {s : State} (hm : Within 8396992 m) (h : Keep m s₀ s) :
    Keep m s₀ (State.serialsCut s) := by
  unfold State.serialsCut
  iterate 60 try any_goals first
    | with_reducible assumption
    | with_reducible refine State.serialCut_keep (Within.trans rfl hm) ?_
    | with_reducible refine Keep.foldl (fun x a hx => ?_) _ ?_

theorem State.canCut_keep {m : Nat} {s₀ : State} {s : State} {n : Nat} (hm : Within 8192 m) (h : Keep m s₀ s) :
    Keep m s₀ (State.canCut s n) := by
  unfold State.canCut
  iterate 60 try any_goals first
    | with_reducible assumption
    | with_reducible refine State.setCf_keep (Within.trans rfl hm) ?_

theorem State.cansCut_keep {m : Nat} {s₀ : State} {s : State} (hm : Within 8192 m) (h : Keep m s₀ s) :
    Keep m s₀ (State.cansCut s) := by
  unfold State.cansCut
  iterate 60 try any_goals first
    | with_reducible assumption
    | with_reducible refine State.canCut_keep (Within.trans rfl hm) ?_
    | with_reducible refine Keep.foldl (fun x a hx => ?_) _ ?_

theorem State.chainsOff_keep {m : Nat} {s₀ : State} {s : State} (hm : Within 8396992 m) (h : Keep m s₀ s) :
    Keep m s₀ (State.chainsOff s) := by
  unfold State.chainsOff
  iterate 60 try any_goals first
    | with_reducible assumption
    | with_reducible refine State.dcFail_keep (Within.trans rfl hm) ?_
    | with_reducible refine State.emit_keep (Within.trans rfl hm) ?_
    | with_reducible refine State.setDc_keep (Within.trans rfl hm) ?_
    | with_reducible refine Keep.foldl (fun x a hx => ?_) _ ?_
    | with_reducible refine Keep.ite ?_ ?_

theorem State.outputsOff_keep {m : Nat} {s₀ : State} {s : State} (hm : Within 25181171 m) (h : Keep m s₀ s) :
    Keep m s₀ (State.outputsOff s) := by
  unfold State.outputsOff
  iterate 60 try any_goals first
    | with_reducible assumption
    | with_reducible refine State.vmeCut_keep (Within.trans rfl hm) ?_
    | with_reducible refine State.serialsCut_keep (Within.trans rfl hm) ?_
    | with_reducible refine State.cansCut_keep (Within.trans rfl hm) ?_
    | with_reducible refine State.chainsOff_keep (Within.trans rfl hm) ?_
    | split

theorem State.leaseAll_keep {m : Nat} {s₀ : State} {s : State} {p0 : Packet} (hm : Within 8391169 m) (h : Keep m s₀ s) :
    Keep m s₀ (State.leaseAll s p0) := by
  unfold State.leaseAll
  iterate 60 try any_goals first
    | with_reducible assumption
    | with_reducible refine State.enqueue_keep (Within.trans rfl hm) ?_
    | with_reducible refine State.injectOn_keep (Within.trans rfl hm) ?_
    | with_reducible refine Keep.ite ?_ ?_

theorem State.leaseBack_keep {m : Nat} {s₀ : State} {s : State} {q : Nat} {p0 : Packet} (hm : Within 8391169 m) (h : Keep m s₀ s) :
    Keep m s₀ (State.leaseBack s q p0) := by
  unfold State.leaseBack
  iterate 60 try any_goals first
    | with_reducible assumption
    | with_reducible refine State.enqueue_keep (Within.trans rfl hm) ?_
    | with_reducible refine State.injectOn_keep (Within.trans rfl hm) ?_
    | with_reducible refine Keep.ite ?_ ?_

theorem State.sendResync_keep {m : Nat} {s₀ : State} {s : State} (hm : Within 8395265 m) (h : Keep m s₀ s) :
    Keep m s₀ (State.sendResync s) := by
  unfold State.sendResync
  iterate 60 try any_goals first
    | with_reducible assumption
    | with_reducible refine State.sendMirror_keep (Within.trans rfl hm) ?_
    | with_reducible refine Keep.ite ?_ ?_
    | with_reducible refine Keep.setTwin ?_ (hm.bit 12 rfl)

theorem State.toStandby_keep {m : Nat} {s₀ : State} {s : State} {sync : Bool} (hm : Within 4097 m) (h : Keep m s₀ s) :
    Keep m s₀ (State.toStandby s sync) := by
  unfold State.toStandby
  iterate 60 try any_goals first
    | with_reducible assumption
    | with_reducible refine State.wrB_keep (Within.trans rfl hm) ?_
    | with_reducible refine State.wr_keep (Within.trans rfl hm) ?_
    | with_reducible refine Keep.setTwin ?_ (hm.bit 12 rfl)

theorem State.mirrorStop_keep {m : Nat} {s₀ : State} {s : State} (hm : Within 4161 m) (h : Keep m s₀ s) :
    Keep m s₀ (State.mirrorStop s) := by
  unfold State.mirrorStop
  iterate 60 try any_goals first
    | with_reducible assumption
    | with_reducible refine State.wr_keep (Within.trans rfl hm) ?_
    | with_reducible refine State.detachResult_keep (Within.trans rfl hm) ?_
    | with_reducible refine Keep.foldl (fun x a hx => ?_) _ ?_
    | with_reducible refine Keep.setTwin ?_ (hm.bit 12 rfl)

theorem State.epochOpen_keep {m : Nat} {s₀ : State} {s : State} {n : Nat} (hm : Within 4097 m) (h : Keep m s₀ s) :
    Keep m s₀ (State.epochOpen s n) := by
  unfold State.epochOpen
  iterate 60 try any_goals first
    | with_reducible assumption
    | with_reducible refine State.wr_keep (Within.trans rfl hm) ?_
    | with_reducible refine Keep.setTwin ?_ (hm.bit 12 rfl)

theorem State.takeCrook_keep {m : Nat} {s₀ : State} {s : State} {first : Nat} (hm : Within 8403635 m) (h : Keep m s₀ s) :
    Keep m s₀ (State.takeCrook s first) := by
  unfold State.takeCrook
  iterate 60 try any_goals first
    | with_reducible assumption
    | with_reducible refine State.wr_keep (Within.trans rfl hm) ?_
    | with_reducible refine State.wrB_keep (Within.trans rfl hm) ?_
    | with_reducible refine State.bump_keep (Within.trans rfl hm) ?_
    | with_reducible refine State.raise_keep (Within.trans rfl hm) ?_
    | with_reducible refine State.desFull_keep (Within.trans rfl hm) ?_
    | with_reducible refine State.lcDropAll_keep (Within.trans rfl hm) ?_
    | with_reducible refine State.setVectors_keep (Within.trans rfl hm) ?_
    | with_reducible refine State.setIrq_keep (Within.trans rfl hm) ?_
    | with_reducible refine State.epochOpen_keep (Within.trans rfl hm) ?_
    | with_reducible refine Keep.foldl (fun x a hx => ?_) _ ?_
    | with_reducible refine Keep.ite ?_ ?_
    | (intro hx)
    | split
    | with_reducible refine Keep.setTwin ?_ (hm.bit 12 rfl)

theorem State.twnFence_keep {m : Nat} {s₀ : State} {s : State} {cause : Nat} (hm : Within 25181171 m) (h : Keep m s₀ s) :
    Keep m s₀ (State.twnFence s cause) := by
  unfold State.twnFence
  iterate 60 try any_goals first
    | with_reducible assumption
    | with_reducible refine State.mirrorStop_keep (Within.trans rfl hm) ?_
    | with_reducible refine State.discardQueue_keep (Within.trans rfl hm) ?_
    | with_reducible refine State.cansCut_keep (Within.trans rfl hm) ?_
    | with_reducible refine State.serialsCut_keep (Within.trans rfl hm) ?_
    | with_reducible refine State.vmeCut_keep (Within.trans rfl hm) ?_
    | with_reducible refine State.bumpN_keep (Within.trans rfl hm) ?_
    | with_reducible refine State.bump_keep (Within.trans rfl hm) ?_
    | with_reducible refine State.raise_keep (Within.trans rfl hm) ?_
    | with_reducible refine Keep.ite ?_ ?_
    | with_reducible refine Keep.setTwin ?_ (hm.bit 12 rfl)

theorem State.twnEnable_keep {m : Nat} {s₀ : State} {s : State} {on : Bool} (hm : Within 25181171 m) (h : Keep m s₀ s) :
    Keep m s₀ (State.twnEnable s on) := by
  unfold State.twnEnable
  iterate 60 try any_goals first
    | with_reducible assumption
    | with_reducible refine State.wr_keep (Within.trans rfl hm) ?_
    | with_reducible refine State.desFull_keep (Within.trans rfl hm) ?_
    | with_reducible refine State.outputsOff_keep (Within.trans rfl hm) ?_
    | with_reducible refine State.toStandby_keep (Within.trans rfl hm) ?_
    | with_reducible refine State.mirrorStop_keep (Within.trans rfl hm) ?_
    | with_reducible refine Keep.ite ?_ ?_
    | (intro hx)
    | split
    | with_reducible refine Keep.setTwin ?_ (hm.bit 12 rfl)

theorem twnBeacon_keep {m : Nat} {s₀ : State} {s : State} (hm : Within 8395265 m) (h : Keep m s₀ s) :
    Keep m s₀ (twnBeacon s) := by
  unfold twnBeacon
  iterate 60 try any_goals first
    | with_reducible assumption
    | with_reducible refine State.leaseAll_keep (Within.trans rfl hm) ?_
    | with_reducible refine Keep.ite ?_ ?_
    | with_reducible refine Keep.setTwin ?_ (hm.bit 12 rfl)

theorem State.heard_keep {m : Nat} {s₀ : State} {s : State} {q : Nat} {p0 : Packet} (hm : Within 4096 m) (h : Keep m s₀ s) :
    Keep m s₀ (State.heard s q p0) := by
  unfold State.heard
  iterate 60 try any_goals first
    | with_reducible assumption
    | with_reducible refine Keep.ite ?_ ?_
    | with_reducible refine Keep.setTwin ?_ (hm.bit 12 rfl)

theorem State.withLease_keep {m : Nat} {s₀ : State} {s : State} {q : Nat} {ltype : Nat} {f : Packet → State → State} (hm : Within 4608 m) (h : Keep m s₀ s) (h1 : ∀ y0 x, Keep m s₀ x → Keep m s₀ (f y0 x)) :
    Keep m s₀ (State.withLease s q ltype f) := by
  unfold State.withLease
  iterate 60 try any_goals first
    | with_reducible assumption
    | with_reducible refine h1 _ _ ?_
    | with_reducible refine State.withTaken_keep (Within.trans rfl hm) ?_ ?_
    | with_reducible refine State.heard_keep (Within.trans rfl hm) ?_
    | (intro hx)
    | with_reducible refine Keep.ite ?_ ?_

theorem State.leaseSettings_keep {m : Nat} {s₀ : State} {s : State} {l : Nat} {g : Nat} (hm : Within 4098 m) (h : Keep m s₀ s) :
    Keep m s₀ (State.leaseSettings s l g) := by
  unfold State.leaseSettings
  iterate 60 try any_goals first
    | with_reducible assumption
    | with_reducible refine State.raise_keep (Within.trans rfl hm) ?_
    | with_reducible refine Keep.ite ?_ ?_
    | (intro hx)
    | split
    | with_reducible refine Keep.setTwin ?_ (hm.bit 12 rfl)

theorem State.conflict_keep {m : Nat} {s₀ : State} {s : State} {p0 : Packet} (hm : Within 25181171 m) (h : Keep m s₀ s) :
    Keep m s₀ (State.conflict s p0) := by
  unfold State.conflict
  iterate 60 try any_goals first
    | with_reducible assumption
    | with_reducible refine State.raise_keep (Within.trans rfl hm) ?_
    | with_reducible refine State.twnFence_keep (Within.trans rfl hm) ?_
    | with_reducible refine Keep.ite ?_ ?_

theorem State.holderHeard_keep {m : Nat} {s₀ : State} {s : State} {src : Nat} (hm : Within 4096 m) (h : Keep m s₀ s) :
    Keep m s₀ (State.holderHeard s src) := by
  unfold State.holderHeard
  iterate 60 try any_goals first
    | with_reducible assumption
    | with_reducible refine Keep.setTwin ?_ (hm.bit 12 rfl)

theorem State.heardNow_keep {m : Nat} {s₀ : State} {s : State} (hm : Within 4096 m) (h : Keep m s₀ s) :
    Keep m s₀ (State.heardNow s) := by
  unfold State.heardNow
  iterate 60 try any_goals first
    | with_reducible assumption
    | with_reducible refine Keep.setTwin ?_ (hm.bit 12 rfl)

theorem State.beaconHeard_keep {m : Nat} {s₀ : State} {s : State} {queue : Nat} {p0 : Packet} (hm : Within 8395265 m) (h : Keep m s₀ s) :
    Keep m s₀ (State.beaconHeard s queue p0) := by
  unfold State.beaconHeard
  iterate 60 try any_goals first
    | with_reducible assumption
    | with_reducible refine State.leaseBack_keep (Within.trans rfl hm) ?_
    | with_reducible refine State.holderHeard_keep (Within.trans rfl hm) ?_
    | with_reducible refine State.heardNow_keep (Within.trans rfl hm) ?_
    | with_reducible refine State.toStandby_keep (Within.trans rfl hm) ?_
    | with_reducible refine State.sendResync_keep (Within.trans rfl hm) ?_
    | with_reducible refine Keep.ite ?_ ?_

theorem State.beaconTake_keep {m : Nat} {s₀ : State} {s : State} {queue : Nat} {p0 : Packet} (hm : Within 25181171 m) (h : Keep m s₀ s) :
    Keep m s₀ (State.beaconTake s queue p0) := by
  unfold State.beaconTake
  iterate 60 try any_goals first
    | with_reducible assumption
    | with_reducible refine State.leaseSettings_keep (Within.trans rfl hm) ?_
    | with_reducible refine State.wrB_keep (Within.trans rfl hm) ?_
    | with_reducible refine State.conflict_keep (Within.trans rfl hm) ?_
    | with_reducible refine State.leaseBack_keep (Within.trans rfl hm) ?_
    | with_reducible refine State.toStandby_keep (Within.trans rfl hm) ?_
    | with_reducible refine State.beaconHeard_keep (Within.trans rfl hm) ?_
    | with_reducible refine Keep.ite ?_ ?_

theorem beaconRx_keep {m : Nat} {s₀ : State} {queue : Nat} {s : State} (hm : Within 25181171 m) (h : Keep m s₀ s) :
    Keep m s₀ (beaconRx queue s) := by
  unfold beaconRx
  iterate 60 try any_goals first
    | with_reducible assumption
    | with_reducible refine State.withLease_keep (Within.trans rfl hm) ?_ ?_
    | with_reducible refine State.beaconTake_keep (Within.trans rfl hm) ?_
    | (intro hx)

theorem leaseAckRx_keep {m : Nat} {s₀ : State} {queue : Nat} {s : State} (hm : Within 4609 m) (h : Keep m s₀ s) :
    Keep m s₀ (leaseAckRx queue s) := by
  unfold leaseAckRx
  iterate 60 try any_goals first
    | with_reducible assumption
    | with_reducible refine State.withLease_keep (Within.trans rfl hm) ?_ ?_
    | with_reducible refine State.wr_keep (Within.trans rfl hm) ?_
    | with_reducible refine State.wrB_keep (Within.trans rfl hm) ?_
    | (intro hx)
    | split
    | with_reducible refine Keep.setTwin ?_ (hm.bit 12 rfl)

theorem twnLeaseLapse_keep {m : Nat} {s₀ : State} {s : State} (hm : Within 25181171 m) (h : Keep m s₀ s) :
    Keep m s₀ (twnLeaseLapse s) := by
  unfold twnLeaseLapse
  iterate 60 try any_goals first
    | with_reducible assumption
    | with_reducible refine State.wr_keep (Within.trans rfl hm) ?_
    | with_reducible refine State.raise_keep (Within.trans rfl hm) ?_
    | with_reducible refine State.twnFence_keep (Within.trans rfl hm) ?_
    | with_reducible refine Keep.ite ?_ ?_
    | with_reducible refine Keep.setTwin ?_ (hm.bit 12 rfl)

theorem State.startClaim_keep {m : Nat} {s₀ : State} {s : State} {handover : Bool} (hm : Within 8395265 m) (h : Keep m s₀ s) :
    Keep m s₀ (State.startClaim s handover) := by
  unfold State.startClaim
  iterate 60 try any_goals first
    | with_reducible assumption
    | with_reducible refine State.wr_keep (Within.trans rfl hm) ?_
    | with_reducible refine State.leaseAll_keep (Within.trans rfl hm) ?_
    | with_reducible refine Keep.setTwin ?_ (hm.bit 12 rfl)

theorem twnWaitEnd_keep {m : Nat} {s₀ : State} {s : State} (hm : Within 8395267 m) (h : Keep m s₀ s) :
    Keep m s₀ (twnWaitEnd s) := by
  unfold twnWaitEnd
  iterate 60 try any_goals first
    | with_reducible assumption
    | with_reducible refine State.raise_keep (Within.trans rfl hm) ?_
    | with_reducible refine State.startClaim_keep (Within.trans rfl hm) ?_
    | with_reducible refine Keep.ite ?_ ?_
    | with_reducible refine Keep.setTwin ?_ (hm.bit 12 rfl)

theorem takeRx_keep {m : Nat} {s₀ : State} {queue : Nat} {s : State} (hm : Within 4608 m) (h : Keep m s₀ s) :
    Keep m s₀ (takeRx queue s) := by
  unfold takeRx
  iterate 60 try any_goals first
    | with_reducible assumption
    | with_reducible refine State.withLease_keep (Within.trans rfl hm) ?_ ?_
    | (intro hx)
    | with_reducible refine Keep.ite ?_ ?_
    | with_reducible refine Keep.setTwin ?_ (hm.bit 12 rfl)

theorem twnClaimEnd_keep {m : Nat} {s₀ : State} {s : State} (hm : Within 8403635 m) (h : Keep m s₀ s) :
    Keep m s₀ (twnClaimEnd s) := by
  unfold twnClaimEnd
  iterate 60 try any_goals first
    | with_reducible assumption
    | with_reducible refine State.toStandby_keep (Within.trans rfl hm) ?_
    | with_reducible refine State.takeCrook_keep (Within.trans rfl hm) ?_
    | with_reducible refine Keep.ite ?_ ?_
    | with_reducible refine Keep.setTwin ?_ (hm.bit 12 rfl)

theorem twnFenceDone_keep {m : Nat} {s₀ : State} {s : State} (hm : Within 8401089 m) (h : Keep m s₀ s) :
    Keep m s₀ (twnFenceDone s) := by
  unfold twnFenceDone
  iterate 60 try any_goals first
    | with_reducible assumption
    | with_reducible refine State.wr_keep (Within.trans rfl hm) ?_
    | with_reducible refine State.chainsOff_keep (Within.trans rfl hm) ?_
    | with_reducible refine Keep.ite ?_ ?_
    | (intro hx)
    | split
    | with_reducible refine Keep.setTwin ?_ (hm.bit 12 rfl)

theorem twnFenceRearm_keep {m : Nat} {s₀ : State} {s : State} (hm : Within 4097 m) (h : Keep m s₀ s) :
    Keep m s₀ (twnFenceRearm s) := by
  unfold twnFenceRearm
  iterate 60 try any_goals first
    | with_reducible assumption
    | with_reducible refine State.toStandby_keep (Within.trans rfl hm) ?_
    | with_reducible refine Keep.ite ?_ ?_

theorem State.twnRearm_keep {m : Nat} {s₀ : State} {s : State} (hm : Within 4097 m) (h : Keep m s₀ s) :
    Keep m s₀ (State.twnRearm s) := by
  unfold State.twnRearm
  iterate 60 try any_goals first
    | with_reducible assumption
    | with_reducible refine State.toStandby_keep (Within.trans rfl hm) ?_
    | with_reducible refine Keep.ite ?_ ?_
    | with_reducible refine Keep.setTwin ?_ (hm.bit 12 rfl)

theorem State.twnResume_keep {m : Nat} {s₀ : State} {s : State} (hm : Within 1 m) (h : Keep m s₀ s) :
    Keep m s₀ (State.twnResume s) := by
  unfold State.twnResume
  iterate 60 try any_goals first
    | with_reducible assumption
    | with_reducible refine State.wr_keep (Within.trans rfl hm) ?_

theorem State.twnYield_keep {m : Nat} {s₀ : State} {s : State} (hm : Within 3 m) (h : Keep m s₀ s) :
    Keep m s₀ (State.twnYield s) := by
  unfold State.twnYield
  iterate 60 try any_goals first
    | with_reducible assumption
    | with_reducible refine State.wr_keep (Within.trans rfl hm) ?_
    | with_reducible refine State.raise_keep (Within.trans rfl hm) ?_
    | with_reducible refine Keep.ite ?_ ?_

theorem twnYieldRefused_keep {m : Nat} {s₀ : State} {s : State} (hm : Within 8394899 m) (h : Keep m s₀ s) :
    Keep m s₀ (twnYieldRefused s) := by
  unfold twnYieldRefused
  iterate 60 try any_goals first
    | with_reducible assumption
    | with_reducible refine State.wr_keep (Within.trans rfl hm) ?_
    | with_reducible refine State.tenureNext_keep (Within.trans rfl hm) ?_
    | with_reducible refine State.raise_keep (Within.trans rfl hm) ?_
    | with_reducible refine Keep.ite ?_ ?_
    | with_reducible refine Keep.setTwin ?_ (hm.bit 12 rfl)

theorem handoverRx_keep {m : Nat} {s₀ : State} {queue : Nat} {s : State} (hm : Within 8395265 m) (h : Keep m s₀ s) :
    Keep m s₀ (handoverRx queue s) := by
  unfold handoverRx
  iterate 60 try any_goals first
    | with_reducible assumption
    | with_reducible refine State.withLease_keep (Within.trans rfl hm) ?_ ?_
    | with_reducible refine State.startClaim_keep (Within.trans rfl hm) ?_
    | (intro hx)
    | with_reducible refine Keep.ite ?_ ?_
    | with_reducible refine Keep.setTwin ?_ (hm.bit 12 rfl)

theorem twnHoldToggle_keep {m : Nat} {s₀ : State} {s : State} (hm : Within 4096 m) (h : Keep m s₀ s) :
    Keep m s₀ (twnHoldToggle s) := by
  unfold twnHoldToggle
  iterate 60 try any_goals first
    | with_reducible assumption
    | with_reducible refine Keep.ite ?_ ?_
    | with_reducible refine Keep.setTwin ?_ (hm.bit 12 rfl)

theorem twnHoldInClassify_keep {m : Nat} {s₀ : State} {level : Bool} {changed : Bool} {s : State} (hm : Within 4097 m) (h : Keep m s₀ s) :
    Keep m s₀ (twnHoldInClassify level changed s) := by
  unfold twnHoldInClassify
  iterate 60 try any_goals first
    | with_reducible assumption
    | with_reducible refine State.wr_keep (Within.trans rfl hm) ?_
    | with_reducible refine Keep.ite ?_ ?_
    | with_reducible refine Keep.setTwin ?_ (hm.bit 12 rfl)

end Sys2Proof.Machine
end

