-- ==== Sys2Proof/Laws/KeepLink.lean ====
section
/-! SUPPORT. What each operation of Link, Fault, DrvOps, SetupRead leaves alone and keeps: its footprint as a mask of units, and that it keeps
the memories canonical, the queue of commands and a recorder key once set (see Laws/Keep.lean). -/

namespace Sys2Proof.Machine

set_option maxRecDepth 4000

theorem State.laneReset_keep {m : Nat} {s₀ : State} {s : State} {l : Nat} (hm : Within 513 m) (h : Keep m s₀ s) :
    Keep m s₀ (State.laneReset s l) := by
  unfold State.laneReset
  iterate 60 try any_goals first
    | with_reducible assumption
    | with_reducible refine State.wr_keep (Within.trans rfl hm) ?_
    | with_reducible refine State.setLane_keep (Within.trans rfl hm) ?_
    | split

theorem State.linkRetrain_keep {m : Nat} {s₀ : State} {s : State} {k : Nat} (hm : Within 513 m) (h : Keep m s₀ s) :
    Keep m s₀ (State.linkRetrain s k) := by
  unfold State.linkRetrain
  iterate 60 try any_goals first
    | with_reducible assumption
    | with_reducible refine State.wr_keep (Within.trans rfl hm) ?_
    | with_reducible refine State.laneReset_keep (Within.trans rfl hm) ?_
    | with_reducible refine Keep.foldl (fun x a hx => ?_) _ ?_
    | split

theorem State.peerHanded_keep {m : Nat} {s₀ : State} {s : State} {held : List (Nat × Packet)} (hm : Within 8391169 m) (h : Keep m s₀ s) :
    Keep m s₀ (State.peerHanded s held) := by
  unfold State.peerHanded
  iterate 60 try any_goals first
    | with_reducible assumption
    | with_reducible refine State.setLink_keep (Within.trans rfl hm) ?_
    | with_reducible refine State.injectOn_keep (Within.trans rfl hm) ?_
    | with_reducible refine Keep.foldl (fun x a hx => ?_) _ ?_
    | with_reducible refine Keep.ite ?_ ?_
    | (intro hx)
    | split

theorem State.layerDown_keep {m : Nat} {s₀ : State} {s : State} {k : Nat} {held : List (Nat × Packet)} {nextSeq : Nat} (hm : Within 8395267 m) (h : Keep m s₀ s) :
    Keep m s₀ (State.layerDown s k held nextSeq) := by
  unfold State.layerDown
  iterate 60 try any_goals first
    | with_reducible assumption
    | with_reducible refine State.wr_keep (Within.trans rfl hm) ?_
    | with_reducible refine State.bumpN_keep (Within.trans rfl hm) ?_
    | with_reducible refine State.bump_keep (Within.trans rfl hm) ?_
    | with_reducible refine State.raise_keep (Within.trans rfl hm) ?_
    | with_reducible refine State.wrapSide_keep (Within.trans rfl hm) ?_
    | with_reducible refine State.peerHanded_keep (Within.trans rfl hm) ?_
    | with_reducible refine Keep.ite ?_ ?_
    | (intro hx)
    | split
    | with_reducible refine Keep.setTwin ?_ (hm.bit 12 rfl)

theorem State.linkDown_keep {m : Nat} {s₀ : State} {s : State} {k : Nat} {st : Nat} (hm : Within 8395267 m) (h : Keep m s₀ s) :
    Keep m s₀ (State.linkDown s k st) := by
  unfold State.linkDown
  iterate 60 try any_goals first
    | with_reducible assumption
    | with_reducible refine State.bump_keep (Within.trans rfl hm) ?_
    | with_reducible refine State.raise_keep (Within.trans rfl hm) ?_
    | with_reducible refine State.setLink_keep (Within.trans rfl hm) ?_
    | with_reducible refine State.wr_keep (Within.trans rfl hm) ?_
    | with_reducible refine State.linkRetrain_keep (Within.trans rfl hm) ?_
    | with_reducible refine State.layerDown_keep (Within.trans rfl hm) ?_
    | with_reducible refine Keep.ite ?_ ?_

theorem State.linkBack_keep {m : Nat} {s₀ : State} {s : State} {k : Nat} (hm : Within 8391169 m) (h : Keep m s₀ s) :
    Keep m s₀ (State.linkBack s k) := by
  unfold State.linkBack
  iterate 60 try any_goals first
    | with_reducible assumption
    | with_reducible refine State.setWrapRec_keep (Within.trans rfl hm) ?_
    | with_reducible refine State.unwrapSide_keep (Within.trans rfl hm) ?_
    | with_reducible refine Keep.ite ?_ ?_

theorem State.linkUpNow_keep {m : Nat} {s₀ : State} {s : State} {k : Nat} (hm : Within 8391169 m) (h : Keep m s₀ s) :
    Keep m s₀ (State.linkUpNow s k) := by
  unfold State.linkUpNow
  iterate 60 try any_goals first
    | with_reducible assumption
    | with_reducible refine State.wr_keep (Within.trans rfl hm) ?_
    | with_reducible refine State.setLink_keep (Within.trans rfl hm) ?_
    | with_reducible refine State.sendFrame_keep (Within.trans rfl hm) ?_
    | with_reducible refine State.linkBack_keep (Within.trans rfl hm) ?_
    | split

theorem State.fireCodeword_keep {m : Nat} {s₀ : State} {s : State} {l : Nat} (hm : Within 8391169 m) (h : Keep m s₀ s) :
    Keep m s₀ (State.fireCodeword s l) := by
  unfold State.fireCodeword
  iterate 60 try any_goals first
    | with_reducible assumption
    | with_reducible refine State.emit_keep (Within.trans rfl hm) ?_
    | with_reducible refine State.setLane_keep (Within.trans rfl hm) ?_
    | with_reducible refine State.inject_keep (Within.trans rfl hm) ?_
    | with_reducible refine Keep.ite ?_ ?_
    | (intro hx)
    | split

theorem linkEnable_keep {m : Nat} {s₀ : State} {value : Word} {s : State} (hm : Within 8395267 m) (h : Keep m s₀ s) :
    Keep m s₀ (linkEnable value s) := by
  unfold linkEnable
  iterate 60 try any_goals first
    | with_reducible assumption
    | with_reducible refine State.setReg_keep (Within.trans rfl hm) ?_
    | with_reducible refine State.wr_keep (Within.trans rfl hm) ?_
    | with_reducible refine State.setLink_keep (Within.trans rfl hm) ?_
    | with_reducible refine State.linkRetrain_keep (Within.trans rfl hm) ?_
    | with_reducible refine State.linkDown_keep (Within.trans rfl hm) ?_
    | with_reducible refine State.fireCodeword_keep (Within.trans rfl hm) ?_
    | with_reducible refine Keep.foldl (fun x a hx => ?_) _ ?_
    | with_reducible refine Keep.ite ?_ ?_
    | (intro hx)
    | split

theorem clockRecovered_keep {m : Nat} {s₀ : State} {lane : Nat} {s : State} (hm : Within 512 m) (h : Keep m s₀ s) :
    Keep m s₀ (clockRecovered lane s) := by
  unfold clockRecovered
  iterate 60 try any_goals first
    | with_reducible assumption
    | with_reducible refine State.setLane_keep (Within.trans rfl hm) ?_
    | with_reducible refine Keep.ite ?_ ?_

theorem blockLock_keep {m : Nat} {s₀ : State} {lane : Nat} {gained : Bool} {s : State} (hm : Within 2561 m) (h : Keep m s₀ s) :
    Keep m s₀ (blockLock lane gained s) := by
  unfold blockLock
  iterate 60 try any_goals first
    | with_reducible assumption
    | with_reducible refine State.wr_keep (Within.trans rfl hm) ?_
    | with_reducible refine State.bump_keep (Within.trans rfl hm) ?_
    | with_reducible refine State.setLane_keep (Within.trans rfl hm) ?_
    | with_reducible refine Keep.ite ?_ ?_
    | (intro hx)
    | split

theorem State.laneIn_keep {m : Nat} {s₀ : State} {s : State} {l : Nat} (hm : Within 513 m) (h : Keep m s₀ s) :
    Keep m s₀ (State.laneIn s l) := by
  unfold State.laneIn
  iterate 60 try any_goals first
    | with_reducible assumption
    | with_reducible refine State.wr_keep (Within.trans rfl hm) ?_
    | with_reducible refine State.setLane_keep (Within.trans rfl hm) ?_
    | split

theorem State.laneJoin_keep {m : Nat} {s₀ : State} {s : State} {l : Nat} (hm : Within 8389123 m) (h : Keep m s₀ s) :
    Keep m s₀ (State.laneJoin s l) := by
  unfold State.laneJoin
  iterate 60 try any_goals first
    | with_reducible assumption
    | with_reducible refine State.raise_keep (Within.trans rfl hm) ?_
    | with_reducible refine State.openLane_keep (Within.trans rfl hm) ?_
    | with_reducible refine State.laneIn_keep (Within.trans rfl hm) ?_
    | with_reducible refine Keep.ite ?_ ?_
    | (intro hx)
    | split

theorem State.pairJoin_keep {m : Nat} {s₀ : State} {s : State} {l : Nat} (hm : Within 8389123 m) (h : Keep m s₀ s) :
    Keep m s₀ (State.pairJoin s l) := by
  unfold State.pairJoin
  iterate 60 try any_goals first
    | with_reducible assumption
    | with_reducible refine State.laneJoin_keep (Within.trans rfl hm) ?_
    | with_reducible refine Keep.ite ?_ ?_
    | (intro hx)
    | split

theorem State.lanePassed_keep {m : Nat} {s₀ : State} {s : State} {l : Nat} (hm : Within 8389123 m) (h : Keep m s₀ s) :
    Keep m s₀ (State.lanePassed s l) := by
  unfold State.lanePassed
  iterate 60 try any_goals first
    | with_reducible assumption
    | with_reducible refine State.setLane_keep (Within.trans rfl hm) ?_
    | with_reducible refine State.laneJoin_keep (Within.trans rfl hm) ?_
    | with_reducible refine State.pairJoin_keep (Within.trans rfl hm) ?_
    | with_reducible refine Keep.ite ?_ ?_
    | (intro hx)
    | split

theorem State.markerSays_keep {m : Nat} {s₀ : State} {s : State} {l : Nat} {w1 : Nat} (hm : Within 513 m) (h : Keep m s₀ s) :
    Keep m s₀ (State.markerSays s l w1) := by
  unfold State.markerSays
  iterate 60 try any_goals first
    | with_reducible assumption
    | with_reducible refine State.wr_keep (Within.trans rfl hm) ?_
    | with_reducible refine State.wrB_keep (Within.trans rfl hm) ?_
    | with_reducible refine State.setLink_keep (Within.trans rfl hm) ?_
    | with_reducible refine Keep.ite ?_ ?_
    | (intro hx)
    | split

theorem laneMarkerRx_keep {m : Nat} {s₀ : State} {lane : Nat} {w0 : Nat} {w1 : Nat} {w2 : Nat} {w3 : Nat} {s : State} (hm : Within 8389123 m) (h : Keep m s₀ s) :
    Keep m s₀ (laneMarkerRx lane w0 w1 w2 w3 s) := by
  unfold laneMarkerRx
  iterate 60 try any_goals first
    | with_reducible assumption
    | with_reducible refine State.wr_keep (Within.trans rfl hm) ?_
    | with_reducible refine State.raise_keep (Within.trans rfl hm) ?_
    | with_reducible refine State.setLane_keep (Within.trans rfl hm) ?_
    | with_reducible refine State.pairJoin_keep (Within.trans rfl hm) ?_
    | with_reducible refine State.lanePassed_keep (Within.trans rfl hm) ?_
    | with_reducible refine State.markerSays_keep (Within.trans rfl hm) ?_
    | with_reducible refine Keep.ite ?_ ?_
    | (intro hx)
    | split

theorem linkInitTx_keep {m : Nat} {s₀ : State} {link : Nat} {s : State} (hm : Within 8391169 m) (h : Keep m s₀ s) :
    Keep m s₀ (linkInitTx link s) := by
  unfold linkInitTx
  iterate 60 try any_goals first
    | with_reducible assumption
    | with_reducible refine State.sendFrame_keep (Within.trans rfl hm) ?_
    | with_reducible refine State.setLink_keep (Within.trans rfl hm) ?_
    | with_reducible refine State.linkUpNow_keep (Within.trans rfl hm) ?_
    | with_reducible refine Keep.ite ?_ ?_

theorem lnkTrainFail_keep {m : Nat} {s₀ : State} {link : Nat} {s : State} (hm : Within 515 m) (h : Keep m s₀ s) :
    Keep m s₀ (lnkTrainFail link s) := by
  unfold lnkTrainFail
  iterate 60 try any_goals first
    | with_reducible assumption
    | with_reducible refine State.raise_keep (Within.trans rfl hm) ?_
    | with_reducible refine State.setLink_keep (Within.trans rfl hm) ?_
    | with_reducible refine State.wr_keep (Within.trans rfl hm) ?_
    | with_reducible refine Keep.ite ?_ ?_

theorem linkRetrainNow_keep {m : Nat} {s₀ : State} {link : Nat} {s : State} (hm : Within 513 m) (h : Keep m s₀ s) :
    Keep m s₀ (linkRetrainNow link s) := by
  unfold linkRetrainNow
  iterate 60 try any_goals first
    | with_reducible assumption
    | with_reducible refine State.wr_keep (Within.trans rfl hm) ?_
    | with_reducible refine State.setLink_keep (Within.trans rfl hm) ?_
    | with_reducible refine State.linkRetrain_keep (Within.trans rfl hm) ?_
    | with_reducible refine Keep.ite ?_ ?_
    | (intro hx)
    | split

theorem State.laneOut_keep {m : Nat} {s₀ : State} {s : State} {l : Nat} (hm : Within 8395267 m) (h : Keep m s₀ s) :
    Keep m s₀ (State.laneOut s l) := by
  unfold State.laneOut
  iterate 60 try any_goals first
    | with_reducible assumption
    | with_reducible refine State.wr_keep (Within.trans rfl hm) ?_
    | with_reducible refine State.raise_keep (Within.trans rfl hm) ?_
    | with_reducible refine State.openLane_keep (Within.trans rfl hm) ?_
    | with_reducible refine State.laneReset_keep (Within.trans rfl hm) ?_
    | with_reducible refine State.linkDown_keep (Within.trans rfl hm) ?_
    | with_reducible refine Keep.ite ?_ ?_
    | (intro hx)
    | split

theorem laneLockLoss_keep {m : Nat} {s₀ : State} {lane : Nat} {s : State} (hm : Within 8395267 m) (h : Keep m s₀ s) :
    Keep m s₀ (laneLockLoss lane s) := by
  unfold laneLockLoss
  iterate 60 try any_goals first
    | with_reducible assumption
    | with_reducible refine State.laneOut_keep (Within.trans rfl hm) ?_
    | with_reducible refine Keep.ite ?_ ?_

theorem laneDegradeCheck_keep {m : Nat} {s₀ : State} {lane : Nat} {s : State} (hm : Within 8395267 m) (h : Keep m s₀ s) :
    Keep m s₀ (laneDegradeCheck lane s) := by
  unfold laneDegradeCheck
  iterate 60 try any_goals first
    | with_reducible assumption
    | with_reducible refine State.setLane_keep (Within.trans rfl hm) ?_
    | with_reducible refine State.laneOut_keep (Within.trans rfl hm) ?_
    | with_reducible refine Keep.ite ?_ ?_

theorem State.sendNak_keep {m : Nat} {s₀ : State} {s : State} {k : Nat} {seq : Nat} (hm : Within 8391169 m) (h : Keep m s₀ s) :
    Keep m s₀ (State.sendNak s k seq) := by
  unfold State.sendNak
  iterate 60 try any_goals first
    | with_reducible assumption
    | with_reducible refine State.bump_keep (Within.trans rfl hm) ?_
    | with_reducible refine State.setLink_keep (Within.trans rfl hm) ?_
    | with_reducible refine State.sendFrame_keep (Within.trans rfl hm) ?_
    | split

theorem State.acceptData_keep {m : Nat} {s₀ : State} {s : State} {k : Nat} {f : Frame} (hm : Within 2561 m) (h : Keep m s₀ s) :
    Keep m s₀ (State.acceptData s k f) := by
  unfold State.acceptData
  iterate 60 try any_goals first
    | with_reducible assumption
    | with_reducible refine State.bump_keep (Within.trans rfl hm) ?_
    | with_reducible refine State.setLink_keep (Within.trans rfl hm) ?_
    | with_reducible refine State.freeUnits_keep (Within.trans rfl hm) ?_
    | with_reducible refine State.rxPush_keep (Within.trans rfl hm) ?_
    | with_reducible refine State.takenPush_keep (Within.trans rfl hm) ?_
    | with_reducible refine Keep.ite ?_ ?_
    | (intro hx)
    | split

theorem State.initRx_keep {m : Nat} {s₀ : State} {s : State} {k : Nat} {f : Frame} (hm : Within 8391169 m) (h : Keep m s₀ s) :
    Keep m s₀ (State.initRx s k f) := by
  unfold State.initRx
  iterate 60 try any_goals first
    | with_reducible assumption
    | with_reducible refine State.wr_keep (Within.trans rfl hm) ?_
    | with_reducible refine State.setLink_keep (Within.trans rfl hm) ?_
    | with_reducible refine State.linkUpNow_keep (Within.trans rfl hm) ?_
    | with_reducible refine Keep.ite ?_ ?_
    | (intro hx)
    | split

theorem State.laneRx_keep {m : Nat} {s₀ : State} {s : State} {k : Nat} {f : Frame} (hm : Within 8395267 m) (h : Keep m s₀ s) :
    Keep m s₀ (State.laneRx s k f) := by
  unfold State.laneRx
  iterate 60 try any_goals first
    | with_reducible assumption
    | with_reducible refine State.wr_keep (Within.trans rfl hm) ?_
    | with_reducible refine State.raise_keep (Within.trans rfl hm) ?_
    | with_reducible refine State.linkDown_keep (Within.trans rfl hm) ?_
    | with_reducible refine Keep.foldl (fun x a hx => ?_) _ ?_
    | with_reducible refine Keep.ite ?_ ?_
    | (intro hx)
    | split

theorem State.flowRx_keep {m : Nat} {s₀ : State} {s : State} {k : Nat} {f : Frame} (hm : Within 8389121 m) (h : Keep m s₀ s) :
    Keep m s₀ (State.flowRx s k f) := by
  unfold State.flowRx
  iterate 60 try any_goals first
    | with_reducible assumption
    | with_reducible refine State.pumpLink_keep (Within.trans rfl hm) ?_
    | with_reducible refine State.setLink_keep (Within.trans rfl hm) ?_

theorem State.nakRx_keep {m : Nat} {s₀ : State} {s : State} {k : Nat} {f : Frame} (hm : Within 8391169 m) (h : Keep m s₀ s) :
    Keep m s₀ (State.nakRx s k f) := by
  unfold State.nakRx
  iterate 60 try any_goals first
    | with_reducible assumption
    | with_reducible refine State.bump_keep (Within.trans rfl hm) ?_
    | with_reducible refine State.pumpLink_keep (Within.trans rfl hm) ?_
    | with_reducible refine State.replayFrom_keep (Within.trans rfl hm) ?_
    | with_reducible refine State.takeAck_keep (Within.trans rfl hm) ?_
    | with_reducible refine Keep.ite ?_ ?_
    | (intro hx)
    | split

theorem State.takeFrame_keep {m : Nat} {s₀ : State} {s : State} {k : Nat} {f : Frame} (hm : Within 8395267 m) (h : Keep m s₀ s) :
    Keep m s₀ (State.takeFrame s k f) := by
  unfold State.takeFrame
  iterate 60 try any_goals first
    | with_reducible assumption
    | with_reducible refine State.initRx_keep (Within.trans rfl hm) ?_
    | with_reducible refine State.acceptData_keep (Within.trans rfl hm) ?_
    | with_reducible refine State.takeHeader_keep (Within.trans rfl hm) ?_
    | with_reducible refine State.nakRx_keep (Within.trans rfl hm) ?_
    | with_reducible refine State.laneRx_keep (Within.trans rfl hm) ?_
    | with_reducible refine State.flowRx_keep (Within.trans rfl hm) ?_
    | with_reducible refine Keep.ite ?_ ?_

theorem State.sendStomp_keep {m : Nat} {s₀ : State} {s : State} {k : Nat} {p : Packet} (hm : Within 8391169 m) (h : Keep m s₀ s) :
    Keep m s₀ (State.sendStomp s k p) := by
  unfold State.sendStomp
  iterate 60 try any_goals first
    | with_reducible assumption
    | with_reducible refine State.bump_keep (Within.trans rfl hm) ?_
    | with_reducible refine State.emitFrame_keep (Within.trans rfl hm) ?_
    | split

theorem State.stompCopy_keep {m : Nat} {s₀ : State} {s : State} {k : Nat} {f : Frame} (hm : Within 8391169 m) (h : Keep m s₀ s) :
    Keep m s₀ (State.stompCopy s k f) := by
  unfold State.stompCopy
  iterate 60 try any_goals first
    | with_reducible assumption
    | with_reducible refine State.sendStomp_keep (Within.trans rfl hm) ?_
    | with_reducible refine Keep.ite ?_ ?_
    | (intro hx)
    | split

theorem State.noteSeen_keep {m : Nat} {s₀ : State} {s : State} {k : Nat} (hm : Within 512 m) (h : Keep m s₀ s) :
    Keep m s₀ (State.noteSeen s k) := by
  unfold State.noteSeen
  iterate 60 try any_goals first
    | with_reducible assumption
    | with_reducible refine State.setLink_keep (Within.trans rfl hm) ?_
    | split

theorem State.toCorrected_keep {m : Nat} {s₀ : State} {s : State} {k : Nat} (hm : Within 512 m) (h : Keep m s₀ s) :
    Keep m s₀ (State.toCorrected s k) := by
  unfold State.toCorrected
  iterate 60 try any_goals first
    | with_reducible assumption
    | with_reducible refine State.setLink_keep (Within.trans rfl hm) ?_
    | split

theorem State.fastCheck_keep {m : Nat} {s₀ : State} {s : State} {k : Nat} {f : Frame} (hm : Within 8395267 m) (h : Keep m s₀ s) :
    Keep m s₀ (State.fastCheck s k f) := by
  unfold State.fastCheck
  iterate 60 try any_goals first
    | with_reducible assumption
    | with_reducible refine State.bump_keep (Within.trans rfl hm) ?_
    | with_reducible refine State.raise_keep (Within.trans rfl hm) ?_
    | with_reducible refine State.takeFrame_keep (Within.trans rfl hm) ?_
    | with_reducible refine State.stompCopy_keep (Within.trans rfl hm) ?_
    | with_reducible refine State.noteSeen_keep (Within.trans rfl hm) ?_
    | with_reducible refine State.toCorrected_keep (Within.trans rfl hm) ?_
    | with_reducible refine Keep.ite ?_ ?_
    | (intro hx)
    | split

theorem frameRx_keep {m : Nat} {s₀ : State} {link : Nat} {f : Frame} {s : State} (hm : Within 8395267 m) (h : Keep m s₀ s) :
    Keep m s₀ (frameRx link f s) := by
  unfold frameRx
  iterate 60 try any_goals first
    | with_reducible assumption
    | with_reducible refine State.fastCheck_keep (Within.trans rfl hm) ?_
    | with_reducible refine Keep.ite ?_ ?_

theorem dataFrameRx_keep {m : Nat} {s₀ : State} {link : Nat} {rx : List LaneBlock} {s : State} (hm : Within 8395267 m) (h : Keep m s₀ s) :
    Keep m s₀ (dataFrameRx link rx s) := by
  unfold dataFrameRx
  iterate 60 try any_goals first
    | with_reducible assumption
    | with_reducible refine frameRx_keep (Within.trans rfl hm) ?_
    | split

theorem ctlRx_keep {m : Nat} {s₀ : State} {kind : Nat} {link : Nat} {rx : List LaneBlock} {s : State} (hm : Within 8395267 m) (h : Keep m s₀ s) :
    Keep m s₀ (ctlRx kind link rx s) := by
  unfold ctlRx
  iterate 60 try any_goals first
    | with_reducible assumption
    | with_reducible refine frameRx_keep (Within.trans rfl hm) ?_
    | with_reducible refine Keep.ite ?_ ?_
    | (intro hx)
    | split

theorem State.frameError_keep {m : Nat} {s₀ : State} {s : State} {k : Nat} {seq : Option Nat} (hm : Within 8391169 m) (h : Keep m s₀ s) :
    Keep m s₀ (State.frameError s k seq) := by
  unfold State.frameError
  iterate 60 try any_goals first
    | with_reducible assumption
    | with_reducible refine State.bump_keep (Within.trans rfl hm) ?_
    | with_reducible refine State.sendNak_keep (Within.trans rfl hm) ?_
    | with_reducible refine Keep.ite ?_ ?_
    | (intro hx)
    | split

theorem State.correctedFrame_keep {m : Nat} {s₀ : State} {s : State} {k : Nat} {unc : Bool} {first : Bool} {f : Frame} (hm : Within 8395267 m) (h : Keep m s₀ s) :
    Keep m s₀ (State.correctedFrame s k unc first f) := by
  unfold State.correctedFrame
  iterate 60 try any_goals first
    | with_reducible assumption
    | with_reducible refine State.bump_keep (Within.trans rfl hm) ?_
    | with_reducible refine State.raise_keep (Within.trans rfl hm) ?_
    | with_reducible refine State.takeFrame_keep (Within.trans rfl hm) ?_
    | with_reducible refine State.frameError_keep (Within.trans rfl hm) ?_
    | with_reducible refine Keep.ite ?_ ?_
    | (intro hx)
    | split

theorem State.decodedFrame_keep {m : Nat} {s₀ : State} {s : State} {k : Nat} {unc : Bool} {x : Frame × Bool} (hm : Within 8395267 m) (h : Keep m s₀ s) :
    Keep m s₀ (State.decodedFrame s k unc x) := by
  unfold State.decodedFrame
  iterate 60 try any_goals first
    | with_reducible assumption
    | with_reducible refine State.bump_keep (Within.trans rfl hm) ?_
    | with_reducible refine State.raise_keep (Within.trans rfl hm) ?_
    | with_reducible refine State.setLink_keep (Within.trans rfl hm) ?_
    | with_reducible refine State.correctedFrame_keep (Within.trans rfl hm) ?_
    | with_reducible refine Keep.ite ?_ ?_
    | (intro hx)
    | split

theorem codewordDecoded_keep {m : Nat} {s₀ : State} {lane : Nat} {symbols : Nat} {frames : List (Frame × Bool)} {drained : Bool} {s : State} (hm : Within 8395267 m) (h : Keep m s₀ s) :
    Keep m s₀ (codewordDecoded lane symbols frames drained s) := by
  unfold codewordDecoded
  iterate 60 try any_goals first
    | with_reducible assumption
    | with_reducible refine State.bumpN_keep (Within.trans rfl hm) ?_
    | with_reducible refine State.bump_keep (Within.trans rfl hm) ?_
    | with_reducible refine State.setLink_keep (Within.trans rfl hm) ?_
    | with_reducible refine State.setLane_keep (Within.trans rfl hm) ?_
    | with_reducible refine State.frameError_keep (Within.trans rfl hm) ?_
    | with_reducible refine State.decodedFrame_keep (Within.trans rfl hm) ?_
    | with_reducible refine Keep.foldl (fun x a hx => ?_) _ ?_
    | with_reducible refine Keep.ite ?_ ?_
    | (intro hx)
    | split

theorem ackTimer_keep {m : Nat} {s₀ : State} {link : Nat} {s : State} (hm : Within 8389120 m) (h : Keep m s₀ s) :
    Keep m s₀ (ackTimer link s) := by
  unfold ackTimer
  iterate 60 try any_goals first
    | with_reducible assumption
    | with_reducible refine State.sendFrame_keep (Within.trans rfl hm) ?_
    | with_reducible refine Keep.ite ?_ ?_

theorem replayTimeout_keep {m : Nat} {s₀ : State} {link : Nat} {s : State} (hm : Within 8395267 m) (h : Keep m s₀ s) :
    Keep m s₀ (replayTimeout link s) := by
  unfold replayTimeout
  iterate 60 try any_goals first
    | with_reducible assumption
    | with_reducible refine State.raise_keep (Within.trans rfl hm) ?_
    | with_reducible refine State.setLink_keep (Within.trans rfl hm) ?_
    | with_reducible refine State.replayFrom_keep (Within.trans rfl hm) ?_
    | with_reducible refine State.linkDown_keep (Within.trans rfl hm) ?_
    | with_reducible refine Keep.ite ?_ ?_
    | (intro hx)
    | split

theorem State.lnkInj_keep {m : Nat} {s₀ : State} {s : State} (hm : Within 8391169 m) (h : Keep m s₀ s) :
    Keep m s₀ (State.lnkInj s) := by
  unfold State.lnkInj
  iterate 60 try any_goals first
    | with_reducible assumption
    | with_reducible refine State.setLane_keep (Within.trans rfl hm) ?_
    | with_reducible refine State.fireCodeword_keep (Within.trans rfl hm) ?_
    | split

theorem State.setEntry_keep {m : Nat} {s₀ : State} {s : State} {e0 : Nat} {x : Option ActEntry} (hm : Within 2 m) (h : Keep m s₀ s) :
    Keep m s₀ (State.setEntry s e0 x) := by
  unfold State.setEntry
  iterate 60 try any_goals first
    | with_reducible assumption
    | with_reducible refine Keep.ite ?_ ?_
    | with_reducible refine Keep.setFlt ?_ (hm.bit 1 rfl)

theorem State.entryGone_keep {m : Nat} {s₀ : State} {s : State} {a : ActEntry} (hm : Within 131073 m) (h : Keep m s₀ s) :
    Keep m s₀ (State.entryGone s a) := by
  unfold State.entryGone
  iterate 60 try any_goals first
    | with_reducible assumption
    | with_reducible refine State.slotUnhold_keep (Within.trans rfl hm) ?_
    | with_reducible refine Keep.ite ?_ ?_

theorem State.dropEntry_keep {m : Nat} {s₀ : State} {s : State} {e0 : Nat} (hm : Within 131075 m) (h : Keep m s₀ s) :
    Keep m s₀ (State.dropEntry s e0) := by
  unfold State.dropEntry
  iterate 60 try any_goals first
    | with_reducible assumption
    | with_reducible refine State.entryGone_keep (Within.trans rfl hm) ?_
    | with_reducible refine State.setEntry_keep (Within.trans rfl hm) ?_
    | split

theorem State.findEntry_keep {m : Nat} {s₀ : State} {s : State} {sev : Nat} (hm : Within 131075 m) (h : Keep m s₀ s) :
    Keep m s₀ (State.findEntry s sev).2 := by
  unfold State.findEntry
  iterate 60 try any_goals first
    | with_reducible assumption
    | with_reducible refine State.dropEntry_keep (Within.trans rfl hm) ?_
    | split

theorem State.addHistory_keep {m : Nat} {s₀ : State} {s : State} {f : FaultRec} {sev : Nat} {esc : Bool} {merge : Bool} (hm : Within 2 m) (h : Keep m s₀ s) :
    Keep m s₀ (State.addHistory s f sev esc merge) := by
  unfold State.addHistory
  iterate 60 try any_goals first
    | with_reducible assumption
    | with_reducible refine Keep.ite ?_ ?_
    | with_reducible refine Keep.setFlt ?_ (hm.bit 1 rfl)

theorem State.noteFirst_keep {m : Nat} {s₀ : State} {s : State} {f : FaultRec} {sev : Nat} (hm : Within 1 m) (h : Keep m s₀ s) :
    Keep m s₀ (State.noteFirst s f sev) := by
  unfold State.noteFirst
  iterate 60 try any_goals first
    | with_reducible assumption
    | with_reducible refine State.wr_keep (Within.trans rfl hm) ?_
    | with_reducible refine Keep.ite ?_ ?_

theorem State.errPulse_keep {m : Nat} {s₀ : State} {s : State} (hm : Within 2051 m) (h : Keep m s₀ s) :
    Keep m s₀ (State.errPulse s) := by
  unfold State.errPulse
  iterate 60 try any_goals first
    | with_reducible assumption
    | with_reducible refine State.bump_keep (Within.trans rfl hm) ?_
    | with_reducible refine Keep.setFlt ?_ (hm.bit 1 rfl)

theorem State.regionClear_keep {m : Nat} {s₀ : State} {s : State} {area : Nat} {v : Nat} (hm : Within 1 m) (h : Keep m s₀ s) :
    Keep m s₀ (State.regionClear s area v) := by
  unfold State.regionClear
  iterate 60 try any_goals first
    | with_reducible assumption
    | with_reducible refine State.setReg_keep (Within.trans rfl hm) ?_
    | with_reducible refine Keep.foldl (fun x a hx => ?_) _ ?_
    | with_reducible refine Keep.ite ?_ ?_

theorem State.droverRemove_keep {m : Nat} {s₀ : State} {s : State} {d : Nat} (hm : Within 67 m) (h : Keep m s₀ s) :
    Keep m s₀ (State.droverRemove s d) := by
  unfold State.droverRemove
  iterate 60 try any_goals first
    | with_reducible assumption
    | with_reducible refine State.wr_keep (Within.trans rfl hm) ?_
    | with_reducible refine State.raise_keep (Within.trans rfl hm) ?_
    | with_reducible refine State.setDrover_keep (Within.trans rfl hm) ?_
    | with_reducible refine State.placeCheck_keep (Within.trans rfl hm) ?_
    | with_reducible refine Keep.ite ?_ ?_
    | (intro hx)
    | split
    | with_reducible refine Keep.setDrv ?_ (hm.bit 6 rfl)

theorem State.degrade_keep {m : Nat} {s₀ : State} {s : State} {src : Nat} (hm : Within 8534995 m) (h : Keep m s₀ s) :
    Keep m s₀ (State.degrade s src) := by
  unfold State.degrade
  iterate 60 try any_goals first
    | with_reducible assumption
    | with_reducible refine State.laneOut_keep (Within.trans rfl hm) ?_
    | with_reducible refine State.droverRemove_keep (Within.trans rfl hm) ?_
    | with_reducible refine State.lcOff_keep (Within.trans rfl hm) ?_
    | with_reducible refine State.wcOff_keep (Within.trans rfl hm) ?_
    | with_reducible refine State.serialStop_keep (Within.trans rfl hm) ?_
    | with_reducible refine State.canStop_keep (Within.trans rfl hm) ?_
    | with_reducible refine State.slotHold_keep (Within.trans rfl hm) ?_
    | with_reducible refine Keep.ite ?_ ?_

theorem State.safeVme_keep {m : Nat} {s₀ : State} {s : State} (hm : Within 25172979 m) (h : Keep m s₀ s) :
    Keep m s₀ (State.safeVme s) := by
  unfold State.safeVme
  iterate 60 try any_goals first
    | with_reducible assumption
    | with_reducible refine State.vmeCut_keep (Within.trans rfl hm) ?_
    | with_reducible refine State.discardQueue_keep (Within.trans rfl hm) ?_
    | with_reducible refine State.raise_keep (Within.trans rfl hm) ?_
    | with_reducible refine State.bumpN_keep (Within.trans rfl hm) ?_

theorem State.enterSafe_keep {m : Nat} {s₀ : State} {s : State} (hm : Within 25181171 m) (h : Keep m s₀ s) :
    Keep m s₀ (State.enterSafe s) := by
  unfold State.enterSafe
  iterate 60 try any_goals first
    | with_reducible assumption
    | with_reducible refine State.serialsCut_keep (Within.trans rfl hm) ?_
    | with_reducible refine State.toStandby_keep (Within.trans rfl hm) ?_
    | with_reducible refine State.twnFence_keep (Within.trans rfl hm) ?_
    | with_reducible refine State.safeVme_keep (Within.trans rfl hm) ?_
    | with_reducible refine Keep.ite ?_ ?_
    | (intro hx)
    | split
    | with_reducible refine Keep.setFlt ?_ (hm.bit 1 rfl)
    | with_reducible refine Keep.setTwin ?_ (hm.bit 12 rfl)

theorem State.fence_keep {m : Nat} {s₀ : State} {s : State} {src : Nat} (hm : Within 25181171 m) (h : Keep m s₀ s) :
    Keep m s₀ (State.fence s src) := by
  unfold State.fence
  iterate 60 try any_goals first
    | with_reducible assumption
    | with_reducible refine State.serialsCut_keep (Within.trans rfl hm) ?_
    | with_reducible refine State.safeVme_keep (Within.trans rfl hm) ?_
    | with_reducible refine State.enterSafe_keep (Within.trans rfl hm) ?_
    | with_reducible refine Keep.ite ?_ ?_
    | with_reducible refine Keep.setFlt ?_ (hm.bit 1 rfl)

theorem State.react_keep {m : Nat} {s₀ : State} {s : State} {f : FaultRec} {sev : Nat} (hm : Within 25410547 m) (h : Keep m s₀ s) :
    Keep m s₀ (State.react s f sev) := by
  unfold State.react
  iterate 60 try any_goals first
    | with_reducible assumption
    | with_reducible refine State.record_keep (Within.trans rfl hm) ?_
    | with_reducible refine State.eventPost_keep (Within.trans rfl hm) ?_
    | with_reducible refine State.setReg_keep (Within.trans rfl hm) ?_
    | with_reducible refine State.degrade_keep (Within.trans rfl hm) ?_
    | with_reducible refine State.fence_keep (Within.trans rfl hm) ?_
    | with_reducible refine State.enterSafe_keep (Within.trans rfl hm) ?_
    | with_reducible refine Keep.ite ?_ ?_

theorem State.countSeverity_keep {m : Nat} {s₀ : State} {s : State} {sev : Nat} (hm : Within 2048 m) (h : Keep m s₀ s) :
    Keep m s₀ (State.countSeverity s sev) := by
  unfold State.countSeverity
  iterate 60 try any_goals first
    | with_reducible assumption
    | with_reducible refine State.statAdd_keep (Within.trans rfl hm) ?_
    | with_reducible refine Keep.ite ?_ ?_

theorem State.mergeFault_keep {m : Nat} {s₀ : State} {s : State} {e0 : Nat} {a : ActEntry} {f : FaultRec} {prog : Nat} (hm : Within 2051 m) (h : Keep m s₀ s) :
    Keep m s₀ (State.mergeFault s e0 a f prog) := by
  unfold State.mergeFault
  iterate 60 try any_goals first
    | with_reducible assumption
    | with_reducible refine State.setEntry_keep (Within.trans rfl hm) ?_
    | with_reducible refine State.noteFirst_keep (Within.trans rfl hm) ?_
    | with_reducible refine State.addHistory_keep (Within.trans rfl hm) ?_
    | with_reducible refine State.countSeverity_keep (Within.trans rfl hm) ?_
    | with_reducible refine State.bump_keep (Within.trans rfl hm) ?_

theorem State.newFault_keep {m : Nat} {s₀ : State} {s : State} {f : FaultRec} {prog : Nat} (hm : Within 25410547 m) (h : Keep m s₀ s) :
    Keep m s₀ (State.newFault s f prog) := by
  unfold State.newFault
  iterate 60 try any_goals first
    | with_reducible assumption
    | with_reducible refine State.bump_keep (Within.trans rfl hm) ?_
    | with_reducible refine State.noteFirst_keep (Within.trans rfl hm) ?_
    | with_reducible refine State.addHistory_keep (Within.trans rfl hm) ?_
    | with_reducible refine State.countSeverity_keep (Within.trans rfl hm) ?_
    | with_reducible refine State.findEntry_keep (Within.trans rfl hm) ?_
    | with_reducible refine State.setEntry_keep (Within.trans rfl hm) ?_
    | with_reducible refine State.errPulse_keep (Within.trans rfl hm) ?_
    | with_reducible refine State.react_keep (Within.trans rfl hm) ?_
    | split
    | with_reducible refine Keep.setFlt ?_ (hm.bit 1 rfl)

theorem State.collect_keep {m : Nat} {s₀ : State} {s : State} {prog : Nat} {f : FaultRec} (hm : Within 25410547 m) (h : Keep m s₀ s) :
    Keep m s₀ (State.collect s prog f) := by
  unfold State.collect
  iterate 60 try any_goals first
    | with_reducible assumption
    | with_reducible refine State.bump_keep (Within.trans rfl hm) ?_
    | with_reducible refine State.mergeFault_keep (Within.trans rfl hm) ?_
    | with_reducible refine State.newFault_keep (Within.trans rfl hm) ?_
    | (extract_lets +onlyGivenNames y; refine Keep.use (m := m) (s := s₀) (x := y) ?_ ?_; (focus (unfold y; clear y)); rotate_left; (focus (intro hy; clear_value y; revert y; intro _ _)))
    | (extract_lets +onlyGivenNames y; refine Keep.use (m := m) (s := s₀) (x := y.2) ?_ ?_; (focus (unfold y; clear y)); rotate_left; (focus (intro hy; clear_value y; revert y; intro _ _)))
    | (extract_lets +onlyGivenNames y; refine Keep.use (m := m) (s := s₀) (x := y.st) ?_ ?_; (focus (unfold y; clear y)); rotate_left; (focus (intro hy; clear_value y; revert y; intro _ _)))
    | split

theorem faultRaise_keep {m : Nat} {s₀ : State} {n : Nat} {s : State} (hm : Within 25410547 m) (h : Keep m s₀ s) :
    Keep m s₀ (faultRaise n s) := by
  unfold faultRaise
  iterate 60 try any_goals first
    | with_reducible assumption
    | with_reducible refine State.collect_keep (Within.trans rfl hm) ?_
    | with_reducible refine Keep.foldl (fun x a hx => ?_) _ ?_
    | with_reducible refine Keep.setFlt ?_ (hm.bit 1 rfl)

theorem errNPulseEnd_keep {m : Nat} {s₀ : State} {s : State} (hm : Within 2 m) (h : Keep m s₀ s) :
    Keep m s₀ (errNPulseEnd s) := by
  unfold errNPulseEnd
  iterate 60 try any_goals first
    | with_reducible assumption
    | with_reducible refine Keep.setFlt ?_ (hm.bit 1 rfl)

theorem faultNoteAge_keep {m : Nat} {s₀ : State} {e0 : Nat} {s : State} (hm : Within 131075 m) (h : Keep m s₀ s) :
    Keep m s₀ (faultNoteAge e0 s) := by
  unfold faultNoteAge
  iterate 60 try any_goals first
    | with_reducible assumption
    | with_reducible refine State.dropEntry_keep (Within.trans rfl hm) ?_
    | with_reducible refine Keep.ite ?_ ?_
    | split

theorem State.clearEntry_keep {m : Nat} {s₀ : State} {s : State} {e0 : Nat} (hm : Within 133123 m) (h : Keep m s₀ s) :
    Keep m s₀ (State.clearEntry s e0) := by
  unfold State.clearEntry
  iterate 60 try any_goals first
    | with_reducible assumption
    | with_reducible refine State.bump_keep (Within.trans rfl hm) ?_
    | with_reducible refine State.dropEntry_keep (Within.trans rfl hm) ?_
    | split

theorem State.outputsResume_keep {m : Nat} {s₀ : State} {s : State} (hm : Within 8399027 m) (h : Keep m s₀ s) :
    Keep m s₀ (State.outputsResume s) := by
  unfold State.outputsResume
  iterate 60 try any_goals first
    | with_reducible assumption
    | with_reducible refine State.desFull_keep (Within.trans rfl hm) ?_
    | with_reducible refine State.tenureNext_keep (Within.trans rfl hm) ?_
    | with_reducible refine State.ihCheck_keep (Within.trans rfl hm) ?_
    | with_reducible refine Keep.ite ?_ ?_
    | (intro hx)
    | split

theorem State.safeExit_keep {m : Nat} {s₀ : State} {s : State} (hm : Within 8399027 m) (h : Keep m s₀ s) :
    Keep m s₀ (State.safeExit s) := by
  unfold State.safeExit
  iterate 60 try any_goals first
    | with_reducible assumption
    | with_reducible refine State.bump_keep (Within.trans rfl hm) ?_
    | with_reducible refine State.outputsResume_keep (Within.trans rfl hm) ?_
    | with_reducible refine Keep.ite ?_ ?_
    | with_reducible refine Keep.setFlt ?_ (hm.bit 1 rfl)

theorem State.unfence_keep {m : Nat} {s₀ : State} {s : State} {mask : Nat} (hm : Within 8399027 m) (h : Keep m s₀ s) :
    Keep m s₀ (State.unfence s mask) := by
  unfold State.unfence
  iterate 60 try any_goals first
    | with_reducible assumption
    | with_reducible refine State.bump_keep (Within.trans rfl hm) ?_
    | with_reducible refine State.outputsResume_keep (Within.trans rfl hm) ?_
    | with_reducible refine Keep.foldl (fun x a hx => ?_) _ ?_
    | with_reducible refine Keep.ite ?_ ?_
    | with_reducible refine Keep.setFlt ?_ (hm.bit 1 rfl)

theorem State.turnLost_keep {m : Nat} {s₀ : State} {s : State} {d : Nat} (hm : Within 8396992 m) (h : Keep m s₀ s) :
    Keep m s₀ (State.turnLost s d) := by
  unfold State.turnLost
  iterate 60 try any_goals first
    | with_reducible assumption
    | with_reducible refine State.serialCut_keep (Within.trans rfl hm) ?_
    | with_reducible refine State.setDrover_keep (Within.trans rfl hm) ?_
    | split

theorem State.claimsLost_keep {m : Nat} {s₀ : State} {s : State} {d : Nat} (hm : Within 129 m) (h : Keep m s₀ s) :
    Keep m s₀ (State.claimsLost s d) := by
  unfold State.claimsLost
  iterate 60 try any_goals first
    | with_reducible assumption
    | with_reducible refine State.exception_keep (Within.trans rfl hm) ?_
    | with_reducible refine State.setClaims_keep (Within.trans rfl hm) ?_
    | with_reducible refine Keep.foldl (fun x a hx => ?_) _ ?_
    | with_reducible refine Keep.ite ?_ ?_
    | (intro hx)
    | split

theorem State.cutJob_keep {m : Nat} {s₀ : State} {s : State} {d : Nat} (hm : Within 25209811 m) (h : Keep m s₀ s) :
    Keep m s₀ (State.cutJob s d) := by
  unfold State.cutJob
  iterate 60 try any_goals first
    | with_reducible assumption
    | with_reducible refine State.setJob_keep (Within.trans rfl hm) ?_
    | with_reducible refine State.unwait_keep (Within.trans rfl hm) ?_
    | with_reducible refine State.dropBus_keep (Within.trans rfl hm) ?_
    | with_reducible refine State.tenureNext_keep (Within.trans rfl hm) ?_
    | with_reducible refine State.revokeTask_keep (Within.trans rfl hm) ?_
    | with_reducible refine Keep.ite ?_ ?_
    | split

theorem State.revoke_keep {m : Nat} {s₀ : State} {s : State} {d : Nat} {code : Nat} (hm : Within 25209811 m) (h : Keep m s₀ s) :
    Keep m s₀ (State.revoke s d code) := by
  unfold State.revoke
  iterate 60 try any_goals first
    | with_reducible assumption
    | with_reducible refine State.raise_keep (Within.trans rfl hm) ?_
    | with_reducible refine State.setDrover_keep (Within.trans rfl hm) ?_
    | with_reducible refine State.droverRemove_keep (Within.trans rfl hm) ?_
    | with_reducible refine State.turnLost_keep (Within.trans rfl hm) ?_
    | with_reducible refine State.claimsLost_keep (Within.trans rfl hm) ?_
    | with_reducible refine State.cutJob_keep (Within.trans rfl hm) ?_
    | with_reducible refine Keep.ite ?_ ?_
    | (intro hx)
    | split
    | with_reducible refine Keep.setFlt ?_ (hm.bit 1 rfl)
    | with_reducible refine Keep.setDrv ?_ (hm.bit 6 rfl)

theorem State.droverGo_keep {m : Nat} {s₀ : State} {s : State} {e : Nat × Bool} (hm : Within 16780739 m) (h : Keep m s₀ s) :
    Keep m s₀ (State.droverGo s e) := by
  unfold State.droverGo
  iterate 60 try any_goals first
    | with_reducible assumption
    | with_reducible refine State.setDrover_keep (Within.trans rfl hm) ?_
    | with_reducible refine State.placeCheck_keep (Within.trans rfl hm) ?_
    | with_reducible refine State.retryWaiting_keep (Within.trans rfl hm) ?_
    | with_reducible refine Keep.ite ?_ ?_
    | (intro hx)
    | split

theorem State.droverDue_keep {m : Nat} {s₀ : State} {s : State} {e : Nat × Bool} (hm : Within 16780739 m) (h : Keep m s₀ s) :
    Keep m s₀ (State.droverDue s e) := by
  unfold State.droverDue
  iterate 60 try any_goals first
    | with_reducible assumption
    | with_reducible refine State.droverGo_keep (Within.trans rfl hm) ?_
    | with_reducible refine Keep.ite ?_ ?_
    | (intro hx)
    | (extract_lets +onlyGivenNames y; refine Keep.use (m := m) (s := s₀) (x := y) ?_ ?_; (focus (unfold y; clear y)); rotate_left; (focus (intro hy; clear_value y; revert y; intro _ _)))
    | (extract_lets +onlyGivenNames y; refine Keep.use (m := m) (s := s₀) (x := y.1) ?_ ?_; (focus (unfold y; clear y)); rotate_left; (focus (intro hy; clear_value y; revert y; intro _ _)))
    | (extract_lets +onlyGivenNames y; refine Keep.use (m := m) (s := s₀) (x := y.2) ?_ ?_; (focus (unfold y; clear y)); rotate_left; (focus (intro hy; clear_value y; revert y; intro _ _)))
    | (extract_lets +onlyGivenNames y; refine Keep.use (m := m) (s := s₀) (x := y.st) ?_ ?_; (focus (unfold y; clear y)); rotate_left; (focus (intro hy; clear_value y; revert y; intro _ _)))
    | (extract_lets +onlyGivenNames y; refine Keep.use (m := m) (s := s₀) (x := y.2.1) ?_ ?_; (focus (unfold y; clear y)); rotate_left; (focus (intro hy; clear_value y; revert y; intro _ _)))
    | (extract_lets +onlyGivenNames y; refine Keep.use (m := m) (s := s₀) (x := y.2.2) ?_ ?_; (focus (unfold y; clear y)); rotate_left; (focus (intro hy; clear_value y; revert y; intro _ _)))
    | (extract_lets +onlyGivenNames y; revert y; intro _)
    | split
    | with_reducible refine Keep.setDrv ?_ (hm.bit 6 rfl)

theorem State.wakeHeld_keep {m : Nat} {s₀ : State} {n : Nat} {s : State} (hm : Within 16780739 m) (h : Keep m s₀ s) :
    Keep m s₀ (State.wakeHeld n s) := by
  unfold State.wakeHeld
  iterate 60 try any_goals first
    | with_reducible assumption
    | with_reducible refine State.droverGo_keep (Within.trans rfl hm) ?_
    | with_reducible refine Keep.foldl (fun x a hx => ?_) _ ?_
    | with_reducible refine Keep.ite ?_ ?_
    | (intro hx)
    | (extract_lets +onlyGivenNames y; refine Keep.use (m := m) (s := s₀) (x := y) ?_ ?_; (focus (unfold y; clear y)); rotate_left; (focus (intro hy; clear_value y; revert y; intro _ _)))
    | (extract_lets +onlyGivenNames y; refine Keep.use (m := m) (s := s₀) (x := y.1) ?_ ?_; (focus (unfold y; clear y)); rotate_left; (focus (intro hy; clear_value y; revert y; intro _ _)))
    | (extract_lets +onlyGivenNames y; refine Keep.use (m := m) (s := s₀) (x := y.2) ?_ ?_; (focus (unfold y; clear y)); rotate_left; (focus (intro hy; clear_value y; revert y; intro _ _)))
    | (extract_lets +onlyGivenNames y; refine Keep.use (m := m) (s := s₀) (x := y.st) ?_ ?_; (focus (unfold y; clear y)); rotate_left; (focus (intro hy; clear_value y; revert y; intro _ _)))
    | (extract_lets +onlyGivenNames y; refine Keep.use (m := m) (s := s₀) (x := y.2.1) ?_ ?_; (focus (unfold y; clear y)); rotate_left; (focus (intro hy; clear_value y; revert y; intro _ _)))
    | (extract_lets +onlyGivenNames y; refine Keep.use (m := m) (s := s₀) (x := y.2.2) ?_ ?_; (focus (unfold y; clear y)); rotate_left; (focus (intro hy; clear_value y; revert y; intro _ _)))
    | (extract_lets +onlyGivenNames y; revert y; intro _)
    | split
    | with_reducible refine Keep.setDrv ?_ (hm.bit 6 rfl)

theorem State.droverWord_keep {m : Nat} {s₀ : State} {s : State} {d : Nat} {dbl : Bool} (hm : Within 25209811 m) (h : Keep m s₀ s) :
    Keep m s₀ (State.droverWord s d dbl) := by
  unfold State.droverWord
  iterate 60 try any_goals first
    | with_reducible assumption
    | with_reducible refine State.revoke_keep (Within.trans rfl hm) ?_
    | with_reducible refine State.sramFault_keep (Within.trans rfl hm) ?_
    | with_reducible refine Keep.ite ?_ ?_

theorem State.droverFetch_keep {m : Nat} {s₀ : State} {s : State} {d : Nat} (hm : Within 25209811 m) (h : Keep m s₀ s) :
    Keep m s₀ (State.droverFetch s d).2 := by
  unfold State.droverFetch
  iterate 60 try any_goals first
    | with_reducible assumption
    | with_reducible refine State.droverWord_keep (Within.trans rfl hm) ?_
    | split
    | with_reducible refine Keep.setFlt ?_ (hm.bit 1 rfl)

theorem State.injArm_keep {m : Nat} {s₀ : State} {s : State} {area : Nat} {index : Nat} {dbl : Bool} (hm : Within 25209811 m) (h : Keep m s₀ s) :
    Keep m s₀ (State.injArm s area index dbl) := by
  unfold State.injArm
  iterate 60 try any_goals first
    | with_reducible assumption
    | with_reducible refine State.wrB_keep (Within.trans rfl hm) ?_
    | with_reducible refine State.wr_keep (Within.trans rfl hm) ?_
    | with_reducible refine State.droverWord_keep (Within.trans rfl hm) ?_
    | with_reducible refine Keep.ite ?_ ?_
    | with_reducible refine Keep.setFlt ?_ (hm.bit 1 rfl)

theorem State.peakAgain_keep {m : Nat} {s₀ : State} {s : State} {off : Nat} {k : Nat} (hm : Within 1 m) (h : Keep m s₀ s) :
    Keep m s₀ (State.peakAgain s off k) := by
  unfold State.peakAgain
  iterate 60 try any_goals first
    | with_reducible assumption
    | with_reducible refine State.wr_keep (Within.trans rfl hm) ?_
    | with_reducible refine Keep.ite ?_ ?_
    | (intro hx)
    | split

theorem State.readReg_keep {m : Nat} {s₀ : State} {s : State} {off : Nat} (hm : Within 16777217 m) (h : Keep m s₀ s) :
    Keep m s₀ (State.readReg s off).2 := by
  unfold State.readReg
  iterate 60 try any_goals first
    | with_reducible assumption
    | with_reducible refine State.setReg_keep (Within.trans rfl hm) ?_
    | with_reducible refine State.peakAgain_keep (Within.trans rfl hm) ?_
    | with_reducible refine Keep.foldl (fun x a hx => ?_) _ ?_
    | with_reducible refine Keep.ite ?_ ?_
    | (intro hx)
    | split
    | with_reducible refine Keep.setRegs' ?_ (hm.bit 0 rfl) rfl rfl
    | with_reducible refine Keep.setFreeCtr ?_ (hm.bit 24 rfl)

theorem State.setupRead_keep {m : Nat} {s₀ : State} {s : State} {off : Nat} {len : Nat} (hm : Within 16777217 m) (h : Keep m s₀ s) :
    Keep m s₀ (State.setupRead s off len).2 := by
  unfold State.setupRead
  iterate 60 try any_goals first
    | with_reducible assumption
    | with_reducible refine State.readReg_keep (Within.trans rfl hm) ?_
    | split

end Sys2Proof.Machine
end

