-- ==== Sys2Proof/Laws/KeepSetup.lean ====
section
/-! SUPPORT. What each operation of Folds, Setup, BootOps, Service leaves alone and keeps: its footprint as a mask of units, and that it keeps
the memories canonical, the queue of commands and a recorder key once set (see Laws/Keep.lean). -/

namespace Sys2Proof.Machine

set_option maxRecDepth 4000

theorem State.headPush_keep {m : Nat} {s₀ : State} {s : State} {h0 : Nat} {producer : Nat} {who : Nat} {es : List (BitVec 64 × Byte)} {d : Nat} (hm : Within 25172931 m) (h : Keep m s₀ s) :
    Keep m s₀ (State.headPush s h0 producer who es d).2 := by
  unfold State.headPush
  iterate 60 try any_goals first
    | with_reducible assumption
    | with_reducible refine State.push_keep (Within.trans rfl hm) ?_
    | with_reducible refine State.awaitStore_keep (Within.trans rfl hm) ?_
    | split

theorem State.grant_keep {m : Nat} {s₀ : State} {s : State} {before : List HeldPush} {p : HeldPush} {after : List HeldPush} (hm : Within 25172931 m) (h : Keep m s₀ s) :
    Keep m s₀ (State.grant s before p after) := by
  unfold State.grant
  iterate 60 try any_goals first
    | with_reducible assumption
    | with_reducible refine State.endTask_keep (Within.trans rfl hm) ?_
    | with_reducible refine State.fire_keep (Within.trans rfl hm) ?_
    | with_reducible refine State.pushEntries_keep (Within.trans rfl hm) ?_
    | with_reducible refine State.countWait_keep (Within.trans rfl hm) ?_
    | with_reducible refine State.landed_keep (Within.trans rfl hm) ?_
    | with_reducible refine Keep.ite ?_ ?_
    | (intro hx)
    | split
    | with_reducible refine Keep.setFold ?_ (hm.bit 8 rfl)

theorem State.grantFirst_keep {m : Nat} {s₀ : State} {s : State} {a1 : List HeldPush} {a2 : List HeldPush} (hm : Within 25172931 m) (h : Keep m s₀ s) :
    Keep m s₀ (State.grantFirst s a1 a2) := by
  induction a2 generalizing s a1 with
  | nil => unfold State.grantFirst; first | exact h | (split <;> exact h)
  | cons b l ih =>
    unfold State.grantFirst
    iterate 60 try any_goals first
      | with_reducible assumption
      | with_reducible refine ih ?_
      | with_reducible refine State.grant_keep (Within.trans rfl hm) ?_
      | with_reducible refine Keep.ite ?_ ?_

theorem foldPushGrant_keep {m : Nat} {s₀ : State} {s : State} (hm : Within 25172931 m) (h : Keep m s₀ s) :
    Keep m s₀ (foldPushGrant s) := by
  unfold foldPushGrant
  iterate 60 try any_goals first
    | with_reducible assumption
    | with_reducible refine State.grantFirst_keep (Within.trans rfl hm) ?_

theorem foldStale_keep {m : Nat} {s₀ : State} {f : Nat} {s : State} (hm : Within 16779715 m) (h : Keep m s₀ s) :
    Keep m s₀ (foldStale f s) := by
  unfold foldStale
  iterate 60 try any_goals first
    | with_reducible assumption
    | with_reducible refine State.wr_keep (Within.trans rfl hm) ?_
    | with_reducible refine State.setFold_keep (Within.trans rfl hm) ?_
    | with_reducible refine State.fire_keep (Within.trans rfl hm) ?_
    | with_reducible refine Keep.ite ?_ ?_
    | (intro hx)
    | split

theorem State.flushFold_keep {m : Nat} {s₀ : State} {s : State} {f : Nat} (hm : Within 16779715 m) (h : Keep m s₀ s) :
    Keep m s₀ (State.flushFold s f) := by
  unfold State.flushFold
  iterate 60 try any_goals first
    | with_reducible assumption
    | with_reducible refine State.bumpN_keep (Within.trans rfl hm) ?_
    | with_reducible refine State.emptyFold_keep (Within.trans rfl hm) ?_
    | with_reducible refine State.fire_keep (Within.trans rfl hm) ?_
    | split

theorem State.floorRst_keep {m : Nat} {s₀ : State} {s : State} {f : Nat} (hm : Within 1 m) (h : Keep m s₀ s) :
    Keep m s₀ (State.floorRst s f) := by
  unfold State.floorRst
  iterate 60 try any_goals first
    | with_reducible assumption
    | with_reducible refine State.wr_keep (Within.trans rfl hm) ?_

theorem sweepPassEnd_keep {m : Nat} {s₀ : State} {s : State} (hm : Within 256 m) (h : Keep m s₀ s) :
    Keep m s₀ (sweepPassEnd s) := by
  unfold sweepPassEnd
  iterate 60 try any_goals first
    | with_reducible assumption
    | with_reducible refine Keep.ite ?_ ?_
    | (intro hx)
    | split
    | with_reducible refine Keep.setFold ?_ (hm.bit 8 rfl)

theorem State.fldInj_keep {m : Nat} {s₀ : State} {s : State} {v : Word} (hm : Within 257 m) (h : Keep m s₀ s) :
    Keep m s₀ (State.fldInj s v) := by
  unfold State.fldInj
  iterate 60 try any_goals first
    | with_reducible assumption
    | with_reducible refine State.wr_keep (Within.trans rfl hm) ?_
    | with_reducible refine Keep.ite ?_ ?_
    | with_reducible refine Keep.setFold ?_ (hm.bit 8 rfl)

theorem State.beside_keep {m : Nat} {s₀ : State} {s : State} {k : Nat} {v : Word} {staged : Bool} (hm : Within 1 m) (h : Keep m s₀ s) :
    Keep m s₀ (State.beside s k v staged) := by
  unfold State.beside
  iterate 60 try any_goals first
    | with_reducible assumption
    | with_reducible refine State.setReg_keep (Within.trans rfl hm) ?_
    | with_reducible refine State.setShd_keep (Within.trans rfl hm) ?_
    | split

theorem State.release_keep {m : Nat} {s₀ : State} {s : State} {g : Nat} (hm : Within 25178103 m) (h : Keep m s₀ s) :
    Keep m s₀ (State.release s g) := by
  unfold State.release
  iterate 60 try any_goals first
    | with_reducible assumption
    | with_reducible refine State.wr_keep (Within.trans rfl hm) ?_
    | with_reducible refine State.outputsResume_keep (Within.trans rfl hm) ?_
    | with_reducible refine State.pumpTags_keep (Within.trans rfl hm) ?_
    | with_reducible refine State.judgeAll_keep (Within.trans rfl hm) ?_
    | with_reducible refine Keep.ite ?_ ?_
    | with_reducible refine Keep.setBoot ?_ (hm.bit 2 rfl) (fun hx => ⟨hx, rfl⟩)

theorem State.haltWrite_keep {m : Nat} {s₀ : State} {s : State} {v : Nat} (hm : Within 25178103 m) (h : Keep m s₀ s) :
    Keep m s₀ (State.haltWrite s v) := by
  unfold State.haltWrite
  iterate 60 try any_goals first
    | with_reducible assumption
    | with_reducible refine State.wr_keep (Within.trans rfl hm) ?_
    | with_reducible refine State.release_keep (Within.trans rfl hm) ?_
    | with_reducible refine Keep.foldl (fun x a hx => ?_) _ ?_
    | with_reducible refine Keep.ite ?_ ?_
    | with_reducible refine Keep.setBoot ?_ (hm.bit 2 rfl) (fun hx => ⟨hx, rfl⟩)

theorem State.drvEnWrite_keep {m : Nat} {s₀ : State} {s : State} {base : Nat} {old : Nat} {new : Nat} {half : Bool} (hm : Within 16780739 m) (h : Keep m s₀ s) :
    Keep m s₀ (State.drvEnWrite s base old new half) := by
  unfold State.drvEnWrite
  iterate 60 try any_goals first
    | with_reducible assumption
    | with_reducible refine State.setDrover_keep (Within.trans rfl hm) ?_
    | with_reducible refine State.placeCheck_keep (Within.trans rfl hm) ?_
    | with_reducible refine State.retryWaiting_keep (Within.trans rfl hm) ?_
    | with_reducible refine Keep.foldl (fun x a hx => ?_) _ ?_
    | with_reducible refine Keep.ite ?_ ?_
    | (intro hx)
    | split

theorem State.hstWake_keep {m : Nat} {s₀ : State} {s : State} (hm : Within 1 m) (h : Keep m s₀ s) :
    Keep m s₀ (State.hstWake s) := by
  unfold State.hstWake
  iterate 60 try any_goals first
    | with_reducible assumption
    | with_reducible refine State.wr_keep (Within.trans rfl hm) ?_
    | with_reducible refine Keep.ite ?_ ?_

theorem State.joinOff_keep {m : Nat} {s₀ : State} {s : State} (hm : Within 513 m) (h : Keep m s₀ s) :
    Keep m s₀ (State.joinOff s) := by
  unfold State.joinOff
  iterate 60 try any_goals first
    | with_reducible assumption
    | with_reducible refine State.wr_keep (Within.trans rfl hm) ?_
    | with_reducible refine State.stageStep_keep (Within.trans rfl hm) ?_
    | with_reducible refine Keep.ite ?_ ?_
    | (intro hx)
    | split
    | with_reducible refine Keep.setNet ?_ (hm.bit 9 rfl)

theorem State.afterLow_keep {m : Nat} {s₀ : State} {s : State} {off : Nat} {old : Word} {new : Word} {v : Word} (hm : Within 25198583 m) (h : Keep m s₀ s) :
    Keep m s₀ (State.afterLow s off old new v) := by
  unfold State.afterLow
  iterate 60 try any_goals first
    | with_reducible assumption
    | with_reducible refine State.setReg_keep (Within.trans rfl hm) ?_
    | with_reducible refine State.wr_keep (Within.trans rfl hm) ?_
    | with_reducible refine State.stageStep_keep (Within.trans rfl hm) ?_
    | with_reducible refine State.ddrInj_keep (Within.trans rfl hm) ?_
    | with_reducible refine State.lcDropAll_keep (Within.trans rfl hm) ?_
    | with_reducible refine State.wcOff_keep (Within.trans rfl hm) ?_
    | with_reducible refine State.lcOff_keep (Within.trans rfl hm) ?_
    | with_reducible refine linkEnable_keep (Within.trans rfl hm) ?_
    | with_reducible refine State.lnkInj_keep (Within.trans rfl hm) ?_
    | with_reducible refine State.haltWrite_keep (Within.trans rfl hm) ?_
    | with_reducible refine State.hstWake_keep (Within.trans rfl hm) ?_
    | with_reducible refine State.joinOff_keep (Within.trans rfl hm) ?_
    | with_reducible refine Keep.ite ?_ ?_
    | (intro hx)
    | split
    | with_reducible refine Keep.setNet ?_ (hm.bit 9 rfl)

theorem State.afterCore_keep {m : Nat} {s₀ : State} {s : State} {off : Nat} {k : Nat} {old : Word} {new : Word} {v : Word} {half : Bool} (hm : Within 16780739 m) (h : Keep m s₀ s) :
    Keep m s₀ (State.afterCore s off k old new v half) := by
  unfold State.afterCore
  iterate 60 try any_goals first
    | with_reducible assumption
    | with_reducible refine State.flushFold_keep (Within.trans rfl hm) ?_
    | with_reducible refine State.floorRst_keep (Within.trans rfl hm) ?_
    | with_reducible refine State.fldInj_keep (Within.trans rfl hm) ?_
    | with_reducible refine State.drvEnWrite_keep (Within.trans rfl hm) ?_
    | with_reducible refine Keep.ite ?_ ?_
    | (intro hx)
    | split

theorem State.afterEdge_keep {m : Nat} {s₀ : State} {s : State} {off : Nat} {old : Word} {new : Word} {v : Word} (hm : Within 8403955 m) (h : Keep m s₀ s) :
    Keep m s₀ (State.afterEdge s off old new v) := by
  unfold State.afterEdge
  iterate 60 try any_goals first
    | with_reducible assumption
    | with_reducible refine State.mirrorReg_keep (Within.trans rfl hm) ?_
    | with_reducible refine State.deFull_keep (Within.trans rfl hm) ?_
    | with_reducible refine State.idleBus_keep (Within.trans rfl hm) ?_
    | with_reducible refine State.ihCheck_keep (Within.trans rfl hm) ?_
    | with_reducible refine State.sysrstPulse_keep (Within.trans rfl hm) ?_
    | with_reducible refine State.dcStop_keep (Within.trans rfl hm) ?_
    | with_reducible refine State.serialStop_keep (Within.trans rfl hm) ?_
    | with_reducible refine canRecover_keep (Within.trans rfl hm) ?_
    | with_reducible refine State.canStop_keep (Within.trans rfl hm) ?_
    | with_reducible refine State.intrDrop_keep (Within.trans rfl hm) ?_
    | with_reducible refine Keep.ite ?_ ?_
    | (intro hx)
    | split
    | with_reducible refine Keep.setVin ?_ (hm.bit 5 rfl)

theorem State.afterHigh_keep {m : Nat} {s₀ : State} {s : State} {off : Nat} {old : Word} {new : Word} {v : Word} (hm : Within 25410547 m) (h : Keep m s₀ s) :
    Keep m s₀ (State.afterHigh s off old new v) := by
  unfold State.afterHigh
  iterate 60 try any_goals first
    | with_reducible assumption
    | with_reducible refine State.wr_keep (Within.trans rfl hm) ?_
    | with_reducible refine State.recRetest_keep (Within.trans rfl hm) ?_
    | with_reducible refine State.recInj_keep (Within.trans rfl hm) ?_
    | with_reducible refine State.slotCtl_keep (Within.trans rfl hm) ?_
    | with_reducible refine State.feedsJudge_keep (Within.trans rfl hm) ?_
    | with_reducible refine State.pwrEnable_keep (Within.trans rfl hm) ?_
    | with_reducible refine State.twnEnable_keep (Within.trans rfl hm) ?_
    | with_reducible refine State.twnRearm_keep (Within.trans rfl hm) ?_
    | with_reducible refine State.twnResume_keep (Within.trans rfl hm) ?_
    | with_reducible refine State.twnYield_keep (Within.trans rfl hm) ?_
    | with_reducible refine State.safeExit_keep (Within.trans rfl hm) ?_
    | with_reducible refine State.unfence_keep (Within.trans rfl hm) ?_
    | with_reducible refine State.injArm_keep (Within.trans rfl hm) ?_
    | with_reducible refine Keep.ite ?_ ?_
    | (intro hx)
    | split

theorem State.clearWrite_keep {m : Nat} {s₀ : State} {s : State} {off : Nat} {k : Nat} {v : Word} {p : State} (e : State.clearWrite s off k v = some p) (hm : Within 133123 m) (h : Keep m s₀ s) :
    Keep m s₀ p := by
  unfold State.clearWrite at e
  split at e
  · cases e
    exact State.regionClear_keep (Within.trans rfl hm) h
  · split at e
    · cases e
      split
      · exact State.clearEntry_keep (Within.trans rfl hm) h
      · exact h
    · split at e
      · cases e
        split
        · exact Keep.foldl (fun x a hx => State.setReg_keep (Within.trans rfl hm) hx) _ h
        · exact h
      · cases e

theorem State.stagedAfter_keep {m : Nat} {s₀ : State} {s : State} {off : Nat} {k : Nat} {v : Word} (hm : Within 1025 m) (h : Keep m s₀ s) :
    Keep m s₀ (State.stagedAfter s off k v) := by
  unfold State.stagedAfter
  iterate 60 try any_goals first
    | with_reducible assumption
    | with_reducible refine State.schCopy_keep (Within.trans rfl hm) ?_
    | with_reducible refine Keep.foldl (fun x a hx => ?_) _ ?_
    | with_reducible refine Keep.ite ?_ ?_

theorem State.setupReport_keep {m : Nat} {s₀ : State} {s : State} {off : Nat} {v : Word} {node : Nat} {agent : Nat} {late : Bool} {range : Bool} {group : Nat} (hm : Within 2 m) (h : Keep m s₀ s) :
    Keep m s₀ (State.setupReport s off v node agent late range group) := by
  unfold State.setupReport
  iterate 60 try any_goals first
    | with_reducible assumption
    | with_reducible refine State.raise_keep (Within.trans rfl hm) ?_
    | with_reducible refine Keep.ite ?_ ?_

theorem State.writeReg_keep {m : Nat} {s₀ : State} {s : State} {ctx : State} {other : Option (Nat × Word)} {off : Nat} {k : Nat} {v : Word} {node : Nat} {agent : Nat} (hm : Within 25427959 m) (h : Keep m s₀ s) :
    Keep m s₀ (State.writeReg s ctx other off k v node agent).st := by
  unfold State.writeReg
  iterate 60 try any_goals first
    | with_reducible assumption
    | with_reducible refine State.setReg_keep (Within.trans rfl hm) ?_
    | with_reducible refine State.setShd_keep (Within.trans rfl hm) ?_
    | with_reducible refine State.afterLow_keep (Within.trans rfl hm) ?_
    | with_reducible refine State.afterCore_keep (Within.trans rfl hm) ?_
    | with_reducible refine State.afterEdge_keep (Within.trans rfl hm) ?_
    | with_reducible refine State.afterHigh_keep (Within.trans rfl hm) ?_
    | (have hx := State.clearWrite_keep (by with_reducible assumption) (Within.trans rfl hm) (by with_reducible assumption); with_reducible exact hx)
    | with_reducible refine State.stagedAfter_keep (Within.trans rfl hm) ?_
    | with_reducible refine State.setupReport_keep (Within.trans rfl hm) ?_
    | with_reducible refine Keep.ite ?_ ?_
    | (intro hx)
    | split
    | with_reducible refine Keep.setRegs' ?_ (hm.bit 0 rfl) rfl rfl

theorem State.setupWrite_keep {m : Nat} {s₀ : State} {s : State} {off : Nat} {bs : List Byte} {node : Nat} {agent : Nat} (hm : Within 25427959 m) (h : Keep m s₀ s) :
    Keep m s₀ (State.setupWrite s off bs node agent).st := by
  unfold State.setupWrite
  iterate 60 try any_goals first
    | with_reducible assumption
    | with_reducible refine State.beside_keep (Within.trans rfl hm) ?_
    | with_reducible refine State.writeReg_keep (Within.trans rfl hm) ?_
    | with_reducible refine Keep.ite ?_ ?_
    | (intro hx)
    | split

theorem State.landHeld_keep {m : Nat} {s₀ : State} {s : State} {start : State} {w : HeldWrite} (hm : Within 1027 m) (h : Keep m s₀ s) :
    Keep m s₀ (State.landHeld s start w) := by
  unfold State.landHeld
  iterate 60 try any_goals first
    | with_reducible assumption
    | with_reducible refine State.setShd_keep (Within.trans rfl hm) ?_
    | with_reducible refine State.beside_keep (Within.trans rfl hm) ?_
    | with_reducible refine State.stagedAfter_keep (Within.trans rfl hm) ?_
    | with_reducible refine State.setupReport_keep (Within.trans rfl hm) ?_
    | (extract_lets +onlyGivenNames y; revert y; intro _)
    | split

theorem State.landAll_keep {m : Nat} {s₀ : State} {s : State} {ws : List HeldWrite} (hm : Within 1027 m) (h : Keep m s₀ s) :
    Keep m s₀ (State.landAll s ws) :=
  List.foldlRecOn (motive := fun (p : Option Nat × State × State) => Keep m s₀ p.2.2) ws _ h (fun _ hp _ _ => State.landHeld_keep (Within.trans rfl hm) hp)

theorem State.heldTasks_keep {m : Nat} {s₀ : State} {s : State} (hm : Within 192 m) (h : Keep m s₀ s) :
    Keep m s₀ (State.heldTasks s) := by
  unfold State.heldTasks
  iterate 60 try any_goals first
    | with_reducible assumption
    | with_reducible refine State.finishTask_keep (Within.trans rfl hm) ?_
    | with_reducible refine State.setExec_keep (Within.trans rfl hm) ?_
    | with_reducible refine Keep.foldl (fun x a hx => ?_) _ ?_
    | split

theorem State.bankReload_keep {m : Nat} {s₀ : State} {s : State} (hm : Within 1 m) (h : Keep m s₀ s) :
    Keep m s₀ (State.bankReload s) := by
  unfold State.bankReload
  iterate 60 try any_goals first
    | with_reducible assumption
    | with_reducible refine State.setShd_keep (Within.trans rfl hm) ?_
    | with_reducible refine Keep.foldl (fun x a hx => ?_) _ ?_

theorem State.bankFreed_keep {m : Nat} {s₀ : State} {s : State} {old : Bool} (hm : Within 3 m) (h : Keep m s₀ s) :
    Keep m s₀ (State.bankFreed s old) := by
  have h1 := Keep.setRegs' h (hm.bit 0 rfl) (x := { s.regs with refused := [], heldWrites := [] }) rfl rfl
  exact Keep.setFlt h1 (hm.bit 1 rfl) (x := { s.flt with badWords := s.flt.badWords.filter (fun w => !(w.1 == 5 && w.2.2 == old)) })

theorem bankRetire_keep {m : Nat} {s₀ : State} {s : State} (hm : Within 1219 m) (h : Keep m s₀ s) :
    Keep m s₀ (bankRetire s) := by
  unfold bankRetire
  iterate 60 try any_goals first
    | with_reducible assumption
    | with_reducible refine State.wr_keep (Within.trans rfl hm) ?_
    | with_reducible refine State.landAll_keep (Within.trans rfl hm) ?_
    | with_reducible refine State.heldTasks_keep (Within.trans rfl hm) ?_
    | with_reducible refine State.bankReload_keep (Within.trans rfl hm) ?_
    | with_reducible refine State.bankFreed_keep (Within.trans rfl hm) ?_
    | with_reducible refine Keep.ite ?_ ?_
    | (intro hx)
    | split

theorem State.setupSizeBad_keep {m : Nat} {s₀ : State} {s : State} {op : Nat} {off : Nat} {len : Nat} {node : Nat} {agent : Nat} (hm : Within 3 m) (h : Keep m s₀ s) :
    Keep m s₀ (State.setupSizeBad s op off len node agent) := by
  unfold State.setupSizeBad
  iterate 60 try any_goals first
    | with_reducible assumption
    | with_reducible refine State.raiseCap_keep (Within.trans rfl hm) ?_
    | split

theorem setupWriteCmd_keep {m : Nat} {s₀ : State} {off : Nat} {data : List Byte} {node : Nat} {agent : Nat} {s : State} (hm : Within 25427959 m) (h : Keep m s₀ s) :
    Keep m s₀ (setupWriteCmd off data node agent s) := by
  unfold setupWriteCmd
  iterate 60 try any_goals first
    | with_reducible assumption
    | with_reducible refine State.setupWrite_keep (Within.trans rfl hm) ?_
    | with_reducible refine State.setupSizeBad_keep (Within.trans rfl hm) ?_
    | with_reducible refine Keep.ite ?_ ?_
    | (intro hx)
    | split

theorem setupReadCmd_keep {m : Nat} {s₀ : State} {off : Nat} {len : Nat} {s : State} (hm : Within 16777219 m) (h : Keep m s₀ s) :
    Keep m s₀ (setupReadCmd off len s) := by
  unfold setupReadCmd
  iterate 60 try any_goals first
    | with_reducible assumption
    | with_reducible refine State.setupRead_keep (Within.trans rfl hm) ?_
    | with_reducible refine State.setupSizeBad_keep (Within.trans rfl hm) ?_
    | with_reducible refine Keep.ite ?_ ?_
    | (intro hx)
    | split

theorem drvEnCmd_keep {m : Nat} {s₀ : State} {value : Nat} {node : Nat} {agent : Nat} {s : State} (hm : Within 25427959 m) (h : Keep m s₀ s) :
    Keep m s₀ (drvEnCmd value node agent s) := by
  unfold drvEnCmd
  iterate 60 try any_goals first
    | with_reducible assumption
    | with_reducible refine State.setupWrite_keep (Within.trans rfl hm) ?_

theorem chipHaltWrite_keep {m : Nat} {s₀ : State} {value : Word} {node : Nat} {agent : Nat} {s : State} (hm : Within 25427959 m) (h : Keep m s₀ s) :
    Keep m s₀ (chipHaltWrite value node agent s) := by
  unfold chipHaltWrite
  iterate 60 try any_goals first
    | with_reducible assumption
    | with_reducible refine State.setupWrite_keep (Within.trans rfl hm) ?_

theorem haltDrained_keep {m : Nat} {s₀ : State} {g : Nat} {s : State} (hm : Within 1 m) (h : Keep m s₀ s) :
    Keep m s₀ (haltDrained g s) := by
  unfold haltDrained
  iterate 60 try any_goals first
    | with_reducible assumption
    | with_reducible refine State.wr_keep (Within.trans rfl hm) ?_
    | with_reducible refine Keep.ite ?_ ?_

theorem State.preloadWrite_keep {m : Nat} {s₀ : State} {s : State} {want : Cls → Bool} {both : Bool} {e : Nat × Word} (hm : Within 25427959 m) (h : Keep m s₀ s) :
    Keep m s₀ (State.preloadWrite s want both e) := by
  unfold State.preloadWrite
  iterate 60 try any_goals first
    | with_reducible assumption
    | with_reducible refine State.setReg_keep (Within.trans rfl hm) ?_
    | with_reducible refine State.setShd_keep (Within.trans rfl hm) ?_
    | with_reducible refine State.afterLow_keep (Within.trans rfl hm) ?_
    | with_reducible refine State.afterCore_keep (Within.trans rfl hm) ?_
    | with_reducible refine State.afterEdge_keep (Within.trans rfl hm) ?_
    | with_reducible refine State.afterHigh_keep (Within.trans rfl hm) ?_
    | with_reducible refine State.stagedAfter_keep (Within.trans rfl hm) ?_
    | with_reducible refine State.setupReport_keep (Within.trans rfl hm) ?_
    | with_reducible refine Keep.ite ?_ ?_
    | (intro hx)
    | (extract_lets +onlyGivenNames y; revert y; intro _)
    | split

theorem State.openBoundary_keep {m : Nat} {s₀ : State} {s : State} (hm : Within 25427959 m) (h : Keep m s₀ s) :
    Keep m s₀ (State.openBoundary s) := by
  unfold State.openBoundary
  iterate 60 try any_goals first
    | with_reducible assumption
    | with_reducible refine State.preloadWrite_keep (Within.trans rfl hm) ?_
    | with_reducible refine State.wr_keep (Within.trans rfl hm) ?_
    | with_reducible refine Keep.foldl (fun x a hx => ?_) _ ?_
    | with_reducible refine Keep.ite ?_ ?_
    | with_reducible refine Keep.setBoot ?_ (hm.bit 2 rfl) (fun hx => ⟨hx, rfl⟩)

theorem State.svcLine_keep {m : Nat} {s₀ : State} {s : State} {ws : List SvcTok} (hm : Within 8388608 m) (h : Keep m s₀ s) :
    Keep m s₀ (State.svcLine s ws) := by
  unfold State.svcLine
  iterate 60 try any_goals first
    | with_reducible assumption
    | with_reducible refine State.emit_keep (Within.trans rfl hm) ?_

theorem State.svcPrompt_keep {m : Nat} {s₀ : State} {s : State} (hm : Within 8388608 m) (h : Keep m s₀ s) :
    Keep m s₀ (State.svcPrompt s) := by
  unfold State.svcPrompt
  iterate 60 try any_goals first
    | with_reducible assumption
    | with_reducible refine State.emit_keep (Within.trans rfl hm) ?_
    | with_reducible refine State.svcLine_keep (Within.trans rfl hm) ?_
    | with_reducible refine Keep.foldl (fun x a hx => ?_) _ ?_

theorem State.svcGreet_keep {m : Nat} {s₀ : State} {s : State} (hm : Within 8388608 m) (h : Keep m s₀ s) :
    Keep m s₀ (State.svcGreet s) := by
  unfold State.svcGreet
  iterate 60 try any_goals first
    | with_reducible assumption
    | with_reducible refine State.svcPrompt_keep (Within.trans rfl hm) ?_
    | with_reducible refine State.svcLine_keep (Within.trans rfl hm) ?_

theorem State.svcEnter_keep {m : Nat} {s₀ : State} {s : State} (hm : Within 8914945 m) (h : Keep m s₀ s) :
    Keep m s₀ (State.svcEnter s) := by
  unfold State.svcEnter
  iterate 60 try any_goals first
    | with_reducible assumption
    | with_reducible refine State.svcPrompt_keep (Within.trans rfl hm) ?_
    | with_reducible refine State.svcLine_keep (Within.trans rfl hm) ?_
    | with_reducible refine State.bump_keep (Within.trans rfl hm) ?_
    | with_reducible refine State.wr_keep (Within.trans rfl hm) ?_
    | split
    | with_reducible refine Keep.setSvc ?_ (hm.bit 19 rfl)

theorem State.svcChar_keep {m : Nat} {s₀ : State} {s : State} {c : Byte} (hm : Within 8914945 m) (h : Keep m s₀ s) :
    Keep m s₀ (State.svcChar s c) := by
  unfold State.svcChar
  iterate 60 try any_goals first
    | with_reducible assumption
    | with_reducible refine State.svcEnter_keep (Within.trans rfl hm) ?_
    | with_reducible refine State.emit_keep (Within.trans rfl hm) ?_
    | with_reducible refine Keep.ite ?_ ?_
    | with_reducible refine Keep.setSvc ?_ (hm.bit 19 rfl)

theorem State.svcHeld_keep {m : Nat} {s₀ : State} {a0 : Nat} {a1 : State} (hm : Within 8914945 m) (h : Keep m s₀ a1) :
    Keep m s₀ (State.svcHeld a0 a1) := by
  induction a0 generalizing a1 with
  | zero => unfold State.svcHeld; first | exact h | (split <;> exact h)
  | succ n ih =>
    unfold State.svcHeld
    iterate 60 try any_goals first
      | with_reducible assumption
      | with_reducible refine ih ?_
      | with_reducible refine State.svcChar_keep (Within.trans rfl hm) ?_
      | split
      | with_reducible refine Keep.setSvc ?_ (hm.bit 19 rfl)

theorem svcRxChar_keep {m : Nat} {s₀ : State} {c : Byte} {stop : Bool} {s : State} (hm : Within 8914945 m) (h : Keep m s₀ s) :
    Keep m s₀ (svcRxChar c stop s) := by
  unfold svcRxChar
  iterate 60 try any_goals first
    | with_reducible assumption
    | with_reducible refine State.svcChar_keep (Within.trans rfl hm) ?_
    | with_reducible refine State.bump_keep (Within.trans rfl hm) ?_
    | with_reducible refine Keep.ite ?_ ?_
    | with_reducible refine Keep.setSvc ?_ (hm.bit 19 rfl)

theorem State.svcDone_keep {m : Nat} {s₀ : State} {s : State} (hm : Within 8914945 m) (h : Keep m s₀ s) :
    Keep m s₀ (State.svcDone s) := by
  unfold State.svcDone
  iterate 60 try any_goals first
    | with_reducible assumption
    | with_reducible refine State.wr_keep (Within.trans rfl hm) ?_
    | with_reducible refine State.bump_keep (Within.trans rfl hm) ?_
    | with_reducible refine State.svcPrompt_keep (Within.trans rfl hm) ?_
    | with_reducible refine State.svcHeld_keep (Within.trans rfl hm) ?_
    | with_reducible refine Keep.setSvc ?_ (hm.bit 19 rfl)

theorem State.svcReply_keep {m : Nat} {s₀ : State} {s : State} {ls : List (List SvcTok)} (hm : Within 8914945 m) (h : Keep m s₀ s) :
    Keep m s₀ (State.svcReply s ls) := by
  unfold State.svcReply
  iterate 60 try any_goals first
    | with_reducible assumption
    | with_reducible refine State.svcDone_keep (Within.trans rfl hm) ?_
    | with_reducible refine State.svcLine_keep (Within.trans rfl hm) ?_
    | with_reducible refine Keep.foldl (fun x a hx => ?_) _ ?_

theorem State.svcRun_keep {m : Nat} {s₀ s : State} {f : MonCmd → Option State} (h : Keep m s₀ s)
    (hf : ∀ c t, f c = some t → Keep m s₀ t) : Keep m s₀ (s.svcRun f) := by
  unfold State.svcRun
  refine Keep.ite h ?_
  split
  · next c _ =>
    cases e : f c with
    | none => exact h
    | some t => exact hf c t e
  · exact h

theorem svcHelp_keep {m : Nat} {s₀ : State} {s : State} (hm : Within 8914945 m) (h : Keep m s₀ s) :
    Keep m s₀ (svcHelp s) := by
  unfold svcHelp
  refine State.svcRun_keep h (fun c t e => ?_)
  try dsimp only at e
  repeat' split at e
  all_goals first | (cases e; done) | cases e
  all_goals iterate 60 try any_goals first
    | with_reducible assumption
    | with_reducible refine State.svcReply_keep (Within.trans rfl hm) ?_

theorem State.svcPeekRegs_keep {m : Nat} {s₀ : State} {s : State} {a1 : Nat} {a2 : Nat} (hm : Within 16777217 m) (h : Keep m s₀ s) :
    Keep m s₀ (State.svcPeekRegs s a1 a2).2 := by
  induction a1 generalizing s a2 with
  | zero => unfold State.svcPeekRegs; first | exact h | (split <;> exact h)
  | succ n ih =>
    unfold State.svcPeekRegs
    iterate 60 try any_goals first
      | with_reducible assumption
      | with_reducible refine ih ?_
      | with_reducible refine State.setupRead_keep (Within.trans rfl hm) ?_

theorem svcPeek_keep {m : Nat} {s₀ : State} {s : State} (hm : Within 25692161 m) (h : Keep m s₀ s) :
    Keep m s₀ (svcPeek s) := by
  unfold svcPeek
  refine State.svcRun_keep h (fun c t e => ?_)
  try dsimp only at e
  repeat' split at e
  all_goals first | (cases e; done) | cases e
  all_goals iterate 60 try any_goals first
    | with_reducible assumption
    | with_reducible refine State.svcPeekRegs_keep (Within.trans rfl hm) ?_
    | with_reducible refine State.svcReply_keep (Within.trans rfl hm) ?_

theorem svcPoke_keep {m : Nat} {s₀ : State} {s : State} (hm : Within 25952247 m) (h : Keep m s₀ s) :
    Keep m s₀ (svcPoke s) := by
  unfold svcPoke
  refine State.svcRun_keep h (fun c t e => ?_)
  try dsimp only at e
  repeat' split at e
  all_goals first | (cases e; done) | cases e
  all_goals iterate 60 try any_goals first
    | with_reducible assumption
    | with_reducible refine State.setupWrite_keep (Within.trans rfl hm) ?_
    | with_reducible refine State.svcReply_keep (Within.trans rfl hm) ?_

theorem svcLens_keep {m : Nat} {s₀ : State} {s : State} (hm : Within 8914945 m) (h : Keep m s₀ s) :
    Keep m s₀ (svcLens s) := by
  unfold svcLens
  refine State.svcRun_keep h (fun c t e => ?_)
  try dsimp only at e
  repeat' split at e
  all_goals first | (cases e; done) | cases e
  all_goals iterate 60 try any_goals first
    | with_reducible assumption
    | with_reducible refine State.svcReply_keep (Within.trans rfl hm) ?_

theorem svcFold_keep {m : Nat} {s₀ : State} {s : State} (hm : Within 8914945 m) (h : Keep m s₀ s) :
    Keep m s₀ (svcFold s) := by
  unfold svcFold
  refine State.svcRun_keep h (fun c t e => ?_)
  try dsimp only at e
  repeat' split at e
  all_goals first | (cases e; done) | cases e
  all_goals iterate 60 try any_goals first
    | with_reducible assumption
    | with_reducible refine State.svcReply_keep (Within.trans rfl hm) ?_

theorem svcDrover_keep {m : Nat} {s₀ : State} {s : State} (hm : Within 8914945 m) (h : Keep m s₀ s) :
    Keep m s₀ (svcDrover s) := by
  unfold svcDrover
  refine State.svcRun_keep h (fun c t e => ?_)
  try dsimp only at e
  repeat' split at e
  all_goals first | (cases e; done) | cases e
  all_goals iterate 60 try any_goals first
    | with_reducible assumption
    | with_reducible refine State.svcReply_keep (Within.trans rfl hm) ?_

theorem svcRing_keep {m : Nat} {s₀ : State} {s : State} (hm : Within 8914945 m) (h : Keep m s₀ s) :
    Keep m s₀ (svcRing s) := by
  unfold svcRing
  refine State.svcRun_keep h (fun c t e => ?_)
  try dsimp only at e
  repeat' split at e
  all_goals first | (cases e; done) | cases e
  all_goals iterate 60 try any_goals first
    | with_reducible assumption
    | with_reducible refine State.svcReply_keep (Within.trans rfl hm) ?_

theorem svcCad_keep {m : Nat} {s₀ : State} {s : State} (hm : Within 8914945 m) (h : Keep m s₀ s) :
    Keep m s₀ (svcCad s) := by
  unfold svcCad
  refine State.svcRun_keep h (fun c t e => ?_)
  try dsimp only at e
  repeat' split at e
  all_goals first | (cases e; done) | cases e
  all_goals iterate 60 try any_goals first
    | with_reducible assumption
    | with_reducible refine State.svcReply_keep (Within.trans rfl hm) ?_

theorem svcFault_keep {m : Nat} {s₀ : State} {s : State} (hm : Within 8914945 m) (h : Keep m s₀ s) :
    Keep m s₀ (svcFault s) := by
  unfold svcFault
  refine State.svcRun_keep h (fun c t e => ?_)
  try dsimp only at e
  repeat' split at e
  all_goals first | (cases e; done) | cases e
  all_goals iterate 60 try any_goals first
    | with_reducible assumption
    | with_reducible refine State.svcReply_keep (Within.trans rfl hm) ?_

theorem svcFaultClr_keep {m : Nat} {s₀ : State} {s : State} (hm : Within 9046019 m) (h : Keep m s₀ s) :
    Keep m s₀ (svcFaultClr s) := by
  unfold svcFaultClr
  refine State.svcRun_keep h (fun c t e => ?_)
  try dsimp only at e
  repeat' split at e
  all_goals first | (cases e; done) | cases e
  all_goals iterate 60 try any_goals first
    | with_reducible assumption
    | with_reducible refine State.clearEntry_keep (Within.trans rfl hm) ?_
    | with_reducible refine State.svcReply_keep (Within.trans rfl hm) ?_

theorem svcLog_keep {m : Nat} {s₀ : State} {s : State} (hm : Within 8914945 m) (h : Keep m s₀ s) :
    Keep m s₀ (svcLog s) := by
  unfold svcLog
  refine State.svcRun_keep h (fun c t e => ?_)
  try dsimp only at e
  repeat' split at e
  all_goals first | (cases e; done) | cases e
  all_goals iterate 60 try any_goals first
    | with_reducible assumption
    | with_reducible refine State.svcReply_keep (Within.trans rfl hm) ?_

theorem svcStat_keep {m : Nat} {s₀ : State} {s : State} (hm : Within 8914945 m) (h : Keep m s₀ s) :
    Keep m s₀ (svcStat s) := by
  unfold svcStat
  refine State.svcRun_keep h (fun c t e => ?_)
  try dsimp only at e
  repeat' split at e
  all_goals first | (cases e; done) | cases e
  all_goals iterate 60 try any_goals first
    | with_reducible assumption
    | with_reducible refine State.svcReply_keep (Within.trans rfl hm) ?_

theorem svcTwin_keep {m : Nat} {s₀ : State} {s : State} (hm : Within 8914945 m) (h : Keep m s₀ s) :
    Keep m s₀ (svcTwin s) := by
  unfold svcTwin
  refine State.svcRun_keep h (fun c t e => ?_)
  try dsimp only at e
  repeat' split at e
  all_goals first | (cases e; done) | cases e
  all_goals iterate 60 try any_goals first
    | with_reducible assumption
    | with_reducible refine State.svcReply_keep (Within.trans rfl hm) ?_

theorem svcPwr_keep {m : Nat} {s₀ : State} {s : State} (hm : Within 8914945 m) (h : Keep m s₀ s) :
    Keep m s₀ (svcPwr s) := by
  unfold svcPwr
  refine State.svcRun_keep h (fun c t e => ?_)
  try dsimp only at e
  repeat' split at e
  all_goals first | (cases e; done) | cases e
  all_goals iterate 60 try any_goals first
    | with_reducible assumption
    | with_reducible refine State.svcReply_keep (Within.trans rfl hm) ?_

theorem svcAtbSet_keep {m : Nat} {s₀ : State} {s : State} (hm : Within 25952247 m) (h : Keep m s₀ s) :
    Keep m s₀ (svcAtbSet s) := by
  unfold svcAtbSet
  refine State.svcRun_keep h (fun c t e => ?_)
  try dsimp only at e
  repeat' split at e
  all_goals first | (cases e; done) | cases e
  all_goals iterate 60 try any_goals first
    | with_reducible assumption
    | with_reducible refine State.setupWrite_keep (Within.trans rfl hm) ?_
    | with_reducible refine State.svcReply_keep (Within.trans rfl hm) ?_

theorem State.adcEnd_keep {m : Nat} {s₀ : State} {s : State} {code : Nat} (hm : Within 16777217 m) (h : Keep m s₀ s) :
    Keep m s₀ (State.adcEnd s code) := by
  unfold State.adcEnd
  iterate 60 try any_goals first
    | with_reducible assumption
    | with_reducible refine State.free_keep (Within.trans rfl hm) ?_
    | with_reducible refine State.wr_keep (Within.trans rfl hm) ?_
    | split

theorem svcAtbRead_keep {m : Nat} {s₀ : State} {code : Nat} {s : State} (hm : Within 25692161 m) (h : Keep m s₀ s) :
    Keep m s₀ (svcAtbRead code s) := by
  unfold svcAtbRead
  refine State.svcRun_keep h (fun c t e => ?_)
  try dsimp only at e
  repeat' split at e
  all_goals first | (cases e; done) | cases e
  all_goals iterate 60 try any_goals first
    | with_reducible assumption
    | with_reducible refine State.adcEnd_keep (Within.trans rfl hm) ?_
    | with_reducible refine State.wr_keep (Within.trans rfl hm) ?_
    | with_reducible refine State.svcReply_keep (Within.trans rfl hm) ?_

theorem svcLock_keep {m : Nat} {s₀ : State} {s : State} (hm : Within 8914945 m) (h : Keep m s₀ s) :
    Keep m s₀ (svcLock s) := by
  unfold svcLock
  refine State.svcRun_keep h (fun c t e => ?_)
  try dsimp only at e
  repeat' split at e
  all_goals first | (cases e; done) | cases e
  all_goals iterate 60 try any_goals first
    | with_reducible assumption
    | with_reducible refine State.svcReply_keep (Within.trans rfl hm) ?_
    | with_reducible refine State.wr_keep (Within.trans rfl hm) ?_

theorem svcVer_keep {m : Nat} {s₀ : State} {s : State} (hm : Within 8914945 m) (h : Keep m s₀ s) :
    Keep m s₀ (svcVer s) := by
  unfold svcVer
  refine State.svcRun_keep h (fun c t e => ?_)
  try dsimp only at e
  repeat' split at e
  all_goals first | (cases e; done) | cases e
  all_goals iterate 60 try any_goals first
    | with_reducible assumption
    | with_reducible refine State.svcReply_keep (Within.trans rfl hm) ?_

theorem State.pulse_keep {m : Nat} {s₀ : State} {s : State} {k : Nat} {bits : Word} {node : Nat} {agent : Nat} (hm : Within 25427959 m) (h : Keep m s₀ s) :
    Keep m s₀ (State.pulse s k bits node agent) := by
  unfold State.pulse
  iterate 60 try any_goals first
    | with_reducible assumption
    | with_reducible refine State.setupWrite_keep (Within.trans rfl hm) ?_

theorem tstAtbWrite_keep {m : Nat} {s₀ : State} {bus : Nat} {value : Word} {node : Nat} {agent : Nat} {s : State} (hm : Within 25427959 m) (h : Keep m s₀ s) :
    Keep m s₀ (tstAtbWrite bus value node agent s) := by
  unfold tstAtbWrite
  iterate 60 try any_goals first
    | with_reducible assumption
    | with_reducible refine State.setupWrite_keep (Within.trans rfl hm) ?_
    | with_reducible refine Keep.ite ?_ ?_

theorem tstAdcStart_keep {m : Nat} {s₀ : State} {bus : Bool} {node : Nat} {agent : Nat} {s : State} (hm : Within 25427959 m) (h : Keep m s₀ s) :
    Keep m s₀ (tstAdcStart bus node agent s) := by
  unfold tstAdcStart
  iterate 60 try any_goals first
    | with_reducible assumption
    | with_reducible refine State.setupWrite_keep (Within.trans rfl hm) ?_

theorem tstAdcDone_keep {m : Nat} {s₀ : State} {code : Nat} {s : State} (hm : Within 16777217 m) (h : Keep m s₀ s) :
    Keep m s₀ (tstAdcDone code s) := by
  unfold tstAdcDone
  iterate 60 try any_goals first
    | with_reducible assumption
    | with_reducible refine State.adcEnd_keep (Within.trans rfl hm) ?_
    | with_reducible refine Keep.ite ?_ ?_

end Sys2Proof.Machine
end

