-- ==== Sys2Proof/Laws/KeepMoves.lean ====
section
/-! SUPPORT. What each operation of Tap, Desc, Home, Moves leaves alone and keeps: its footprint as a mask of units, and that it keeps
the memories canonical, the queue of commands and a recorder key once set (see Laws/Keep.lean). -/

namespace Sys2Proof.Machine

set_option maxRecDepth 4000

theorem State.setIr_keep {m : Nat} {s₀ : State} {s : State} {ir : Nat} (hm : Within 1048576 m) (h : Keep m s₀ s) :
    Keep m s₀ (State.setIr s ir) := by
  unfold State.setIr
  iterate 60 try any_goals first
    | with_reducible assumption
    | with_reducible refine Keep.setTap ?_ (hm.bit 20 rfl)

theorem tapReset_keep {m : Nat} {s₀ : State} {s : State} (hm : Within 1048576 m) (h : Keep m s₀ s) :
    Keep m s₀ (tapReset s) := by
  unfold tapReset
  iterate 60 try any_goals first
    | with_reducible assumption
    | with_reducible refine State.setIr_keep (Within.trans rfl hm) ?_

theorem tapIdcode_keep {m : Nat} {s₀ : State} {s : State} (hm : Within 9437184 m) (h : Keep m s₀ s) :
    Keep m s₀ (tapIdcode s) := by
  unfold tapIdcode
  iterate 60 try any_goals first
    | with_reducible assumption
    | with_reducible refine State.emit_keep (Within.trans rfl hm) ?_
    | with_reducible refine State.setIr_keep (Within.trans rfl hm) ?_

theorem samplePreload_keep {m : Nat} {s₀ : State} {pins : List Bool} {load : List Bool} {s : State} (hm : Within 9437184 m) (h : Keep m s₀ s) :
    Keep m s₀ (samplePreload pins load s) := by
  unfold samplePreload
  iterate 60 try any_goals first
    | with_reducible assumption
    | with_reducible refine State.emit_keep (Within.trans rfl hm) ?_
    | with_reducible refine State.setIr_keep (Within.trans rfl hm) ?_
    | with_reducible refine Keep.setTap ?_ (hm.bit 20 rfl)

theorem extest_keep {m : Nat} {s₀ : State} {pins : List Bool} {load : List Bool} {s : State} (hm : Within 9437184 m) (h : Keep m s₀ s) :
    Keep m s₀ (extest pins load s) := by
  unfold extest
  iterate 60 try any_goals first
    | with_reducible assumption
    | with_reducible refine State.emit_keep (Within.trans rfl hm) ?_
    | with_reducible refine State.setIr_keep (Within.trans rfl hm) ?_
    | with_reducible refine Keep.setTap ?_ (hm.bit 20 rfl)

theorem clamp_keep {m : Nat} {s₀ : State} {s : State} (hm : Within 9437184 m) (h : Keep m s₀ s) :
    Keep m s₀ (clamp s) := by
  unfold clamp
  iterate 60 try any_goals first
    | with_reducible assumption
    | with_reducible refine State.emit_keep (Within.trans rfl hm) ?_
    | with_reducible refine State.setIr_keep (Within.trans rfl hm) ?_

theorem highz_keep {m : Nat} {s₀ : State} {s : State} (hm : Within 9437184 m) (h : Keep m s₀ s) :
    Keep m s₀ (highz s) := by
  unfold highz
  iterate 60 try any_goals first
    | with_reducible assumption
    | with_reducible refine State.emit_keep (Within.trans rfl hm) ?_
    | with_reducible refine State.setIr_keep (Within.trans rfl hm) ?_

theorem atbSel_keep {m : Nat} {s₀ : State} {value : Nat} {s : State} (hm : Within 1048579 m) (h : Keep m s₀ s) :
    Keep m s₀ (atbSel value s) := by
  unfold atbSel
  iterate 60 try any_goals first
    | with_reducible assumption
    | with_reducible refine State.setIr_keep (Within.trans rfl hm) ?_
    | with_reducible refine State.wr_keep (Within.trans rfl hm) ?_
    | with_reducible refine State.raise_keep (Within.trans rfl hm) ?_
    | with_reducible refine Keep.ite ?_ ?_

theorem tapSeconds_keep {m : Nat} {s₀ : State} {value : Nat} {s : State} (hm : Within 1116227 m) (h : Keep m s₀ s) :
    Keep m s₀ (tapSeconds value s) := by
  unfold tapSeconds
  iterate 60 try any_goals first
    | with_reducible assumption
    | with_reducible refine State.setIr_keep (Within.trans rfl hm) ?_
    | with_reducible refine whenUp_keep (Within.trans rfl hm) ?_ ?_
    | with_reducible refine mfgSeconds_keep (Within.trans rfl hm) ?_
    | (intro hx)
    | with_reducible refine Keep.ite ?_ ?_

theorem otpKeyProgram_keep {m : Nat} {s₀ : State} {key : List Byte} {s : State} (hm : Within 9437189 m) (h : Keep m s₀ s) :
    Keep m s₀ (otpKeyProgram key s) := by
  unfold otpKeyProgram
  extract_lets s1
  have h1 : Keep m s₀ s1 := State.emit_keep (Within.trans rfl hm) (State.setIr_keep (Within.trans rfl hm) h)
  clear_value s1
  split
  · next c =>
    refine State.wr_keep (Within.trans rfl hm) (Keep.setBoot h1 (hm.bit 2 rfl) (fun hk => ?_))
    simp [hk] at c
  · exact h1

theorem tapBypass_keep {m : Nat} {s₀ : State} {ir : Nat} {s : State} (hm : Within 9437184 m) (h : Keep m s₀ s) :
    Keep m s₀ (tapBypass ir s) := by
  unfold tapBypass
  iterate 60 try any_goals first
    | with_reducible assumption
    | with_reducible refine State.emit_keep (Within.trans rfl hm) ?_
    | with_reducible refine State.setIr_keep (Within.trans rfl hm) ?_
    | with_reducible refine Keep.ite ?_ ?_

theorem State.decodeRaise_keep {m : Nat} {s₀ : State} {s : State} {t : Task} {code : Nat} (hm : Within 3 m) (h : Keep m s₀ s) :
    Keep m s₀ (State.decodeRaise s t code) := by
  unfold State.decodeRaise
  iterate 60 try any_goals first
    | with_reducible assumption
    | with_reducible refine State.raiseCap_keep (Within.trans rfl hm) ?_
    | with_reducible refine Keep.ite ?_ ?_

theorem State.addSeg_keep {m : Nat} {s₀ : State} {s : State} {k : Nat} {seg : Nat} (hm : Within 128 m) (h : Keep m s₀ s) :
    Keep m s₀ (State.addSeg s k seg) := by
  unfold State.addSeg
  iterate 60 try any_goals first
    | with_reducible assumption
    | with_reducible refine State.setConfirm_keep (Within.trans rfl hm) ?_
    | with_reducible refine Keep.ite ?_ ?_
    | (intro hx)
    | split

theorem State.hostSend_keep {m : Nat} {s₀ : State} {s : State} {r : HostReq} (hm : Within 8421569 m) (h : Keep m s₀ s) :
    Keep m s₀ (State.hostSend s r) := by
  unfold State.hostSend
  iterate 60 try any_goals first
    | with_reducible assumption
    | with_reducible refine State.emit_keep (Within.trans rfl hm) ?_
    | with_reducible refine State.storeSeen_keep (Within.trans rfl hm) ?_
    | with_reducible refine State.finishTask_keep (Within.trans rfl hm) ?_
    | with_reducible refine State.addSeg_keep (Within.trans rfl hm) ?_
    | with_reducible refine Keep.foldl (fun x a hx => ?_) _ ?_
    | with_reducible refine Keep.ite ?_ ?_
    | (intro hx)
    | split
    | with_reducible refine Keep.setHost ?_ (hm.bit 15 rfl)

theorem State.pumpHost_keep {m : Nat} {s₀ : State} {a0 : Nat} {a1 : State} (hm : Within 8421569 m) (h : Keep m s₀ a1) :
    Keep m s₀ (State.pumpHost a0 a1) := by
  induction a0 generalizing a1 with
  | zero => unfold State.pumpHost; first | exact h | (split <;> exact h)
  | succ n ih =>
    unfold State.pumpHost
    iterate 60 try any_goals first
      | with_reducible assumption
      | with_reducible refine ih ?_
      | with_reducible refine State.hostSend_keep (Within.trans rfl hm) ?_
      | split

theorem State.hostRequest_keep {m : Nat} {s₀ : State} {s : State} {d : Option Nat} {who : Nat} {kind : Nat} {seg : Nat} {off : Nat} {len : Nat} {data : List Byte} (hm : Within 8421569 m) (h : Keep m s₀ s) :
    Keep m s₀ (State.hostRequest s d who kind seg off len data) := by
  unfold State.hostRequest
  iterate 60 try any_goals first
    | with_reducible assumption
    | with_reducible refine State.setExec_keep (Within.trans rfl hm) ?_
    | with_reducible refine State.pumpHost_keep (Within.trans rfl hm) ?_
    | split
    | with_reducible refine Keep.setHost ?_ (hm.bit 15 rfl)

theorem State.refuse_keep {m : Nat} {s₀ : State} {s : State} {d : Nat} {code : Nat} {t : Task} (hm : Within 195 m) (h : Keep m s₀ s) :
    Keep m s₀ (State.refuse s d code t) := by
  unfold State.refuse
  iterate 60 try any_goals first
    | with_reducible assumption
    | with_reducible refine State.finishTask_keep (Within.trans rfl hm) ?_
    | with_reducible refine State.decodeRaise_keep (Within.trans rfl hm) ?_

theorem State.homeRead_keep {m : Nat} {s₀ : State} {s : State} {d : Nat} {t : Task} (hm : Within 25217235 m) (h : Keep m s₀ s) :
    Keep m s₀ (State.homeRead s d t) := by
  unfold State.homeRead
  iterate 60 try any_goals first
    | with_reducible assumption
    | with_reducible refine State.startVme_keep (Within.trans rfl hm) ?_
    | with_reducible refine State.ddrRead_keep (Within.trans rfl hm) ?_
    | with_reducible refine State.finishTask_keep (Within.trans rfl hm) ?_
    | with_reducible refine State.setupRead_keep (Within.trans rfl hm) ?_
    | with_reducible refine State.hostRequest_keep (Within.trans rfl hm) ?_
    | (extract_lets +onlyGivenNames y; revert y; intro _)
    | split

theorem State.homeSetup_keep {m : Nat} {s₀ : State} {s : State} {d : Nat} {t : Task} (hm : Within 25427959 m) (h : Keep m s₀ s) :
    Keep m s₀ (State.homeSetup s d t) := by
  unfold State.homeSetup
  iterate 60 try any_goals first
    | with_reducible assumption
    | with_reducible refine State.setupWrite_keep (Within.trans rfl hm) ?_
    | with_reducible refine State.storeFailed_keep (Within.trans rfl hm) ?_
    | with_reducible refine State.setExec_keep (Within.trans rfl hm) ?_
    | with_reducible refine State.finishTask_keep (Within.trans rfl hm) ?_
    | with_reducible refine Keep.ite ?_ ?_
    | split

theorem State.homeWrite_keep {m : Nat} {s₀ : State} {s : State} {d : Nat} {t : Task} (hm : Within 25427959 m) (h : Keep m s₀ s) :
    Keep m s₀ (State.homeWrite s d t) := by
  unfold State.homeWrite
  iterate 60 try any_goals first
    | with_reducible assumption
    | with_reducible refine State.startVme_keep (Within.trans rfl hm) ?_
    | with_reducible refine State.ddrWrite_keep (Within.trans rfl hm) ?_
    | with_reducible refine State.finishTask_keep (Within.trans rfl hm) ?_
    | with_reducible refine State.storeSeen_keep (Within.trans rfl hm) ?_
    | with_reducible refine State.dcWrite_keep (Within.trans rfl hm) ?_
    | with_reducible refine State.homeSetup_keep (Within.trans rfl hm) ?_
    | with_reducible refine State.hostRequest_keep (Within.trans rfl hm) ?_
    | (extract_lets +onlyGivenNames y; revert y; intro _)
    | split

theorem State.claimFabric_keep {m : Nat} {s₀ : State} {s : State} {d : Nat} {t : Task} {bs : List Byte} (hm : Within 129 m) (h : Keep m s₀ s) :
    Keep m s₀ (State.claimFabric s d t bs) := by
  unfold State.claimFabric
  iterate 60 try any_goals first
    | with_reducible assumption
    | with_reducible refine State.takeClaim_keep (Within.trans rfl hm) ?_
    | split

theorem State.cellRead_keep {m : Nat} {s₀ : State} {s : State} {t : Task} (hm : Within 18435 m) (h : Keep m s₀ s) :
    Keep m s₀ (State.cellRead s t).2 := by
  unfold State.cellRead
  iterate 60 try any_goals first
    | with_reducible assumption
    | with_reducible refine State.ddrRead_keep (Within.trans rfl hm) ?_
    | split

theorem State.cellWrite_keep {m : Nat} {s₀ : State} {s : State} {t : Task} {bs : List Byte} (hm : Within 8420035 m) (h : Keep m s₀ s) :
    Keep m s₀ (State.cellWrite s t bs).2 := by
  unfold State.cellWrite
  iterate 60 try any_goals first
    | with_reducible assumption
    | with_reducible refine State.storeSeen_keep (Within.trans rfl hm) ?_
    | with_reducible refine State.dcWrite_keep (Within.trans rfl hm) ?_
    | with_reducible refine State.ddrWrite_keep (Within.trans rfl hm) ?_
    | with_reducible refine Keep.ite ?_ ?_
    | split

theorem State.cellRmw_keep {m : Nat} {s₀ : State} {s : State} {d : Nat} {t : Task} (hm : Within 25197251 m) (h : Keep m s₀ s) :
    Keep m s₀ (State.cellRmw s d t) := by
  unfold State.cellRmw
  iterate 60 try any_goals first
    | with_reducible assumption
    | with_reducible refine State.judgeCommit_keep (Within.trans rfl hm) ?_
    | with_reducible refine State.commitEnd_keep (Within.trans rfl hm) ?_
    | with_reducible refine State.finishTask_keep (Within.trans rfl hm) ?_
    | with_reducible refine State.claimFabric_keep (Within.trans rfl hm) ?_
    | with_reducible refine State.cellRead_keep (Within.trans rfl hm) ?_
    | with_reducible refine State.cellWrite_keep (Within.trans rfl hm) ?_
    | with_reducible refine Keep.ite ?_ ?_
    | (intro hx)
    | (extract_lets +onlyGivenNames y; revert y; intro _)
    | split

theorem State.hostRmw_keep {m : Nat} {s₀ : State} {s : State} {d : Nat} {t : Task} {seg : Nat} (hm : Within 25200835 m) (h : Keep m s₀ s) :
    Keep m s₀ (State.hostRmw s d t seg) := by
  unfold State.hostRmw
  iterate 60 try any_goals first
    | with_reducible assumption
    | with_reducible refine State.raise_keep (Within.trans rfl hm) ?_
    | with_reducible refine State.judgeCommit_keep (Within.trans rfl hm) ?_
    | with_reducible refine State.commitEnd_keep (Within.trans rfl hm) ?_
    | with_reducible refine State.finishTask_keep (Within.trans rfl hm) ?_
    | with_reducible refine State.hostRequest_keep (Within.trans rfl hm) ?_
    | with_reducible refine Keep.ite ?_ ?_
    | (intro hx)
    | (extract_lets +onlyGivenNames y; revert y; intro _)
    | split

theorem State.homeRmw_keep {m : Nat} {s₀ : State} {s : State} {d : Nat} {t : Task} (hm : Within 25230035 m) (h : Keep m s₀ s) :
    Keep m s₀ (State.homeRmw s d t) := by
  unfold State.homeRmw
  iterate 60 try any_goals first
    | with_reducible assumption
    | with_reducible refine State.refuse_keep (Within.trans rfl hm) ?_
    | with_reducible refine State.startVme_keep (Within.trans rfl hm) ?_
    | with_reducible refine State.hostRmw_keep (Within.trans rfl hm) ?_
    | with_reducible refine State.cellRmw_keep (Within.trans rfl hm) ?_
    | with_reducible refine State.finishTask_keep (Within.trans rfl hm) ?_
    | (extract_lets +onlyGivenNames y; revert y; intro _)
    | split

theorem State.hostAnswered_keep {m : Nat} {s₀ : State} {s : State} {d : Nat} {r : HostReq} {bs : List Byte} (hm : Within 2241 m) (h : Keep m s₀ s) :
    Keep m s₀ (State.hostAnswered s d r bs) := by
  unfold State.hostAnswered
  iterate 60 try any_goals first
    | with_reducible assumption
    | with_reducible refine State.finishTask_keep (Within.trans rfl hm) ?_
    | with_reducible refine State.claimFabric_keep (Within.trans rfl hm) ?_
    | with_reducible refine State.commitEnd_keep (Within.trans rfl hm) ?_
    | with_reducible refine State.storeSeen_keep (Within.trans rfl hm) ?_
    | with_reducible refine State.addSeg_keep (Within.trans rfl hm) ?_
    | with_reducible refine Keep.ite ?_ ?_
    | split

theorem State.homeDone_keep {m : Nat} {s₀ : State} {s : State} {d : Nat} {t : Task} (hm : Within 8421569 m) (h : Keep m s₀ s) :
    Keep m s₀ (State.homeDone s d t) := by
  unfold State.homeDone
  iterate 60 try any_goals first
    | with_reducible assumption
    | with_reducible refine State.setConfirm_keep (Within.trans rfl hm) ?_
    | with_reducible refine State.endTask_keep (Within.trans rfl hm) ?_
    | with_reducible refine State.setExec_keep (Within.trans rfl hm) ?_
    | with_reducible refine State.hostRequest_keep (Within.trans rfl hm) ?_
    | with_reducible refine Keep.foldl (fun x a hx => ?_) _ ?_
    | with_reducible refine Keep.ite ?_ ?_
    | (intro hx)
    | split

theorem State.donesAgain_keep {m : Nat} {s₀ : State} {s : State} {k : Nat} (hm : Within 8421569 m) (h : Keep m s₀ s) :
    Keep m s₀ (State.donesAgain s k) := by
  unfold State.donesAgain
  iterate 60 try any_goals first
    | with_reducible assumption
    | with_reducible refine State.homeDone_keep (Within.trans rfl hm) ?_
    | with_reducible refine Keep.foldl (fun x a hx => ?_) _ ?_
    | with_reducible refine Keep.ite ?_ ?_
    | (intro hx)
    | split

theorem State.segProven_keep {m : Nat} {s₀ : State} {s : State} {r : HostReq} {ok : Bool} (hm : Within 8421569 m) (h : Keep m s₀ s) :
    Keep m s₀ (State.segProven s r ok) := by
  unfold State.segProven
  iterate 60 try any_goals first
    | with_reducible assumption
    | with_reducible refine State.setConfirm_keep (Within.trans rfl hm) ?_
    | with_reducible refine State.finishDone_keep (Within.trans rfl hm) ?_
    | with_reducible refine State.donesAgain_keep (Within.trans rfl hm) ?_
    | with_reducible refine Keep.ite ?_ ?_
    | (intro hx)
    | split

theorem State.homeAccess_keep {m : Nat} {s₀ : State} {s : State} {d : Nat} {t : Task} (hm : Within 25427959 m) (h : Keep m s₀ s) :
    Keep m s₀ (State.homeAccess s d t) := by
  unfold State.homeAccess
  iterate 60 try any_goals first
    | with_reducible assumption
    | with_reducible refine State.refuse_keep (Within.trans rfl hm) ?_
    | with_reducible refine State.homeRead_keep (Within.trans rfl hm) ?_
    | with_reducible refine State.homeWrite_keep (Within.trans rfl hm) ?_
    | split

theorem State.taskIssue_keep {m : Nat} {s₀ : State} {s : State} {d : Nat} {t : Task} {op : Nat} {addr : Nat} {len : Nat} {payload : List Byte} (hm : Within 8391363 m) (h : Keep m s₀ s) :
    Keep m s₀ (State.taskIssue s d t op addr len payload).st := by
  unfold State.taskIssue
  iterate 60 try any_goals first
    | with_reducible assumption
    | with_reducible refine State.issueAccess_keep (Within.trans rfl hm) ?_

theorem State.waitIn_keep {m : Nat} {s₀ : State} {s : State} {d : Nat} {ph : ExecPhase} (hm : Within 64 m) (h : Keep m s₀ s) :
    Keep m s₀ (State.waitIn s d ph) := by
  unfold State.waitIn
  iterate 60 try any_goals first
    | with_reducible assumption
    | with_reducible refine State.setExec_keep (Within.trans rfl hm) ?_
    | split

theorem State.issued_keep {m : Nat} {s₀ : State} {d : Nat} {r : Attempt} {u : Sub} {fail : Nat → State → State} (hm : Within 64 m) (h : Keep m s₀ r.st) (h1 : ∀ y0 x, Keep m s₀ x → Keep m s₀ (fail y0 x)) :
    Keep m s₀ (State.issued d r u fail) := by
  unfold State.issued
  iterate 60 try any_goals first
    | with_reducible assumption
    | with_reducible refine h1 _ _ ?_
    | with_reducible refine State.waitIn_keep (Within.trans rfl hm) ?_
    | with_reducible refine State.setExec_keep (Within.trans rfl hm) ?_
    | split

theorem State.finishDesc_keep {m : Nat} {s₀ : State} {s : State} {d : Nat} {status : Nat} {n : Nat} {payload : List Byte} {count : Bool} (hm : Within 192 m) (h : Keep m s₀ s) :
    Keep m s₀ (State.finishDesc s d status n payload count) := by
  unfold State.finishDesc
  iterate 60 try any_goals first
    | with_reducible assumption
    | with_reducible refine State.storeFailed_keep (Within.trans rfl hm) ?_
    | with_reducible refine State.endTask_keep (Within.trans rfl hm) ?_
    | split

theorem State.noteStore_keep {m : Nat} {s₀ : State} {s : State} {t : Task} (hm : Within 128 m) (h : Keep m s₀ s) :
    Keep m s₀ (State.noteStore s t) := by
  unfold State.noteStore
  iterate 60 try any_goals first
    | with_reducible assumption
    | with_reducible refine State.noteNode_keep (Within.trans rfl hm) ?_
    | with_reducible refine Keep.ite ?_ ?_
    | (intro hx)
    | split

theorem State.handOver_keep {m : Nat} {s₀ : State} {s : State} {d : Nat} (hm : Within 8391121 m) (h : Keep m s₀ s) :
    Keep m s₀ (State.handOver s d) := by
  unfold State.handOver
  iterate 60 try any_goals first
    | with_reducible assumption
    | with_reducible refine State.dropExec_keep (Within.trans rfl hm) ?_
    | with_reducible refine State.taskBoundary_keep (Within.trans rfl hm) ?_
    | split

theorem State.undefBuf_keep {m : Nat} {s₀ : State} {s : State} {dsc : List Byte} {n : Nat} (hm : Within 16793600 m) (h : Keep m s₀ s) :
    Keep m s₀ (State.undefBuf s dsc n) := by
  unfold State.undefBuf
  extract_lets a k r
  split
  · have hr : Keep m s₀ r.2 := State.freeBytes_keep (Within.trans rfl hm) h
    clear_value r
    exact Keep.setDdr hr (hm.bit 14 rfl) (fun hx => Memory.wf_twrites _ _ _ hx)
  · exact h

theorem State.moveEnd_keep {m : Nat} {s₀ : State} {s : State} {d : Nat} {x : Exec} {status : Nat} {n : Nat} (hm : Within 25189315 m) (h : Keep m s₀ s) :
    Keep m s₀ (State.moveEnd s d x status n) := by
  unfold State.moveEnd
  iterate 60 try any_goals first
    | with_reducible assumption
    | with_reducible refine State.noteStore_keep (Within.trans rfl hm) ?_
    | with_reducible refine State.setExec_keep (Within.trans rfl hm) ?_
    | with_reducible refine State.push_keep (Within.trans rfl hm) ?_
    | with_reducible refine State.awaitStore_keep (Within.trans rfl hm) ?_
    | with_reducible refine State.endTask_keep (Within.trans rfl hm) ?_
    | with_reducible refine State.finishDesc_keep (Within.trans rfl hm) ?_
    | with_reducible refine State.undefBuf_keep (Within.trans rfl hm) ?_
    | with_reducible refine Keep.ite ?_ ?_
    | split

theorem State.moveFail_keep {m : Nat} {s₀ : State} {s : State} {d : Nat} {o : Nat} {st : Nat} {k : Nat} (hm : Within 64 m) (h : Keep m s₀ s) :
    Keep m s₀ (State.moveFail s d o st k) := by
  unfold State.moveFail
  iterate 60 try any_goals first
    | with_reducible assumption
    | with_reducible refine State.setExec_keep (Within.trans rfl hm) ?_
    | split

theorem State.moveGo_keep {m : Nat} {s₀ : State} {a0 : Nat} {a1 : Nat} {a2 : State} (hm : Within 25189315 m) (h : Keep m s₀ a2) :
    Keep m s₀ (State.moveGo a0 a1 a2) := by
  induction a0 generalizing a1 a2 with
  | zero => unfold State.moveGo; first | exact h | (split <;> exact h)
  | succ n ih =>
    unfold State.moveGo
    iterate 60 try any_goals first
      | with_reducible assumption
      | with_reducible refine ih ?_
      | with_reducible refine State.originRefuse_keep (Within.trans rfl hm) ?_
      | with_reducible refine State.storeUnsent_keep (Within.trans rfl hm) ?_
      | with_reducible refine State.moveEnd_keep (Within.trans rfl hm) ?_
      | with_reducible refine State.setExec_keep (Within.trans rfl hm) ?_
      | with_reducible refine State.taskIssue_keep (Within.trans rfl hm) ?_
      | with_reducible refine State.issued_keep (Within.trans rfl hm) ?_ ?_
      | with_reducible refine State.moveFail_keep (Within.trans rfl hm) ?_
      | with_reducible refine State.mergeBytes_keep (Within.trans rfl hm) ?_
      | (intro hx)
      | with_reducible refine Keep.ite ?_ ?_
      | split

theorem State.moveAnswered_keep {m : Nat} {s₀ : State} {s : State} {d : Nat} {x : Exec} {u : Sub} {r : TaskResult} (hm : Within 25189315 m) (h : Keep m s₀ s) :
    Keep m s₀ (State.moveAnswered s d x u r) := by
  unfold State.moveAnswered
  iterate 60 try any_goals first
    | with_reducible assumption
    | with_reducible refine State.setExec_keep (Within.trans rfl hm) ?_
    | with_reducible refine State.moveGo_keep (Within.trans rfl hm) ?_
    | with_reducible refine Keep.ite ?_ ?_
    | (intro hx)
    | split

theorem State.forward_keep {m : Nat} {s₀ : State} {s : State} {d : Nat} {t : Task} (hm : Within 8391363 m) (h : Keep m s₀ s) :
    Keep m s₀ (State.forward s d t) := by
  unfold State.forward
  iterate 60 try any_goals first
    | with_reducible assumption
    | with_reducible refine State.endTask_keep (Within.trans rfl hm) ?_
    | with_reducible refine State.issueAccess_keep (Within.trans rfl hm) ?_
    | with_reducible refine State.issued_keep (Within.trans rfl hm) ?_ ?_
    | (intro hx)
    | split

theorem State.rmwGo_keep {m : Nat} {s₀ : State} {s : State} {d : Nat} {t : Task} (hm : Within 8391363 m) (h : Keep m s₀ s) :
    Keep m s₀ (State.rmwGo s d t) := by
  unfold State.rmwGo
  iterate 60 try any_goals first
    | with_reducible assumption
    | with_reducible refine State.taskIssue_keep (Within.trans rfl hm) ?_
    | with_reducible refine State.issued_keep (Within.trans rfl hm) ?_ ?_
    | with_reducible refine State.endTask_keep (Within.trans rfl hm) ?_
    | (intro hx)

theorem State.fenceEnd_keep {m : Nat} {s₀ : State} {s : State} {d : Nat} {t : Task} (hm : Within 64 m) (h : Keep m s₀ s) :
    Keep m s₀ (State.fenceEnd s d t) := by
  unfold State.fenceEnd
  iterate 60 try any_goals first
    | with_reducible assumption
    | with_reducible refine State.endTask_keep (Within.trans rfl hm) ?_
    | with_reducible refine Keep.foldl (fun x a hx => ?_) _ ?_
    | with_reducible refine Keep.ite ?_ ?_
    | (intro hx)
    | split

theorem State.doneEnd_keep {m : Nat} {s₀ : State} {s : State} {d : Nat} {n : Nat} (hm : Within 2113 m) (h : Keep m s₀ s) :
    Keep m s₀ (State.doneEnd s d n) := by
  unfold State.doneEnd
  iterate 60 try any_goals first
    | with_reducible assumption
    | with_reducible refine State.bump_keep (Within.trans rfl hm) ?_
    | with_reducible refine State.endTask_keep (Within.trans rfl hm) ?_

theorem State.sendDones_keep {m : Nat} {s₀ : State} {s : State} {d : Nat} {x : Exec} (hm : Within 8391363 m) (h : Keep m s₀ s) :
    Keep m s₀ (State.sendDones s d x) := by
  unfold State.sendDones
  iterate 60 try any_goals first
    | with_reducible assumption
    | with_reducible refine State.setAgent_keep (Within.trans rfl hm) ?_
    | with_reducible refine State.setExec_keep (Within.trans rfl hm) ?_
    | with_reducible refine State.issueRec_keep (Within.trans rfl hm) ?_
    | with_reducible refine State.doneEnd_keep (Within.trans rfl hm) ?_
    | with_reducible refine Keep.foldl (fun x a hx => ?_) _ ?_
    | (extract_lets +onlyGivenNames y; revert y; intro _)
    | split

theorem State.barrierGo_keep {m : Nat} {s₀ : State} {s : State} {d : Nat} {x : Exec} (hm : Within 8391363 m) (h : Keep m s₀ s) :
    Keep m s₀ (State.barrierGo s d x) := by
  unfold State.barrierGo
  iterate 60 try any_goals first
    | with_reducible assumption
    | with_reducible refine State.endTask_keep (Within.trans rfl hm) ?_
    | with_reducible refine State.setAgent_keep (Within.trans rfl hm) ?_
    | with_reducible refine State.issueAccess_keep (Within.trans rfl hm) ?_
    | with_reducible refine State.flushWhere_keep (Within.trans rfl hm) ?_
    | with_reducible refine State.setExec_keep (Within.trans rfl hm) ?_
    | with_reducible refine State.issued_keep (Within.trans rfl hm) ?_ ?_
    | with_reducible refine State.fenceEnd_keep (Within.trans rfl hm) ?_
    | with_reducible refine State.sendDones_keep (Within.trans rfl hm) ?_
    | with_reducible refine Keep.ite ?_ ?_
    | (intro hx)
    | split

theorem State.dirGo_keep {m : Nat} {s₀ : State} {s : State} {d : Nat} {t : Task} (hm : Within 8391363 m) (h : Keep m s₀ s) :
    Keep m s₀ (State.dirGo s d t) := by
  unfold State.dirGo
  iterate 60 try any_goals first
    | with_reducible assumption
    | with_reducible refine State.endTask_keep (Within.trans rfl hm) ?_
    | with_reducible refine State.taskIssue_keep (Within.trans rfl hm) ?_
    | with_reducible refine State.issued_keep (Within.trans rfl hm) ?_ ?_
    | with_reducible refine Keep.ite ?_ ?_
    | (intro hx)
    | split

theorem State.descGo_keep {m : Nat} {s₀ : State} {s : State} {d : Nat} (hm : Within 25189315 m) (h : Keep m s₀ s) :
    Keep m s₀ (State.descGo s d) := by
  unfold State.descGo
  iterate 60 try any_goals first
    | with_reducible assumption
    | with_reducible refine State.dirGo_keep (Within.trans rfl hm) ?_
    | with_reducible refine State.forward_keep (Within.trans rfl hm) ?_
    | with_reducible refine State.moveGo_keep (Within.trans rfl hm) ?_
    | with_reducible refine State.rmwGo_keep (Within.trans rfl hm) ?_
    | with_reducible refine State.barrierGo_keep (Within.trans rfl hm) ?_
    | with_reducible refine Keep.ite ?_ ?_
    | split

theorem State.wakeAgent_keep {m : Nat} {s₀ : State} {s : State} {k : Nat} (hm : Within 25189315 m) (h : Keep m s₀ s) :
    Keep m s₀ (State.wakeAgent s k) := by
  unfold State.wakeAgent
  iterate 60 try any_goals first
    | with_reducible assumption
    | with_reducible refine State.descGo_keep (Within.trans rfl hm) ?_
    | with_reducible refine Keep.foldl (fun x a hx => ?_) _ ?_
    | split

theorem State.subAnswered_keep {m : Nat} {s₀ : State} {s : State} {d : Nat} {op : Nat} {addr : Nat} {r : TaskResult} (hm : Within 25189315 m) (h : Keep m s₀ s) :
    Keep m s₀ (State.subAnswered s d op addr r) := by
  unfold State.subAnswered
  iterate 60 try any_goals first
    | with_reducible assumption
    | with_reducible refine State.endTask_keep (Within.trans rfl hm) ?_
    | with_reducible refine State.raise_keep (Within.trans rfl hm) ?_
    | with_reducible refine State.setExec_keep (Within.trans rfl hm) ?_
    | with_reducible refine State.doneEnd_keep (Within.trans rfl hm) ?_
    | with_reducible refine State.fenceEnd_keep (Within.trans rfl hm) ?_
    | with_reducible refine State.moveAnswered_keep (Within.trans rfl hm) ?_
    | with_reducible refine Keep.ite ?_ ?_
    | split

end Sys2Proof.Machine
end

