-- ==== Sys2Proof/Laws/KeepDrovers.lean ====
section
/-! SUPPORT. What each operation of Drovers, Opcodes, Drop leaves alone and keeps: its footprint as a mask of units, and that it keeps
the memories canonical, the queue of commands and a recorder key once set (see Laws/Keep.lean). -/

namespace Sys2Proof.Machine

set_option maxRecDepth 4000

theorem State.setRingOpen_keep {m : Nat} {s₀ : State} {s : State} {r : Nat} {l : List (Nat × Bool)} (hm : Within 64 m) (h : Keep m s₀ s) :
    Keep m s₀ (State.setRingOpen s r l) := by
  unfold State.setRingOpen
  iterate 60 try any_goals first
    | with_reducible assumption
    | with_reducible refine Keep.setDrv ?_ (hm.bit 6 rfl)

theorem State.msgDone_keep {m : Nat} {s₀ : State} {s : State} {kind : Nat} {item : Nat} {acked : Bool} (hm : Within 25168371 m) (h : Keep m s₀ s) :
    Keep m s₀ (State.msgDone s kind item acked) := by
  unfold State.msgDone
  iterate 60 try any_goals first
    | with_reducible assumption
    | with_reducible refine State.setSource_keep (Within.trans rfl hm) ?_
    | with_reducible refine State.create_keep (Within.trans rfl hm) ?_
    | with_reducible refine State.setIh_keep (Within.trans rfl hm) ?_
    | with_reducible refine State.rearm_keep (Within.trans rfl hm) ?_
    | with_reducible refine Keep.ite ?_ ?_
    | (intro hx)
    | (extract_lets +onlyGivenNames y; revert y; intro _)
    | split

theorem State.sendMessage_keep {m : Nat} {s₀ : State} {s : State} {d : Nat} {kind : Nat} {item : Nat} (hm : Within 25168883 m) (h : Keep m s₀ s) :
    Keep m s₀ (State.sendMessage s d kind item) := by
  unfold State.sendMessage
  iterate 60 try any_goals first
    | with_reducible assumption
    | with_reducible refine State.raise_keep (Within.trans rfl hm) ?_
    | with_reducible refine State.issue_keep (Within.trans rfl hm) ?_
    | with_reducible refine State.endTask_keep (Within.trans rfl hm) ?_
    | with_reducible refine State.msgDone_keep (Within.trans rfl hm) ?_
    | with_reducible refine Keep.ite ?_ ?_
    | (intro hx)
    | split

theorem State.pollStep_keep {m : Nat} {s₀ : State} {s : State} {d : Nat} {n : Nat} (hm : Within 26691 m) (h : Keep m s₀ s) :
    Keep m s₀ (State.pollStep s d n) := by
  unfold State.pollStep
  iterate 60 try any_goals first
    | with_reducible assumption
    | with_reducible refine State.ddrRead_keep (Within.trans rfl hm) ?_
    | with_reducible refine State.setExec_keep (Within.trans rfl hm) ?_
    | with_reducible refine State.pollFail_keep (Within.trans rfl hm) ?_
    | with_reducible refine State.raise_keep (Within.trans rfl hm) ?_
    | with_reducible refine State.setDrover_keep (Within.trans rfl hm) ?_
    | with_reducible refine State.setSp_keep (Within.trans rfl hm) ?_
    | with_reducible refine State.endTask_keep (Within.trans rfl hm) ?_
    | with_reducible refine Keep.ite ?_ ?_
    | split

theorem State.fieldGo_keep {m : Nat} {s₀ : State} {s : State} {d : Nat} {t : Task} (hm : Within 25193459 m) (h : Keep m s₀ s) :
    Keep m s₀ (State.fieldGo s d t) := by
  unfold State.fieldGo
  iterate 60 try any_goals first
    | with_reducible assumption
    | with_reducible refine State.pollStep_keep (Within.trans rfl hm) ?_
    | with_reducible refine State.sendMessage_keep (Within.trans rfl hm) ?_
    | with_reducible refine Keep.ite ?_ ?_

theorem State.descRefuse_keep {m : Nat} {s₀ : State} {s : State} {d : Nat} {t : Task} (hm : Within 2115 m) (h : Keep m s₀ s) :
    Keep m s₀ (State.descRefuse s d t) := by
  unfold State.descRefuse
  iterate 60 try any_goals first
    | with_reducible assumption
    | with_reducible refine State.bump_keep (Within.trans rfl hm) ?_
    | with_reducible refine State.raise_keep (Within.trans rfl hm) ?_
    | with_reducible refine State.endTask_keep (Within.trans rfl hm) ?_
    | with_reducible refine Keep.ite ?_ ?_

theorem State.safeDesc_keep {m : Nat} {s₀ : State} {s : State} {d : Nat} {t : Task} (hm : Within 195 m) (h : Keep m s₀ s) :
    Keep m s₀ (State.safeDesc s d t) := by
  unfold State.safeDesc
  iterate 60 try any_goals first
    | with_reducible assumption
    | with_reducible refine State.storeUnsent_keep (Within.trans rfl hm) ?_
    | with_reducible refine State.endTask_keep (Within.trans rfl hm) ?_
    | with_reducible refine State.raiseCap_keep (Within.trans rfl hm) ?_
    | with_reducible refine Keep.ite ?_ ?_

theorem State.perform_keep {m : Nat} {s₀ : State} {s : State} {d : Nat} {x : Exec} (hm : Within 25427959 m) (h : Keep m s₀ s) :
    Keep m s₀ (State.perform s d x) := by
  unfold State.perform
  iterate 60 try any_goals first
    | with_reducible assumption
    | with_reducible refine State.setExec_keep (Within.trans rfl hm) ?_
    | with_reducible refine State.fieldGo_keep (Within.trans rfl hm) ?_
    | with_reducible refine State.descGo_keep (Within.trans rfl hm) ?_
    | with_reducible refine State.safeDesc_keep (Within.trans rfl hm) ?_
    | with_reducible refine State.descRefuse_keep (Within.trans rfl hm) ?_
    | with_reducible refine State.homeAccess_keep (Within.trans rfl hm) ?_
    | with_reducible refine Keep.ite ?_ ?_

theorem State.tryGate_keep {m : Nat} {s₀ : State} {s : State} {d : Nat} {x : Exec} (hm : Within 25427959 m) (h : Keep m s₀ s) :
    Keep m s₀ (State.tryGate s d x) := by
  unfold State.tryGate
  iterate 60 try any_goals first
    | with_reducible assumption
    | with_reducible refine State.perform_keep (Within.trans rfl hm) ?_
    | with_reducible refine Keep.ite ?_ ?_

theorem State.begin_keep {m : Nat} {s₀ : State} {s : State} {d : Nat} {t : Task} (hm : Within 25427959 m) (h : Keep m s₀ s) :
    Keep m s₀ (State.begin s d t) := by
  unfold State.begin
  iterate 60 try any_goals first
    | with_reducible assumption
    | with_reducible refine State.raise_keep (Within.trans rfl hm) ?_
    | with_reducible refine State.setDrover_keep (Within.trans rfl hm) ?_
    | with_reducible refine State.dropExec_keep (Within.trans rfl hm) ?_
    | with_reducible refine State.taskBoundary_keep (Within.trans rfl hm) ?_
    | with_reducible refine State.droverFetch_keep (Within.trans rfl hm) ?_
    | with_reducible refine State.tryGate_keep (Within.trans rfl hm) ?_
    | with_reducible refine Keep.ite ?_ ?_
    | (intro hx)
    | split

theorem State.resume_keep {m : Nat} {s₀ : State} {s : State} {d : Nat} {x : Exec} (hm : Within 25427959 m) (h : Keep m s₀ s) :
    Keep m s₀ (State.resume s d x) := by
  unfold State.resume
  iterate 60 try any_goals first
    | with_reducible assumption
    | with_reducible refine State.tryGate_keep (Within.trans rfl hm) ?_
    | with_reducible refine State.descGo_keep (Within.trans rfl hm) ?_
    | with_reducible refine State.homeDone_keep (Within.trans rfl hm) ?_
    | with_reducible refine Keep.ite ?_ ?_

theorem taskRun_keep {m : Nat} {s₀ : State} {drover : Nat} {s : State} (hm : Within 25427959 m) (h : Keep m s₀ s) :
    Keep m s₀ (taskRun drover s) := by
  unfold taskRun
  iterate 60 try any_goals first
    | with_reducible assumption
    | with_reducible refine State.popTask_keep (Within.trans rfl hm) ?_
    | (have hx := State.popTask_keep' (by with_reducible assumption) (Within.trans rfl hm) (by with_reducible assumption); with_reducible exact hx)
    | with_reducible refine State.fire_keep (Within.trans rfl hm) ?_
    | with_reducible refine State.begin_keep (Within.trans rfl hm) ?_
    | with_reducible refine State.resume_keep (Within.trans rfl hm) ?_
    | with_reducible refine Keep.ite ?_ ?_
    | (intro hx)
    | (extract_lets +onlyGivenNames y; refine Keep.use (m := m) (s := s₀) (x := y) ?_ ?_; (focus (unfold y; clear y)); rotate_left; (focus (intro hy; clear_value y; revert y; intro _ _)))
    | (extract_lets +onlyGivenNames y; refine Keep.use (m := m) (s := s₀) (x := y.1) ?_ ?_; (focus (unfold y; clear y)); rotate_left; (focus (intro hy; clear_value y; revert y; intro _ _)))
    | (extract_lets +onlyGivenNames y; refine Keep.use (m := m) (s := s₀) (x := y.2) ?_ ?_; (focus (unfold y; clear y)); rotate_left; (focus (intro hy; clear_value y; revert y; intro _ _)))
    | (extract_lets +onlyGivenNames y; refine Keep.use (m := m) (s := s₀) (x := y.st) ?_ ?_; (focus (unfold y; clear y)); rotate_left; (focus (intro hy; clear_value y; revert y; intro _ _)))
    | (extract_lets +onlyGivenNames y; refine Keep.use (m := m) (s := s₀) (x := y.2.1) ?_ ?_; (focus (unfold y; clear y)); rotate_left; (focus (intro hy; clear_value y; revert y; intro _ _)))
    | (extract_lets +onlyGivenNames y; refine Keep.use (m := m) (s := s₀) (x := y.2.2) ?_ ?_; (focus (unfold y; clear y)); rotate_left; (focus (intro hy; clear_value y; revert y; intro _ _)))
    | (extract_lets +onlyGivenNames y; revert y; intro _)
    | split

theorem State.countSteal_keep {m : Nat} {s₀ : State} {s : State} {thief : Nat} {victim : Nat} (hm : Within 2049 m) (h : Keep m s₀ s) :
    Keep m s₀ (State.countSteal s thief victim) := by
  unfold State.countSteal
  iterate 60 try any_goals first
    | with_reducible assumption
    | with_reducible refine State.bump_keep (Within.trans rfl hm) ?_
    | with_reducible refine Keep.ite ?_ ?_
    | (intro hx)
    | split

theorem State.moveTask_keep {m : Nat} {s₀ : State} {s : State} {thief : Nat} {victim : Nat} {t : Task} (hm : Within 16779715 m) (h : Keep m s₀ s) :
    Keep m s₀ (State.moveTask s thief victim t) := by
  unfold State.moveTask
  iterate 60 try any_goals first
    | with_reducible assumption
    | with_reducible refine State.putTask_keep (Within.trans rfl hm) ?_
    | with_reducible refine State.pullTask_keep (Within.trans rfl hm) ?_
    | with_reducible refine State.events_keep (Within.trans rfl hm) ?_
    | with_reducible refine State.countSteal_keep (Within.trans rfl hm) ?_
    | split

theorem State.takeFrom_keep {m : Nat} {s₀ : State} {s : State} {thief : Nat} {victim : Nat} (hm : Within 25427959 m) (h : Keep m s₀ s) :
    Keep m s₀ (State.takeFrom s thief victim) := by
  unfold State.takeFrom
  iterate 60 try any_goals first
    | with_reducible assumption
    | with_reducible refine State.takeCells_keep (Within.trans rfl hm) ?_
    | with_reducible refine State.pointerCheck_keep (Within.trans rfl hm) ?_
    | with_reducible refine State.pullTask_keep (Within.trans rfl hm) ?_
    | with_reducible refine State.fire_keep (Within.trans rfl hm) ?_
    | with_reducible refine State.events_keep (Within.trans rfl hm) ?_
    | with_reducible refine State.begin_keep (Within.trans rfl hm) ?_
    | with_reducible refine State.countSteal_keep (Within.trans rfl hm) ?_
    | with_reducible refine State.moveTask_keep (Within.trans rfl hm) ?_
    | with_reducible refine Keep.foldl (fun x a hx => ?_) _ ?_
    | (extract_lets +onlyGivenNames y; revert y; intro _)
    | split

theorem State.steal_keep {m : Nat} {s₀ : State} {s : State} {d : Nat} (hm : Within 25427959 m) (h : Keep m s₀ s) :
    Keep m s₀ (State.steal s d) := by
  unfold State.steal
  iterate 60 try any_goals first
    | with_reducible assumption
    | with_reducible refine State.takeFrom_keep (Within.trans rfl hm) ?_
    | with_reducible refine State.setDrover_keep (Within.trans rfl hm) ?_
    | (extract_lets +onlyGivenNames y; revert y; intro _)
    | split

theorem droverSteal_keep {m : Nat} {s₀ : State} {drover : Nat} {s : State} (hm : Within 25427959 m) (h : Keep m s₀ s) :
    Keep m s₀ (droverSteal drover s) := by
  unfold droverSteal
  iterate 60 try any_goals first
    | with_reducible assumption
    | with_reducible refine State.steal_keep (Within.trans rfl hm) ?_
    | with_reducible refine State.setDrover_keep (Within.trans rfl hm) ?_
    | with_reducible refine Keep.ite ?_ ?_

theorem droverSleepEnd_keep {m : Nat} {s₀ : State} {drover : Nat} {s : State} (hm : Within 16780739 m) (h : Keep m s₀ s) :
    Keep m s₀ (droverSleepEnd drover s) := by
  unfold droverSleepEnd
  iterate 60 try any_goals first
    | with_reducible assumption
    | with_reducible refine State.droverDue_keep (Within.trans rfl hm) ?_
    | with_reducible refine Keep.ite ?_ ?_
    | (intro hx)
    | split

theorem State.answerRequest_keep {m : Nat} {s₀ : State} {s : State} {t : Task} {r : TaskResult} (hm : Within 8391169 m) (h : Keep m s₀ s) :
    Keep m s₀ (State.answerRequest s t r) := by
  unfold State.answerRequest
  iterate 60 try any_goals first
    | with_reducible assumption
    | with_reducible refine State.respond_keep (Within.trans rfl hm) ?_
    | with_reducible refine Keep.ite ?_ ?_
    | (intro hx)
    | split

theorem State.completeDesc_keep {m : Nat} {s₀ : State} {s : State} {t : Task} {r : TaskResult} (hm : Within 8424131 m) (h : Keep m s₀ s) :
    Keep m s₀ (State.completeDesc s t r) := by
  unfold State.completeDesc
  iterate 60 try any_goals first
    | with_reducible assumption
    | with_reducible refine State.exception_keep (Within.trans rfl hm) ?_
    | with_reducible refine State.setRingOpen_keep (Within.trans rfl hm) ?_
    | with_reducible refine State.cqPost_keep (Within.trans rfl hm) ?_
    | with_reducible refine Keep.ite ?_ ?_

theorem State.sendResult_keep {m : Nat} {s₀ : State} {s : State} {t : Task} {r : TaskResult} (hm : Within 25209843 m) (h : Keep m s₀ s) :
    Keep m s₀ (State.sendResult s t r) := by
  unfold State.sendResult
  iterate 60 try any_goals first
    | with_reducible assumption
    | with_reducible refine State.pollNext_keep (Within.trans rfl hm) ?_
    | with_reducible refine State.slaveResult_keep (Within.trans rfl hm) ?_
    | with_reducible refine State.msgDone_keep (Within.trans rfl hm) ?_
    | with_reducible refine State.answerRequest_keep (Within.trans rfl hm) ?_
    | with_reducible refine State.completeDesc_keep (Within.trans rfl hm) ?_
    | with_reducible refine Keep.ite ?_ ?_
    | (intro hx)
    | split

theorem State.leaveStile_keep {m : Nat} {s₀ : State} {s : State} {n : Nat} {seq : Nat} {next : Nat} (hm : Within 65 m) (h : Keep m s₀ s) :
    Keep m s₀ (State.leaveStile s n seq next) := by
  unfold State.leaveStile
  iterate 60 try any_goals first
    | with_reducible assumption
    | with_reducible refine State.setStile_keep (Within.trans rfl hm) ?_
    | with_reducible refine State.wr_keep (Within.trans rfl hm) ?_
    | with_reducible refine Keep.ite ?_ ?_

theorem State.drain_keep {m : Nat} {s₀ : State} {a0 : Nat} {a1 : Nat} {a2 : State} (hm : Within 25209843 m) (h : Keep m s₀ a2) :
    Keep m s₀ (State.drain a0 a1 a2) := by
  induction a0 generalizing a1 a2 with
  | zero => unfold State.drain; first | exact h | (split <;> exact h)
  | succ n ih =>
    unfold State.drain
    iterate 60 try any_goals first
      | with_reducible assumption
      | with_reducible refine ih ?_
      | with_reducible refine State.leaveStile_keep (Within.trans rfl hm) ?_
      | with_reducible refine State.setStile_keep (Within.trans rfl hm) ?_
      | with_reducible refine State.sendResult_keep (Within.trans rfl hm) ?_
      | (extract_lets +onlyGivenNames y; revert y; intro _)
      | split

theorem State.passGate_keep {m : Nat} {s₀ : State} {s : State} {t : Task} {r : TaskResult} (hm : Within 25209843 m) (h : Keep m s₀ s) :
    Keep m s₀ (State.passGate s t r) := by
  unfold State.passGate
  iterate 60 try any_goals first
    | with_reducible assumption
    | with_reducible refine State.sendResult_keep (Within.trans rfl hm) ?_
    | with_reducible refine State.drain_keep (Within.trans rfl hm) ?_
    | with_reducible refine State.leaveStile_keep (Within.trans rfl hm) ?_
    | with_reducible refine State.setStile_keep (Within.trans rfl hm) ?_
    | with_reducible refine Keep.ite ?_ ?_

theorem State.resultGo_keep {m : Nat} {s₀ : State} {s : State} {drover : Nat} (hm : Within 25209843 m) (h : Keep m s₀ s) :
    Keep m s₀ (State.resultGo s drover) := by
  unfold State.resultGo
  iterate 60 try any_goals first
    | with_reducible assumption
    | with_reducible refine State.passGate_keep (Within.trans rfl hm) ?_
    | with_reducible refine State.bump_keep (Within.trans rfl hm) ?_
    | with_reducible refine State.handOver_keep (Within.trans rfl hm) ?_
    | with_reducible refine State.drain_keep (Within.trans rfl hm) ?_
    | with_reducible refine Keep.foldl (fun x a hx => ?_) _ ?_
    | split
    | with_reducible refine Keep.setDrv ?_ (hm.bit 6 rfl)

theorem State.gatesPass_keep {m : Nat} {s₀ : State} {s : State} (hm : Within 25427959 m) (h : Keep m s₀ s) :
    Keep m s₀ (State.gatesPass s) := by
  unfold State.gatesPass
  iterate 60 try any_goals first
    | with_reducible assumption
    | with_reducible refine State.tryGate_keep (Within.trans rfl hm) ?_
    | with_reducible refine Keep.foldl (fun x a hx => ?_) _ ?_
    | split

theorem stileResult_keep {m : Nat} {s₀ : State} {drover : Nat} {s : State} (hm : Within 25427959 m) (h : Keep m s₀ s) :
    Keep m s₀ (stileResult drover s) := by
  unfold stileResult
  iterate 60 try any_goals first
    | with_reducible assumption
    | with_reducible refine State.gatesPass_keep (Within.trans rfl hm) ?_
    | with_reducible refine State.resultGo_keep (Within.trans rfl hm) ?_

theorem drvStileSkip_keep {m : Nat} {s₀ : State} {stile : Nat} {s : State} (hm : Within 25427959 m) (h : Keep m s₀ s) :
    Keep m s₀ (drvStileSkip stile s) := by
  unfold drvStileSkip
  iterate 60 try any_goals first
    | with_reducible assumption
    | with_reducible refine State.bump_keep (Within.trans rfl hm) ?_
    | with_reducible refine State.raise_keep (Within.trans rfl hm) ?_
    | with_reducible refine State.gatesPass_keep (Within.trans rfl hm) ?_
    | with_reducible refine State.drain_keep (Within.trans rfl hm) ?_
    | with_reducible refine State.leaveStile_keep (Within.trans rfl hm) ?_
    | with_reducible refine Keep.ite ?_ ?_

theorem drvWdog_keep {m : Nat} {s₀ : State} {drover : Nat} {s : State} (hm : Within 25209811 m) (h : Keep m s₀ s) :
    Keep m s₀ (drvWdog drover s) := by
  unfold drvWdog
  iterate 60 try any_goals first
    | with_reducible assumption
    | with_reducible refine State.revoke_keep (Within.trans rfl hm) ?_
    | with_reducible refine Keep.ite ?_ ?_

theorem drvReloadDone_keep {m : Nat} {s₀ : State} {drover : Nat} {ok : Bool} {s : State} (hm : Within 16780739 m) (h : Keep m s₀ s) :
    Keep m s₀ (drvReloadDone drover ok s) := by
  unfold drvReloadDone
  iterate 60 try any_goals first
    | with_reducible assumption
    | with_reducible refine State.raise_keep (Within.trans rfl hm) ?_
    | with_reducible refine State.loadDrover_keep (Within.trans rfl hm) ?_
    | with_reducible refine State.droverRemove_keep (Within.trans rfl hm) ?_
    | with_reducible refine State.droverDue_keep (Within.trans rfl hm) ?_
    | with_reducible refine Keep.ite ?_ ?_
    | (intro hx)
    | split

theorem State.onTask_keep {m : Nat} {s₀ : State} {s : State} {d : Nat} {want : Task → Bool} {f : Exec → State → State} (hm : Within 0 m) (h : Keep m s₀ s) (h1 : ∀ y0 x, Keep m s₀ x → Keep m s₀ (f y0 x)) :
    Keep m s₀ (State.onTask s d want f) := by
  unfold State.onTask
  iterate 60 try any_goals first
    | with_reducible assumption
    | with_reducible refine h1 _ _ ?_
    | split

theorem State.descRun_keep {m : Nat} {s₀ : State} {s : State} {d : Nat} {op : Nat} {sub : Nat} (hm : Within 25189315 m) (h : Keep m s₀ s) :
    Keep m s₀ (State.descRun s d op sub) := by
  unfold State.descRun
  iterate 60 try any_goals first
    | with_reducible assumption
    | with_reducible refine State.onTask_keep (Within.trans rfl hm) ?_ ?_
    | with_reducible refine State.descGo_keep (Within.trans rfl hm) ?_
    | (intro hx)

theorem State.rmwRun_keep {m : Nat} {s₀ : State} {s : State} {d : Nat} {op : Nat} {sub : Nat} (hm : Within 25230291 m) (h : Keep m s₀ s) :
    Keep m s₀ (State.rmwRun s d op sub) := by
  unfold State.rmwRun
  iterate 60 try any_goals first
    | with_reducible assumption
    | with_reducible refine State.onTask_keep (Within.trans rfl hm) ?_ ?_
    | with_reducible refine State.homeRmw_keep (Within.trans rfl hm) ?_
    | with_reducible refine State.descGo_keep (Within.trans rfl hm) ?_
    | (intro hx)
    | with_reducible refine Keep.ite ?_ ?_

theorem State.fenceRun_keep {m : Nat} {s₀ : State} {s : State} {d : Nat} (hm : Within 25189315 m) (h : Keep m s₀ s) :
    Keep m s₀ (State.fenceRun s d) := by
  unfold State.fenceRun
  iterate 60 try any_goals first
    | with_reducible assumption
    | with_reducible refine State.onTask_keep (Within.trans rfl hm) ?_ ?_
    | with_reducible refine State.endTask_keep (Within.trans rfl hm) ?_
    | with_reducible refine State.descGo_keep (Within.trans rfl hm) ?_
    | (intro hx)
    | with_reducible refine Keep.ite ?_ ?_

theorem State.doneRun_keep {m : Nat} {s₀ : State} {s : State} {d : Nat} (hm : Within 25222083 m) (h : Keep m s₀ s) :
    Keep m s₀ (State.doneRun s d) := by
  unfold State.doneRun
  iterate 60 try any_goals first
    | with_reducible assumption
    | with_reducible refine State.onTask_keep (Within.trans rfl hm) ?_ ?_
    | with_reducible refine State.homeDone_keep (Within.trans rfl hm) ?_
    | with_reducible refine State.descGo_keep (Within.trans rfl hm) ?_
    | (intro hx)
    | with_reducible refine Keep.ite ?_ ?_

theorem doneTimeout_keep {m : Nat} {s₀ : State} {d : Nat} {s : State} (hm : Within 43841 m) (h : Keep m s₀ s) :
    Keep m s₀ (doneTimeout d s) := by
  unfold doneTimeout
  iterate 60 try any_goals first
    | with_reducible assumption
    | with_reducible refine State.endTask_keep (Within.trans rfl hm) ?_
    | with_reducible refine State.bump_keep (Within.trans rfl hm) ?_
    | with_reducible refine State.orphan_keep (Within.trans rfl hm) ?_
    | split

theorem State.phaseWaitRun_keep {m : Nat} {s₀ : State} {s : State} {d : Nat} (hm : Within 25189315 m) (h : Keep m s₀ s) :
    Keep m s₀ (State.phaseWaitRun s d) := by
  unfold State.phaseWaitRun
  iterate 60 try any_goals first
    | with_reducible assumption
    | with_reducible refine State.onTask_keep (Within.trans rfl hm) ?_ ?_
    | with_reducible refine State.descGo_keep (Within.trans rfl hm) ?_
    | with_reducible refine State.endTask_keep (Within.trans rfl hm) ?_
    | (intro hx)
    | with_reducible refine Keep.ite ?_ ?_

theorem State.execHere_keep {m : Nat} {s₀ : State} {s : State} {d : Nat} {op : Nat} {sub : Nat} {f : Exec → State → State} (hm : Within 25189315 m) (h : Keep m s₀ s) (h1 : ∀ y0 x, Keep m s₀ x → Keep m s₀ (f y0 x)) :
    Keep m s₀ (State.execHere s d op sub f) := by
  unfold State.execHere
  iterate 60 try any_goals first
    | with_reducible assumption
    | with_reducible refine h1 _ _ ?_
    | with_reducible refine State.onTask_keep (Within.trans rfl hm) ?_ ?_
    | with_reducible refine State.descGo_keep (Within.trans rfl hm) ?_
    | with_reducible refine State.originRefuse_keep (Within.trans rfl hm) ?_
    | with_reducible refine State.endTask_keep (Within.trans rfl hm) ?_
    | with_reducible refine State.storeUnsent_keep (Within.trans rfl hm) ?_
    | (intro hx)
    | with_reducible refine Keep.ite ?_ ?_
    | split

theorem State.descAddrError_keep {m : Nat} {s₀ : State} {s : State} {d : Nat} {code : Nat} {t : Task} (hm : Within 195 m) (h : Keep m s₀ s) :
    Keep m s₀ (State.descAddrError s d code t) := by
  unfold State.descAddrError
  iterate 60 try any_goals first
    | with_reducible assumption
    | with_reducible refine State.finishDesc_keep (Within.trans rfl hm) ?_
    | with_reducible refine State.noteStore_keep (Within.trans rfl hm) ?_
    | with_reducible refine State.decodeRaise_keep (Within.trans rfl hm) ?_

theorem State.sendRun_keep {m : Nat} {s₀ : State} {s : State} {d : Nat} (hm : Within 25189315 m) (h : Keep m s₀ s) :
    Keep m s₀ (State.sendRun s d) := by
  unfold State.sendRun
  iterate 60 try any_goals first
    | with_reducible assumption
    | with_reducible refine State.execHere_keep (Within.trans rfl hm) ?_ ?_
    | with_reducible refine State.descAddrError_keep (Within.trans rfl hm) ?_
    | with_reducible refine State.finishDesc_keep (Within.trans rfl hm) ?_
    | with_reducible refine State.noteStore_keep (Within.trans rfl hm) ?_
    | with_reducible refine State.moveGo_keep (Within.trans rfl hm) ?_
    | (intro hx)
    | (extract_lets +onlyGivenNames y; revert y; intro _)
    | split

theorem State.recvRun_keep {m : Nat} {s₀ : State} {s : State} {d : Nat} (hm : Within 25189331 m) (h : Keep m s₀ s) :
    Keep m s₀ (State.recvRun s d) := by
  unfold State.recvRun
  iterate 60 try any_goals first
    | with_reducible assumption
    | with_reducible refine State.events_keep (Within.trans rfl hm) ?_
    | with_reducible refine State.servePost_keep (Within.trans rfl hm) ?_
    | with_reducible refine State.finishDesc_keep (Within.trans rfl hm) ?_
    | with_reducible refine State.noteStore_keep (Within.trans rfl hm) ?_
    | with_reducible refine State.handOver_keep (Within.trans rfl hm) ?_
    | with_reducible refine State.moveGo_keep (Within.trans rfl hm) ?_
    | with_reducible refine State.execHere_keep (Within.trans rfl hm) ?_ ?_
    | with_reducible refine State.descAddrError_keep (Within.trans rfl hm) ?_
    | with_reducible refine Keep.ite ?_ ?_
    | (intro hx)
    | split
    | with_reducible refine Keep.setFold ?_ (hm.bit 8 rfl)

theorem recvPostExpiry_keep {m : Nat} {s₀ : State} {post : Nat} {s : State} (hm : Within 320 m) (h : Keep m s₀ s) :
    Keep m s₀ (recvPostExpiry post s) := by
  unfold recvPostExpiry
  iterate 60 try any_goals first
    | with_reducible assumption
    | with_reducible refine State.detachResult_keep (Within.trans rfl hm) ?_
    | split
    | with_reducible refine Keep.setFold ?_ (hm.bit 8 rfl)

theorem State.irqRun_keep {m : Nat} {s₀ : State} {s : State} {d : Nat} (hm : Within 25189363 m) (h : Keep m s₀ s) :
    Keep m s₀ (State.irqRun s d) := by
  unfold State.irqRun
  iterate 60 try any_goals first
    | with_reducible assumption
    | with_reducible refine State.execHere_keep (Within.trans rfl hm) ?_ ?_
    | with_reducible refine State.raiseVector_keep (Within.trans rfl hm) ?_
    | with_reducible refine State.noteStore_keep (Within.trans rfl hm) ?_
    | with_reducible refine State.handOver_keep (Within.trans rfl hm) ?_
    | (intro hx)

theorem State.statusRegRun_keep {m : Nat} {s₀ : State} {s : State} {d : Nat} (hm : Within 25189315 m) (h : Keep m s₀ s) :
    Keep m s₀ (State.statusRegRun s d) := by
  unfold State.statusRegRun
  iterate 60 try any_goals first
    | with_reducible assumption
    | with_reducible refine State.execHere_keep (Within.trans rfl hm) ?_ ?_
    | with_reducible refine State.descAddrError_keep (Within.trans rfl hm) ?_
    | with_reducible refine State.setupRead_keep (Within.trans rfl hm) ?_
    | with_reducible refine State.endTask_keep (Within.trans rfl hm) ?_
    | (intro hx)
    | (extract_lets +onlyGivenNames y; revert y; intro _)
    | split

theorem State.statusNonceRun_keep {m : Nat} {s₀ : State} {s : State} {d : Nat} (hm : Within 25189315 m) (h : Keep m s₀ s) :
    Keep m s₀ (State.statusNonceRun s d) := by
  unfold State.statusNonceRun
  iterate 60 try any_goals first
    | with_reducible assumption
    | with_reducible refine State.execHere_keep (Within.trans rfl hm) ?_ ?_
    | with_reducible refine State.endTask_keep (Within.trans rfl hm) ?_
    | (intro hx)

theorem State.configStageRun_keep {m : Nat} {s₀ : State} {s : State} {d : Nat} (hm : Within 25427959 m) (h : Keep m s₀ s) :
    Keep m s₀ (State.configStageRun s d) := by
  unfold State.configStageRun
  iterate 60 try any_goals first
    | with_reducible assumption
    | with_reducible refine State.execHere_keep (Within.trans rfl hm) ?_ ?_
    | with_reducible refine State.descAddrError_keep (Within.trans rfl hm) ?_
    | with_reducible refine State.setExec_keep (Within.trans rfl hm) ?_
    | with_reducible refine State.setupWrite_keep (Within.trans rfl hm) ?_
    | with_reducible refine State.noteStore_keep (Within.trans rfl hm) ?_
    | with_reducible refine State.storeFailed_keep (Within.trans rfl hm) ?_
    | with_reducible refine State.endTask_keep (Within.trans rfl hm) ?_
    | (intro hx)
    | (extract_lets +onlyGivenNames y; refine Keep.use (m := m) (s := s₀) (x := y) ?_ ?_; (focus (unfold y; clear y)); rotate_left; (focus (intro hy; clear_value y; revert y; intro _ _)))
    | (extract_lets +onlyGivenNames y; revert y; intro _)
    | split

theorem State.commitWait_keep {m : Nat} {s₀ : State} {s : State} {d : Nat} {t : Task} {target : Option Nat} (hm : Within 8391129 m) (h : Keep m s₀ s) :
    Keep m s₀ (State.commitWait s d t target) := by
  unfold State.commitWait
  iterate 60 try any_goals first
    | with_reducible assumption
    | with_reducible refine State.noteStore_keep (Within.trans rfl hm) ?_
    | with_reducible refine State.handOver_keep (Within.trans rfl hm) ?_
    | with_reducible refine Keep.setCommits ?_ (hm.bit 3 rfl)

theorem State.commitNextRun_keep {m : Nat} {s₀ : State} {s : State} {d : Nat} (hm : Within 25189339 m) (h : Keep m s₀ s) :
    Keep m s₀ (State.commitNextRun s d) := by
  unfold State.commitNextRun
  iterate 60 try any_goals first
    | with_reducible assumption
    | with_reducible refine State.execHere_keep (Within.trans rfl hm) ?_ ?_
    | with_reducible refine State.commitWait_keep (Within.trans rfl hm) ?_
    | (intro hx)

theorem State.commitNamedRun_keep {m : Nat} {s₀ : State} {s : State} {d : Nat} (hm : Within 25189339 m) (h : Keep m s₀ s) :
    Keep m s₀ (State.commitNamedRun s d) := by
  unfold State.commitNamedRun
  iterate 60 try any_goals first
    | with_reducible assumption
    | with_reducible refine State.execHere_keep (Within.trans rfl hm) ?_ ?_
    | with_reducible refine State.wr_keep (Within.trans rfl hm) ?_
    | with_reducible refine State.commitWait_keep (Within.trans rfl hm) ?_
    | (intro hx)
    | with_reducible refine Keep.ite ?_ ?_

theorem State.markRun_keep {m : Nat} {s₀ : State} {s : State} {d : Nat} (hm : Within 25189331 m) (h : Keep m s₀ s) :
    Keep m s₀ (State.markRun s d) := by
  unfold State.markRun
  iterate 60 try any_goals first
    | with_reducible assumption
    | with_reducible refine State.execHere_keep (Within.trans rfl hm) ?_ ?_
    | with_reducible refine State.noteStore_keep (Within.trans rfl hm) ?_
    | with_reducible refine State.handOver_keep (Within.trans rfl hm) ?_
    | with_reducible refine State.finishDesc_keep (Within.trans rfl hm) ?_
    | (intro hx)
    | with_reducible refine Keep.ite ?_ ?_
    | with_reducible refine Keep.setTwin ?_ (hm.bit 12 rfl)

theorem State.logReadRun_keep {m : Nat} {s₀ : State} {s : State} {d : Nat} (hm : Within 25189315 m) (h : Keep m s₀ s) :
    Keep m s₀ (State.logReadRun s d) := by
  unfold State.logReadRun
  iterate 60 try any_goals first
    | with_reducible assumption
    | with_reducible refine State.onTask_keep (Within.trans rfl hm) ?_ ?_
    | with_reducible refine State.descGo_keep (Within.trans rfl hm) ?_
    | with_reducible refine State.endTask_keep (Within.trans rfl hm) ?_
    | with_reducible refine State.decodeRaise_keep (Within.trans rfl hm) ?_
    | (intro hx)
    | with_reducible refine Keep.ite ?_ ?_

theorem State.authorised_keep {m : Nat} {s₀ : State} {s : State} {d : Nat} {sub : Nat} {f : Exec → State → State} (hm : Within 25254851 m) (h : Keep m s₀ s) (h1 : ∀ y0 x, Keep m s₀ x → Keep m s₀ (f y0 x)) :
    Keep m s₀ (State.authorised s d sub f) := by
  unfold State.authorised
  iterate 60 try any_goals first
    | with_reducible assumption
    | with_reducible refine h1 _ _ ?_
    | with_reducible refine State.execHere_keep (Within.trans rfl hm) ?_ ?_
    | with_reducible refine State.finishDesc_keep (Within.trans rfl hm) ?_
    | with_reducible refine State.noteStore_keep (Within.trans rfl hm) ?_
    | with_reducible refine State.authFail_keep (Within.trans rfl hm) ?_
    | with_reducible refine State.authOk_keep (Within.trans rfl hm) ?_
    | (intro hx)
    | (extract_lets +onlyGivenNames y; revert y; intro _)
    | split

theorem State.logClearRun_keep {m : Nat} {s₀ : State} {s : State} {d : Nat} (hm : Within 25254867 m) (h : Keep m s₀ s) :
    Keep m s₀ (State.logClearRun s d) := by
  unfold State.logClearRun
  iterate 60 try any_goals first
    | with_reducible assumption
    | with_reducible refine State.authorised_keep (Within.trans rfl hm) ?_ ?_
    | with_reducible refine State.clearBegin_keep (Within.trans rfl hm) ?_
    | with_reducible refine State.handOver_keep (Within.trans rfl hm) ?_
    | (intro hx)
    | with_reducible refine Keep.ite ?_ ?_

theorem State.monUnlockRun_keep {m : Nat} {s₀ : State} {s : State} {d : Nat} (hm : Within 25254851 m) (h : Keep m s₀ s) :
    Keep m s₀ (State.monUnlockRun s d) := by
  unfold State.monUnlockRun
  iterate 60 try any_goals first
    | with_reducible assumption
    | with_reducible refine State.authorised_keep (Within.trans rfl hm) ?_ ?_
    | with_reducible refine State.raise_keep (Within.trans rfl hm) ?_
    | with_reducible refine State.wr_keep (Within.trans rfl hm) ?_
    | with_reducible refine State.endTask_keep (Within.trans rfl hm) ?_
    | (intro hx)

theorem State.logResetRun_keep {m : Nat} {s₀ : State} {s : State} {d : Nat} (hm : Within 25254855 m) (h : Keep m s₀ s) :
    Keep m s₀ (State.logResetRun s d) := by
  unfold State.logResetRun
  iterate 60 try any_goals first
    | with_reducible assumption
    | with_reducible refine State.authorised_keep (Within.trans rfl hm) ?_ ?_
    | with_reducible refine State.raise_keep (Within.trans rfl hm) ?_
    | with_reducible refine State.endTask_keep (Within.trans rfl hm) ?_
    | (intro hx)
    | with_reducible refine Keep.setBoot ?_ (hm.bit 2 rfl) (fun hx => ⟨hx, rfl⟩)

theorem State.dropRefuse_keep {m : Nat} {s₀ : State} {s : State} {t : Task} (hm : Within 8391299 m) (h : Keep m s₀ s) :
    Keep m s₀ (State.dropRefuse s t) := by
  unfold State.dropRefuse
  iterate 60 try any_goals first
    | with_reducible assumption
    | with_reducible refine State.raiseCap_keep (Within.trans rfl hm) ?_
    | with_reducible refine State.storeFailed_keep (Within.trans rfl hm) ?_
    | with_reducible refine State.answerRequest_keep (Within.trans rfl hm) ?_
    | with_reducible refine Keep.ite ?_ ?_

theorem ringRequestDrop_keep {m : Nat} {s₀ : State} {queue : Nat} {s : State} (hm : Within 25169859 m) (h : Keep m s₀ s) :
    Keep m s₀ (ringRequestDrop queue s) := by
  unfold ringRequestDrop
  iterate 60 try any_goals first
    | with_reducible assumption
    | with_reducible refine State.withTaken_keep (Within.trans rfl hm) ?_ ?_
    | with_reducible refine State.dropRefuse_keep (Within.trans rfl hm) ?_
    | with_reducible refine State.takeIn_keep (Within.trans rfl hm) ?_
    | (intro hx)
    | with_reducible refine Keep.ite ?_ ?_

theorem descFwdRx_keep {m : Nat} {s₀ : State} {queue : Nat} {s : State} (hm : Within 25169859 m) (h : Keep m s₀ s) :
    Keep m s₀ (descFwdRx queue s) := by
  unfold descFwdRx
  iterate 60 try any_goals first
    | with_reducible assumption
    | with_reducible refine State.withTaken_keep (Within.trans rfl hm) ?_ ?_
    | with_reducible refine State.dropRefuse_keep (Within.trans rfl hm) ?_
    | with_reducible refine State.takeIn_keep (Within.trans rfl hm) ?_
    | (intro hx)
    | with_reducible refine Keep.ite ?_ ?_

theorem State.onHead_keep {m : Nat} {s₀ : State} {s : State} {d : Nat} {f : Nat → HeadOp → Task → State → State} (hm : Within 0 m) (h : Keep m s₀ s) (h1 : ∀ y0 y1 y2 x, Keep m s₀ x → Keep m s₀ (f y0 y1 y2 x)) :
    Keep m s₀ (State.onHead s d f) := by
  unfold State.onHead
  iterate 60 try any_goals first
    | with_reducible assumption
    | with_reducible refine h1 _ _ _ _ ?_
    | with_reducible refine Keep.ite ?_ ?_
    | split

theorem foldHeadRead_keep {m : Nat} {s₀ : State} {drover : Nat} {s : State} (hm : Within 25172931 m) (h : Keep m s₀ s) :
    Keep m s₀ (foldHeadRead drover s) := by
  unfold foldHeadRead
  iterate 60 try any_goals first
    | with_reducible assumption
    | with_reducible refine State.onHead_keep (Within.trans rfl hm) ?_ ?_
    | with_reducible refine State.popEntries_keep (Within.trans rfl hm) ?_
    | with_reducible refine State.fire_keep (Within.trans rfl hm) ?_
    | with_reducible refine State.finishTask_keep (Within.trans rfl hm) ?_
    | (intro hx)
    | with_reducible refine Keep.ite ?_ ?_
    | split

theorem foldHeadWrite_keep {m : Nat} {s₀ : State} {drover : Nat} {s : State} (hm : Within 25172931 m) (h : Keep m s₀ s) :
    Keep m s₀ (foldHeadWrite drover s) := by
  unfold foldHeadWrite
  iterate 60 try any_goals first
    | with_reducible assumption
    | with_reducible refine State.onHead_keep (Within.trans rfl hm) ?_ ?_
    | with_reducible refine State.setExec_keep (Within.trans rfl hm) ?_
    | with_reducible refine State.headPush_keep (Within.trans rfl hm) ?_
    | with_reducible refine State.finishTask_keep (Within.trans rfl hm) ?_
    | (intro hx)
    | with_reducible refine Keep.ite ?_ ?_
    | split

theorem foldHeadCount_keep {m : Nat} {s₀ : State} {drover : Nat} {s : State} (hm : Within 192 m) (h : Keep m s₀ s) :
    Keep m s₀ (foldHeadCount drover s) := by
  unfold foldHeadCount
  iterate 60 try any_goals first
    | with_reducible assumption
    | with_reducible refine State.onHead_keep (Within.trans rfl hm) ?_ ?_
    | with_reducible refine State.finishTask_keep (Within.trans rfl hm) ?_
    | (intro hx)
    | split

end Sys2Proof.Machine
end

