-- ==== Sys2Proof/Laws/KeepHost.lean ====
section
/-! SUPPORT. What each operation of HostIn, NetDone, HostPort leaves alone and keeps: its footprint as a mask of units, and that it keeps
the memories canonical, the queue of commands and a recorder key once set (see Laws/Keep.lean). -/

namespace Sys2Proof.Machine

set_option maxRecDepth 4000

theorem State.setFetches_keep {m : Nat} {s₀ : State} {s : State} {ring : Nat} {l : List FetchRec} (hm : Within 32768 m) (h : Keep m s₀ s) :
    Keep m s₀ (State.setFetches s ring l) := by
  unfold State.setFetches
  iterate 60 try any_goals first
    | with_reducible assumption
    | with_reducible refine Keep.setHost ?_ (hm.bit 15 rfl)

theorem State.doorbellAnswered_keep {m : Nat} {s₀ : State} {s : State} {addr : Nat} {status : Nat} {data : List Byte} (hm : Within 32768 m) (h : Keep m s₀ s) :
    Keep m s₀ (State.doorbellAnswered s addr status data) := by
  unfold State.doorbellAnswered
  iterate 60 try any_goals first
    | with_reducible assumption
    | with_reducible refine Keep.setHost ?_ (hm.bit 15 rfl)

theorem State.fetchAnswered_keep {m : Nat} {s₀ : State} {s : State} {ring : Nat} {addr : Nat} {status : Nat} {data : List Byte} (hm : Within 32768 m) (h : Keep m s₀ s) :
    Keep m s₀ (State.fetchAnswered s ring addr status data) := by
  unfold State.fetchAnswered
  iterate 60 try any_goals first
    | with_reducible assumption
    | with_reducible refine State.setFetches_keep (Within.trans rfl hm) ?_
    | split

theorem State.setTlps_keep {m : Nat} {s₀ : State} {s : State} {l : List BarTlp} (hm : Within 32768 m) (h : Keep m s₀ s) :
    Keep m s₀ (State.setTlps s l) := by
  unfold State.setTlps
  iterate 60 try any_goals first
    | with_reducible assumption
    | with_reducible refine Keep.ite ?_ ?_
    | with_reducible refine Keep.setHost ?_ (hm.bit 15 rfl)

theorem State.putTlp_keep {m : Nat} {s₀ : State} {s : State} {t : BarTlp} (hm : Within 32768 m) (h : Keep m s₀ s) :
    Keep m s₀ (State.putTlp s t) := by
  unfold State.putTlp
  iterate 60 try any_goals first
    | with_reducible assumption
    | with_reducible refine State.setTlps_keep (Within.trans rfl hm) ?_

theorem State.answerTlp_keep {m : Nat} {s₀ : State} {s : State} {t : BarTlp} (hm : Within 8388608 m) (h : Keep m s₀ s) :
    Keep m s₀ (State.answerTlp s t) := by
  unfold State.answerTlp
  iterate 60 try any_goals first
    | with_reducible assumption
    | with_reducible refine State.emit_keep (Within.trans rfl hm) ?_
    | with_reducible refine Keep.foldl (fun x a hx => ?_) _ ?_
    | with_reducible refine Keep.ite ?_ ?_

theorem State.barEnded_keep {m : Nat} {s₀ : State} {s : State} {id : Nat} {addr : Nat} {len : Nat} {status : Nat} {bytesDone : Nat} {payload : List Byte} (hm : Within 8423555 m) (h : Keep m s₀ s) :
    Keep m s₀ (State.barEnded s id addr len status bytesDone payload) := by
  unfold State.barEnded
  iterate 60 try any_goals first
    | with_reducible assumption
    | with_reducible refine State.exception_keep (Within.trans rfl hm) ?_
    | with_reducible refine State.raise_keep (Within.trans rfl hm) ?_
    | with_reducible refine State.bumpN_keep (Within.trans rfl hm) ?_
    | with_reducible refine State.answerTlp_keep (Within.trans rfl hm) ?_
    | with_reducible refine State.setTlps_keep (Within.trans rfl hm) ?_
    | with_reducible refine State.putTlp_keep (Within.trans rfl hm) ?_
    | with_reducible refine Keep.ite ?_ ?_
    | split

theorem State.barGo_keep {m : Nat} {s₀ : State} {a0 : Nat} {a1 : State} (hm : Within 8424131 m) (h : Keep m s₀ a1) :
    Keep m s₀ (State.barGo a0 a1) := by
  induction a0 generalizing a1 with
  | zero => unfold State.barGo; first | exact h | (split <;> exact h)
  | succ n ih =>
    unfold State.barGo
    iterate 60 try any_goals first
      | with_reducible assumption
      | with_reducible refine ih ?_
      | with_reducible refine State.issueOp_keep (Within.trans rfl hm) ?_
      | with_reducible refine State.putTlp_keep (Within.trans rfl hm) ?_
      | with_reducible refine State.barEnded_keep (Within.trans rfl hm) ?_
      | with_reducible refine Keep.ite ?_ ?_
      | split

theorem State.pumpBar_keep {m : Nat} {s₀ : State} {s : State} (hm : Within 8424131 m) (h : Keep m s₀ s) :
    Keep m s₀ (State.pumpBar s) := by
  unfold State.pumpBar
  iterate 60 try any_goals first
    | with_reducible assumption
    | with_reducible refine State.barGo_keep (Within.trans rfl hm) ?_

theorem State.closeTag_keep {m : Nat} {s₀ : State} {s : State} {t : Nat} (hm : Within 8391233 m) (h : Keep m s₀ s) :
    Keep m s₀ (State.closeTag s t) := by
  unfold State.closeTag
  iterate 60 try any_goals first
    | with_reducible assumption
    | with_reducible refine State.freeTag_keep (Within.trans rfl hm) ?_
    | with_reducible refine State.wr_keep (Within.trans rfl hm) ?_

theorem State.tagOutcome_keep {m : Nat} {s₀ : State} {s : State} {r : TagRec} {x : TaskResult} (hm : Within 25222131 m) (h : Keep m s₀ s) :
    Keep m s₀ (State.tagOutcome s r x) := by
  unfold State.tagOutcome
  iterate 60 try any_goals first
    | with_reducible assumption
    | with_reducible refine State.ringAnswered_keep (Within.trans rfl hm) ?_
    | with_reducible refine State.subAnswered_keep (Within.trans rfl hm) ?_
    | with_reducible refine State.msgDone_keep (Within.trans rfl hm) ?_
    | with_reducible refine State.doorbellAnswered_keep (Within.trans rfl hm) ?_
    | with_reducible refine State.fetchAnswered_keep (Within.trans rfl hm) ?_
    | with_reducible refine State.barEnded_keep (Within.trans rfl hm) ?_
    | split
    | with_reducible refine Keep.setOrd ?_ (hm.bit 7 rfl)

theorem State.wakeKey_keep {m : Nat} {s₀ : State} {s : State} {k : Nat} (hm : Within 25222083 m) (h : Keep m s₀ s) :
    Keep m s₀ (State.wakeKey s k) := by
  unfold State.wakeKey
  iterate 60 try any_goals first
    | with_reducible assumption
    | with_reducible refine State.wakeAgent_keep (Within.trans rfl hm) ?_
    | with_reducible refine State.pumpBar_keep (Within.trans rfl hm) ?_
    | with_reducible refine Keep.ite ?_ ?_

theorem State.delivered_keep {m : Nat} {s₀ : State} {s : State} {t : Nat} {r : TagRec} (hm : Within 8391233 m) (h : Keep m s₀ s) :
    Keep m s₀ (State.delivered s t r) := by
  unfold State.delivered
  iterate 60 try any_goals first
    | with_reducible assumption
    | with_reducible refine State.setTag_keep (Within.trans rfl hm) ?_
    | with_reducible refine State.closeTag_keep (Within.trans rfl hm) ?_
    | with_reducible refine Keep.ite ?_ ?_

theorem State.deliver_keep {m : Nat} {s₀ : State} {a0 : Nat} {a1 : Nat} {a2 : State} (hm : Within 25222131 m) (h : Keep m s₀ a2) :
    Keep m s₀ (State.deliver a0 a1 a2) := by
  induction a0 generalizing a1 a2 with
  | zero => unfold State.deliver; first | exact h | (split <;> exact h)
  | succ n ih =>
    unfold State.deliver
    iterate 60 try any_goals first
      | with_reducible assumption
      | with_reducible refine ih ?_
      | with_reducible refine State.setAgent_keep (Within.trans rfl hm) ?_
      | with_reducible refine State.wakeKey_keep (Within.trans rfl hm) ?_
      | with_reducible refine State.tagOutcome_keep (Within.trans rfl hm) ?_
      | with_reducible refine State.delivered_keep (Within.trans rfl hm) ?_
      | (extract_lets +onlyGivenNames y; revert y; intro _)
      | split

theorem State.tagAnswer_keep {m : Nat} {s₀ : State} {s : State} {t : Nat} {r : TagRec} {x : TaskResult} (hm : Within 25222131 m) (h : Keep m s₀ s) :
    Keep m s₀ (State.tagAnswer s t r x) := by
  unfold State.tagAnswer
  iterate 60 try any_goals first
    | with_reducible assumption
    | with_reducible refine State.setTag_keep (Within.trans rfl hm) ?_
    | with_reducible refine State.answered_keep (Within.trans rfl hm) ?_
    | with_reducible refine State.deliver_keep (Within.trans rfl hm) ?_
    | with_reducible refine State.tagOutcome_keep (Within.trans rfl hm) ?_
    | with_reducible refine State.delivered_keep (Within.trans rfl hm) ?_
    | split

theorem State.secondCopy_keep {m : Nat} {s₀ : State} {s : State} {t : Nat} (hm : Within 8391233 m) (h : Keep m s₀ s) :
    Keep m s₀ (State.secondCopy s t) := by
  unfold State.secondCopy
  iterate 60 try any_goals first
    | with_reducible assumption
    | with_reducible refine State.closeTag_keep (Within.trans rfl hm) ?_
    | with_reducible refine State.setTag_keep (Within.trans rfl hm) ?_
    | split

theorem State.answerRx_keep {m : Nat} {s₀ : State} {s : State} {p0 : Packet} {x : TaskResult} (hm : Within 25222131 m) (h : Keep m s₀ s) :
    Keep m s₀ (State.answerRx s p0 x) := by
  unfold State.answerRx
  iterate 60 try any_goals first
    | with_reducible assumption
    | with_reducible refine State.bump_keep (Within.trans rfl hm) ?_
    | with_reducible refine State.tagAnswer_keep (Within.trans rfl hm) ?_
    | split

theorem State.stripped_keep {m : Nat} {s₀ : State} {s : State} {side : Nat} {p0 : Packet} (hm : Within 25222131 m) (h : Keep m s₀ s) :
    Keep m s₀ (State.stripped s side p0) := by
  unfold State.stripped
  iterate 60 try any_goals first
    | with_reducible assumption
    | with_reducible refine State.bump_keep (Within.trans rfl hm) ?_
    | with_reducible refine State.secondCopy_keep (Within.trans rfl hm) ?_
    | with_reducible refine State.tagAnswer_keep (Within.trans rfl hm) ?_
    | with_reducible refine State.takenPush_keep (Within.trans rfl hm) ?_
    | with_reducible refine Keep.ite ?_ ?_
    | split

theorem State.packetBad_keep {m : Nat} {s₀ : State} {s : State} {p0 : Packet} (hm : Within 2051 m) (h : Keep m s₀ s) :
    Keep m s₀ (State.packetBad s p0) := by
  unfold State.packetBad
  iterate 60 try any_goals first
    | with_reducible assumption
    | with_reducible refine State.bump_keep (Within.trans rfl hm) ?_
    | with_reducible refine State.raise_keep (Within.trans rfl hm) ?_

theorem State.dupCheck_keep {m : Nat} {s₀ : State} {s : State} {p : Packet} (hm : Within 8391233 m) (h : Keep m s₀ s) :
    Keep m s₀ (State.dupCheck s p).2 := by
  unfold State.dupCheck
  iterate 60 try any_goals first
    | with_reducible assumption
    | with_reducible refine State.bump_keep (Within.trans rfl hm) ?_
    | with_reducible refine State.secondCopy_keep (Within.trans rfl hm) ?_
    | with_reducible refine Keep.ite ?_ ?_
    | (intro hx)
    | (extract_lets +onlyGivenNames y; revert y; intro _)
    | split
    | with_reducible refine Keep.setNet ?_ (hm.bit 9 rfl)

theorem State.checkTake_keep {m : Nat} {s₀ : State} {s : State} {side : Nat} {p : Packet} (hm : Within 2563 m) (h : Keep m s₀ s) :
    Keep m s₀ (State.checkTake s side p) := by
  unfold State.checkTake
  iterate 60 try any_goals first
    | with_reducible assumption
    | with_reducible refine State.takenPush_keep (Within.trans rfl hm) ?_
    | with_reducible refine State.packetBad_keep (Within.trans rfl hm) ?_
    | with_reducible refine Keep.ite ?_ ?_
    | (intro hx)
    | split

theorem State.broadcastTake_keep {m : Nat} {s₀ : State} {s : State} {side : Nat} {p : Packet} (hm : Within 8391235 m) (h : Keep m s₀ s) :
    Keep m s₀ (State.broadcastTake s side p) := by
  unfold State.broadcastTake
  iterate 60 try any_goals first
    | with_reducible assumption
    | with_reducible refine State.bump_keep (Within.trans rfl hm) ?_
    | with_reducible refine State.takenPush_keep (Within.trans rfl hm) ?_
    | with_reducible refine State.sendOn_keep (Within.trans rfl hm) ?_
    | with_reducible refine State.packetBad_keep (Within.trans rfl hm) ?_
    | with_reducible refine State.dupCheck_keep (Within.trans rfl hm) ?_
    | with_reducible refine Keep.ite ?_ ?_
    | (intro hx)
    | split

theorem State.dropTake_keep {m : Nat} {s₀ : State} {s : State} {side : Nat} {x : RxPkt} (hm : Within 8391235 m) (h : Keep m s₀ s) :
    Keep m s₀ (State.dropTake s side x) := by
  unfold State.dropTake
  iterate 60 try any_goals first
    | with_reducible assumption
    | with_reducible refine State.freeUnits_keep (Within.trans rfl hm) ?_
    | with_reducible refine State.packetBad_keep (Within.trans rfl hm) ?_
    | with_reducible refine State.dupCheck_keep (Within.trans rfl hm) ?_
    | with_reducible refine Keep.ite ?_ ?_
    | with_reducible refine Keep.setNet ?_ (hm.bit 9 rfl)

theorem packetRx_keep {m : Nat} {s₀ : State} {side : Nat} {s : State} (hm : Within 25222131 m) (h : Keep m s₀ s) :
    Keep m s₀ (packetRx side s) := by
  unfold packetRx
  iterate 60 try any_goals first
    | with_reducible assumption
    | with_reducible refine State.bump_keep (Within.trans rfl hm) ?_
    | with_reducible refine State.freeUnits_keep (Within.trans rfl hm) ?_
    | with_reducible refine State.sendRingFrom_keep (Within.trans rfl hm) ?_
    | with_reducible refine State.stripped_keep (Within.trans rfl hm) ?_
    | with_reducible refine State.checkTake_keep (Within.trans rfl hm) ?_
    | with_reducible refine State.broadcastTake_keep (Within.trans rfl hm) ?_
    | with_reducible refine State.dropTake_keep (Within.trans rfl hm) ?_
    | with_reducible refine Keep.ite ?_ ?_
    | (intro hx)
    | split
    | with_reducible refine Keep.setNet ?_ (hm.bit 9 rfl)

theorem dropAdmit_keep {m : Nat} {s₀ : State} {side : Nat} {s : State} (hm : Within 2561 m) (h : Keep m s₀ s) :
    Keep m s₀ (dropAdmit side s) := by
  unfold dropAdmit
  iterate 60 try any_goals first
    | with_reducible assumption
    | with_reducible refine State.bump_keep (Within.trans rfl hm) ?_
    | with_reducible refine State.takenPush_keep (Within.trans rfl hm) ?_
    | with_reducible refine State.freeUnits_keep (Within.trans rfl hm) ?_
    | split
    | with_reducible refine Keep.setNet ?_ (hm.bit 9 rfl)

theorem netDropStall_keep {m : Nat} {s₀ : State} {side : Nat} {s : State} (hm : Within 2563 m) (h : Keep m s₀ s) :
    Keep m s₀ (netDropStall side s) := by
  unfold netDropStall
  iterate 60 try any_goals first
    | with_reducible assumption
    | with_reducible refine State.bump_keep (Within.trans rfl hm) ?_
    | with_reducible refine State.raise_keep (Within.trans rfl hm) ?_
    | split
    | with_reducible refine Keep.setNet ?_ (hm.bit 9 rfl)

theorem responseRx_keep {m : Nat} {s₀ : State} {queue : Nat} {s : State} (hm : Within 25222131 m) (h : Keep m s₀ s) :
    Keep m s₀ (responseRx queue s) := by
  unfold responseRx
  iterate 60 try any_goals first
    | with_reducible assumption
    | with_reducible refine State.withTaken_keep (Within.trans rfl hm) ?_ ?_
    | with_reducible refine State.answerRx_keep (Within.trans rfl hm) ?_
    | (intro hx)

theorem intAckRx_keep {m : Nat} {s₀ : State} {queue : Nat} {s : State} (hm : Within 25222131 m) (h : Keep m s₀ s) :
    Keep m s₀ (intAckRx queue s) := by
  unfold intAckRx
  iterate 60 try any_goals first
    | with_reducible assumption
    | with_reducible refine State.withTaken_keep (Within.trans rfl hm) ?_ ?_
    | with_reducible refine State.answerRx_keep (Within.trans rfl hm) ?_
    | (intro hx)

theorem netTagTo_keep {m : Nat} {s₀ : State} {tag : Nat} {s : State} (hm : Within 25222131 m) (h : Keep m s₀ s) :
    Keep m s₀ (netTagTo tag s) := by
  unfold netTagTo
  iterate 60 try any_goals first
    | with_reducible assumption
    | with_reducible refine State.bump_keep (Within.trans rfl hm) ?_
    | with_reducible refine State.raise_keep (Within.trans rfl hm) ?_
    | with_reducible refine State.wr_keep (Within.trans rfl hm) ?_
    | with_reducible refine State.storeUnsent_keep (Within.trans rfl hm) ?_
    | with_reducible refine State.tagAnswer_keep (Within.trans rfl hm) ?_
    | split

theorem tagQuarantineEnd_keep {m : Nat} {s₀ : State} {tag : Nat} {s : State} (hm : Within 8391233 m) (h : Keep m s₀ s) :
    Keep m s₀ (tagQuarantineEnd tag s) := by
  unfold tagQuarantineEnd
  iterate 60 try any_goals first
    | with_reducible assumption
    | with_reducible refine State.freeTag_keep (Within.trans rfl hm) ?_
    | split

theorem dupEntryExpire_keep {m : Nat} {s₀ : State} {src : Nat} {tag : Nat} {kind : Nat} {s : State} (hm : Within 8391233 m) (h : Keep m s₀ s) :
    Keep m s₀ (dupEntryExpire src tag kind s) := by
  unfold dupEntryExpire
  iterate 60 try any_goals first
    | with_reducible assumption
    | with_reducible refine State.secondCopy_keep (Within.trans rfl hm) ?_
    | split
    | with_reducible refine Keep.setNet ?_ (hm.bit 9 rfl)

theorem interruptRx_keep {m : Nat} {s₀ : State} {queue : Nat} {s : State} (hm : Within 8424003 m) (h : Keep m s₀ s) :
    Keep m s₀ (interruptRx queue s) := by
  unfold interruptRx
  iterate 60 try any_goals first
    | with_reducible assumption
    | with_reducible refine State.withTaken_keep (Within.trans rfl hm) ?_ ?_
    | with_reducible refine State.cqPost_keep (Within.trans rfl hm) ?_
    | (intro hx)
    | with_reducible refine Keep.ite ?_ ?_

theorem vectorRx_keep {m : Nat} {s₀ : State} {queue : Nat} {s : State} (hm : Within 8395489 m) (h : Keep m s₀ s) :
    Keep m s₀ (vectorRx queue s) := by
  unfold vectorRx
  iterate 60 try any_goals first
    | with_reducible assumption
    | with_reducible refine State.withTaken_keep (Within.trans rfl hm) ?_ ?_
    | with_reducible refine State.raiseVector_keep (Within.trans rfl hm) ?_
    | (intro hx)

theorem State.applyBroadcast_keep {m : Nat} {s₀ : State} {s : State} {p0 : Packet} (hm : Within 25427959 m) (h : Keep m s₀ s) :
    Keep m s₀ (State.applyBroadcast s p0) := by
  unfold State.applyBroadcast
  iterate 60 try any_goals first
    | with_reducible assumption
    | with_reducible refine State.setupWrite_keep (Within.trans rfl hm) ?_
    | with_reducible refine Keep.ite ?_ ?_

theorem broadcastRx_keep {m : Nat} {s₀ : State} {queue : Nat} {s : State} (hm : Within 25427959 m) (h : Keep m s₀ s) :
    Keep m s₀ (broadcastRx queue s) := by
  unfold broadcastRx
  iterate 60 try any_goals first
    | with_reducible assumption
    | with_reducible refine State.withTaken_keep (Within.trans rfl hm) ?_ ?_
    | with_reducible refine State.sendOn_keep (Within.trans rfl hm) ?_
    | with_reducible refine State.applyBroadcast_keep (Within.trans rfl hm) ?_
    | (intro hx)
    | with_reducible refine Keep.ite ?_ ?_

theorem doorbellGot_keep {m : Nat} {s₀ : State} {a : Nat} {r : Option Nat × State} (hm : Within 32768 m) (h : Keep m s₀ r.2) :
    Keep m s₀ (doorbellGot a r) := by
  unfold doorbellGot
  iterate 60 try any_goals first
    | with_reducible assumption
    | with_reducible refine State.doorbellAnswered_keep (Within.trans rfl hm) ?_
    | split

theorem State.doorbellRead_keep {m : Nat} {s₀ : State} {s : State} {a : Nat} (hm : Within 8424003 m) (h : Keep m s₀ s) :
    Keep m s₀ (State.doorbellRead s a) := by
  unfold State.doorbellRead
  iterate 60 try any_goals first
    | with_reducible assumption
    | with_reducible refine doorbellGot_keep (Within.trans rfl hm) ?_
    | with_reducible refine State.ownRequest_keep (Within.trans rfl hm) ?_

theorem State.pollBegins_keep {m : Nat} {s₀ : State} {s : State} (hm : Within 34817 m) (h : Keep m s₀ s) :
    Keep m s₀ (State.pollBegins s) := by
  unfold State.pollBegins
  iterate 60 try any_goals first
    | with_reducible assumption
    | with_reducible refine State.bump_keep (Within.trans rfl hm) ?_
    | with_reducible refine Keep.setHost ?_ (hm.bit 15 rfl)

theorem doorbellPoll_keep {m : Nat} {s₀ : State} {s : State} (hm : Within 8424003 m) (h : Keep m s₀ s) :
    Keep m s₀ (doorbellPoll s) := by
  unfold doorbellPoll
  iterate 60 try any_goals first
    | with_reducible assumption
    | with_reducible refine State.doorbellRead_keep (Within.trans rfl hm) ?_
    | with_reducible refine State.pollBegins_keep (Within.trans rfl hm) ?_
    | with_reducible refine Keep.foldl (fun x a hx => ?_) _ ?_
    | with_reducible refine Keep.ite ?_ ?_

theorem State.pollSlower_keep {m : Nat} {s₀ : State} {s : State} (hm : Within 1 m) (h : Keep m s₀ s) :
    Keep m s₀ (State.pollSlower s) := by
  unfold State.pollSlower
  iterate 60 try any_goals first
    | with_reducible assumption
    | with_reducible refine State.wr_keep (Within.trans rfl hm) ?_

theorem State.ringRestart_keep {m : Nat} {s₀ : State} {s : State} {n : Nat} {gen : Nat} {pi : Nat} (hm : Within 8424003 m) (h : Keep m s₀ s) :
    Keep m s₀ (State.ringRestart s n gen pi) := by
  unfold State.ringRestart
  iterate 60 try any_goals first
    | with_reducible assumption
    | with_reducible refine State.wr_keep (Within.trans rfl hm) ?_
    | with_reducible refine State.shadowRing_keep (Within.trans rfl hm) ?_
    | with_reducible refine State.setFetches_keep (Within.trans rfl hm) ?_

theorem State.ringStop_keep {m : Nat} {s₀ : State} {s : State} {n : Nat} (hm : Within 8391235 m) (h : Keep m s₀ s) :
    Keep m s₀ (State.ringStop s n) := by
  unfold State.ringStop
  iterate 60 try any_goals first
    | with_reducible assumption
    | with_reducible refine State.shadowRing_keep (Within.trans rfl hm) ?_
    | with_reducible refine State.wr_keep (Within.trans rfl hm) ?_

theorem State.ringPolled_keep {m : Nat} {s₀ : State} {s : State} {n : Nat} (hm : Within 8424003 m) (h : Keep m s₀ s) :
    Keep m s₀ (State.ringPolled s n).1 := by
  unfold State.ringPolled
  iterate 60 try any_goals first
    | with_reducible assumption
    | with_reducible refine State.ringRestart_keep (Within.trans rfl hm) ?_
    | with_reducible refine State.ringStop_keep (Within.trans rfl hm) ?_
    | with_reducible refine State.raise_keep (Within.trans rfl hm) ?_
    | (extract_lets +onlyGivenNames y; revert y; intro _)
    | split

theorem fetchSent_keep {m : Nat} {s₀ : State} {n : Nat} {i : Nat} {m0 : Nat} {a : Nat} {r : Option Nat × State} (hm : Within 32768 m) (h : Keep m s₀ r.2) :
    Keep m s₀ (fetchSent n i m0 a r) := by
  unfold fetchSent
  iterate 60 try any_goals first
    | with_reducible assumption
    | with_reducible refine State.setFetches_keep (Within.trans rfl hm) ?_

theorem State.fetchRead_keep {m : Nat} {s₀ : State} {s : State} {n : Nat} {i : Nat} {m0 : Nat} {a : Nat} (hm : Within 8424003 m) (h : Keep m s₀ s) :
    Keep m s₀ (State.fetchRead s n i m0 a) := by
  unfold State.fetchRead
  iterate 60 try any_goals first
    | with_reducible assumption
    | with_reducible refine fetchSent_keep (Within.trans rfl hm) ?_
    | with_reducible refine State.ownRequest_keep (Within.trans rfl hm) ?_

theorem State.fetchRing_keep {m : Nat} {s₀ : State} {a0 : Nat} {a1 : Nat} {a2 : Nat} {a3 : Nat} {a4 : State} (hm : Within 8424003 m) (h : Keep m s₀ a4) :
    Keep m s₀ (State.fetchRing a0 a1 a2 a3 a4) := by
  induction a0 generalizing a1 a2 a3 a4 with
  | zero => unfold State.fetchRing; first | exact h | (split <;> exact h)
  | succ n ih =>
    unfold State.fetchRing
    iterate 60 try any_goals first
      | with_reducible assumption
      | with_reducible refine ih ?_
      | with_reducible refine State.fetchRead_keep (Within.trans rfl hm) ?_
      | with_reducible refine Keep.ite ?_ ?_

theorem State.serveRing_keep {m : Nat} {s₀ : State} {s : State} {n : Nat} (hm : Within 8424003 m) (h : Keep m s₀ s) :
    Keep m s₀ (State.serveRing s n) := by
  unfold State.serveRing
  iterate 60 try any_goals first
    | with_reducible assumption
    | with_reducible refine State.fetchRing_keep (Within.trans rfl hm) ?_
    | with_reducible refine Keep.ite ?_ ?_
    | with_reducible refine Keep.setHost ?_ (hm.bit 15 rfl)

theorem State.takeIndices_keep {m : Nat} {s₀ : State} {s : State} (hm : Within 32768 m) (h : Keep m s₀ s) :
    Keep m s₀ (State.takeIndices s) := by
  unfold State.takeIndices
  iterate 60 try any_goals first
    | with_reducible assumption
    | with_reducible refine Keep.setHost ?_ (hm.bit 15 rfl)

theorem State.pollServe_keep {m : Nat} {s₀ : State} {s : State} (hm : Within 8424003 m) (h : Keep m s₀ s) :
    Keep m s₀ (State.pollServe s) := by
  unfold State.pollServe
  iterate 60 try any_goals first
    | with_reducible assumption
    | with_reducible refine State.ringPolled_keep (Within.trans rfl hm) ?_
    | with_reducible refine State.takeIndices_keep (Within.trans rfl hm) ?_
    | with_reducible refine State.serveRing_keep (Within.trans rfl hm) ?_
    | with_reducible refine State.pollSlower_keep (Within.trans rfl hm) ?_
    | with_reducible refine State.wr_keep (Within.trans rfl hm) ?_
    | with_reducible refine Keep.foldl (fun x a hx => ?_) _ ?_
    | with_reducible refine Keep.foldl1 (fun x a hx => ?_) _ ?_
    | with_reducible refine Keep.ite ?_ ?_
    | split

theorem doorbellReadDone_keep {m : Nat} {s₀ : State} {s : State} (hm : Within 8424003 m) (h : Keep m s₀ s) :
    Keep m s₀ (doorbellReadDone s) := by
  unfold doorbellReadDone
  iterate 60 try any_goals first
    | with_reducible assumption
    | with_reducible refine State.raise_keep (Within.trans rfl hm) ?_
    | with_reducible refine State.pollSlower_keep (Within.trans rfl hm) ?_
    | with_reducible refine State.pollServe_keep (Within.trans rfl hm) ?_
    | split
    | with_reducible refine Keep.setHost ?_ (hm.bit 15 rfl)

theorem State.takeDesc_keep {m : Nat} {s₀ : State} {s : State} {ring : Nat} {index : Nat} {addr : Nat} {desc : List Byte} (hm : Within 16780739 m) (h : Keep m s₀ s) :
    Keep m s₀ (State.takeDesc s ring index addr desc) := by
  unfold State.takeDesc
  iterate 60 try any_goals first
    | with_reducible assumption
    | with_reducible refine State.takeIn_keep (Within.trans rfl hm) ?_
    | with_reducible refine State.setRingOpen_keep (Within.trans rfl hm) ?_
    | with_reducible refine Keep.ite ?_ ?_
    | (intro hx)
    | split

theorem descFetchDone_keep {m : Nat} {s₀ : State} {ring : Nat} {s : State} (hm : Within 25202627 m) (h : Keep m s₀ s) :
    Keep m s₀ (descFetchDone ring s) := by
  unfold descFetchDone
  iterate 60 try any_goals first
    | with_reducible assumption
    | with_reducible refine State.setFetches_keep (Within.trans rfl hm) ?_
    | with_reducible refine State.wr_keep (Within.trans rfl hm) ?_
    | with_reducible refine State.bumpN_keep (Within.trans rfl hm) ?_
    | with_reducible refine State.shadowRing_keep (Within.trans rfl hm) ?_
    | with_reducible refine State.takeDesc_keep (Within.trans rfl hm) ?_
    | with_reducible refine State.ringStop_keep (Within.trans rfl hm) ?_
    | with_reducible refine State.raise_keep (Within.trans rfl hm) ?_
    | with_reducible refine Keep.foldl (fun x a hx => ?_) _ ?_
    | split

theorem msixCoalExpiry_keep {m : Nat} {s₀ : State} {ring : Nat} {s : State} (hm : Within 8421376 m) (h : Keep m s₀ s) :
    Keep m s₀ (msixCoalExpiry ring s) := by
  unfold msixCoalExpiry
  iterate 60 try any_goals first
    | with_reducible assumption
    | with_reducible refine State.msixSignal_keep (Within.trans rfl hm) ?_
    | split
    | with_reducible refine Keep.setHost ?_ (hm.bit 15 rfl)

theorem bar0Tlp_keep {m : Nat} {s₀ : State} {write : Bool} {tag : Nat} {off : Nat} {len : Nat} {data : List Byte} {s : State} (hm : Within 25427959 m) (h : Keep m s₀ s) :
    Keep m s₀ (bar0Tlp write tag off len data s) := by
  unfold bar0Tlp
  iterate 60 try any_goals first
    | with_reducible assumption
    | with_reducible refine State.emit_keep (Within.trans rfl hm) ?_
    | with_reducible refine State.setupWrite_keep (Within.trans rfl hm) ?_
    | with_reducible refine State.setupRead_keep (Within.trans rfl hm) ?_
    | with_reducible refine State.raiseCap_keep (Within.trans rfl hm) ?_
    | with_reducible refine Keep.ite ?_ ?_

theorem bar2Tlp_keep {m : Nat} {s₀ : State} {write : Bool} {tag : Nat} {off : Nat} {len : Nat} {data : List Byte} {s : State} (hm : Within 8424131 m) (h : Keep m s₀ s) :
    Keep m s₀ (bar2Tlp write tag off len data s) := by
  unfold bar2Tlp
  iterate 60 try any_goals first
    | with_reducible assumption
    | with_reducible refine State.bumpN_keep (Within.trans rfl hm) ?_
    | with_reducible refine State.emit_keep (Within.trans rfl hm) ?_
    | with_reducible refine State.pumpBar_keep (Within.trans rfl hm) ?_
    | with_reducible refine Keep.ite ?_ ?_
    | with_reducible refine Keep.setHost ?_ (hm.bit 15 rfl)

theorem State.bar4Put_keep {m : Nat} {s₀ : State} {s : State} {off : Nat} {b : Byte} (hm : Within 32768 m) (h : Keep m s₀ s) :
    Keep m s₀ (State.bar4Put s off b) := by
  unfold State.bar4Put
  iterate 60 try any_goals first
    | with_reducible assumption
    | with_reducible refine Keep.ite ?_ ?_
    | with_reducible refine Keep.setHost ?_ (hm.bit 15 rfl)

theorem State.msixFlush_keep {m : Nat} {s₀ : State} {s : State} (hm : Within 8421376 m) (h : Keep m s₀ s) :
    Keep m s₀ (State.msixFlush s) := by
  unfold State.msixFlush
  iterate 60 try any_goals first
    | with_reducible assumption
    | with_reducible refine State.msixSignal_keep (Within.trans rfl hm) ?_
    | with_reducible refine Keep.foldl (fun x a hx => ?_) _ ?_
    | with_reducible refine Keep.ite ?_ ?_
    | with_reducible refine Keep.setHost ?_ (hm.bit 15 rfl)

theorem bar4Tlp_keep {m : Nat} {s₀ : State} {write : Bool} {tag : Nat} {off : Nat} {len : Nat} {data : List Byte} {s : State} (hm : Within 8421376 m) (h : Keep m s₀ s) :
    Keep m s₀ (bar4Tlp write tag off len data s) := by
  unfold bar4Tlp
  iterate 60 try any_goals first
    | with_reducible assumption
    | with_reducible refine State.emit_keep (Within.trans rfl hm) ?_
    | with_reducible refine State.msixFlush_keep (Within.trans rfl hm) ?_
    | with_reducible refine State.bar4Put_keep (Within.trans rfl hm) ?_
    | with_reducible refine Keep.foldl (fun x a hx => ?_) _ ?_
    | with_reducible refine Keep.ite ?_ ?_

theorem State.dropReq_keep {m : Nat} {s₀ : State} {s : State} {r : HostReq} (hm : Within 32768 m) (h : Keep m s₀ s) :
    Keep m s₀ (State.dropReq s r) := by
  unfold State.dropReq
  iterate 60 try any_goals first
    | with_reducible assumption
    | with_reducible refine Keep.setHost ?_ (hm.bit 15 rfl)

theorem State.hostAbort_keep {m : Nat} {s₀ : State} {s : State} {r : HostReq} (hm : Within 8423619 m) (h : Keep m s₀ s) :
    Keep m s₀ (State.hostAbort s r) := by
  unfold State.hostAbort
  iterate 60 try any_goals first
    | with_reducible assumption
    | with_reducible refine State.bump_keep (Within.trans rfl hm) ?_
    | with_reducible refine State.raise_keep (Within.trans rfl hm) ?_
    | with_reducible refine State.finishTask_keep (Within.trans rfl hm) ?_
    | with_reducible refine State.segProven_keep (Within.trans rfl hm) ?_
    | split

theorem hostWindowCompletion_keep {m : Nat} {s₀ : State} {id : Nat} {status : Nat} {data : List Byte} {s : State} (hm : Within 8423619 m) (h : Keep m s₀ s) :
    Keep m s₀ (hostWindowCompletion id status data s) := by
  unfold hostWindowCompletion
  iterate 60 try any_goals first
    | with_reducible assumption
    | with_reducible refine State.dropReq_keep (Within.trans rfl hm) ?_
    | with_reducible refine State.hostAnswered_keep (Within.trans rfl hm) ?_
    | with_reducible refine State.segProven_keep (Within.trans rfl hm) ?_
    | with_reducible refine State.hostAbort_keep (Within.trans rfl hm) ?_
    | with_reducible refine State.pumpHost_keep (Within.trans rfl hm) ?_
    | split

theorem hostCompletionTimeout_keep {m : Nat} {s₀ : State} {id : Nat} {s : State} (hm : Within 8423619 m) (h : Keep m s₀ s) :
    Keep m s₀ (hostCompletionTimeout id s) := by
  unfold hostCompletionTimeout
  iterate 60 try any_goals first
    | with_reducible assumption
    | with_reducible refine State.hostAbort_keep (Within.trans rfl hm) ?_
    | with_reducible refine State.dropReq_keep (Within.trans rfl hm) ?_
    | with_reducible refine State.pumpHost_keep (Within.trans rfl hm) ?_
    | split

theorem pcieCredits_keep {m : Nat} {s₀ : State} {credits : Nat} {s : State} (hm : Within 8421569 m) (h : Keep m s₀ s) :
    Keep m s₀ (pcieCredits credits s) := by
  unfold pcieCredits
  iterate 60 try any_goals first
    | with_reducible assumption
    | with_reducible refine State.pumpHost_keep (Within.trans rfl hm) ?_
    | with_reducible refine Keep.ite ?_ ?_
    | with_reducible refine Keep.setHost ?_ (hm.bit 15 rfl)

theorem State.configReset_keep {m : Nat} {s₀ : State} {s : State} (hm : Within 32769 m) (h : Keep m s₀ s) :
    Keep m s₀ (State.configReset s) := by
  unfold State.configReset
  iterate 60 try any_goals first
    | with_reducible assumption
    | with_reducible refine State.wr_keep (Within.trans rfl hm) ?_
    | split
    | with_reducible refine Keep.setHost ?_ (hm.bit 15 rfl)

theorem State.functionReset_keep {m : Nat} {s₀ : State} {s : State} (hm : Within 8424131 m) (h : Keep m s₀ s) :
    Keep m s₀ (State.functionReset s) := by
  unfold State.functionReset
  iterate 60 try any_goals first
    | with_reducible assumption
    | with_reducible refine State.configReset_keep (Within.trans rfl hm) ?_
    | with_reducible refine State.exception_keep (Within.trans rfl hm) ?_
    | with_reducible refine State.pumpBar_keep (Within.trans rfl hm) ?_
    | with_reducible refine State.hostAbort_keep (Within.trans rfl hm) ?_
    | with_reducible refine Keep.foldl (fun x a hx => ?_) _ ?_
    | with_reducible refine Keep.setHost ?_ (hm.bit 15 rfl)

theorem State.pcieDown_keep {m : Nat} {s₀ : State} {s : State} (hm : Within 32769 m) (h : Keep m s₀ s) :
    Keep m s₀ (State.pcieDown s) := by
  unfold State.pcieDown
  iterate 60 try any_goals first
    | with_reducible assumption
    | with_reducible refine State.wr_keep (Within.trans rfl hm) ?_
    | with_reducible refine Keep.setHost ?_ (hm.bit 15 rfl)

theorem pcieFlr_keep {m : Nat} {s₀ : State} {linkLoss : Bool} {s : State} (hm : Within 8424131 m) (h : Keep m s₀ s) :
    Keep m s₀ (pcieFlr linkLoss s) := by
  unfold pcieFlr
  iterate 60 try any_goals first
    | with_reducible assumption
    | with_reducible refine State.functionReset_keep (Within.trans rfl hm) ?_
    | with_reducible refine State.pcieDown_keep (Within.trans rfl hm) ?_
    | with_reducible refine Keep.ite ?_ ?_

theorem pcieLinkUp_keep {m : Nat} {s₀ : State} {speed : Nat} {width : Nat} {s : State} (hm : Within 1 m) (h : Keep m s₀ s) :
    Keep m s₀ (pcieLinkUp speed width s) := by
  unfold pcieLinkUp
  iterate 60 try any_goals first
    | with_reducible assumption
    | with_reducible refine State.wr_keep (Within.trans rfl hm) ?_
    | with_reducible refine Keep.ite ?_ ?_

theorem State.configRead_keep {m : Nat} {s₀ : State} {s : State} {tag : Nat} {reg : Nat} (hm : Within 25165824 m) (h : Keep m s₀ s) :
    Keep m s₀ (State.configRead s tag reg) := by
  unfold State.configRead
  iterate 60 try any_goals first
    | with_reducible assumption
    | with_reducible refine State.emit_keep (Within.trans rfl hm) ?_
    | with_reducible refine State.free_keep (Within.trans rfl hm) ?_
    | split

theorem pcieConfig_keep {m : Nat} {s₀ : State} {write : Bool} {tag : Nat} {reg : Nat} {value : Word} {bme : Bool} {enables : PcieEnables} {mrrs : Nat} {mps : Nat} {s : State} (hm : Within 25198593 m) (h : Keep m s₀ s) :
    Keep m s₀ (pcieConfig write tag reg value bme enables mrrs mps s) := by
  unfold pcieConfig
  iterate 60 try any_goals first
    | with_reducible assumption
    | with_reducible refine State.wrB_keep (Within.trans rfl hm) ?_
    | with_reducible refine State.emit_keep (Within.trans rfl hm) ?_
    | with_reducible refine State.msixFlush_keep (Within.trans rfl hm) ?_
    | with_reducible refine State.configRead_keep (Within.trans rfl hm) ?_
    | with_reducible refine Keep.ite ?_ ?_
    | (intro hx)
    | split
    | with_reducible refine Keep.setHost ?_ (hm.bit 15 rfl)

end Sys2Proof.Machine
end

