-- ==== Sys2Proof/Laws/KeepCadence.lean ====
section
/-! SUPPORT. What each operation of Mirror, Cad, Epoch leaves alone and keeps: its footprint as a mask of units, and that it keeps
the memories canonical, the queue of commands and a recorder key once set (see Laws/Keep.lean). -/

namespace Sys2Proof.Machine

set_option maxRecDepth 4000

theorem State.copyRec_keep {m : Nat} {s₀ : State} {s : State} {rtype : Nat} {payload : List Byte} (hm : Within 4096 m) (h : Keep m s₀ s) :
    Keep m s₀ (State.copyRec s rtype payload) := by
  unfold State.copyRec
  iterate 60 try any_goals first
    | with_reducible assumption
    | with_reducible refine Keep.setTwin ?_ (hm.bit 12 rfl)

theorem State.copyReg_keep {m : Nat} {s₀ : State} {s : State} {k : Nat} (hm : Within 4096 m) (h : Keep m s₀ s) :
    Keep m s₀ (State.copyReg s k) := by
  unfold State.copyReg
  iterate 60 try any_goals first
    | with_reducible assumption
    | with_reducible refine State.copyRec_keep (Within.trans rfl hm) ?_

theorem State.copyPage_keep {m : Nat} {s₀ : State} {s : State} {a : Nat} (hm : Within 16799747 m) (h : Keep m s₀ s) :
    Keep m s₀ (State.copyPage s a) := by
  unfold State.copyPage
  iterate 60 try any_goals first
    | with_reducible assumption
    | with_reducible refine State.ddrRead_keep (Within.trans rfl hm) ?_
    | with_reducible refine State.freeBytes_keep (Within.trans rfl hm) ?_
    | with_reducible refine State.copyRec_keep (Within.trans rfl hm) ?_
    | with_reducible refine Keep.foldl (fun x a hx => ?_) _ ?_
    | split

theorem State.copyIntr_keep {m : Nat} {s₀ : State} {s : State} (hm : Within 4096 m) (h : Keep m s₀ s) :
    Keep m s₀ (State.copyIntr s) := by
  unfold State.copyIntr
  iterate 60 try any_goals first
    | with_reducible assumption
    | with_reducible refine State.copyRec_keep (Within.trans rfl hm) ?_

theorem State.fullCopy_keep {m : Nat} {s₀ : State} {s : State} (hm : Within 25188867 m) (h : Keep m s₀ s) :
    Keep m s₀ (State.fullCopy s) := by
  unfold State.fullCopy
  iterate 60 try any_goals first
    | with_reducible assumption
    | with_reducible refine State.copyRec_keep (Within.trans rfl hm) ?_
    | with_reducible refine State.copyReg_keep (Within.trans rfl hm) ?_
    | with_reducible refine State.copyIntr_keep (Within.trans rfl hm) ?_
    | with_reducible refine State.copyPage_keep (Within.trans rfl hm) ?_
    | with_reducible refine State.pumpMirror_keep (Within.trans rfl hm) ?_
    | with_reducible refine State.bump_keep (Within.trans rfl hm) ?_
    | with_reducible refine Keep.foldl (fun x a hx => ?_) _ ?_
    | with_reducible refine Keep.foldl2 (fun x a hx => ?_) _ ?_
    | with_reducible refine Keep.foldl1 (fun x a hx => ?_) _ ?_
    | (intro hx)
    | (extract_lets +onlyGivenNames y; refine Keep.use (m := m) (s := s₀) (x := y) ?_ ?_; (focus (unfold y; clear y)); rotate_left; (focus (intro hy; clear_value y; revert y; intro _ _)))
    | (extract_lets +onlyGivenNames y; refine Keep.use (m := m) (s := s₀) (x := y.2) ?_ ?_; (focus (unfold y; clear y)); rotate_left; (focus (intro hy; clear_value y; revert y; intro _ _)))
    | (extract_lets +onlyGivenNames y; refine Keep.use (m := m) (s := s₀) (x := y.st) ?_ ?_; (focus (unfold y; clear y)); rotate_left; (focus (intro hy; clear_value y; revert y; intro _ _)))
    | (extract_lets +onlyGivenNames y; refine Keep.use (m := m) (s := s₀) (x := y.1) ?_ ?_; (focus (unfold y; clear y)); rotate_left; (focus (intro hy; clear_value y; revert y; intro _ _)))
    | (extract_lets +onlyGivenNames y; refine Keep.use (m := m) (s := s₀) (x := y.2.1) ?_ ?_; (focus (unfold y; clear y)); rotate_left; (focus (intro hy; clear_value y; revert y; intro _ _)))
    | (extract_lets +onlyGivenNames y; refine Keep.use (m := m) (s := s₀) (x := y.2.2) ?_ ?_; (focus (unfold y; clear y)); rotate_left; (focus (intro hy; clear_value y; revert y; intro _ _)))
    | (extract_lets +onlyGivenNames y; refine Keep.use (m := m) (s := s₀) (x := y.2.2.1) ?_ ?_; (focus (unfold y; clear y)); rotate_left; (focus (intro hy; clear_value y; revert y; intro _ _)))
    | (extract_lets +onlyGivenNames y; revert y; intro _)
    | with_reducible refine Keep.ite ?_ ?_
    | split
    | (dsimp -zeta only)
    | with_reducible refine Keep.setTwin ?_ (hm.bit 12 rfl)
    | (dsimp only; done)
    | (dsimp only; with_reducible assumption)

theorem State.closeEpoch_keep {m : Nat} {s₀ : State} {s : State} {p0 : Nat} {n : Nat} (hm : Within 25188931 m) (h : Keep m s₀ s) :
    Keep m s₀ (State.closeEpoch s p0 n) := by
  unfold State.closeEpoch
  iterate 60 try any_goals first
    | with_reducible assumption
    | with_reducible refine State.detachResult_keep (Within.trans rfl hm) ?_
    | with_reducible refine State.epochOpen_keep (Within.trans rfl hm) ?_
    | with_reducible refine State.fullCopy_keep (Within.trans rfl hm) ?_
    | with_reducible refine State.pumpMirror_keep (Within.trans rfl hm) ?_
    | with_reducible refine Keep.foldl (fun x a hx => ?_) _ ?_
    | with_reducible refine Keep.foldl2 (fun x a hx => ?_) _ ?_
    | with_reducible refine Keep.foldl1 (fun x a hx => ?_) _ ?_
    | (intro hx)
    | (extract_lets +onlyGivenNames y; refine Keep.use (m := m) (s := s₀) (x := y) ?_ ?_; (focus (unfold y; clear y)); rotate_left; (focus (intro hy; clear_value y; revert y; intro _ _)))
    | (extract_lets +onlyGivenNames y; refine Keep.use (m := m) (s := s₀) (x := y.2) ?_ ?_; (focus (unfold y; clear y)); rotate_left; (focus (intro hy; clear_value y; revert y; intro _ _)))
    | (extract_lets +onlyGivenNames y; refine Keep.use (m := m) (s := s₀) (x := y.st) ?_ ?_; (focus (unfold y; clear y)); rotate_left; (focus (intro hy; clear_value y; revert y; intro _ _)))
    | (extract_lets +onlyGivenNames y; refine Keep.use (m := m) (s := s₀) (x := y.1) ?_ ?_; (focus (unfold y; clear y)); rotate_left; (focus (intro hy; clear_value y; revert y; intro _ _)))
    | (extract_lets +onlyGivenNames y; refine Keep.use (m := m) (s := s₀) (x := y.2.1) ?_ ?_; (focus (unfold y; clear y)); rotate_left; (focus (intro hy; clear_value y; revert y; intro _ _)))
    | (extract_lets +onlyGivenNames y; refine Keep.use (m := m) (s := s₀) (x := y.2.2) ?_ ?_; (focus (unfold y; clear y)); rotate_left; (focus (intro hy; clear_value y; revert y; intro _ _)))
    | (extract_lets +onlyGivenNames y; refine Keep.use (m := m) (s := s₀) (x := y.2.2.1) ?_ ?_; (focus (unfold y; clear y)); rotate_left; (focus (intro hy; clear_value y; revert y; intro _ _)))
    | (extract_lets +onlyGivenNames y; revert y; intro _)
    | with_reducible refine Keep.ite ?_ ?_
    | split
    | (dsimp -zeta only)
    | with_reducible refine Keep.setTwin ?_ (hm.bit 12 rfl)
    | (dsimp only; done)
    | (dsimp only; with_reducible assumption)

theorem State.mirrorBoundary_keep {m : Nat} {s₀ : State} {s : State} {p0 : Nat} (hm : Within 25188931 m) (h : Keep m s₀ s) :
    Keep m s₀ (State.mirrorBoundary s p0) := by
  unfold State.mirrorBoundary
  iterate 60 try any_goals first
    | with_reducible assumption
    | with_reducible refine State.closeEpoch_keep (Within.trans rfl hm) ?_
    | with_reducible refine Keep.ite ?_ ?_

theorem State.withMirror_keep {m : Nat} {s₀ : State} {s : State} {q : Nat} {mtype : Nat} {f : Packet → State → State} (hm : Within 512 m) (h : Keep m s₀ s) (h1 : ∀ y0 x, Keep m s₀ x → Keep m s₀ (f y0 x)) :
    Keep m s₀ (State.withMirror s q mtype f) := by
  unfold State.withMirror
  iterate 60 try any_goals first
    | with_reducible assumption
    | with_reducible refine h1 _ _ ?_
    | with_reducible refine State.withTaken_keep (Within.trans rfl hm) ?_ ?_
    | (intro hx)
    | with_reducible refine Keep.ite ?_ ?_

theorem State.notIntact_keep {m : Nat} {s₀ : State} {s : State} {epoch : Nat} (hm : Within 8395267 m) (h : Keep m s₀ s) :
    Keep m s₀ (State.notIntact s epoch) := by
  unfold State.notIntact
  iterate 60 try any_goals first
    | with_reducible assumption
    | with_reducible refine State.raise_keep (Within.trans rfl hm) ?_
    | with_reducible refine State.wr_keep (Within.trans rfl hm) ?_
    | with_reducible refine State.bumpN_keep (Within.trans rfl hm) ?_
    | with_reducible refine State.sendResync_keep (Within.trans rfl hm) ?_
    | with_reducible refine Keep.setTwin ?_ (hm.bit 12 rfl)

theorem State.openBank_keep {m : Nat} {s₀ : State} {s : State} {epoch : Nat} {fresh : Bool} (hm : Within 6145 m) (h : Keep m s₀ s) :
    Keep m s₀ (State.openBank s epoch fresh) := by
  unfold State.openBank
  iterate 60 try any_goals first
    | with_reducible assumption
    | with_reducible refine State.bumpN_keep (Within.trans rfl hm) ?_
    | with_reducible refine Keep.ite ?_ ?_
    | with_reducible refine Keep.setTwin ?_ (hm.bit 12 rfl)

theorem State.modBank_keep {m : Nat} {s₀ : State} {s : State} {epoch : Nat} {f : StageBank → StageBank} (hm : Within 4096 m) (h : Keep m s₀ s) :
    Keep m s₀ (State.modBank s epoch f) := by
  unfold State.modBank
  iterate 60 try any_goals first
    | with_reducible assumption
    | with_reducible refine Keep.ite ?_ ?_
    | with_reducible refine Keep.setTwin ?_ (hm.bit 12 rfl)

theorem State.stageIn_keep {m : Nat} {s₀ : State} {s : State} {epoch : Nat} {starts : Bool} {f : State → State} (hm : Within 8395267 m) (h : Keep m s₀ s) (h1 : ∀ x, Keep m s₀ x → Keep m s₀ (f x)) :
    Keep m s₀ (State.stageIn s epoch starts f) := by
  unfold State.stageIn
  iterate 60 try any_goals first
    | with_reducible assumption
    | with_reducible refine h1 _ ?_
    | with_reducible refine State.openBank_keep (Within.trans rfl hm) ?_
    | with_reducible refine State.notIntact_keep (Within.trans rfl hm) ?_
    | split

theorem State.checkBanks_keep {m : Nat} {s₀ : State} {s : State} (hm : Within 8395267 m) (h : Keep m s₀ s) :
    Keep m s₀ (State.checkBanks s) := by
  unfold State.checkBanks
  iterate 60 try any_goals first
    | with_reducible assumption
    | with_reducible refine State.notIntact_keep (Within.trans rfl hm) ?_
    | split
    | with_reducible refine Keep.setTwin ?_ (hm.bit 12 rfl)

theorem mirrorRecordRx_keep {m : Nat} {s₀ : State} {queue : Nat} {s : State} (hm : Within 8395267 m) (h : Keep m s₀ s) :
    Keep m s₀ (mirrorRecordRx queue s) := by
  unfold mirrorRecordRx
  iterate 60 try any_goals first
    | with_reducible assumption
    | with_reducible refine State.withMirror_keep (Within.trans rfl hm) ?_ ?_
    | with_reducible refine State.stageIn_keep (Within.trans rfl hm) ?_ ?_
    | with_reducible refine State.notIntact_keep (Within.trans rfl hm) ?_
    | with_reducible refine State.raise_keep (Within.trans rfl hm) ?_
    | with_reducible refine State.checkBanks_keep (Within.trans rfl hm) ?_
    | with_reducible refine State.modBank_keep (Within.trans rfl hm) ?_
    | (intro hx)
    | with_reducible refine Keep.ite ?_ ?_

theorem mirrorCloseRx_keep {m : Nat} {s₀ : State} {queue : Nat} {s : State} (hm : Within 8395267 m) (h : Keep m s₀ s) :
    Keep m s₀ (mirrorCloseRx queue s) := by
  unfold mirrorCloseRx
  iterate 60 try any_goals first
    | with_reducible assumption
    | with_reducible refine State.withMirror_keep (Within.trans rfl hm) ?_ ?_
    | with_reducible refine State.stageIn_keep (Within.trans rfl hm) ?_ ?_
    | with_reducible refine State.checkBanks_keep (Within.trans rfl hm) ?_
    | with_reducible refine State.modBank_keep (Within.trans rfl hm) ?_
    | (intro hx)
    | with_reducible refine Keep.ite ?_ ?_

theorem mirrorRecordWaitEnd_keep {m : Nat} {s₀ : State} {epoch : Nat} {s : State} (hm : Within 8395267 m) (h : Keep m s₀ s) :
    Keep m s₀ (mirrorRecordWaitEnd epoch s) := by
  unfold mirrorRecordWaitEnd
  iterate 60 try any_goals first
    | with_reducible assumption
    | with_reducible refine State.notIntact_keep (Within.trans rfl hm) ?_
    | split

theorem State.applyReg_keep {m : Nat} {s₀ : State} {s : State} {k : Nat} {v : Word} (hm : Within 1 m) (h : Keep m s₀ s) :
    Keep m s₀ (State.applyReg s k v) := by
  unfold State.applyReg
  iterate 60 try any_goals first
    | with_reducible assumption
    | with_reducible refine State.setShd_keep (Within.trans rfl hm) ?_
    | with_reducible refine State.setReg_keep (Within.trans rfl hm) ?_

theorem State.applyPairs_keep {m : Nat} {s₀ : State} {s : State} {a1 : Nat} {a2 : Nat} {a3 : List Byte} (hm : Within 1 m) (h : Keep m s₀ s) :
    Keep m s₀ (State.applyPairs s a1 a2 a3) := by
  induction a1 generalizing s a2 a3 with
  | zero => unfold State.applyPairs; first | exact h | (split <;> exact h)
  | succ n ih =>
    unfold State.applyPairs
    iterate 60 try any_goals first
      | with_reducible assumption
      | with_reducible refine ih ?_
      | with_reducible refine State.applyReg_keep (Within.trans rfl hm) ?_
      | with_reducible refine Keep.ite ?_ ?_

theorem State.clearReg_keep {m : Nat} {s₀ : State} {s : State} {k : Nat} (hm : Within 1 m) (h : Keep m s₀ s) :
    Keep m s₀ (State.clearReg s k) := by
  unfold State.clearReg
  iterate 60 try any_goals first
    | with_reducible assumption
    | with_reducible refine State.applyReg_keep (Within.trans rfl hm) ?_

theorem State.fullClear_keep {m : Nat} {s₀ : State} {s : State} (hm : Within 25198563 m) (h : Keep m s₀ s) :
    Keep m s₀ (State.fullClear s) := by
  unfold State.fullClear
  iterate 60 try any_goals first
    | with_reducible assumption
    | with_reducible refine State.clearReg_keep (Within.trans rfl hm) ?_
    | with_reducible refine State.events_keep (Within.trans rfl hm) ?_
    | with_reducible refine State.emptyFold_keep (Within.trans rfl hm) ?_
    | with_reducible refine State.setDc_keep (Within.trans rfl hm) ?_
    | with_reducible refine State.setVectors_keep (Within.trans rfl hm) ?_
    | with_reducible refine State.setSch_keep (Within.trans rfl hm) ?_
    | with_reducible refine Keep.foldl (fun x a hx => ?_) _ ?_
    | with_reducible refine Keep.ite ?_ ?_
    | with_reducible refine Keep.setDdr ?_ (hm.bit 14 rfl) (fun hx => Memory.wf_filter _ _ hx)

theorem State.applyRec_keep {m : Nat} {s₀ : State} {s : State} {r : MirrorRec} {p : State} (e : State.applyRec s r = some p) (hm : Within 25198563 m) (h : Keep m s₀ s) :
    Keep m s₀ p := by
  unfold State.applyRec at e
  extract_lets bs n a data src r1 r2 src2 at e
  have h1 : Keep m s₀ r1.2.1 := State.pushEntries_keep (Within.trans rfl hm) h
  have h2 : Keep m s₀ r2.2.1 := State.popWords_keep (Within.trans rfl hm) h
  clear_value r1 r2 src src2 data a n
  split at e
  case h_4 =>
    split at e
    · exact Option.some.inj e ▸ State.fire_keep (Within.trans rfl hm) h1
    · cases e
  all_goals rw [← Option.some.inj e]
  · exact State.applyPairs_keep (Within.trans rfl hm) h
  · exact Keep.ite (State.ddrWrite_keep (Within.trans rfl hm) h) h
  · exact Keep.ite (State.setDc_keep (Within.trans rfl hm) h) h
  · exact State.fire_keep (Within.trans rfl hm) h2
  · exact State.setVectors_keep (Within.trans rfl hm) h
  · exact State.setSch_keep (Within.trans rfl hm) h
  · exact State.fullClear_keep (Within.trans rfl hm) h
  · exact h

theorem State.applyRecs_keep {m : Nat} {s₀ : State} {s : State} {a1 : List (Nat × MirrorRec)} {p : State} (e : State.applyRecs s a1 = some p) (hm : Within 25198563 m) (h : Keep m s₀ s) :
    Keep m s₀ p := by
  induction a1 generalizing s with
  | nil => unfold State.applyRecs at e; cases e; exact h
  | cons r rs ih =>
    unfold State.applyRecs at e
    split at e
    · next x => exact ih e (State.applyRec_keep x (Within.trans rfl hm) h)
    · cases e

theorem mirrorCommitDone_keep {m : Nat} {s₀ : State} {s : State} (hm : Within 25198579 m) (h : Keep m s₀ s) :
    Keep m s₀ (mirrorCommitDone s) := by
  unfold mirrorCommitDone
  iterate 60 try any_goals first
    | with_reducible assumption
    | (have hx := State.applyRecs_keep (by with_reducible assumption) (Within.trans rfl hm) (by with_reducible assumption); with_reducible exact hx)
    | with_reducible refine State.lensChanged_keep (Within.trans rfl hm) ?_
    | with_reducible refine State.bump_keep (Within.trans rfl hm) ?_
    | with_reducible refine State.wr_keep (Within.trans rfl hm) ?_
    | with_reducible refine State.sendMirror_keep (Within.trans rfl hm) ?_
    | with_reducible refine State.checkBanks_keep (Within.trans rfl hm) ?_
    | with_reducible refine Keep.foldl (fun x a hx => ?_) _ ?_
    | split
    | with_reducible refine Keep.setTwin ?_ (hm.bit 12 rfl)

theorem State.yieldCrook_keep {m : Nat} {s₀ : State} {s : State} {n : Nat} (hm : Within 25181171 m) (h : Keep m s₀ s) :
    Keep m s₀ (State.yieldCrook s n) := by
  unfold State.yieldCrook
  iterate 60 try any_goals first
    | with_reducible assumption
    | with_reducible refine State.wr_keep (Within.trans rfl hm) ?_
    | with_reducible refine State.outputsOff_keep (Within.trans rfl hm) ?_
    | with_reducible refine State.leaseAll_keep (Within.trans rfl hm) ?_
    | with_reducible refine State.toStandby_keep (Within.trans rfl hm) ?_
    | with_reducible refine State.mirrorStop_keep (Within.trans rfl hm) ?_
    | split
    | with_reducible refine Keep.setTwin ?_ (hm.bit 12 rfl)

theorem State.marksCommitted_keep {m : Nat} {s₀ : State} {s : State} {n : Nat} (hm : Within 4160 m) (h : Keep m s₀ s) :
    Keep m s₀ (State.marksCommitted s n) := by
  unfold State.marksCommitted
  iterate 60 try any_goals first
    | with_reducible assumption
    | with_reducible refine State.detachResult_keep (Within.trans rfl hm) ?_
    | with_reducible refine Keep.foldl (fun x a hx => ?_) _ ?_
    | with_reducible refine Keep.ite ?_ ?_
    | with_reducible refine Keep.setTwin ?_ (hm.bit 12 rfl)

theorem committedRx_keep {m : Nat} {s₀ : State} {queue : Nat} {s : State} (hm : Within 25181171 m) (h : Keep m s₀ s) :
    Keep m s₀ (committedRx queue s) := by
  unfold committedRx
  iterate 60 try any_goals first
    | with_reducible assumption
    | (have hx := State.popTaken_keep (by with_reducible assumption) (Within.trans rfl hm) (by with_reducible assumption); with_reducible exact hx)
    | with_reducible refine State.marksCommitted_keep (Within.trans rfl hm) ?_
    | with_reducible refine State.yieldCrook_keep (Within.trans rfl hm) ?_
    | with_reducible refine Keep.ite ?_ ?_
    | split

theorem resyncRx_keep {m : Nat} {s₀ : State} {queue : Nat} {s : State} (hm : Within 4608 m) (h : Keep m s₀ s) :
    Keep m s₀ (resyncRx queue s) := by
  unfold resyncRx
  iterate 60 try any_goals first
    | with_reducible assumption
    | with_reducible refine State.withMirror_keep (Within.trans rfl hm) ?_ ?_
    | (intro hx)
    | with_reducible refine Keep.ite ?_ ?_
    | with_reducible refine Keep.setTwin ?_ (hm.bit 12 rfl)

theorem mirrorQueueSpace_keep {m : Nat} {s₀ : State} {s : State} (hm : Within 8395265 m) (h : Keep m s₀ s) :
    Keep m s₀ (mirrorQueueSpace s) := by
  unfold mirrorQueueSpace
  iterate 60 try any_goals first
    | with_reducible assumption
    | with_reducible refine State.pumpMirror_keep (Within.trans rfl hm) ?_

theorem State.snapshot_keep {m : Nat} {s₀ : State} {s : State} {timeout : Bool} (hm : Within 34817 m) (h : Keep m s₀ s) :
    Keep m s₀ (State.snapshot s timeout) := by
  unfold State.snapshot
  iterate 60 try any_goals first
    | with_reducible assumption
    | with_reducible refine State.setReg_keep (Within.trans rfl hm) ?_
    | with_reducible refine State.wr_keep (Within.trans rfl hm) ?_
    | with_reducible refine State.slotLost_keep (Within.trans rfl hm) ?_
    | with_reducible refine Keep.foldl (fun x a hx => ?_) _ ?_
    | with_reducible refine Keep.ite ?_ ?_
    | (intro hx)
    | split
    | with_reducible refine Keep.setStat ?_ (hm.bit 11 rfl)

theorem State.periodStart_keep {m : Nat} {s₀ : State} {s : State} (hm : Within 3136 m) (h : Keep m s₀ s) :
    Keep m s₀ (State.periodStart s) := by
  unfold State.periodStart
  iterate 60 try any_goals first
    | with_reducible assumption
    | with_reducible refine State.statSet_keep (Within.trans rfl hm) ?_
    | with_reducible refine State.setDrover_keep (Within.trans rfl hm) ?_
    | with_reducible refine Keep.foldl (fun x a hx => ?_) _ ?_
    | with_reducible refine Keep.setCad ?_ (hm.bit 10 rfl)
    | with_reducible refine Keep.setStat ?_ (hm.bit 11 rfl)

theorem State.boundary_keep {m : Nat} {s₀ : State} {s : State} {crossing : Bool} {timeout : Bool} (hm : Within 25427967 m) (h : Keep m s₀ s) :
    Keep m s₀ (State.boundary s crossing timeout) := by
  unfold State.boundary
  iterate 60 try any_goals first
    | with_reducible assumption
    | with_reducible refine State.create_keep (Within.trans rfl hm) ?_
    | with_reducible refine State.commitBoundary_keep (Within.trans rfl hm) ?_
    | with_reducible refine State.openBoundary_keep (Within.trans rfl hm) ?_
    | with_reducible refine State.mirrorBoundary_keep (Within.trans rfl hm) ?_
    | with_reducible refine State.snapshot_keep (Within.trans rfl hm) ?_
    | with_reducible refine State.periodStart_keep (Within.trans rfl hm) ?_
    | split
    | with_reducible refine Keep.setCad ?_ (hm.bit 10 rfl)

theorem State.boundaryDue_keep {m : Nat} {s₀ : State} {s : State} (hm : Within 25427967 m) (h : Keep m s₀ s) :
    Keep m s₀ (State.boundaryDue s) := by
  unfold State.boundaryDue
  iterate 60 try any_goals first
    | with_reducible assumption
    | with_reducible refine State.raise_keep (Within.trans rfl hm) ?_
    | with_reducible refine State.wr_keep (Within.trans rfl hm) ?_
    | with_reducible refine State.bump_keep (Within.trans rfl hm) ?_
    | with_reducible refine State.boundary_keep (Within.trans rfl hm) ?_
    | with_reducible refine Keep.ite ?_ ?_
    | with_reducible refine Keep.setCad ?_ (hm.bit 10 rfl)

theorem State.cadSettle_keep {m : Nat} {s₀ : State} {s : State} (hm : Within 25427967 m) (h : Keep m s₀ s) :
    Keep m s₀ (State.cadSettle s) := by
  unfold State.cadSettle
  iterate 60 try any_goals first
    | with_reducible assumption
    | with_reducible refine State.judgeAll_keep (Within.trans rfl hm) ?_
    | with_reducible refine State.boundaryDue_keep (Within.trans rfl hm) ?_
    | with_reducible refine Keep.ite ?_ ?_

theorem State.schFire_keep {m : Nat} {s₀ : State} {s : State} {k : Nat} (hm : Within 16779715 m) (h : Keep m s₀ s) :
    Keep m s₀ (State.schFire s k) := by
  unfold State.schFire
  iterate 60 try any_goals first
    | with_reducible assumption
    | with_reducible refine State.statAdd_keep (Within.trans rfl hm) ?_
    | with_reducible refine State.bump_keep (Within.trans rfl hm) ?_
    | with_reducible refine State.create_keep (Within.trans rfl hm) ?_

theorem State.schPass_keep {m : Nat} {s₀ : State} {old : Nat} {new : Nat} {s : State} {k : Nat} (hm : Within 16780739 m) (h : Keep m s₀ s) :
    Keep m s₀ (State.schPass old new s k) := by
  unfold State.schPass
  iterate 60 try any_goals first
    | with_reducible assumption
    | with_reducible refine State.schFire_keep (Within.trans rfl hm) ?_
    | with_reducible refine State.setSch_keep (Within.trans rfl hm) ?_
    | with_reducible refine Keep.foldl (fun x a hx => ?_) _ ?_
    | with_reducible refine Keep.ite ?_ ?_
    | split

theorem State.cadAdvance_keep {m : Nat} {s₀ : State} {s : State} {d : Int} (hm : Within 25427967 m) (h : Keep m s₀ s) :
    Keep m s₀ (State.cadAdvance s d) := by
  unfold State.cadAdvance
  iterate 60 try any_goals first
    | with_reducible assumption
    | with_reducible refine State.boundaryDue_keep (Within.trans rfl hm) ?_
    | with_reducible refine State.judgeAll_keep (Within.trans rfl hm) ?_
    | with_reducible refine State.schPass_keep (Within.trans rfl hm) ?_
    | with_reducible refine Keep.foldl (fun x a hx => ?_) _ ?_
    | with_reducible refine Keep.ite ?_ ?_
    | with_reducible refine Keep.setCad ?_ (hm.bit 10 rfl)

theorem State.cadRun_keep {m : Nat} {s₀ : State} {s : State} (hm : Within 25427967 m) (h : Keep m s₀ s) :
    Keep m s₀ (State.cadRun s) := by
  unfold State.cadRun
  iterate 60 try any_goals first
    | with_reducible assumption
    | with_reducible refine State.cadAdvance_keep (Within.trans rfl hm) ?_
    | with_reducible refine Keep.ite ?_ ?_
    | with_reducible refine Keep.setCad ?_ (hm.bit 10 rfl)

theorem State.epochRun_keep {m : Nat} {s₀ : State} {s : State} (hm : Within 512 m) (h : Keep m s₀ s) :
    Keep m s₀ (State.epochRun s) := by
  unfold State.epochRun
  iterate 60 try any_goals first
    | with_reducible assumption
    | with_reducible refine Keep.setNet ?_ (hm.bit 9 rfl)

theorem State.everyUs_keep {m : Nat} {s₀ : State} {s : State} (hm : Within 2049 m) (h : Keep m s₀ s) :
    Keep m s₀ (State.everyUs s) := by
  unfold State.everyUs
  iterate 60 try any_goals first
    | with_reducible assumption
    | with_reducible refine State.statAdd_keep (Within.trans rfl hm) ?_
    | with_reducible refine State.bump_keep (Within.trans rfl hm) ?_
    | with_reducible refine Keep.foldl (fun x a hx => ?_) _ ?_
    | with_reducible refine Keep.ite ?_ ?_

theorem cadTick_keep {m : Nat} {s₀ : State} {s : State} (hm : Within 31719423 m) (h : Keep m s₀ s) :
    Keep m s₀ (cadTick s) := by
  unfold cadTick
  iterate 60 try any_goals first
    | with_reducible assumption
    | with_reducible refine whenUp_keep (Within.trans rfl hm) ?_ ?_
    | with_reducible refine State.linkTick_keep (Within.trans rfl hm) ?_
    | with_reducible refine State.wakeHeld_keep (Within.trans rfl hm) ?_
    | with_reducible refine State.pumpBar_keep (Within.trans rfl hm) ?_
    | with_reducible refine State.cadRun_keep (Within.trans rfl hm) ?_
    | with_reducible refine State.epochRun_keep (Within.trans rfl hm) ?_
    | with_reducible refine State.everyUs_keep (Within.trans rfl hm) ?_
    | with_reducible refine Keep.ite ?_ ?_
    | (intro hx)
    | split
    | with_reducible refine Keep.setCyc ?_ (hm.bit 21 rfl)
    | with_reducible refine Keep.setTicks ?_ (hm.bit 22 rfl)

theorem cadMaxMs_keep {m : Nat} {s₀ : State} {s : State} (hm : Within 25427967 m) (h : Keep m s₀ s) :
    Keep m s₀ (cadMaxMs s) := by
  unfold cadMaxMs
  iterate 60 try any_goals first
    | with_reducible assumption
    | with_reducible refine State.bump_keep (Within.trans rfl hm) ?_
    | with_reducible refine State.judgeAll_keep (Within.trans rfl hm) ?_
    | with_reducible refine State.boundary_keep (Within.trans rfl hm) ?_
    | with_reducible refine Keep.ite ?_ ?_
    | (intro hx)
    | split

theorem State.copyBank_keep {m : Nat} {s₀ : State} {s : State} {bank : Nat} (hm : Within 8424003 m) (h : Keep m s₀ s) :
    Keep m s₀ (State.copyBank s bank) := by
  unfold State.copyBank
  iterate 60 try any_goals first
    | with_reducible assumption
    | with_reducible refine State.statPost_keep (Within.trans rfl hm) ?_
    | with_reducible refine Keep.ite ?_ ?_
    | (intro hx)
    | split
    | with_reducible refine Keep.setStat ?_ (hm.bit 11 rfl)

theorem statSnapshotCopy_keep {m : Nat} {s₀ : State} {s : State} (hm : Within 8424003 m) (h : Keep m s₀ s) :
    Keep m s₀ (statSnapshotCopy s) := by
  unfold statSnapshotCopy
  iterate 60 try any_goals first
    | with_reducible assumption
    | with_reducible refine State.endTask_keep (Within.trans rfl hm) ?_
    | with_reducible refine State.copyBank_keep (Within.trans rfl hm) ?_
    | split

theorem State.zcBad_keep {m : Nat} {s₀ : State} {s : State} (hm : Within 2051 m) (h : Keep m s₀ s) :
    Keep m s₀ (State.zcBad s) := by
  unfold State.zcBad
  iterate 60 try any_goals first
    | with_reducible assumption
    | with_reducible refine State.raise_keep (Within.trans rfl hm) ?_
    | with_reducible refine State.wr_keep (Within.trans rfl hm) ?_
    | with_reducible refine State.bump_keep (Within.trans rfl hm) ?_

theorem State.zcValid_keep {m : Nat} {s₀ : State} {s : State} {gap : Nat} (hm : Within 25427967 m) (h : Keep m s₀ s) :
    Keep m s₀ (State.zcValid s gap) := by
  unfold State.zcValid
  iterate 60 try any_goals first
    | with_reducible assumption
    | with_reducible refine State.cadSettle_keep (Within.trans rfl hm) ?_
    | with_reducible refine State.cadRate_keep (Within.trans rfl hm) ?_
    | with_reducible refine State.cadStepTo_keep (Within.trans rfl hm) ?_
    | with_reducible refine State.cadRef_keep (Within.trans rfl hm) ?_
    | with_reducible refine Keep.ite ?_ ?_
    | with_reducible refine Keep.setCad ?_ (hm.bit 10 rfl)

theorem cadZcEdge_keep {m : Nat} {s₀ : State} {s : State} (hm : Within 25427967 m) (h : Keep m s₀ s) :
    Keep m s₀ (cadZcEdge s) := by
  unfold cadZcEdge
  iterate 60 try any_goals first
    | with_reducible assumption
    | with_reducible refine State.zcBad_keep (Within.trans rfl hm) ?_
    | with_reducible refine State.zcValid_keep (Within.trans rfl hm) ?_
    | split
    | with_reducible refine Keep.setCad ?_ (hm.bit 10 rfl)

theorem cadMainsLoss_keep {m : Nat} {s₀ : State} {s : State} (hm : Within 3075 m) (h : Keep m s₀ s) :
    Keep m s₀ (cadMainsLoss s) := by
  unfold cadMainsLoss
  iterate 60 try any_goals first
    | with_reducible assumption
    | with_reducible refine State.cadLoss_keep (Within.trans rfl hm) ?_
    | with_reducible refine Keep.ite ?_ ?_
    | (intro hx)
    | split
    | with_reducible refine Keep.setCad ?_ (hm.bit 10 rfl)

theorem cadFallbackCmd_keep {m : Nat} {s₀ : State} {s : State} (hm : Within 1027 m) (h : Keep m s₀ s) :
    Keep m s₀ (cadFallbackCmd s) := by
  unfold cadFallbackCmd
  iterate 60 try any_goals first
    | with_reducible assumption
    | with_reducible refine State.cadFallback_keep (Within.trans rfl hm) ?_
    | with_reducible refine Keep.ite ?_ ?_

theorem State.encIllegal_keep {m : Nat} {s₀ : State} {s : State} (hm : Within 3075 m) (h : Keep m s₀ s) :
    Keep m s₀ (State.encIllegal s) := by
  unfold State.encIllegal
  extract_lets s1 c s2
  have h1 : Keep m s₀ s1 := State.raise_keep (Within.trans rfl hm) (State.wr_keep (Within.trans rfl hm)
    (State.bump_keep (Within.trans rfl hm) h))
  have h2 : Keep m s₀ s2 := Keep.setCad h1 (hm.bit 10 rfl)
  exact Keep.ite (Keep.ite (State.cadLoss_keep (Within.trans rfl hm) h2) h2) h1

theorem State.encCount_keep {m : Nat} {s₀ : State} {s : State} {forward : Bool} (hm : Within 25427967 m) (h : Keep m s₀ s) :
    Keep m s₀ (State.encCount s forward) := by
  unfold State.encCount
  iterate 60 try any_goals first
    | with_reducible assumption
    | with_reducible refine State.wr_keep (Within.trans rfl hm) ?_
    | with_reducible refine State.wrB_keep (Within.trans rfl hm) ?_
    | with_reducible refine State.cadRate_keep (Within.trans rfl hm) ?_
    | with_reducible refine State.cadAdvance_keep (Within.trans rfl hm) ?_
    | with_reducible refine State.cadSettle_keep (Within.trans rfl hm) ?_
    | with_reducible refine State.cadRef_keep (Within.trans rfl hm) ?_
    | with_reducible refine Keep.ite ?_ ?_
    | with_reducible refine Keep.setCad ?_ (hm.bit 10 rfl)

theorem cadEncCount_keep {m : Nat} {s₀ : State} {a : Bool} {b : Bool} {s : State} (hm : Within 25427967 m) (h : Keep m s₀ s) :
    Keep m s₀ (cadEncCount a b s) := by
  unfold cadEncCount
  iterate 60 try any_goals first
    | with_reducible assumption
    | with_reducible refine State.encIllegal_keep (Within.trans rfl hm) ?_
    | with_reducible refine State.encCount_keep (Within.trans rfl hm) ?_
    | with_reducible refine Keep.ite ?_ ?_
    | with_reducible refine Keep.setCad ?_ (hm.bit 10 rfl)

theorem cadEncIndex_keep {m : Nat} {s₀ : State} {s : State} (hm : Within 25427967 m) (h : Keep m s₀ s) :
    Keep m s₀ (cadEncIndex s) := by
  unfold cadEncIndex
  iterate 60 try any_goals first
    | with_reducible assumption
    | with_reducible refine State.wr_keep (Within.trans rfl hm) ?_
    | with_reducible refine State.cadSettle_keep (Within.trans rfl hm) ?_
    | with_reducible refine State.cadLock_keep (Within.trans rfl hm) ?_
    | with_reducible refine State.cadRate_keep (Within.trans rfl hm) ?_
    | with_reducible refine State.bump_keep (Within.trans rfl hm) ?_
    | with_reducible refine State.raise_keep (Within.trans rfl hm) ?_
    | with_reducible refine State.cadStepTo_keep (Within.trans rfl hm) ?_
    | with_reducible refine State.cadLoss_keep (Within.trans rfl hm) ?_
    | with_reducible refine Keep.ite ?_ ?_

theorem cadSchCopyDone_keep {m : Nat} {s₀ : State} {k : Nat} {s : State} (hm : Within 16796675 m) (h : Keep m s₀ s) :
    Keep m s₀ (cadSchCopyDone k s) := by
  unfold cadSchCopyDone
  iterate 60 try any_goals first
    | with_reducible assumption
    | with_reducible refine State.ddrRead_keep (Within.trans rfl hm) ?_
    | with_reducible refine State.freeBytes_keep (Within.trans rfl hm) ?_
    | with_reducible refine State.setSch_keep (Within.trans rfl hm) ?_
    | split

theorem cadSchReload_keep {m : Nat} {s₀ : State} {node : Nat} {agent : Nat} {s : State} (hm : Within 25427959 m) (h : Keep m s₀ s) :
    Keep m s₀ (cadSchReload node agent s) := by
  unfold cadSchReload
  iterate 60 try any_goals first
    | with_reducible assumption
    | with_reducible refine State.setupWrite_keep (Within.trans rfl hm) ?_

theorem State.epochJump_keep {m : Nat} {s₀ : State} {s : State} {t : Nat} (hm : Within 25427967 m) (h : Keep m s₀ s) :
    Keep m s₀ (State.epochJump s t) := by
  unfold State.epochJump
  iterate 60 try any_goals first
    | with_reducible assumption
    | with_reducible refine State.cadSettle_keep (Within.trans rfl hm) ?_
    | with_reducible refine State.cadStepTo_keep (Within.trans rfl hm) ?_
    | with_reducible refine Keep.ite ?_ ?_
    | with_reducible refine Keep.setNet ?_ (hm.bit 9 rfl)

theorem State.epochHeld_keep {m : Nat} {s₀ : State} {s : State} (hm : Within 513 m) (h : Keep m s₀ s) :
    Keep m s₀ (State.epochHeld s) := by
  unfold State.epochHeld
  iterate 60 try any_goals first
    | with_reducible assumption
    | with_reducible refine State.wr_keep (Within.trans rfl hm) ?_
    | with_reducible refine Keep.setNet ?_ (hm.bit 9 rfl)

theorem State.epochFollow_keep {m : Nat} {s₀ : State} {s : State} (hm : Within 25427967 m) (h : Keep m s₀ s) :
    Keep m s₀ (State.epochFollow s) := by
  unfold State.epochFollow
  iterate 60 try any_goals first
    | with_reducible assumption
    | with_reducible refine State.cadSettle_keep (Within.trans rfl hm) ?_
    | with_reducible refine State.epochRateSet_keep (Within.trans rfl hm) ?_
    | with_reducible refine Keep.ite ?_ ?_

theorem State.epochRef_keep {m : Nat} {s₀ : State} {s : State} (hm : Within 25427967 m) (h : Keep m s₀ s) :
    Keep m s₀ (State.epochRef s) := by
  unfold State.epochRef
  iterate 60 try any_goals first
    | with_reducible assumption
    | with_reducible refine State.epochHeld_keep (Within.trans rfl hm) ?_
    | with_reducible refine State.epochFollow_keep (Within.trans rfl hm) ?_
    | with_reducible refine State.cadRef_keep (Within.trans rfl hm) ?_
    | with_reducible refine Keep.ite ?_ ?_

theorem epochTx_keep {m : Nat} {s₀ : State} {s : State} (hm : Within 25427967 m) (h : Keep m s₀ s) :
    Keep m s₀ (epochTx s) := by
  unfold epochTx
  iterate 60 try any_goals first
    | with_reducible assumption
    | with_reducible refine State.epochJump_keep (Within.trans rfl hm) ?_
    | with_reducible refine State.epochRef_keep (Within.trans rfl hm) ?_
    | with_reducible refine State.injectOn_keep (Within.trans rfl hm) ?_
    | with_reducible refine Keep.ite ?_ ?_
    | with_reducible refine Keep.setNet ?_ (hm.bit 9 rfl)

theorem State.epochAdjust_keep {m : Nat} {s₀ : State} {s : State} {r : Nat} {h0 : Nat} {tx : Nat} {steps : Nat} (hm : Within 25427967 m) (h : Keep m s₀ s) :
    Keep m s₀ (State.epochAdjust s r h0 tx steps) := by
  unfold State.epochAdjust
  iterate 60 try any_goals first
    | with_reducible assumption
    | with_reducible refine State.wr_keep (Within.trans rfl hm) ?_
    | with_reducible refine State.raise_keep (Within.trans rfl hm) ?_
    | with_reducible refine State.bump_keep (Within.trans rfl hm) ?_
    | with_reducible refine State.epochJump_keep (Within.trans rfl hm) ?_
    | with_reducible refine State.epochRef_keep (Within.trans rfl hm) ?_
    | with_reducible refine Keep.ite ?_ ?_
    | with_reducible refine Keep.setNet ?_ (hm.bit 9 rfl)

theorem epochRx_keep {m : Nat} {s₀ : State} {queue : Nat} {s : State} (hm : Within 25427967 m) (h : Keep m s₀ s) :
    Keep m s₀ (epochRx queue s) := by
  unfold epochRx
  iterate 60 try any_goals first
    | with_reducible assumption
    | with_reducible refine State.wr_keep (Within.trans rfl hm) ?_
    | with_reducible refine State.withTaken_keep (Within.trans rfl hm) ?_ ?_
    | with_reducible refine State.sendOn_keep (Within.trans rfl hm) ?_
    | with_reducible refine State.epochAdjust_keep (Within.trans rfl hm) ?_
    | with_reducible refine Keep.ite ?_ ?_
    | (intro hx)
    | split
    | with_reducible refine Keep.setNet ?_ (hm.bit 9 rfl)

theorem netEpochLoss_keep {m : Nat} {s₀ : State} {s : State} (hm : Within 8392195 m) (h : Keep m s₀ s) :
    Keep m s₀ (netEpochLoss s) := by
  unfold netEpochLoss
  iterate 60 try any_goals first
    | with_reducible assumption
    | with_reducible refine State.raise_keep (Within.trans rfl hm) ?_
    | with_reducible refine State.wr_keep (Within.trans rfl hm) ?_
    | with_reducible refine State.cadLoss_keep (Within.trans rfl hm) ?_
    | with_reducible refine State.elect_keep (Within.trans rfl hm) ?_
    | with_reducible refine Keep.ite ?_ ?_
    | with_reducible refine Keep.setNet ?_ (hm.bit 9 rfl)

theorem netEpochSet_keep {m : Nat} {s₀ : State} {value : Word} {node : Nat} {agent : Nat} {s : State} (hm : Within 25427959 m) (h : Keep m s₀ s) :
    Keep m s₀ (netEpochSet value node agent s) := by
  unfold netEpochSet
  iterate 60 try any_goals first
    | with_reducible assumption
    | with_reducible refine State.setupWrite_keep (Within.trans rfl hm) ?_

end Sys2Proof.Machine
end

