-- ==== Sys2Proof/Laws/KeepBoot.lean ====
section
/-! SUPPORT. What each operation of Boot, Crossbar leaves alone and keeps: its footprint as a mask of units, and that it keeps
the memories canonical, the queue of commands and a recorder key once set (see Laws/Keep.lean). -/

namespace Sys2Proof.Machine

set_option maxRecDepth 4000

theorem State.pinsOf_queue (old s : State) : (State.pinsOf old s).pending = old.pending := rfl

theorem State.slotStatKept_keep {m : Nat} {s₀ : State} {old : State} {s : State} {n : Nat} (hm : Within 1 m) (h : Keep m s₀ old) (h1 : Keep m s₀ s) :
    Keep m s₀ (State.slotStatKept old s n) := by
  unfold State.slotStatKept
  iterate 60 try any_goals first
    | with_reducible assumption
    | with_reducible refine State.wr_keep (Within.trans rfl hm) ?_
    | with_reducible refine Keep.ite ?_ ?_

theorem State.afterReset_keep {m : Nat} {s₀ : State} {s : State} (hm : Within 33554431 m) (h : Keep m s₀ s) :
    Keep m s₀ (State.afterReset s) := by
  unfold State.afterReset
  extract_lets r r1 r2 r3 r4 r5 t t1
  have ht : Keep m s₀ t := Keep.all hm h (fun hi => ⟨Regs.wf_mk (r := Regs.mk _ _ _ _ _) (twf_filter _ _ _ (Regs.wf_left hi.1)) rfl, hi.2.1, hi.2.2⟩) rfl
    (fun hk => ⟨hk, rfl⟩)
  clear_value t
  have h1 : Keep m s₀ t1 := State.wr_keep (Within.trans rfl hm) (State.wr_keep (Within.trans rfl hm) ht)
  clear_value t1
  exact Keep.foldl (fun x a hx => State.slotStatKept_keep (Within.trans rfl hm) h hx) _ h1

theorem State.afterPower_keep {m : Nat} {s₀ : State} {s : State} (hm : Within 33554431 m) (h : Keep m s₀ s) :
    Keep m s₀ (State.afterPower s) := by
  exact Keep.all hm h (fun hi => ⟨rfl, rfl, hi.2.2⟩) rfl (fun hk => ⟨hk, rfl⟩)

theorem State.noteCause_keep {m : Nat} {s₀ : State} {s : State} {code : Nat} (hm : Within 5 m) (h : Keep m s₀ s) :
    Keep m s₀ (State.noteCause s code) := by
  unfold State.noteCause
  iterate 60 try any_goals first
    | with_reducible assumption
    | with_reducible refine State.wr_keep (Within.trans rfl hm) ?_
    | with_reducible refine Keep.ite ?_ ?_
    | with_reducible refine Keep.setBoot ?_ (hm.bit 2 rfl) (fun hx => ⟨hx, rfl⟩)

theorem State.discardRecord_keep {m : Nat} {s₀ : State} {s : State} {code : Nat} (hm : Within 67795 m) (h : Keep m s₀ s) :
    Keep m s₀ (State.discardRecord s code) := by
  unfold State.discardRecord
  iterate 60 try any_goals first
    | with_reducible assumption
    | with_reducible refine State.discardQueue_keep (Within.trans rfl hm) ?_
    | with_reducible refine State.setRec_keep (Within.trans rfl hm) ?_ (fun hx => hx)
    | with_reducible refine State.recordAt_keep (Within.trans rfl hm) ?_
    | with_reducible refine Keep.ite ?_ ?_
    | (intro hx)
    | split

theorem State.chipReset_keep {m : Nat} {s₀ : State} {s : State} {code : Nat} (hm : Within 33554431 m) (h : Keep m s₀ s) :
    Keep m s₀ (State.chipReset s code) := by
  unfold State.chipReset
  iterate 60 try any_goals first
    | with_reducible assumption
    | with_reducible refine State.noteCause_keep (Within.trans rfl hm) ?_
    | with_reducible refine State.afterReset_keep (Within.trans rfl hm) ?_
    | with_reducible refine State.discardRecord_keep (Within.trans rfl hm) ?_

theorem State.holdSysreset_keep {m : Nat} {s₀ : State} {s : State} {on : Bool} (hm : Within 8388624 m) (h : Keep m s₀ s) :
    Keep m s₀ (State.holdSysreset s on) := by
  unfold State.holdSysreset
  iterate 60 try any_goals first
    | with_reducible assumption
    | with_reducible refine State.emit_keep (Within.trans rfl hm) ?_
    | with_reducible refine Keep.ite ?_ ?_
    | (intro hx)
    | split
    | with_reducible refine Keep.setVme ?_ (hm.bit 4 rfl)

theorem powerOn_keep {m : Nat} {s₀ : State} {s : State} (hm : Within 33554431 m) (h : Keep m s₀ s) :
    Keep m s₀ (powerOn s) := by
  unfold powerOn
  iterate 60 try any_goals first
    | with_reducible assumption
    | with_reducible refine State.afterPower_keep (Within.trans rfl hm) ?_
    | with_reducible refine State.noteCause_keep (Within.trans rfl hm) ?_
    | with_reducible refine State.holdSysreset_keep (Within.trans rfl hm) ?_
    | split

theorem resetN_keep {m : Nat} {s₀ : State} {s : State} (hm : Within 33554431 m) (h : Keep m s₀ s) :
    Keep m s₀ (resetN s) := by
  unfold resetN
  iterate 60 try any_goals first
    | with_reducible assumption
    | with_reducible refine State.chipReset_keep (Within.trans rfl hm) ?_
    | with_reducible refine State.holdSysreset_keep (Within.trans rfl hm) ?_
    | split

theorem perstN_keep {m : Nat} {s₀ : State} {s : State} (hm : Within 8424135 m) (h : Keep m s₀ s) :
    Keep m s₀ (perstN s) := by
  unfold perstN
  iterate 60 try any_goals first
    | with_reducible assumption
    | with_reducible refine State.functionReset_keep (Within.trans rfl hm) ?_
    | with_reducible refine State.pcieDown_keep (Within.trans rfl hm) ?_
    | with_reducible refine State.setShd_keep (Within.trans rfl hm) ?_
    | with_reducible refine State.setReg_keep (Within.trans rfl hm) ?_
    | with_reducible refine State.noteCause_keep (Within.trans rfl hm) ?_
    | with_reducible refine Keep.foldl (fun x a hx => ?_) _ ?_
    | with_reducible refine Keep.ite ?_ ?_

theorem ringCmd_keep {m : Nat} {s₀ : State} {s : State} (hm : Within 33554431 m) (h : Keep m s₀ s) :
    Keep m s₀ (ringCmd s) := by
  unfold ringCmd
  iterate 60 try any_goals first
    | with_reducible assumption
    | with_reducible refine State.chipReset_keep (Within.trans rfl hm) ?_
    | with_reducible refine Keep.ite ?_ ?_

theorem chipWdog_keep {m : Nat} {s₀ : State} {s : State} (hm : Within 33554431 m) (h : Keep m s₀ s) :
    Keep m s₀ (chipWdog s) := by
  unfold chipWdog
  iterate 60 try any_goals first
    | with_reducible assumption
    | with_reducible refine State.chipReset_keep (Within.trans rfl hm) ?_
    | with_reducible refine State.recordAt_keep (Within.trans rfl hm) ?_
    | with_reducible refine Keep.ite ?_ ?_

theorem serviceLoopComplete_keep {m : Nat} {s₀ : State} {s : State} (hm : Within 4 m) (h : Keep m s₀ s) :
    Keep m s₀ (serviceLoopComplete s) := by
  unfold serviceLoopComplete
  iterate 60 try any_goals first
    | with_reducible assumption
    | with_reducible refine Keep.ite ?_ ?_
    | with_reducible refine Keep.setBoot ?_ (hm.bit 2 rfl) (fun hx => ⟨hx, rfl⟩)

theorem State.idCheck_keep {m : Nat} {s₀ : State} {s : State} (hm : Within 3 m) (h : Keep m s₀ s) :
    Keep m s₀ (State.idCheck s) := by
  unfold State.idCheck
  iterate 60 try any_goals first
    | with_reducible assumption
    | with_reducible refine State.wr_keep (Within.trans rfl hm) ?_
    | with_reducible refine State.raise_keep (Within.trans rfl hm) ?_
    | with_reducible refine Keep.ite ?_ ?_
    | (intro hx)
    | split

theorem State.sample_keep {m : Nat} {s₀ : State} {s : State} {x : Straps} (hm : Within 7 m) (h : Keep m s₀ s) :
    Keep m s₀ (State.sample s x) := by
  unfold State.sample
  iterate 60 try any_goals first
    | with_reducible assumption
    | with_reducible refine State.wr_keep (Within.trans rfl hm) ?_
    | with_reducible refine State.wrB_keep (Within.trans rfl hm) ?_
    | with_reducible refine State.idCheck_keep (Within.trans rfl hm) ?_
    | with_reducible refine Keep.ite ?_ ?_
    | (intro hx)
    | split
    | with_reducible refine Keep.setBoot ?_ (hm.bit 2 rfl) (fun hx => ⟨hx, rfl⟩)

theorem resetRelease_keep {m : Nat} {s₀ : State} {source : Nat} {x : Straps} {s : State} (hm : Within 8388631 m) (h : Keep m s₀ s) :
    Keep m s₀ (resetRelease source x s) := by
  unfold resetRelease
  iterate 60 try any_goals first
    | with_reducible assumption
    | with_reducible refine State.emit_keep (Within.trans rfl hm) ?_
    | with_reducible refine State.svcGreet_keep (Within.trans rfl hm) ?_
    | with_reducible refine State.sample_keep (Within.trans rfl hm) ?_
    | with_reducible refine Keep.ite ?_ ?_
    | (intro hx)
    | split
    | with_reducible refine Keep.setBoot ?_ (hm.bit 2 rfl) (fun hx => ⟨hx, rfl⟩)
    | with_reducible refine Keep.setVme ?_ (hm.bit 4 rfl)

theorem pllLock_keep {m : Nat} {s₀ : State} {s : State} (hm : Within 5 m) (h : Keep m s₀ s) :
    Keep m s₀ (pllLock s) := by
  unfold pllLock
  iterate 60 try any_goals first
    | with_reducible assumption
    | with_reducible refine State.wr_keep (Within.trans rfl hm) ?_
    | with_reducible refine Keep.ite ?_ ?_
    | with_reducible refine Keep.setBoot ?_ (hm.bit 2 rfl) (fun hx => ⟨hx, rfl⟩)

theorem State.preloadJudge_keep {m : Nat} {s₀ : State} {s : State} {both : Bool} {off : Nat} {v : Word} (hm : Within 1 m) (h : Keep m s₀ s) :
    Keep m s₀ (State.preloadJudge s both off v).2 := by
  unfold State.preloadJudge
  iterate 60 try any_goals first
    | with_reducible assumption
    | with_reducible refine State.setReg_keep (Within.trans rfl hm) ?_
    | with_reducible refine State.setShd_keep (Within.trans rfl hm) ?_
    | with_reducible refine Keep.ite ?_ ?_
    | (intro hx)
    | split

theorem State.preloadsDone_keep {m : Nat} {s₀ : State} {s : State} (hm : Within 1025 m) (h : Keep m s₀ s) :
    Keep m s₀ (State.preloadsDone s) := by
  unfold State.preloadsDone
  iterate 60 try any_goals first
    | with_reducible assumption
    | with_reducible refine State.wr_keep (Within.trans rfl hm) ?_
    | with_reducible refine State.setSch_keep (Within.trans rfl hm) ?_
    | with_reducible refine Keep.foldl (fun x a hx => ?_) _ ?_
    | with_reducible refine Keep.ite ?_ ?_

theorem State.loadImage_keep {m : Nat} {s₀ : State} {s : State} {copy : Nat} {i : Image} {trained : Bool} {pmbus : List (Nat × Nat × Nat)} (hm : Within 25427959 m) (h : Keep m s₀ s) :
    Keep m s₀ (State.loadImage s copy i trained pmbus) := by
  unfold State.loadImage
  iterate 60 try any_goals first
    | with_reducible assumption
    | with_reducible refine State.idCheck_keep (Within.trans rfl hm) ?_
    | with_reducible refine State.loadDrover_keep (Within.trans rfl hm) ?_
    | with_reducible refine State.wr_keep (Within.trans rfl hm) ?_
    | with_reducible refine State.recRestore_keep (Within.trans rfl hm) ?_
    | with_reducible refine State.setDrover_keep (Within.trans rfl hm) ?_
    | with_reducible refine State.preloadWrite_keep (Within.trans rfl hm) ?_
    | with_reducible refine State.preloadsDone_keep (Within.trans rfl hm) ?_
    | with_reducible refine State.stageStep_keep (Within.trans rfl hm) ?_
    | with_reducible refine State.cadSelect_keep (Within.trans rfl hm) ?_
    | with_reducible refine Keep.foldl (fun x a hx => ?_) _ ?_
    | with_reducible refine Keep.ite ?_ ?_
    | with_reducible refine Keep.setBoot ?_ (hm.bit 2 rfl) (fun hx => ⟨hx, rfl⟩)
    | with_reducible refine Keep.setDdr ?_ (hm.bit 14 rfl) (fun _ => rfl)

theorem State.copyBad_keep {m : Nat} {s₀ : State} {s : State} {copy : Nat} {check : Nat} (hm : Within 3 m) (h : Keep m s₀ s) :
    Keep m s₀ (State.copyBad s copy check) := by
  unfold State.copyBad
  iterate 60 try any_goals first
    | with_reducible assumption
    | with_reducible refine State.raise_keep (Within.trans rfl hm) ?_
    | with_reducible refine State.wr_keep (Within.trans rfl hm) ?_

theorem bootLoadDone_keep {m : Nat} {s₀ : State} {copyA : List Byte} {copyB : List Byte} {trained : Bool} {pmbus : List (Nat × Nat × Nat)} {s : State} (hm : Within 25427959 m) (h : Keep m s₀ s) :
    Keep m s₀ (bootLoadDone copyA copyB trained pmbus s) := by
  unfold bootLoadDone
  iterate 60 try any_goals first
    | with_reducible assumption
    | with_reducible refine State.loadImage_keep (Within.trans rfl hm) ?_
    | with_reducible refine State.copyBad_keep (Within.trans rfl hm) ?_
    | with_reducible refine State.wr_keep (Within.trans rfl hm) ?_
    | with_reducible refine Keep.ite ?_ ?_

theorem bootStageTimeout_keep {m : Nat} {s₀ : State} {s : State} (hm : Within 3 m) (h : Keep m s₀ s) :
    Keep m s₀ (bootStageTimeout s) := by
  unfold bootStageTimeout
  iterate 60 try any_goals first
    | with_reducible assumption
    | with_reducible refine State.wr_keep (Within.trans rfl hm) ?_
    | with_reducible refine State.raise_keep (Within.trans rfl hm) ?_
    | with_reducible refine State.stageStep_keep (Within.trans rfl hm) ?_
    | with_reducible refine Keep.ite ?_ ?_

theorem bootOpen_keep {m : Nat} {s₀ : State} {s : State} (hm : Within 25427959 m) (h : Keep m s₀ s) :
    Keep m s₀ (bootOpen s) := by
  unfold bootOpen
  iterate 60 try any_goals first
    | with_reducible assumption
    | with_reducible refine State.preloadWrite_keep (Within.trans rfl hm) ?_
    | with_reducible refine Keep.foldl (fun x a hx => ?_) _ ?_
    | with_reducible refine Keep.ite ?_ ?_
    | with_reducible refine Keep.setBoot ?_ (hm.bit 2 rfl) (fun hx => ⟨hx, rfl⟩)

theorem State.xbarFree_keep {m : Nat} {s₀ : State} {s : State} {dest : Nat} {freed : List Nat} (hm : Within 262144 m)
    (h : Keep m s₀ s) : Keep m s₀ (State.xbarFree s dest freed) := Keep.setXbar h (hm.bit 18 rfl)

theorem State.xbarGrant_keep {m : Nat} {s₀ : State} {s : State} {dest : Nat} {r : XferReq} {t : Nat × Nat} (hm : Within 262144 m)
    (h : Keep m s₀ s) : Keep m s₀ (State.xbarGrant s dest r t) := Keep.setXbar h (hm.bit 18 rfl)

theorem crossbarTransfer_keep {m : Nat} {s₀ : State} {dest : Nat} {freed : List Nat} {waiting : List (Nat × Nat × Nat × Nat)} {s : State} (hm : Within 262147 m) (h : Keep m s₀ s) :
    Keep m s₀ (crossbarTransfer dest freed waiting s) := by
  unfold crossbarTransfer
  split
  · exact h
  · have h1 := State.xbarFree_keep (dest := dest) (freed := freed) (Within.trans rfl hm) h
    extract_lets y
    have hy : Keep m s₀ y := h1
    clear_value y
    split
    · exact hy
    · refine State.xbarGrant_keep (Within.trans rfl hm) ?_
      split
      · rename_i e
        have hx := State.injTake_keep' e (Within.trans rfl hm) hy
        exact State.raise_keep (Within.trans rfl hm) hx
      · rename_i e
        exact State.injTake_keep' e (Within.trans rfl hm) hy

end Sys2Proof.Machine
end

