-- ==== Sys2Proof/Laws/State.lean ====
section
/-! SUPPORT. What each update of one unit leaves: the unit it writes, and every other field as it was. Lemmas about updates of
registers are proved by `id rfl`, so that `simp` applies them as equations and the kernel never compares two register banks. -/

namespace Sys2Proof.Machine

/-! ### `State.setReg` -/

@[simp] theorem State.setReg_regs (s : State) (k : Nat) (v : Word) : (s.setReg k v).regs = { s.regs with eff := tput resetWord s.regs.eff k v } := rfl
@[simp] theorem State.setReg_flt (s : State) (k : Nat) (v : Word) : (s.setReg k v).flt = s.flt := id rfl
@[simp] theorem State.setReg_boot (s : State) (k : Nat) (v : Word) : (s.setReg k v).boot = s.boot := id rfl
@[simp] theorem State.setReg_commits (s : State) (k : Nat) (v : Word) : (s.setReg k v).commits = s.commits := id rfl
@[simp] theorem State.setReg_vme (s : State) (k : Nat) (v : Word) : (s.setReg k v).vme = s.vme := id rfl
@[simp] theorem State.setReg_vin (s : State) (k : Nat) (v : Word) : (s.setReg k v).vin = s.vin := id rfl
@[simp] theorem State.setReg_drv (s : State) (k : Nat) (v : Word) : (s.setReg k v).drv = s.drv := id rfl
@[simp] theorem State.setReg_ord (s : State) (k : Nat) (v : Word) : (s.setReg k v).ord = s.ord := id rfl
@[simp] theorem State.setReg_fold (s : State) (k : Nat) (v : Word) : (s.setReg k v).fold = s.fold := id rfl
@[simp] theorem State.setReg_net (s : State) (k : Nat) (v : Word) : (s.setReg k v).net = s.net := id rfl
@[simp] theorem State.setReg_cad (s : State) (k : Nat) (v : Word) : (s.setReg k v).cad = s.cad := id rfl
@[simp] theorem State.setReg_stat (s : State) (k : Nat) (v : Word) : (s.setReg k v).stat = s.stat := id rfl
@[simp] theorem State.setReg_twin (s : State) (k : Nat) (v : Word) : (s.setReg k v).twin = s.twin := id rfl
@[simp] theorem State.setReg_port (s : State) (k : Nat) (v : Word) : (s.setReg k v).port = s.port := id rfl
@[simp] theorem State.setReg_ddr (s : State) (k : Nat) (v : Word) : (s.setReg k v).ddr = s.ddr := id rfl
@[simp] theorem State.setReg_host (s : State) (k : Nat) (v : Word) : (s.setReg k v).host = s.host := id rfl
@[simp] theorem State.setReg_recd (s : State) (k : Nat) (v : Word) : (s.setReg k v).recd = s.recd := id rfl
@[simp] theorem State.setReg_pwr (s : State) (k : Nat) (v : Word) : (s.setReg k v).pwr = s.pwr := id rfl
@[simp] theorem State.setReg_xbar (s : State) (k : Nat) (v : Word) : (s.setReg k v).xbar = s.xbar := id rfl
@[simp] theorem State.setReg_svc (s : State) (k : Nat) (v : Word) : (s.setReg k v).svc = s.svc := id rfl
@[simp] theorem State.setReg_tap (s : State) (k : Nat) (v : Word) : (s.setReg k v).tap = s.tap := id rfl
@[simp] theorem State.setReg_cyc (s : State) (k : Nat) (v : Word) : (s.setReg k v).cyc = s.cyc := id rfl
@[simp] theorem State.setReg_ticks (s : State) (k : Nat) (v : Word) : (s.setReg k v).ticks = s.ticks := id rfl
@[simp] theorem State.setReg_out (s : State) (k : Nat) (v : Word) : (s.setReg k v).out = s.out := id rfl
@[simp] theorem State.setReg_freeCtr (s : State) (k : Nat) (v : Word) : (s.setReg k v).freeCtr = s.freeCtr := id rfl
@[simp] theorem State.setReg_pending (s : State) (k : Nat) (v : Word) : (s.setReg k v).pending = s.pending := id rfl

/-! ### `State.setShd` -/

@[simp] theorem State.setShd_regs (s : State) (k : Nat) (v : Word) : (s.setShd k v).regs = { s.regs with shadow := tput shadowReset s.regs.shadow k (v &&& stagedMask k) } := rfl
@[simp] theorem State.setShd_flt (s : State) (k : Nat) (v : Word) : (s.setShd k v).flt = s.flt := id rfl
@[simp] theorem State.setShd_boot (s : State) (k : Nat) (v : Word) : (s.setShd k v).boot = s.boot := id rfl
@[simp] theorem State.setShd_commits (s : State) (k : Nat) (v : Word) : (s.setShd k v).commits = s.commits := id rfl
@[simp] theorem State.setShd_vme (s : State) (k : Nat) (v : Word) : (s.setShd k v).vme = s.vme := id rfl
@[simp] theorem State.setShd_vin (s : State) (k : Nat) (v : Word) : (s.setShd k v).vin = s.vin := id rfl
@[simp] theorem State.setShd_drv (s : State) (k : Nat) (v : Word) : (s.setShd k v).drv = s.drv := id rfl
@[simp] theorem State.setShd_ord (s : State) (k : Nat) (v : Word) : (s.setShd k v).ord = s.ord := id rfl
@[simp] theorem State.setShd_fold (s : State) (k : Nat) (v : Word) : (s.setShd k v).fold = s.fold := id rfl
@[simp] theorem State.setShd_net (s : State) (k : Nat) (v : Word) : (s.setShd k v).net = s.net := id rfl
@[simp] theorem State.setShd_cad (s : State) (k : Nat) (v : Word) : (s.setShd k v).cad = s.cad := id rfl
@[simp] theorem State.setShd_stat (s : State) (k : Nat) (v : Word) : (s.setShd k v).stat = s.stat := id rfl
@[simp] theorem State.setShd_twin (s : State) (k : Nat) (v : Word) : (s.setShd k v).twin = s.twin := id rfl
@[simp] theorem State.setShd_port (s : State) (k : Nat) (v : Word) : (s.setShd k v).port = s.port := id rfl
@[simp] theorem State.setShd_ddr (s : State) (k : Nat) (v : Word) : (s.setShd k v).ddr = s.ddr := id rfl
@[simp] theorem State.setShd_host (s : State) (k : Nat) (v : Word) : (s.setShd k v).host = s.host := id rfl
@[simp] theorem State.setShd_recd (s : State) (k : Nat) (v : Word) : (s.setShd k v).recd = s.recd := id rfl
@[simp] theorem State.setShd_pwr (s : State) (k : Nat) (v : Word) : (s.setShd k v).pwr = s.pwr := id rfl
@[simp] theorem State.setShd_xbar (s : State) (k : Nat) (v : Word) : (s.setShd k v).xbar = s.xbar := id rfl
@[simp] theorem State.setShd_svc (s : State) (k : Nat) (v : Word) : (s.setShd k v).svc = s.svc := id rfl
@[simp] theorem State.setShd_tap (s : State) (k : Nat) (v : Word) : (s.setShd k v).tap = s.tap := id rfl
@[simp] theorem State.setShd_cyc (s : State) (k : Nat) (v : Word) : (s.setShd k v).cyc = s.cyc := id rfl
@[simp] theorem State.setShd_ticks (s : State) (k : Nat) (v : Word) : (s.setShd k v).ticks = s.ticks := id rfl
@[simp] theorem State.setShd_out (s : State) (k : Nat) (v : Word) : (s.setShd k v).out = s.out := id rfl
@[simp] theorem State.setShd_freeCtr (s : State) (k : Nat) (v : Word) : (s.setShd k v).freeCtr = s.freeCtr := id rfl
@[simp] theorem State.setShd_pending (s : State) (k : Nat) (v : Word) : (s.setShd k v).pending = s.pending := id rfl

/-! ### `State.statSet` -/

@[simp] theorem State.statSet_regs (s : State) (off v : Nat) : (s.statSet off v).regs = s.regs := rfl
@[simp] theorem State.statSet_flt (s : State) (off v : Nat) : (s.statSet off v).flt = s.flt := rfl
@[simp] theorem State.statSet_boot (s : State) (off v : Nat) : (s.statSet off v).boot = s.boot := rfl
@[simp] theorem State.statSet_commits (s : State) (off v : Nat) : (s.statSet off v).commits = s.commits := rfl
@[simp] theorem State.statSet_vme (s : State) (off v : Nat) : (s.statSet off v).vme = s.vme := rfl
@[simp] theorem State.statSet_vin (s : State) (off v : Nat) : (s.statSet off v).vin = s.vin := rfl
@[simp] theorem State.statSet_drv (s : State) (off v : Nat) : (s.statSet off v).drv = s.drv := rfl
@[simp] theorem State.statSet_ord (s : State) (off v : Nat) : (s.statSet off v).ord = s.ord := rfl
@[simp] theorem State.statSet_fold (s : State) (off v : Nat) : (s.statSet off v).fold = s.fold := rfl
@[simp] theorem State.statSet_net (s : State) (off v : Nat) : (s.statSet off v).net = s.net := rfl
@[simp] theorem State.statSet_cad (s : State) (off v : Nat) : (s.statSet off v).cad = s.cad := rfl
@[simp] theorem State.statSet_stat (s : State) (off v : Nat) : (s.statSet off v).stat = { s.stat with cnt := tput zeroWord s.stat.cnt (off / 4) (BitVec.ofNat 32 v) } := rfl
@[simp] theorem State.statSet_twin (s : State) (off v : Nat) : (s.statSet off v).twin = s.twin := rfl
@[simp] theorem State.statSet_port (s : State) (off v : Nat) : (s.statSet off v).port = s.port := rfl
@[simp] theorem State.statSet_ddr (s : State) (off v : Nat) : (s.statSet off v).ddr = s.ddr := rfl
@[simp] theorem State.statSet_host (s : State) (off v : Nat) : (s.statSet off v).host = s.host := rfl
@[simp] theorem State.statSet_recd (s : State) (off v : Nat) : (s.statSet off v).recd = s.recd := rfl
@[simp] theorem State.statSet_pwr (s : State) (off v : Nat) : (s.statSet off v).pwr = s.pwr := rfl
@[simp] theorem State.statSet_xbar (s : State) (off v : Nat) : (s.statSet off v).xbar = s.xbar := rfl
@[simp] theorem State.statSet_svc (s : State) (off v : Nat) : (s.statSet off v).svc = s.svc := rfl
@[simp] theorem State.statSet_tap (s : State) (off v : Nat) : (s.statSet off v).tap = s.tap := rfl
@[simp] theorem State.statSet_cyc (s : State) (off v : Nat) : (s.statSet off v).cyc = s.cyc := rfl
@[simp] theorem State.statSet_ticks (s : State) (off v : Nat) : (s.statSet off v).ticks = s.ticks := rfl
@[simp] theorem State.statSet_out (s : State) (off v : Nat) : (s.statSet off v).out = s.out := rfl
@[simp] theorem State.statSet_freeCtr (s : State) (off v : Nat) : (s.statSet off v).freeCtr = s.freeCtr := rfl
@[simp] theorem State.statSet_pending (s : State) (off v : Nat) : (s.statSet off v).pending = s.pending := rfl
@[simp] theorem State.statSet_reg (s : State) (off v : Nat) (k0 : Nat) : (s.statSet off v).reg k0 = s.reg k0 := rfl
@[simp] theorem State.statSet_rd (s : State) (off v : Nat) (f0 : Fld) : (s.statSet off v).rd f0 = s.rd f0 := rfl
@[simp] theorem State.statSet_bit (s : State) (off v : Nat) (f0 : Fld) : (s.statSet off v).bit f0 = s.bit f0 := rfl
@[simp] theorem State.statSet_shd (s : State) (off v : Nat) (k0 : Nat) : (s.statSet off v).shd k0 = s.shd k0 := rfl
@[simp] theorem State.statSet_up (s : State) (off v : Nat) (p0 : Part) : (s.statSet off v).up p0 = s.up p0 := rfl

/-! ### `State.emit` -/

@[simp] theorem State.emit_regs (s : State) (o : Out) : (s.emit o).regs = s.regs := rfl
@[simp] theorem State.emit_flt (s : State) (o : Out) : (s.emit o).flt = s.flt := rfl
@[simp] theorem State.emit_boot (s : State) (o : Out) : (s.emit o).boot = s.boot := rfl
@[simp] theorem State.emit_commits (s : State) (o : Out) : (s.emit o).commits = s.commits := rfl
@[simp] theorem State.emit_vme (s : State) (o : Out) : (s.emit o).vme = s.vme := rfl
@[simp] theorem State.emit_vin (s : State) (o : Out) : (s.emit o).vin = s.vin := rfl
@[simp] theorem State.emit_drv (s : State) (o : Out) : (s.emit o).drv = s.drv := rfl
@[simp] theorem State.emit_ord (s : State) (o : Out) : (s.emit o).ord = s.ord := rfl
@[simp] theorem State.emit_fold (s : State) (o : Out) : (s.emit o).fold = s.fold := rfl
@[simp] theorem State.emit_net (s : State) (o : Out) : (s.emit o).net = s.net := rfl
@[simp] theorem State.emit_cad (s : State) (o : Out) : (s.emit o).cad = s.cad := rfl
@[simp] theorem State.emit_stat (s : State) (o : Out) : (s.emit o).stat = s.stat := rfl
@[simp] theorem State.emit_twin (s : State) (o : Out) : (s.emit o).twin = s.twin := rfl
@[simp] theorem State.emit_port (s : State) (o : Out) : (s.emit o).port = s.port := rfl
@[simp] theorem State.emit_ddr (s : State) (o : Out) : (s.emit o).ddr = s.ddr := rfl
@[simp] theorem State.emit_host (s : State) (o : Out) : (s.emit o).host = s.host := rfl
@[simp] theorem State.emit_recd (s : State) (o : Out) : (s.emit o).recd = s.recd := rfl
@[simp] theorem State.emit_pwr (s : State) (o : Out) : (s.emit o).pwr = s.pwr := rfl
@[simp] theorem State.emit_xbar (s : State) (o : Out) : (s.emit o).xbar = s.xbar := rfl
@[simp] theorem State.emit_svc (s : State) (o : Out) : (s.emit o).svc = s.svc := rfl
@[simp] theorem State.emit_tap (s : State) (o : Out) : (s.emit o).tap = s.tap := rfl
@[simp] theorem State.emit_cyc (s : State) (o : Out) : (s.emit o).cyc = s.cyc := rfl
@[simp] theorem State.emit_ticks (s : State) (o : Out) : (s.emit o).ticks = s.ticks := rfl
@[simp] theorem State.emit_out (s : State) (o : Out) : (s.emit o).out = o :: s.out := rfl
@[simp] theorem State.emit_freeCtr (s : State) (o : Out) : (s.emit o).freeCtr = s.freeCtr := rfl
@[simp] theorem State.emit_pending (s : State) (o : Out) : (s.emit o).pending = s.pending := rfl
@[simp] theorem State.emit_reg (s : State) (o : Out) (k0 : Nat) : (s.emit o).reg k0 = s.reg k0 := rfl
@[simp] theorem State.emit_rd (s : State) (o : Out) (f0 : Fld) : (s.emit o).rd f0 = s.rd f0 := rfl
@[simp] theorem State.emit_bit (s : State) (o : Out) (f0 : Fld) : (s.emit o).bit f0 = s.bit f0 := rfl
@[simp] theorem State.emit_shd (s : State) (o : Out) (k0 : Nat) : (s.emit o).shd k0 = s.shd k0 := rfl
@[simp] theorem State.emit_up (s : State) (o : Out) (p0 : Part) : (s.emit o).up p0 = s.up p0 := rfl

/-! ### `State.raise` -/

@[simp] theorem State.raise_regs (s : State) (code src : Nat) (ps : List Nat) : (s.raise code src ps).regs = s.regs := rfl
@[simp] theorem State.raise_flt (s : State) (code src : Nat) (ps : List Nat) : (s.raise code src ps).flt = { s.flt with raised := s.flt.raised ++ [⟨code, src, fourParams src ps, s.cyc % 2 ^ 48, s.frame, BitVec.ofNat 32 s.phase⟩] } := rfl
@[simp] theorem State.raise_boot (s : State) (code src : Nat) (ps : List Nat) : (s.raise code src ps).boot = s.boot := rfl
@[simp] theorem State.raise_commits (s : State) (code src : Nat) (ps : List Nat) : (s.raise code src ps).commits = s.commits := rfl
@[simp] theorem State.raise_vme (s : State) (code src : Nat) (ps : List Nat) : (s.raise code src ps).vme = s.vme := rfl
@[simp] theorem State.raise_vin (s : State) (code src : Nat) (ps : List Nat) : (s.raise code src ps).vin = s.vin := rfl
@[simp] theorem State.raise_drv (s : State) (code src : Nat) (ps : List Nat) : (s.raise code src ps).drv = s.drv := rfl
@[simp] theorem State.raise_ord (s : State) (code src : Nat) (ps : List Nat) : (s.raise code src ps).ord = s.ord := rfl
@[simp] theorem State.raise_fold (s : State) (code src : Nat) (ps : List Nat) : (s.raise code src ps).fold = s.fold := rfl
@[simp] theorem State.raise_net (s : State) (code src : Nat) (ps : List Nat) : (s.raise code src ps).net = s.net := rfl
@[simp] theorem State.raise_cad (s : State) (code src : Nat) (ps : List Nat) : (s.raise code src ps).cad = s.cad := rfl
@[simp] theorem State.raise_stat (s : State) (code src : Nat) (ps : List Nat) : (s.raise code src ps).stat = s.stat := rfl
@[simp] theorem State.raise_twin (s : State) (code src : Nat) (ps : List Nat) : (s.raise code src ps).twin = s.twin := rfl
@[simp] theorem State.raise_port (s : State) (code src : Nat) (ps : List Nat) : (s.raise code src ps).port = s.port := rfl
@[simp] theorem State.raise_ddr (s : State) (code src : Nat) (ps : List Nat) : (s.raise code src ps).ddr = s.ddr := rfl
@[simp] theorem State.raise_host (s : State) (code src : Nat) (ps : List Nat) : (s.raise code src ps).host = s.host := rfl
@[simp] theorem State.raise_recd (s : State) (code src : Nat) (ps : List Nat) : (s.raise code src ps).recd = s.recd := rfl
@[simp] theorem State.raise_pwr (s : State) (code src : Nat) (ps : List Nat) : (s.raise code src ps).pwr = s.pwr := rfl
@[simp] theorem State.raise_xbar (s : State) (code src : Nat) (ps : List Nat) : (s.raise code src ps).xbar = s.xbar := rfl
@[simp] theorem State.raise_svc (s : State) (code src : Nat) (ps : List Nat) : (s.raise code src ps).svc = s.svc := rfl
@[simp] theorem State.raise_tap (s : State) (code src : Nat) (ps : List Nat) : (s.raise code src ps).tap = s.tap := rfl
@[simp] theorem State.raise_cyc (s : State) (code src : Nat) (ps : List Nat) : (s.raise code src ps).cyc = s.cyc := rfl
@[simp] theorem State.raise_ticks (s : State) (code src : Nat) (ps : List Nat) : (s.raise code src ps).ticks = s.ticks := rfl
@[simp] theorem State.raise_out (s : State) (code src : Nat) (ps : List Nat) : (s.raise code src ps).out = s.out := rfl
@[simp] theorem State.raise_freeCtr (s : State) (code src : Nat) (ps : List Nat) : (s.raise code src ps).freeCtr = s.freeCtr := rfl
@[simp] theorem State.raise_pending (s : State) (code src : Nat) (ps : List Nat) : (s.raise code src ps).pending = s.pending := rfl
@[simp] theorem State.raise_reg (s : State) (code src : Nat) (ps : List Nat) (k0 : Nat) : (s.raise code src ps).reg k0 = s.reg k0 := rfl
@[simp] theorem State.raise_rd (s : State) (code src : Nat) (ps : List Nat) (f0 : Fld) : (s.raise code src ps).rd f0 = s.rd f0 := rfl
@[simp] theorem State.raise_bit (s : State) (code src : Nat) (ps : List Nat) (f0 : Fld) : (s.raise code src ps).bit f0 = s.bit f0 := rfl
@[simp] theorem State.raise_shd (s : State) (code src : Nat) (ps : List Nat) (k0 : Nat) : (s.raise code src ps).shd k0 = s.shd k0 := rfl
@[simp] theorem State.raise_up (s : State) (code src : Nat) (ps : List Nat) (p0 : Part) : (s.raise code src ps).up p0 = s.up p0 := rfl

/-! ### `State.setLink` -/

@[simp] theorem State.setLink_regs (s : State) (k : Nat) (x : Link) : (s.setLink k x).regs = s.regs := rfl
@[simp] theorem State.setLink_flt (s : State) (k : Nat) (x : Link) : (s.setLink k x).flt = s.flt := rfl
@[simp] theorem State.setLink_boot (s : State) (k : Nat) (x : Link) : (s.setLink k x).boot = s.boot := rfl
@[simp] theorem State.setLink_commits (s : State) (k : Nat) (x : Link) : (s.setLink k x).commits = s.commits := rfl
@[simp] theorem State.setLink_vme (s : State) (k : Nat) (x : Link) : (s.setLink k x).vme = s.vme := rfl
@[simp] theorem State.setLink_vin (s : State) (k : Nat) (x : Link) : (s.setLink k x).vin = s.vin := rfl
@[simp] theorem State.setLink_drv (s : State) (k : Nat) (x : Link) : (s.setLink k x).drv = s.drv := rfl
@[simp] theorem State.setLink_ord (s : State) (k : Nat) (x : Link) : (s.setLink k x).ord = s.ord := rfl
@[simp] theorem State.setLink_fold (s : State) (k : Nat) (x : Link) : (s.setLink k x).fold = s.fold := rfl
@[simp] theorem State.setLink_net (s : State) (k : Nat) (x : Link) : (s.setLink k x).net = { s.net with links := setAt s.net.links k x } := rfl
@[simp] theorem State.setLink_cad (s : State) (k : Nat) (x : Link) : (s.setLink k x).cad = s.cad := rfl
@[simp] theorem State.setLink_stat (s : State) (k : Nat) (x : Link) : (s.setLink k x).stat = s.stat := rfl
@[simp] theorem State.setLink_twin (s : State) (k : Nat) (x : Link) : (s.setLink k x).twin = s.twin := rfl
@[simp] theorem State.setLink_port (s : State) (k : Nat) (x : Link) : (s.setLink k x).port = s.port := rfl
@[simp] theorem State.setLink_ddr (s : State) (k : Nat) (x : Link) : (s.setLink k x).ddr = s.ddr := rfl
@[simp] theorem State.setLink_host (s : State) (k : Nat) (x : Link) : (s.setLink k x).host = s.host := rfl
@[simp] theorem State.setLink_recd (s : State) (k : Nat) (x : Link) : (s.setLink k x).recd = s.recd := rfl
@[simp] theorem State.setLink_pwr (s : State) (k : Nat) (x : Link) : (s.setLink k x).pwr = s.pwr := rfl
@[simp] theorem State.setLink_xbar (s : State) (k : Nat) (x : Link) : (s.setLink k x).xbar = s.xbar := rfl
@[simp] theorem State.setLink_svc (s : State) (k : Nat) (x : Link) : (s.setLink k x).svc = s.svc := rfl
@[simp] theorem State.setLink_tap (s : State) (k : Nat) (x : Link) : (s.setLink k x).tap = s.tap := rfl
@[simp] theorem State.setLink_cyc (s : State) (k : Nat) (x : Link) : (s.setLink k x).cyc = s.cyc := rfl
@[simp] theorem State.setLink_ticks (s : State) (k : Nat) (x : Link) : (s.setLink k x).ticks = s.ticks := rfl
@[simp] theorem State.setLink_out (s : State) (k : Nat) (x : Link) : (s.setLink k x).out = s.out := rfl
@[simp] theorem State.setLink_freeCtr (s : State) (k : Nat) (x : Link) : (s.setLink k x).freeCtr = s.freeCtr := rfl
@[simp] theorem State.setLink_pending (s : State) (k : Nat) (x : Link) : (s.setLink k x).pending = s.pending := rfl
@[simp] theorem State.setLink_reg (s : State) (k : Nat) (x : Link) (k0 : Nat) : (s.setLink k x).reg k0 = s.reg k0 := rfl
@[simp] theorem State.setLink_rd (s : State) (k : Nat) (x : Link) (f0 : Fld) : (s.setLink k x).rd f0 = s.rd f0 := rfl
@[simp] theorem State.setLink_bit (s : State) (k : Nat) (x : Link) (f0 : Fld) : (s.setLink k x).bit f0 = s.bit f0 := rfl
@[simp] theorem State.setLink_shd (s : State) (k : Nat) (x : Link) (k0 : Nat) : (s.setLink k x).shd k0 = s.shd k0 := rfl
@[simp] theorem State.setLink_up (s : State) (k : Nat) (x : Link) (p0 : Part) : (s.setLink k x).up p0 = s.up p0 := rfl

/-! ### `State.setLane` -/

@[simp] theorem State.setLane_regs (s : State) (l : Nat) (x : Lane) : (s.setLane l x).regs = s.regs := rfl
@[simp] theorem State.setLane_flt (s : State) (l : Nat) (x : Lane) : (s.setLane l x).flt = s.flt := rfl
@[simp] theorem State.setLane_boot (s : State) (l : Nat) (x : Lane) : (s.setLane l x).boot = s.boot := rfl
@[simp] theorem State.setLane_commits (s : State) (l : Nat) (x : Lane) : (s.setLane l x).commits = s.commits := rfl
@[simp] theorem State.setLane_vme (s : State) (l : Nat) (x : Lane) : (s.setLane l x).vme = s.vme := rfl
@[simp] theorem State.setLane_vin (s : State) (l : Nat) (x : Lane) : (s.setLane l x).vin = s.vin := rfl
@[simp] theorem State.setLane_drv (s : State) (l : Nat) (x : Lane) : (s.setLane l x).drv = s.drv := rfl
@[simp] theorem State.setLane_ord (s : State) (l : Nat) (x : Lane) : (s.setLane l x).ord = s.ord := rfl
@[simp] theorem State.setLane_fold (s : State) (l : Nat) (x : Lane) : (s.setLane l x).fold = s.fold := rfl
@[simp] theorem State.setLane_net (s : State) (l : Nat) (x : Lane) : (s.setLane l x).net = { s.net with lanes := setAt s.net.lanes l x } := rfl
@[simp] theorem State.setLane_cad (s : State) (l : Nat) (x : Lane) : (s.setLane l x).cad = s.cad := rfl
@[simp] theorem State.setLane_stat (s : State) (l : Nat) (x : Lane) : (s.setLane l x).stat = s.stat := rfl
@[simp] theorem State.setLane_twin (s : State) (l : Nat) (x : Lane) : (s.setLane l x).twin = s.twin := rfl
@[simp] theorem State.setLane_port (s : State) (l : Nat) (x : Lane) : (s.setLane l x).port = s.port := rfl
@[simp] theorem State.setLane_ddr (s : State) (l : Nat) (x : Lane) : (s.setLane l x).ddr = s.ddr := rfl
@[simp] theorem State.setLane_host (s : State) (l : Nat) (x : Lane) : (s.setLane l x).host = s.host := rfl
@[simp] theorem State.setLane_recd (s : State) (l : Nat) (x : Lane) : (s.setLane l x).recd = s.recd := rfl
@[simp] theorem State.setLane_pwr (s : State) (l : Nat) (x : Lane) : (s.setLane l x).pwr = s.pwr := rfl
@[simp] theorem State.setLane_xbar (s : State) (l : Nat) (x : Lane) : (s.setLane l x).xbar = s.xbar := rfl
@[simp] theorem State.setLane_svc (s : State) (l : Nat) (x : Lane) : (s.setLane l x).svc = s.svc := rfl
@[simp] theorem State.setLane_tap (s : State) (l : Nat) (x : Lane) : (s.setLane l x).tap = s.tap := rfl
@[simp] theorem State.setLane_cyc (s : State) (l : Nat) (x : Lane) : (s.setLane l x).cyc = s.cyc := rfl
@[simp] theorem State.setLane_ticks (s : State) (l : Nat) (x : Lane) : (s.setLane l x).ticks = s.ticks := rfl
@[simp] theorem State.setLane_out (s : State) (l : Nat) (x : Lane) : (s.setLane l x).out = s.out := rfl
@[simp] theorem State.setLane_freeCtr (s : State) (l : Nat) (x : Lane) : (s.setLane l x).freeCtr = s.freeCtr := rfl
@[simp] theorem State.setLane_pending (s : State) (l : Nat) (x : Lane) : (s.setLane l x).pending = s.pending := rfl
@[simp] theorem State.setLane_reg (s : State) (l : Nat) (x : Lane) (k0 : Nat) : (s.setLane l x).reg k0 = s.reg k0 := rfl
@[simp] theorem State.setLane_rd (s : State) (l : Nat) (x : Lane) (f0 : Fld) : (s.setLane l x).rd f0 = s.rd f0 := rfl
@[simp] theorem State.setLane_bit (s : State) (l : Nat) (x : Lane) (f0 : Fld) : (s.setLane l x).bit f0 = s.bit f0 := rfl
@[simp] theorem State.setLane_shd (s : State) (l : Nat) (x : Lane) (k0 : Nat) : (s.setLane l x).shd k0 = s.shd k0 := rfl
@[simp] theorem State.setLane_up (s : State) (l : Nat) (x : Lane) (p0 : Part) : (s.setLane l x).up p0 = s.up p0 := rfl

/-! ### `State.setNode` -/

@[simp] theorem State.setNode_regs (s : State) (n : Nat) (r : NodeRec) : (s.setNode n r).regs = s.regs := rfl
@[simp] theorem State.setNode_flt (s : State) (n : Nat) (r : NodeRec) : (s.setNode n r).flt = s.flt := rfl
@[simp] theorem State.setNode_boot (s : State) (n : Nat) (r : NodeRec) : (s.setNode n r).boot = s.boot := rfl
@[simp] theorem State.setNode_commits (s : State) (n : Nat) (r : NodeRec) : (s.setNode n r).commits = s.commits := rfl
@[simp] theorem State.setNode_vme (s : State) (n : Nat) (r : NodeRec) : (s.setNode n r).vme = s.vme := rfl
@[simp] theorem State.setNode_vin (s : State) (n : Nat) (r : NodeRec) : (s.setNode n r).vin = s.vin := rfl
@[simp] theorem State.setNode_drv (s : State) (n : Nat) (r : NodeRec) : (s.setNode n r).drv = s.drv := rfl
@[simp] theorem State.setNode_ord (s : State) (n : Nat) (r : NodeRec) : (s.setNode n r).ord = s.ord := rfl
@[simp] theorem State.setNode_fold (s : State) (n : Nat) (r : NodeRec) : (s.setNode n r).fold = s.fold := rfl
@[simp] theorem State.setNode_net (s : State) (n : Nat) (r : NodeRec) : (s.setNode n r).net = { s.net with nodes := tput NodeRec.absent s.net.nodes n r } := rfl
@[simp] theorem State.setNode_cad (s : State) (n : Nat) (r : NodeRec) : (s.setNode n r).cad = s.cad := rfl
@[simp] theorem State.setNode_stat (s : State) (n : Nat) (r : NodeRec) : (s.setNode n r).stat = s.stat := rfl
@[simp] theorem State.setNode_twin (s : State) (n : Nat) (r : NodeRec) : (s.setNode n r).twin = s.twin := rfl
@[simp] theorem State.setNode_port (s : State) (n : Nat) (r : NodeRec) : (s.setNode n r).port = s.port := rfl
@[simp] theorem State.setNode_ddr (s : State) (n : Nat) (r : NodeRec) : (s.setNode n r).ddr = s.ddr := rfl
@[simp] theorem State.setNode_host (s : State) (n : Nat) (r : NodeRec) : (s.setNode n r).host = s.host := rfl
@[simp] theorem State.setNode_recd (s : State) (n : Nat) (r : NodeRec) : (s.setNode n r).recd = s.recd := rfl
@[simp] theorem State.setNode_pwr (s : State) (n : Nat) (r : NodeRec) : (s.setNode n r).pwr = s.pwr := rfl
@[simp] theorem State.setNode_xbar (s : State) (n : Nat) (r : NodeRec) : (s.setNode n r).xbar = s.xbar := rfl
@[simp] theorem State.setNode_svc (s : State) (n : Nat) (r : NodeRec) : (s.setNode n r).svc = s.svc := rfl
@[simp] theorem State.setNode_tap (s : State) (n : Nat) (r : NodeRec) : (s.setNode n r).tap = s.tap := rfl
@[simp] theorem State.setNode_cyc (s : State) (n : Nat) (r : NodeRec) : (s.setNode n r).cyc = s.cyc := rfl
@[simp] theorem State.setNode_ticks (s : State) (n : Nat) (r : NodeRec) : (s.setNode n r).ticks = s.ticks := rfl
@[simp] theorem State.setNode_out (s : State) (n : Nat) (r : NodeRec) : (s.setNode n r).out = s.out := rfl
@[simp] theorem State.setNode_freeCtr (s : State) (n : Nat) (r : NodeRec) : (s.setNode n r).freeCtr = s.freeCtr := rfl
@[simp] theorem State.setNode_pending (s : State) (n : Nat) (r : NodeRec) : (s.setNode n r).pending = s.pending := rfl
@[simp] theorem State.setNode_reg (s : State) (n : Nat) (r : NodeRec) (k0 : Nat) : (s.setNode n r).reg k0 = s.reg k0 := rfl
@[simp] theorem State.setNode_rd (s : State) (n : Nat) (r : NodeRec) (f0 : Fld) : (s.setNode n r).rd f0 = s.rd f0 := rfl
@[simp] theorem State.setNode_bit (s : State) (n : Nat) (r : NodeRec) (f0 : Fld) : (s.setNode n r).bit f0 = s.bit f0 := rfl
@[simp] theorem State.setNode_shd (s : State) (n : Nat) (r : NodeRec) (k0 : Nat) : (s.setNode n r).shd k0 = s.shd k0 := rfl
@[simp] theorem State.setNode_up (s : State) (n : Nat) (r : NodeRec) (p0 : Part) : (s.setNode n r).up p0 = s.up p0 := rfl

/-! ### `State.setTag` -/

@[simp] theorem State.setTag_regs (s : State) (t : Nat) (r : Option TagRec) : (s.setTag t r).regs = s.regs := rfl
@[simp] theorem State.setTag_flt (s : State) (t : Nat) (r : Option TagRec) : (s.setTag t r).flt = s.flt := rfl
@[simp] theorem State.setTag_boot (s : State) (t : Nat) (r : Option TagRec) : (s.setTag t r).boot = s.boot := rfl
@[simp] theorem State.setTag_commits (s : State) (t : Nat) (r : Option TagRec) : (s.setTag t r).commits = s.commits := rfl
@[simp] theorem State.setTag_vme (s : State) (t : Nat) (r : Option TagRec) : (s.setTag t r).vme = s.vme := rfl
@[simp] theorem State.setTag_vin (s : State) (t : Nat) (r : Option TagRec) : (s.setTag t r).vin = s.vin := rfl
@[simp] theorem State.setTag_drv (s : State) (t : Nat) (r : Option TagRec) : (s.setTag t r).drv = s.drv := rfl
@[simp] theorem State.setTag_ord (s : State) (t : Nat) (r : Option TagRec) : (s.setTag t r).ord = s.ord := rfl
@[simp] theorem State.setTag_fold (s : State) (t : Nat) (r : Option TagRec) : (s.setTag t r).fold = s.fold := rfl
@[simp] theorem State.setTag_net (s : State) (t : Nat) (r : Option TagRec) : (s.setTag t r).net = { s.net with tags := tput noTag s.net.tags t r } := rfl
@[simp] theorem State.setTag_cad (s : State) (t : Nat) (r : Option TagRec) : (s.setTag t r).cad = s.cad := rfl
@[simp] theorem State.setTag_stat (s : State) (t : Nat) (r : Option TagRec) : (s.setTag t r).stat = s.stat := rfl
@[simp] theorem State.setTag_twin (s : State) (t : Nat) (r : Option TagRec) : (s.setTag t r).twin = s.twin := rfl
@[simp] theorem State.setTag_port (s : State) (t : Nat) (r : Option TagRec) : (s.setTag t r).port = s.port := rfl
@[simp] theorem State.setTag_ddr (s : State) (t : Nat) (r : Option TagRec) : (s.setTag t r).ddr = s.ddr := rfl
@[simp] theorem State.setTag_host (s : State) (t : Nat) (r : Option TagRec) : (s.setTag t r).host = s.host := rfl
@[simp] theorem State.setTag_recd (s : State) (t : Nat) (r : Option TagRec) : (s.setTag t r).recd = s.recd := rfl
@[simp] theorem State.setTag_pwr (s : State) (t : Nat) (r : Option TagRec) : (s.setTag t r).pwr = s.pwr := rfl
@[simp] theorem State.setTag_xbar (s : State) (t : Nat) (r : Option TagRec) : (s.setTag t r).xbar = s.xbar := rfl
@[simp] theorem State.setTag_svc (s : State) (t : Nat) (r : Option TagRec) : (s.setTag t r).svc = s.svc := rfl
@[simp] theorem State.setTag_tap (s : State) (t : Nat) (r : Option TagRec) : (s.setTag t r).tap = s.tap := rfl
@[simp] theorem State.setTag_cyc (s : State) (t : Nat) (r : Option TagRec) : (s.setTag t r).cyc = s.cyc := rfl
@[simp] theorem State.setTag_ticks (s : State) (t : Nat) (r : Option TagRec) : (s.setTag t r).ticks = s.ticks := rfl
@[simp] theorem State.setTag_out (s : State) (t : Nat) (r : Option TagRec) : (s.setTag t r).out = s.out := rfl
@[simp] theorem State.setTag_freeCtr (s : State) (t : Nat) (r : Option TagRec) : (s.setTag t r).freeCtr = s.freeCtr := rfl
@[simp] theorem State.setTag_pending (s : State) (t : Nat) (r : Option TagRec) : (s.setTag t r).pending = s.pending := rfl
@[simp] theorem State.setTag_reg (s : State) (t : Nat) (r : Option TagRec) (k0 : Nat) : (s.setTag t r).reg k0 = s.reg k0 := rfl
@[simp] theorem State.setTag_rd (s : State) (t : Nat) (r : Option TagRec) (f0 : Fld) : (s.setTag t r).rd f0 = s.rd f0 := rfl
@[simp] theorem State.setTag_bit (s : State) (t : Nat) (r : Option TagRec) (f0 : Fld) : (s.setTag t r).bit f0 = s.bit f0 := rfl
@[simp] theorem State.setTag_shd (s : State) (t : Nat) (r : Option TagRec) (k0 : Nat) : (s.setTag t r).shd k0 = s.shd k0 := rfl
@[simp] theorem State.setTag_up (s : State) (t : Nat) (r : Option TagRec) (p0 : Part) : (s.setTag t r).up p0 = s.up p0 := rfl

/-! ### `State.rxPush` -/

@[simp] theorem State.rxPush_regs (s : State) (side : Nat) (p : Packet) : (s.rxPush side p).regs = s.regs := rfl
@[simp] theorem State.rxPush_flt (s : State) (side : Nat) (p : Packet) : (s.rxPush side p).flt = s.flt := rfl
@[simp] theorem State.rxPush_boot (s : State) (side : Nat) (p : Packet) : (s.rxPush side p).boot = s.boot := rfl
@[simp] theorem State.rxPush_commits (s : State) (side : Nat) (p : Packet) : (s.rxPush side p).commits = s.commits := rfl
@[simp] theorem State.rxPush_vme (s : State) (side : Nat) (p : Packet) : (s.rxPush side p).vme = s.vme := rfl
@[simp] theorem State.rxPush_vin (s : State) (side : Nat) (p : Packet) : (s.rxPush side p).vin = s.vin := rfl
@[simp] theorem State.rxPush_drv (s : State) (side : Nat) (p : Packet) : (s.rxPush side p).drv = s.drv := rfl
@[simp] theorem State.rxPush_ord (s : State) (side : Nat) (p : Packet) : (s.rxPush side p).ord = s.ord := rfl
@[simp] theorem State.rxPush_fold (s : State) (side : Nat) (p : Packet) : (s.rxPush side p).fold = s.fold := rfl
@[simp] theorem State.rxPush_net (s : State) (side : Nat) (p : Packet) : (s.rxPush side p).net = { s.net with rx := modAt [] s.net.rx side (· ++ [⟨p, p.pool, p.units, false⟩]) } := rfl
@[simp] theorem State.rxPush_cad (s : State) (side : Nat) (p : Packet) : (s.rxPush side p).cad = s.cad := rfl
@[simp] theorem State.rxPush_stat (s : State) (side : Nat) (p : Packet) : (s.rxPush side p).stat = s.stat := rfl
@[simp] theorem State.rxPush_twin (s : State) (side : Nat) (p : Packet) : (s.rxPush side p).twin = s.twin := rfl
@[simp] theorem State.rxPush_port (s : State) (side : Nat) (p : Packet) : (s.rxPush side p).port = s.port := rfl
@[simp] theorem State.rxPush_ddr (s : State) (side : Nat) (p : Packet) : (s.rxPush side p).ddr = s.ddr := rfl
@[simp] theorem State.rxPush_host (s : State) (side : Nat) (p : Packet) : (s.rxPush side p).host = s.host := rfl
@[simp] theorem State.rxPush_recd (s : State) (side : Nat) (p : Packet) : (s.rxPush side p).recd = s.recd := rfl
@[simp] theorem State.rxPush_pwr (s : State) (side : Nat) (p : Packet) : (s.rxPush side p).pwr = s.pwr := rfl
@[simp] theorem State.rxPush_xbar (s : State) (side : Nat) (p : Packet) : (s.rxPush side p).xbar = s.xbar := rfl
@[simp] theorem State.rxPush_svc (s : State) (side : Nat) (p : Packet) : (s.rxPush side p).svc = s.svc := rfl
@[simp] theorem State.rxPush_tap (s : State) (side : Nat) (p : Packet) : (s.rxPush side p).tap = s.tap := rfl
@[simp] theorem State.rxPush_cyc (s : State) (side : Nat) (p : Packet) : (s.rxPush side p).cyc = s.cyc := rfl
@[simp] theorem State.rxPush_ticks (s : State) (side : Nat) (p : Packet) : (s.rxPush side p).ticks = s.ticks := rfl
@[simp] theorem State.rxPush_out (s : State) (side : Nat) (p : Packet) : (s.rxPush side p).out = s.out := rfl
@[simp] theorem State.rxPush_freeCtr (s : State) (side : Nat) (p : Packet) : (s.rxPush side p).freeCtr = s.freeCtr := rfl
@[simp] theorem State.rxPush_pending (s : State) (side : Nat) (p : Packet) : (s.rxPush side p).pending = s.pending := rfl
@[simp] theorem State.rxPush_reg (s : State) (side : Nat) (p : Packet) (k0 : Nat) : (s.rxPush side p).reg k0 = s.reg k0 := rfl
@[simp] theorem State.rxPush_rd (s : State) (side : Nat) (p : Packet) (f0 : Fld) : (s.rxPush side p).rd f0 = s.rd f0 := rfl
@[simp] theorem State.rxPush_bit (s : State) (side : Nat) (p : Packet) (f0 : Fld) : (s.rxPush side p).bit f0 = s.bit f0 := rfl
@[simp] theorem State.rxPush_shd (s : State) (side : Nat) (p : Packet) (k0 : Nat) : (s.rxPush side p).shd k0 = s.shd k0 := rfl
@[simp] theorem State.rxPush_up (s : State) (side : Nat) (p : Packet) (p0 : Part) : (s.rxPush side p).up p0 = s.up p0 := rfl

/-! ### `State.takenPush` -/

@[simp] theorem State.takenPush_regs (s : State) (q : Nat) (p : Packet) : (s.takenPush q p).regs = s.regs := rfl
@[simp] theorem State.takenPush_flt (s : State) (q : Nat) (p : Packet) : (s.takenPush q p).flt = s.flt := rfl
@[simp] theorem State.takenPush_boot (s : State) (q : Nat) (p : Packet) : (s.takenPush q p).boot = s.boot := rfl
@[simp] theorem State.takenPush_commits (s : State) (q : Nat) (p : Packet) : (s.takenPush q p).commits = s.commits := rfl
@[simp] theorem State.takenPush_vme (s : State) (q : Nat) (p : Packet) : (s.takenPush q p).vme = s.vme := rfl
@[simp] theorem State.takenPush_vin (s : State) (q : Nat) (p : Packet) : (s.takenPush q p).vin = s.vin := rfl
@[simp] theorem State.takenPush_drv (s : State) (q : Nat) (p : Packet) : (s.takenPush q p).drv = s.drv := rfl
@[simp] theorem State.takenPush_ord (s : State) (q : Nat) (p : Packet) : (s.takenPush q p).ord = s.ord := rfl
@[simp] theorem State.takenPush_fold (s : State) (q : Nat) (p : Packet) : (s.takenPush q p).fold = s.fold := rfl
@[simp] theorem State.takenPush_net (s : State) (q : Nat) (p : Packet) : (s.takenPush q p).net = { s.net with taken := modAt [] s.net.taken q (· ++ [p]) } := rfl
@[simp] theorem State.takenPush_cad (s : State) (q : Nat) (p : Packet) : (s.takenPush q p).cad = s.cad := rfl
@[simp] theorem State.takenPush_stat (s : State) (q : Nat) (p : Packet) : (s.takenPush q p).stat = s.stat := rfl
@[simp] theorem State.takenPush_twin (s : State) (q : Nat) (p : Packet) : (s.takenPush q p).twin = s.twin := rfl
@[simp] theorem State.takenPush_port (s : State) (q : Nat) (p : Packet) : (s.takenPush q p).port = s.port := rfl
@[simp] theorem State.takenPush_ddr (s : State) (q : Nat) (p : Packet) : (s.takenPush q p).ddr = s.ddr := rfl
@[simp] theorem State.takenPush_host (s : State) (q : Nat) (p : Packet) : (s.takenPush q p).host = s.host := rfl
@[simp] theorem State.takenPush_recd (s : State) (q : Nat) (p : Packet) : (s.takenPush q p).recd = s.recd := rfl
@[simp] theorem State.takenPush_pwr (s : State) (q : Nat) (p : Packet) : (s.takenPush q p).pwr = s.pwr := rfl
@[simp] theorem State.takenPush_xbar (s : State) (q : Nat) (p : Packet) : (s.takenPush q p).xbar = s.xbar := rfl
@[simp] theorem State.takenPush_svc (s : State) (q : Nat) (p : Packet) : (s.takenPush q p).svc = s.svc := rfl
@[simp] theorem State.takenPush_tap (s : State) (q : Nat) (p : Packet) : (s.takenPush q p).tap = s.tap := rfl
@[simp] theorem State.takenPush_cyc (s : State) (q : Nat) (p : Packet) : (s.takenPush q p).cyc = s.cyc := rfl
@[simp] theorem State.takenPush_ticks (s : State) (q : Nat) (p : Packet) : (s.takenPush q p).ticks = s.ticks := rfl
@[simp] theorem State.takenPush_out (s : State) (q : Nat) (p : Packet) : (s.takenPush q p).out = s.out := rfl
@[simp] theorem State.takenPush_freeCtr (s : State) (q : Nat) (p : Packet) : (s.takenPush q p).freeCtr = s.freeCtr := rfl
@[simp] theorem State.takenPush_pending (s : State) (q : Nat) (p : Packet) : (s.takenPush q p).pending = s.pending := rfl
@[simp] theorem State.takenPush_reg (s : State) (q : Nat) (p : Packet) (k0 : Nat) : (s.takenPush q p).reg k0 = s.reg k0 := rfl
@[simp] theorem State.takenPush_rd (s : State) (q : Nat) (p : Packet) (f0 : Fld) : (s.takenPush q p).rd f0 = s.rd f0 := rfl
@[simp] theorem State.takenPush_bit (s : State) (q : Nat) (p : Packet) (f0 : Fld) : (s.takenPush q p).bit f0 = s.bit f0 := rfl
@[simp] theorem State.takenPush_shd (s : State) (q : Nat) (p : Packet) (k0 : Nat) : (s.takenPush q p).shd k0 = s.shd k0 := rfl
@[simp] theorem State.takenPush_up (s : State) (q : Nat) (p : Packet) (p0 : Part) : (s.takenPush q p).up p0 = s.up p0 := rfl

/-! ### `State.setWrapRec` -/

@[simp] theorem State.setWrapRec_regs (s : State) (side : Nat) (w : WrapRec) : (s.setWrapRec side w).regs = s.regs := rfl
@[simp] theorem State.setWrapRec_flt (s : State) (side : Nat) (w : WrapRec) : (s.setWrapRec side w).flt = s.flt := rfl
@[simp] theorem State.setWrapRec_boot (s : State) (side : Nat) (w : WrapRec) : (s.setWrapRec side w).boot = s.boot := rfl
@[simp] theorem State.setWrapRec_commits (s : State) (side : Nat) (w : WrapRec) : (s.setWrapRec side w).commits = s.commits := rfl
@[simp] theorem State.setWrapRec_vme (s : State) (side : Nat) (w : WrapRec) : (s.setWrapRec side w).vme = s.vme := rfl
@[simp] theorem State.setWrapRec_vin (s : State) (side : Nat) (w : WrapRec) : (s.setWrapRec side w).vin = s.vin := rfl
@[simp] theorem State.setWrapRec_drv (s : State) (side : Nat) (w : WrapRec) : (s.setWrapRec side w).drv = s.drv := rfl
@[simp] theorem State.setWrapRec_ord (s : State) (side : Nat) (w : WrapRec) : (s.setWrapRec side w).ord = s.ord := rfl
@[simp] theorem State.setWrapRec_fold (s : State) (side : Nat) (w : WrapRec) : (s.setWrapRec side w).fold = s.fold := rfl
@[simp] theorem State.setWrapRec_net (s : State) (side : Nat) (w : WrapRec) : (s.setWrapRec side w).net = { s.net with wraps := setAt s.net.wraps side w } := rfl
@[simp] theorem State.setWrapRec_cad (s : State) (side : Nat) (w : WrapRec) : (s.setWrapRec side w).cad = s.cad := rfl
@[simp] theorem State.setWrapRec_stat (s : State) (side : Nat) (w : WrapRec) : (s.setWrapRec side w).stat = s.stat := rfl
@[simp] theorem State.setWrapRec_twin (s : State) (side : Nat) (w : WrapRec) : (s.setWrapRec side w).twin = s.twin := rfl
@[simp] theorem State.setWrapRec_port (s : State) (side : Nat) (w : WrapRec) : (s.setWrapRec side w).port = s.port := rfl
@[simp] theorem State.setWrapRec_ddr (s : State) (side : Nat) (w : WrapRec) : (s.setWrapRec side w).ddr = s.ddr := rfl
@[simp] theorem State.setWrapRec_host (s : State) (side : Nat) (w : WrapRec) : (s.setWrapRec side w).host = s.host := rfl
@[simp] theorem State.setWrapRec_recd (s : State) (side : Nat) (w : WrapRec) : (s.setWrapRec side w).recd = s.recd := rfl
@[simp] theorem State.setWrapRec_pwr (s : State) (side : Nat) (w : WrapRec) : (s.setWrapRec side w).pwr = s.pwr := rfl
@[simp] theorem State.setWrapRec_xbar (s : State) (side : Nat) (w : WrapRec) : (s.setWrapRec side w).xbar = s.xbar := rfl
@[simp] theorem State.setWrapRec_svc (s : State) (side : Nat) (w : WrapRec) : (s.setWrapRec side w).svc = s.svc := rfl
@[simp] theorem State.setWrapRec_tap (s : State) (side : Nat) (w : WrapRec) : (s.setWrapRec side w).tap = s.tap := rfl
@[simp] theorem State.setWrapRec_cyc (s : State) (side : Nat) (w : WrapRec) : (s.setWrapRec side w).cyc = s.cyc := rfl
@[simp] theorem State.setWrapRec_ticks (s : State) (side : Nat) (w : WrapRec) : (s.setWrapRec side w).ticks = s.ticks := rfl
@[simp] theorem State.setWrapRec_out (s : State) (side : Nat) (w : WrapRec) : (s.setWrapRec side w).out = s.out := rfl
@[simp] theorem State.setWrapRec_freeCtr (s : State) (side : Nat) (w : WrapRec) : (s.setWrapRec side w).freeCtr = s.freeCtr := rfl
@[simp] theorem State.setWrapRec_pending (s : State) (side : Nat) (w : WrapRec) : (s.setWrapRec side w).pending = s.pending := rfl
@[simp] theorem State.setWrapRec_reg (s : State) (side : Nat) (w : WrapRec) (k0 : Nat) : (s.setWrapRec side w).reg k0 = s.reg k0 := rfl
@[simp] theorem State.setWrapRec_rd (s : State) (side : Nat) (w : WrapRec) (f0 : Fld) : (s.setWrapRec side w).rd f0 = s.rd f0 := rfl
@[simp] theorem State.setWrapRec_bit (s : State) (side : Nat) (w : WrapRec) (f0 : Fld) : (s.setWrapRec side w).bit f0 = s.bit f0 := rfl
@[simp] theorem State.setWrapRec_shd (s : State) (side : Nat) (w : WrapRec) (k0 : Nat) : (s.setWrapRec side w).shd k0 = s.shd k0 := rfl
@[simp] theorem State.setWrapRec_up (s : State) (side : Nat) (w : WrapRec) (p0 : Part) : (s.setWrapRec side w).up p0 = s.up p0 := rfl

/-! ### `State.setSp` -/

@[simp] theorem State.setSp_regs (s : State) (n : Nat) (x : SerialPort) : (s.setSp n x).regs = s.regs := rfl
@[simp] theorem State.setSp_flt (s : State) (n : Nat) (x : SerialPort) : (s.setSp n x).flt = s.flt := rfl
@[simp] theorem State.setSp_boot (s : State) (n : Nat) (x : SerialPort) : (s.setSp n x).boot = s.boot := rfl
@[simp] theorem State.setSp_commits (s : State) (n : Nat) (x : SerialPort) : (s.setSp n x).commits = s.commits := rfl
@[simp] theorem State.setSp_vme (s : State) (n : Nat) (x : SerialPort) : (s.setSp n x).vme = s.vme := rfl
@[simp] theorem State.setSp_vin (s : State) (n : Nat) (x : SerialPort) : (s.setSp n x).vin = s.vin := rfl
@[simp] theorem State.setSp_drv (s : State) (n : Nat) (x : SerialPort) : (s.setSp n x).drv = s.drv := rfl
@[simp] theorem State.setSp_ord (s : State) (n : Nat) (x : SerialPort) : (s.setSp n x).ord = s.ord := rfl
@[simp] theorem State.setSp_fold (s : State) (n : Nat) (x : SerialPort) : (s.setSp n x).fold = s.fold := rfl
@[simp] theorem State.setSp_net (s : State) (n : Nat) (x : SerialPort) : (s.setSp n x).net = s.net := rfl
@[simp] theorem State.setSp_cad (s : State) (n : Nat) (x : SerialPort) : (s.setSp n x).cad = s.cad := rfl
@[simp] theorem State.setSp_stat (s : State) (n : Nat) (x : SerialPort) : (s.setSp n x).stat = s.stat := rfl
@[simp] theorem State.setSp_twin (s : State) (n : Nat) (x : SerialPort) : (s.setSp n x).twin = s.twin := rfl
@[simp] theorem State.setSp_port (s : State) (n : Nat) (x : SerialPort) : (s.setSp n x).port = { s.port with sp := tput SerialPort.idle s.port.sp n x } := rfl
@[simp] theorem State.setSp_ddr (s : State) (n : Nat) (x : SerialPort) : (s.setSp n x).ddr = s.ddr := rfl
@[simp] theorem State.setSp_host (s : State) (n : Nat) (x : SerialPort) : (s.setSp n x).host = s.host := rfl
@[simp] theorem State.setSp_recd (s : State) (n : Nat) (x : SerialPort) : (s.setSp n x).recd = s.recd := rfl
@[simp] theorem State.setSp_pwr (s : State) (n : Nat) (x : SerialPort) : (s.setSp n x).pwr = s.pwr := rfl
@[simp] theorem State.setSp_xbar (s : State) (n : Nat) (x : SerialPort) : (s.setSp n x).xbar = s.xbar := rfl
@[simp] theorem State.setSp_svc (s : State) (n : Nat) (x : SerialPort) : (s.setSp n x).svc = s.svc := rfl
@[simp] theorem State.setSp_tap (s : State) (n : Nat) (x : SerialPort) : (s.setSp n x).tap = s.tap := rfl
@[simp] theorem State.setSp_cyc (s : State) (n : Nat) (x : SerialPort) : (s.setSp n x).cyc = s.cyc := rfl
@[simp] theorem State.setSp_ticks (s : State) (n : Nat) (x : SerialPort) : (s.setSp n x).ticks = s.ticks := rfl
@[simp] theorem State.setSp_out (s : State) (n : Nat) (x : SerialPort) : (s.setSp n x).out = s.out := rfl
@[simp] theorem State.setSp_freeCtr (s : State) (n : Nat) (x : SerialPort) : (s.setSp n x).freeCtr = s.freeCtr := rfl
@[simp] theorem State.setSp_pending (s : State) (n : Nat) (x : SerialPort) : (s.setSp n x).pending = s.pending := rfl
@[simp] theorem State.setSp_reg (s : State) (n : Nat) (x : SerialPort) (k0 : Nat) : (s.setSp n x).reg k0 = s.reg k0 := rfl
@[simp] theorem State.setSp_rd (s : State) (n : Nat) (x : SerialPort) (f0 : Fld) : (s.setSp n x).rd f0 = s.rd f0 := rfl
@[simp] theorem State.setSp_bit (s : State) (n : Nat) (x : SerialPort) (f0 : Fld) : (s.setSp n x).bit f0 = s.bit f0 := rfl
@[simp] theorem State.setSp_shd (s : State) (n : Nat) (x : SerialPort) (k0 : Nat) : (s.setSp n x).shd k0 = s.shd k0 := rfl
@[simp] theorem State.setSp_up (s : State) (n : Nat) (x : SerialPort) (p0 : Part) : (s.setSp n x).up p0 = s.up p0 := rfl

/-! ### `State.setCf` -/

@[simp] theorem State.setCf_regs (s : State) (n : Nat) (x : CanCtl) : (s.setCf n x).regs = s.regs := rfl
@[simp] theorem State.setCf_flt (s : State) (n : Nat) (x : CanCtl) : (s.setCf n x).flt = s.flt := rfl
@[simp] theorem State.setCf_boot (s : State) (n : Nat) (x : CanCtl) : (s.setCf n x).boot = s.boot := rfl
@[simp] theorem State.setCf_commits (s : State) (n : Nat) (x : CanCtl) : (s.setCf n x).commits = s.commits := rfl
@[simp] theorem State.setCf_vme (s : State) (n : Nat) (x : CanCtl) : (s.setCf n x).vme = s.vme := rfl
@[simp] theorem State.setCf_vin (s : State) (n : Nat) (x : CanCtl) : (s.setCf n x).vin = s.vin := rfl
@[simp] theorem State.setCf_drv (s : State) (n : Nat) (x : CanCtl) : (s.setCf n x).drv = s.drv := rfl
@[simp] theorem State.setCf_ord (s : State) (n : Nat) (x : CanCtl) : (s.setCf n x).ord = s.ord := rfl
@[simp] theorem State.setCf_fold (s : State) (n : Nat) (x : CanCtl) : (s.setCf n x).fold = s.fold := rfl
@[simp] theorem State.setCf_net (s : State) (n : Nat) (x : CanCtl) : (s.setCf n x).net = s.net := rfl
@[simp] theorem State.setCf_cad (s : State) (n : Nat) (x : CanCtl) : (s.setCf n x).cad = s.cad := rfl
@[simp] theorem State.setCf_stat (s : State) (n : Nat) (x : CanCtl) : (s.setCf n x).stat = s.stat := rfl
@[simp] theorem State.setCf_twin (s : State) (n : Nat) (x : CanCtl) : (s.setCf n x).twin = s.twin := rfl
@[simp] theorem State.setCf_port (s : State) (n : Nat) (x : CanCtl) : (s.setCf n x).port = { s.port with cf := tput CanCtl.idle s.port.cf n x } := rfl
@[simp] theorem State.setCf_ddr (s : State) (n : Nat) (x : CanCtl) : (s.setCf n x).ddr = s.ddr := rfl
@[simp] theorem State.setCf_host (s : State) (n : Nat) (x : CanCtl) : (s.setCf n x).host = s.host := rfl
@[simp] theorem State.setCf_recd (s : State) (n : Nat) (x : CanCtl) : (s.setCf n x).recd = s.recd := rfl
@[simp] theorem State.setCf_pwr (s : State) (n : Nat) (x : CanCtl) : (s.setCf n x).pwr = s.pwr := rfl
@[simp] theorem State.setCf_xbar (s : State) (n : Nat) (x : CanCtl) : (s.setCf n x).xbar = s.xbar := rfl
@[simp] theorem State.setCf_svc (s : State) (n : Nat) (x : CanCtl) : (s.setCf n x).svc = s.svc := rfl
@[simp] theorem State.setCf_tap (s : State) (n : Nat) (x : CanCtl) : (s.setCf n x).tap = s.tap := rfl
@[simp] theorem State.setCf_cyc (s : State) (n : Nat) (x : CanCtl) : (s.setCf n x).cyc = s.cyc := rfl
@[simp] theorem State.setCf_ticks (s : State) (n : Nat) (x : CanCtl) : (s.setCf n x).ticks = s.ticks := rfl
@[simp] theorem State.setCf_out (s : State) (n : Nat) (x : CanCtl) : (s.setCf n x).out = s.out := rfl
@[simp] theorem State.setCf_freeCtr (s : State) (n : Nat) (x : CanCtl) : (s.setCf n x).freeCtr = s.freeCtr := rfl
@[simp] theorem State.setCf_pending (s : State) (n : Nat) (x : CanCtl) : (s.setCf n x).pending = s.pending := rfl
@[simp] theorem State.setCf_reg (s : State) (n : Nat) (x : CanCtl) (k0 : Nat) : (s.setCf n x).reg k0 = s.reg k0 := rfl
@[simp] theorem State.setCf_rd (s : State) (n : Nat) (x : CanCtl) (f0 : Fld) : (s.setCf n x).rd f0 = s.rd f0 := rfl
@[simp] theorem State.setCf_bit (s : State) (n : Nat) (x : CanCtl) (f0 : Fld) : (s.setCf n x).bit f0 = s.bit f0 := rfl
@[simp] theorem State.setCf_shd (s : State) (n : Nat) (x : CanCtl) (k0 : Nat) : (s.setCf n x).shd k0 = s.shd k0 := rfl
@[simp] theorem State.setCf_up (s : State) (n : Nat) (x : CanCtl) (p0 : Part) : (s.setCf n x).up p0 = s.up p0 := rfl

/-! ### `State.setDc` -/

@[simp] theorem State.setDc_regs (s : State) (n : Nat) (x : DcChain) : (s.setDc n x).regs = s.regs := rfl
@[simp] theorem State.setDc_flt (s : State) (n : Nat) (x : DcChain) : (s.setDc n x).flt = s.flt := rfl
@[simp] theorem State.setDc_boot (s : State) (n : Nat) (x : DcChain) : (s.setDc n x).boot = s.boot := rfl
@[simp] theorem State.setDc_commits (s : State) (n : Nat) (x : DcChain) : (s.setDc n x).commits = s.commits := rfl
@[simp] theorem State.setDc_vme (s : State) (n : Nat) (x : DcChain) : (s.setDc n x).vme = s.vme := rfl
@[simp] theorem State.setDc_vin (s : State) (n : Nat) (x : DcChain) : (s.setDc n x).vin = s.vin := rfl
@[simp] theorem State.setDc_drv (s : State) (n : Nat) (x : DcChain) : (s.setDc n x).drv = s.drv := rfl
@[simp] theorem State.setDc_ord (s : State) (n : Nat) (x : DcChain) : (s.setDc n x).ord = s.ord := rfl
@[simp] theorem State.setDc_fold (s : State) (n : Nat) (x : DcChain) : (s.setDc n x).fold = s.fold := rfl
@[simp] theorem State.setDc_net (s : State) (n : Nat) (x : DcChain) : (s.setDc n x).net = s.net := rfl
@[simp] theorem State.setDc_cad (s : State) (n : Nat) (x : DcChain) : (s.setDc n x).cad = s.cad := rfl
@[simp] theorem State.setDc_stat (s : State) (n : Nat) (x : DcChain) : (s.setDc n x).stat = s.stat := rfl
@[simp] theorem State.setDc_twin (s : State) (n : Nat) (x : DcChain) : (s.setDc n x).twin = s.twin := rfl
@[simp] theorem State.setDc_port (s : State) (n : Nat) (x : DcChain) : (s.setDc n x).port = { s.port with dc := tput DcChain.idle s.port.dc n x } := rfl
@[simp] theorem State.setDc_ddr (s : State) (n : Nat) (x : DcChain) : (s.setDc n x).ddr = s.ddr := rfl
@[simp] theorem State.setDc_host (s : State) (n : Nat) (x : DcChain) : (s.setDc n x).host = s.host := rfl
@[simp] theorem State.setDc_recd (s : State) (n : Nat) (x : DcChain) : (s.setDc n x).recd = s.recd := rfl
@[simp] theorem State.setDc_pwr (s : State) (n : Nat) (x : DcChain) : (s.setDc n x).pwr = s.pwr := rfl
@[simp] theorem State.setDc_xbar (s : State) (n : Nat) (x : DcChain) : (s.setDc n x).xbar = s.xbar := rfl
@[simp] theorem State.setDc_svc (s : State) (n : Nat) (x : DcChain) : (s.setDc n x).svc = s.svc := rfl
@[simp] theorem State.setDc_tap (s : State) (n : Nat) (x : DcChain) : (s.setDc n x).tap = s.tap := rfl
@[simp] theorem State.setDc_cyc (s : State) (n : Nat) (x : DcChain) : (s.setDc n x).cyc = s.cyc := rfl
@[simp] theorem State.setDc_ticks (s : State) (n : Nat) (x : DcChain) : (s.setDc n x).ticks = s.ticks := rfl
@[simp] theorem State.setDc_out (s : State) (n : Nat) (x : DcChain) : (s.setDc n x).out = s.out := rfl
@[simp] theorem State.setDc_freeCtr (s : State) (n : Nat) (x : DcChain) : (s.setDc n x).freeCtr = s.freeCtr := rfl
@[simp] theorem State.setDc_pending (s : State) (n : Nat) (x : DcChain) : (s.setDc n x).pending = s.pending := rfl
@[simp] theorem State.setDc_reg (s : State) (n : Nat) (x : DcChain) (k0 : Nat) : (s.setDc n x).reg k0 = s.reg k0 := rfl
@[simp] theorem State.setDc_rd (s : State) (n : Nat) (x : DcChain) (f0 : Fld) : (s.setDc n x).rd f0 = s.rd f0 := rfl
@[simp] theorem State.setDc_bit (s : State) (n : Nat) (x : DcChain) (f0 : Fld) : (s.setDc n x).bit f0 = s.bit f0 := rfl
@[simp] theorem State.setDc_shd (s : State) (n : Nat) (x : DcChain) (k0 : Nat) : (s.setDc n x).shd k0 = s.shd k0 := rfl
@[simp] theorem State.setDc_up (s : State) (n : Nat) (x : DcChain) (p0 : Part) : (s.setDc n x).up p0 = s.up p0 := rfl

/-! ### `State.setJob` -/

@[simp] theorem State.setJob_regs (s : State) (d : Nat) (j : Option VJob) : (s.setJob d j).regs = s.regs := rfl
@[simp] theorem State.setJob_flt (s : State) (d : Nat) (j : Option VJob) : (s.setJob d j).flt = s.flt := rfl
@[simp] theorem State.setJob_boot (s : State) (d : Nat) (j : Option VJob) : (s.setJob d j).boot = s.boot := rfl
@[simp] theorem State.setJob_commits (s : State) (d : Nat) (j : Option VJob) : (s.setJob d j).commits = s.commits := rfl
@[simp] theorem State.setJob_vme (s : State) (d : Nat) (j : Option VJob) : (s.setJob d j).vme = { s.vme with jobs := tput noJob s.vme.jobs d j } := rfl
@[simp] theorem State.setJob_vin (s : State) (d : Nat) (j : Option VJob) : (s.setJob d j).vin = s.vin := rfl
@[simp] theorem State.setJob_drv (s : State) (d : Nat) (j : Option VJob) : (s.setJob d j).drv = s.drv := rfl
@[simp] theorem State.setJob_ord (s : State) (d : Nat) (j : Option VJob) : (s.setJob d j).ord = s.ord := rfl
@[simp] theorem State.setJob_fold (s : State) (d : Nat) (j : Option VJob) : (s.setJob d j).fold = s.fold := rfl
@[simp] theorem State.setJob_net (s : State) (d : Nat) (j : Option VJob) : (s.setJob d j).net = s.net := rfl
@[simp] theorem State.setJob_cad (s : State) (d : Nat) (j : Option VJob) : (s.setJob d j).cad = s.cad := rfl
@[simp] theorem State.setJob_stat (s : State) (d : Nat) (j : Option VJob) : (s.setJob d j).stat = s.stat := rfl
@[simp] theorem State.setJob_twin (s : State) (d : Nat) (j : Option VJob) : (s.setJob d j).twin = s.twin := rfl
@[simp] theorem State.setJob_port (s : State) (d : Nat) (j : Option VJob) : (s.setJob d j).port = s.port := rfl
@[simp] theorem State.setJob_ddr (s : State) (d : Nat) (j : Option VJob) : (s.setJob d j).ddr = s.ddr := rfl
@[simp] theorem State.setJob_host (s : State) (d : Nat) (j : Option VJob) : (s.setJob d j).host = s.host := rfl
@[simp] theorem State.setJob_recd (s : State) (d : Nat) (j : Option VJob) : (s.setJob d j).recd = s.recd := rfl
@[simp] theorem State.setJob_pwr (s : State) (d : Nat) (j : Option VJob) : (s.setJob d j).pwr = s.pwr := rfl
@[simp] theorem State.setJob_xbar (s : State) (d : Nat) (j : Option VJob) : (s.setJob d j).xbar = s.xbar := rfl
@[simp] theorem State.setJob_svc (s : State) (d : Nat) (j : Option VJob) : (s.setJob d j).svc = s.svc := rfl
@[simp] theorem State.setJob_tap (s : State) (d : Nat) (j : Option VJob) : (s.setJob d j).tap = s.tap := rfl
@[simp] theorem State.setJob_cyc (s : State) (d : Nat) (j : Option VJob) : (s.setJob d j).cyc = s.cyc := rfl
@[simp] theorem State.setJob_ticks (s : State) (d : Nat) (j : Option VJob) : (s.setJob d j).ticks = s.ticks := rfl
@[simp] theorem State.setJob_out (s : State) (d : Nat) (j : Option VJob) : (s.setJob d j).out = s.out := rfl
@[simp] theorem State.setJob_freeCtr (s : State) (d : Nat) (j : Option VJob) : (s.setJob d j).freeCtr = s.freeCtr := rfl
@[simp] theorem State.setJob_pending (s : State) (d : Nat) (j : Option VJob) : (s.setJob d j).pending = s.pending := rfl
@[simp] theorem State.setJob_reg (s : State) (d : Nat) (j : Option VJob) (k0 : Nat) : (s.setJob d j).reg k0 = s.reg k0 := rfl
@[simp] theorem State.setJob_rd (s : State) (d : Nat) (j : Option VJob) (f0 : Fld) : (s.setJob d j).rd f0 = s.rd f0 := rfl
@[simp] theorem State.setJob_bit (s : State) (d : Nat) (j : Option VJob) (f0 : Fld) : (s.setJob d j).bit f0 = s.bit f0 := rfl
@[simp] theorem State.setJob_shd (s : State) (d : Nat) (j : Option VJob) (k0 : Nat) : (s.setJob d j).shd k0 = s.shd k0 := rfl
@[simp] theorem State.setJob_up (s : State) (d : Nat) (j : Option VJob) (p0 : Part) : (s.setJob d j).up p0 = s.up p0 := rfl

/-! ### `State.setAgent` -/

@[simp] theorem State.setAgent_regs (s : State) (k : Nat) (a : AgentState) : (s.setAgent k a).regs = s.regs := rfl
@[simp] theorem State.setAgent_flt (s : State) (k : Nat) (a : AgentState) : (s.setAgent k a).flt = s.flt := rfl
@[simp] theorem State.setAgent_boot (s : State) (k : Nat) (a : AgentState) : (s.setAgent k a).boot = s.boot := rfl
@[simp] theorem State.setAgent_commits (s : State) (k : Nat) (a : AgentState) : (s.setAgent k a).commits = s.commits := rfl
@[simp] theorem State.setAgent_vme (s : State) (k : Nat) (a : AgentState) : (s.setAgent k a).vme = s.vme := rfl
@[simp] theorem State.setAgent_vin (s : State) (k : Nat) (a : AgentState) : (s.setAgent k a).vin = s.vin := rfl
@[simp] theorem State.setAgent_drv (s : State) (k : Nat) (a : AgentState) : (s.setAgent k a).drv = s.drv := rfl
@[simp] theorem State.setAgent_ord (s : State) (k : Nat) (a : AgentState) : (s.setAgent k a).ord = { s.ord with agents := tput AgentState.idle s.ord.agents k a } := rfl
@[simp] theorem State.setAgent_fold (s : State) (k : Nat) (a : AgentState) : (s.setAgent k a).fold = s.fold := rfl
@[simp] theorem State.setAgent_net (s : State) (k : Nat) (a : AgentState) : (s.setAgent k a).net = s.net := rfl
@[simp] theorem State.setAgent_cad (s : State) (k : Nat) (a : AgentState) : (s.setAgent k a).cad = s.cad := rfl
@[simp] theorem State.setAgent_stat (s : State) (k : Nat) (a : AgentState) : (s.setAgent k a).stat = s.stat := rfl
@[simp] theorem State.setAgent_twin (s : State) (k : Nat) (a : AgentState) : (s.setAgent k a).twin = s.twin := rfl
@[simp] theorem State.setAgent_port (s : State) (k : Nat) (a : AgentState) : (s.setAgent k a).port = s.port := rfl
@[simp] theorem State.setAgent_ddr (s : State) (k : Nat) (a : AgentState) : (s.setAgent k a).ddr = s.ddr := rfl
@[simp] theorem State.setAgent_host (s : State) (k : Nat) (a : AgentState) : (s.setAgent k a).host = s.host := rfl
@[simp] theorem State.setAgent_recd (s : State) (k : Nat) (a : AgentState) : (s.setAgent k a).recd = s.recd := rfl
@[simp] theorem State.setAgent_pwr (s : State) (k : Nat) (a : AgentState) : (s.setAgent k a).pwr = s.pwr := rfl
@[simp] theorem State.setAgent_xbar (s : State) (k : Nat) (a : AgentState) : (s.setAgent k a).xbar = s.xbar := rfl
@[simp] theorem State.setAgent_svc (s : State) (k : Nat) (a : AgentState) : (s.setAgent k a).svc = s.svc := rfl
@[simp] theorem State.setAgent_tap (s : State) (k : Nat) (a : AgentState) : (s.setAgent k a).tap = s.tap := rfl
@[simp] theorem State.setAgent_cyc (s : State) (k : Nat) (a : AgentState) : (s.setAgent k a).cyc = s.cyc := rfl
@[simp] theorem State.setAgent_ticks (s : State) (k : Nat) (a : AgentState) : (s.setAgent k a).ticks = s.ticks := rfl
@[simp] theorem State.setAgent_out (s : State) (k : Nat) (a : AgentState) : (s.setAgent k a).out = s.out := rfl
@[simp] theorem State.setAgent_freeCtr (s : State) (k : Nat) (a : AgentState) : (s.setAgent k a).freeCtr = s.freeCtr := rfl
@[simp] theorem State.setAgent_pending (s : State) (k : Nat) (a : AgentState) : (s.setAgent k a).pending = s.pending := rfl
@[simp] theorem State.setAgent_reg (s : State) (k : Nat) (a : AgentState) (k0 : Nat) : (s.setAgent k a).reg k0 = s.reg k0 := rfl
@[simp] theorem State.setAgent_rd (s : State) (k : Nat) (a : AgentState) (f0 : Fld) : (s.setAgent k a).rd f0 = s.rd f0 := rfl
@[simp] theorem State.setAgent_bit (s : State) (k : Nat) (a : AgentState) (f0 : Fld) : (s.setAgent k a).bit f0 = s.bit f0 := rfl
@[simp] theorem State.setAgent_shd (s : State) (k : Nat) (a : AgentState) (k0 : Nat) : (s.setAgent k a).shd k0 = s.shd k0 := rfl
@[simp] theorem State.setAgent_up (s : State) (k : Nat) (a : AgentState) (p0 : Part) : (s.setAgent k a).up p0 = s.up p0 := rfl

/-! ### `State.setLcSet` -/

@[simp] theorem State.setLcSet_regs (s : State) (i : Nat) (l : List LcLine) : (s.setLcSet i l).regs = s.regs := rfl
@[simp] theorem State.setLcSet_flt (s : State) (i : Nat) (l : List LcLine) : (s.setLcSet i l).flt = s.flt := rfl
@[simp] theorem State.setLcSet_boot (s : State) (i : Nat) (l : List LcLine) : (s.setLcSet i l).boot = s.boot := rfl
@[simp] theorem State.setLcSet_commits (s : State) (i : Nat) (l : List LcLine) : (s.setLcSet i l).commits = s.commits := rfl
@[simp] theorem State.setLcSet_vme (s : State) (i : Nat) (l : List LcLine) : (s.setLcSet i l).vme = s.vme := rfl
@[simp] theorem State.setLcSet_vin (s : State) (i : Nat) (l : List LcLine) : (s.setLcSet i l).vin = s.vin := rfl
@[simp] theorem State.setLcSet_drv (s : State) (i : Nat) (l : List LcLine) : (s.setLcSet i l).drv = s.drv := rfl
@[simp] theorem State.setLcSet_ord (s : State) (i : Nat) (l : List LcLine) : (s.setLcSet i l).ord = { s.ord with lc := tput noLines s.ord.lc i l } := rfl
@[simp] theorem State.setLcSet_fold (s : State) (i : Nat) (l : List LcLine) : (s.setLcSet i l).fold = s.fold := rfl
@[simp] theorem State.setLcSet_net (s : State) (i : Nat) (l : List LcLine) : (s.setLcSet i l).net = s.net := rfl
@[simp] theorem State.setLcSet_cad (s : State) (i : Nat) (l : List LcLine) : (s.setLcSet i l).cad = s.cad := rfl
@[simp] theorem State.setLcSet_stat (s : State) (i : Nat) (l : List LcLine) : (s.setLcSet i l).stat = s.stat := rfl
@[simp] theorem State.setLcSet_twin (s : State) (i : Nat) (l : List LcLine) : (s.setLcSet i l).twin = s.twin := rfl
@[simp] theorem State.setLcSet_port (s : State) (i : Nat) (l : List LcLine) : (s.setLcSet i l).port = s.port := rfl
@[simp] theorem State.setLcSet_ddr (s : State) (i : Nat) (l : List LcLine) : (s.setLcSet i l).ddr = s.ddr := rfl
@[simp] theorem State.setLcSet_host (s : State) (i : Nat) (l : List LcLine) : (s.setLcSet i l).host = s.host := rfl
@[simp] theorem State.setLcSet_recd (s : State) (i : Nat) (l : List LcLine) : (s.setLcSet i l).recd = s.recd := rfl
@[simp] theorem State.setLcSet_pwr (s : State) (i : Nat) (l : List LcLine) : (s.setLcSet i l).pwr = s.pwr := rfl
@[simp] theorem State.setLcSet_xbar (s : State) (i : Nat) (l : List LcLine) : (s.setLcSet i l).xbar = s.xbar := rfl
@[simp] theorem State.setLcSet_svc (s : State) (i : Nat) (l : List LcLine) : (s.setLcSet i l).svc = s.svc := rfl
@[simp] theorem State.setLcSet_tap (s : State) (i : Nat) (l : List LcLine) : (s.setLcSet i l).tap = s.tap := rfl
@[simp] theorem State.setLcSet_cyc (s : State) (i : Nat) (l : List LcLine) : (s.setLcSet i l).cyc = s.cyc := rfl
@[simp] theorem State.setLcSet_ticks (s : State) (i : Nat) (l : List LcLine) : (s.setLcSet i l).ticks = s.ticks := rfl
@[simp] theorem State.setLcSet_out (s : State) (i : Nat) (l : List LcLine) : (s.setLcSet i l).out = s.out := rfl
@[simp] theorem State.setLcSet_freeCtr (s : State) (i : Nat) (l : List LcLine) : (s.setLcSet i l).freeCtr = s.freeCtr := rfl
@[simp] theorem State.setLcSet_pending (s : State) (i : Nat) (l : List LcLine) : (s.setLcSet i l).pending = s.pending := rfl
@[simp] theorem State.setLcSet_reg (s : State) (i : Nat) (l : List LcLine) (k0 : Nat) : (s.setLcSet i l).reg k0 = s.reg k0 := rfl
@[simp] theorem State.setLcSet_rd (s : State) (i : Nat) (l : List LcLine) (f0 : Fld) : (s.setLcSet i l).rd f0 = s.rd f0 := rfl
@[simp] theorem State.setLcSet_bit (s : State) (i : Nat) (l : List LcLine) (f0 : Fld) : (s.setLcSet i l).bit f0 = s.bit f0 := rfl
@[simp] theorem State.setLcSet_shd (s : State) (i : Nat) (l : List LcLine) (k0 : Nat) : (s.setLcSet i l).shd k0 = s.shd k0 := rfl
@[simp] theorem State.setLcSet_up (s : State) (i : Nat) (l : List LcLine) (p0 : Part) : (s.setLcSet i l).up p0 = s.up p0 := rfl

/-! ### `State.setFold` -/

@[simp] theorem State.setFold_regs (s : State) (f : Nat) (x : Fold) : (s.setFold f x).regs = s.regs := rfl
@[simp] theorem State.setFold_flt (s : State) (f : Nat) (x : Fold) : (s.setFold f x).flt = s.flt := rfl
@[simp] theorem State.setFold_boot (s : State) (f : Nat) (x : Fold) : (s.setFold f x).boot = s.boot := rfl
@[simp] theorem State.setFold_commits (s : State) (f : Nat) (x : Fold) : (s.setFold f x).commits = s.commits := rfl
@[simp] theorem State.setFold_vme (s : State) (f : Nat) (x : Fold) : (s.setFold f x).vme = s.vme := rfl
@[simp] theorem State.setFold_vin (s : State) (f : Nat) (x : Fold) : (s.setFold f x).vin = s.vin := rfl
@[simp] theorem State.setFold_drv (s : State) (f : Nat) (x : Fold) : (s.setFold f x).drv = s.drv := rfl
@[simp] theorem State.setFold_ord (s : State) (f : Nat) (x : Fold) : (s.setFold f x).ord = s.ord := rfl
@[simp] theorem State.setFold_fold (s : State) (f : Nat) (x : Fold) : (s.setFold f x).fold = { s.fold with folds := tput Fold.empty s.fold.folds f x } := rfl
@[simp] theorem State.setFold_net (s : State) (f : Nat) (x : Fold) : (s.setFold f x).net = s.net := rfl
@[simp] theorem State.setFold_cad (s : State) (f : Nat) (x : Fold) : (s.setFold f x).cad = s.cad := rfl
@[simp] theorem State.setFold_stat (s : State) (f : Nat) (x : Fold) : (s.setFold f x).stat = s.stat := rfl
@[simp] theorem State.setFold_twin (s : State) (f : Nat) (x : Fold) : (s.setFold f x).twin = s.twin := rfl
@[simp] theorem State.setFold_port (s : State) (f : Nat) (x : Fold) : (s.setFold f x).port = s.port := rfl
@[simp] theorem State.setFold_ddr (s : State) (f : Nat) (x : Fold) : (s.setFold f x).ddr = s.ddr := rfl
@[simp] theorem State.setFold_host (s : State) (f : Nat) (x : Fold) : (s.setFold f x).host = s.host := rfl
@[simp] theorem State.setFold_recd (s : State) (f : Nat) (x : Fold) : (s.setFold f x).recd = s.recd := rfl
@[simp] theorem State.setFold_pwr (s : State) (f : Nat) (x : Fold) : (s.setFold f x).pwr = s.pwr := rfl
@[simp] theorem State.setFold_xbar (s : State) (f : Nat) (x : Fold) : (s.setFold f x).xbar = s.xbar := rfl
@[simp] theorem State.setFold_svc (s : State) (f : Nat) (x : Fold) : (s.setFold f x).svc = s.svc := rfl
@[simp] theorem State.setFold_tap (s : State) (f : Nat) (x : Fold) : (s.setFold f x).tap = s.tap := rfl
@[simp] theorem State.setFold_cyc (s : State) (f : Nat) (x : Fold) : (s.setFold f x).cyc = s.cyc := rfl
@[simp] theorem State.setFold_ticks (s : State) (f : Nat) (x : Fold) : (s.setFold f x).ticks = s.ticks := rfl
@[simp] theorem State.setFold_out (s : State) (f : Nat) (x : Fold) : (s.setFold f x).out = s.out := rfl
@[simp] theorem State.setFold_freeCtr (s : State) (f : Nat) (x : Fold) : (s.setFold f x).freeCtr = s.freeCtr := rfl
@[simp] theorem State.setFold_pending (s : State) (f : Nat) (x : Fold) : (s.setFold f x).pending = s.pending := rfl
@[simp] theorem State.setFold_reg (s : State) (f : Nat) (x : Fold) (k0 : Nat) : (s.setFold f x).reg k0 = s.reg k0 := rfl
@[simp] theorem State.setFold_rd (s : State) (f : Nat) (x : Fold) (f0 : Fld) : (s.setFold f x).rd f0 = s.rd f0 := rfl
@[simp] theorem State.setFold_bit (s : State) (f : Nat) (x : Fold) (f0 : Fld) : (s.setFold f x).bit f0 = s.bit f0 := rfl
@[simp] theorem State.setFold_shd (s : State) (f : Nat) (x : Fold) (k0 : Nat) : (s.setFold f x).shd k0 = s.shd k0 := rfl
@[simp] theorem State.setFold_up (s : State) (f : Nat) (x : Fold) (p0 : Part) : (s.setFold f x).up p0 = s.up p0 := rfl

/-! ### `State.setDrover` -/

@[simp] theorem State.setDrover_regs (s : State) (d : Nat) (x : Drover) : (s.setDrover d x).regs = s.regs := rfl
@[simp] theorem State.setDrover_flt (s : State) (d : Nat) (x : Drover) : (s.setDrover d x).flt = s.flt := rfl
@[simp] theorem State.setDrover_boot (s : State) (d : Nat) (x : Drover) : (s.setDrover d x).boot = s.boot := rfl
@[simp] theorem State.setDrover_commits (s : State) (d : Nat) (x : Drover) : (s.setDrover d x).commits = s.commits := rfl
@[simp] theorem State.setDrover_vme (s : State) (d : Nat) (x : Drover) : (s.setDrover d x).vme = s.vme := rfl
@[simp] theorem State.setDrover_vin (s : State) (d : Nat) (x : Drover) : (s.setDrover d x).vin = s.vin := rfl
@[simp] theorem State.setDrover_drv (s : State) (d : Nat) (x : Drover) : (s.setDrover d x).drv = { s.drv with drv := tput Drover.idle s.drv.drv d x } := rfl
@[simp] theorem State.setDrover_ord (s : State) (d : Nat) (x : Drover) : (s.setDrover d x).ord = s.ord := rfl
@[simp] theorem State.setDrover_fold (s : State) (d : Nat) (x : Drover) : (s.setDrover d x).fold = s.fold := rfl
@[simp] theorem State.setDrover_net (s : State) (d : Nat) (x : Drover) : (s.setDrover d x).net = s.net := rfl
@[simp] theorem State.setDrover_cad (s : State) (d : Nat) (x : Drover) : (s.setDrover d x).cad = s.cad := rfl
@[simp] theorem State.setDrover_stat (s : State) (d : Nat) (x : Drover) : (s.setDrover d x).stat = s.stat := rfl
@[simp] theorem State.setDrover_twin (s : State) (d : Nat) (x : Drover) : (s.setDrover d x).twin = s.twin := rfl
@[simp] theorem State.setDrover_port (s : State) (d : Nat) (x : Drover) : (s.setDrover d x).port = s.port := rfl
@[simp] theorem State.setDrover_ddr (s : State) (d : Nat) (x : Drover) : (s.setDrover d x).ddr = s.ddr := rfl
@[simp] theorem State.setDrover_host (s : State) (d : Nat) (x : Drover) : (s.setDrover d x).host = s.host := rfl
@[simp] theorem State.setDrover_recd (s : State) (d : Nat) (x : Drover) : (s.setDrover d x).recd = s.recd := rfl
@[simp] theorem State.setDrover_pwr (s : State) (d : Nat) (x : Drover) : (s.setDrover d x).pwr = s.pwr := rfl
@[simp] theorem State.setDrover_xbar (s : State) (d : Nat) (x : Drover) : (s.setDrover d x).xbar = s.xbar := rfl
@[simp] theorem State.setDrover_svc (s : State) (d : Nat) (x : Drover) : (s.setDrover d x).svc = s.svc := rfl
@[simp] theorem State.setDrover_tap (s : State) (d : Nat) (x : Drover) : (s.setDrover d x).tap = s.tap := rfl
@[simp] theorem State.setDrover_cyc (s : State) (d : Nat) (x : Drover) : (s.setDrover d x).cyc = s.cyc := rfl
@[simp] theorem State.setDrover_ticks (s : State) (d : Nat) (x : Drover) : (s.setDrover d x).ticks = s.ticks := rfl
@[simp] theorem State.setDrover_out (s : State) (d : Nat) (x : Drover) : (s.setDrover d x).out = s.out := rfl
@[simp] theorem State.setDrover_freeCtr (s : State) (d : Nat) (x : Drover) : (s.setDrover d x).freeCtr = s.freeCtr := rfl
@[simp] theorem State.setDrover_pending (s : State) (d : Nat) (x : Drover) : (s.setDrover d x).pending = s.pending := rfl
@[simp] theorem State.setDrover_reg (s : State) (d : Nat) (x : Drover) (k0 : Nat) : (s.setDrover d x).reg k0 = s.reg k0 := rfl
@[simp] theorem State.setDrover_rd (s : State) (d : Nat) (x : Drover) (f0 : Fld) : (s.setDrover d x).rd f0 = s.rd f0 := rfl
@[simp] theorem State.setDrover_bit (s : State) (d : Nat) (x : Drover) (f0 : Fld) : (s.setDrover d x).bit f0 = s.bit f0 := rfl
@[simp] theorem State.setDrover_shd (s : State) (d : Nat) (x : Drover) (k0 : Nat) : (s.setDrover d x).shd k0 = s.shd k0 := rfl
@[simp] theorem State.setDrover_up (s : State) (d : Nat) (x : Drover) (p0 : Part) : (s.setDrover d x).up p0 = s.up p0 := rfl

/-! ### `State.setStile` -/

@[simp] theorem State.setStile_regs (s : State) (n : Nat) (x : Stile) : (s.setStile n x).regs = s.regs := rfl
@[simp] theorem State.setStile_flt (s : State) (n : Nat) (x : Stile) : (s.setStile n x).flt = s.flt := rfl
@[simp] theorem State.setStile_boot (s : State) (n : Nat) (x : Stile) : (s.setStile n x).boot = s.boot := rfl
@[simp] theorem State.setStile_commits (s : State) (n : Nat) (x : Stile) : (s.setStile n x).commits = s.commits := rfl
@[simp] theorem State.setStile_vme (s : State) (n : Nat) (x : Stile) : (s.setStile n x).vme = s.vme := rfl
@[simp] theorem State.setStile_vin (s : State) (n : Nat) (x : Stile) : (s.setStile n x).vin = s.vin := rfl
@[simp] theorem State.setStile_drv (s : State) (n : Nat) (x : Stile) : (s.setStile n x).drv = { s.drv with stiles := tput Stile.free s.drv.stiles n x } := rfl
@[simp] theorem State.setStile_ord (s : State) (n : Nat) (x : Stile) : (s.setStile n x).ord = s.ord := rfl
@[simp] theorem State.setStile_fold (s : State) (n : Nat) (x : Stile) : (s.setStile n x).fold = s.fold := rfl
@[simp] theorem State.setStile_net (s : State) (n : Nat) (x : Stile) : (s.setStile n x).net = s.net := rfl
@[simp] theorem State.setStile_cad (s : State) (n : Nat) (x : Stile) : (s.setStile n x).cad = s.cad := rfl
@[simp] theorem State.setStile_stat (s : State) (n : Nat) (x : Stile) : (s.setStile n x).stat = s.stat := rfl
@[simp] theorem State.setStile_twin (s : State) (n : Nat) (x : Stile) : (s.setStile n x).twin = s.twin := rfl
@[simp] theorem State.setStile_port (s : State) (n : Nat) (x : Stile) : (s.setStile n x).port = s.port := rfl
@[simp] theorem State.setStile_ddr (s : State) (n : Nat) (x : Stile) : (s.setStile n x).ddr = s.ddr := rfl
@[simp] theorem State.setStile_host (s : State) (n : Nat) (x : Stile) : (s.setStile n x).host = s.host := rfl
@[simp] theorem State.setStile_recd (s : State) (n : Nat) (x : Stile) : (s.setStile n x).recd = s.recd := rfl
@[simp] theorem State.setStile_pwr (s : State) (n : Nat) (x : Stile) : (s.setStile n x).pwr = s.pwr := rfl
@[simp] theorem State.setStile_xbar (s : State) (n : Nat) (x : Stile) : (s.setStile n x).xbar = s.xbar := rfl
@[simp] theorem State.setStile_svc (s : State) (n : Nat) (x : Stile) : (s.setStile n x).svc = s.svc := rfl
@[simp] theorem State.setStile_tap (s : State) (n : Nat) (x : Stile) : (s.setStile n x).tap = s.tap := rfl
@[simp] theorem State.setStile_cyc (s : State) (n : Nat) (x : Stile) : (s.setStile n x).cyc = s.cyc := rfl
@[simp] theorem State.setStile_ticks (s : State) (n : Nat) (x : Stile) : (s.setStile n x).ticks = s.ticks := rfl
@[simp] theorem State.setStile_out (s : State) (n : Nat) (x : Stile) : (s.setStile n x).out = s.out := rfl
@[simp] theorem State.setStile_freeCtr (s : State) (n : Nat) (x : Stile) : (s.setStile n x).freeCtr = s.freeCtr := rfl
@[simp] theorem State.setStile_pending (s : State) (n : Nat) (x : Stile) : (s.setStile n x).pending = s.pending := rfl
@[simp] theorem State.setStile_reg (s : State) (n : Nat) (x : Stile) (k0 : Nat) : (s.setStile n x).reg k0 = s.reg k0 := rfl
@[simp] theorem State.setStile_rd (s : State) (n : Nat) (x : Stile) (f0 : Fld) : (s.setStile n x).rd f0 = s.rd f0 := rfl
@[simp] theorem State.setStile_bit (s : State) (n : Nat) (x : Stile) (f0 : Fld) : (s.setStile n x).bit f0 = s.bit f0 := rfl
@[simp] theorem State.setStile_shd (s : State) (n : Nat) (x : Stile) (k0 : Nat) : (s.setStile n x).shd k0 = s.shd k0 := rfl
@[simp] theorem State.setStile_up (s : State) (n : Nat) (x : Stile) (p0 : Part) : (s.setStile n x).up p0 = s.up p0 := rfl

/-! ### `State.setSource` -/

@[simp] theorem State.setSource_regs (s : State) (k : Nat) (m : Option SrcMsg) : (s.setSource k m).regs = s.regs := rfl
@[simp] theorem State.setSource_flt (s : State) (k : Nat) (m : Option SrcMsg) : (s.setSource k m).flt = s.flt := rfl
@[simp] theorem State.setSource_boot (s : State) (k : Nat) (m : Option SrcMsg) : (s.setSource k m).boot = s.boot := rfl
@[simp] theorem State.setSource_commits (s : State) (k : Nat) (m : Option SrcMsg) : (s.setSource k m).commits = s.commits := rfl
@[simp] theorem State.setSource_vme (s : State) (k : Nat) (m : Option SrcMsg) : (s.setSource k m).vme = s.vme := rfl
@[simp] theorem State.setSource_vin (s : State) (k : Nat) (m : Option SrcMsg) : (s.setSource k m).vin = s.vin := rfl
@[simp] theorem State.setSource_drv (s : State) (k : Nat) (m : Option SrcMsg) : (s.setSource k m).drv = { s.drv with sources := tput noSource s.drv.sources k m } := rfl
@[simp] theorem State.setSource_ord (s : State) (k : Nat) (m : Option SrcMsg) : (s.setSource k m).ord = s.ord := rfl
@[simp] theorem State.setSource_fold (s : State) (k : Nat) (m : Option SrcMsg) : (s.setSource k m).fold = s.fold := rfl
@[simp] theorem State.setSource_net (s : State) (k : Nat) (m : Option SrcMsg) : (s.setSource k m).net = s.net := rfl
@[simp] theorem State.setSource_cad (s : State) (k : Nat) (m : Option SrcMsg) : (s.setSource k m).cad = s.cad := rfl
@[simp] theorem State.setSource_stat (s : State) (k : Nat) (m : Option SrcMsg) : (s.setSource k m).stat = s.stat := rfl
@[simp] theorem State.setSource_twin (s : State) (k : Nat) (m : Option SrcMsg) : (s.setSource k m).twin = s.twin := rfl
@[simp] theorem State.setSource_port (s : State) (k : Nat) (m : Option SrcMsg) : (s.setSource k m).port = s.port := rfl
@[simp] theorem State.setSource_ddr (s : State) (k : Nat) (m : Option SrcMsg) : (s.setSource k m).ddr = s.ddr := rfl
@[simp] theorem State.setSource_host (s : State) (k : Nat) (m : Option SrcMsg) : (s.setSource k m).host = s.host := rfl
@[simp] theorem State.setSource_recd (s : State) (k : Nat) (m : Option SrcMsg) : (s.setSource k m).recd = s.recd := rfl
@[simp] theorem State.setSource_pwr (s : State) (k : Nat) (m : Option SrcMsg) : (s.setSource k m).pwr = s.pwr := rfl
@[simp] theorem State.setSource_xbar (s : State) (k : Nat) (m : Option SrcMsg) : (s.setSource k m).xbar = s.xbar := rfl
@[simp] theorem State.setSource_svc (s : State) (k : Nat) (m : Option SrcMsg) : (s.setSource k m).svc = s.svc := rfl
@[simp] theorem State.setSource_tap (s : State) (k : Nat) (m : Option SrcMsg) : (s.setSource k m).tap = s.tap := rfl
@[simp] theorem State.setSource_cyc (s : State) (k : Nat) (m : Option SrcMsg) : (s.setSource k m).cyc = s.cyc := rfl
@[simp] theorem State.setSource_ticks (s : State) (k : Nat) (m : Option SrcMsg) : (s.setSource k m).ticks = s.ticks := rfl
@[simp] theorem State.setSource_out (s : State) (k : Nat) (m : Option SrcMsg) : (s.setSource k m).out = s.out := rfl
@[simp] theorem State.setSource_freeCtr (s : State) (k : Nat) (m : Option SrcMsg) : (s.setSource k m).freeCtr = s.freeCtr := rfl
@[simp] theorem State.setSource_pending (s : State) (k : Nat) (m : Option SrcMsg) : (s.setSource k m).pending = s.pending := rfl
@[simp] theorem State.setSource_reg (s : State) (k : Nat) (m : Option SrcMsg) (k0 : Nat) : (s.setSource k m).reg k0 = s.reg k0 := rfl
@[simp] theorem State.setSource_rd (s : State) (k : Nat) (m : Option SrcMsg) (f0 : Fld) : (s.setSource k m).rd f0 = s.rd f0 := rfl
@[simp] theorem State.setSource_bit (s : State) (k : Nat) (m : Option SrcMsg) (f0 : Fld) : (s.setSource k m).bit f0 = s.bit f0 := rfl
@[simp] theorem State.setSource_shd (s : State) (k : Nat) (m : Option SrcMsg) (k0 : Nat) : (s.setSource k m).shd k0 = s.shd k0 := rfl
@[simp] theorem State.setSource_up (s : State) (k : Nat) (m : Option SrcMsg) (p0 : Part) : (s.setSource k m).up p0 = s.up p0 := rfl

/-! ### `State.setConfirm` -/

@[simp] theorem State.setConfirm_regs (s : State) (k : Nat) (c : Confirm) : (s.setConfirm k c).regs = s.regs := rfl
@[simp] theorem State.setConfirm_flt (s : State) (k : Nat) (c : Confirm) : (s.setConfirm k c).flt = s.flt := rfl
@[simp] theorem State.setConfirm_boot (s : State) (k : Nat) (c : Confirm) : (s.setConfirm k c).boot = s.boot := rfl
@[simp] theorem State.setConfirm_commits (s : State) (k : Nat) (c : Confirm) : (s.setConfirm k c).commits = s.commits := rfl
@[simp] theorem State.setConfirm_vme (s : State) (k : Nat) (c : Confirm) : (s.setConfirm k c).vme = s.vme := rfl
@[simp] theorem State.setConfirm_vin (s : State) (k : Nat) (c : Confirm) : (s.setConfirm k c).vin = s.vin := rfl
@[simp] theorem State.setConfirm_drv (s : State) (k : Nat) (c : Confirm) : (s.setConfirm k c).drv = s.drv := rfl
@[simp] theorem State.setConfirm_ord (s : State) (k : Nat) (c : Confirm) : (s.setConfirm k c).ord = { s.ord with confirms := tput Confirm.zero s.ord.confirms k c } := rfl
@[simp] theorem State.setConfirm_fold (s : State) (k : Nat) (c : Confirm) : (s.setConfirm k c).fold = s.fold := rfl
@[simp] theorem State.setConfirm_net (s : State) (k : Nat) (c : Confirm) : (s.setConfirm k c).net = s.net := rfl
@[simp] theorem State.setConfirm_cad (s : State) (k : Nat) (c : Confirm) : (s.setConfirm k c).cad = s.cad := rfl
@[simp] theorem State.setConfirm_stat (s : State) (k : Nat) (c : Confirm) : (s.setConfirm k c).stat = s.stat := rfl
@[simp] theorem State.setConfirm_twin (s : State) (k : Nat) (c : Confirm) : (s.setConfirm k c).twin = s.twin := rfl
@[simp] theorem State.setConfirm_port (s : State) (k : Nat) (c : Confirm) : (s.setConfirm k c).port = s.port := rfl
@[simp] theorem State.setConfirm_ddr (s : State) (k : Nat) (c : Confirm) : (s.setConfirm k c).ddr = s.ddr := rfl
@[simp] theorem State.setConfirm_host (s : State) (k : Nat) (c : Confirm) : (s.setConfirm k c).host = s.host := rfl
@[simp] theorem State.setConfirm_recd (s : State) (k : Nat) (c : Confirm) : (s.setConfirm k c).recd = s.recd := rfl
@[simp] theorem State.setConfirm_pwr (s : State) (k : Nat) (c : Confirm) : (s.setConfirm k c).pwr = s.pwr := rfl
@[simp] theorem State.setConfirm_xbar (s : State) (k : Nat) (c : Confirm) : (s.setConfirm k c).xbar = s.xbar := rfl
@[simp] theorem State.setConfirm_svc (s : State) (k : Nat) (c : Confirm) : (s.setConfirm k c).svc = s.svc := rfl
@[simp] theorem State.setConfirm_tap (s : State) (k : Nat) (c : Confirm) : (s.setConfirm k c).tap = s.tap := rfl
@[simp] theorem State.setConfirm_cyc (s : State) (k : Nat) (c : Confirm) : (s.setConfirm k c).cyc = s.cyc := rfl
@[simp] theorem State.setConfirm_ticks (s : State) (k : Nat) (c : Confirm) : (s.setConfirm k c).ticks = s.ticks := rfl
@[simp] theorem State.setConfirm_out (s : State) (k : Nat) (c : Confirm) : (s.setConfirm k c).out = s.out := rfl
@[simp] theorem State.setConfirm_freeCtr (s : State) (k : Nat) (c : Confirm) : (s.setConfirm k c).freeCtr = s.freeCtr := rfl
@[simp] theorem State.setConfirm_pending (s : State) (k : Nat) (c : Confirm) : (s.setConfirm k c).pending = s.pending := rfl
@[simp] theorem State.setConfirm_reg (s : State) (k : Nat) (c : Confirm) (k0 : Nat) : (s.setConfirm k c).reg k0 = s.reg k0 := rfl
@[simp] theorem State.setConfirm_rd (s : State) (k : Nat) (c : Confirm) (f0 : Fld) : (s.setConfirm k c).rd f0 = s.rd f0 := rfl
@[simp] theorem State.setConfirm_bit (s : State) (k : Nat) (c : Confirm) (f0 : Fld) : (s.setConfirm k c).bit f0 = s.bit f0 := rfl
@[simp] theorem State.setConfirm_shd (s : State) (k : Nat) (c : Confirm) (k0 : Nat) : (s.setConfirm k c).shd k0 = s.shd k0 := rfl
@[simp] theorem State.setConfirm_up (s : State) (k : Nat) (c : Confirm) (p0 : Part) : (s.setConfirm k c).up p0 = s.up p0 := rfl

/-! ### `State.setSlot` -/

@[simp] theorem State.setSlot_regs (s : State) (i : Nat) (r : Option RSlot) : (s.setSlot i r).regs = s.regs := rfl
@[simp] theorem State.setSlot_flt (s : State) (i : Nat) (r : Option RSlot) : (s.setSlot i r).flt = s.flt := rfl
@[simp] theorem State.setSlot_boot (s : State) (i : Nat) (r : Option RSlot) : (s.setSlot i r).boot = s.boot := rfl
@[simp] theorem State.setSlot_commits (s : State) (i : Nat) (r : Option RSlot) : (s.setSlot i r).commits = s.commits := rfl
@[simp] theorem State.setSlot_vme (s : State) (i : Nat) (r : Option RSlot) : (s.setSlot i r).vme = s.vme := rfl
@[simp] theorem State.setSlot_vin (s : State) (i : Nat) (r : Option RSlot) : (s.setSlot i r).vin = { s.vin with slots := setAt s.vin.slots i r } := rfl
@[simp] theorem State.setSlot_drv (s : State) (i : Nat) (r : Option RSlot) : (s.setSlot i r).drv = s.drv := rfl
@[simp] theorem State.setSlot_ord (s : State) (i : Nat) (r : Option RSlot) : (s.setSlot i r).ord = s.ord := rfl
@[simp] theorem State.setSlot_fold (s : State) (i : Nat) (r : Option RSlot) : (s.setSlot i r).fold = s.fold := rfl
@[simp] theorem State.setSlot_net (s : State) (i : Nat) (r : Option RSlot) : (s.setSlot i r).net = s.net := rfl
@[simp] theorem State.setSlot_cad (s : State) (i : Nat) (r : Option RSlot) : (s.setSlot i r).cad = s.cad := rfl
@[simp] theorem State.setSlot_stat (s : State) (i : Nat) (r : Option RSlot) : (s.setSlot i r).stat = s.stat := rfl
@[simp] theorem State.setSlot_twin (s : State) (i : Nat) (r : Option RSlot) : (s.setSlot i r).twin = s.twin := rfl
@[simp] theorem State.setSlot_port (s : State) (i : Nat) (r : Option RSlot) : (s.setSlot i r).port = s.port := rfl
@[simp] theorem State.setSlot_ddr (s : State) (i : Nat) (r : Option RSlot) : (s.setSlot i r).ddr = s.ddr := rfl
@[simp] theorem State.setSlot_host (s : State) (i : Nat) (r : Option RSlot) : (s.setSlot i r).host = s.host := rfl
@[simp] theorem State.setSlot_recd (s : State) (i : Nat) (r : Option RSlot) : (s.setSlot i r).recd = s.recd := rfl
@[simp] theorem State.setSlot_pwr (s : State) (i : Nat) (r : Option RSlot) : (s.setSlot i r).pwr = s.pwr := rfl
@[simp] theorem State.setSlot_xbar (s : State) (i : Nat) (r : Option RSlot) : (s.setSlot i r).xbar = s.xbar := rfl
@[simp] theorem State.setSlot_svc (s : State) (i : Nat) (r : Option RSlot) : (s.setSlot i r).svc = s.svc := rfl
@[simp] theorem State.setSlot_tap (s : State) (i : Nat) (r : Option RSlot) : (s.setSlot i r).tap = s.tap := rfl
@[simp] theorem State.setSlot_cyc (s : State) (i : Nat) (r : Option RSlot) : (s.setSlot i r).cyc = s.cyc := rfl
@[simp] theorem State.setSlot_ticks (s : State) (i : Nat) (r : Option RSlot) : (s.setSlot i r).ticks = s.ticks := rfl
@[simp] theorem State.setSlot_out (s : State) (i : Nat) (r : Option RSlot) : (s.setSlot i r).out = s.out := rfl
@[simp] theorem State.setSlot_freeCtr (s : State) (i : Nat) (r : Option RSlot) : (s.setSlot i r).freeCtr = s.freeCtr := rfl
@[simp] theorem State.setSlot_pending (s : State) (i : Nat) (r : Option RSlot) : (s.setSlot i r).pending = s.pending := rfl
@[simp] theorem State.setSlot_reg (s : State) (i : Nat) (r : Option RSlot) (k0 : Nat) : (s.setSlot i r).reg k0 = s.reg k0 := rfl
@[simp] theorem State.setSlot_rd (s : State) (i : Nat) (r : Option RSlot) (f0 : Fld) : (s.setSlot i r).rd f0 = s.rd f0 := rfl
@[simp] theorem State.setSlot_bit (s : State) (i : Nat) (r : Option RSlot) (f0 : Fld) : (s.setSlot i r).bit f0 = s.bit f0 := rfl
@[simp] theorem State.setSlot_shd (s : State) (i : Nat) (r : Option RSlot) (k0 : Nat) : (s.setSlot i r).shd k0 = s.shd k0 := rfl
@[simp] theorem State.setSlot_up (s : State) (i : Nat) (r : Option RSlot) (p0 : Part) : (s.setSlot i r).up p0 = s.up p0 := rfl

/-! ### `State.setCyc` -/

@[simp] theorem State.setCyc_regs (s : State) (c : Option InCycle) : (s.setCyc c).regs = s.regs := rfl
@[simp] theorem State.setCyc_flt (s : State) (c : Option InCycle) : (s.setCyc c).flt = s.flt := rfl
@[simp] theorem State.setCyc_boot (s : State) (c : Option InCycle) : (s.setCyc c).boot = s.boot := rfl
@[simp] theorem State.setCyc_commits (s : State) (c : Option InCycle) : (s.setCyc c).commits = s.commits := rfl
@[simp] theorem State.setCyc_vme (s : State) (c : Option InCycle) : (s.setCyc c).vme = s.vme := rfl
@[simp] theorem State.setCyc_vin (s : State) (c : Option InCycle) : (s.setCyc c).vin = { s.vin with cyc := c } := rfl
@[simp] theorem State.setCyc_drv (s : State) (c : Option InCycle) : (s.setCyc c).drv = s.drv := rfl
@[simp] theorem State.setCyc_ord (s : State) (c : Option InCycle) : (s.setCyc c).ord = s.ord := rfl
@[simp] theorem State.setCyc_fold (s : State) (c : Option InCycle) : (s.setCyc c).fold = s.fold := rfl
@[simp] theorem State.setCyc_net (s : State) (c : Option InCycle) : (s.setCyc c).net = s.net := rfl
@[simp] theorem State.setCyc_cad (s : State) (c : Option InCycle) : (s.setCyc c).cad = s.cad := rfl
@[simp] theorem State.setCyc_stat (s : State) (c : Option InCycle) : (s.setCyc c).stat = s.stat := rfl
@[simp] theorem State.setCyc_twin (s : State) (c : Option InCycle) : (s.setCyc c).twin = s.twin := rfl
@[simp] theorem State.setCyc_port (s : State) (c : Option InCycle) : (s.setCyc c).port = s.port := rfl
@[simp] theorem State.setCyc_ddr (s : State) (c : Option InCycle) : (s.setCyc c).ddr = s.ddr := rfl
@[simp] theorem State.setCyc_host (s : State) (c : Option InCycle) : (s.setCyc c).host = s.host := rfl
@[simp] theorem State.setCyc_recd (s : State) (c : Option InCycle) : (s.setCyc c).recd = s.recd := rfl
@[simp] theorem State.setCyc_pwr (s : State) (c : Option InCycle) : (s.setCyc c).pwr = s.pwr := rfl
@[simp] theorem State.setCyc_xbar (s : State) (c : Option InCycle) : (s.setCyc c).xbar = s.xbar := rfl
@[simp] theorem State.setCyc_svc (s : State) (c : Option InCycle) : (s.setCyc c).svc = s.svc := rfl
@[simp] theorem State.setCyc_tap (s : State) (c : Option InCycle) : (s.setCyc c).tap = s.tap := rfl
@[simp] theorem State.setCyc_cyc (s : State) (c : Option InCycle) : (s.setCyc c).cyc = s.cyc := rfl
@[simp] theorem State.setCyc_ticks (s : State) (c : Option InCycle) : (s.setCyc c).ticks = s.ticks := rfl
@[simp] theorem State.setCyc_out (s : State) (c : Option InCycle) : (s.setCyc c).out = s.out := rfl
@[simp] theorem State.setCyc_freeCtr (s : State) (c : Option InCycle) : (s.setCyc c).freeCtr = s.freeCtr := rfl
@[simp] theorem State.setCyc_pending (s : State) (c : Option InCycle) : (s.setCyc c).pending = s.pending := rfl
@[simp] theorem State.setCyc_reg (s : State) (c : Option InCycle) (k0 : Nat) : (s.setCyc c).reg k0 = s.reg k0 := rfl
@[simp] theorem State.setCyc_rd (s : State) (c : Option InCycle) (f0 : Fld) : (s.setCyc c).rd f0 = s.rd f0 := rfl
@[simp] theorem State.setCyc_bit (s : State) (c : Option InCycle) (f0 : Fld) : (s.setCyc c).bit f0 = s.bit f0 := rfl
@[simp] theorem State.setCyc_shd (s : State) (c : Option InCycle) (k0 : Nat) : (s.setCyc c).shd k0 = s.shd k0 := rfl
@[simp] theorem State.setCyc_up (s : State) (c : Option InCycle) (p0 : Part) : (s.setCyc c).up p0 = s.up p0 := rfl

/-! ### `State.setIrq` -/

@[simp] theorem State.setIrq_regs (s : State) (b : Bool) : (s.setIrq b).regs = s.regs := rfl
@[simp] theorem State.setIrq_flt (s : State) (b : Bool) : (s.setIrq b).flt = s.flt := rfl
@[simp] theorem State.setIrq_boot (s : State) (b : Bool) : (s.setIrq b).boot = s.boot := rfl
@[simp] theorem State.setIrq_commits (s : State) (b : Bool) : (s.setIrq b).commits = s.commits := rfl
@[simp] theorem State.setIrq_vme (s : State) (b : Bool) : (s.setIrq b).vme = s.vme := rfl
@[simp] theorem State.setIrq_vin (s : State) (b : Bool) : (s.setIrq b).vin = { s.vin with irqOut := b } := rfl
@[simp] theorem State.setIrq_drv (s : State) (b : Bool) : (s.setIrq b).drv = s.drv := rfl
@[simp] theorem State.setIrq_ord (s : State) (b : Bool) : (s.setIrq b).ord = s.ord := rfl
@[simp] theorem State.setIrq_fold (s : State) (b : Bool) : (s.setIrq b).fold = s.fold := rfl
@[simp] theorem State.setIrq_net (s : State) (b : Bool) : (s.setIrq b).net = s.net := rfl
@[simp] theorem State.setIrq_cad (s : State) (b : Bool) : (s.setIrq b).cad = s.cad := rfl
@[simp] theorem State.setIrq_stat (s : State) (b : Bool) : (s.setIrq b).stat = s.stat := rfl
@[simp] theorem State.setIrq_twin (s : State) (b : Bool) : (s.setIrq b).twin = s.twin := rfl
@[simp] theorem State.setIrq_port (s : State) (b : Bool) : (s.setIrq b).port = s.port := rfl
@[simp] theorem State.setIrq_ddr (s : State) (b : Bool) : (s.setIrq b).ddr = s.ddr := rfl
@[simp] theorem State.setIrq_host (s : State) (b : Bool) : (s.setIrq b).host = s.host := rfl
@[simp] theorem State.setIrq_recd (s : State) (b : Bool) : (s.setIrq b).recd = s.recd := rfl
@[simp] theorem State.setIrq_pwr (s : State) (b : Bool) : (s.setIrq b).pwr = s.pwr := rfl
@[simp] theorem State.setIrq_xbar (s : State) (b : Bool) : (s.setIrq b).xbar = s.xbar := rfl
@[simp] theorem State.setIrq_svc (s : State) (b : Bool) : (s.setIrq b).svc = s.svc := rfl
@[simp] theorem State.setIrq_tap (s : State) (b : Bool) : (s.setIrq b).tap = s.tap := rfl
@[simp] theorem State.setIrq_cyc (s : State) (b : Bool) : (s.setIrq b).cyc = s.cyc := rfl
@[simp] theorem State.setIrq_ticks (s : State) (b : Bool) : (s.setIrq b).ticks = s.ticks := rfl
@[simp] theorem State.setIrq_out (s : State) (b : Bool) : (s.setIrq b).out = s.out := rfl
@[simp] theorem State.setIrq_freeCtr (s : State) (b : Bool) : (s.setIrq b).freeCtr = s.freeCtr := rfl
@[simp] theorem State.setIrq_pending (s : State) (b : Bool) : (s.setIrq b).pending = s.pending := rfl
@[simp] theorem State.setIrq_reg (s : State) (b : Bool) (k0 : Nat) : (s.setIrq b).reg k0 = s.reg k0 := rfl
@[simp] theorem State.setIrq_rd (s : State) (b : Bool) (f0 : Fld) : (s.setIrq b).rd f0 = s.rd f0 := rfl
@[simp] theorem State.setIrq_bit (s : State) (b : Bool) (f0 : Fld) : (s.setIrq b).bit f0 = s.bit f0 := rfl
@[simp] theorem State.setIrq_shd (s : State) (b : Bool) (k0 : Nat) : (s.setIrq b).shd k0 = s.shd k0 := rfl
@[simp] theorem State.setIrq_up (s : State) (b : Bool) (p0 : Part) : (s.setIrq b).up p0 = s.up p0 := rfl

/-! ### `State.setIh` -/

@[simp] theorem State.setIh_regs (s : State) (n : Nat) (l : IhLevel) : (s.setIh n l).regs = s.regs := rfl
@[simp] theorem State.setIh_flt (s : State) (n : Nat) (l : IhLevel) : (s.setIh n l).flt = s.flt := rfl
@[simp] theorem State.setIh_boot (s : State) (n : Nat) (l : IhLevel) : (s.setIh n l).boot = s.boot := rfl
@[simp] theorem State.setIh_commits (s : State) (n : Nat) (l : IhLevel) : (s.setIh n l).commits = s.commits := rfl
@[simp] theorem State.setIh_vme (s : State) (n : Nat) (l : IhLevel) : (s.setIh n l).vme = s.vme := rfl
@[simp] theorem State.setIh_vin (s : State) (n : Nat) (l : IhLevel) : (s.setIh n l).vin = { s.vin with levels := setAt s.vin.levels n l } := rfl
@[simp] theorem State.setIh_drv (s : State) (n : Nat) (l : IhLevel) : (s.setIh n l).drv = s.drv := rfl
@[simp] theorem State.setIh_ord (s : State) (n : Nat) (l : IhLevel) : (s.setIh n l).ord = s.ord := rfl
@[simp] theorem State.setIh_fold (s : State) (n : Nat) (l : IhLevel) : (s.setIh n l).fold = s.fold := rfl
@[simp] theorem State.setIh_net (s : State) (n : Nat) (l : IhLevel) : (s.setIh n l).net = s.net := rfl
@[simp] theorem State.setIh_cad (s : State) (n : Nat) (l : IhLevel) : (s.setIh n l).cad = s.cad := rfl
@[simp] theorem State.setIh_stat (s : State) (n : Nat) (l : IhLevel) : (s.setIh n l).stat = s.stat := rfl
@[simp] theorem State.setIh_twin (s : State) (n : Nat) (l : IhLevel) : (s.setIh n l).twin = s.twin := rfl
@[simp] theorem State.setIh_port (s : State) (n : Nat) (l : IhLevel) : (s.setIh n l).port = s.port := rfl
@[simp] theorem State.setIh_ddr (s : State) (n : Nat) (l : IhLevel) : (s.setIh n l).ddr = s.ddr := rfl
@[simp] theorem State.setIh_host (s : State) (n : Nat) (l : IhLevel) : (s.setIh n l).host = s.host := rfl
@[simp] theorem State.setIh_recd (s : State) (n : Nat) (l : IhLevel) : (s.setIh n l).recd = s.recd := rfl
@[simp] theorem State.setIh_pwr (s : State) (n : Nat) (l : IhLevel) : (s.setIh n l).pwr = s.pwr := rfl
@[simp] theorem State.setIh_xbar (s : State) (n : Nat) (l : IhLevel) : (s.setIh n l).xbar = s.xbar := rfl
@[simp] theorem State.setIh_svc (s : State) (n : Nat) (l : IhLevel) : (s.setIh n l).svc = s.svc := rfl
@[simp] theorem State.setIh_tap (s : State) (n : Nat) (l : IhLevel) : (s.setIh n l).tap = s.tap := rfl
@[simp] theorem State.setIh_cyc (s : State) (n : Nat) (l : IhLevel) : (s.setIh n l).cyc = s.cyc := rfl
@[simp] theorem State.setIh_ticks (s : State) (n : Nat) (l : IhLevel) : (s.setIh n l).ticks = s.ticks := rfl
@[simp] theorem State.setIh_out (s : State) (n : Nat) (l : IhLevel) : (s.setIh n l).out = s.out := rfl
@[simp] theorem State.setIh_freeCtr (s : State) (n : Nat) (l : IhLevel) : (s.setIh n l).freeCtr = s.freeCtr := rfl
@[simp] theorem State.setIh_pending (s : State) (n : Nat) (l : IhLevel) : (s.setIh n l).pending = s.pending := rfl
@[simp] theorem State.setIh_reg (s : State) (n : Nat) (l : IhLevel) (k0 : Nat) : (s.setIh n l).reg k0 = s.reg k0 := rfl
@[simp] theorem State.setIh_rd (s : State) (n : Nat) (l : IhLevel) (f0 : Fld) : (s.setIh n l).rd f0 = s.rd f0 := rfl
@[simp] theorem State.setIh_bit (s : State) (n : Nat) (l : IhLevel) (f0 : Fld) : (s.setIh n l).bit f0 = s.bit f0 := rfl
@[simp] theorem State.setIh_shd (s : State) (n : Nat) (l : IhLevel) (k0 : Nat) : (s.setIh n l).shd k0 = s.shd k0 := rfl
@[simp] theorem State.setIh_up (s : State) (n : Nat) (l : IhLevel) (p0 : Part) : (s.setIh n l).up p0 = s.up p0 := rfl

/-! ### `State.setFetches` -/

@[simp] theorem State.setFetches_regs (s : State) (ring : Nat) (l : List FetchRec) : (s.setFetches ring l).regs = s.regs := rfl
@[simp] theorem State.setFetches_flt (s : State) (ring : Nat) (l : List FetchRec) : (s.setFetches ring l).flt = s.flt := rfl
@[simp] theorem State.setFetches_boot (s : State) (ring : Nat) (l : List FetchRec) : (s.setFetches ring l).boot = s.boot := rfl
@[simp] theorem State.setFetches_commits (s : State) (ring : Nat) (l : List FetchRec) : (s.setFetches ring l).commits = s.commits := rfl
@[simp] theorem State.setFetches_vme (s : State) (ring : Nat) (l : List FetchRec) : (s.setFetches ring l).vme = s.vme := rfl
@[simp] theorem State.setFetches_vin (s : State) (ring : Nat) (l : List FetchRec) : (s.setFetches ring l).vin = s.vin := rfl
@[simp] theorem State.setFetches_drv (s : State) (ring : Nat) (l : List FetchRec) : (s.setFetches ring l).drv = s.drv := rfl
@[simp] theorem State.setFetches_ord (s : State) (ring : Nat) (l : List FetchRec) : (s.setFetches ring l).ord = s.ord := rfl
@[simp] theorem State.setFetches_fold (s : State) (ring : Nat) (l : List FetchRec) : (s.setFetches ring l).fold = s.fold := rfl
@[simp] theorem State.setFetches_net (s : State) (ring : Nat) (l : List FetchRec) : (s.setFetches ring l).net = s.net := rfl
@[simp] theorem State.setFetches_cad (s : State) (ring : Nat) (l : List FetchRec) : (s.setFetches ring l).cad = s.cad := rfl
@[simp] theorem State.setFetches_stat (s : State) (ring : Nat) (l : List FetchRec) : (s.setFetches ring l).stat = s.stat := rfl
@[simp] theorem State.setFetches_twin (s : State) (ring : Nat) (l : List FetchRec) : (s.setFetches ring l).twin = s.twin := rfl
@[simp] theorem State.setFetches_port (s : State) (ring : Nat) (l : List FetchRec) : (s.setFetches ring l).port = s.port := rfl
@[simp] theorem State.setFetches_ddr (s : State) (ring : Nat) (l : List FetchRec) : (s.setFetches ring l).ddr = s.ddr := rfl
@[simp] theorem State.setFetches_host (s : State) (ring : Nat) (l : List FetchRec) : (s.setFetches ring l).host = { s.host with fetches := tput noFetch s.host.fetches ring l } := rfl
@[simp] theorem State.setFetches_recd (s : State) (ring : Nat) (l : List FetchRec) : (s.setFetches ring l).recd = s.recd := rfl
@[simp] theorem State.setFetches_pwr (s : State) (ring : Nat) (l : List FetchRec) : (s.setFetches ring l).pwr = s.pwr := rfl
@[simp] theorem State.setFetches_xbar (s : State) (ring : Nat) (l : List FetchRec) : (s.setFetches ring l).xbar = s.xbar := rfl
@[simp] theorem State.setFetches_svc (s : State) (ring : Nat) (l : List FetchRec) : (s.setFetches ring l).svc = s.svc := rfl
@[simp] theorem State.setFetches_tap (s : State) (ring : Nat) (l : List FetchRec) : (s.setFetches ring l).tap = s.tap := rfl
@[simp] theorem State.setFetches_cyc (s : State) (ring : Nat) (l : List FetchRec) : (s.setFetches ring l).cyc = s.cyc := rfl
@[simp] theorem State.setFetches_ticks (s : State) (ring : Nat) (l : List FetchRec) : (s.setFetches ring l).ticks = s.ticks := rfl
@[simp] theorem State.setFetches_out (s : State) (ring : Nat) (l : List FetchRec) : (s.setFetches ring l).out = s.out := rfl
@[simp] theorem State.setFetches_freeCtr (s : State) (ring : Nat) (l : List FetchRec) : (s.setFetches ring l).freeCtr = s.freeCtr := rfl
@[simp] theorem State.setFetches_pending (s : State) (ring : Nat) (l : List FetchRec) : (s.setFetches ring l).pending = s.pending := rfl
@[simp] theorem State.setFetches_reg (s : State) (ring : Nat) (l : List FetchRec) (k0 : Nat) : (s.setFetches ring l).reg k0 = s.reg k0 := rfl
@[simp] theorem State.setFetches_rd (s : State) (ring : Nat) (l : List FetchRec) (f0 : Fld) : (s.setFetches ring l).rd f0 = s.rd f0 := rfl
@[simp] theorem State.setFetches_bit (s : State) (ring : Nat) (l : List FetchRec) (f0 : Fld) : (s.setFetches ring l).bit f0 = s.bit f0 := rfl
@[simp] theorem State.setFetches_shd (s : State) (ring : Nat) (l : List FetchRec) (k0 : Nat) : (s.setFetches ring l).shd k0 = s.shd k0 := rfl
@[simp] theorem State.setFetches_up (s : State) (ring : Nat) (l : List FetchRec) (p0 : Part) : (s.setFetches ring l).up p0 = s.up p0 := rfl

/-! ### `State.doorbellAnswered` -/

@[simp] theorem State.doorbellAnswered_regs (s : State) (addr status : Nat) (data : List Byte) : (s.doorbellAnswered addr status data).regs = s.regs := rfl
@[simp] theorem State.doorbellAnswered_flt (s : State) (addr status : Nat) (data : List Byte) : (s.doorbellAnswered addr status data).flt = s.flt := rfl
@[simp] theorem State.doorbellAnswered_boot (s : State) (addr status : Nat) (data : List Byte) : (s.doorbellAnswered addr status data).boot = s.boot := rfl
@[simp] theorem State.doorbellAnswered_commits (s : State) (addr status : Nat) (data : List Byte) : (s.doorbellAnswered addr status data).commits = s.commits := rfl
@[simp] theorem State.doorbellAnswered_vme (s : State) (addr status : Nat) (data : List Byte) : (s.doorbellAnswered addr status data).vme = s.vme := rfl
@[simp] theorem State.doorbellAnswered_vin (s : State) (addr status : Nat) (data : List Byte) : (s.doorbellAnswered addr status data).vin = s.vin := rfl
@[simp] theorem State.doorbellAnswered_drv (s : State) (addr status : Nat) (data : List Byte) : (s.doorbellAnswered addr status data).drv = s.drv := rfl
@[simp] theorem State.doorbellAnswered_ord (s : State) (addr status : Nat) (data : List Byte) : (s.doorbellAnswered addr status data).ord = s.ord := rfl
@[simp] theorem State.doorbellAnswered_fold (s : State) (addr status : Nat) (data : List Byte) : (s.doorbellAnswered addr status data).fold = s.fold := rfl
@[simp] theorem State.doorbellAnswered_net (s : State) (addr status : Nat) (data : List Byte) : (s.doorbellAnswered addr status data).net = s.net := rfl
@[simp] theorem State.doorbellAnswered_cad (s : State) (addr status : Nat) (data : List Byte) : (s.doorbellAnswered addr status data).cad = s.cad := rfl
@[simp] theorem State.doorbellAnswered_stat (s : State) (addr status : Nat) (data : List Byte) : (s.doorbellAnswered addr status data).stat = s.stat := rfl
@[simp] theorem State.doorbellAnswered_twin (s : State) (addr status : Nat) (data : List Byte) : (s.doorbellAnswered addr status data).twin = s.twin := rfl
@[simp] theorem State.doorbellAnswered_port (s : State) (addr status : Nat) (data : List Byte) : (s.doorbellAnswered addr status data).port = s.port := rfl
@[simp] theorem State.doorbellAnswered_ddr (s : State) (addr status : Nat) (data : List Byte) : (s.doorbellAnswered addr status data).ddr = s.ddr := rfl
@[simp] theorem State.doorbellAnswered_host (s : State) (addr status : Nat) (data : List Byte) : (s.doorbellAnswered addr status data).host = { s.host with polled := s.host.polled ++ [(addr % 4096, status, data)] } := rfl
@[simp] theorem State.doorbellAnswered_recd (s : State) (addr status : Nat) (data : List Byte) : (s.doorbellAnswered addr status data).recd = s.recd := rfl
@[simp] theorem State.doorbellAnswered_pwr (s : State) (addr status : Nat) (data : List Byte) : (s.doorbellAnswered addr status data).pwr = s.pwr := rfl
@[simp] theorem State.doorbellAnswered_xbar (s : State) (addr status : Nat) (data : List Byte) : (s.doorbellAnswered addr status data).xbar = s.xbar := rfl
@[simp] theorem State.doorbellAnswered_svc (s : State) (addr status : Nat) (data : List Byte) : (s.doorbellAnswered addr status data).svc = s.svc := rfl
@[simp] theorem State.doorbellAnswered_tap (s : State) (addr status : Nat) (data : List Byte) : (s.doorbellAnswered addr status data).tap = s.tap := rfl
@[simp] theorem State.doorbellAnswered_cyc (s : State) (addr status : Nat) (data : List Byte) : (s.doorbellAnswered addr status data).cyc = s.cyc := rfl
@[simp] theorem State.doorbellAnswered_ticks (s : State) (addr status : Nat) (data : List Byte) : (s.doorbellAnswered addr status data).ticks = s.ticks := rfl
@[simp] theorem State.doorbellAnswered_out (s : State) (addr status : Nat) (data : List Byte) : (s.doorbellAnswered addr status data).out = s.out := rfl
@[simp] theorem State.doorbellAnswered_freeCtr (s : State) (addr status : Nat) (data : List Byte) : (s.doorbellAnswered addr status data).freeCtr = s.freeCtr := rfl
@[simp] theorem State.doorbellAnswered_pending (s : State) (addr status : Nat) (data : List Byte) : (s.doorbellAnswered addr status data).pending = s.pending := rfl
@[simp] theorem State.doorbellAnswered_reg (s : State) (addr status : Nat) (data : List Byte) (k0 : Nat) : (s.doorbellAnswered addr status data).reg k0 = s.reg k0 := rfl
@[simp] theorem State.doorbellAnswered_rd (s : State) (addr status : Nat) (data : List Byte) (f0 : Fld) : (s.doorbellAnswered addr status data).rd f0 = s.rd f0 := rfl
@[simp] theorem State.doorbellAnswered_bit (s : State) (addr status : Nat) (data : List Byte) (f0 : Fld) : (s.doorbellAnswered addr status data).bit f0 = s.bit f0 := rfl
@[simp] theorem State.doorbellAnswered_shd (s : State) (addr status : Nat) (data : List Byte) (k0 : Nat) : (s.doorbellAnswered addr status data).shd k0 = s.shd k0 := rfl
@[simp] theorem State.doorbellAnswered_up (s : State) (addr status : Nat) (data : List Byte) (p0 : Part) : (s.doorbellAnswered addr status data).up p0 = s.up p0 := rfl

/-! ### `State.setTlps` -/

@[simp] theorem State.setTlps_regs (s : State) (l : List BarTlp) : (s.setTlps l).regs = s.regs := rfl
@[simp] theorem State.setTlps_flt (s : State) (l : List BarTlp) : (s.setTlps l).flt = s.flt := rfl
@[simp] theorem State.setTlps_boot (s : State) (l : List BarTlp) : (s.setTlps l).boot = s.boot := rfl
@[simp] theorem State.setTlps_commits (s : State) (l : List BarTlp) : (s.setTlps l).commits = s.commits := rfl
@[simp] theorem State.setTlps_vme (s : State) (l : List BarTlp) : (s.setTlps l).vme = s.vme := rfl
@[simp] theorem State.setTlps_vin (s : State) (l : List BarTlp) : (s.setTlps l).vin = s.vin := rfl
@[simp] theorem State.setTlps_drv (s : State) (l : List BarTlp) : (s.setTlps l).drv = s.drv := rfl
@[simp] theorem State.setTlps_ord (s : State) (l : List BarTlp) : (s.setTlps l).ord = s.ord := rfl
@[simp] theorem State.setTlps_fold (s : State) (l : List BarTlp) : (s.setTlps l).fold = s.fold := rfl
@[simp] theorem State.setTlps_net (s : State) (l : List BarTlp) : (s.setTlps l).net = s.net := rfl
@[simp] theorem State.setTlps_cad (s : State) (l : List BarTlp) : (s.setTlps l).cad = s.cad := rfl
@[simp] theorem State.setTlps_stat (s : State) (l : List BarTlp) : (s.setTlps l).stat = s.stat := rfl
@[simp] theorem State.setTlps_twin (s : State) (l : List BarTlp) : (s.setTlps l).twin = s.twin := rfl
@[simp] theorem State.setTlps_port (s : State) (l : List BarTlp) : (s.setTlps l).port = s.port := rfl
@[simp] theorem State.setTlps_ddr (s : State) (l : List BarTlp) : (s.setTlps l).ddr = s.ddr := rfl
@[simp] theorem State.setTlps_host (s : State) (l : List BarTlp) : (s.setTlps l).host = { s.host with tlps := l } := rfl
@[simp] theorem State.setTlps_recd (s : State) (l : List BarTlp) : (s.setTlps l).recd = s.recd := rfl
@[simp] theorem State.setTlps_pwr (s : State) (l : List BarTlp) : (s.setTlps l).pwr = s.pwr := rfl
@[simp] theorem State.setTlps_xbar (s : State) (l : List BarTlp) : (s.setTlps l).xbar = s.xbar := rfl
@[simp] theorem State.setTlps_svc (s : State) (l : List BarTlp) : (s.setTlps l).svc = s.svc := rfl
@[simp] theorem State.setTlps_tap (s : State) (l : List BarTlp) : (s.setTlps l).tap = s.tap := rfl
@[simp] theorem State.setTlps_cyc (s : State) (l : List BarTlp) : (s.setTlps l).cyc = s.cyc := rfl
@[simp] theorem State.setTlps_ticks (s : State) (l : List BarTlp) : (s.setTlps l).ticks = s.ticks := rfl
@[simp] theorem State.setTlps_out (s : State) (l : List BarTlp) : (s.setTlps l).out = s.out := rfl
@[simp] theorem State.setTlps_freeCtr (s : State) (l : List BarTlp) : (s.setTlps l).freeCtr = s.freeCtr := rfl
@[simp] theorem State.setTlps_pending (s : State) (l : List BarTlp) : (s.setTlps l).pending = s.pending := rfl
@[simp] theorem State.setTlps_reg (s : State) (l : List BarTlp) (k0 : Nat) : (s.setTlps l).reg k0 = s.reg k0 := rfl
@[simp] theorem State.setTlps_rd (s : State) (l : List BarTlp) (f0 : Fld) : (s.setTlps l).rd f0 = s.rd f0 := rfl
@[simp] theorem State.setTlps_bit (s : State) (l : List BarTlp) (f0 : Fld) : (s.setTlps l).bit f0 = s.bit f0 := rfl
@[simp] theorem State.setTlps_shd (s : State) (l : List BarTlp) (k0 : Nat) : (s.setTlps l).shd k0 = s.shd k0 := rfl
@[simp] theorem State.setTlps_up (s : State) (l : List BarTlp) (p0 : Part) : (s.setTlps l).up p0 = s.up p0 := rfl

/-! ### `State.setWriter` -/

@[simp] theorem State.setWriter_regs (s : State) (key : Nat) (w : Option RingWrite) : (s.setWriter key w).regs = s.regs := rfl
@[simp] theorem State.setWriter_flt (s : State) (key : Nat) (w : Option RingWrite) : (s.setWriter key w).flt = s.flt := rfl
@[simp] theorem State.setWriter_boot (s : State) (key : Nat) (w : Option RingWrite) : (s.setWriter key w).boot = s.boot := rfl
@[simp] theorem State.setWriter_commits (s : State) (key : Nat) (w : Option RingWrite) : (s.setWriter key w).commits = s.commits := rfl
@[simp] theorem State.setWriter_vme (s : State) (key : Nat) (w : Option RingWrite) : (s.setWriter key w).vme = s.vme := rfl
@[simp] theorem State.setWriter_vin (s : State) (key : Nat) (w : Option RingWrite) : (s.setWriter key w).vin = s.vin := rfl
@[simp] theorem State.setWriter_drv (s : State) (key : Nat) (w : Option RingWrite) : (s.setWriter key w).drv = s.drv := rfl
@[simp] theorem State.setWriter_ord (s : State) (key : Nat) (w : Option RingWrite) : (s.setWriter key w).ord = s.ord := rfl
@[simp] theorem State.setWriter_fold (s : State) (key : Nat) (w : Option RingWrite) : (s.setWriter key w).fold = s.fold := rfl
@[simp] theorem State.setWriter_net (s : State) (key : Nat) (w : Option RingWrite) : (s.setWriter key w).net = s.net := rfl
@[simp] theorem State.setWriter_cad (s : State) (key : Nat) (w : Option RingWrite) : (s.setWriter key w).cad = s.cad := rfl
@[simp] theorem State.setWriter_stat (s : State) (key : Nat) (w : Option RingWrite) : (s.setWriter key w).stat = s.stat := rfl
@[simp] theorem State.setWriter_twin (s : State) (key : Nat) (w : Option RingWrite) : (s.setWriter key w).twin = s.twin := rfl
@[simp] theorem State.setWriter_port (s : State) (key : Nat) (w : Option RingWrite) : (s.setWriter key w).port = s.port := rfl
@[simp] theorem State.setWriter_ddr (s : State) (key : Nat) (w : Option RingWrite) : (s.setWriter key w).ddr = s.ddr := rfl
@[simp] theorem State.setWriter_host (s : State) (key : Nat) (w : Option RingWrite) : (s.setWriter key w).host = { s.host with writers := tput noWriter s.host.writers key w } := rfl
@[simp] theorem State.setWriter_recd (s : State) (key : Nat) (w : Option RingWrite) : (s.setWriter key w).recd = s.recd := rfl
@[simp] theorem State.setWriter_pwr (s : State) (key : Nat) (w : Option RingWrite) : (s.setWriter key w).pwr = s.pwr := rfl
@[simp] theorem State.setWriter_xbar (s : State) (key : Nat) (w : Option RingWrite) : (s.setWriter key w).xbar = s.xbar := rfl
@[simp] theorem State.setWriter_svc (s : State) (key : Nat) (w : Option RingWrite) : (s.setWriter key w).svc = s.svc := rfl
@[simp] theorem State.setWriter_tap (s : State) (key : Nat) (w : Option RingWrite) : (s.setWriter key w).tap = s.tap := rfl
@[simp] theorem State.setWriter_cyc (s : State) (key : Nat) (w : Option RingWrite) : (s.setWriter key w).cyc = s.cyc := rfl
@[simp] theorem State.setWriter_ticks (s : State) (key : Nat) (w : Option RingWrite) : (s.setWriter key w).ticks = s.ticks := rfl
@[simp] theorem State.setWriter_out (s : State) (key : Nat) (w : Option RingWrite) : (s.setWriter key w).out = s.out := rfl
@[simp] theorem State.setWriter_freeCtr (s : State) (key : Nat) (w : Option RingWrite) : (s.setWriter key w).freeCtr = s.freeCtr := rfl
@[simp] theorem State.setWriter_pending (s : State) (key : Nat) (w : Option RingWrite) : (s.setWriter key w).pending = s.pending := rfl
@[simp] theorem State.setWriter_reg (s : State) (key : Nat) (w : Option RingWrite) (k0 : Nat) : (s.setWriter key w).reg k0 = s.reg k0 := rfl
@[simp] theorem State.setWriter_rd (s : State) (key : Nat) (w : Option RingWrite) (f0 : Fld) : (s.setWriter key w).rd f0 = s.rd f0 := rfl
@[simp] theorem State.setWriter_bit (s : State) (key : Nat) (w : Option RingWrite) (f0 : Fld) : (s.setWriter key w).bit f0 = s.bit f0 := rfl
@[simp] theorem State.setWriter_shd (s : State) (key : Nat) (w : Option RingWrite) (k0 : Nat) : (s.setWriter key w).shd k0 = s.shd k0 := rfl
@[simp] theorem State.setWriter_up (s : State) (key : Nat) (w : Option RingWrite) (p0 : Part) : (s.setWriter key w).up p0 = s.up p0 := rfl

/-! ### `State.dropReq` -/

@[simp] theorem State.dropReq_regs (s : State) (r : HostReq) : (s.dropReq r).regs = s.regs := rfl
@[simp] theorem State.dropReq_flt (s : State) (r : HostReq) : (s.dropReq r).flt = s.flt := rfl
@[simp] theorem State.dropReq_boot (s : State) (r : HostReq) : (s.dropReq r).boot = s.boot := rfl
@[simp] theorem State.dropReq_commits (s : State) (r : HostReq) : (s.dropReq r).commits = s.commits := rfl
@[simp] theorem State.dropReq_vme (s : State) (r : HostReq) : (s.dropReq r).vme = s.vme := rfl
@[simp] theorem State.dropReq_vin (s : State) (r : HostReq) : (s.dropReq r).vin = s.vin := rfl
@[simp] theorem State.dropReq_drv (s : State) (r : HostReq) : (s.dropReq r).drv = s.drv := rfl
@[simp] theorem State.dropReq_ord (s : State) (r : HostReq) : (s.dropReq r).ord = s.ord := rfl
@[simp] theorem State.dropReq_fold (s : State) (r : HostReq) : (s.dropReq r).fold = s.fold := rfl
@[simp] theorem State.dropReq_net (s : State) (r : HostReq) : (s.dropReq r).net = s.net := rfl
@[simp] theorem State.dropReq_cad (s : State) (r : HostReq) : (s.dropReq r).cad = s.cad := rfl
@[simp] theorem State.dropReq_stat (s : State) (r : HostReq) : (s.dropReq r).stat = s.stat := rfl
@[simp] theorem State.dropReq_twin (s : State) (r : HostReq) : (s.dropReq r).twin = s.twin := rfl
@[simp] theorem State.dropReq_port (s : State) (r : HostReq) : (s.dropReq r).port = s.port := rfl
@[simp] theorem State.dropReq_ddr (s : State) (r : HostReq) : (s.dropReq r).ddr = s.ddr := rfl
@[simp] theorem State.dropReq_host (s : State) (r : HostReq) : (s.dropReq r).host = { s.host with reqs := s.host.reqs.filter (fun x => x.id != r.id) } := rfl
@[simp] theorem State.dropReq_recd (s : State) (r : HostReq) : (s.dropReq r).recd = s.recd := rfl
@[simp] theorem State.dropReq_pwr (s : State) (r : HostReq) : (s.dropReq r).pwr = s.pwr := rfl
@[simp] theorem State.dropReq_xbar (s : State) (r : HostReq) : (s.dropReq r).xbar = s.xbar := rfl
@[simp] theorem State.dropReq_svc (s : State) (r : HostReq) : (s.dropReq r).svc = s.svc := rfl
@[simp] theorem State.dropReq_tap (s : State) (r : HostReq) : (s.dropReq r).tap = s.tap := rfl
@[simp] theorem State.dropReq_cyc (s : State) (r : HostReq) : (s.dropReq r).cyc = s.cyc := rfl
@[simp] theorem State.dropReq_ticks (s : State) (r : HostReq) : (s.dropReq r).ticks = s.ticks := rfl
@[simp] theorem State.dropReq_out (s : State) (r : HostReq) : (s.dropReq r).out = s.out := rfl
@[simp] theorem State.dropReq_freeCtr (s : State) (r : HostReq) : (s.dropReq r).freeCtr = s.freeCtr := rfl
@[simp] theorem State.dropReq_pending (s : State) (r : HostReq) : (s.dropReq r).pending = s.pending := rfl
@[simp] theorem State.dropReq_reg (s : State) (r : HostReq) (k0 : Nat) : (s.dropReq r).reg k0 = s.reg k0 := rfl
@[simp] theorem State.dropReq_rd (s : State) (r : HostReq) (f0 : Fld) : (s.dropReq r).rd f0 = s.rd f0 := rfl
@[simp] theorem State.dropReq_bit (s : State) (r : HostReq) (f0 : Fld) : (s.dropReq r).bit f0 = s.bit f0 := rfl
@[simp] theorem State.dropReq_shd (s : State) (r : HostReq) (k0 : Nat) : (s.dropReq r).shd k0 = s.shd k0 := rfl
@[simp] theorem State.dropReq_up (s : State) (r : HostReq) (p0 : Part) : (s.dropReq r).up p0 = s.up p0 := rfl

/-! ### `State.setRec` -/

@[simp] theorem State.setRec_regs (s : State) (r : RecUnit) : (s.setRec r).regs = s.regs := rfl
@[simp] theorem State.setRec_flt (s : State) (r : RecUnit) : (s.setRec r).flt = s.flt := rfl
@[simp] theorem State.setRec_boot (s : State) (r : RecUnit) : (s.setRec r).boot = s.boot := rfl
@[simp] theorem State.setRec_commits (s : State) (r : RecUnit) : (s.setRec r).commits = s.commits := rfl
@[simp] theorem State.setRec_vme (s : State) (r : RecUnit) : (s.setRec r).vme = s.vme := rfl
@[simp] theorem State.setRec_vin (s : State) (r : RecUnit) : (s.setRec r).vin = s.vin := rfl
@[simp] theorem State.setRec_drv (s : State) (r : RecUnit) : (s.setRec r).drv = s.drv := rfl
@[simp] theorem State.setRec_ord (s : State) (r : RecUnit) : (s.setRec r).ord = s.ord := rfl
@[simp] theorem State.setRec_fold (s : State) (r : RecUnit) : (s.setRec r).fold = s.fold := rfl
@[simp] theorem State.setRec_net (s : State) (r : RecUnit) : (s.setRec r).net = s.net := rfl
@[simp] theorem State.setRec_cad (s : State) (r : RecUnit) : (s.setRec r).cad = s.cad := rfl
@[simp] theorem State.setRec_stat (s : State) (r : RecUnit) : (s.setRec r).stat = s.stat := rfl
@[simp] theorem State.setRec_twin (s : State) (r : RecUnit) : (s.setRec r).twin = s.twin := rfl
@[simp] theorem State.setRec_port (s : State) (r : RecUnit) : (s.setRec r).port = s.port := rfl
@[simp] theorem State.setRec_ddr (s : State) (r : RecUnit) : (s.setRec r).ddr = s.ddr := rfl
@[simp] theorem State.setRec_host (s : State) (r : RecUnit) : (s.setRec r).host = s.host := rfl
@[simp] theorem State.setRec_recd (s : State) (r : RecUnit) : (s.setRec r).recd = r := rfl
@[simp] theorem State.setRec_pwr (s : State) (r : RecUnit) : (s.setRec r).pwr = s.pwr := rfl
@[simp] theorem State.setRec_xbar (s : State) (r : RecUnit) : (s.setRec r).xbar = s.xbar := rfl
@[simp] theorem State.setRec_svc (s : State) (r : RecUnit) : (s.setRec r).svc = s.svc := rfl
@[simp] theorem State.setRec_tap (s : State) (r : RecUnit) : (s.setRec r).tap = s.tap := rfl
@[simp] theorem State.setRec_cyc (s : State) (r : RecUnit) : (s.setRec r).cyc = s.cyc := rfl
@[simp] theorem State.setRec_ticks (s : State) (r : RecUnit) : (s.setRec r).ticks = s.ticks := rfl
@[simp] theorem State.setRec_out (s : State) (r : RecUnit) : (s.setRec r).out = s.out := rfl
@[simp] theorem State.setRec_freeCtr (s : State) (r : RecUnit) : (s.setRec r).freeCtr = s.freeCtr := rfl
@[simp] theorem State.setRec_pending (s : State) (r : RecUnit) : (s.setRec r).pending = s.pending := rfl
@[simp] theorem State.setRec_reg (s : State) (r : RecUnit) (k0 : Nat) : (s.setRec r).reg k0 = s.reg k0 := rfl
@[simp] theorem State.setRec_rd (s : State) (r : RecUnit) (f0 : Fld) : (s.setRec r).rd f0 = s.rd f0 := rfl
@[simp] theorem State.setRec_bit (s : State) (r : RecUnit) (f0 : Fld) : (s.setRec r).bit f0 = s.bit f0 := rfl
@[simp] theorem State.setRec_shd (s : State) (r : RecUnit) (k0 : Nat) : (s.setRec r).shd k0 = s.shd k0 := rfl
@[simp] theorem State.setRec_up (s : State) (r : RecUnit) (p0 : Part) : (s.setRec r).up p0 = s.up p0 := rfl

/-! ### `State.setRingOpen` -/

@[simp] theorem State.setRingOpen_regs (s : State) (r : Nat) (l : List (Nat × Bool)) : (s.setRingOpen r l).regs = s.regs := rfl
@[simp] theorem State.setRingOpen_flt (s : State) (r : Nat) (l : List (Nat × Bool)) : (s.setRingOpen r l).flt = s.flt := rfl
@[simp] theorem State.setRingOpen_boot (s : State) (r : Nat) (l : List (Nat × Bool)) : (s.setRingOpen r l).boot = s.boot := rfl
@[simp] theorem State.setRingOpen_commits (s : State) (r : Nat) (l : List (Nat × Bool)) : (s.setRingOpen r l).commits = s.commits := rfl
@[simp] theorem State.setRingOpen_vme (s : State) (r : Nat) (l : List (Nat × Bool)) : (s.setRingOpen r l).vme = s.vme := rfl
@[simp] theorem State.setRingOpen_vin (s : State) (r : Nat) (l : List (Nat × Bool)) : (s.setRingOpen r l).vin = s.vin := rfl
@[simp] theorem State.setRingOpen_drv (s : State) (r : Nat) (l : List (Nat × Bool)) : (s.setRingOpen r l).drv = { s.drv with ringOpen := tput noOpen s.drv.ringOpen r l } := rfl
@[simp] theorem State.setRingOpen_ord (s : State) (r : Nat) (l : List (Nat × Bool)) : (s.setRingOpen r l).ord = s.ord := rfl
@[simp] theorem State.setRingOpen_fold (s : State) (r : Nat) (l : List (Nat × Bool)) : (s.setRingOpen r l).fold = s.fold := rfl
@[simp] theorem State.setRingOpen_net (s : State) (r : Nat) (l : List (Nat × Bool)) : (s.setRingOpen r l).net = s.net := rfl
@[simp] theorem State.setRingOpen_cad (s : State) (r : Nat) (l : List (Nat × Bool)) : (s.setRingOpen r l).cad = s.cad := rfl
@[simp] theorem State.setRingOpen_stat (s : State) (r : Nat) (l : List (Nat × Bool)) : (s.setRingOpen r l).stat = s.stat := rfl
@[simp] theorem State.setRingOpen_twin (s : State) (r : Nat) (l : List (Nat × Bool)) : (s.setRingOpen r l).twin = s.twin := rfl
@[simp] theorem State.setRingOpen_port (s : State) (r : Nat) (l : List (Nat × Bool)) : (s.setRingOpen r l).port = s.port := rfl
@[simp] theorem State.setRingOpen_ddr (s : State) (r : Nat) (l : List (Nat × Bool)) : (s.setRingOpen r l).ddr = s.ddr := rfl
@[simp] theorem State.setRingOpen_host (s : State) (r : Nat) (l : List (Nat × Bool)) : (s.setRingOpen r l).host = s.host := rfl
@[simp] theorem State.setRingOpen_recd (s : State) (r : Nat) (l : List (Nat × Bool)) : (s.setRingOpen r l).recd = s.recd := rfl
@[simp] theorem State.setRingOpen_pwr (s : State) (r : Nat) (l : List (Nat × Bool)) : (s.setRingOpen r l).pwr = s.pwr := rfl
@[simp] theorem State.setRingOpen_xbar (s : State) (r : Nat) (l : List (Nat × Bool)) : (s.setRingOpen r l).xbar = s.xbar := rfl
@[simp] theorem State.setRingOpen_svc (s : State) (r : Nat) (l : List (Nat × Bool)) : (s.setRingOpen r l).svc = s.svc := rfl
@[simp] theorem State.setRingOpen_tap (s : State) (r : Nat) (l : List (Nat × Bool)) : (s.setRingOpen r l).tap = s.tap := rfl
@[simp] theorem State.setRingOpen_cyc (s : State) (r : Nat) (l : List (Nat × Bool)) : (s.setRingOpen r l).cyc = s.cyc := rfl
@[simp] theorem State.setRingOpen_ticks (s : State) (r : Nat) (l : List (Nat × Bool)) : (s.setRingOpen r l).ticks = s.ticks := rfl
@[simp] theorem State.setRingOpen_out (s : State) (r : Nat) (l : List (Nat × Bool)) : (s.setRingOpen r l).out = s.out := rfl
@[simp] theorem State.setRingOpen_freeCtr (s : State) (r : Nat) (l : List (Nat × Bool)) : (s.setRingOpen r l).freeCtr = s.freeCtr := rfl
@[simp] theorem State.setRingOpen_pending (s : State) (r : Nat) (l : List (Nat × Bool)) : (s.setRingOpen r l).pending = s.pending := rfl
@[simp] theorem State.setRingOpen_reg (s : State) (r : Nat) (l : List (Nat × Bool)) (k0 : Nat) : (s.setRingOpen r l).reg k0 = s.reg k0 := rfl
@[simp] theorem State.setRingOpen_rd (s : State) (r : Nat) (l : List (Nat × Bool)) (f0 : Fld) : (s.setRingOpen r l).rd f0 = s.rd f0 := rfl
@[simp] theorem State.setRingOpen_bit (s : State) (r : Nat) (l : List (Nat × Bool)) (f0 : Fld) : (s.setRingOpen r l).bit f0 = s.bit f0 := rfl
@[simp] theorem State.setRingOpen_shd (s : State) (r : Nat) (l : List (Nat × Bool)) (k0 : Nat) : (s.setRingOpen r l).shd k0 = s.shd k0 := rfl
@[simp] theorem State.setRingOpen_up (s : State) (r : Nat) (l : List (Nat × Bool)) (p0 : Part) : (s.setRingOpen r l).up p0 = s.up p0 := rfl

/-! ### `State.setEntry` -/

@[simp] theorem State.setEntry_regs (s : State) (e : Nat) (x : Option ActEntry) : (s.setEntry e x).regs = s.regs := rfl
@[simp] theorem State.setEntry_flt (s : State) (e : Nat) (x : Option ActEntry) : (s.setEntry e x).flt = { s.flt with active := tput noEntry s.flt.active e x } := rfl
@[simp] theorem State.setEntry_boot (s : State) (e : Nat) (x : Option ActEntry) : (s.setEntry e x).boot = s.boot := rfl
@[simp] theorem State.setEntry_commits (s : State) (e : Nat) (x : Option ActEntry) : (s.setEntry e x).commits = s.commits := rfl
@[simp] theorem State.setEntry_vme (s : State) (e : Nat) (x : Option ActEntry) : (s.setEntry e x).vme = s.vme := rfl
@[simp] theorem State.setEntry_vin (s : State) (e : Nat) (x : Option ActEntry) : (s.setEntry e x).vin = s.vin := rfl
@[simp] theorem State.setEntry_drv (s : State) (e : Nat) (x : Option ActEntry) : (s.setEntry e x).drv = s.drv := rfl
@[simp] theorem State.setEntry_ord (s : State) (e : Nat) (x : Option ActEntry) : (s.setEntry e x).ord = s.ord := rfl
@[simp] theorem State.setEntry_fold (s : State) (e : Nat) (x : Option ActEntry) : (s.setEntry e x).fold = s.fold := rfl
@[simp] theorem State.setEntry_net (s : State) (e : Nat) (x : Option ActEntry) : (s.setEntry e x).net = s.net := rfl
@[simp] theorem State.setEntry_cad (s : State) (e : Nat) (x : Option ActEntry) : (s.setEntry e x).cad = s.cad := rfl
@[simp] theorem State.setEntry_stat (s : State) (e : Nat) (x : Option ActEntry) : (s.setEntry e x).stat = s.stat := rfl
@[simp] theorem State.setEntry_twin (s : State) (e : Nat) (x : Option ActEntry) : (s.setEntry e x).twin = s.twin := rfl
@[simp] theorem State.setEntry_port (s : State) (e : Nat) (x : Option ActEntry) : (s.setEntry e x).port = s.port := rfl
@[simp] theorem State.setEntry_ddr (s : State) (e : Nat) (x : Option ActEntry) : (s.setEntry e x).ddr = s.ddr := rfl
@[simp] theorem State.setEntry_host (s : State) (e : Nat) (x : Option ActEntry) : (s.setEntry e x).host = s.host := rfl
@[simp] theorem State.setEntry_recd (s : State) (e : Nat) (x : Option ActEntry) : (s.setEntry e x).recd = s.recd := rfl
@[simp] theorem State.setEntry_pwr (s : State) (e : Nat) (x : Option ActEntry) : (s.setEntry e x).pwr = s.pwr := rfl
@[simp] theorem State.setEntry_xbar (s : State) (e : Nat) (x : Option ActEntry) : (s.setEntry e x).xbar = s.xbar := rfl
@[simp] theorem State.setEntry_svc (s : State) (e : Nat) (x : Option ActEntry) : (s.setEntry e x).svc = s.svc := rfl
@[simp] theorem State.setEntry_tap (s : State) (e : Nat) (x : Option ActEntry) : (s.setEntry e x).tap = s.tap := rfl
@[simp] theorem State.setEntry_cyc (s : State) (e : Nat) (x : Option ActEntry) : (s.setEntry e x).cyc = s.cyc := rfl
@[simp] theorem State.setEntry_ticks (s : State) (e : Nat) (x : Option ActEntry) : (s.setEntry e x).ticks = s.ticks := rfl
@[simp] theorem State.setEntry_out (s : State) (e : Nat) (x : Option ActEntry) : (s.setEntry e x).out = s.out := rfl
@[simp] theorem State.setEntry_freeCtr (s : State) (e : Nat) (x : Option ActEntry) : (s.setEntry e x).freeCtr = s.freeCtr := rfl
@[simp] theorem State.setEntry_pending (s : State) (e : Nat) (x : Option ActEntry) : (s.setEntry e x).pending = s.pending := rfl
@[simp] theorem State.setEntry_reg (s : State) (e : Nat) (x : Option ActEntry) (k0 : Nat) : (s.setEntry e x).reg k0 = s.reg k0 := rfl
@[simp] theorem State.setEntry_rd (s : State) (e : Nat) (x : Option ActEntry) (f0 : Fld) : (s.setEntry e x).rd f0 = s.rd f0 := rfl
@[simp] theorem State.setEntry_bit (s : State) (e : Nat) (x : Option ActEntry) (f0 : Fld) : (s.setEntry e x).bit f0 = s.bit f0 := rfl
@[simp] theorem State.setEntry_shd (s : State) (e : Nat) (x : Option ActEntry) (k0 : Nat) : (s.setEntry e x).shd k0 = s.shd k0 := rfl
@[simp] theorem State.setEntry_up (s : State) (e : Nat) (x : Option ActEntry) (p0 : Part) : (s.setEntry e x).up p0 = s.up p0 := rfl

/-! ### `State.keepRefused` -/

@[simp] theorem State.keepRefused_regs (s : State) (l : List (Nat × Word)) : (s.keepRefused l).regs = { s.regs with refused := l } := rfl
@[simp] theorem State.keepRefused_flt (s : State) (l : List (Nat × Word)) : (s.keepRefused l).flt = s.flt := id rfl
@[simp] theorem State.keepRefused_boot (s : State) (l : List (Nat × Word)) : (s.keepRefused l).boot = s.boot := id rfl
@[simp] theorem State.keepRefused_commits (s : State) (l : List (Nat × Word)) : (s.keepRefused l).commits = s.commits := id rfl
@[simp] theorem State.keepRefused_vme (s : State) (l : List (Nat × Word)) : (s.keepRefused l).vme = s.vme := id rfl
@[simp] theorem State.keepRefused_vin (s : State) (l : List (Nat × Word)) : (s.keepRefused l).vin = s.vin := id rfl
@[simp] theorem State.keepRefused_drv (s : State) (l : List (Nat × Word)) : (s.keepRefused l).drv = s.drv := id rfl
@[simp] theorem State.keepRefused_ord (s : State) (l : List (Nat × Word)) : (s.keepRefused l).ord = s.ord := id rfl
@[simp] theorem State.keepRefused_fold (s : State) (l : List (Nat × Word)) : (s.keepRefused l).fold = s.fold := id rfl
@[simp] theorem State.keepRefused_net (s : State) (l : List (Nat × Word)) : (s.keepRefused l).net = s.net := id rfl
@[simp] theorem State.keepRefused_cad (s : State) (l : List (Nat × Word)) : (s.keepRefused l).cad = s.cad := id rfl
@[simp] theorem State.keepRefused_stat (s : State) (l : List (Nat × Word)) : (s.keepRefused l).stat = s.stat := id rfl
@[simp] theorem State.keepRefused_twin (s : State) (l : List (Nat × Word)) : (s.keepRefused l).twin = s.twin := id rfl
@[simp] theorem State.keepRefused_port (s : State) (l : List (Nat × Word)) : (s.keepRefused l).port = s.port := id rfl
@[simp] theorem State.keepRefused_ddr (s : State) (l : List (Nat × Word)) : (s.keepRefused l).ddr = s.ddr := id rfl
@[simp] theorem State.keepRefused_host (s : State) (l : List (Nat × Word)) : (s.keepRefused l).host = s.host := id rfl
@[simp] theorem State.keepRefused_recd (s : State) (l : List (Nat × Word)) : (s.keepRefused l).recd = s.recd := id rfl
@[simp] theorem State.keepRefused_pwr (s : State) (l : List (Nat × Word)) : (s.keepRefused l).pwr = s.pwr := id rfl
@[simp] theorem State.keepRefused_xbar (s : State) (l : List (Nat × Word)) : (s.keepRefused l).xbar = s.xbar := id rfl
@[simp] theorem State.keepRefused_svc (s : State) (l : List (Nat × Word)) : (s.keepRefused l).svc = s.svc := id rfl
@[simp] theorem State.keepRefused_tap (s : State) (l : List (Nat × Word)) : (s.keepRefused l).tap = s.tap := id rfl
@[simp] theorem State.keepRefused_cyc (s : State) (l : List (Nat × Word)) : (s.keepRefused l).cyc = s.cyc := id rfl
@[simp] theorem State.keepRefused_ticks (s : State) (l : List (Nat × Word)) : (s.keepRefused l).ticks = s.ticks := id rfl
@[simp] theorem State.keepRefused_out (s : State) (l : List (Nat × Word)) : (s.keepRefused l).out = s.out := id rfl
@[simp] theorem State.keepRefused_freeCtr (s : State) (l : List (Nat × Word)) : (s.keepRefused l).freeCtr = s.freeCtr := id rfl
@[simp] theorem State.keepRefused_pending (s : State) (l : List (Nat × Word)) : (s.keepRefused l).pending = s.pending := id rfl

/-! ### `State.electionOver` -/

@[simp] theorem State.electionOver_regs (s : State) : (s.electionOver).regs = s.regs := rfl
@[simp] theorem State.electionOver_flt (s : State) : (s.electionOver).flt = s.flt := rfl
@[simp] theorem State.electionOver_boot (s : State) : (s.electionOver).boot = s.boot := rfl
@[simp] theorem State.electionOver_commits (s : State) : (s.electionOver).commits = s.commits := rfl
@[simp] theorem State.electionOver_vme (s : State) : (s.electionOver).vme = s.vme := rfl
@[simp] theorem State.electionOver_vin (s : State) : (s.electionOver).vin = s.vin := rfl
@[simp] theorem State.electionOver_drv (s : State) : (s.electionOver).drv = s.drv := rfl
@[simp] theorem State.electionOver_ord (s : State) : (s.electionOver).ord = s.ord := rfl
@[simp] theorem State.electionOver_fold (s : State) : (s.electionOver).fold = s.fold := rfl
@[simp] theorem State.electionOver_net (s : State) : (s.electionOver).net = { s.net with electOut := false, electWait := false, noBwRaised := false } := rfl
@[simp] theorem State.electionOver_cad (s : State) : (s.electionOver).cad = s.cad := rfl
@[simp] theorem State.electionOver_stat (s : State) : (s.electionOver).stat = s.stat := rfl
@[simp] theorem State.electionOver_twin (s : State) : (s.electionOver).twin = s.twin := rfl
@[simp] theorem State.electionOver_port (s : State) : (s.electionOver).port = s.port := rfl
@[simp] theorem State.electionOver_ddr (s : State) : (s.electionOver).ddr = s.ddr := rfl
@[simp] theorem State.electionOver_host (s : State) : (s.electionOver).host = s.host := rfl
@[simp] theorem State.electionOver_recd (s : State) : (s.electionOver).recd = s.recd := rfl
@[simp] theorem State.electionOver_pwr (s : State) : (s.electionOver).pwr = s.pwr := rfl
@[simp] theorem State.electionOver_xbar (s : State) : (s.electionOver).xbar = s.xbar := rfl
@[simp] theorem State.electionOver_svc (s : State) : (s.electionOver).svc = s.svc := rfl
@[simp] theorem State.electionOver_tap (s : State) : (s.electionOver).tap = s.tap := rfl
@[simp] theorem State.electionOver_cyc (s : State) : (s.electionOver).cyc = s.cyc := rfl
@[simp] theorem State.electionOver_ticks (s : State) : (s.electionOver).ticks = s.ticks := rfl
@[simp] theorem State.electionOver_out (s : State) : (s.electionOver).out = s.out := rfl
@[simp] theorem State.electionOver_freeCtr (s : State) : (s.electionOver).freeCtr = s.freeCtr := rfl
@[simp] theorem State.electionOver_pending (s : State) : (s.electionOver).pending = s.pending := rfl
@[simp] theorem State.electionOver_reg (s : State) (k0 : Nat) : (s.electionOver).reg k0 = s.reg k0 := rfl
@[simp] theorem State.electionOver_rd (s : State) (f0 : Fld) : (s.electionOver).rd f0 = s.rd f0 := rfl
@[simp] theorem State.electionOver_bit (s : State) (f0 : Fld) : (s.electionOver).bit f0 = s.bit f0 := rfl
@[simp] theorem State.electionOver_shd (s : State) (k0 : Nat) : (s.electionOver).shd k0 = s.shd k0 := rfl
@[simp] theorem State.electionOver_up (s : State) (p0 : Part) : (s.electionOver).up p0 = s.up p0 := rfl

/-! ### `State.setDelay` -/

@[simp] theorem State.setDelay_regs (s : State) (side : Nat) (d : DelayRec) : (s.setDelay side d).regs = s.regs := rfl
@[simp] theorem State.setDelay_flt (s : State) (side : Nat) (d : DelayRec) : (s.setDelay side d).flt = s.flt := rfl
@[simp] theorem State.setDelay_boot (s : State) (side : Nat) (d : DelayRec) : (s.setDelay side d).boot = s.boot := rfl
@[simp] theorem State.setDelay_commits (s : State) (side : Nat) (d : DelayRec) : (s.setDelay side d).commits = s.commits := rfl
@[simp] theorem State.setDelay_vme (s : State) (side : Nat) (d : DelayRec) : (s.setDelay side d).vme = s.vme := rfl
@[simp] theorem State.setDelay_vin (s : State) (side : Nat) (d : DelayRec) : (s.setDelay side d).vin = s.vin := rfl
@[simp] theorem State.setDelay_drv (s : State) (side : Nat) (d : DelayRec) : (s.setDelay side d).drv = s.drv := rfl
@[simp] theorem State.setDelay_ord (s : State) (side : Nat) (d : DelayRec) : (s.setDelay side d).ord = s.ord := rfl
@[simp] theorem State.setDelay_fold (s : State) (side : Nat) (d : DelayRec) : (s.setDelay side d).fold = s.fold := rfl
@[simp] theorem State.setDelay_net (s : State) (side : Nat) (d : DelayRec) : (s.setDelay side d).net = { s.net with delays := setAt s.net.delays side d } := rfl
@[simp] theorem State.setDelay_cad (s : State) (side : Nat) (d : DelayRec) : (s.setDelay side d).cad = s.cad := rfl
@[simp] theorem State.setDelay_stat (s : State) (side : Nat) (d : DelayRec) : (s.setDelay side d).stat = s.stat := rfl
@[simp] theorem State.setDelay_twin (s : State) (side : Nat) (d : DelayRec) : (s.setDelay side d).twin = s.twin := rfl
@[simp] theorem State.setDelay_port (s : State) (side : Nat) (d : DelayRec) : (s.setDelay side d).port = s.port := rfl
@[simp] theorem State.setDelay_ddr (s : State) (side : Nat) (d : DelayRec) : (s.setDelay side d).ddr = s.ddr := rfl
@[simp] theorem State.setDelay_host (s : State) (side : Nat) (d : DelayRec) : (s.setDelay side d).host = s.host := rfl
@[simp] theorem State.setDelay_recd (s : State) (side : Nat) (d : DelayRec) : (s.setDelay side d).recd = s.recd := rfl
@[simp] theorem State.setDelay_pwr (s : State) (side : Nat) (d : DelayRec) : (s.setDelay side d).pwr = s.pwr := rfl
@[simp] theorem State.setDelay_xbar (s : State) (side : Nat) (d : DelayRec) : (s.setDelay side d).xbar = s.xbar := rfl
@[simp] theorem State.setDelay_svc (s : State) (side : Nat) (d : DelayRec) : (s.setDelay side d).svc = s.svc := rfl
@[simp] theorem State.setDelay_tap (s : State) (side : Nat) (d : DelayRec) : (s.setDelay side d).tap = s.tap := rfl
@[simp] theorem State.setDelay_cyc (s : State) (side : Nat) (d : DelayRec) : (s.setDelay side d).cyc = s.cyc := rfl
@[simp] theorem State.setDelay_ticks (s : State) (side : Nat) (d : DelayRec) : (s.setDelay side d).ticks = s.ticks := rfl
@[simp] theorem State.setDelay_out (s : State) (side : Nat) (d : DelayRec) : (s.setDelay side d).out = s.out := rfl
@[simp] theorem State.setDelay_freeCtr (s : State) (side : Nat) (d : DelayRec) : (s.setDelay side d).freeCtr = s.freeCtr := rfl
@[simp] theorem State.setDelay_pending (s : State) (side : Nat) (d : DelayRec) : (s.setDelay side d).pending = s.pending := rfl
@[simp] theorem State.setDelay_reg (s : State) (side : Nat) (d : DelayRec) (k0 : Nat) : (s.setDelay side d).reg k0 = s.reg k0 := rfl
@[simp] theorem State.setDelay_rd (s : State) (side : Nat) (d : DelayRec) (f0 : Fld) : (s.setDelay side d).rd f0 = s.rd f0 := rfl
@[simp] theorem State.setDelay_bit (s : State) (side : Nat) (d : DelayRec) (f0 : Fld) : (s.setDelay side d).bit f0 = s.bit f0 := rfl
@[simp] theorem State.setDelay_shd (s : State) (side : Nat) (d : DelayRec) (k0 : Nat) : (s.setDelay side d).shd k0 = s.shd k0 := rfl
@[simp] theorem State.setDelay_up (s : State) (side : Nat) (d : DelayRec) (p0 : Part) : (s.setDelay side d).up p0 = s.up p0 := rfl

/-! ### `State.copyRec` -/

@[simp] theorem State.copyRec_regs (s : State) (rtype : Nat) (payload : List Byte) : (s.copyRec rtype payload).regs = s.regs := rfl
@[simp] theorem State.copyRec_flt (s : State) (rtype : Nat) (payload : List Byte) : (s.copyRec rtype payload).flt = s.flt := rfl
@[simp] theorem State.copyRec_boot (s : State) (rtype : Nat) (payload : List Byte) : (s.copyRec rtype payload).boot = s.boot := rfl
@[simp] theorem State.copyRec_commits (s : State) (rtype : Nat) (payload : List Byte) : (s.copyRec rtype payload).commits = s.commits := rfl
@[simp] theorem State.copyRec_vme (s : State) (rtype : Nat) (payload : List Byte) : (s.copyRec rtype payload).vme = s.vme := rfl
@[simp] theorem State.copyRec_vin (s : State) (rtype : Nat) (payload : List Byte) : (s.copyRec rtype payload).vin = s.vin := rfl
@[simp] theorem State.copyRec_drv (s : State) (rtype : Nat) (payload : List Byte) : (s.copyRec rtype payload).drv = s.drv := rfl
@[simp] theorem State.copyRec_ord (s : State) (rtype : Nat) (payload : List Byte) : (s.copyRec rtype payload).ord = s.ord := rfl
@[simp] theorem State.copyRec_fold (s : State) (rtype : Nat) (payload : List Byte) : (s.copyRec rtype payload).fold = s.fold := rfl
@[simp] theorem State.copyRec_net (s : State) (rtype : Nat) (payload : List Byte) : (s.copyRec rtype payload).net = s.net := rfl
@[simp] theorem State.copyRec_cad (s : State) (rtype : Nat) (payload : List Byte) : (s.copyRec rtype payload).cad = s.cad := rfl
@[simp] theorem State.copyRec_stat (s : State) (rtype : Nat) (payload : List Byte) : (s.copyRec rtype payload).stat = s.stat := rfl
@[simp] theorem State.copyRec_twin (s : State) (rtype : Nat) (payload : List Byte) : (s.copyRec rtype payload).twin = { s.twin with mwait := s.twin.mwait ++ [⟨rtype, payload⟩] } := rfl
@[simp] theorem State.copyRec_port (s : State) (rtype : Nat) (payload : List Byte) : (s.copyRec rtype payload).port = s.port := rfl
@[simp] theorem State.copyRec_ddr (s : State) (rtype : Nat) (payload : List Byte) : (s.copyRec rtype payload).ddr = s.ddr := rfl
@[simp] theorem State.copyRec_host (s : State) (rtype : Nat) (payload : List Byte) : (s.copyRec rtype payload).host = s.host := rfl
@[simp] theorem State.copyRec_recd (s : State) (rtype : Nat) (payload : List Byte) : (s.copyRec rtype payload).recd = s.recd := rfl
@[simp] theorem State.copyRec_pwr (s : State) (rtype : Nat) (payload : List Byte) : (s.copyRec rtype payload).pwr = s.pwr := rfl
@[simp] theorem State.copyRec_xbar (s : State) (rtype : Nat) (payload : List Byte) : (s.copyRec rtype payload).xbar = s.xbar := rfl
@[simp] theorem State.copyRec_svc (s : State) (rtype : Nat) (payload : List Byte) : (s.copyRec rtype payload).svc = s.svc := rfl
@[simp] theorem State.copyRec_tap (s : State) (rtype : Nat) (payload : List Byte) : (s.copyRec rtype payload).tap = s.tap := rfl
@[simp] theorem State.copyRec_cyc (s : State) (rtype : Nat) (payload : List Byte) : (s.copyRec rtype payload).cyc = s.cyc := rfl
@[simp] theorem State.copyRec_ticks (s : State) (rtype : Nat) (payload : List Byte) : (s.copyRec rtype payload).ticks = s.ticks := rfl
@[simp] theorem State.copyRec_out (s : State) (rtype : Nat) (payload : List Byte) : (s.copyRec rtype payload).out = s.out := rfl
@[simp] theorem State.copyRec_freeCtr (s : State) (rtype : Nat) (payload : List Byte) : (s.copyRec rtype payload).freeCtr = s.freeCtr := rfl
@[simp] theorem State.copyRec_pending (s : State) (rtype : Nat) (payload : List Byte) : (s.copyRec rtype payload).pending = s.pending := rfl
@[simp] theorem State.copyRec_reg (s : State) (rtype : Nat) (payload : List Byte) (k0 : Nat) : (s.copyRec rtype payload).reg k0 = s.reg k0 := rfl
@[simp] theorem State.copyRec_rd (s : State) (rtype : Nat) (payload : List Byte) (f0 : Fld) : (s.copyRec rtype payload).rd f0 = s.rd f0 := rfl
@[simp] theorem State.copyRec_bit (s : State) (rtype : Nat) (payload : List Byte) (f0 : Fld) : (s.copyRec rtype payload).bit f0 = s.bit f0 := rfl
@[simp] theorem State.copyRec_shd (s : State) (rtype : Nat) (payload : List Byte) (k0 : Nat) : (s.copyRec rtype payload).shd k0 = s.shd k0 := rfl
@[simp] theorem State.copyRec_up (s : State) (rtype : Nat) (payload : List Byte) (p0 : Part) : (s.copyRec rtype payload).up p0 = s.up p0 := rfl

/-! ### `State.modBank` -/

@[simp] theorem State.modBank_regs (s : State) (epoch : Nat) (f : StageBank → StageBank) : (s.modBank epoch f).regs = s.regs := rfl
@[simp] theorem State.modBank_flt (s : State) (epoch : Nat) (f : StageBank → StageBank) : (s.modBank epoch f).flt = s.flt := rfl
@[simp] theorem State.modBank_boot (s : State) (epoch : Nat) (f : StageBank → StageBank) : (s.modBank epoch f).boot = s.boot := rfl
@[simp] theorem State.modBank_commits (s : State) (epoch : Nat) (f : StageBank → StageBank) : (s.modBank epoch f).commits = s.commits := rfl
@[simp] theorem State.modBank_vme (s : State) (epoch : Nat) (f : StageBank → StageBank) : (s.modBank epoch f).vme = s.vme := rfl
@[simp] theorem State.modBank_vin (s : State) (epoch : Nat) (f : StageBank → StageBank) : (s.modBank epoch f).vin = s.vin := rfl
@[simp] theorem State.modBank_drv (s : State) (epoch : Nat) (f : StageBank → StageBank) : (s.modBank epoch f).drv = s.drv := rfl
@[simp] theorem State.modBank_ord (s : State) (epoch : Nat) (f : StageBank → StageBank) : (s.modBank epoch f).ord = s.ord := rfl
@[simp] theorem State.modBank_fold (s : State) (epoch : Nat) (f : StageBank → StageBank) : (s.modBank epoch f).fold = s.fold := rfl
@[simp] theorem State.modBank_net (s : State) (epoch : Nat) (f : StageBank → StageBank) : (s.modBank epoch f).net = s.net := rfl
@[simp] theorem State.modBank_cad (s : State) (epoch : Nat) (f : StageBank → StageBank) : (s.modBank epoch f).cad = s.cad := rfl
@[simp] theorem State.modBank_stat (s : State) (epoch : Nat) (f : StageBank → StageBank) : (s.modBank epoch f).stat = s.stat := rfl
@[simp] theorem State.modBank_twin (s : State) (epoch : Nat) (f : StageBank → StageBank) : (s.modBank epoch f).twin = { s.twin with banks := s.twin.banks.map (fun (b : StageBank) => if b.epoch == epoch then f b else b) } := rfl
@[simp] theorem State.modBank_port (s : State) (epoch : Nat) (f : StageBank → StageBank) : (s.modBank epoch f).port = s.port := rfl
@[simp] theorem State.modBank_ddr (s : State) (epoch : Nat) (f : StageBank → StageBank) : (s.modBank epoch f).ddr = s.ddr := rfl
@[simp] theorem State.modBank_host (s : State) (epoch : Nat) (f : StageBank → StageBank) : (s.modBank epoch f).host = s.host := rfl
@[simp] theorem State.modBank_recd (s : State) (epoch : Nat) (f : StageBank → StageBank) : (s.modBank epoch f).recd = s.recd := rfl
@[simp] theorem State.modBank_pwr (s : State) (epoch : Nat) (f : StageBank → StageBank) : (s.modBank epoch f).pwr = s.pwr := rfl
@[simp] theorem State.modBank_xbar (s : State) (epoch : Nat) (f : StageBank → StageBank) : (s.modBank epoch f).xbar = s.xbar := rfl
@[simp] theorem State.modBank_svc (s : State) (epoch : Nat) (f : StageBank → StageBank) : (s.modBank epoch f).svc = s.svc := rfl
@[simp] theorem State.modBank_tap (s : State) (epoch : Nat) (f : StageBank → StageBank) : (s.modBank epoch f).tap = s.tap := rfl
@[simp] theorem State.modBank_cyc (s : State) (epoch : Nat) (f : StageBank → StageBank) : (s.modBank epoch f).cyc = s.cyc := rfl
@[simp] theorem State.modBank_ticks (s : State) (epoch : Nat) (f : StageBank → StageBank) : (s.modBank epoch f).ticks = s.ticks := rfl
@[simp] theorem State.modBank_out (s : State) (epoch : Nat) (f : StageBank → StageBank) : (s.modBank epoch f).out = s.out := rfl
@[simp] theorem State.modBank_freeCtr (s : State) (epoch : Nat) (f : StageBank → StageBank) : (s.modBank epoch f).freeCtr = s.freeCtr := rfl
@[simp] theorem State.modBank_pending (s : State) (epoch : Nat) (f : StageBank → StageBank) : (s.modBank epoch f).pending = s.pending := rfl
@[simp] theorem State.modBank_reg (s : State) (epoch : Nat) (f : StageBank → StageBank) (k0 : Nat) : (s.modBank epoch f).reg k0 = s.reg k0 := rfl
@[simp] theorem State.modBank_rd (s : State) (epoch : Nat) (f : StageBank → StageBank) (f0 : Fld) : (s.modBank epoch f).rd f0 = s.rd f0 := rfl
@[simp] theorem State.modBank_bit (s : State) (epoch : Nat) (f : StageBank → StageBank) (f0 : Fld) : (s.modBank epoch f).bit f0 = s.bit f0 := rfl
@[simp] theorem State.modBank_shd (s : State) (epoch : Nat) (f : StageBank → StageBank) (k0 : Nat) : (s.modBank epoch f).shd k0 = s.shd k0 := rfl
@[simp] theorem State.modBank_up (s : State) (epoch : Nat) (f : StageBank → StageBank) (p0 : Part) : (s.modBank epoch f).up p0 = s.up p0 := rfl

/-! ### `State.holderHeard` -/

@[simp] theorem State.holderHeard_regs (s : State) (src : Nat) : (s.holderHeard src).regs = s.regs := rfl
@[simp] theorem State.holderHeard_flt (s : State) (src : Nat) : (s.holderHeard src).flt = s.flt := rfl
@[simp] theorem State.holderHeard_boot (s : State) (src : Nat) : (s.holderHeard src).boot = s.boot := rfl
@[simp] theorem State.holderHeard_commits (s : State) (src : Nat) : (s.holderHeard src).commits = s.commits := rfl
@[simp] theorem State.holderHeard_vme (s : State) (src : Nat) : (s.holderHeard src).vme = s.vme := rfl
@[simp] theorem State.holderHeard_vin (s : State) (src : Nat) : (s.holderHeard src).vin = s.vin := rfl
@[simp] theorem State.holderHeard_drv (s : State) (src : Nat) : (s.holderHeard src).drv = s.drv := rfl
@[simp] theorem State.holderHeard_ord (s : State) (src : Nat) : (s.holderHeard src).ord = s.ord := rfl
@[simp] theorem State.holderHeard_fold (s : State) (src : Nat) : (s.holderHeard src).fold = s.fold := rfl
@[simp] theorem State.holderHeard_net (s : State) (src : Nat) : (s.holderHeard src).net = s.net := rfl
@[simp] theorem State.holderHeard_cad (s : State) (src : Nat) : (s.holderHeard src).cad = s.cad := rfl
@[simp] theorem State.holderHeard_stat (s : State) (src : Nat) : (s.holderHeard src).stat = s.stat := rfl
@[simp] theorem State.holderHeard_twin (s : State) (src : Nat) : (s.holderHeard src).twin = { s.twin with heardActive := some src } := rfl
@[simp] theorem State.holderHeard_port (s : State) (src : Nat) : (s.holderHeard src).port = s.port := rfl
@[simp] theorem State.holderHeard_ddr (s : State) (src : Nat) : (s.holderHeard src).ddr = s.ddr := rfl
@[simp] theorem State.holderHeard_host (s : State) (src : Nat) : (s.holderHeard src).host = s.host := rfl
@[simp] theorem State.holderHeard_recd (s : State) (src : Nat) : (s.holderHeard src).recd = s.recd := rfl
@[simp] theorem State.holderHeard_pwr (s : State) (src : Nat) : (s.holderHeard src).pwr = s.pwr := rfl
@[simp] theorem State.holderHeard_xbar (s : State) (src : Nat) : (s.holderHeard src).xbar = s.xbar := rfl
@[simp] theorem State.holderHeard_svc (s : State) (src : Nat) : (s.holderHeard src).svc = s.svc := rfl
@[simp] theorem State.holderHeard_tap (s : State) (src : Nat) : (s.holderHeard src).tap = s.tap := rfl
@[simp] theorem State.holderHeard_cyc (s : State) (src : Nat) : (s.holderHeard src).cyc = s.cyc := rfl
@[simp] theorem State.holderHeard_ticks (s : State) (src : Nat) : (s.holderHeard src).ticks = s.ticks := rfl
@[simp] theorem State.holderHeard_out (s : State) (src : Nat) : (s.holderHeard src).out = s.out := rfl
@[simp] theorem State.holderHeard_freeCtr (s : State) (src : Nat) : (s.holderHeard src).freeCtr = s.freeCtr := rfl
@[simp] theorem State.holderHeard_pending (s : State) (src : Nat) : (s.holderHeard src).pending = s.pending := rfl
@[simp] theorem State.holderHeard_reg (s : State) (src : Nat) (k0 : Nat) : (s.holderHeard src).reg k0 = s.reg k0 := rfl
@[simp] theorem State.holderHeard_rd (s : State) (src : Nat) (f0 : Fld) : (s.holderHeard src).rd f0 = s.rd f0 := rfl
@[simp] theorem State.holderHeard_bit (s : State) (src : Nat) (f0 : Fld) : (s.holderHeard src).bit f0 = s.bit f0 := rfl
@[simp] theorem State.holderHeard_shd (s : State) (src : Nat) (k0 : Nat) : (s.holderHeard src).shd k0 = s.shd k0 := rfl
@[simp] theorem State.holderHeard_up (s : State) (src : Nat) (p0 : Part) : (s.holderHeard src).up p0 = s.up p0 := rfl

/-! ### `State.heardNow` -/

@[simp] theorem State.heardNow_regs (s : State) : (s.heardNow).regs = s.regs := rfl
@[simp] theorem State.heardNow_flt (s : State) : (s.heardNow).flt = s.flt := rfl
@[simp] theorem State.heardNow_boot (s : State) : (s.heardNow).boot = s.boot := rfl
@[simp] theorem State.heardNow_commits (s : State) : (s.heardNow).commits = s.commits := rfl
@[simp] theorem State.heardNow_vme (s : State) : (s.heardNow).vme = s.vme := rfl
@[simp] theorem State.heardNow_vin (s : State) : (s.heardNow).vin = s.vin := rfl
@[simp] theorem State.heardNow_drv (s : State) : (s.heardNow).drv = s.drv := rfl
@[simp] theorem State.heardNow_ord (s : State) : (s.heardNow).ord = s.ord := rfl
@[simp] theorem State.heardNow_fold (s : State) : (s.heardNow).fold = s.fold := rfl
@[simp] theorem State.heardNow_net (s : State) : (s.heardNow).net = s.net := rfl
@[simp] theorem State.heardNow_cad (s : State) : (s.heardNow).cad = s.cad := rfl
@[simp] theorem State.heardNow_stat (s : State) : (s.heardNow).stat = s.stat := rfl
@[simp] theorem State.heardNow_twin (s : State) : (s.heardNow).twin = { s.twin with tHeard := s.ticks } := rfl
@[simp] theorem State.heardNow_port (s : State) : (s.heardNow).port = s.port := rfl
@[simp] theorem State.heardNow_ddr (s : State) : (s.heardNow).ddr = s.ddr := rfl
@[simp] theorem State.heardNow_host (s : State) : (s.heardNow).host = s.host := rfl
@[simp] theorem State.heardNow_recd (s : State) : (s.heardNow).recd = s.recd := rfl
@[simp] theorem State.heardNow_pwr (s : State) : (s.heardNow).pwr = s.pwr := rfl
@[simp] theorem State.heardNow_xbar (s : State) : (s.heardNow).xbar = s.xbar := rfl
@[simp] theorem State.heardNow_svc (s : State) : (s.heardNow).svc = s.svc := rfl
@[simp] theorem State.heardNow_tap (s : State) : (s.heardNow).tap = s.tap := rfl
@[simp] theorem State.heardNow_cyc (s : State) : (s.heardNow).cyc = s.cyc := rfl
@[simp] theorem State.heardNow_ticks (s : State) : (s.heardNow).ticks = s.ticks := rfl
@[simp] theorem State.heardNow_out (s : State) : (s.heardNow).out = s.out := rfl
@[simp] theorem State.heardNow_freeCtr (s : State) : (s.heardNow).freeCtr = s.freeCtr := rfl
@[simp] theorem State.heardNow_pending (s : State) : (s.heardNow).pending = s.pending := rfl
@[simp] theorem State.heardNow_reg (s : State) (k0 : Nat) : (s.heardNow).reg k0 = s.reg k0 := rfl
@[simp] theorem State.heardNow_rd (s : State) (f0 : Fld) : (s.heardNow).rd f0 = s.rd f0 := rfl
@[simp] theorem State.heardNow_bit (s : State) (f0 : Fld) : (s.heardNow).bit f0 = s.bit f0 := rfl
@[simp] theorem State.heardNow_shd (s : State) (k0 : Nat) : (s.heardNow).shd k0 = s.shd k0 := rfl
@[simp] theorem State.heardNow_up (s : State) (p0 : Part) : (s.heardNow).up p0 = s.up p0 := rfl

/-! ### `State.setPmb` -/

@[simp] theorem State.setPmb_regs (s : State) (p : Nat) (x : PmbPort) : (s.setPmb p x).regs = s.regs := rfl
@[simp] theorem State.setPmb_flt (s : State) (p : Nat) (x : PmbPort) : (s.setPmb p x).flt = s.flt := rfl
@[simp] theorem State.setPmb_boot (s : State) (p : Nat) (x : PmbPort) : (s.setPmb p x).boot = s.boot := rfl
@[simp] theorem State.setPmb_commits (s : State) (p : Nat) (x : PmbPort) : (s.setPmb p x).commits = s.commits := rfl
@[simp] theorem State.setPmb_vme (s : State) (p : Nat) (x : PmbPort) : (s.setPmb p x).vme = s.vme := rfl
@[simp] theorem State.setPmb_vin (s : State) (p : Nat) (x : PmbPort) : (s.setPmb p x).vin = s.vin := rfl
@[simp] theorem State.setPmb_drv (s : State) (p : Nat) (x : PmbPort) : (s.setPmb p x).drv = s.drv := rfl
@[simp] theorem State.setPmb_ord (s : State) (p : Nat) (x : PmbPort) : (s.setPmb p x).ord = s.ord := rfl
@[simp] theorem State.setPmb_fold (s : State) (p : Nat) (x : PmbPort) : (s.setPmb p x).fold = s.fold := rfl
@[simp] theorem State.setPmb_net (s : State) (p : Nat) (x : PmbPort) : (s.setPmb p x).net = s.net := rfl
@[simp] theorem State.setPmb_cad (s : State) (p : Nat) (x : PmbPort) : (s.setPmb p x).cad = s.cad := rfl
@[simp] theorem State.setPmb_stat (s : State) (p : Nat) (x : PmbPort) : (s.setPmb p x).stat = s.stat := rfl
@[simp] theorem State.setPmb_twin (s : State) (p : Nat) (x : PmbPort) : (s.setPmb p x).twin = s.twin := rfl
@[simp] theorem State.setPmb_port (s : State) (p : Nat) (x : PmbPort) : (s.setPmb p x).port = s.port := rfl
@[simp] theorem State.setPmb_ddr (s : State) (p : Nat) (x : PmbPort) : (s.setPmb p x).ddr = s.ddr := rfl
@[simp] theorem State.setPmb_host (s : State) (p : Nat) (x : PmbPort) : (s.setPmb p x).host = s.host := rfl
@[simp] theorem State.setPmb_recd (s : State) (p : Nat) (x : PmbPort) : (s.setPmb p x).recd = s.recd := rfl
@[simp] theorem State.setPmb_pwr (s : State) (p : Nat) (x : PmbPort) : (s.setPmb p x).pwr = { s.pwr with ports := setAt s.pwr.ports p x } := rfl
@[simp] theorem State.setPmb_xbar (s : State) (p : Nat) (x : PmbPort) : (s.setPmb p x).xbar = s.xbar := rfl
@[simp] theorem State.setPmb_svc (s : State) (p : Nat) (x : PmbPort) : (s.setPmb p x).svc = s.svc := rfl
@[simp] theorem State.setPmb_tap (s : State) (p : Nat) (x : PmbPort) : (s.setPmb p x).tap = s.tap := rfl
@[simp] theorem State.setPmb_cyc (s : State) (p : Nat) (x : PmbPort) : (s.setPmb p x).cyc = s.cyc := rfl
@[simp] theorem State.setPmb_ticks (s : State) (p : Nat) (x : PmbPort) : (s.setPmb p x).ticks = s.ticks := rfl
@[simp] theorem State.setPmb_out (s : State) (p : Nat) (x : PmbPort) : (s.setPmb p x).out = s.out := rfl
@[simp] theorem State.setPmb_freeCtr (s : State) (p : Nat) (x : PmbPort) : (s.setPmb p x).freeCtr = s.freeCtr := rfl
@[simp] theorem State.setPmb_pending (s : State) (p : Nat) (x : PmbPort) : (s.setPmb p x).pending = s.pending := rfl
@[simp] theorem State.setPmb_reg (s : State) (p : Nat) (x : PmbPort) (k0 : Nat) : (s.setPmb p x).reg k0 = s.reg k0 := rfl
@[simp] theorem State.setPmb_rd (s : State) (p : Nat) (x : PmbPort) (f0 : Fld) : (s.setPmb p x).rd f0 = s.rd f0 := rfl
@[simp] theorem State.setPmb_bit (s : State) (p : Nat) (x : PmbPort) (f0 : Fld) : (s.setPmb p x).bit f0 = s.bit f0 := rfl
@[simp] theorem State.setPmb_shd (s : State) (p : Nat) (x : PmbPort) (k0 : Nat) : (s.setPmb p x).shd k0 = s.shd k0 := rfl
@[simp] theorem State.setPmb_up (s : State) (p : Nat) (x : PmbPort) (p0 : Part) : (s.setPmb p x).up p0 = s.up p0 := rfl

/-! ### `State.setPdev` -/

@[simp] theorem State.setPdev_regs (s : State) (d : Nat) (x : PwrDev) : (s.setPdev d x).regs = s.regs := rfl
@[simp] theorem State.setPdev_flt (s : State) (d : Nat) (x : PwrDev) : (s.setPdev d x).flt = s.flt := rfl
@[simp] theorem State.setPdev_boot (s : State) (d : Nat) (x : PwrDev) : (s.setPdev d x).boot = s.boot := rfl
@[simp] theorem State.setPdev_commits (s : State) (d : Nat) (x : PwrDev) : (s.setPdev d x).commits = s.commits := rfl
@[simp] theorem State.setPdev_vme (s : State) (d : Nat) (x : PwrDev) : (s.setPdev d x).vme = s.vme := rfl
@[simp] theorem State.setPdev_vin (s : State) (d : Nat) (x : PwrDev) : (s.setPdev d x).vin = s.vin := rfl
@[simp] theorem State.setPdev_drv (s : State) (d : Nat) (x : PwrDev) : (s.setPdev d x).drv = s.drv := rfl
@[simp] theorem State.setPdev_ord (s : State) (d : Nat) (x : PwrDev) : (s.setPdev d x).ord = s.ord := rfl
@[simp] theorem State.setPdev_fold (s : State) (d : Nat) (x : PwrDev) : (s.setPdev d x).fold = s.fold := rfl
@[simp] theorem State.setPdev_net (s : State) (d : Nat) (x : PwrDev) : (s.setPdev d x).net = s.net := rfl
@[simp] theorem State.setPdev_cad (s : State) (d : Nat) (x : PwrDev) : (s.setPdev d x).cad = s.cad := rfl
@[simp] theorem State.setPdev_stat (s : State) (d : Nat) (x : PwrDev) : (s.setPdev d x).stat = s.stat := rfl
@[simp] theorem State.setPdev_twin (s : State) (d : Nat) (x : PwrDev) : (s.setPdev d x).twin = s.twin := rfl
@[simp] theorem State.setPdev_port (s : State) (d : Nat) (x : PwrDev) : (s.setPdev d x).port = s.port := rfl
@[simp] theorem State.setPdev_ddr (s : State) (d : Nat) (x : PwrDev) : (s.setPdev d x).ddr = s.ddr := rfl
@[simp] theorem State.setPdev_host (s : State) (d : Nat) (x : PwrDev) : (s.setPdev d x).host = s.host := rfl
@[simp] theorem State.setPdev_recd (s : State) (d : Nat) (x : PwrDev) : (s.setPdev d x).recd = s.recd := rfl
@[simp] theorem State.setPdev_pwr (s : State) (d : Nat) (x : PwrDev) : (s.setPdev d x).pwr = { s.pwr with devs := tput PwrDev.idle s.pwr.devs d x } := rfl
@[simp] theorem State.setPdev_xbar (s : State) (d : Nat) (x : PwrDev) : (s.setPdev d x).xbar = s.xbar := rfl
@[simp] theorem State.setPdev_svc (s : State) (d : Nat) (x : PwrDev) : (s.setPdev d x).svc = s.svc := rfl
@[simp] theorem State.setPdev_tap (s : State) (d : Nat) (x : PwrDev) : (s.setPdev d x).tap = s.tap := rfl
@[simp] theorem State.setPdev_cyc (s : State) (d : Nat) (x : PwrDev) : (s.setPdev d x).cyc = s.cyc := rfl
@[simp] theorem State.setPdev_ticks (s : State) (d : Nat) (x : PwrDev) : (s.setPdev d x).ticks = s.ticks := rfl
@[simp] theorem State.setPdev_out (s : State) (d : Nat) (x : PwrDev) : (s.setPdev d x).out = s.out := rfl
@[simp] theorem State.setPdev_freeCtr (s : State) (d : Nat) (x : PwrDev) : (s.setPdev d x).freeCtr = s.freeCtr := rfl
@[simp] theorem State.setPdev_pending (s : State) (d : Nat) (x : PwrDev) : (s.setPdev d x).pending = s.pending := rfl
@[simp] theorem State.setPdev_reg (s : State) (d : Nat) (x : PwrDev) (k0 : Nat) : (s.setPdev d x).reg k0 = s.reg k0 := rfl
@[simp] theorem State.setPdev_rd (s : State) (d : Nat) (x : PwrDev) (f0 : Fld) : (s.setPdev d x).rd f0 = s.rd f0 := rfl
@[simp] theorem State.setPdev_bit (s : State) (d : Nat) (x : PwrDev) (f0 : Fld) : (s.setPdev d x).bit f0 = s.bit f0 := rfl
@[simp] theorem State.setPdev_shd (s : State) (d : Nat) (x : PwrDev) (k0 : Nat) : (s.setPdev d x).shd k0 = s.shd k0 := rfl
@[simp] theorem State.setPdev_up (s : State) (d : Nat) (x : PwrDev) (p0 : Part) : (s.setPdev d x).up p0 = s.up p0 := rfl

/-! ### `State.setPslot` -/

@[simp] theorem State.setPslot_regs (s : State) (n : Nat) (x : PwrSlot) : (s.setPslot n x).regs = s.regs := rfl
@[simp] theorem State.setPslot_flt (s : State) (n : Nat) (x : PwrSlot) : (s.setPslot n x).flt = s.flt := rfl
@[simp] theorem State.setPslot_boot (s : State) (n : Nat) (x : PwrSlot) : (s.setPslot n x).boot = s.boot := rfl
@[simp] theorem State.setPslot_commits (s : State) (n : Nat) (x : PwrSlot) : (s.setPslot n x).commits = s.commits := rfl
@[simp] theorem State.setPslot_vme (s : State) (n : Nat) (x : PwrSlot) : (s.setPslot n x).vme = s.vme := rfl
@[simp] theorem State.setPslot_vin (s : State) (n : Nat) (x : PwrSlot) : (s.setPslot n x).vin = s.vin := rfl
@[simp] theorem State.setPslot_drv (s : State) (n : Nat) (x : PwrSlot) : (s.setPslot n x).drv = s.drv := rfl
@[simp] theorem State.setPslot_ord (s : State) (n : Nat) (x : PwrSlot) : (s.setPslot n x).ord = s.ord := rfl
@[simp] theorem State.setPslot_fold (s : State) (n : Nat) (x : PwrSlot) : (s.setPslot n x).fold = s.fold := rfl
@[simp] theorem State.setPslot_net (s : State) (n : Nat) (x : PwrSlot) : (s.setPslot n x).net = s.net := rfl
@[simp] theorem State.setPslot_cad (s : State) (n : Nat) (x : PwrSlot) : (s.setPslot n x).cad = s.cad := rfl
@[simp] theorem State.setPslot_stat (s : State) (n : Nat) (x : PwrSlot) : (s.setPslot n x).stat = s.stat := rfl
@[simp] theorem State.setPslot_twin (s : State) (n : Nat) (x : PwrSlot) : (s.setPslot n x).twin = s.twin := rfl
@[simp] theorem State.setPslot_port (s : State) (n : Nat) (x : PwrSlot) : (s.setPslot n x).port = s.port := rfl
@[simp] theorem State.setPslot_ddr (s : State) (n : Nat) (x : PwrSlot) : (s.setPslot n x).ddr = s.ddr := rfl
@[simp] theorem State.setPslot_host (s : State) (n : Nat) (x : PwrSlot) : (s.setPslot n x).host = s.host := rfl
@[simp] theorem State.setPslot_recd (s : State) (n : Nat) (x : PwrSlot) : (s.setPslot n x).recd = s.recd := rfl
@[simp] theorem State.setPslot_pwr (s : State) (n : Nat) (x : PwrSlot) : (s.setPslot n x).pwr = { s.pwr with slots := tput PwrSlot.idle s.pwr.slots n x } := rfl
@[simp] theorem State.setPslot_xbar (s : State) (n : Nat) (x : PwrSlot) : (s.setPslot n x).xbar = s.xbar := rfl
@[simp] theorem State.setPslot_svc (s : State) (n : Nat) (x : PwrSlot) : (s.setPslot n x).svc = s.svc := rfl
@[simp] theorem State.setPslot_tap (s : State) (n : Nat) (x : PwrSlot) : (s.setPslot n x).tap = s.tap := rfl
@[simp] theorem State.setPslot_cyc (s : State) (n : Nat) (x : PwrSlot) : (s.setPslot n x).cyc = s.cyc := rfl
@[simp] theorem State.setPslot_ticks (s : State) (n : Nat) (x : PwrSlot) : (s.setPslot n x).ticks = s.ticks := rfl
@[simp] theorem State.setPslot_out (s : State) (n : Nat) (x : PwrSlot) : (s.setPslot n x).out = s.out := rfl
@[simp] theorem State.setPslot_freeCtr (s : State) (n : Nat) (x : PwrSlot) : (s.setPslot n x).freeCtr = s.freeCtr := rfl
@[simp] theorem State.setPslot_pending (s : State) (n : Nat) (x : PwrSlot) : (s.setPslot n x).pending = s.pending := rfl
@[simp] theorem State.setPslot_reg (s : State) (n : Nat) (x : PwrSlot) (k0 : Nat) : (s.setPslot n x).reg k0 = s.reg k0 := rfl
@[simp] theorem State.setPslot_rd (s : State) (n : Nat) (x : PwrSlot) (f0 : Fld) : (s.setPslot n x).rd f0 = s.rd f0 := rfl
@[simp] theorem State.setPslot_bit (s : State) (n : Nat) (x : PwrSlot) (f0 : Fld) : (s.setPslot n x).bit f0 = s.bit f0 := rfl
@[simp] theorem State.setPslot_shd (s : State) (n : Nat) (x : PwrSlot) (k0 : Nat) : (s.setPslot n x).shd k0 = s.shd k0 := rfl
@[simp] theorem State.setPslot_up (s : State) (n : Nat) (x : PwrSlot) (p0 : Part) : (s.setPslot n x).up p0 = s.up p0 := rfl

/-! ### `State.setIr` -/

@[simp] theorem State.setIr_regs (s : State) (ir : Nat) : (s.setIr ir).regs = s.regs := rfl
@[simp] theorem State.setIr_flt (s : State) (ir : Nat) : (s.setIr ir).flt = s.flt := rfl
@[simp] theorem State.setIr_boot (s : State) (ir : Nat) : (s.setIr ir).boot = s.boot := rfl
@[simp] theorem State.setIr_commits (s : State) (ir : Nat) : (s.setIr ir).commits = s.commits := rfl
@[simp] theorem State.setIr_vme (s : State) (ir : Nat) : (s.setIr ir).vme = s.vme := rfl
@[simp] theorem State.setIr_vin (s : State) (ir : Nat) : (s.setIr ir).vin = s.vin := rfl
@[simp] theorem State.setIr_drv (s : State) (ir : Nat) : (s.setIr ir).drv = s.drv := rfl
@[simp] theorem State.setIr_ord (s : State) (ir : Nat) : (s.setIr ir).ord = s.ord := rfl
@[simp] theorem State.setIr_fold (s : State) (ir : Nat) : (s.setIr ir).fold = s.fold := rfl
@[simp] theorem State.setIr_net (s : State) (ir : Nat) : (s.setIr ir).net = s.net := rfl
@[simp] theorem State.setIr_cad (s : State) (ir : Nat) : (s.setIr ir).cad = s.cad := rfl
@[simp] theorem State.setIr_stat (s : State) (ir : Nat) : (s.setIr ir).stat = s.stat := rfl
@[simp] theorem State.setIr_twin (s : State) (ir : Nat) : (s.setIr ir).twin = s.twin := rfl
@[simp] theorem State.setIr_port (s : State) (ir : Nat) : (s.setIr ir).port = s.port := rfl
@[simp] theorem State.setIr_ddr (s : State) (ir : Nat) : (s.setIr ir).ddr = s.ddr := rfl
@[simp] theorem State.setIr_host (s : State) (ir : Nat) : (s.setIr ir).host = s.host := rfl
@[simp] theorem State.setIr_recd (s : State) (ir : Nat) : (s.setIr ir).recd = s.recd := rfl
@[simp] theorem State.setIr_pwr (s : State) (ir : Nat) : (s.setIr ir).pwr = s.pwr := rfl
@[simp] theorem State.setIr_xbar (s : State) (ir : Nat) : (s.setIr ir).xbar = s.xbar := rfl
@[simp] theorem State.setIr_svc (s : State) (ir : Nat) : (s.setIr ir).svc = s.svc := rfl
@[simp] theorem State.setIr_tap (s : State) (ir : Nat) : (s.setIr ir).tap = { s.tap with ir := ir } := rfl
@[simp] theorem State.setIr_cyc (s : State) (ir : Nat) : (s.setIr ir).cyc = s.cyc := rfl
@[simp] theorem State.setIr_ticks (s : State) (ir : Nat) : (s.setIr ir).ticks = s.ticks := rfl
@[simp] theorem State.setIr_out (s : State) (ir : Nat) : (s.setIr ir).out = s.out := rfl
@[simp] theorem State.setIr_freeCtr (s : State) (ir : Nat) : (s.setIr ir).freeCtr = s.freeCtr := rfl
@[simp] theorem State.setIr_pending (s : State) (ir : Nat) : (s.setIr ir).pending = s.pending := rfl
@[simp] theorem State.setIr_reg (s : State) (ir : Nat) (k0 : Nat) : (s.setIr ir).reg k0 = s.reg k0 := rfl
@[simp] theorem State.setIr_rd (s : State) (ir : Nat) (f0 : Fld) : (s.setIr ir).rd f0 = s.rd f0 := rfl
@[simp] theorem State.setIr_bit (s : State) (ir : Nat) (f0 : Fld) : (s.setIr ir).bit f0 = s.bit f0 := rfl
@[simp] theorem State.setIr_shd (s : State) (ir : Nat) (k0 : Nat) : (s.setIr ir).shd k0 = s.shd k0 := rfl
@[simp] theorem State.setIr_up (s : State) (ir : Nat) (p0 : Part) : (s.setIr ir).up p0 = s.up p0 := rfl

/-! ### `State.wr` -/

@[simp] theorem State.wr_flt (s : State) (f : Fld) (v : Nat) : (s.wr f v).flt = s.flt := id rfl
@[simp] theorem State.wr_boot (s : State) (f : Fld) (v : Nat) : (s.wr f v).boot = s.boot := id rfl
@[simp] theorem State.wr_commits (s : State) (f : Fld) (v : Nat) : (s.wr f v).commits = s.commits := id rfl
@[simp] theorem State.wr_vme (s : State) (f : Fld) (v : Nat) : (s.wr f v).vme = s.vme := id rfl
@[simp] theorem State.wr_vin (s : State) (f : Fld) (v : Nat) : (s.wr f v).vin = s.vin := id rfl
@[simp] theorem State.wr_drv (s : State) (f : Fld) (v : Nat) : (s.wr f v).drv = s.drv := id rfl
@[simp] theorem State.wr_ord (s : State) (f : Fld) (v : Nat) : (s.wr f v).ord = s.ord := id rfl
@[simp] theorem State.wr_fold (s : State) (f : Fld) (v : Nat) : (s.wr f v).fold = s.fold := id rfl
@[simp] theorem State.wr_net (s : State) (f : Fld) (v : Nat) : (s.wr f v).net = s.net := id rfl
@[simp] theorem State.wr_cad (s : State) (f : Fld) (v : Nat) : (s.wr f v).cad = s.cad := id rfl
@[simp] theorem State.wr_stat (s : State) (f : Fld) (v : Nat) : (s.wr f v).stat = s.stat := id rfl
@[simp] theorem State.wr_twin (s : State) (f : Fld) (v : Nat) : (s.wr f v).twin = s.twin := id rfl
@[simp] theorem State.wr_port (s : State) (f : Fld) (v : Nat) : (s.wr f v).port = s.port := id rfl
@[simp] theorem State.wr_ddr (s : State) (f : Fld) (v : Nat) : (s.wr f v).ddr = s.ddr := id rfl
@[simp] theorem State.wr_host (s : State) (f : Fld) (v : Nat) : (s.wr f v).host = s.host := id rfl
@[simp] theorem State.wr_recd (s : State) (f : Fld) (v : Nat) : (s.wr f v).recd = s.recd := id rfl
@[simp] theorem State.wr_pwr (s : State) (f : Fld) (v : Nat) : (s.wr f v).pwr = s.pwr := id rfl
@[simp] theorem State.wr_xbar (s : State) (f : Fld) (v : Nat) : (s.wr f v).xbar = s.xbar := id rfl
@[simp] theorem State.wr_svc (s : State) (f : Fld) (v : Nat) : (s.wr f v).svc = s.svc := id rfl
@[simp] theorem State.wr_tap (s : State) (f : Fld) (v : Nat) : (s.wr f v).tap = s.tap := id rfl
@[simp] theorem State.wr_cyc (s : State) (f : Fld) (v : Nat) : (s.wr f v).cyc = s.cyc := id rfl
@[simp] theorem State.wr_ticks (s : State) (f : Fld) (v : Nat) : (s.wr f v).ticks = s.ticks := id rfl
@[simp] theorem State.wr_out (s : State) (f : Fld) (v : Nat) : (s.wr f v).out = s.out := id rfl
@[simp] theorem State.wr_freeCtr (s : State) (f : Fld) (v : Nat) : (s.wr f v).freeCtr = s.freeCtr := id rfl
@[simp] theorem State.wr_pending (s : State) (f : Fld) (v : Nat) : (s.wr f v).pending = s.pending := id rfl

/-! ### `State.wrB` -/

@[simp] theorem State.wrB_flt (s : State) (f : Fld) (b : Bool) : (s.wrB f b).flt = s.flt := id rfl
@[simp] theorem State.wrB_boot (s : State) (f : Fld) (b : Bool) : (s.wrB f b).boot = s.boot := id rfl
@[simp] theorem State.wrB_commits (s : State) (f : Fld) (b : Bool) : (s.wrB f b).commits = s.commits := id rfl
@[simp] theorem State.wrB_vme (s : State) (f : Fld) (b : Bool) : (s.wrB f b).vme = s.vme := id rfl
@[simp] theorem State.wrB_vin (s : State) (f : Fld) (b : Bool) : (s.wrB f b).vin = s.vin := id rfl
@[simp] theorem State.wrB_drv (s : State) (f : Fld) (b : Bool) : (s.wrB f b).drv = s.drv := id rfl
@[simp] theorem State.wrB_ord (s : State) (f : Fld) (b : Bool) : (s.wrB f b).ord = s.ord := id rfl
@[simp] theorem State.wrB_fold (s : State) (f : Fld) (b : Bool) : (s.wrB f b).fold = s.fold := id rfl
@[simp] theorem State.wrB_net (s : State) (f : Fld) (b : Bool) : (s.wrB f b).net = s.net := id rfl
@[simp] theorem State.wrB_cad (s : State) (f : Fld) (b : Bool) : (s.wrB f b).cad = s.cad := id rfl
@[simp] theorem State.wrB_stat (s : State) (f : Fld) (b : Bool) : (s.wrB f b).stat = s.stat := id rfl
@[simp] theorem State.wrB_twin (s : State) (f : Fld) (b : Bool) : (s.wrB f b).twin = s.twin := id rfl
@[simp] theorem State.wrB_port (s : State) (f : Fld) (b : Bool) : (s.wrB f b).port = s.port := id rfl
@[simp] theorem State.wrB_ddr (s : State) (f : Fld) (b : Bool) : (s.wrB f b).ddr = s.ddr := id rfl
@[simp] theorem State.wrB_host (s : State) (f : Fld) (b : Bool) : (s.wrB f b).host = s.host := id rfl
@[simp] theorem State.wrB_recd (s : State) (f : Fld) (b : Bool) : (s.wrB f b).recd = s.recd := id rfl
@[simp] theorem State.wrB_pwr (s : State) (f : Fld) (b : Bool) : (s.wrB f b).pwr = s.pwr := id rfl
@[simp] theorem State.wrB_xbar (s : State) (f : Fld) (b : Bool) : (s.wrB f b).xbar = s.xbar := id rfl
@[simp] theorem State.wrB_svc (s : State) (f : Fld) (b : Bool) : (s.wrB f b).svc = s.svc := id rfl
@[simp] theorem State.wrB_tap (s : State) (f : Fld) (b : Bool) : (s.wrB f b).tap = s.tap := id rfl
@[simp] theorem State.wrB_cyc (s : State) (f : Fld) (b : Bool) : (s.wrB f b).cyc = s.cyc := id rfl
@[simp] theorem State.wrB_ticks (s : State) (f : Fld) (b : Bool) : (s.wrB f b).ticks = s.ticks := id rfl
@[simp] theorem State.wrB_out (s : State) (f : Fld) (b : Bool) : (s.wrB f b).out = s.out := id rfl
@[simp] theorem State.wrB_freeCtr (s : State) (f : Fld) (b : Bool) : (s.wrB f b).freeCtr = s.freeCtr := id rfl
@[simp] theorem State.wrB_pending (s : State) (f : Fld) (b : Bool) : (s.wrB f b).pending = s.pending := id rfl

/-! ### `State.statAdd` -/

@[simp] theorem State.statAdd_regs (s : State) (off n : Nat) : (s.statAdd off n).regs = s.regs := rfl
@[simp] theorem State.statAdd_flt (s : State) (off n : Nat) : (s.statAdd off n).flt = s.flt := rfl
@[simp] theorem State.statAdd_boot (s : State) (off n : Nat) : (s.statAdd off n).boot = s.boot := rfl
@[simp] theorem State.statAdd_commits (s : State) (off n : Nat) : (s.statAdd off n).commits = s.commits := rfl
@[simp] theorem State.statAdd_vme (s : State) (off n : Nat) : (s.statAdd off n).vme = s.vme := rfl
@[simp] theorem State.statAdd_vin (s : State) (off n : Nat) : (s.statAdd off n).vin = s.vin := rfl
@[simp] theorem State.statAdd_drv (s : State) (off n : Nat) : (s.statAdd off n).drv = s.drv := rfl
@[simp] theorem State.statAdd_ord (s : State) (off n : Nat) : (s.statAdd off n).ord = s.ord := rfl
@[simp] theorem State.statAdd_fold (s : State) (off n : Nat) : (s.statAdd off n).fold = s.fold := rfl
@[simp] theorem State.statAdd_net (s : State) (off n : Nat) : (s.statAdd off n).net = s.net := rfl
@[simp] theorem State.statAdd_cad (s : State) (off n : Nat) : (s.statAdd off n).cad = s.cad := rfl
@[simp] theorem State.statAdd_twin (s : State) (off n : Nat) : (s.statAdd off n).twin = s.twin := rfl
@[simp] theorem State.statAdd_port (s : State) (off n : Nat) : (s.statAdd off n).port = s.port := rfl
@[simp] theorem State.statAdd_ddr (s : State) (off n : Nat) : (s.statAdd off n).ddr = s.ddr := rfl
@[simp] theorem State.statAdd_host (s : State) (off n : Nat) : (s.statAdd off n).host = s.host := rfl
@[simp] theorem State.statAdd_recd (s : State) (off n : Nat) : (s.statAdd off n).recd = s.recd := rfl
@[simp] theorem State.statAdd_pwr (s : State) (off n : Nat) : (s.statAdd off n).pwr = s.pwr := rfl
@[simp] theorem State.statAdd_xbar (s : State) (off n : Nat) : (s.statAdd off n).xbar = s.xbar := rfl
@[simp] theorem State.statAdd_svc (s : State) (off n : Nat) : (s.statAdd off n).svc = s.svc := rfl
@[simp] theorem State.statAdd_tap (s : State) (off n : Nat) : (s.statAdd off n).tap = s.tap := rfl
@[simp] theorem State.statAdd_cyc (s : State) (off n : Nat) : (s.statAdd off n).cyc = s.cyc := rfl
@[simp] theorem State.statAdd_ticks (s : State) (off n : Nat) : (s.statAdd off n).ticks = s.ticks := rfl
@[simp] theorem State.statAdd_out (s : State) (off n : Nat) : (s.statAdd off n).out = s.out := rfl
@[simp] theorem State.statAdd_freeCtr (s : State) (off n : Nat) : (s.statAdd off n).freeCtr = s.freeCtr := rfl
@[simp] theorem State.statAdd_pending (s : State) (off n : Nat) : (s.statAdd off n).pending = s.pending := rfl
@[simp] theorem State.statAdd_reg (s : State) (off n : Nat) (k0 : Nat) : (s.statAdd off n).reg k0 = s.reg k0 := rfl
@[simp] theorem State.statAdd_rd (s : State) (off n : Nat) (f0 : Fld) : (s.statAdd off n).rd f0 = s.rd f0 := rfl
@[simp] theorem State.statAdd_bit (s : State) (off n : Nat) (f0 : Fld) : (s.statAdd off n).bit f0 = s.bit f0 := rfl
@[simp] theorem State.statAdd_shd (s : State) (off n : Nat) (k0 : Nat) : (s.statAdd off n).shd k0 = s.shd k0 := rfl
@[simp] theorem State.statAdd_up (s : State) (off n : Nat) (p0 : Part) : (s.statAdd off n).up p0 = s.up p0 := rfl

/-! ### `State.bumpF` -/

@[simp] theorem State.bumpF_flt (s : State) (f : Fld) (n : Nat) : (s.bumpF f n).flt = s.flt := id rfl
@[simp] theorem State.bumpF_boot (s : State) (f : Fld) (n : Nat) : (s.bumpF f n).boot = s.boot := id rfl
@[simp] theorem State.bumpF_commits (s : State) (f : Fld) (n : Nat) : (s.bumpF f n).commits = s.commits := id rfl
@[simp] theorem State.bumpF_vme (s : State) (f : Fld) (n : Nat) : (s.bumpF f n).vme = s.vme := id rfl
@[simp] theorem State.bumpF_vin (s : State) (f : Fld) (n : Nat) : (s.bumpF f n).vin = s.vin := id rfl
@[simp] theorem State.bumpF_drv (s : State) (f : Fld) (n : Nat) : (s.bumpF f n).drv = s.drv := id rfl
@[simp] theorem State.bumpF_ord (s : State) (f : Fld) (n : Nat) : (s.bumpF f n).ord = s.ord := id rfl
@[simp] theorem State.bumpF_fold (s : State) (f : Fld) (n : Nat) : (s.bumpF f n).fold = s.fold := id rfl
@[simp] theorem State.bumpF_net (s : State) (f : Fld) (n : Nat) : (s.bumpF f n).net = s.net := id rfl
@[simp] theorem State.bumpF_cad (s : State) (f : Fld) (n : Nat) : (s.bumpF f n).cad = s.cad := id rfl
@[simp] theorem State.bumpF_stat (s : State) (f : Fld) (n : Nat) : (s.bumpF f n).stat = s.stat := id rfl
@[simp] theorem State.bumpF_twin (s : State) (f : Fld) (n : Nat) : (s.bumpF f n).twin = s.twin := id rfl
@[simp] theorem State.bumpF_port (s : State) (f : Fld) (n : Nat) : (s.bumpF f n).port = s.port := id rfl
@[simp] theorem State.bumpF_ddr (s : State) (f : Fld) (n : Nat) : (s.bumpF f n).ddr = s.ddr := id rfl
@[simp] theorem State.bumpF_host (s : State) (f : Fld) (n : Nat) : (s.bumpF f n).host = s.host := id rfl
@[simp] theorem State.bumpF_recd (s : State) (f : Fld) (n : Nat) : (s.bumpF f n).recd = s.recd := id rfl
@[simp] theorem State.bumpF_pwr (s : State) (f : Fld) (n : Nat) : (s.bumpF f n).pwr = s.pwr := id rfl
@[simp] theorem State.bumpF_xbar (s : State) (f : Fld) (n : Nat) : (s.bumpF f n).xbar = s.xbar := id rfl
@[simp] theorem State.bumpF_svc (s : State) (f : Fld) (n : Nat) : (s.bumpF f n).svc = s.svc := id rfl
@[simp] theorem State.bumpF_tap (s : State) (f : Fld) (n : Nat) : (s.bumpF f n).tap = s.tap := id rfl
@[simp] theorem State.bumpF_cyc (s : State) (f : Fld) (n : Nat) : (s.bumpF f n).cyc = s.cyc := id rfl
@[simp] theorem State.bumpF_ticks (s : State) (f : Fld) (n : Nat) : (s.bumpF f n).ticks = s.ticks := id rfl
@[simp] theorem State.bumpF_out (s : State) (f : Fld) (n : Nat) : (s.bumpF f n).out = s.out := id rfl
@[simp] theorem State.bumpF_freeCtr (s : State) (f : Fld) (n : Nat) : (s.bumpF f n).freeCtr = s.freeCtr := id rfl
@[simp] theorem State.bumpF_pending (s : State) (f : Fld) (n : Nat) : (s.bumpF f n).pending = s.pending := id rfl

/-! ### `State.peak` -/

@[simp] theorem State.peak_flt (s : State) (f : Fld) (v : Nat) : (s.peak f v).flt = s.flt := by
  unfold State.peak; split <;> rfl
@[simp] theorem State.peak_boot (s : State) (f : Fld) (v : Nat) : (s.peak f v).boot = s.boot := by
  unfold State.peak; split <;> rfl
@[simp] theorem State.peak_commits (s : State) (f : Fld) (v : Nat) : (s.peak f v).commits = s.commits := by
  unfold State.peak; split <;> rfl
@[simp] theorem State.peak_vme (s : State) (f : Fld) (v : Nat) : (s.peak f v).vme = s.vme := by
  unfold State.peak; split <;> rfl
@[simp] theorem State.peak_vin (s : State) (f : Fld) (v : Nat) : (s.peak f v).vin = s.vin := by
  unfold State.peak; split <;> rfl
@[simp] theorem State.peak_drv (s : State) (f : Fld) (v : Nat) : (s.peak f v).drv = s.drv := by
  unfold State.peak; split <;> rfl
@[simp] theorem State.peak_ord (s : State) (f : Fld) (v : Nat) : (s.peak f v).ord = s.ord := by
  unfold State.peak; split <;> rfl
@[simp] theorem State.peak_fold (s : State) (f : Fld) (v : Nat) : (s.peak f v).fold = s.fold := by
  unfold State.peak; split <;> rfl
@[simp] theorem State.peak_net (s : State) (f : Fld) (v : Nat) : (s.peak f v).net = s.net := by
  unfold State.peak; split <;> rfl
@[simp] theorem State.peak_cad (s : State) (f : Fld) (v : Nat) : (s.peak f v).cad = s.cad := by
  unfold State.peak; split <;> rfl
@[simp] theorem State.peak_stat (s : State) (f : Fld) (v : Nat) : (s.peak f v).stat = s.stat := by
  unfold State.peak; split <;> rfl
@[simp] theorem State.peak_twin (s : State) (f : Fld) (v : Nat) : (s.peak f v).twin = s.twin := by
  unfold State.peak; split <;> rfl
@[simp] theorem State.peak_port (s : State) (f : Fld) (v : Nat) : (s.peak f v).port = s.port := by
  unfold State.peak; split <;> rfl
@[simp] theorem State.peak_ddr (s : State) (f : Fld) (v : Nat) : (s.peak f v).ddr = s.ddr := by
  unfold State.peak; split <;> rfl
@[simp] theorem State.peak_host (s : State) (f : Fld) (v : Nat) : (s.peak f v).host = s.host := by
  unfold State.peak; split <;> rfl
@[simp] theorem State.peak_recd (s : State) (f : Fld) (v : Nat) : (s.peak f v).recd = s.recd := by
  unfold State.peak; split <;> rfl
@[simp] theorem State.peak_pwr (s : State) (f : Fld) (v : Nat) : (s.peak f v).pwr = s.pwr := by
  unfold State.peak; split <;> rfl
@[simp] theorem State.peak_xbar (s : State) (f : Fld) (v : Nat) : (s.peak f v).xbar = s.xbar := by
  unfold State.peak; split <;> rfl
@[simp] theorem State.peak_svc (s : State) (f : Fld) (v : Nat) : (s.peak f v).svc = s.svc := by
  unfold State.peak; split <;> rfl
@[simp] theorem State.peak_tap (s : State) (f : Fld) (v : Nat) : (s.peak f v).tap = s.tap := by
  unfold State.peak; split <;> rfl
@[simp] theorem State.peak_cyc (s : State) (f : Fld) (v : Nat) : (s.peak f v).cyc = s.cyc := by
  unfold State.peak; split <;> rfl
@[simp] theorem State.peak_ticks (s : State) (f : Fld) (v : Nat) : (s.peak f v).ticks = s.ticks := by
  unfold State.peak; split <;> rfl
@[simp] theorem State.peak_out (s : State) (f : Fld) (v : Nat) : (s.peak f v).out = s.out := by
  unfold State.peak; split <;> rfl
@[simp] theorem State.peak_freeCtr (s : State) (f : Fld) (v : Nat) : (s.peak f v).freeCtr = s.freeCtr := by
  unfold State.peak; split <;> rfl
@[simp] theorem State.peak_pending (s : State) (f : Fld) (v : Nat) : (s.peak f v).pending = s.pending := by
  unfold State.peak; split <;> rfl

/-! ### `State.bumpN` -/

@[simp] theorem State.bumpN_flt (s : State) (k n : Nat) : (s.bumpN k n).flt = s.flt := by
  unfold State.bumpN; dsimp only; split <;> rfl
@[simp] theorem State.bumpN_boot (s : State) (k n : Nat) : (s.bumpN k n).boot = s.boot := by
  unfold State.bumpN; dsimp only; split <;> rfl
@[simp] theorem State.bumpN_commits (s : State) (k n : Nat) : (s.bumpN k n).commits = s.commits := by
  unfold State.bumpN; dsimp only; split <;> rfl
@[simp] theorem State.bumpN_vme (s : State) (k n : Nat) : (s.bumpN k n).vme = s.vme := by
  unfold State.bumpN; dsimp only; split <;> rfl
@[simp] theorem State.bumpN_vin (s : State) (k n : Nat) : (s.bumpN k n).vin = s.vin := by
  unfold State.bumpN; dsimp only; split <;> rfl
@[simp] theorem State.bumpN_drv (s : State) (k n : Nat) : (s.bumpN k n).drv = s.drv := by
  unfold State.bumpN; dsimp only; split <;> rfl
@[simp] theorem State.bumpN_ord (s : State) (k n : Nat) : (s.bumpN k n).ord = s.ord := by
  unfold State.bumpN; dsimp only; split <;> rfl
@[simp] theorem State.bumpN_fold (s : State) (k n : Nat) : (s.bumpN k n).fold = s.fold := by
  unfold State.bumpN; dsimp only; split <;> rfl
@[simp] theorem State.bumpN_net (s : State) (k n : Nat) : (s.bumpN k n).net = s.net := by
  unfold State.bumpN; dsimp only; split <;> rfl
@[simp] theorem State.bumpN_cad (s : State) (k n : Nat) : (s.bumpN k n).cad = s.cad := by
  unfold State.bumpN; dsimp only; split <;> rfl
@[simp] theorem State.bumpN_twin (s : State) (k n : Nat) : (s.bumpN k n).twin = s.twin := by
  unfold State.bumpN; dsimp only; split <;> rfl
@[simp] theorem State.bumpN_port (s : State) (k n : Nat) : (s.bumpN k n).port = s.port := by
  unfold State.bumpN; dsimp only; split <;> rfl
@[simp] theorem State.bumpN_ddr (s : State) (k n : Nat) : (s.bumpN k n).ddr = s.ddr := by
  unfold State.bumpN; dsimp only; split <;> rfl
@[simp] theorem State.bumpN_host (s : State) (k n : Nat) : (s.bumpN k n).host = s.host := by
  unfold State.bumpN; dsimp only; split <;> rfl
@[simp] theorem State.bumpN_recd (s : State) (k n : Nat) : (s.bumpN k n).recd = s.recd := by
  unfold State.bumpN; dsimp only; split <;> rfl
@[simp] theorem State.bumpN_pwr (s : State) (k n : Nat) : (s.bumpN k n).pwr = s.pwr := by
  unfold State.bumpN; dsimp only; split <;> rfl
@[simp] theorem State.bumpN_xbar (s : State) (k n : Nat) : (s.bumpN k n).xbar = s.xbar := by
  unfold State.bumpN; dsimp only; split <;> rfl
@[simp] theorem State.bumpN_svc (s : State) (k n : Nat) : (s.bumpN k n).svc = s.svc := by
  unfold State.bumpN; dsimp only; split <;> rfl
@[simp] theorem State.bumpN_tap (s : State) (k n : Nat) : (s.bumpN k n).tap = s.tap := by
  unfold State.bumpN; dsimp only; split <;> rfl
@[simp] theorem State.bumpN_cyc (s : State) (k n : Nat) : (s.bumpN k n).cyc = s.cyc := by
  unfold State.bumpN; dsimp only; split <;> rfl
@[simp] theorem State.bumpN_ticks (s : State) (k n : Nat) : (s.bumpN k n).ticks = s.ticks := by
  unfold State.bumpN; dsimp only; split <;> rfl
@[simp] theorem State.bumpN_out (s : State) (k n : Nat) : (s.bumpN k n).out = s.out := by
  unfold State.bumpN; dsimp only; split <;> rfl
@[simp] theorem State.bumpN_freeCtr (s : State) (k n : Nat) : (s.bumpN k n).freeCtr = s.freeCtr := by
  unfold State.bumpN; dsimp only; split <;> rfl
@[simp] theorem State.bumpN_pending (s : State) (k n : Nat) : (s.bumpN k n).pending = s.pending := by
  unfold State.bumpN; dsimp only; split <;> rfl

/-! ### `State.bump` -/

@[simp] theorem State.bump_flt (s : State) (k : Nat) : (s.bump k).flt = s.flt := by
  unfold State.bump State.bumpN; dsimp only; split <;> rfl
@[simp] theorem State.bump_boot (s : State) (k : Nat) : (s.bump k).boot = s.boot := by
  unfold State.bump State.bumpN; dsimp only; split <;> rfl
@[simp] theorem State.bump_commits (s : State) (k : Nat) : (s.bump k).commits = s.commits := by
  unfold State.bump State.bumpN; dsimp only; split <;> rfl
@[simp] theorem State.bump_vme (s : State) (k : Nat) : (s.bump k).vme = s.vme := by
  unfold State.bump State.bumpN; dsimp only; split <;> rfl
@[simp] theorem State.bump_vin (s : State) (k : Nat) : (s.bump k).vin = s.vin := by
  unfold State.bump State.bumpN; dsimp only; split <;> rfl
@[simp] theorem State.bump_drv (s : State) (k : Nat) : (s.bump k).drv = s.drv := by
  unfold State.bump State.bumpN; dsimp only; split <;> rfl
@[simp] theorem State.bump_ord (s : State) (k : Nat) : (s.bump k).ord = s.ord := by
  unfold State.bump State.bumpN; dsimp only; split <;> rfl
@[simp] theorem State.bump_fold (s : State) (k : Nat) : (s.bump k).fold = s.fold := by
  unfold State.bump State.bumpN; dsimp only; split <;> rfl
@[simp] theorem State.bump_net (s : State) (k : Nat) : (s.bump k).net = s.net := by
  unfold State.bump State.bumpN; dsimp only; split <;> rfl
@[simp] theorem State.bump_cad (s : State) (k : Nat) : (s.bump k).cad = s.cad := by
  unfold State.bump State.bumpN; dsimp only; split <;> rfl
@[simp] theorem State.bump_twin (s : State) (k : Nat) : (s.bump k).twin = s.twin := by
  unfold State.bump State.bumpN; dsimp only; split <;> rfl
@[simp] theorem State.bump_port (s : State) (k : Nat) : (s.bump k).port = s.port := by
  unfold State.bump State.bumpN; dsimp only; split <;> rfl
@[simp] theorem State.bump_ddr (s : State) (k : Nat) : (s.bump k).ddr = s.ddr := by
  unfold State.bump State.bumpN; dsimp only; split <;> rfl
@[simp] theorem State.bump_host (s : State) (k : Nat) : (s.bump k).host = s.host := by
  unfold State.bump State.bumpN; dsimp only; split <;> rfl
@[simp] theorem State.bump_recd (s : State) (k : Nat) : (s.bump k).recd = s.recd := by
  unfold State.bump State.bumpN; dsimp only; split <;> rfl
@[simp] theorem State.bump_pwr (s : State) (k : Nat) : (s.bump k).pwr = s.pwr := by
  unfold State.bump State.bumpN; dsimp only; split <;> rfl
@[simp] theorem State.bump_xbar (s : State) (k : Nat) : (s.bump k).xbar = s.xbar := by
  unfold State.bump State.bumpN; dsimp only; split <;> rfl
@[simp] theorem State.bump_svc (s : State) (k : Nat) : (s.bump k).svc = s.svc := by
  unfold State.bump State.bumpN; dsimp only; split <;> rfl
@[simp] theorem State.bump_tap (s : State) (k : Nat) : (s.bump k).tap = s.tap := by
  unfold State.bump State.bumpN; dsimp only; split <;> rfl
@[simp] theorem State.bump_cyc (s : State) (k : Nat) : (s.bump k).cyc = s.cyc := by
  unfold State.bump State.bumpN; dsimp only; split <;> rfl
@[simp] theorem State.bump_ticks (s : State) (k : Nat) : (s.bump k).ticks = s.ticks := by
  unfold State.bump State.bumpN; dsimp only; split <;> rfl
@[simp] theorem State.bump_out (s : State) (k : Nat) : (s.bump k).out = s.out := by
  unfold State.bump State.bumpN; dsimp only; split <;> rfl
@[simp] theorem State.bump_freeCtr (s : State) (k : Nat) : (s.bump k).freeCtr = s.freeCtr := by
  unfold State.bump State.bumpN; dsimp only; split <;> rfl
@[simp] theorem State.bump_pending (s : State) (k : Nat) : (s.bump k).pending = s.pending := by
  unfold State.bump State.bumpN; dsimp only; split <;> rfl

/-! ### What is read of the registers depends on the registers alone -/

theorem State.reg_of_regs {s t : State} (h : t.regs = s.regs) (k : Nat) : t.reg k = s.reg k := by simp only [State.reg, h]
theorem State.rd_of_regs {s t : State} (h : t.regs = s.regs) (f : Fld) : t.rd f = s.rd f := by simp only [State.rd, State.reg, h]
theorem State.bit_of_regs {s t : State} (h : t.regs = s.regs) (f : Fld) : t.bit f = s.bit f := by
  simp only [State.bit, State.rd_of_regs h]
theorem State.shd_of_regs {s t : State} (h : t.regs = s.regs) (k : Nat) : t.shd k = s.shd k := by simp only [State.shd, h]
theorem State.up_of_regs {s t : State} (h : t.regs = s.regs) (h' : t.boot = s.boot) (p : Part) : t.up p = s.up p := by
  simp only [State.up, State.stage, State.rd_of_regs h, h']

/-! ### The other bank -/

@[simp] theorem State.setReg_shd (s : State) (k : Nat) (v : Word) (j : Nat) : (s.setReg k v).shd j = s.shd j := id rfl
@[simp] theorem State.wr_shd (s : State) (f : Fld) (v j : Nat) : (s.wr f v).shd j = s.shd j := id rfl
@[simp] theorem State.wrB_shd (s : State) (f : Fld) (b : Bool) (j : Nat) : (s.wrB f b).shd j = s.shd j := id rfl
@[simp] theorem State.bumpF_shd (s : State) (f : Fld) (n j : Nat) : (s.bumpF f n).shd j = s.shd j := id rfl
@[simp] theorem State.setShd_reg (s : State) (k : Nat) (v : Word) (j : Nat) : (s.setShd k v).reg j = s.reg j := id rfl
@[simp] theorem State.setShd_rd (s : State) (k : Nat) (v : Word) (f : Fld) : (s.setShd k v).rd f = s.rd f := id rfl

/-- A counter's rise leaves the other bank. -/
@[simp] theorem State.bump_shd (s : State) (k k0 : Nat) : (s.bump k).shd k0 = s.shd k0 := by
  unfold State.bump State.bumpN; dsimp only; split <;> rfl

/-! ### `State.free` -/


@[simp] theorem State.free_regs (w : Nat) (s : State) : (State.free w s).2.regs = s.regs := rfl
@[simp] theorem State.free_flt (w : Nat) (s : State) : (State.free w s).2.flt = s.flt := rfl
@[simp] theorem State.free_boot (w : Nat) (s : State) : (State.free w s).2.boot = s.boot := rfl
@[simp] theorem State.free_commits (w : Nat) (s : State) : (State.free w s).2.commits = s.commits := rfl
@[simp] theorem State.free_vme (w : Nat) (s : State) : (State.free w s).2.vme = s.vme := rfl
@[simp] theorem State.free_vin (w : Nat) (s : State) : (State.free w s).2.vin = s.vin := rfl
@[simp] theorem State.free_drv (w : Nat) (s : State) : (State.free w s).2.drv = s.drv := rfl
@[simp] theorem State.free_ord (w : Nat) (s : State) : (State.free w s).2.ord = s.ord := rfl
@[simp] theorem State.free_fold (w : Nat) (s : State) : (State.free w s).2.fold = s.fold := rfl
@[simp] theorem State.free_net (w : Nat) (s : State) : (State.free w s).2.net = s.net := rfl
@[simp] theorem State.free_cad (w : Nat) (s : State) : (State.free w s).2.cad = s.cad := rfl
@[simp] theorem State.free_stat (w : Nat) (s : State) : (State.free w s).2.stat = s.stat := rfl
@[simp] theorem State.free_twin (w : Nat) (s : State) : (State.free w s).2.twin = s.twin := rfl
@[simp] theorem State.free_port (w : Nat) (s : State) : (State.free w s).2.port = s.port := rfl
@[simp] theorem State.free_ddr (w : Nat) (s : State) : (State.free w s).2.ddr = s.ddr := rfl
@[simp] theorem State.free_host (w : Nat) (s : State) : (State.free w s).2.host = s.host := rfl
@[simp] theorem State.free_recd (w : Nat) (s : State) : (State.free w s).2.recd = s.recd := rfl
@[simp] theorem State.free_pwr (w : Nat) (s : State) : (State.free w s).2.pwr = s.pwr := rfl
@[simp] theorem State.free_xbar (w : Nat) (s : State) : (State.free w s).2.xbar = s.xbar := rfl
@[simp] theorem State.free_svc (w : Nat) (s : State) : (State.free w s).2.svc = s.svc := rfl
@[simp] theorem State.free_tap (w : Nat) (s : State) : (State.free w s).2.tap = s.tap := rfl
@[simp] theorem State.free_cyc (w : Nat) (s : State) : (State.free w s).2.cyc = s.cyc := rfl
@[simp] theorem State.free_ticks (w : Nat) (s : State) : (State.free w s).2.ticks = s.ticks := rfl
@[simp] theorem State.free_out (w : Nat) (s : State) : (State.free w s).2.out = s.out := rfl
@[simp] theorem State.free_pending (w : Nat) (s : State) : (State.free w s).2.pending = s.pending := rfl

/-! ### `State.capture` -/

/-- `t` differs from `s` in its registers only. -/
def State.regsOnly (s t : State) : Prop := ∃ r, t = { s with regs := r }

theorem State.regsOnly.refl (s : State) : s.regsOnly s := ⟨s.regs, rfl⟩

theorem State.regsOnly.setReg {s t : State} (h : s.regsOnly t) (k : Nat) (v : Word) : s.regsOnly (t.setReg k v) := by
  obtain ⟨r, rfl⟩ := h
  exact ⟨_, rfl⟩

theorem State.regsOnly.wr {s t : State} (h : s.regsOnly t) (f : Fld) (v : Nat) : s.regsOnly (t.wr f v) := h.setReg _ _

/-- A capture unit is registers (R374). -/
theorem State.capture_regsOnly (s : State) (code : Nat) (c : CapInfo) : s.regsOnly (s.capture code c) := by
  unfold State.capture
  split
  · exact (State.regsOnly.refl s).wr _ _
  · extract_lets
    iterate 14 first | apply State.regsOnly.wr | apply State.regsOnly.setReg
    exact State.regsOnly.refl s

@[simp] theorem State.capture_flt (s : State) (code : Nat) (c : CapInfo) : (s.capture code c).flt = s.flt := by
  obtain ⟨r, h⟩ := s.capture_regsOnly code c; rw [h]
@[simp] theorem State.capture_boot (s : State) (code : Nat) (c : CapInfo) : (s.capture code c).boot = s.boot := by
  obtain ⟨r, h⟩ := s.capture_regsOnly code c; rw [h]
@[simp] theorem State.capture_commits (s : State) (code : Nat) (c : CapInfo) : (s.capture code c).commits = s.commits := by
  obtain ⟨r, h⟩ := s.capture_regsOnly code c; rw [h]
@[simp] theorem State.capture_vme (s : State) (code : Nat) (c : CapInfo) : (s.capture code c).vme = s.vme := by
  obtain ⟨r, h⟩ := s.capture_regsOnly code c; rw [h]
@[simp] theorem State.capture_vin (s : State) (code : Nat) (c : CapInfo) : (s.capture code c).vin = s.vin := by
  obtain ⟨r, h⟩ := s.capture_regsOnly code c; rw [h]
@[simp] theorem State.capture_drv (s : State) (code : Nat) (c : CapInfo) : (s.capture code c).drv = s.drv := by
  obtain ⟨r, h⟩ := s.capture_regsOnly code c; rw [h]
@[simp] theorem State.capture_ord (s : State) (code : Nat) (c : CapInfo) : (s.capture code c).ord = s.ord := by
  obtain ⟨r, h⟩ := s.capture_regsOnly code c; rw [h]
@[simp] theorem State.capture_fold (s : State) (code : Nat) (c : CapInfo) : (s.capture code c).fold = s.fold := by
  obtain ⟨r, h⟩ := s.capture_regsOnly code c; rw [h]
@[simp] theorem State.capture_net (s : State) (code : Nat) (c : CapInfo) : (s.capture code c).net = s.net := by
  obtain ⟨r, h⟩ := s.capture_regsOnly code c; rw [h]
@[simp] theorem State.capture_cad (s : State) (code : Nat) (c : CapInfo) : (s.capture code c).cad = s.cad := by
  obtain ⟨r, h⟩ := s.capture_regsOnly code c; rw [h]
@[simp] theorem State.capture_stat (s : State) (code : Nat) (c : CapInfo) : (s.capture code c).stat = s.stat := by
  obtain ⟨r, h⟩ := s.capture_regsOnly code c; rw [h]
@[simp] theorem State.capture_twin (s : State) (code : Nat) (c : CapInfo) : (s.capture code c).twin = s.twin := by
  obtain ⟨r, h⟩ := s.capture_regsOnly code c; rw [h]
@[simp] theorem State.capture_port (s : State) (code : Nat) (c : CapInfo) : (s.capture code c).port = s.port := by
  obtain ⟨r, h⟩ := s.capture_regsOnly code c; rw [h]
@[simp] theorem State.capture_ddr (s : State) (code : Nat) (c : CapInfo) : (s.capture code c).ddr = s.ddr := by
  obtain ⟨r, h⟩ := s.capture_regsOnly code c; rw [h]
@[simp] theorem State.capture_host (s : State) (code : Nat) (c : CapInfo) : (s.capture code c).host = s.host := by
  obtain ⟨r, h⟩ := s.capture_regsOnly code c; rw [h]
@[simp] theorem State.capture_recd (s : State) (code : Nat) (c : CapInfo) : (s.capture code c).recd = s.recd := by
  obtain ⟨r, h⟩ := s.capture_regsOnly code c; rw [h]
@[simp] theorem State.capture_pwr (s : State) (code : Nat) (c : CapInfo) : (s.capture code c).pwr = s.pwr := by
  obtain ⟨r, h⟩ := s.capture_regsOnly code c; rw [h]
@[simp] theorem State.capture_xbar (s : State) (code : Nat) (c : CapInfo) : (s.capture code c).xbar = s.xbar := by
  obtain ⟨r, h⟩ := s.capture_regsOnly code c; rw [h]
@[simp] theorem State.capture_svc (s : State) (code : Nat) (c : CapInfo) : (s.capture code c).svc = s.svc := by
  obtain ⟨r, h⟩ := s.capture_regsOnly code c; rw [h]
@[simp] theorem State.capture_tap (s : State) (code : Nat) (c : CapInfo) : (s.capture code c).tap = s.tap := by
  obtain ⟨r, h⟩ := s.capture_regsOnly code c; rw [h]
@[simp] theorem State.capture_cyc (s : State) (code : Nat) (c : CapInfo) : (s.capture code c).cyc = s.cyc := by
  obtain ⟨r, h⟩ := s.capture_regsOnly code c; rw [h]
@[simp] theorem State.capture_ticks (s : State) (code : Nat) (c : CapInfo) : (s.capture code c).ticks = s.ticks := by
  obtain ⟨r, h⟩ := s.capture_regsOnly code c; rw [h]
@[simp] theorem State.capture_out (s : State) (code : Nat) (c : CapInfo) : (s.capture code c).out = s.out := by
  obtain ⟨r, h⟩ := s.capture_regsOnly code c; rw [h]
@[simp] theorem State.capture_freeCtr (s : State) (code : Nat) (c : CapInfo) : (s.capture code c).freeCtr = s.freeCtr := by
  obtain ⟨r, h⟩ := s.capture_regsOnly code c; rw [h]
@[simp] theorem State.capture_pending (s : State) (code : Nat) (c : CapInfo) : (s.capture code c).pending = s.pending := by
  obtain ⟨r, h⟩ := s.capture_regsOnly code c; rw [h]

@[simp] theorem State.raiseCap_boot (s : State) (code src : Nat) (ps : List Nat) (c : CapInfo) : (s.raiseCap code src ps c).boot = s.boot := by
  simp [State.raiseCap]
@[simp] theorem State.raiseCap_commits (s : State) (code src : Nat) (ps : List Nat) (c : CapInfo) : (s.raiseCap code src ps c).commits = s.commits := by
  simp [State.raiseCap]
@[simp] theorem State.raiseCap_vme (s : State) (code src : Nat) (ps : List Nat) (c : CapInfo) : (s.raiseCap code src ps c).vme = s.vme := by
  simp [State.raiseCap]
@[simp] theorem State.raiseCap_vin (s : State) (code src : Nat) (ps : List Nat) (c : CapInfo) : (s.raiseCap code src ps c).vin = s.vin := by
  simp [State.raiseCap]
@[simp] theorem State.raiseCap_drv (s : State) (code src : Nat) (ps : List Nat) (c : CapInfo) : (s.raiseCap code src ps c).drv = s.drv := by
  simp [State.raiseCap]
@[simp] theorem State.raiseCap_ord (s : State) (code src : Nat) (ps : List Nat) (c : CapInfo) : (s.raiseCap code src ps c).ord = s.ord := by
  simp [State.raiseCap]
@[simp] theorem State.raiseCap_fold (s : State) (code src : Nat) (ps : List Nat) (c : CapInfo) : (s.raiseCap code src ps c).fold = s.fold := by
  simp [State.raiseCap]
@[simp] theorem State.raiseCap_net (s : State) (code src : Nat) (ps : List Nat) (c : CapInfo) : (s.raiseCap code src ps c).net = s.net := by
  simp [State.raiseCap]
@[simp] theorem State.raiseCap_cad (s : State) (code src : Nat) (ps : List Nat) (c : CapInfo) : (s.raiseCap code src ps c).cad = s.cad := by
  simp [State.raiseCap]
@[simp] theorem State.raiseCap_stat (s : State) (code src : Nat) (ps : List Nat) (c : CapInfo) : (s.raiseCap code src ps c).stat = s.stat := by
  simp [State.raiseCap]
@[simp] theorem State.raiseCap_twin (s : State) (code src : Nat) (ps : List Nat) (c : CapInfo) : (s.raiseCap code src ps c).twin = s.twin := by
  simp [State.raiseCap]
@[simp] theorem State.raiseCap_port (s : State) (code src : Nat) (ps : List Nat) (c : CapInfo) : (s.raiseCap code src ps c).port = s.port := by
  simp [State.raiseCap]
@[simp] theorem State.raiseCap_ddr (s : State) (code src : Nat) (ps : List Nat) (c : CapInfo) : (s.raiseCap code src ps c).ddr = s.ddr := by
  simp [State.raiseCap]
@[simp] theorem State.raiseCap_host (s : State) (code src : Nat) (ps : List Nat) (c : CapInfo) : (s.raiseCap code src ps c).host = s.host := by
  simp [State.raiseCap]
@[simp] theorem State.raiseCap_recd (s : State) (code src : Nat) (ps : List Nat) (c : CapInfo) : (s.raiseCap code src ps c).recd = s.recd := by
  simp [State.raiseCap]
@[simp] theorem State.raiseCap_pwr (s : State) (code src : Nat) (ps : List Nat) (c : CapInfo) : (s.raiseCap code src ps c).pwr = s.pwr := by
  simp [State.raiseCap]
@[simp] theorem State.raiseCap_xbar (s : State) (code src : Nat) (ps : List Nat) (c : CapInfo) : (s.raiseCap code src ps c).xbar = s.xbar := by
  simp [State.raiseCap]
@[simp] theorem State.raiseCap_svc (s : State) (code src : Nat) (ps : List Nat) (c : CapInfo) : (s.raiseCap code src ps c).svc = s.svc := by
  simp [State.raiseCap]
@[simp] theorem State.raiseCap_tap (s : State) (code src : Nat) (ps : List Nat) (c : CapInfo) : (s.raiseCap code src ps c).tap = s.tap := by
  simp [State.raiseCap]
@[simp] theorem State.raiseCap_cyc (s : State) (code src : Nat) (ps : List Nat) (c : CapInfo) : (s.raiseCap code src ps c).cyc = s.cyc := by
  simp [State.raiseCap]
@[simp] theorem State.raiseCap_ticks (s : State) (code src : Nat) (ps : List Nat) (c : CapInfo) : (s.raiseCap code src ps c).ticks = s.ticks := by
  simp [State.raiseCap]
@[simp] theorem State.raiseCap_out (s : State) (code src : Nat) (ps : List Nat) (c : CapInfo) : (s.raiseCap code src ps c).out = s.out := by
  simp [State.raiseCap]
@[simp] theorem State.raiseCap_freeCtr (s : State) (code src : Nat) (ps : List Nat) (c : CapInfo) : (s.raiseCap code src ps c).freeCtr = s.freeCtr := by
  simp [State.raiseCap]
@[simp] theorem State.raiseCap_pending (s : State) (code src : Nat) (ps : List Nat) (c : CapInfo) : (s.raiseCap code src ps c).pending = s.pending := by
  simp [State.raiseCap]

end Sys2Proof.Machine
end

