-- ==== Sys2Proof/Laws/Frame.lean ====
section
/-! SUPPORT. Frames: what `Only` and `RegsBut` say of updates put after one another. -/

namespace Sys2Proof.Machine

variable {s t u : State} {ps : List Area} {ks : List Nat}

/-! ### Only the units listed change -/

theorem State.Only.refl (s : State) (ps : List Area) : s.Only s ps where
  same p _ := by cases p <;> rfl
  queue := rfl

theorem State.Only.trans (h : s.Only t ps) (k : t.Only u ps) : s.Only u ps where
  same p hp := by
    have a := h.same p hp
    have b := k.same p hp
    cases p <;> exact Eq.trans b a
  queue := k.queue.trans h.queue

theorem State.Only.mono {qs : List Area} (h : s.Only t ps) (hq : ∀ p, p ∈ ps → p ∈ qs) : s.Only t qs where
  same p hp := h.same p (fun hm => hp (hq p hm))
  queue := h.queue

theorem State.Only.regs (h : s.Only t ps) (x) (hp : .regs ∈ ps) : s.Only { t with regs := x } ps :=
  h.trans ⟨fun p hq => by cases p <;> first | rfl | exact absurd hp hq, rfl⟩

theorem State.Only.setReg (h : s.Only t ps) (k : Nat) (v : Word) (hp : .regs ∈ ps) : s.Only (t.setReg k v) ps :=
  h.trans ⟨fun p hq => by cases p <;> first | rfl | exact absurd hp hq, rfl⟩

theorem State.Only.setShd (h : s.Only t ps) (k : Nat) (v : Word) (hp : .regs ∈ ps) : s.Only (t.setShd k v) ps :=
  h.trans ⟨fun p hq => by cases p <;> first | rfl | exact absurd hp hq, rfl⟩

theorem State.Only.wr (h : s.Only t ps) (f : Fld) (v : Nat) (hp : .regs ∈ ps) : s.Only (t.wr f v) ps := h.setReg _ _ hp

theorem State.Only.wrB (h : s.Only t ps) (f : Fld) (b : Bool) (hp : .regs ∈ ps) : s.Only (t.wrB f b) ps := h.setReg _ _ hp

theorem State.Only.bumpF (h : s.Only t ps) (f : Fld) (n : Nat) (hp : .regs ∈ ps) : s.Only (t.bumpF f n) ps := h.setReg _ _ hp

theorem State.Only.bumpN (h : s.Only t ps) (k n : Nat) (hp : .regs ∈ ps) (hq : .stat ∈ ps) : s.Only (t.bumpN k n) ps :=
  h.trans ⟨fun p hr => by cases p <;> first | exact absurd hp hr | exact absurd hq hr | simp [State.same], by simp⟩

theorem State.Only.bump (h : s.Only t ps) (k : Nat) (hp : .regs ∈ ps) (hq : .stat ∈ ps) : s.Only (t.bump k) ps := h.bumpN _ _ hp hq

theorem State.Only.capture (h : s.Only t ps) (code : Nat) (c : CapInfo) (hp : .regs ∈ ps) : s.Only (t.capture code c) ps :=
  h.trans ⟨fun p hr => by cases p <;> first | exact absurd hp hr | simp [State.same], by simp⟩

theorem State.Only.flt (h : s.Only t ps) (x) (hp : .flt ∈ ps) : s.Only { t with flt := x } ps :=
  h.trans ⟨fun p hq => by cases p <;> first | rfl | exact absurd hp hq, rfl⟩

theorem State.Only.boot (h : s.Only t ps) (x) (hp : .boot ∈ ps) : s.Only { t with boot := x } ps :=
  h.trans ⟨fun p hq => by cases p <;> first | rfl | exact absurd hp hq, rfl⟩

theorem State.Only.commits (h : s.Only t ps) (x) (hp : .commits ∈ ps) : s.Only { t with commits := x } ps :=
  h.trans ⟨fun p hq => by cases p <;> first | rfl | exact absurd hp hq, rfl⟩

theorem State.Only.vme (h : s.Only t ps) (x) (hp : .vme ∈ ps) : s.Only { t with vme := x } ps :=
  h.trans ⟨fun p hq => by cases p <;> first | rfl | exact absurd hp hq, rfl⟩

theorem State.Only.vin (h : s.Only t ps) (x) (hp : .vin ∈ ps) : s.Only { t with vin := x } ps :=
  h.trans ⟨fun p hq => by cases p <;> first | rfl | exact absurd hp hq, rfl⟩

theorem State.Only.drv (h : s.Only t ps) (x) (hp : .drv ∈ ps) : s.Only { t with drv := x } ps :=
  h.trans ⟨fun p hq => by cases p <;> first | rfl | exact absurd hp hq, rfl⟩

theorem State.Only.ord (h : s.Only t ps) (x) (hp : .ord ∈ ps) : s.Only { t with ord := x } ps :=
  h.trans ⟨fun p hq => by cases p <;> first | rfl | exact absurd hp hq, rfl⟩

theorem State.Only.fold (h : s.Only t ps) (x) (hp : .fold ∈ ps) : s.Only { t with fold := x } ps :=
  h.trans ⟨fun p hq => by cases p <;> first | rfl | exact absurd hp hq, rfl⟩

theorem State.Only.net (h : s.Only t ps) (x) (hp : .net ∈ ps) : s.Only { t with net := x } ps :=
  h.trans ⟨fun p hq => by cases p <;> first | rfl | exact absurd hp hq, rfl⟩

theorem State.Only.cad (h : s.Only t ps) (x) (hp : .cad ∈ ps) : s.Only { t with cad := x } ps :=
  h.trans ⟨fun p hq => by cases p <;> first | rfl | exact absurd hp hq, rfl⟩

theorem State.Only.stat (h : s.Only t ps) (x) (hp : .stat ∈ ps) : s.Only { t with stat := x } ps :=
  h.trans ⟨fun p hq => by cases p <;> first | rfl | exact absurd hp hq, rfl⟩

theorem State.Only.twin (h : s.Only t ps) (x) (hp : .twin ∈ ps) : s.Only { t with twin := x } ps :=
  h.trans ⟨fun p hq => by cases p <;> first | rfl | exact absurd hp hq, rfl⟩

theorem State.Only.port (h : s.Only t ps) (x) (hp : .port ∈ ps) : s.Only { t with port := x } ps :=
  h.trans ⟨fun p hq => by cases p <;> first | rfl | exact absurd hp hq, rfl⟩

theorem State.Only.ddr (h : s.Only t ps) (x) (hp : .ddr ∈ ps) : s.Only { t with ddr := x } ps :=
  h.trans ⟨fun p hq => by cases p <;> first | rfl | exact absurd hp hq, rfl⟩

theorem State.Only.host (h : s.Only t ps) (x) (hp : .host ∈ ps) : s.Only { t with host := x } ps :=
  h.trans ⟨fun p hq => by cases p <;> first | rfl | exact absurd hp hq, rfl⟩

theorem State.Only.recd (h : s.Only t ps) (x) (hp : .recd ∈ ps) : s.Only { t with recd := x } ps :=
  h.trans ⟨fun p hq => by cases p <;> first | rfl | exact absurd hp hq, rfl⟩

theorem State.Only.pwr (h : s.Only t ps) (x) (hp : .pwr ∈ ps) : s.Only { t with pwr := x } ps :=
  h.trans ⟨fun p hq => by cases p <;> first | rfl | exact absurd hp hq, rfl⟩

theorem State.Only.xbar (h : s.Only t ps) (x) (hp : .xbar ∈ ps) : s.Only { t with xbar := x } ps :=
  h.trans ⟨fun p hq => by cases p <;> first | rfl | exact absurd hp hq, rfl⟩

theorem State.Only.svc (h : s.Only t ps) (x) (hp : .svc ∈ ps) : s.Only { t with svc := x } ps :=
  h.trans ⟨fun p hq => by cases p <;> first | rfl | exact absurd hp hq, rfl⟩

theorem State.Only.tap (h : s.Only t ps) (x) (hp : .tap ∈ ps) : s.Only { t with tap := x } ps :=
  h.trans ⟨fun p hq => by cases p <;> first | rfl | exact absurd hp hq, rfl⟩

theorem State.Only.cyc (h : s.Only t ps) (x) (hp : .cyc ∈ ps) : s.Only { t with cyc := x } ps :=
  h.trans ⟨fun p hq => by cases p <;> first | rfl | exact absurd hp hq, rfl⟩

theorem State.Only.ticks (h : s.Only t ps) (x) (hp : .ticks ∈ ps) : s.Only { t with ticks := x } ps :=
  h.trans ⟨fun p hq => by cases p <;> first | rfl | exact absurd hp hq, rfl⟩

theorem State.Only.out (h : s.Only t ps) (x) (hp : .out ∈ ps) : s.Only { t with out := x } ps :=
  h.trans ⟨fun p hq => by cases p <;> first | rfl | exact absurd hp hq, rfl⟩

theorem State.Only.freeCtr (h : s.Only t ps) (x) (hp : .freeCtr ∈ ps) : s.Only { t with freeCtr := x } ps :=
  h.trans ⟨fun p hq => by cases p <;> first | rfl | exact absurd hp hq, rfl⟩

theorem State.Only.raise (h : s.Only t ps) (code src : Nat) (l : List Nat) (hp : .flt ∈ ps) : s.Only (t.raise code src l) ps :=
  h.flt _ hp

theorem State.Only.raiseCap (h : s.Only t ps) (code src : Nat) (l : List Nat) (c : CapInfo) (hp : .regs ∈ ps) (hq : .flt ∈ ps) :
    s.Only (t.raiseCap code src l c) ps := (h.capture code c hp).flt _ hq

theorem State.Only.emit (h : s.Only t ps) (o : Out) (hp : .out ∈ ps) : s.Only (t.emit o) ps := h.out _ hp

theorem State.Only.statAdd (h : s.Only t ps) (off n : Nat) (hp : .stat ∈ ps) : s.Only (t.statAdd off n) ps := h.stat _ hp

/-- The bit of the mask of `Keep` that stands for a unit. -/
def Area.idx : Area → Nat
  | .regs => 0
  | .flt => 1
  | .boot => 2
  | .commits => 3
  | .vme => 4
  | .vin => 5
  | .drv => 6
  | .ord => 7
  | .fold => 8
  | .net => 9
  | .cad => 10
  | .stat => 11
  | .twin => 12
  | .port => 13
  | .ddr => 14
  | .host => 15
  | .recd => 16
  | .pwr => 17
  | .xbar => 18
  | .svc => 19
  | .tap => 20
  | .cyc => 21
  | .ticks => 22
  | .out => 23
  | .freeCtr => 24

/-- An operation of footprint `m` changes only the units whose bits `m` has. -/
theorem Keep.only {m : Nat} (h : Keep m s t) (ps : List Area)
    (hp : ([.regs, .flt, .boot, .commits, .vme, .vin, .drv, .ord, .fold, .net, .cad, .stat, .twin, .port, .ddr, .host, .recd, .pwr,
      .xbar, .svc, .tap, .cyc, .ticks, .out, .freeCtr] : List Area).all (fun p => !m.testBit p.idx || ps.contains p) = true) :
    s.Only t ps where
  same p hn := by
    have key : ∀ q : Area, m.testBit q.idx = true → q ∈ ps := by
      intro q hq
      rw [List.all_eq_true] at hp
      have := hp q (by cases q <;> simp)
      simpa [hq] using this
    have hb : m.testBit p.idx = false := by
      cases hx : m.testBit p.idx
      · rfl
      · exact absurd (key p hx) hn
    cases p
    · exact h.regs hb
    · exact h.flt hb
    · exact h.boot hb
    · exact h.commits hb
    · exact h.vme hb
    · exact h.vin hb
    · exact h.drv hb
    · exact h.ord hb
    · exact h.fold hb
    · exact h.net hb
    · exact h.cad hb
    · exact h.stat hb
    · exact h.twin hb
    · exact h.port hb
    · exact h.ddr hb
    · exact h.host hb
    · exact h.recd hb
    · exact h.pwr hb
    · exact h.xbar hb
    · exact h.svc hb
    · exact h.tap hb
    · exact h.cyc hb
    · exact h.ticks hb
    · exact h.out hb
    · exact h.freeCtr hb
  queue := h.queue

/-! ### Only the registers listed change -/

theorem State.RegsBut.of_regs (h : t.regs = s.regs) : s.RegsBut t ks where
  reg k _ := by simp [State.reg, h]
  shd k _ := by simp [State.shd, h]
  latch := by rw [h]
  held := by rw [h]
  refused := by rw [h]

theorem State.RegsBut.refl (s : State) (ks : List Nat) : s.RegsBut s ks := .of_regs rfl

theorem State.RegsBut.trans (h : s.RegsBut t ks) (k : t.RegsBut u ks) : s.RegsBut u ks where
  reg j hj := (k.reg j hj).trans (h.reg j hj)
  shd j hj := (k.shd j hj).trans (h.shd j hj)
  latch := k.latch.trans h.latch
  held := k.held.trans h.held
  refused := k.refused.trans h.refused

theorem State.RegsBut.congr (h : s.RegsBut t ks) (e : u.regs = t.regs) : s.RegsBut u ks := h.trans (.of_regs e)

theorem State.RegsBut.mono {js : List Nat} (h : s.RegsBut t ks) (hq : ∀ k, k ∈ ks → k ∈ js) : s.RegsBut t js where
  reg k hk := h.reg k (fun hm => hk (hq k hm))
  shd k hk := h.shd k (fun hm => hk (hq k hm))
  latch := h.latch
  held := h.held
  refused := h.refused

theorem State.RegsBut.setReg (h : s.RegsBut t ks) (k : Nat) (v : Word) (hk : k ∈ ks) : s.RegsBut (t.setReg k v) ks where
  reg j hj := by
    have : j ≠ k := fun e => hj (e ▸ hk)
    simp [this, h.reg j hj]
  shd := h.shd
  latch := h.latch
  held := h.held
  refused := h.refused

theorem State.RegsBut.setShd (h : s.RegsBut t ks) (k : Nat) (v : Word) (hk : k ∈ ks) : s.RegsBut (t.setShd k v) ks where
  reg := h.reg
  shd j hj := by
    have : j ≠ k := fun e => hj (e ▸ hk)
    have e := h.shd j hj
    simp only [State.shd] at e
    simp [State.shd, State.setShd, this, e]
  latch := h.latch
  held := h.held
  refused := h.refused

theorem State.RegsBut.wr (h : s.RegsBut t ks) (f : Fld) (v : Nat) (hk : f.key ∈ ks) : s.RegsBut (t.wr f v) ks :=
  h.setReg _ _ hk

theorem State.RegsBut.wrB (h : s.RegsBut t ks) (f : Fld) (b : Bool) (hk : f.key ∈ ks) : s.RegsBut (t.wrB f b) ks :=
  h.setReg _ _ hk

theorem State.RegsBut.bumpF (h : s.RegsBut t ks) (f : Fld) (n : Nat) (hk : f.key ∈ ks) : s.RegsBut (t.bumpF f n) ks :=
  h.setReg _ _ hk

theorem State.RegsBut.bumpN (h : s.RegsBut t ks) (k n : Nat) (hk : k ∈ ks) : s.RegsBut (t.bumpN k n) ks := by
  refine (h.setReg k (BitVec.ofNat 32 (satAdd 32 (t.reg k).toNat n)) hk).congr ?_
  simp only [State.bumpN]
  split <;> rfl

theorem State.RegsBut.bump (h : s.RegsBut t ks) (k : Nat) (hk : k ∈ ks) : s.RegsBut (t.bump k) ks := h.bumpN k 1 hk

theorem State.RegsBut.capture (h : s.RegsBut t ks) (code : Nat) (c : CapInfo)
    (hk : ∀ k ∈ capRegs c.unit, k ∈ ks) :
    s.RegsBut (t.capture code c) ks := by
  have h' := h
  unfold State.capture
  split
  · exact h.bumpF _ _ (hk _ (by simp [capRegs, F.FLT_CAP_STAT_OVF]))
  · extract_lets
    refine State.RegsBut.setReg (.wr (.wr (.setReg (.wr (.wr (.wr (.wr (.wr (.wr (.setReg (.setReg (.wr (.wr h _ _ ?_) _ _ ?_) _ _ ?_) _ _ ?_)
      _ _ ?_) _ _ ?_) _ _ ?_) _ _ ?_) _ _ ?_) _ _ ?_) _ _ ?_) _ _ ?_) _ _ ?_) _ _ ?_ <;> exact hk _ (by simp [capRegs, F.FLT_CAP_STAT_VALID, F.FLT_CAP_STAT_CODE, F.FLT_CAP_MASTER_NODE, F.FLT_CAP_MASTER_AGENT, F.FLT_CAP_ACCESS_OP, F.FLT_CAP_ACCESS_LENM1, F.FLT_CAP_ACCESS_CLASS, F.FLT_CAP_ACCESS_AM, F.FLT_CAP_FRM_FRAMELO, F.FLT_CAP_FRM_CYC_HI])

theorem State.RegsBut.raiseCap (h : s.RegsBut t ks) (code src : Nat) (ps : List Nat) (c : CapInfo)
    (hk : ∀ k ∈ capRegs c.unit, k ∈ ks) : s.RegsBut (t.raiseCap code src ps c) ks :=
  (h.capture code c hk).congr rfl

end Sys2Proof.Machine
end

