-- ==== Sys2Proof/Laws/Landing.lean ====
section
/-! SUPPORT. What a write of one register leaves in its fields (R4, R7 to R9): field by field, then for a whole register. -/

namespace Sys2Proof.Machine

/-- Two fields of a row share no bit. -/
def FieldRow.apart (f g : FieldRow) : Bool := decide (f.hi < g.lo ∨ g.hi < f.lo)

/-- The fields of a row lie in the register and share no bit. -/
def fieldsOk (fs : List FieldRow) : Bool :=
  fs.all (fun f => decide (f.lo ≤ f.hi ∧ f.hi < 32)) && decide (fs.Pairwise (fun f g => f.apart g = true))

theorem toNat_testBit_lt (w : Word) (i : Nat) (h : 32 ≤ i) : w.toNat.testBit i = false := by
  apply Nat.testBit_lt_two_pow
  exact Nat.lt_of_lt_of_le w.isLt (Nat.pow_le_pow_right (by decide) h)

theorem testBit_and_not (a b : Word) (i : Nat) : (a &&& ~~~b).toNat.testBit i = (a.toNat.testBit i && !b.toNat.testBit i) := by
  by_cases h : i < 32
  · simp only [BitVec.testBit_toNat, BitVec.getLsbD_and, BitVec.getLsbD_not, h, decide_true, Bool.true_and]
  · rw [toNat_testBit_lt _ _ (by omega), toNat_testBit_lt a _ (by omega)]; rfl

theorem bitsOf_and_not_other (w : Word) (hi lo v h l : Nat) (hl : lo ≤ hi) (hh : hi < 32) (ho : h < lo ∨ hi < l) (hlh : l ≤ h) :
    bitsOf (w &&& ~~~(setBits 0 hi lo v)) h l = bitsOf w h l := by
  apply Nat.eq_of_testBit_eq
  intro i
  simp only [testBit_bitsOf, testBit_and_not]
  by_cases hi' : i < h - l + 1
  · rw [testBit_setBits (0 : Word) hi lo v (l + i) hl hh (by omega)]; simp
  · simp [hi']

/-- Writing one field of a row leaves every field apart from it. -/
theorem Landing.field_other (halted staged : Bool) (v : Word) (l : Landing) (f g : FieldRow) (hf : f.lo ≤ f.hi ∧ f.hi < 32)
    (hg : g.lo ≤ g.hi) (ha : f.apart g = true) :
    bitsOf (Landing.field halted staged v l f).eff g.hi g.lo = bitsOf l.eff g.hi g.lo := by
  have ho : g.hi < f.lo ∨ f.hi < g.lo := by simp only [FieldRow.apart, decide_eq_true_eq] at ha; omega
  have e1 := fun x => bitsOf_setBits_other l.eff f.hi f.lo x g.hi g.lo hf.1 hf.2 ho hg
  have e2 := fun x => bitsOf_and_not_other l.eff f.hi f.lo x g.hi g.lo hf.1 hf.2 ho hg
  unfold Landing.field
  dsimp only
  repeat' split
  all_goals first | rfl | exact e1 _ | exact e2 _

theorem Landing.foldl_other (halted staged : Bool) (v : Word) (g : FieldRow) (hg : g.lo ≤ g.hi) :
    ∀ (fs : List FieldRow) (l : Landing), (∀ f ∈ fs, (f.lo ≤ f.hi ∧ f.hi < 32) ∧ f.apart g = true) →
      bitsOf (fs.foldl (Landing.field halted staged v) l).eff g.hi g.lo = bitsOf l.eff g.hi g.lo
  | [], _, _ => rfl
  | f :: fs, l, h => by
    rw [List.foldl_cons, Landing.foldl_other halted staged v g hg fs _ (fun x hx => h x (List.mem_cons_of_mem _ hx))]
    exact Landing.field_other _ _ _ _ _ _ (h f (by simp)).1 hg (h f (by simp)).2

theorem FieldRow.apart_symm (f g : FieldRow) (h : f.apart g = true) : g.apart f = true := by
  simp only [FieldRow.apart, decide_eq_true_eq] at *; omega

/-- Field `f` of the row after all fields have been written: what the write of that field alone leaves in it, from a word that
agrees on the field. -/
theorem Landing.foldl_field (halted staged : Bool) (v : Word) (f : FieldRow) :
    ∀ (fs : List FieldRow) (l : Landing), fieldsOk fs = true → f ∈ fs →
      ∃ l' : Landing, bitsOf l'.eff f.hi f.lo = bitsOf l.eff f.hi f.lo ∧
        bitsOf (fs.foldl (Landing.field halted staged v) l).eff f.hi f.lo = bitsOf (Landing.field halted staged v l' f).eff f.hi f.lo
  | [], _, _, h => by simp at h
  | g :: fs, l, hok, hm => by
    have hok' : fieldsOk fs = true := by
      simp only [fieldsOk, Bool.and_eq_true, List.all_cons, List.pairwise_cons, decide_eq_true_eq] at hok ⊢
      exact ⟨hok.1.2, hok.2.2⟩
    have hg : g.lo ≤ g.hi ∧ g.hi < 32 := by
      simp only [fieldsOk, Bool.and_eq_true, List.all_cons, decide_eq_true_eq] at hok
      exact hok.1.1
    have hall : ∀ x ∈ fs, (x.lo ≤ x.hi ∧ x.hi < 32) ∧ g.apart x = true := by
      intro x hx
      simp only [fieldsOk, Bool.and_eq_true, List.all_cons, List.pairwise_cons, decide_eq_true_eq, List.all_eq_true] at hok
      exact ⟨hok.1.2 x hx, hok.2.1 x hx⟩
    by_cases hfg : f = g
    · subst hfg
      refine ⟨l, rfl, ?_⟩
      rw [List.foldl_cons]
      exact Landing.foldl_other _ _ _ f hg.1 fs _ (fun x hx => ⟨(hall x hx).1, FieldRow.apart_symm _ _ (hall x hx).2⟩)
    · have hm' : f ∈ fs := by
        rcases List.mem_cons.mp hm with h | h
        · exact absurd h hfg
        · exact h
      have hf := hall f hm'
      have step : bitsOf (Landing.field halted staged v l g).eff f.hi f.lo = bitsOf l.eff f.hi f.lo :=
        Landing.field_other _ _ _ _ _ _ hg hf.1.1 hf.2
      obtain ⟨l', h1, h2⟩ := Landing.foldl_field halted staged v f fs (Landing.field halted staged v l g) hok' hm'
      exact ⟨l', h1.trans step, h2⟩

/-- A LIVE field takes the value written where R9 accepts it. -/
theorem Landing.foldl_live (halted staged : Bool) (v : Word) (f : FieldRow) (fs : List FieldRow) (l : Landing)
    (hok : fieldsOk fs = true) (hm : f ∈ fs) (ha : f.acc = .rw) (hc : f.cls = .live)
    (hv : f.min ≤ bitsOf v f.hi f.lo ∧ bitsOf v f.hi f.lo ≤ f.max) :
    bitsOf (fs.foldl (Landing.field halted staged v) l).eff f.hi f.lo = bitsOf v f.hi f.lo := by
  have hw : f.lo ≤ f.hi ∧ f.hi < 32 := by
    simp only [fieldsOk, Bool.and_eq_true, List.all_eq_true, decide_eq_true_eq] at hok
    exact hok.1 f hm
  have one : ∀ l' : Landing, bitsOf (Landing.field halted staged v l' f).eff f.hi f.lo = bitsOf v f.hi f.lo := by
    intro l'
    unfold Landing.field
    simp only [ha, hc]
    by_cases e : bitsOf v f.hi f.lo = bitsOf l'.eff f.hi f.lo
    · rw [if_pos e]; exact e.symm
    · rw [if_neg e, if_pos (by simpa using hv)]
      simp only [bitsOf_setBits _ _ _ _ hw.1 hw.2]
      exact Nat.mod_eq_of_lt (bitsOf_lt _ _ _)
  obtain ⟨l', _, h⟩ := Landing.foldl_field halted staged v f fs l hok hm
  rw [h, one]

/-- A STATIC field takes the value written while its group is halted, where R9 accepts it. -/
theorem Landing.foldl_static (staged : Bool) (v : Word) (f : FieldRow) (fs : List FieldRow) (l : Landing)
    (hok : fieldsOk fs = true) (hm : f ∈ fs) (ha : f.acc = .rw) (hc : f.cls = .static)
    (hv : f.min ≤ bitsOf v f.hi f.lo ∧ bitsOf v f.hi f.lo ≤ f.max) :
    bitsOf (fs.foldl (Landing.field true staged v) l).eff f.hi f.lo = bitsOf v f.hi f.lo := by
  have hw : f.lo ≤ f.hi ∧ f.hi < 32 := by
    simp only [fieldsOk, Bool.and_eq_true, List.all_eq_true, decide_eq_true_eq] at hok
    exact hok.1 f hm
  have one : ∀ l' : Landing, bitsOf (Landing.field true staged v l' f).eff f.hi f.lo = bitsOf v f.hi f.lo := by
    intro l'
    unfold Landing.field
    simp only [ha, hc]
    by_cases e : bitsOf v f.hi f.lo = bitsOf l'.eff f.hi f.lo
    · rw [if_pos e]; exact e.symm
    · rw [if_neg e, if_neg (by simpa using hv), if_pos trivial]
      simp only [bitsOf_setBits _ _ _ _ hw.1 hw.2]
      exact Nat.mod_eq_of_lt (bitsOf_lt _ _ _)
  obtain ⟨l', _, h⟩ := Landing.foldl_field true staged v f fs l hok hm
  rw [h, one]

/-- A field that a write does not land in keeps its value. -/
theorem Landing.foldl_keep (halted staged : Bool) (v : Word) (f : FieldRow) (fs : List FieldRow) (l : Landing)
    (hok : fieldsOk fs = true) (hm : f ∈ fs)
    (ha : f.acc = .ro ∨ f.acc = .wo ∨ f.acc = .rc ∨ (f.acc = .rw ∧ (f.cls = .staged ∨ bitsOf v f.hi f.lo = bitsOf l.eff f.hi f.lo))) :
    bitsOf (fs.foldl (Landing.field halted staged v) l).eff f.hi f.lo = bitsOf l.eff f.hi f.lo := by
  have one : ∀ l' : Landing, bitsOf l'.eff f.hi f.lo = bitsOf l.eff f.hi f.lo →
      bitsOf (Landing.field halted staged v l' f).eff f.hi f.lo = bitsOf l.eff f.hi f.lo := by
    intro l' e
    unfold Landing.field
    dsimp only
    rcases ha with h | h | h | ⟨h, c⟩
    · simp only [h]; exact e
    · simp only [h]; exact e
    · simp only [h]; exact e
    · rcases c with c | c
      · simp only [h, c]
        repeat' split
        all_goals exact e
      · rw [← e] at c
        simp only [h, c]
        repeat' split
        all_goals first | exact e | simp_all
  obtain ⟨l', e, h⟩ := Landing.foldl_field halted staged v f fs l hok hm
  rw [h]
  exact one _ e

/-- No field is late where none is STATIC or the group is halted. -/
theorem Landing.foldl_late (halted staged : Bool) (v : Word) : ∀ (fs : List FieldRow) (l : Landing),
    (halted = true ∨ ∀ f ∈ fs, f.acc = .rw → f.cls ≠ .static) → (fs.foldl (Landing.field halted staged v) l).late = l.late
  | [], _, _ => rfl
  | f :: fs, l, h => by
    rw [List.foldl_cons, Landing.foldl_late halted staged v fs _ (h.imp id (fun h x hx => h x (List.mem_cons_of_mem _ hx)))]
    unfold Landing.field
    dsimp only
    repeat' split
    all_goals first | rfl | skip
    rcases h with h | h
    · simp_all
    · exact absurd ‹f.cls = .static› (h f (by simp) ‹f.acc = .rw›)

/-- No field is refused where R9 accepts every value written. -/
theorem Landing.foldl_range (halted staged : Bool) (v : Word) : ∀ (fs : List FieldRow) (l : Landing),
    (∀ f ∈ fs, f.acc = .rw → f.min ≤ bitsOf v f.hi f.lo ∧ bitsOf v f.hi f.lo ≤ f.max) →
      (fs.foldl (Landing.field halted staged v) l).range = l.range
  | [], _, _ => rfl
  | f :: fs, l, h => by
    rw [List.foldl_cons, Landing.foldl_range halted staged v fs _ (fun x hx => h x (List.mem_cons_of_mem _ hx))]
    unfold Landing.field
    dsimp only
    repeat' split
    all_goals first
      | rfl
      | (exfalso; have := h f (by simp) (by assumption); simp_all)

theorem eq_of_bitsOf (a b : Word) (h : bitsOf a 31 0 = bitsOf b 31 0) : a = b := by
  simp only [bitsOf, Nat.sub_zero, Nat.pow_zero, Nat.div_one] at h
  rw [Nat.mod_eq_of_lt a.isLt, Nat.mod_eq_of_lt b.isLt] at h
  exact BitVec.eq_of_toNat_eq h

/-- A full word of a value below 2^32. -/
theorem bitsOf_full (w : Word) : bitsOf w 31 0 = w.toNat := by
  simp only [bitsOf, Nat.sub_zero, Nat.pow_zero, Nat.div_one]
  exact Nat.mod_eq_of_lt w.isLt

/-- A word laid out as four bytes, lowest first, is itself. -/
theorem leNum_leBytes (v : Word) : BitVec.ofNat 32 (leNum (leBytes 4 v.toNat)) = v := by
  apply BitVec.eq_of_toNat_eq
  have := v.isLt
  simp [leBytes, leNum]
  omega

/-- Setting the top bit leaves every field below it. -/
theorem bitsOf_or_top (v : Word) (hi lo : Nat) (h : hi < 31) (hl : lo ≤ hi) : bitsOf (v ||| 0x80000000#32) hi lo = bitsOf v hi lo := by
  have h31 : (0x80000000#32 : Word).toNat = 2 ^ 31 := by decide
  apply Nat.eq_of_testBit_eq
  intro i
  simp only [testBit_bitsOf, BitVec.toNat_or, Nat.testBit_or, h31, Nat.testBit_two_pow]
  by_cases c : i < hi - lo + 1
  · have : ¬ 31 = lo + i := by omega
    simp [this]
  · simp [c]

theorem bitOf_or_top (v : Word) : bitOf (v ||| 0x80000000#32) 31 = true := by
  have h31 : (0x80000000#32 : Word).toNat = 2 ^ 31 := by decide
  simp only [bitOf, BitVec.toNat_or, Nat.testBit_or, h31, Nat.testBit_two_pow]
  simp

theorem bitOf_or_top_other (v : Word) (i : Nat) (h : i < 31) : bitOf (v ||| 0x80000000#32) i = bitOf v i := by
  have h31 : (0x80000000#32 : Word).toNat = 2 ^ 31 := by decide
  have : ¬ 31 = i := by omega
  simp only [bitOf, BitVec.toNat_or, Nat.testBit_or, h31, Nat.testBit_two_pow]
  simp [this]

/-! ### A whole register -/

/-- The register after the fields of `v` have landed, the rules over several fields aside. -/
def State.fieldsLand (s : State) (r : RegRow) (off k : Nat) (v : Word) : Landing :=
  r.fields.foldl (Landing.field (s.halted (haltGroup off)) true v) ⟨s.reg k, s.shd k, false, false⟩

/-- The state with the register written and nothing brought about yet. -/
def State.wrote (s : State) (r : RegRow) (off k : Nat) (v : Word) : State :=
  (s.setReg k (s.fieldsLand r off k v).eff).setShd k (s.fieldsLand r off k v).shd

/-- R9 accepts every value written to a field, and no STATIC field is written outside a halt. -/
def State.accepts (s : State) (r : RegRow) (off : Nat) (v : Word) : Prop :=
  (s.halted (haltGroup off) = true ∨ ∀ f ∈ r.fields, f.acc = .rw → f.cls ≠ .static) ∧
    ∀ f ∈ r.fields, f.acc = .rw → f.min ≤ bitsOf v f.hi f.lo ∧ bitsOf v f.hi f.lo ≤ f.max

theorem State.landing_clean (s : State) (r : RegRow) (off k : Nat) (v : Word) (ha : s.accepts r off v)
    (hx : s.crossBad off k (s.fieldsLand r off k v).eff (s.fieldsLand r off k v).shd = 0) :
    s.landing r off k v true = ⟨(s.fieldsLand r off k v).eff, (s.fieldsLand r off k v).shd, false, false⟩ := by
  have hl : (s.fieldsLand r off k v).late = false := Landing.foldl_late _ _ _ _ _ ha.1
  have hr : (s.fieldsLand r off k v).range = false := Landing.foldl_range _ _ _ _ _ ha.2
  have e : s.landing r off k v true =
      let l := s.fieldsLand r off k v
      let bad := s.crossBad off k l.eff l.shd
      let e' := (l.eff &&& ~~~bad) ||| (s.reg k &&& bad)
      let sh' := (l.shd &&& ~~~bad) ||| (s.shd k &&& bad)
      ⟨e', sh', l.range || e' != l.eff || sh' != l.shd, l.late⟩ := rfl
  have z : ∀ w : Word, w &&& 4294967295#32 = w := fun w => BitVec.and_allOnes
  rw [e]
  simp [hx, hl, hr, z]

/-- Writing to every field what it holds lands nothing. -/
theorem Landing.foldl_same (halted staged : Bool) (v : Word) : ∀ (fs : List FieldRow) (l : Landing),
    (∀ f ∈ fs, f.acc ≠ .w1c ∧ (f.acc = .rw → f.cls ≠ .staged ∧ bitsOf v f.hi f.lo = bitsOf l.eff f.hi f.lo)) →
      fs.foldl (Landing.field halted staged v) l = l
  | [], _, _ => rfl
  | f :: fs, l, h => by
    have h1 : Landing.field halted staged v l f = l := by
      have := h f (by simp)
      unfold Landing.field
      dsimp only
      repeat' split
      all_goals first | rfl | simp_all
    rw [List.foldl_cons, h1]
    exact Landing.foldl_same halted staged v fs l (fun x hx => h x (List.mem_cons_of_mem _ hx))

/-- Such a write is neither late nor refused, whatever the rules over several fields say. -/
theorem State.landing_same (s : State) (r : RegRow) (off k : Nat) (v : Word)
    (h : ∀ f ∈ r.fields, f.acc ≠ .w1c ∧ (f.acc = .rw → f.cls ≠ .staged ∧ bitsOf v f.hi f.lo = bitsOf (s.reg k) f.hi f.lo)) :
    s.fieldsLand r off k v = ⟨s.reg k, s.shd k, false, false⟩ ∧
    s.landing r off k v true = ⟨(s.fieldsLand r off k v).eff, (s.fieldsLand r off k v).shd, false, false⟩ := by
  have hl : s.fieldsLand r off k v = ⟨s.reg k, s.shd k, false, false⟩ := Landing.foldl_same _ _ _ _ _ h
  refine ⟨hl, ?_⟩
  have e : s.landing r off k v true =
      let l := s.fieldsLand r off k v
      let bad := s.crossBad off k l.eff l.shd
      let e' := (l.eff &&& ~~~bad) ||| (s.reg k &&& bad)
      let sh' := (l.shd &&& ~~~bad) ||| (s.shd k &&& bad)
      ⟨e', sh', l.range || e' != l.eff || sh' != l.shd, l.late⟩ := rfl
  have z : ∀ w b : Word, (w &&& ~~~b) ||| (w &&& b) = w := by
    intro w b
    ext i
    simp only [BitVec.getElem_or, BitVec.getElem_and, BitVec.getElem_not]
    cases w[i] <;> cases b[i] <;> rfl
  rw [e, hl]
  simp [z]

theorem setReg_setShd_regs (s : State) (k : Nat) (e x : Word) (j : Nat) :
    ((s.setReg k e).setShd k x).reg j = if j = k then e else s.reg j := by simp [State.setShd, State.reg, State.setReg]

@[simp] theorem State.wrote_reg (s : State) (r : RegRow) (off k : Nat) (v : Word) (j : Nat) :
    (s.wrote r off k v).reg j = if j = k then (s.fieldsLand r off k v).eff else s.reg j := setReg_setShd_regs _ _ _ _ _

theorem State.land_live (s : State) (r : RegRow) (off k : Nat) (v : Word) (f : FieldRow) (hok : fieldsOk r.fields = true)
    (hm : f ∈ r.fields) (ha : f.acc = .rw) (hc : f.cls = .live) (hv : f.min ≤ bitsOf v f.hi f.lo ∧ bitsOf v f.hi f.lo ≤ f.max) :
    bitsOf (s.fieldsLand r off k v).eff f.hi f.lo = bitsOf v f.hi f.lo :=
  Landing.foldl_live _ _ _ _ _ _ hok hm ha hc hv

theorem bitOf_of_bitsOf (a b : Word) (i : Nat) (h : bitsOf a i i = bitsOf b i i) : bitOf a i = bitOf b i := by
  have := congrArg (fun n => n.testBit 0) h
  simp only [testBit_bitsOf] at this
  simpa only [bitOf, Nat.sub_self, Nat.zero_add, Nat.zero_lt_one, decide_true, Bool.true_and, Nat.add_zero] using this

/-- A LIVE field of the register written reads the value written. -/
theorem State.wrote_live (s : State) (r : RegRow) (off k : Nat) (v : Word) (f : FieldRow) (hok : fieldsOk r.fields = true)
    (hm : f ∈ r.fields) (ha : f.acc = .rw) (hc : f.cls = .live) (hv : f.min ≤ bitsOf v f.hi f.lo ∧ bitsOf v f.hi f.lo ≤ f.max) :
    (s.wrote r off k v).rd ⟨k, f.hi, f.lo⟩ = bitsOf v f.hi f.lo := by
  simp only [State.rd, State.wrote_reg, if_true]
  exact Landing.foldl_live _ _ _ _ _ _ hok hm ha hc hv

/-- A field of the register written in which nothing lands reads as before. -/
theorem State.wrote_keep (s : State) (r : RegRow) (off k : Nat) (v : Word) (f : FieldRow) (hok : fieldsOk r.fields = true)
    (hm : f ∈ r.fields)
    (ha : f.acc = .ro ∨ f.acc = .wo ∨ f.acc = .rc ∨
      (f.acc = .rw ∧ (f.cls = .staged ∨ bitsOf v f.hi f.lo = bitsOf (s.reg k) f.hi f.lo))) :
    (s.wrote r off k v).rd ⟨k, f.hi, f.lo⟩ = s.rd ⟨k, f.hi, f.lo⟩ := by
  simp only [State.rd, State.wrote_reg, if_true]
  exact Landing.foldl_keep _ _ _ _ _ _ hok hm ha

theorem State.wrote_other (s : State) (r : RegRow) (off k : Nat) (v : Word) (g : Fld) (h : g.key ≠ k) :
    (s.wrote r off k v).rd g = s.rd g := by
  simp [State.rd, h]

theorem State.wrote_bit_other (s : State) (r : RegRow) (off k : Nat) (v : Word) (g : Fld) (h : g.key ≠ k) :
    (s.wrote r off k v).bit g = s.bit g := by
  simp only [State.bit, State.wrote_other s r off k v g h]

theorem State.wrote_regsBut (s : State) (r : RegRow) (off k : Nat) (v : Word) (ks : List Nat) (h : k ∈ ks) :
    s.RegsBut (s.wrote r off k v) ks := ((State.RegsBut.refl s ks).setReg _ _ h).setShd _ _ h

theorem State.wrote_only (s : State) (r : RegRow) (off k : Nat) (v : Word) (ps : List Area) (h : .regs ∈ ps) :
    s.Only (s.wrote r off k v) ps := ((State.Only.refl s ps).setReg _ _ h).setShd _ _ h

/-- What the write of a register at `off` brings about, `old` and `new` being its words. -/
def State.wroteAfter (t : State) (off k : Nat) (old new v : Word) : State :=
  if off < 0x3000 then t.afterLow off old new v
  else if off < 0x5000 then t.afterCore off k old new v false
  else if off < 0x7800 then t.afterEdge off old new v
  else t.afterHigh off old new v

/-- A write that is accepted whole, to a register without STAGED fields that stands once. -/
theorem State.writeReg_clean (s : State) (off node agent : Nat) (r : RegRow) (v : Word) (hr : regAt off = some r)
    (hc : s.clearWrite off off v = none) (hs : r.hasStaged = false) (ht : (off == 0x410 && s.haltRefused (bitsOf v 6 0)) = false)
    (hL : s.landing r off off v true = ⟨(s.fieldsLand r off off v).eff, (s.fieldsLand r off off v).shd, false, false⟩)
    (hst : ¬ (0x7054 ≤ off ∧ off ≤ 0x705C)) (hrl : off ≠ 0x704C) :
    (s.writeReg s none off off v node agent).st =
      (s.wrote r off off v).wroteAfter off off (s.reg off) (s.fieldsLand r off off v).eff v := by
  unfold State.writeReg
  rw [State.landing] at hL
  simp only [hr, hc, hs, Bool.false_and, Bool.not_false, hL, ht, Bool.false_eq_true, if_false,
    Bool.or_false, State.setupReport, State.stagedAfter, hst, hrl, false_and]
  rfl

/-- A write of four bytes to a register that stands once. -/
theorem State.setupWrite_four (s : State) (off : Nat) (bs : List Byte) (node agent : Nat) (r : RegRow) (hr : regAt off = some r)
    (hw : r.win.selector = none) (hl : bs.length = 4) :
    s.setupWrite off bs node agent = s.writeReg s none off off (BitVec.ofNat 32 (leNum bs)) node agent := by
  have hk : s.keyAt r off = off := by simp [State.keyAt, hw]
  have h8 : ¬ bs.length = 8 := by omega
  have htk : bs.take 4 = bs := List.take_of_length_le (by omega)
  unfold State.setupWrite
  simp only [hr, hk, h8, if_false, htk]

/-- A write of eight bytes to two registers that stand once (R3, R460): the lower half first, each judged beside the other. -/
theorem State.setupWrite_eight (s : State) (off : Nat) (bs : List Byte) (node agent : Nat) (r q : RegRow) (hr : regAt off = some r)
    (hq : regAt (off + 4) = some q) (hw : r.win.selector = none) (hw' : q.win.selector = none) (hl : bs.length = 8) :
    (s.setupWrite off bs node agent).st =
      let v := BitVec.ofNat 32 (leNum (bs.take 4))
      let w := BitVec.ofNat 32 (leNum (bs.drop 4))
      let staged := !s.bit F.CHIP_COMMIT_STAT_RETIRING
      ((s.writeReg (s.beside (off + 4) w staged) (some (off + 4, w)) off off v node agent).st.writeReg (s.beside off v staged)
        (some (off, v)) (off + 4) (off + 4) w node agent).st := by
  have hk : s.keyAt r off = off := by simp [State.keyAt, hw]
  have hk' : s.keyAt q (off + 4) = off + 4 := by simp [State.keyAt, hw']
  unfold State.setupWrite
  simp only [hr, hq, hk, hk', hl, if_true]

/-- A write of four bytes that is accepted whole, to a register without STAGED fields that stands once. -/
theorem State.setupWrite_clean (s : State) (off : Nat) (bs : List Byte) (node agent : Nat) (r : RegRow) (v : Word)
    (hr : regAt off = some r) (hw : r.win.selector = none) (hl : bs.length = 4) (hv : BitVec.ofNat 32 (leNum bs) = v)
    (hc : s.clearWrite off off v = none) (hs : r.hasStaged = false) (ht : (off == 0x410 && s.haltRefused (bitsOf v 6 0)) = false)
    (hL : s.landing r off off v true = ⟨(s.fieldsLand r off off v).eff, (s.fieldsLand r off off v).shd, false, false⟩)
    (hst : ¬ (0x7054 ≤ off ∧ off ≤ 0x705C)) (hrl : off ≠ 0x704C) :
    (s.setupWrite off bs node agent).st =
      (s.wrote r off off v).wroteAfter off off (s.reg off) (s.fieldsLand r off off v).eff v := by
  rw [s.setupWrite_four off bs node agent r hr hw hl, hv]
  exact s.writeReg_clean off node agent r v hr hc hs ht hL hst hrl

/-- What a write of four bytes leaves before what it brings about: a state `x` that differs from `s` in the register only, and the
word `n` the register now holds, field by field. -/
theorem State.setupWrite_lands (s : State) (off : Nat) (bs : List Byte) (node agent : Nat) (r : RegRow) (v : Word)
    (hr : regAt off = some r) (hw : r.win.selector = none) (hl : bs.length = 4) (hv : BitVec.ofNat 32 (leNum bs) = v)
    (hc : s.clearWrite off off v = none) (hs : r.hasStaged = false) (ht : (off == 0x410 && s.haltRefused (bitsOf v 6 0)) = false)
    (hL : s.landing r off off v true = ⟨(s.fieldsLand r off off v).eff, (s.fieldsLand r off off v).shd, false, false⟩)
    (hst : ¬ (0x7054 ≤ off ∧ off ≤ 0x705C)) (hrl : off ≠ 0x704C) (hok : fieldsOk r.fields = true) :
    ∃ x n, (s.setupWrite off bs node agent).st = State.wroteAfter x off off (s.reg off) n v ∧ s.Only x [.regs] ∧ s.RegsBut x [off] ∧
      x.reg off = n ∧
      (∀ f ∈ r.fields, f.acc = .rw → f.cls = .live → f.min ≤ bitsOf v f.hi f.lo ∧ bitsOf v f.hi f.lo ≤ f.max →
        bitsOf n f.hi f.lo = bitsOf v f.hi f.lo) ∧
      (∀ f ∈ r.fields, f.acc = .ro ∨ f.acc = .wo ∨ f.acc = .rc ∨
          (f.acc = .rw ∧ (f.cls = .staged ∨ bitsOf v f.hi f.lo = bitsOf (s.reg off) f.hi f.lo)) →
        bitsOf n f.hi f.lo = bitsOf (s.reg off) f.hi f.lo) ∧
      (∀ f ∈ r.fields, f.acc = .rw → f.cls = .static → s.halted (haltGroup off) = true →
        f.min ≤ bitsOf v f.hi f.lo ∧ bitsOf v f.hi f.lo ≤ f.max → bitsOf n f.hi f.lo = bitsOf v f.hi f.lo) :=
  ⟨s.wrote r off off v, (s.fieldsLand r off off v).eff, s.setupWrite_clean off bs node agent r v hr hw hl hv hc hs ht hL hst hrl,
    s.wrote_only _ _ _ _ _ (by simp), s.wrote_regsBut _ _ _ _ _ (by simp), by simp,
    fun f hm ha hcl hf => Landing.foldl_live _ _ _ _ _ _ hok hm ha hcl hf,
    fun f hm ha => Landing.foldl_keep _ _ _ _ _ _ hok hm ha,
    fun f hm ha hcl hh hf => by
      simp only [State.fieldsLand, hh]
      exact Landing.foldl_static _ _ _ _ _ hok hm ha hcl hf⟩

end Sys2Proof.Machine
end

