-- ==== Sys2Proof/Laws/Effects.lean ====
section
/-! SUPPORT. What the shared operations do: the end of a task, the raising of a fault, the queues of packets. -/

namespace Sys2Proof.Machine

/-! ### Lists by position -/

theorem getAt_setAt_self {α : Type} (d : α) : ∀ (l : List α) (i : Nat) (v : α), i < l.length → getAt d (setAt l i v) i = v
  | [], _, _, h => by simp at h
  | _ :: _, 0, _, _ => rfl
  | _ :: l, i + 1, v, h => getAt_setAt_self d l i v (by simpa using h)

theorem getAt_setAt_other {α : Type} (d : α) : ∀ (l : List α) (i j : Nat) (v : α), i ≠ j → getAt d (setAt l i v) j = getAt d l j
  | [], _, _, _, _ => rfl
  | _ :: _, 0, 0, _, h => absurd rfl h
  | _ :: _, 0, _ + 1, _, _ => rfl
  | _ :: _, _ + 1, 0, _, _ => rfl
  | _ :: l, i + 1, j + 1, v, h => getAt_setAt_other d l i j v (fun e => h (e ▸ rfl))

@[simp] theorem length_setAt {α : Type} : ∀ (l : List α) (i : Nat) (v : α), (setAt l i v).length = l.length
  | [], _, _ => rfl
  | _ :: _, 0, _ => rfl
  | _ :: l, i + 1, v => by simp [setAt, length_setAt l i v]

/-- Where one element alone satisfies the wish, the search in cyclic order finds it. -/
theorem firstFrom_one (n start a : Nat) (p : Nat → Bool) (ha : a < n) (hp : ∀ x, x < n → (p x = true ↔ x = a)) :
    firstFrom n start p = some a := by
  unfold firstFrom
  have hn : 0 < n := by omega
  have hm : a ∈ (List.range n).map (fun i => (start + i) % n) := by
    rw [List.mem_map]
    refine ⟨(a + n - start % n) % n, List.mem_range.mpr (Nat.mod_lt _ hn), ?_⟩
    have h1 : start % n < n := Nat.mod_lt _ hn
    have h3 : (start + (a + n - start % n)) % n = a := by
      have e : start + (a + n - start % n) = a + n * (start / n + 1) := by
        have := Nat.div_add_mod start n
        rw [Nat.mul_add, Nat.mul_one]; omega
      rw [e, Nat.add_mul_mod_self_left, Nat.mod_eq_of_lt ha]
    rw [Nat.add_mod, Nat.mod_mod, ← Nat.add_mod]
    exact h3
  cases hf : ((List.range n).map (fun i => (start + i) % n)).find? p with
  | none =>
    rw [List.find?_eq_none] at hf
    exact absurd ((hp a ha).mpr rfl) (hf a hm)
  | some b =>
    have hb := List.find?_some hf
    have hbm := List.mem_of_find?_eq_some hf
    rw [List.mem_map] at hbm
    obtain ⟨i, _, e⟩ := hbm
    have hlt : b < n := by rw [← e]; exact Nat.mod_lt _ hn
    rw [(hp b hlt).mp hb]

/-! ### Drovers and their tasks -/

@[simp] theorem State.setDrover_drover (s : State) (d e : Nat) (x : Drover) :
    (s.setDrover d x).drover e = if e = d then x else s.drover e := by
  simp only [State.drover, State.setDrover, tget_tput]

@[simp] theorem State.setExec_execOf (s : State) (d e : Nat) (x : Exec) :
    (s.setExec d x).execOf e = if e = d then some x else s.execOf e := by
  unfold State.setExec State.execOf
  rw [State.setDrover_drover]
  split <;> rfl

theorem State.markStile_drover (s : State) (t : Task) (b : Bool) (d : Nat) : (s.markStile t b).drover d = s.drover d := by
  unfold State.markStile
  split <;> rfl

theorem State.storeFailed_drover (s : State) (n a d : Nat) : (s.storeFailed n a).drover d = s.drover d := rfl

/-- The end of a task leaves its result with the drover. -/
theorem State.endTask_execOf (s : State) (d status n : Nat) (pl : List Byte) (x : Exec) (h : s.execOf d = some x) :
    (s.endTask d status n pl).execOf d = some { x with phase := .ended, result := some ⟨status, n, pl⟩ } := by
  have h' : (s.drover d).exec = some x := h
  unfold State.endTask State.execOf
  simp only [h', State.markStile_drover, State.setDrover_drover, if_true]

/-- The end of a request leaves its result with the drover. -/
theorem State.finishTask_execOf (s : State) (d status n : Nat) (pl : List Byte) (x : Exec) (h : s.execOf d = some x) :
    (s.finishTask d status n pl).execOf d = some { x with phase := .ended, result := some ⟨status, n, pl⟩ } := by
  unfold State.finishTask
  simp only [h]
  split
  · exact State.endTask_execOf _ d status n pl x h
  · exact State.endTask_execOf _ d status n pl x h

/-! ### Packets -/

/-- A packet taken from a queue leaves the rest of the state as it was. -/
theorem popTaken_only (s u : State) (q : Nat) (want : Packet → Bool) (p : Packet) (h : s.popTaken q want = some (p, u)) :
    s.Only u [.net] := by
  unfold State.popTaken at h
  dsimp only at h
  split at h
  · exact absurd h (by simp)
  · split at h
    · exact absurd h (by simp)
    · simp only [Option.some.injEq, Prod.mk.injEq] at h
      rw [← h.2]
      exact (State.Only.refl s _).net _ (by decide)

end Sys2Proof.Machine
end

