-- ==== Sys2Proof/Laws/Sha.lean ====
section
/-! SUPPORT. The length of an authentication code, and the code a LOG_CLEAR carries (R209, R396). -/

namespace Sys2Proof.Machine

theorem length_leBytes (k n : Nat) : (leBytes k n).length = k := by
  induction k generalizing n with
  | zero => rfl
  | succ k ih => simp [leBytes, ih]

theorem length_shaRound (v : List Word) (k w : Word) (h : v.length = 8) : (shaRound v k w).length = 8 := by
  unfold shaRound
  split
  · rfl
  · exact h

theorem length_shaRounds (l : List (Word × Word)) (v : List Word) (h : v.length = 8) :
    (l.foldl (fun v kw => shaRound v kw.1 kw.2) v).length = 8 := by
  induction l generalizing v with
  | nil => exact h
  | cons x l ih => exact ih _ (length_shaRound _ _ _ h)

theorem length_shaBlock (v : List Word) (b : List Byte) (h : v.length = 8) : (shaBlock v b).length = 8 := by
  simp only [shaBlock, List.length_map, List.length_zip, h, length_shaRounds _ v h, Nat.min_self]

theorem length_shaBlocks (n : Nat) (v : List Word) (b : List Byte) (h : v.length = 8) : (shaBlocks n v b).length = 8 := by
  induction n generalizing v b with
  | zero => exact h
  | succ n ih => exact ih _ _ (length_shaBlock _ _ h)

theorem length_flatMap_beBytes (l : List Word) : (l.flatMap (fun w => beBytes 4 w.toNat)).length = 4 * l.length := by
  induction l with
  | nil => rfl
  | cons w l ih => rw [List.flatMap_cons, List.length_append, ih, beBytes, List.length_reverse, length_leBytes, List.length_cons]; omega

theorem length_sha256 (m : List Byte) : (sha256 m).length = 32 := by
  simp only [sha256, length_flatMap_beBytes, length_shaBlocks _ shaH0 _ rfl]

/-- An authentication code is 32 bytes. -/
theorem length_hmacSha256 (key m : List Byte) : (hmacSha256 key m).length = 32 := length_sha256 _

theorem getAt_append {α : Type} (d : α) (a b : List α) (i : Nat) : getAt d (a ++ b) (a.length + i) = getAt d b i := by
  induction a with
  | nil => simp
  | cons x a ih => simp only [List.cons_append, List.length_cons, Nat.add_right_comm, getAt, ih]

theorem getAt_append_left {α : Type} (d : α) (a b : List α) (i : Nat) (h : i < a.length) : getAt d (a ++ b) i = getAt d a i := by
  induction a generalizing i with
  | nil => simp at h
  | cons x a ih =>
    cases i with
    | zero => rfl
    | succ i => simpa [getAt] using ih i (by simpa using h)

theorem map_range_getAt {α : Type} (d : α) (b : List α) : (List.range b.length).map (fun i => getAt d b i) = b := by
  induction b with
  | nil => rfl
  | cons x b ih =>
    rw [List.length_cons, List.range_succ_eq_map, List.map_cons, List.map_map]
    exact congrArg _ ih

/-- The part of a byte string that was laid in it. -/
theorem slice_append (a b c : List Byte) : slice (a ++ b ++ c) a.length b.length = b := by
  refine Eq.trans ?_ (map_range_getAt 0 b)
  refine List.map_congr_left fun i hi => ?_
  rw [List.append_assoc, getAt_append, getAt_append_left _ _ _ _ (List.mem_range.mp hi)]

end Sys2Proof.Machine
end

