-- ==== Sys2Proof/WellFormed.lean ====
section
/-! DEFINITION. Well-formed commands: every index names something the device has, and every value fits the thing it describes.

A command is an event at the device, so an ill-formed one cannot happen; `exec` gives it a meaning all the same, so that it is
total. -/

namespace Sys2Proof

/-- What an index operand of a command numbers. -/
inductive Index where
  /-- queue of taken packets: 0 side W, 1 side E, 2 the node itself, 3 link P -/
  | queue
  /-- ring side: 0 W, 1 E -/
  | side
  /-- link: 0 W, 1 E, 2 P -/
  | link
  /-- lane: 0 and 1 side W, 2 and 3 side E, 4 the peer lane (R229) -/
  | lane
  /-- ring tag (R255) -/
  | tag
  /-- drover (R117) -/
  | drover
  /-- drover, or 64 for a result another unit built -/
  | resultSource
  /-- drover, or 64 for the posted write engine (R72) -/
  | busOwner
  /-- stile (R132) -/
  | stile
  /-- VME bus request level (R72) -/
  | requestLevel
  /-- VME interrupt level, 1 to 7 (R104) -/
  | irqLevel
  /-- retry slot of the VME slave (R96) -/
  | retrySlot
  /-- serial port (R278) -/
  | serialPort
  /-- CAN FD controller (R300) -/
  | canController
  /-- discrete chain (R305) -/
  | chain
  /-- command or completion ring (R199) -/
  | ring
  /-- MSI-X vector (R217) -/
  | vector
  /-- fold (R179) -/
  | fold
  /-- active entry (R368) -/
  | activeEntry
  /-- schedule entry (R328) -/
  | scheduleEntry
  /-- crossbar region (R12) -/
  | region
  /-- node ID (R5) -/
  | node
  /-- agent number (R143) -/
  | agent
  /-- PMBus port (R405) -/
  | pmbusPort
  /-- feed (R405) -/
  | feed
  /-- field-module slot (R405) -/
  | slot
  /-- halt group (R436) -/
  | haltGroup
  /-- reset source: 1 POWER_ON to 5 WATCHDOG (R424) -/
  | resetSource
  /-- test bus (R451) -/
  | testBus
  deriving DecidableEq, Repr

/-- The index names something the device has. -/
def Index.has (n : Nat) : Index → Bool
  | .queue => decide (n < 4)
  | .side => decide (n < 2)
  | .link => decide (n < 3)
  | .lane => decide (n < 5)
  | .tag => decide (n < 4096)
  | .drover => decide (n < 64)
  | .resultSource => decide (n < 65)
  | .busOwner => decide (n < 65)
  | .stile => decide (n < 1024)
  | .requestLevel => decide (n < 4)
  | .irqLevel => decide (1 ≤ n ∧ n ≤ 7)
  | .retrySlot => decide (n < 8)
  | .serialPort => decide (n < 64)
  | .canController => decide (n < 16)
  | .chain => decide (n < 8)
  | .ring => decide (n < 256)
  | .vector => decide (n < 256)
  | .fold => decide (n < 4096)
  | .activeEntry => decide (n < 256)
  | .scheduleEntry => decide (n < 256)
  | .region => decide (n < 4)
  | .node => decide (n < 2048)
  | .agent => decide (n < 256)
  | .pmbusPort => decide (n < 2)
  | .feed => decide (n < 2)
  | .slot => decide (n < 8)
  | .haltGroup => decide (n < 7)
  | .resetSource => decide (1 ≤ n ∧ n < 6)
  | .testBus => decide (n < 2)

/-- The index operands of a command. -/
def Instr.indices : Instr → List (Index × Nat)
  | .setupWrite _ _ node agent => [(.node, node), (.agent, agent)]
  | .setupLatchRead _ _ => []
  | .crossbarTransfer dest _ _ => [(.region, dest)]
  | .ringRequestDrop queue => [(.queue, queue)]
  | .stileWaitClear => []
  | .taskRun drover => [(.drover, drover)]
  | .droverSteal drover => [(.drover, drover)]
  | .droverSleepEnd drover => [(.drover, drover)]
  | .stileResult drover => [(.resultSource, drover)]
  | .drvStileSkip stile => [(.stile, stile)]
  | .drvWdog drover => [(.drover, drover)]
  | .drvMemUe drover => [(.drover, drover)]
  | .drvTrap drover => [(.drover, drover)]
  | .drvReloadDone drover _ => [(.drover, drover)]
  | .drvEnWrite _ node agent => [(.node, node), (.agent, agent)]
  | .pwqSpaceFree => []
  | .vmeBusGrant level => [(.requestLevel, level)]
  | .vmeBrOther level _ => [(.requestLevel, level)]
  | .vmeBclrIn => []
  | .vmeDtackIn _ => []
  | .vmeBerrOut => []
  | .vmeRetryIn => []
  | .vmeRetryGap owner => [(.busOwner, owner)]
  | .vme2eEarlyEnd => []
  | .vmeDataTo => []
  | .vmeArbTo => []
  | .vmeBtoOut => []
  | .vmeArbiterGrant _ => []
  | .vmeGrantTo => []
  | .sysrstPulse => []
  | .sysrstPulseEnd => []
  | .vmeInAs _ _ _ _ _ _ _ => []
  | .vmeInLensDecision => []
  | .vmeInDataStrobe _ _ => []
  | .vmeInQueueSpace => []
  | .vmeInSplitIssue => []
  | .vmeInRingResult slot => [(.retrySlot, slot)]
  | .vmeHoldTo => []
  | .vmeInYield => []
  | .vmeInAbandon _ => []
  | .vmeRslotDiscard slot => [(.retrySlot, slot)]
  | .vmeInPostedDone => []
  | .vmeIntrRoraWrite => []
  | .vmeIrqIn level _ => [(.irqLevel, level)]
  | .vmeRoakRearm level => [(.irqLevel, level)]
  | .vmeRoraRearm level => [(.irqLevel, level)]
  | .interrupterIack level _ => [(.irqLevel, level)]
  | .intrReassert => []
  | .vmeIrqNoack => []
  | .read drover => [(.drover, drover)]
  | .write drover => [(.drover, drover)]
  | .writeNt drover => [(.drover, drover)]
  | .copy drover => [(.drover, drover)]
  | .fill drover => [(.drover, drover)]
  | .claim drover => [(.drover, drover)]
  | .commit drover => [(.drover, drover)]
  | .fetchAdd drover => [(.drover, drover)]
  | .swap drover => [(.drover, drover)]
  | .cmpSwap drover => [(.drover, drover)]
  | .fence drover => [(.drover, drover)]
  | .done drover => [(.drover, drover)]
  | .doneTimeout drover => [(.drover, drover)]
  | .phaseWait drover => [(.drover, drover)]
  | .send drover => [(.drover, drover)]
  | .recvPost drover => [(.drover, drover)]
  | .recvPostExpiry _ => []
  | .irqRaise drover => [(.drover, drover)]
  | .statusReg drover => [(.drover, drover)]
  | .statusNonce drover => [(.drover, drover)]
  | .logRead drover => [(.drover, drover)]
  | .logClearClear drover => [(.drover, drover)]
  | .monUnlock drover => [(.drover, drover)]
  | .logClearReset drover => [(.drover, drover)]
  | .configStage drover => [(.drover, drover)]
  | .configCommitNext drover => [(.drover, drover)]
  | .configCommitNamed drover => [(.drover, drover)]
  | .mirrorMark drover => [(.drover, drover)]
  | .descFwdRx queue => [(.queue, queue)]
  | .doorbellPoll => []
  | .doorbellReadDone => []
  | .descFetchDone ring => [(.ring, ring)]
  | .hstWake => []
  | .cqSpaceFree ring => [(.ring, ring)]
  | .msixCoalExpiry ring => [(.vector, ring)]
  | .bar0Tlp _ _ _ _ _ => []
  | .bar2Tlp _ _ _ _ _ => []
  | .unsupportedTlp _ => []
  | .hostWindowCompletion _ _ _ => []
  | .hostCompletionTimeout _ => []
  | .pcieFlr _ => []
  | .ddrScrub => []
  | .ddrInjArm _ => []
  | .wcTimeout _ => []
  | .wcFlushDone => []
  | .wcEnClear => []
  | .claimTimeout node agent => [(.node, node), (.agent, agent)]
  | .lcSnoopWrite _ _ _ _ _ => []
  | .lcInvAll => []
  | .lcEnClear => []
  | .pfDrainEmpty => []
  | .pfDrainDeadline => []
  | .foldPushGrant => []
  | .foldHeadRead drover => [(.drover, drover)]
  | .foldHeadWrite drover => [(.drover, drover)]
  | .foldHeadCount drover => [(.drover, drover)]
  | .foldStale fold => [(.fold, fold)]
  | .foldFlush => []
  | .floorRst => []
  | .sweepPassEnd => []
  | .fldInjArm _ => []
  | .linkEnable _ => []
  | .laneMarkerRx lane _ _ _ _ => [(.lane, lane)]
  | .initRx link _ => [(.link, link)]
  | .linkInitTx link => [(.link, link)]
  | .lnkTrainFail link => [(.link, link)]
  | .linkRetrain link => [(.link, link)]
  | .flowRx link _ => [(.link, link)]
  | .dataFrameRx link _ => [(.link, link)]
  | .codewordDecoded lane _ _ _ _ => [(.lane, lane)]
  | .ackRx link _ => [(.link, link)]
  | .nakRx link _ => [(.link, link)]
  | .ackTimer link => [(.link, link)]
  | .replayTimeout link => [(.link, link)]
  | .laneLockLoss lane => [(.lane, lane)]
  | .laneDegradeCheck lane => [(.lane, lane)]
  | .laneRx link _ => [(.link, link)]
  | .lnkInjArm word => [(.node, word.node), (.agent, word.agent)]
  | .packetRx side => [(.side, side)]
  | .dropAdmit side => [(.side, side)]
  | .netDropStall side => [(.side, side)]
  | .responseRx queue => [(.queue, queue)]
  | .netTagTo tag => [(.tag, tag)]
  | .dupEntryExpire _ _ _ => []
  | .interruptRx queue => [(.queue, queue)]
  | .intAckRx queue => [(.queue, queue)]
  | .vectorRx queue => [(.queue, queue)]
  | .broadcastRx queue => [(.queue, queue)]
  | .netJoinStart => []
  | .joinRx queue => [(.queue, queue)]
  | .joinTimeout => []
  | .joinDupRx queue => [(.queue, queue)]
  | .wrapRx queue => [(.queue, queue)]
  | .netWrapLost side => [(.side, side)]
  | .unwrapRx queue => [(.queue, queue)]
  | .electStart => []
  | .electRx queue => [(.queue, queue)]
  | .electedRx queue => [(.queue, queue)]
  | .electTimeout => []
  | .epochTx => []
  | .epochRx queue => [(.queue, queue)]
  | .netEpochLoss => []
  | .delayMeasure side => [(.side, side)]
  | .delayReqRx queue => [(.queue, queue)]
  | .delayRespRx queue => [(.queue, queue)]
  | .netEpochSet _ node agent => [(.node, node), (.agent, agent)]
  | .serialRxChar port _ _ _ => [(.serialPort, port)]
  | .serialIdleTimeout port _ => [(.serialPort, port)]
  | .serialTxStart port => [(.serialPort, port)]
  | .serialTxDone port => [(.serialPort, port)]
  | .serialDeLagEnd port => [(.serialPort, port)]
  | .spEcho port => [(.serialPort, port)]
  | .spNoReply port => [(.serialPort, port)]
  | .modbusPollPeriod port => [(.serialPort, port)]
  | .serialDisable port => [(.serialPort, port)]
  | .canRxFrame ctl _ _ => [(.canController, ctl)]
  | .canTxStart ctl => [(.canController, ctl)]
  | .canTxDone ctl => [(.canController, ctl)]
  | .canTxError ctl _ _ => [(.canController, ctl)]
  | .canRecover ctl => [(.canController, ctl)]
  | .canRecoveryDone ctl => [(.canController, ctl)]
  | .canDisable ctl => [(.canController, ctl)]
  | .dcFrameStart chain => [(.chain, chain)]
  | .dcFrameEnd chain _ => [(.chain, chain)]
  | .cadTick => []
  | .cadZcEdge => []
  | .cadEncCount _ _ => []
  | .cadEncIndex => []
  | .cadMainsLoss => []
  | .cadFallback => []
  | .cadSchCopyDone entry => [(.scheduleEntry, entry)]
  | .cadSchReload node agent => [(.node, node), (.agent, agent)]
  | .cadMaxMs => []
  | .bankRetire => []
  | .statSnapshotCopy => []
  | .twnBeacon => []
  | .beaconRx queue => [(.queue, queue)]
  | .leaseAckRx queue => [(.queue, queue)]
  | .twnLeaseLapse => []
  | .twnWaitEnd => []
  | .takeRx queue => [(.queue, queue)]
  | .twnClaimEnd => []
  | .twnFenceDone => []
  | .twnFenceRearm => []
  | .twnRearm => []
  | .twnResume => []
  | .twnYield => []
  | .twnYieldRefused => []
  | .handoverRx queue => [(.queue, queue)]
  | .twnHoldToggle => []
  | .twnHoldInClassify _ _ => []
  | .mirrorRecordRx queue => [(.queue, queue)]
  | .mirrorCloseRx queue => [(.queue, queue)]
  | .mirrorRecordWaitEnd _ => []
  | .mirrorCommitDone => []
  | .committedRx queue => [(.queue, queue)]
  | .resyncRx queue => [(.queue, queue)]
  | .mirrorQueueSpace => []
  | .faultRaise _ => []
  | .errNPulseEnd => []
  | .faultNoteAge entry => [(.activeEntry, entry)]
  | .fltActClear entry => [(.activeEntry, entry)]
  | .safeExit => []
  | .unfence _ => []
  | .fltInjArm _ node agent => [(.node, node), (.agent, agent)]
  | .recWriteDone _ => []
  | .recSecondTick => []
  | .recClearDone => []
  | .authHoldEnd => []
  | .recRetest => []
  | .recInjArm _ => []
  | .pwrEnable _ node agent => [(.node, node), (.agent, agent)]
  | .pwrSampleCycle => []
  | .pmbusTransactionDone port _ _ => [(.pmbusPort, port)]
  | .pmbAlert port => [(.pmbusPort, port)]
  | .pwrFeedUv feed _ => [(.feed, feed)]
  | .pwrFailEnd => []
  | .slotPresentChange slot _ => [(.slot, slot)]
  | .slotInsertSettled slot => [(.slot, slot)]
  | .slotStart slot => [(.slot, slot)]
  | .slotFaultIn slot _ _ => [(.slot, slot)]
  | .slotTrip slot => [(.slot, slot)]
  | .slotStartTimeout slot => [(.slot, slot)]
  | .slotRetryExpiry slot => [(.slot, slot)]
  | .slotEnWrite slot _ => [(.slot, slot)]
  | .droopDetect => []
  | .droopClean => []
  | .powerOn => []
  | .resetN => []
  | .perstN => []
  | .ringCmd => []
  | .chipWdog => []
  | .resetRelease source _ _ _ _ _ _ _ => [(.resetSource, source)]
  | .bootLoadDone _ _ _ _ => []
  | .bootStageTimeout => []
  | .bootOpen => []
  | .chipHaltWrite _ node agent => [(.node, node), (.agent, agent)]
  | .haltDrained group => [(.haltGroup, group)]
  | .svcRxChar _ _ => []
  | .svcHelp => []
  | .svcPeek => []
  | .svcPoke => []
  | .svcLens => []
  | .svcFold => []
  | .svcDrover => []
  | .svcRing => []
  | .svcCad => []
  | .svcFault => []
  | .svcFaultClr => []
  | .svcLog => []
  | .svcStat => []
  | .svcTwin => []
  | .svcPwr => []
  | .svcAtbSet => []
  | .svcAtbRead _ => []
  | .svcLock => []
  | .svcVer => []
  | .svcLockNow node agent => [(.node, node), (.agent, agent)]
  | .tstAtbWrite bus _ node agent => [(.testBus, bus), (.node, node), (.agent, agent)]
  | .tstAdcStart _ node agent => [(.node, node), (.agent, agent)]
  | .tstAdcDone _ => []
  | .tapReset => []
  | .idcode => []
  | .samplePreload _ _ => []
  | .extest _ _ => []
  | .clamp => []
  | .highz => []
  | .atbSel _ => []
  | .mfgSeconds _ => []
  | .otpKey _ => []
  | .bypass _ => []
  | .pllLock => []
  | .clockRecovered lane => [(.lane, lane)]
  | .blockLock lane _ => [(.lane, lane)]
  | .pcieLinkUp _ _ => []
  | .pcieConfigRequest _ _ _ _ _ _ _ _ => []
  | .bar4Tlp _ _ _ _ _ => []
  | .pcieFlowControlUpdate _ => []
  | .tagQuarantineEnd tag => [(.tag, tag)]
  | .canRxError ctl _ _ => [(.canController, ctl)]
  | .arbiterBclr _ => []
  | .fairRequest => []
  | .serviceLoopComplete => []

/-- Read request and payload sizes PCI Express names. -/
def pcieSize (n : Nat) : Bool := [128, 256, 512, 1024, 2048, 4096].contains n

/-- A slot of the crossbar's schedule that has a block (R12); slots are numbered through the regions LINK, HOST, CORE, EDGE by 16. -/
def blockSlot (n : Nat) : Bool :=
  if n < 16 then decide (n < 4) else if n < 32 then decide (n < 19) else if n < 48 then decide (n < 44) else decide (n < 62)

/-- Received blocks are of lanes the link has (R229, R232). -/
def blocksFit (link : Nat) (rx : List Machine.LaneBlock) : Bool :=
  rx.all (fun b => decide (b.lane < if link < 2 then 2 else 1) && decide (b.marker < 2 ^ 32))

/-- The values of a command fit what they describe. -/
def Instr.fits : Instr → Bool
  | .setupWrite offset data _ _ => decide (offset < 2 ^ 16 ∧ 0 < data.length ∧ data.length ≤ 8)
  | .setupLatchRead offset len => decide (offset < 2 ^ 16 ∧ 0 < len)
  | .crossbarTransfer _ freed waiting => decide (freed.length = 3) &&
    waiting.all (fun w => blockSlot w.1 && decide (w.2.1 < 8) && decide (w.2.2.1 < 3))
  | .ringRequestDrop _ => true
  | .stileWaitClear => true
  | .taskRun _ => true
  | .droverSteal _ => true
  | .droverSleepEnd _ => true
  | .stileResult _ => true
  | .drvStileSkip _ => true
  | .drvWdog _ => true
  | .drvMemUe _ => true
  | .drvTrap _ => true
  | .drvReloadDone _ _ => true
  | .drvEnWrite value _ _ => decide (value < 2 ^ 64)
  | .pwqSpaceFree => true
  | .vmeBusGrant _ => true
  | .vmeBrOther _ _ => true
  | .vmeBclrIn => true
  | .vmeDtackIn _ => true
  | .vmeBerrOut => true
  | .vmeRetryIn => true
  | .vmeRetryGap _ => true
  | .vme2eEarlyEnd => true
  | .vmeDataTo => true
  | .vmeArbTo => true
  | .vmeBtoOut => true
  | .vmeArbiterGrant _ => true
  | .vmeGrantTo => true
  | .sysrstPulse => true
  | .sysrstPulseEnd => true
  | .vmeInAs am xam addr _ _ size _ => decide (am < 64 ∧ xam < 256 ∧ addr < 2 ^ 64 ∧ [0, 1, 2, 4, 8].contains size = true)
  | .vmeInLensDecision => true
  | .vmeInDataStrobe _ data => decide (data.length ≤ 8)
  | .vmeInQueueSpace => true
  | .vmeInSplitIssue => true
  | .vmeInRingResult _ => true
  | .vmeHoldTo => true
  | .vmeInYield => true
  | .vmeInAbandon _ => true
  | .vmeRslotDiscard _ => true
  | .vmeInPostedDone => true
  | .vmeIntrRoraWrite => true
  | .vmeIrqIn _ _ => true
  | .vmeRoakRearm _ => true
  | .vmeRoraRearm _ => true
  | .interrupterIack _ width => decide (width = 1 ∨ width = 2 ∨ width = 4)
  | .intrReassert => true
  | .vmeIrqNoack => true
  | .read _ => true
  | .write _ => true
  | .writeNt _ => true
  | .copy _ => true
  | .fill _ => true
  | .claim _ => true
  | .commit _ => true
  | .fetchAdd _ => true
  | .swap _ => true
  | .cmpSwap _ => true
  | .fence _ => true
  | .done _ => true
  | .doneTimeout _ => true
  | .phaseWait _ => true
  | .send _ => true
  | .recvPost _ => true
  | .recvPostExpiry _ => true
  | .irqRaise _ => true
  | .statusReg _ => true
  | .statusNonce _ => true
  | .logRead _ => true
  | .logClearClear _ => true
  | .monUnlock _ => true
  | .logClearReset _ => true
  | .configStage _ => true
  | .configCommitNext _ => true
  | .configCommitNamed _ => true
  | .mirrorMark _ => true
  | .descFwdRx _ => true
  | .doorbellPoll => true
  | .doorbellReadDone => true
  | .descFetchDone _ => true
  | .hstWake => true
  | .cqSpaceFree _ => true
  | .msixCoalExpiry _ => true
  | .bar0Tlp wr _ _ _ data => decide (wr = true ∨ data = [])
  | .bar2Tlp wr _ _ _ data => decide (wr = true ∨ data = [])
  | .unsupportedTlp _ => true
  | .hostWindowCompletion _ status data => decide (status = 0 ∨ data = [])
  | .hostCompletionTimeout _ => true
  | .pcieFlr _ => true
  | .ddrScrub => true
  | .ddrInjArm _ => true
  | .wcTimeout _ => true
  | .wcFlushDone => true
  | .wcEnClear => true
  | .claimTimeout _ _ => true
  | .lcSnoopWrite am _ addr _ _ => decide (am < 64 ∧ addr < 2 ^ 64)
  | .lcInvAll => true
  | .lcEnClear => true
  | .pfDrainEmpty => true
  | .pfDrainDeadline => true
  | .foldPushGrant => true
  | .foldHeadRead _ => true
  | .foldHeadWrite _ => true
  | .foldHeadCount _ => true
  | .foldStale _ => true
  | .foldFlush => true
  | .floorRst => true
  | .sweepPassEnd => true
  | .fldInjArm _ => true
  | .linkEnable _ => true
  | .laneMarkerRx _ w0 w1 w2 w3 => decide (w0 < 2 ^ 64 ∧ w1 < 2 ^ 64 ∧ w2 < 2 ^ 64 ∧ w3 < 2 ^ 64)
  | .initRx link rx => blocksFit link rx
  | .linkInitTx _ => true
  | .lnkTrainFail _ => true
  | .linkRetrain _ => true
  | .flowRx link rx => blocksFit link rx
  | .dataFrameRx link rx => blocksFit link rx
  | .codewordDecoded _ inData inCheck _ _ => decide (inData ≤ 514 ∧ inCheck ≤ 14)
  | .ackRx link rx => blocksFit link rx
  | .nakRx link rx => blocksFit link rx
  | .ackTimer _ => true
  | .replayTimeout _ => true
  | .laneLockLoss _ => true
  | .laneDegradeCheck _ => true
  | .laneRx link rx => blocksFit link rx
  | .lnkInjArm _ => true
  | .packetRx _ => true
  | .dropAdmit _ => true
  | .netDropStall _ => true
  | .responseRx _ => true
  | .netTagTo _ => true
  | .dupEntryExpire _ _ _ => true
  | .interruptRx _ => true
  | .intAckRx _ => true
  | .vectorRx _ => true
  | .broadcastRx _ => true
  | .netJoinStart => true
  | .joinRx _ => true
  | .joinTimeout => true
  | .joinDupRx _ => true
  | .wrapRx _ => true
  | .netWrapLost _ => true
  | .unwrapRx _ => true
  | .electStart => true
  | .electRx _ => true
  | .electedRx _ => true
  | .electTimeout => true
  | .epochTx => true
  | .epochRx _ => true
  | .netEpochLoss => true
  | .delayMeasure _ => true
  | .delayReqRx _ => true
  | .delayRespRx _ => true
  | .netEpochSet _ _ _ => true
  | .serialRxChar _ _ _ _ => true
  | .serialIdleTimeout _ _ => true
  | .serialTxStart _ => true
  | .serialTxDone _ => true
  | .serialDeLagEnd _ => true
  | .spEcho _ => true
  | .spNoReply _ => true
  | .modbusPollPeriod _ => true
  | .serialDisable _ => true
  | .canRxFrame _ word data => decide (word < 2 ^ 64 ∧ data.length ≤ 64)
  | .canTxStart _ => true
  | .canTxDone _ => true
  | .canTxError _ lec _ => decide (lec < 8)
  | .canRecover _ => true
  | .canRecoveryDone _ => true
  | .canDisable _ => true
  | .dcFrameStart _ => true
  | .dcFrameEnd _ din => decide (din < 2 ^ 128)
  | .cadTick => true
  | .cadZcEdge => true
  | .cadEncCount _ _ => true
  | .cadEncIndex => true
  | .cadMainsLoss => true
  | .cadFallback => true
  | .cadSchCopyDone _ => true
  | .cadSchReload _ _ => true
  | .cadMaxMs => true
  | .bankRetire => true
  | .statSnapshotCopy => true
  | .twnBeacon => true
  | .beaconRx _ => true
  | .leaseAckRx _ => true
  | .twnLeaseLapse => true
  | .twnWaitEnd => true
  | .takeRx _ => true
  | .twnClaimEnd => true
  | .twnFenceDone => true
  | .twnFenceRearm => true
  | .twnRearm => true
  | .twnResume => true
  | .twnYield => true
  | .twnYieldRefused => true
  | .handoverRx _ => true
  | .twnHoldToggle => true
  | .twnHoldInClassify _ _ => true
  | .mirrorRecordRx _ => true
  | .mirrorCloseRx _ => true
  | .mirrorRecordWaitEnd _ => true
  | .mirrorCommitDone => true
  | .committedRx _ => true
  | .resyncRx _ => true
  | .mirrorQueueSpace => true
  | .faultRaise _ => true
  | .errNPulseEnd => true
  | .faultNoteAge _ => true
  | .fltActClear _ => true
  | .safeExit => true
  | .unfence mask => decide (mask < 16)
  | .fltInjArm _ _ _ => true
  | .recWriteDone _ => true
  | .recSecondTick => true
  | .recClearDone => true
  | .authHoldEnd => true
  | .recRetest => true
  | .recInjArm _ => true
  | .pwrEnable _ _ _ => true
  | .pwrSampleCycle => true
  | .pmbusTransactionDone _ cause word => decide (cause < 4 ∧ word < 2 ^ 16)
  | .pmbAlert _ => true
  | .pwrFeedUv _ _ => true
  | .pwrFailEnd => true
  | .slotPresentChange _ _ => true
  | .slotInsertSettled _ => true
  | .slotStart _ => true
  | .slotFaultIn _ _ _ => true
  | .slotTrip _ => true
  | .slotStartTimeout _ => true
  | .slotRetryExpiry _ => true
  | .slotEnWrite _ _ => true
  | .droopDetect => true
  | .droopClean => true
  | .powerOn => true
  | .resetN => true
  | .perstN => true
  | .ringCmd => true
  | .chipWdog => true
  | .resetRelease _ nid _ _ _ _ _ _ => decide (nid < 2048)
  | .bootLoadDone _ _ _ pmbus => decide (pmbus.all (fun p => decide (p.1 < 10 ∧ p.2.1 < 2 ^ 8 ∧ p.2.2 < 2 ^ 16)) = true)
  | .bootStageTimeout => true
  | .bootOpen => true
  | .chipHaltWrite _ _ _ => true
  | .haltDrained _ => true
  | .svcRxChar _ _ => true
  | .svcHelp => true
  | .svcPeek => true
  | .svcPoke => true
  | .svcLens => true
  | .svcFold => true
  | .svcDrover => true
  | .svcRing => true
  | .svcCad => true
  | .svcFault => true
  | .svcFaultClr => true
  | .svcLog => true
  | .svcStat => true
  | .svcTwin => true
  | .svcPwr => true
  | .svcAtbSet => true
  | .svcAtbRead code => decide (code < 2 ^ 12)
  | .svcLock => true
  | .svcVer => true
  | .svcLockNow _ _ => true
  | .tstAtbWrite _ _ _ _ => true
  | .tstAdcStart _ _ _ => true
  | .tstAdcDone code => decide (code < 2 ^ 12)
  | .tapReset => true
  | .idcode => true
  | .samplePreload pins load => decide (pins.length = load.length)
  | .extest pins load => decide (pins.length = load.length)
  | .clamp => true
  | .highz => true
  | .atbSel value => decide (value < 2 ^ 12)
  | .mfgSeconds value => decide (value < 2 ^ 40)
  | .otpKey key => decide (key.length = 32)
  | .bypass _ => true
  | .pllLock => true
  | .clockRecovered _ => true
  | .blockLock _ _ => true
  | .pcieLinkUp _ _ => true
  | .pcieConfigRequest _ _ reg _ _ _ mrrs mps => decide (reg < 4096 ∧ reg % 4 = 0) && pcieSize mrrs && pcieSize mps
  | .bar4Tlp wr _ _ _ data => decide (wr = true ∨ data = [])
  | .pcieFlowControlUpdate _ => true
  | .tagQuarantineEnd _ => true
  | .canRxError _ lec inc => decide (lec < 8 ∧ (inc = 1 ∨ inc = 8))
  | .arbiterBclr _ => true
  | .fairRequest => true
  | .serviceLoopComplete => true

/-- A command that can happen. -/
def Instr.wf (c : Instr) : Bool := c.indices.all (fun p => p.1.has p.2) && c.fits

end Sys2Proof
end

