-- ==== Sys2Proof/Tests/Slice0.lean ====
section
/-! SUPPORT. Tests: commands that are not well formed, and for each statement concrete states that meet its premises, with what the
command leaves there. The expected results are read from the manual's rules. -/

set_option maxRecDepth 4000
set_option Elab.async false

namespace Sys2Proof.Tests

open Sys2Proof Sys2Proof.Machine

/-- The command goes on, and the state it leaves satisfies `p`. -/
def goes (i : Instr) (s : State) (p : State → Bool) : Bool :=
  match exec i s with
  | .next t => p t
  | _ => false

/-- Nothing changes but the units listed, and of the registers only those listed. -/
def framed (s t : State) (ps : List Area) (ks : List Nat) : Bool :=
  let has := fun p => ps.contains p
  (has .flt || t.flt == s.flt) && (has .boot || t.boot == s.boot) && (has .commits || t.commits == s.commits) &&
  (has .vme || t.vme == s.vme) && (has .vin || t.vin == s.vin) && (has .drv || t.drv == s.drv) && (has .ord || t.ord == s.ord) &&
  (has .fold || t.fold == s.fold) && (has .net || t.net == s.net) && (has .cad || t.cad == s.cad) &&
  (has .stat || t.stat == s.stat) && (has .twin || t.twin == s.twin) && (has .port || t.port == s.port) &&
  (has .ddr || t.ddr == s.ddr) && (has .host || t.host == s.host) && (has .recd || t.recd == s.recd) &&
  (has .pwr || t.pwr == s.pwr) && (has .xbar || t.xbar == s.xbar) && (has .svc || t.svc == s.svc) && (has .tap || t.tap == s.tap) &&
  (has .cyc || t.cyc == s.cyc) && (has .ticks || t.ticks == s.ticks) && (has .out || t.out == s.out) &&
  (has .freeCtr || t.freeCtr == s.freeCtr) && t.pending == s.pending &&
  (if has .regs then
    t.regs.eff.filter (fun e => !ks.contains e.1) == s.regs.eff.filter (fun e => !ks.contains e.1) &&
    t.regs.shadow.filter (fun e => !ks.contains e.1) == s.regs.shadow.filter (fun e => !ks.contains e.1) &&
    t.regs.latch == s.regs.latch && t.regs.heldWrites == s.regs.heldWrites && t.regs.refused == s.regs.refused
   else t.regs == s.regs)

/-- A state after reset with some fields set. -/
def withF (l : List (Fld × Nat)) : State := l.foldl (fun s e => s.wr e.1 e.2) State.reset

/-- A task. -/
def aTask : Task := { Task.blank with op := 24, tag := 7, srcNode := 4 }

/-- Drover 0 enabled and in this condition. -/
def drove (l : List (Fld × Nat)) (f : Drover → Drover) : State :=
  let s := withF ([(F.DRV_EN_LO_EN, 3)] ++ l)
  { s with drv := { s.drv with drv := [(0, f { Drover.idle 0 with st := .running })] } }


/-- A descriptor: opcode, SUBOP, LEN, ADDR, BUF, OP0. -/
def aDesc (op sub len addr buf op0 : Nat) : List Byte :=
  leBytes 8 (op * 2 ^ 56 + sub * 2 ^ 40 + len) ++ leBytes 8 addr ++ leBytes 8 buf ++ leBytes 8 op0 ++ leBytes 32 0

/-- Drover 0 runs this task, ready to act. -/
def doing (l : List (Fld × Nat)) (k : Task) : State := drove l (fun v => { v with exec := some { Exec.start k with phase := .ready } })

/-- The state goes on to one in which drover 0 has ended with this result. -/
def endsWith (i : Instr) (s : State) (st n : Nat) (bs : List Byte) (p : State → Bool) : Bool :=
  goes i s (fun t => (t.execOf 0).any (fun z => z.phase == .ended && z.result == some ⟨st, n, bs⟩) && p t)

/-- A frame as it comes on these lanes, behind an idle block. -/
def onLanes (lanes : List Nat) (f : Frame) : List LaneBlock := dealBlocks lanes 0 0 (.idle :: f.blocks)

/-! ### Well-formed commands -/

/-- One command for each kind of index, with an index the device has not. -/
theorem test_ill_formed_indices_are_refused :
    ([.ringRequestDrop 4, .packetRx 2, .initRx 3 [], .laneMarkerRx 5 0 0 0 0, .netTagTo 4096, .taskRun 64, .stileResult 65,
   .vmeRetryGap 65, .drvStileSkip 1024, .vmeBusGrant 4, .vmeIrqIn 0 true, .vmeIrqIn 8 true, .vmeInRingResult 8,
   .serialRxChar 64 0 false false, .canRxFrame 16 0 [], .dcFrameStart 8, .descFetchDone 256, .msixCoalExpiry 256, .foldStale 4096] ++
    [.faultNoteAge 256, .cadSchCopyDone 256, .crossbarTransfer 4 [0, 0, 0] [], .setupWrite 0 [0] 2048 0, .setupWrite 0 [0] 0 256,
   .pmbusTransactionDone 2 0 0, .pwrFeedUv 2 true, .slotPresentChange 8 true, .haltDrained 7, .resetRelease 0 0 false false false false false false,
   .resetRelease 6 0 false false false false false false, .tstAtbWrite 2 0 0 0] : List Instr).all (fun i => !i.wf) = true := by
  decide +kernel

/-- One command for each value that has to fit, with a value that does not. -/
theorem test_ill_formed_values_are_refused :
    ([.setupWrite 0x10000 [0] 0 0, .setupWrite 0 [] 0 0, .setupLatchRead 0 0, .crossbarTransfer 0 [0] [], .crossbarTransfer 0 [0, 0, 0] [(0, 0, 3, 0)],
   .drvEnWrite (2 ^ 64) 0 0, .vmeInAs 64 0 0 false false 4 1, .vmeInAs 9 0 0 false false 3 1, .vmeInDataStrobe false (List.replicate 9 0),
   .interrupterIack 1 3, .bar0Tlp false 0 0 4 [0], .bar2Tlp false 0 0 4 [0], .bar4Tlp false 0 0 4 [0], .hostWindowCompletion 0 1 [0],
   .lcSnoopWrite 64 0 0 4 false, .laneMarkerRx 0 (2 ^ 64) 0 0 0] ++
    [.canRxFrame 0 (2 ^ 64) [], .canTxError 0 8 true, .canRxError 0 0 2, .dcFrameEnd 0 (2 ^ 128), .unfence 16, .pmbusTransactionDone 0 4 0,
   .resetRelease 1 2048 false false false false false false, .bootLoadDone [] [] true [(10, 0, 0)], .svcAtbRead 4096, .tstAdcDone 4096,
   .samplePreload [true] [], .extest [true] [], .atbSel 4096, .mfgSeconds (2 ^ 40), .otpKey [0]] : List Instr).all (fun i => !i.wf) = true := by
  decide +kernel

theorem test_ill_formed_codeword_is_refused : (!(Instr.codewordDecoded 0 0 15 [] false).wf) = true := by decide +kernel

theorem test_ill_formed_pcie_size_is_refused :
    (!(Instr.pcieConfigRequest false 0 0 0 true ⟨true, true, true, true⟩ 100 128).wf) = true := by decide +kernel

theorem test_well_formed_commands_are_taken :
    ([.setupWrite 0x5804 [1, 2, 3, 4] 5 6, .crossbarTransfer 3 [0, 0, 0] [(0, 0, 2, 0)], .mfgSeconds (2 ^ 40 - 1), .vmeIrqIn 7 true,
      .otpKey (List.replicate 32 0)] : List Instr).all (fun i => i.wf) = true := by decide +kernel

/-- No row of the table gives bits: no word spells a command. -/
theorem test_no_word_spells_a_command : decodeTableWord 32 0 = none ∧ decodeTableWord 0 7 = none := by decide

theorem witness_StepRunsTheFrontCommand :
    (let s := { State.reset with pending := [.tapReset, .idcode] }
     s.pending = .tapReset :: [.idcode] ∧ State.reset.pending = []) := by
  decide +kernel

theorem witness_CommandsGoOnAndLeaveTheQueue :
    Sys2Proof.Machine.Instr.testDrive .idcode = false ∧ goes .idcode State.reset (fun t => t.pending == []) = true := by
  decide +kernel

theorem witness_StepKeepsTheMemoriesCanonical :
    (let s := { withF [(F.PWR_CTL_FAST_EN, 0)] with pending := [.idcode] }
     s.regs.wf = true ∧ Memory.wf s.ddr.bytes = true ∧ Memory.wf s.recd.mram = true ∧
       (match step s with | .next t => t.regs.wf | _ => false) = true) := by
  decide +kernel

theorem witness_ResetLeavesTheMapsValues :
    State.reset.reg K.LNK_RETRY = 0x08320014#32 ∧ State.reset.reg K.VME_TIMEOUT = 0x00640100#32 ∧
    State.reset.rd F.TWN_LEASE_LEASE_MS = 0x032 ∧ State.reset.rd F.TWN_LEASE_GUARD_MS = 0x00A ∧
    State.reset.rd F.TWN_LEASE_BEACON_MS = 0x05 ∧ State.reset.reg K.FLT_SEV_SEL = 0 ∧ State.reset.reg K.TST_IDCODE = 0x1941656F#32 ∧
    State.reset.rd F.CAD_CTL_SOURCE = 0 ∧ State.reset.bit F.CAD_CTL_RETURN_EN = true ∧ State.reset.rd F.CAD_CTL_AGENT = 0xFD ∧
    State.reset.bit F.PWR_CTL_EN = false ∧ State.reset.bit F.PWR_CTL_FAST_EN = true ∧ State.reset.regs.wf = true := by
  decide +kernel

theorem witness_NoStepChangesTheRecordersKey :
    (let s := { State.reset with boot := { State.reset.boot with otpKeySet := true, otpKey := [7], held := [2] }
                                 pending := [.otpKey (List.replicate 32 0x5A#8)] }
     s.boot.otpKeySet = true ∧ (match step s with | .next t => t.boot.otpKey == [7] && t.boot.otpKeySet | _ => false) = true) := by
  decide +kernel

/-- Drover 0 reads four bytes with one single cycle. -/
def aJob : VJob :=
  ({ aTask with op := 0x01, lenm1 := 3 } : Task).mkJob .read 0 ⟨true, false, 0, 2, 0, 0, false, false, false, 0, 0, 0, 0, 2, 9, 0, 0, 1, 0, 0⟩
    0x1000 0x1000 [⟨.single, 0x1000, 4, 1⟩] []

/-- Drover 0 runs that job. -/
def onBus (j : VJob) (f : VmeBus → VmeBus) : State :=
  let s := drove [(F.VME_CTL_MASTER_EN, 1), (F.VME_CTL_SYSCON, 1), (F.VME_SYSCTL_ARB_EN, 1), (F.VME_SYSCTL_BTIMER_EN, 1), (F.VME_SYSCTL_BCLR_EN, 1)]
    (fun v => { v with exec := some { Exec.start { aTask with op := 0x01, lenm1 := 3 } with phase := .bus, pieces := [⟨0, aJob.lens, 0, 4⟩] } })
  { s with vme := f { s.vme with jobs := [(0, some j)] } }

theorem witness_VmeBusIsArbitrated :
    (let s := onBus aJob (fun v => { v with br := true, waiting := [.drover 0] })
     goes (.vmeBusGrant 3) s (fun t => t.vme == { s.vme with bbsy := true, since := s.ticks, br := false, owner := some (.drover 0), waiting := [], strobed := true } &&
       t.out == [.vmeCycle 9 0 0x1000 false (cyclePins 0x1000 4) []] && framed s t [.vme, .out] []) = true ∧
     goes (.vmeBusGrant 1) s (fun t => t.out == [.vmeGrantOut 1]) = true ∧
     goes .vmeArbTo s (fun t => (t.execOf 0).any (fun y => y.phase == .ended && y.result == some ⟨St.VME_ARB_TIMEOUT, 0, []⟩) && t.vme.waiting == [] &&
       t.reg K.VME_CNT_ARB_TO == 1 && t.flt.raised.map (·.code) == [Code.VME_ARB_TO]) = true) ∧
    (let s := onBus aJob (fun v => { v with bbsy := true })
     goes (.vmeBrOther 2 true) s (fun t => t.vme == { s.vme with brOther := t.vme.brOther, bbsy := false } && t.vme.brOther == [false, false, true, false] && framed s t [.vme, .stat] []) = true ∧
     goes .vmeBclrIn s (fun t => t.vme == { s.vme with bbsy := false }) = true ∧
     goes .vmeBclrIn { s with vme := { s.vme with owner := some (.drover 0) } } (fun t => t.vme.bclrIn && t.vme.bbsy) = true) ∧
    (let s := onBus aJob (fun v => { v with fairWait := true })
     goes .fairRequest s (fun t => t.vme.br && !t.vme.fairWait) = true) ∧
    (let s := onBus aJob (fun v => { v with brOther := [false, true, false, true] })
     goes (.vmeArbiterGrant false) s (fun t => t.vme.grantOut == some 3 && t.out == [.vmeGrantOut 3]) = true ∧
     goes (.arbiterBclr true) s (fun t => t.vme.bclrOut) = true ∧
     goes .sysrstPulse s (fun t => t.vme.sysrstPulse && t.out == [.sysReset true]) = true) ∧
    (let s := onBus aJob (fun v => { v with grantOut := some 3, sysrstPulse := true })
     goes .vmeGrantTo s (fun t => t.vme.grantOut == none) = true ∧
     goes .sysrstPulseEnd s (fun t => !t.vme.sysrstPulse && t.out == [.sysReset false]) = true) := by decide +kernel

theorem witness_VmeCyclesEnd :
    (let s := onBus aJob (fun v => { v with bbsy := true, owner := some (.drover 0), strobed := true })
     let ended := fun (t : State) (r : TaskResult) => (t.execOf 0).any (fun y => y.phase == .ended && y.result == some r)
     goes (.vmeDtackIn [1, 2, 3, 4]) s (fun t => ended t ⟨St.OK, 4, [4, 3, 2, 1]⟩ && t.reg K.VME_CNT_SINGLE == 1) = true ∧
     goes .vmeBerrOut s (fun t => ended t ⟨St.VME_BERR, 0, []⟩ && t.reg K.VME_CNT_BERR == 1 && t.flt.raised.map (·.code) == [Code.VME_BERR_OUT]) = true ∧
     goes .vmeDataTo s (fun t => ended t ⟨St.VME_TIMEOUT, 0, []⟩ && !t.vme.bbsy && t.flt.raised.map (·.code) == [Code.VME_DATA_TO]) = true ∧
     goes .vmeBtoOut s (fun t => ended t ⟨St.VME_TIMEOUT, 0, []⟩ && t.out == [.vmeBerrTimer]) = true ∧
     goes .vmeRetryIn s (fun t => t.vme.gap == [.drover 0] && !t.vme.bbsy && t.job 0 == some { aJob with retries := 1 }) = true ∧
     goes .vme2eEarlyEnd s (fun t => t == s) = true) ∧
    (let s := onBus { aJob with retries := 1 } (fun v => { v with bbsy := true, owner := some (.drover 0), strobed := true })
     goes .vmeRetryIn s (fun t => (t.execOf 0).any (fun y => y.result == some ⟨St.VME_RETRY, 0, []⟩) && t.flt.raised.map (·.code) == [Code.VME_RETRY_OUT]) = true) ∧
    (let s := onBus { aJob with kind := .write, wdata := [1, 2, 3, 4] } (fun v => { v with bbsy := true, owner := some (.drover 0), strobed := true })
     let s := s.setExec 0 { Exec.start { aTask with op := 0x02, lenm1 := 3 } with phase := .bus, pieces := [⟨0, aJob.lens, 0, 4⟩] }
     goes (.vmeDtackIn []) s (fun t => (t.execOf 0).any (fun y => y.result == some ⟨St.OK, 4, []⟩)) = true) ∧
    (let s := onBus { aJob with xfers := [⟨.single, 0x1000, 4, 1⟩, ⟨.single, 0x1004, 4, 1⟩] } (fun v => { v with bbsy := true, owner := some (.drover 0), strobed := true })
     goes (.vmeDtackIn [1, 2, 3, 4]) s (fun t => t.out == [.vmeCycle 9 0 0x1004 false (cyclePins 0x1004 4) []] &&
       t.vme == { s.vme with jobs := t.vme.jobs, endAt := some (s.ticks, false) } && (t.job 0).any (fun j => j.done == 4 && j.rdata == [1, 2, 3, 4])) = true) ∧
    (let s := onBus { aJob with xfers := [⟨.e2vme, 0x1000, 8, 4⟩], beatsDone := 1 } (fun v => { v with bbsy := true, owner := some (.drover 0), strobed := true })
     goes .vme2eEarlyEnd s (fun t => t.vme.gap == [.drover 0] && (t.job 0).any (fun j => j.xfers == [⟨.e2vme, 0x1008, 8, 3⟩])) = true) ∧
    (let s := onBus aJob (fun v => { v with gap := [.drover 0] })
     goes (.vmeRetryGap 0) s (fun t => t == { s with vme := { s.vme with
       gap := [], waiting := [.drover 0], br := true, askedAt := tput (fun _ => 0) s.vme.askedAt 0 s.ticks } }) = true) ∧
    (let s := onBus aJob (fun v => { v with jobs := [], pwqWait := [0] })
     let s := (s.wr F.VME_PWQ_LIMIT 4)
     let s := s.setExec 0 { Exec.start { aTask with op := 0x02, lenm1 := 3 } with
       phase := .pwqWait, pieces := [⟨0, { aJob.lens with posted := true }, 0, 4⟩], buf := [1, 2, 3, 4] }
     goes .pwqSpaceFree s (fun t => t.vme.pwq.length == 1 && t.vme.pwqWait == [] &&
       (t.execOf 0).any (fun y => y.result == some ⟨St.OK, 4, []⟩)) = true) := by decide +kernel

/-- A state whose slave decodes an A32 window at zero, with this cycle. -/
def inbound (l : List (Fld × Nat)) (c : Option InCycle) (f : VmeIn → VmeIn) : State :=
  let s := withF ([(F.VME_ISLV_SLAVE_EN, 1), (F.LNSI_CTL_EN 3, 1), (F.LNSI_CTL_SIZE 3, 20), (F.LNSI_CTL_SPACE 3, 2), (F.VME_IPWQ_LIMIT, 4),
    (F.LNSI_AMSEL_X_SINGLE 3, 1), (F.LNSI_AMSEL_NP_DATA 3, 1), (F.LNSI_FADDR_HI_NODE 3, 9), (F.LNSI_ATTR_RETRY_EN 3, 1)] ++ l)
  { s with vin := f { s.vin with cyc := c } }

/-- A write of four bytes at the lookup of the lens decision. -/
def aCycle (s : State) : InCycle :=
  { stage := .lookup, bank := false, am := 0x09, xam := 0, addr := 0x100, write := true, rmw := false, size := 4, beats := 1, lensNo := 3
    lens := s.inLens false 3, rora := false, strobed := false, wphase := false, cur := 0x100, wdata := [], gather := [], gatherAt := 0
    ahead := [], aheadAt := 0, aheadEnd := none, slots := [], taken := [], cont := none }

theorem witness_VmeSlaveAnswersCycles :
    (let s := inbound [] none id
     goes (.vmeInAs 0x09 0 0x100 true false 4 1) s (fun t => (t.vin.cyc.map (fun c => (c.stage, c.addr, c.write))) == some (.lookup, 0x100, true) &&
       framed s t [.vin] []) = true) ∧
    (let w := inbound [] none id
     let c := aCycle w
     let s := inbound [] (some c) id
     let p := inbound [(F.LNSI_ATTR_POSTED 3, 1)] none id
     goes .vmeInLensDecision s (fun t => (t.vin.cyc.map (fun c => (c.stage, c.lensNo))) == some (.awaitData, 3)) = true ∧
     goes .vmeInLensDecision (inbound [] (some { c with write := false }) id) (fun t => (t.vin.cyc.map (·.stage)) == some .heldIssue) = true ∧
     goes .vmeInLensDecision (inbound [] (some { c with addr := 0x200000 }) id) (fun t => (t.vin.cyc.map (·.stage)) == some .ignored) = true ∧
     goes .vmeInLensDecision (inbound [(F.LNSI_FADDR_HI_NODE 3, 0)] (some { c with write := false }) id) (fun t => (t.vin.cyc.map (·.stage)) == some .ended &&
       t.out == [.vmeBerr] && t.flt.raised.map (·.code) == [Code.VME_LOOP] && t.reg K.VME_CNT_IN_BERR == 1) = true ∧
     goes .vmeInLensDecision (inbound [] (some { c with size := 8 }) id) (fun t => t.out == [.vmeBerr] && t.flt.raised.map (·.code) == [Code.VME_IN_UNSUPP]) = true ∧
     goes (.vmeInDataStrobe false [1, 2, 3, 4]) (inbound [] (some { c with stage := .awaitData }) id) (fun t =>
       (t.vin.cyc.map (fun c => (c.stage, c.wdata))) == some (.heldIssue, [1, 2, 3, 4])) = true ∧
     (let c := { aCycle p with stage := .awaitData }
      let s := inbound [(F.LNSI_ATTR_POSTED 3, 1)] (some c) id
      c.lens.posted = true ∧ s.canPost c 4 = true ∧
      goes (.vmeInDataStrobe false [1, 2, 3, 4]) s (fun t => t.vin.ipwq ==
        [⟨0, 3, 0x100, 9 * 2 ^ 48 + 0x100, [4, 3, 2, 1], true, none⟩] && t.out == [.vmeDtack []]) = true ∧
      (let u := inbound [(F.VME_IPWQ_LIMIT, 0)] (some c) id
       goes (.vmeInDataStrobe false [1, 2, 3, 4]) u (fun t => (t.vin.cyc.map (·.stage)) == some .heldQueue) = true) ∧
      (let q := inbound [] (some { c with stage := .heldQueue, wdata := [1, 2, 3, 4] }) id
       goes .vmeHoldTo q (fun t => goes .vmeInQueueSpace q (fun u => t == u)) = true) ∧
      goes .vmeInLensDecision (inbound [(F.LNSI_ATTR_POSTED 3, 1)] (some { c with stage := .lookup, strobed := true, wdata := [1, 2, 3, 4] }) id)
        (fun t => t.out == [.vmeDtack []] && t.vin.ipwq.length == 1) = true ∧
      goes .vmeInQueueSpace (inbound [] (some { c with stage := .heldQueue, wdata := [1, 2, 3, 4] }) id) (fun t => t.vin.ipwq.length == 1 &&
        t.out == [.vmeDtack []]) = true) ∧
     (let h := { c with stage := .heldIssue, strobed := true, wdata := [1, 2, 3, 4] }
      let s := inbound [] (some h) id
      goes .vmeInSplitIssue s (fun t => (t.vin.cyc.map (fun c => (c.stage, c.slots))) == some (.heldRing, [0]) &&
        (t.slotAt 0).any (fun r => r.held && r.write && r.len == 4)) = true ∧
      goes .vmeInSplitIssue (inbound [] (some h) (fun v => { v with ipwq := [⟨0, 3, 0, 0, [], true, none⟩] })) (fun t => (t.slotAt 0).isNone) = true) ∧
     (let r : RSlot := ⟨3, 2, 9, 0, true, false, false, 0x100, 4, 0, [], true, false, .parked St.OK [5, 6, 7, 8]⟩
      let h := { c with stage := .heldRing, strobed := true, slots := [2] }
      let at2 := fun (v : VmeIn) => { v with slots := setAt v.slots 2 (some r) }
      goes (.vmeInRingResult 2) (inbound [] (some h) at2) (fun t => t.out == [.vmeDtack []] && (t.slotAt 2).isNone && t.reg K.VME_CNT_IN_CYCLES == 1) = true ∧
      goes (.vmeInRingResult 2) (inbound [] (some { h with write := false }) at2) (fun t => t.out == [.vmeDtack (h.carry 0x100 [5, 6, 7, 8])]) = true ∧
      goes (.vmeInRingResult 1) (inbound [] (some h) at2) (fun t => t == inbound [] (some h) at2) = true) ∧
     goes (.vmeInDataStrobe false []) (inbound [] (some { c with stage := .heldRing, write := false }) id) (fun t => (t.vin.cyc.map (·.strobed)) == some true) = true) := by
  decide +kernel

theorem witness_HeldCyclesAndPostedWritesEnd :
    (let w := inbound [] none id
     let c := { aCycle w with stage := .heldRing, strobed := true, slots := [2] }
     let r : RSlot := ⟨3, 2, 9, 0, true, false, false, 0x100, 4, 0, [], true, false, .issued⟩
     let s := { inbound [] (some c) (fun v => { v with slots := setAt v.slots 2 (some r) }) with vme := { w.vme with waiting := [.ih] } }
     c.held = true ∧ c.lens.retryEn = true ∧
     goes .vmeHoldTo s (fun t => t.vin.cyc == some { c with stage := .ended, slots := [] } && t.slotAt 2 == some { r with held := false } &&
       t.out == [.vmeRetry (w.bit F.VME_ISLV_RTY_BERR)] && t.flt.raised.map (·.code) == [Code.VME_HOLD_TO]) = true ∧
     goes .vmeHoldTo { s with vin := { s.vin with cyc := some { c with wphase := true } } } (fun t => t.out == [.vmeBerr]) = true ∧
     goes .vmeInYield s (fun t => t.out == [.vmeRetry (w.bit F.VME_ISLV_RTY_BERR)] && t.flt == s.flt && framed s t [.regs, .vin, .stat, .out] [K.VME_CNT_IN_RETRY]) = true ∧
     goes .vmeInYield w (fun t => t == w) = true ∧
     goes (.vmeInAbandon false) s (fun t => t.vin.cyc == none && t.slotAt 2 == some { r with held := false } &&
       t.flt.raised.map (·.code) == [Code.VME_IN_ABANDON]) = true ∧
     (let e := inbound [] (some { c with stage := .ended, slots := [] }) id
      goes (.vmeInAbandon false) e (fun t => t == { e with vin := { e.vin with cyc := none } }) = true ∧ goes (.vmeInAbandon true) e (fun t => t == e) = true) ∧
     (let s := inbound [] (some { c with stage := .awaitData, rora := true }) id
      goes .vmeIntrRoraWrite s (fun t => t.out == [.vmeDtack []] && (t.vin.cyc.map (·.stage)) == some .ended) = true) ∧
     (let p := { r with held := false, st := .parked St.VME_BERR [] }
      let s := inbound [] none (fun v => { v with slots := setAt v.slots 2 (some p) })
      goes (.vmeRslotDiscard 2) s (fun t => (t.slotAt 2).isNone && t.flt.raised.map (fun x => (x.code, x.params)) ==
        [(Code.VME_RSLOT_DISCARD, [3, 0x100, 1, BitVec.ofNat 32 St.VME_BERR])]) = true ∧
      goes (.vmeRslotDiscard 3) s (fun t => t == s) = true)) ∧
    (let s := fun (st : Nat) => inbound [] none (fun v => { v with ipwq := [⟨0, 3, 0x100, 0, [1, 2, 3, 4], true, some (st, 1)⟩, ⟨1, 3, 0x200, 0, [], true, none⟩] })
     goes .vmeInPostedDone (s St.OK) (fun t => t.vin.ipwq.length == 1 && t.rd F.VME_IPWQ_DEPTH == 1 && t.flt.raised == []) = true ∧
     goes .vmeInPostedDone (s St.VME_BERR) (fun t => t.reg K.VME_CNT_IN_LOST_BYTES == 3 && t.flt.raised.map (·.code) == [Code.VME_IN_POSTED_LOST]) = true) := by
  decide +kernel

theorem witness_VmeInterruptsAreHandledAndRaised :
    (let s := withF [(F.VME_CTL_MASTER_EN, 1), (F.VME_IH_CTL_LEVEL_EN, 0x7F)]
     goes (.vmeIrqIn 3 true) s (fun t => t.vme.iackLevel == some 3 && t.vme.br && t.vme.waiting == [.ih] && (t.ihAt 3).asserted) = true ∧
     goes (.vmeIrqIn 0 true) s (fun t => t == s) = true ∧
     goes (.vmeIrqIn 3 true) (withF [(F.VME_IH_CTL_LEVEL_EN, 0x7F)]) (fun t => t.vin.masterOffRaised && t.flt.raised.map (·.code) == [Code.VME_MASTER_OFF]) = true ∧
     goes (.vmeIrqIn 3 true) (withF []) (fun t => (t.ihAt 3).asserted && framed (withF []) t [.vin] []) = true ∧
     (let u := s.setIh 3 ⟨true, true, false, true⟩
      goes (.vmeRoakRearm 3) u (fun t => t.ihAt 3 == ⟨true, true, true, true⟩) = true ∧ goes (.vmeRoraRearm 3) u (fun t => t == u) = true ∧
      goes (.vmeRoakRearm 3) (s.setIh 3 ⟨false, true, false, false⟩) (fun t => t.ihAt 3 == ⟨false, false, false, false⟩) = true)) ∧
    (let v : IntrVector := ⟨0x1234, some aTask, none, false⟩
     let s := fun (l : List (Fld × Nat)) => let u := withF ([(F.VME_INTR_LEVEL, 4)] ++ l); { u with vin := { u.vin with vectors := [v], irqOut := true } }
     goes (.interrupterIack 4 1) (s []) (fun t => t.out == [.vmeDtack [0x34]] && t.vin.vectors == [] && !t.vin.irqOut && t.vin.irqGap &&
       t.drv.results == [(aTask, ⟨St.OK, 0, leBytes 8 0⟩)] && t.reg K.VME_CNT_INTR_TAKEN == 1) = true ∧
     goes (.interrupterIack 4 2) (s [(F.VME_INTR_RORA, 1)]) (fun t => t.out == [.vmeDtack [0x12, 0x34]] && t.vin.vectors == [{ v with taken := true }]) = true ∧
     goes (.interrupterIack 5 1) (s []) (fun t => t.out == [.vmeIackOut]) = true ∧
     goes .intrReassert { s [] with vin := { (s []).vin with irqOut := false, irqGap := true } } (fun t => t.vin.irqOut && !t.vin.irqGap) = true ∧
     goes .vmeIrqNoack (s []) (fun t => t.vin.vectors == [] && !t.vin.irqOut && t.flt.raised.map (·.code) == [Code.VME_IRQ_NOACK] &&
       t.drv.results == [(aTask, ⟨St.IRQ_TIMEOUT, 0, leBytes 8 0⟩)]) = true) := by decide +kernel

/-- Drovers 0 and 1 enabled and running, with these folds, and a change of the rest. -/
def herd (l : List (Fld × Nat)) (f0 f1 : Drover → Drover) : State :=
  let s := withF ([(F.DRV_EN_LO_EN, 3), (F.DRV_EN_HI_EN, 0)] ++ l)
  let v := { Drover.idle 0 with st := .running }
  { s with drv := { s.drv with drv := [(0, f0 v), (1, f1 v)] } }

/-- A READ request of 8 bytes from node 5 to this node's DDR4. -/
def aRequest (op : Nat) (payload : List Byte) : Packet :=
  ⟨mkW0 0 5 7 1 Kind.REQUEST false 0 3 op 7, BitVec.ofNat 64 0x1000000000, payload⟩

theorem witness_RequestsBecomeTasks :
    (let s0 := herd [] id id
     let s := fun (p : Packet) (safe : Bool) => { s0 with net := { s0.net with taken := [[p], [], [], []] }, flt := { s0.flt with safe := safe } }
     let r := aRequest 0x01 []
     goes (.ringRequestDrop 0) (s r false) (fun t => (t.drover 0).fold.map (fun k => (k.op, k.srcNode, k.home, k.addr)) == [(1, 5, 0, 0x1000000000)] &&
       t.net == s0.net && t.fold.free == 110590) = true ∧
     goes (.ringRequestDrop 1) (s r false) (fun t => t == s r false) = true ∧
     goes (.descFwdRx 0) (s r false) (fun t => t == s r false) = true ∧
     goes (.descFwdRx 0) (s (aRequest 0x7F (leBytes 64 0x0100000000000008)) false) (fun t => (t.drover 0).fold.map (fun k => k.desc.length) == [64]) = true ∧
     (let q := { r with w0 := mkW0 0 5 7 0 Kind.REQUEST false 0 3 0x01 7 }
      goes (.ringRequestDrop 0) (s q true) (fun t => t.drv == s0.drv && t.flt.raised.map (·.code) == [Code.ADR_SAFE]) = true) ∧
     goes .stileWaitClear { s0 with drv := { s0.drv with waiting := [aTask] } } (fun t => t.drv.waiting == [] && (t.drover 0).fold.length == 1) = true ∧
     goes .stileWaitClear s0 (fun t => t == s0) = true) := by decide +kernel

theorem witness_DroversRunTheirOldestTask :
    (let k : Task := { aTask with op := 0x13, srcNode := 5, agent := 3 }
     let s := fun (k : Task) => herd [] (fun v => { v with fold := [k, aTask] }) id
     goes (.taskRun 0) (s k) (fun t => t.execOf 0 == some { Exec.start k with phase := .ready } && (t.drover 0).fold == [aTask] &&
       (t.drover 0).lastReq == some (5, 3)) = true ∧
     (let k := { k with ord := true, entered := true, stile := 400, seq := 1 }
      let s := { s k with drv := { (s k).drv with stiles := [(400, ⟨2, 0, [⟨0, (5, 3, 1), 0, 2, 0, 0, false, false⟩, ⟨1, (5, 3, 1), 1, 2, 0, 0, false, false⟩], [], some (5, 3, 1)⟩)] } }
      s.gateOpen k = false ∧ goes (.taskRun 0) s (fun t => t.execOf 0 == some (Exec.start k)) = true) ∧
     goes (.taskRun 0) (s { k with cls := 5 }) (fun t => t.execOf 0 == none && (t.drover 0).fold == [aTask] &&
       t.flt.raised.map (fun x => (x.code, x.src)) == [(Code.DRV_TASK_BAD, Src.drover 0)]) = true ∧
     goes (.taskRun 2) (s k) (fun t => t == s k) = true ∧
     (let u := herd [] (fun v => { v with exec := some (Exec.start k) }) id
      goes (.taskRun 0) u (fun t => t == u.setExec 0 { Exec.start k with phase := .ready }) = true)) := by decide +kernel

theorem witness_IdleDroversStealOrSleep :
    (let k : Task := { aTask with op := 0x13, age := 4 }
     let s := herd [(F.DRV_CTL_STEAL_EN, 1), (F.DRV_STEAL_LOCAL_MIN, 1), (F.DRV_STEAL_BATCH, 4), (F.DRV_STEAL_CROSS_EN, 0)] id
       (fun v => { v with fold := [k] })
     s.victimIn 0 0 0 1 = some 1 ∧ goes (.droverSteal 0) s (fun t => t.execOf 0 == some { Exec.start { k with steals := 1 } with phase := .ready } &&
       (t.drover 1).fold == [] && t.reg (K.DRV_D_STOLE 0) == 1 && t.reg (K.DRV_D_LOSS 1) == 1 && t.reg (K.DRV_BLK_LOCAL 0) == 1) = true ∧
     goes (.droverSteal 1) s (fun t => t == s) = true ∧
     goes (.droverSteal 0) (s.wr F.DRV_CTL_STEAL_EN 0) (fun t => t == (s.wr F.DRV_CTL_STEAL_EN 0).setDrover 0 { s.drover 0 with asleep := true }) = true ∧
     goes (.droverSleepEnd 0) (s.setDrover 0 { s.drover 0 with asleep := true }) (fun t => (t.drover 0).asleep == false && t.drv.woken == 1) = true ∧
     goes (.droverSleepEnd 0) ((s.setDrover 0 { s.drover 0 with asleep := true }).wr F.CLK_WAKE_WAKE_N 0) (fun t =>
       (t.drover 0).asleep && t.drv.wakeWait == [(0, false)]) = true) := by decide +kernel

theorem witness_ResultsPassTheReleaseGate :
    (let k : Task := { aTask with link := 1, op := 1, lenm1 := 7, agent := 3, pclass := 1 }
     let r : TaskResult := ⟨St.OK, 8, leBytes 8 5⟩
     let done := fun (k : Task) => drove [] (fun v => { v with exec := some { Exec.start k with phase := .ended, result := some r } })
     let pk := (⟨mkW0 0 0 7 1 Kind.RESPONSE false 0 3 1 7, mkRspW1 0 8, leBytes 8 5⟩ : Packet)
     goes (.stileResult 0) (done k) (fun t => t.execOf 0 == none && t.net.taken == [[], [], [pk], []] && t.reg (K.DRV_D_RUN 0) == 1) = true ∧
     (let o := { k with ord := true, entered := true, stile := 400, seq := 5 }
      let y : Stile := ⟨7, 4, [⟨4, (0, 3, 1), 0, 1, 0, 8, false, false⟩, ⟨5, (0, 3, 1), 1, 1, 0, 8, true, true⟩], [], some (0, 3, 1)⟩
      let s := { done o with drv := { (done o).drv with stiles := [(400, y)] } }
      goes (.stileResult 0) s (fun t => t.stileOf 400 == { y with parked := [(5, o, r)] } && t.execOf 0 == none) = true ∧
      (let s := { s with drv := { s.drv with stiles := [(400, { y with nextRelease := 5 })] } }
       goes (.stileResult 0) s (fun t => (t.stileOf 400).nextRelease == 6 && (t.stileOf 400).inflight.map (·.seq) == [4] &&
         t.net.taken.map List.length == [0, 0, 1, 0]) = true) ∧
      (let s := { State.reset with drv := { State.reset.drv with stiles := [(400, { y with parked := [(6, o, r)] })] } }
       s.seqLost 400 = true ∧ goes (.drvStileSkip 400) s (fun t => (t.stileOf 400).nextRelease == 5 && (t.stileOf 400).parked == [(6, o, r)] &&
         t.flt.raised.map (fun x => (x.code, x.params.take 2)) == [(Code.DRV_STILE_SKIP, [400#32, 4#32])]) = true)) ∧
     goes (.drvStileSkip 400) State.reset (fun t => t == State.reset) = true ∧
     (let s := { State.reset with drv := { State.reset.drv with results := [(k, r)] } }
      goes (.stileResult 64) s (fun t => t.drv.results == [] && t.net.taken == [[], [], [pk], []]) = true)) := by decide +kernel

theorem witness_DroversAreRevokedAndReload :
    (let k := { aTask with pinwhy := 2 }
     let s := drove [(F.DRV_CTL_REVOKE_MAX, 2)] (fun v => { v with fold := [k] })
     goes (.drvMemUe 0) s (fun t => (t.drover 0).st == .reloading && (t.drover 0).revokes == 1 && (t.drover 0).fold == [{ k with pinwhy := 0 }] &&
       t.flt.raised.map (fun x => (x.code, x.src)) == [(Code.DRV_MEM_UE, Src.drover 0)]) = true ∧
     goes (.drvTrap 0) (s.setDrover 0 { s.drover 0 with revokes := 1 }) (fun t => (t.drover 0).st == .removed && !t.drvEn 0 &&
       t.flt.raised.map (·.code) == [Code.DRV_TRAP, Code.DRV_REMOVED]) = true ∧
     (let s := s.setDrover 0 { s.drover 0 with exec := some { Exec.start k with phase := .ready } }
      s.wdogCounts 0 = true ∧ goes (.drvWdog 0) s (fun t => (t.drover 0).st == .reloading && (t.drover 0).exec == none) = true) ∧
     goes (.drvWdog 0) s (fun t => t == s) = true ∧ goes (.drvReloadDone 0 true) s (fun t => t == s) = true ∧
     (let s := s.setDrover 0 { s.drover 0 with st := .reloading }
      goes (.drvTrap 0) s (fun t => t == s) = true ∧
      s.reloadRuns 0 = true ∧ ((crc32c s.boot.golden).toNat == s.boot.goldenCrc) = true ∧
      goes (.drvReloadDone 0 true) s (fun t => (t.drover 0).st == .running && framed s t [.flt, .drv] []) = true ∧
      goes (.drvReloadDone 0 true) (s.wr F.CLK_WAKE_WAKE_N 0) (fun t => (t.drover 0).st == .reloading && t.drv.wakeWait == [(0, true)]) = true ∧
      goes (.drvReloadDone 0 false) s (fun t => (t.drover 0).st == .removed && !t.drvEn 0 &&
        framed s t [.regs, .flt, .drv] [K.DRV_EN_LO]) = true)) := by decide +kernel

theorem witness_CrossbarGrantsByClassAndCredit :
    (let s := withF []
     s.xbar.used.length = 4 ∧
     goes (.crossbarTransfer 1 [0, 0, 0] [(35, 6, 2, 3)]) s (fun t => t.xbarUsed 1 2 == 3 && t.xbarUsed 1 0 == 0 &&
       tget (fun _ => 0) t.xbar.nextCell 35 == 7 && framed s t [.xbar] []) = true ∧
     goes (.crossbarTransfer 1 [0, 0, 0] [(35, 6, 2, 3), (20, 1, 1, 1), (2, 0, 0, 5)]) s (fun t => t.xbarUsed 1 0 == 5 && t.xbarUsed 1 1 == 0 &&
       t.xbarUsed 1 2 == 0) = true ∧
     goes (.crossbarTransfer 1 [0, 0, 0] [(2, 0, 0, 6)]) s (fun t => t == s.xbarFree 1 [0, 0, 0]) = true) ∧
    (let s0 := withF [(F.FLT_INJ_PENDING, 1)]
     let s := { s0 with flt := { s0.flt with inject := some (6, 1, false) }, xbar := { s0.xbar with used := [[0, 0, 0], [4, 0, 0], [0, 0, 0], [0, 0, 0]] } }
     goes (.crossbarTransfer 1 [3, 0, 0] [(2, 0, 0, 4)]) s (fun t => t.xbarUsed 1 0 == 5 && t.flt.raised.map (·.code) == [Code.CHIP_XBAR_PARITY] &&
       !t.bit F.FLT_INJ_PENDING && framed s t [.regs, .flt, .xbar] [K.FLT_INJ]) = true) := by decide +kernel

/-- A line of the combining buffer with one valid byte. -/
def aLine (base : Nat) : WcLine := ⟨base, (some 7#8) :: List.replicate 63 none, [5], 5, false, []⟩

theorem witness_DdrScrubsAndTheBufferFlushes :
    (let s0 := withF [(F.DDR_CTL_SCRUB_EN, 1), (F.DDR_STAT_READY, 1), (F.DDR_CFG_SIZE, 1)]
     let s := fun (l : List (Nat × Bool)) (n : Nat) => { s0 with ddr := { s0.ddr with bad := l, scrubAt := n } }
     goes .ddrScrub (s [(4, true)] 0x1FFFFFFF) (fun t => t == s [(4, true)] 0) = true ∧
     goes .ddrScrub (s [(4, false), (5, true)] 4) (fun t => t.ddr == (s [(5, true)] 5).ddr && t.flt.raised.map (·.code) == [Code.DDR_CE] &&
       framed (s [] 0) t [.regs, .flt, .stat, .ddr] [K.DDR_CNT_CE]) = true ∧
     goes .ddrScrub (s [(4, true)] 4) (fun t => t.ddr == (s [(4, true)] 5).ddr && t.rd F.DDR_UE_ADDR_LO_ADDR_LO == 4 &&
       framed (s [] 0) t [.regs, .flt, .stat, .ddr] [K.DDR_CNT_UE, K.DDR_UE_ADDR_LO, K.DDR_UE_ADDR_HI]) = true ∧
     goes .ddrScrub (withF []) (fun t => t == withF []) = true ∧
     goes (.ddrInjArm 1#32) (withF []) (fun t => t.ddr.inject == some true && t.rd F.DDR_INJ_DOUBLE == 1 && framed (withF []) t [.regs, .ddr] [K.DDR_INJ]) = true) ∧
    (let s0 := withF []
     let s := { s0 with ord := { s0.ord with wc := [aLine 0, aLine 64], wcDone := [(0, 1, St.OK, 1)] } }
     goes (.wcTimeout 64) s (fun t => t.ord.wc.all (fun x => x.base != 64 || x.flushing) && t.reg K.CHIP_CNT_WC_FLUSH == 1) = true ∧
     goes (.wcTimeout 128) s (fun t => t == s) = true ∧
     goes .wcEnClear s (fun t => t.ord.wc.all (·.flushing) && !t.bit F.CHIP_WC_CTL_EN) = true ∧
     (let u := { s with ord := { s.ord with wc := [{ aLine 0 with flushing := true, writes := [(0, 1)] }] } }
      goes .wcFlushDone u (fun t => t.ord.wc == [] && t.ord.wcDone == [] && framed u t [.regs, .ord] [K.CHIP_WC_STAT]) = true ∧
      goes .wcFlushDone { u with ord := { u.ord with wcDone := [(0, 1, St.ADDR_ERROR, 0)] } } (fun t => t.ord.wc == [] && t.ord.wcDone == [] &&
        t.reg K.CHIP_CNT_WC_LOST_BYTES == 1 && framed u t [.regs, .flt, .ord, .stat] [K.CHIP_WC_STAT, K.CHIP_CNT_WC_LOST_BYTES]) = true)) ∧
    (let s0 := withF []
     let c := fun (n : Nat) => (⟨n, 5, 0, 7, 0, [], none, 0⟩ : Claim)
     let s := { s0 with ord := { s0.ord with claims := [c 1, c 2] } }
     goes (.claimTimeout 1 5) s (fun t => t.ord.claims == [c 2] && t.rd F.CHIP_CLM_STAT_INUSE == 1 && framed s t [.regs, .ord] [K.CHIP_CLM_STAT]) = true) := by
  decide +kernel

theorem witness_LensCacheInvalidatesAndTheDrainEnds :
    (let s0 := withF [(F.CHIP_LC_CTL_EN, 1)]
     let x := fun (a : Nat) => (⟨2, a, [], 0, none⟩ : LcLine)
     let c := fun (k : Nat) => (⟨1, 5, 2, k, 0, [], none, 0⟩ : Claim)
     let s := { s0 with ord := { s0.ord with lc := [(0, [x 0]), (1, [x 64, x 0x40040])], claims := [c 1, c 2] } }
     goes .lcInvAll s (fun t => t.ord.lc == [] && framed s t [.regs, .vme, .ord, .stat] [K.CHIP_CNT_LC_INV_ALL]) = true ∧
     goes .lcEnClear s (fun t => t.ord.lc == [] && !t.bit F.CHIP_LC_CTL_EN &&
       framed s t [.regs, .vme, .ord, .stat] [K.CHIP_CNT_LC_INV_ALL, K.CHIP_LC_CTL]) = true ∧
     goes (.lcSnoopWrite 0x09 0 100 4 true) s (fun t => t.ord.lc == []) = true ∧
     snoopSpace 0x10 0 = none ∧ goes (.lcSnoopWrite 0x10 0 100 4 false) s (fun t => t.ord.lc == []) = true ∧
     snoopSpace 0x09 0 = some 2 ∧
     goes (.lcSnoopWrite 0x09 0 0x100000064 4 false) s (fun t => t.ord.lc == [(0, [x 0]), (1, [x 0x40040])] && t.ord.claims == [c 2] &&
       t.reg K.CHIP_CNT_LC_SNOOP_INV == 1 && framed s t [.regs, .vme, .ord, .stat] [K.CHIP_CNT_LC_SNOOP_INV, K.CHIP_CLM_STAT]) = true) ∧
    (let s0 := withF [(F.CHIP_PF_STAT_STATE, 1), (F.REC_CFG_SIZE, 1)]
     let s := fun (w : Bool) (l : List WcLine) => { s0 with ord := { s0.ord with pfSince := some 0, pfWithdrawn := w, wc := l } }
     goes .pfDrainEmpty (s true []) (fun t => t.ord.pfSince == none && t.rd F.CHIP_PF_STAT_STATE == 0 &&
       t.recd.queue.map (·.code) == [RecCode.PF_DRAIN]) = true ∧
     goes .pfDrainEmpty (s true [aLine 0]) (fun t => t == s true [aLine 0]) = true ∧
     goes .pfDrainDeadline (s false [aLine 0, aLine 64]) (fun t => t.ord.pfSince == none && t.rd F.CHIP_PF_STAT_STATE == 2 && t.ord.wc == [] &&
       t.reg K.CHIP_CNT_PF_LOST_BYTES == 2) = true) := by decide +kernel

/-- A task for a descriptor of this node's command agent. -/
def ofDesc (desc : List Byte) : Task := { aTask with srcNode := 0, agent := 3, orig := 1, op := 0x7F, desc := desc }

theorem witness_MovesIssueTheirBlocks :
    (let s := fun (desc : List Byte) => doing [] (ofDesc desc)
     let far := 0x1000000400
     let asks := fun (i : Instr) (desc : List Byte) (u : Sub) => goes i (s desc) (fun t =>
       (t.execOf 0).any (fun z => z.phase == .ring && z.subs == [u] && z.next == u.len && z.toWrite == []) &&
       framed (s desc) { t with regs := (s desc).regs } [.regs, .flt, .drv, .ord, .net, .stat, .out] [] && (t.agent 3).accesses.length == 1)
     (s (aDesc 1 0 16 far 0x1000000000 0)).executesAway (ofDesc (aDesc 1 0 16 far 0x1000000000 0)) = false ∧
     asks (.read 0) (aDesc 1 0 16 far 0x1000000000 0) ⟨1, far, 0, 16⟩ = true ∧
     asks (.write 0) (aDesc 2 0 16 far 0x1000000000 0) ⟨1, 0x1000000000, 0, 16⟩ = true ∧
     asks (.writeNt 0) (aDesc 3 0 16 far 0x1000000000 0) ⟨1, 0x1000000000, 0, 16⟩ = true ∧
     asks (.copy 0) (aDesc 4 0 16 far 0x1000000000 0) ⟨1, 0x1000000000, 0, 16⟩ = true ∧
     asks (.fill 0) (aDesc 5 0 16 far 0 7) ⟨2, far, 0, 16⟩ = true ∧
     asks (.logRead 0) (aDesc 0x31 0 32 0x4000000000 0x1000000000 0) ⟨1, 0x4000000000, 0, 32⟩ = true ∧
     goes (.read 0) (s (aDesc 2 0 16 far 0 0)) (fun t => t == s (aDesc 2 0 16 far 0 0)) = true ∧
     goes (.fence 0) (withF []) (fun t => t == withF []) = true) ∧
    (let desc := aDesc 3 0 4 (0x1000000400) 0 0
     let desc := leBytes 8 (3 * 2 ^ 56 + 2 ^ 50 + 4) ++ desc.drop 8
     let s := doing [(F.CHIP_WC_CTL_EN, 1), (F.CHIP_WC_CTL_LINES, 4)] (ofDesc desc)
     (s.planOf (ofDesc desc)).merge = true ∧
     endsWith (.writeNt 0) s St.OK 4 [] (fun t => t.ord.wc.length == 1 && t.net == s.net) = true ∧
     (let far := desc.take 8 ++ leBytes 8 (2 ^ 63 + 0x1000000400) ++ desc.drop 16
      let s := doing [(F.CHIP_WC_CTL_EN, 1), (F.CHIP_WC_CTL_LINES, 4)] (ofDesc far)
      (s.planOf (ofDesc far)).merge = true ∧
      endsWith (.writeNt 0) s St.ADDR_ERROR 0 [] (fun t => t.ord.wc == []) = true)) := by decide +kernel

theorem witness_ClaimsCommitsAndAtomicsAtTheirHome :
    (let k := fun (op : Nat) (data : List Byte) => { aTask with op := op, lenm1 := 3, addr := 0x1000000040, srcNode := 0, agent := 3, data := data }
     let s := fun (op : Nat) (data : List Byte) =>
       let u := doing [(F.DDR_CFG_SIZE, 1)] (k op data)
       { u with ddr := { u.ddr with bytes := [(0x40, 1), (0x41, 2)] } }
     let c : Claim := ⟨0, 3, 5, 0x1000000040 / 64, 0, [], none, 0⟩
     let held := fun (u : State) => { u with ord := { u.ord with claims := [c, { c with agent := 4 }] } }
     let op := fun (n a b : Nat) => leBytes 8 n ++ leBytes 8 a ++ leBytes 8 b
     (s 0x10 []).decodeFault false 0x10 (k 0x10 []).off 4 = none ∧
     endsWith (.claim 0) (s 0x10 []) St.OK 4 [1, 2, 0, 0] (fun t => t.ord.claims == [{ c with data := [1, 2, 0, 0] }] && t.rd F.CHIP_CLM_STAT_INUSE == 1) = true ∧
     endsWith (.commit 0) (s 0x11 [9, 8, 7, 6]) St.CLAIM_LOST 0 [] (fun t => t.reg K.CHIP_CNT_CLM_LOST == 1 && t.ddr == (s 0x11 []).ddr) = true ∧
     endsWith (.commit 0) (held (s 0x11 [9, 8, 7, 6])) St.OK 4 [] (fun t => t.reg K.CHIP_CNT_CLM_OK == 1 && t.ord.claims == [] &&
       t.ddr.bytes == [(0x40, 9), (0x41, 8), (0x42, 7), (0x43, 6)]) = true ∧
     endsWith (.fetchAdd 0) (s 0x12 (op 0 0xFFFF0000 0)) St.OK 4 [1, 2, 0, 0] (fun t => t.ddr.bytes == [(0x40, 1), (0x41, 2), (0x42, 0xFF), (0x43, 0xFF)]) = true ∧
     endsWith (.swap 0) (s 0x12 (op 1 5 0)) St.OK 4 [1, 2, 0, 0] (fun t => t.ddr.bytes == [(0x40, 5)]) = true ∧
     endsWith (.cmpSwap 0) (s 0x12 (op 2 5 0x201)) St.OK 4 [1, 2, 0, 0] (fun t => t.ddr.bytes == [(0x40, 5)]) = true ∧
     endsWith (.cmpSwap 0) (s 0x12 (op 2 5 0x202)) St.OK 4 [1, 2, 0, 0] (fun t => t.ddr.bytes == [(0x40, 1), (0x41, 2)]) = true) := by decide +kernel

theorem witness_BarriersEnd :
    (let own := fun (op sub : Nat) => doing [] { aTask with srcNode := 0, agent := 3, orig := 1, desc := aDesc op sub 0 0 0 0 }
     let other := fun (op : Nat) => doing [] { aTask with op := op, agent := 3 }
     let k := agentKey 4 3
     endsWith (.fence 0) (other 0x13) St.OK 0 [] (fun t => framed (other 0x13) t [.drv] []) = true ∧
     endsWith (.fence 0) (own 0x13 2) St.OK 0 [] (fun t => framed (own 0x13 2) t [.drv, .ord] []) = true ∧
     endsWith (.done 0) ((other 0x14).setConfirm k ⟨0, 2, [], []⟩) St.DONE_FAILED 2 [] (fun t => (t.confirmOf k).failed == 0) = true ∧
     endsWith (.done 0) (own 0x14 0) St.OK 0 [] (fun t => t.reg K.CHIP_CNT_DONE_OK == 1) = true ∧
     endsWith (.done 0) ((own 0x14 0).setAgent 3 ⟨0, 0, [], none, [], 1, []⟩) St.DONE_FAILED 1 [] (fun t => t.reg K.CHIP_CNT_DONE_FAIL == 1 && (t.agent 3).unsent == 0) = true ∧
     endsWith (.doneTimeout 0) ((own 0x14 0).setExec 0 { Exec.start { aTask with srcNode := 0, agent := 3, orig := 1, desc := aDesc 0x14 0 0 0 0 0 } with
       phase := .ring, aux := 2 }) St.DONE_TIMEOUT 0 [] (fun t => t.reg K.CHIP_CNT_DONE_FAIL == 1) = true ∧
     goes (.doneTimeout 0) (own 0x14 0) (fun t => t == own 0x14 0) = true ∧
     endsWith (.phaseWait 0) (own 0x15 0) St.OK 0 [] (fun t => framed (own 0x15 0) t [.drv] []) = true) := by decide +kernel

/-- A descriptor's task of a far agent, carried here. -/
def carried (l : List (Fld × Nat)) (desc : List Byte) : State := doing l { aTask with agent := 3, desc := desc }

theorem witness_DescriptorsActAtTheirNode :
    (let send := leBytes 8 (0x20 * 2 ^ 56 + 2 ^ 50 + 4) ++ leBytes 8 0x2000001000 ++ leBytes 8 0 ++ [1, 2, 3, 4] ++ leBytes 36 0
     let k : Task := { aTask with desc := send }
     let on := [(F.SP_CTL_EN 0, 1), (F.FLD_HMAP_FOLD 64, 70), (F.FLD_F_QUOTA_QUOTA 70, 9), (F.FLD_F_RSV_RSV 70, 9)]
     descHead k true = some 64 ∧
     endsWith (.send 0) (carried [] send) St.PORT_OFF 0 [] (fun _ => true) = true ∧
     endsWith (.send 0) (carried on send) St.OK 4 [] (fun t => (t.foldOf 70).words.length == 1 && (t.foldOf 70).packets == 1) = true) ∧
    (let recv := fun (w : Nat) => aDesc 0x21 0 32 0x2000000000 0x1000000000 w
     let k : Task := { aTask with agent := 3, desc := recv 0 }
     let s := carried [(F.SP_CTL_EN 0, 1), (F.FLD_HMAP_FOLD 0, 70)] (recv 0)
     descHead k false = some 0 ∧
     endsWith (.recvPost 0) (carried [] (recv 0)) St.PORT_OFF 0 [] (fun _ => true) = true ∧
     goes (.recvPost 0) s (fun t => t.execOf 0 == none && t.fold.posts == [⟨k, 0⟩]) = true ∧
     (let s := { s with fold := { s.fold with posts := [⟨{ k with desc := recv 9 }, 0⟩] } }
      goes (.recvPostExpiry 0) s (fun t => t.fold.posts == [] && t.drv.results == [({ k with desc := recv 9 }, ⟨St.OK, 0, []⟩)]) = true ∧
      goes (.recvPostExpiry 1) s (fun t => t == s) = true)) ∧
    (let irq := aDesc 0x22 0 0 0 0 0x55
     goes (.irqRaise 0) (carried [(F.VME_INTR_LEVEL, 3)] irq) (fun t => t.vin.vectors.map (·.vector) == [0x55#32] && t.vin.irqOut && t.execOf 0 == none) = true ∧
     goes (.irqRaise 0) (carried [] irq) (fun t => t.drv.results.map (fun r => r.2.status) == [St.IRQ_DISABLED] && !t.vin.irqOut) = true) ∧
    endsWith (.statusReg 0) (carried [(F.VME_INTR_LEVEL, 3)] (aDesc 0x30 0 4 (0x3000000000 + K.FLT_CTL) 0 0)) St.OK 4
      (leBytes 8 (resetWord K.FLT_CTL).toNat) (fun _ => true) = true ∧
    endsWith (.statusNonce 0) (carried [] (aDesc 0x30 1 0 0 0 0)) St.OK 0 (leBytes 8 0) (fun _ => true) = true ∧
    endsWith (.configStage 0) (carried [] (aDesc 0x40 0 4 0x3000000024 0 3)) St.OK 4 [] (fun t => t.reg 0x24 == 3) = true ∧
    goes (.configCommitNext 0) (carried [] (aDesc 0x41 0 0 0 0 0)) (fun t => t.commits.map (fun c => (c.target, c.pending)) == [(none, false)] && t.execOf 0 == none) = true ∧
    goes (.configCommitNamed 0) (carried [] (aDesc 0x41 1 0 0 0 9)) (fun t => t.commits.map (·.target) == [some 9] && t.commitTarget == 9) = true ∧
    endsWith (.mirrorMark 0) (carried [] (aDesc 0x50 0 0 0 0 9)) St.TWIN_OFF 0 [] (fun _ => true) = true ∧
    (let s := carried [(F.TWN_CTL_EN, 1), (F.TWN_STAT_CROOK, 1)] (aDesc 0x50 0 0 0 0 9)
     s.twinOn = true ∧ goes (.mirrorMark 0) s (fun t => t.twin.marks.map (·.1) == [9] && t.execOf 0 == none) = true) := by decide +kernel

theorem witness_LogClearNeedsItsAuthorisation :
    (let s := fun (sub : Nat) (l : List (Fld × Nat)) => carried l (aDesc 0x32 sub 0 0 0 0)
     endsWith (.logClearClear 0) (s 0 []) St.AUTH_FAIL 0 [] (fun t => t.recd.fails == 1 && t.recd.clearing == none &&
       t.flt.raised.map (·.code) == [Code.REC_AUTH_FAIL] && t.reg K.REC_CNT_AUTH_FAIL == 1) = true ∧
     endsWith (.monUnlock 0) (s 1 [(F.SVC_STAT_LOCKED, 1)]) St.AUTH_FAIL 0 [] (fun t => t.rd F.SVC_STAT_LOCKED == 1) = true ∧
     endsWith (.logClearReset 0) (s 2 []) St.AUTH_FAIL 0 [] (fun t => !t.boot.resetDue) = true) ∧
    (let mac := fun (sub : Nat) => hmacSha256 [1, 2] (authMessage 0 sub 0)
     let s := fun (sub : Nat) =>
       let u := carried [(F.REC_STAT_KEY_SET, 1), (F.SVC_STAT_LOCKED, 1)] (leBytes 8 (0x32 * 2 ^ 56 + sub * 2 ^ 40) ++ leBytes 8 0 ++ leBytes 8 0 ++ mac sub ++ leBytes 8 0)
       { u with boot := { u.boot with otpKey := [1, 2] } }
     goes (.logClearClear 0) (s 0) (fun t => t.recd.clearing.isSome && t.bit F.REC_STAT_CLEARING && t.execOf 0 == none) = true ∧
     endsWith (.monUnlock 0) (s 1) St.OK 0 [] (fun t => t.rd F.SVC_STAT_LOCKED == 0 && t.flt.raised.map (·.code) == [Code.SVC_UNLOCK]) = true ∧
     endsWith (.logClearReset 0) (s 2) St.OK 0 [] (fun t => t.boot.resetDue && t.flt.raised.map (·.code) == [Code.CHIP_RESET_CMD]) = true) := by
  decide +kernel

/-- Fold 70 behind the send head 64, with room and two words of one packet. -/
def folded (k : Task) (quota : Nat) (f : FoldUnit → FoldUnit) : State :=
  let s := doing [(F.FLD_HMAP_FOLD 64, 70), (F.FLD_HMAP_FOLD 0, 70), (F.FLD_F_QUOTA_QUOTA 70, quota), (F.FLD_F_RSV_RSV 70, quota), (F.FLD_SEL_FOLD, 70)] k
  let s := s.setFold 70 ⟨[⟨7, 0xB8, false, 0, none⟩, ⟨8, 0xF8, true, 0, none⟩], 1, 1, [], true⟩
  { s with fold := f s.fold }

theorem witness_FoldHeadsPushPopAndCount :
    (let k := fun (op addr n : Nat) (data : List Byte) => { aTask with op := op, lenm1 := n - 1, addr := 0x2000000000 + addr, agent := 3, data := data }
     let e := leBytes 8 9 ++ leBytes 1 0xF8 ++ leBytes 7 0
     let x := folded (k 2 0x1000 16 e) 9 id
     headAt (k 1 0 16 []).off = some (0, 0) ∧ headOp 0 0 16 true = .pop 1 true ∧
     headAt (k 2 0x1000 16 e).off = some (64, 0) ∧ headOp 64 0 16 false = .push ∧ x.cellGranted 70 = true ∧
     endsWith (.foldHeadCount 0) (folded (k 1 0x800 8 []) 9 id) St.OK 8 (leBytes 4 2 ++ leBytes 4 1) (fun _ => true) = true ∧
     endsWith (.foldHeadRead 0) (folded (k 1 0 16 []) 9 id) St.OK 16 (leBytes 8 7 ++ leBytes 1 0xB8 ++ leBytes 7 0)
       (fun t => (t.foldOf 70).words.length == 1 && (t.foldOf 70).packets == 1) = true ∧
     endsWith (.foldHeadRead 0) ((folded (k 1 0 16 []) 9 id).setFold 70 ⟨[], 0, 0, [], false⟩) St.OK 16 (leBytes 16 0) (fun _ => true) = true ∧
     endsWith (.foldHeadWrite 0) x St.OK 16 [] (fun t => (t.foldOf 70).words.map (·.w) == [7, 8, 9] && (t.foldOf 70).packets == 2 &&
       (t.foldOf 70).held == 2 && t.fold.free == x.fold.free - 1) = true ∧
     (let y := folded (k 2 0x1000 16 e) 1 id
      y.cellGranted 70 = false ∧
      goes (.foldHeadWrite 0) y (fun t => t.fold.heldPushes == [⟨64, [(9, 0xF8)], agentKey 4 3 + 1, some 0⟩] && (t.execOf 0).any (·.phase == .field)) = true) ∧
     (let y := folded (k 2 0x1000 16 e) 9 (fun u => { u with heldPushes := [⟨64, [(9, 0xF8)], 5, some 0⟩] })
      endsWith .foldPushGrant y St.OK 16 [] (fun t => t.fold.heldPushes == [] && (t.foldOf 70).words.map (·.who) == [0, 0, 5]) = true) ∧
     goes .foldPushGrant x (fun t => t == x) = true) := by decide +kernel

theorem witness_FoldsAreFlushedSweptAndWatched :
    (let s := folded aTask 9 id
     goes (.foldStale 70) (s.wr (F.FLD_F_STALE_STALE_US 70) 5) (fun t => !(t.foldOf 70).staleRun && t.bit (F.FLD_F_STAT_STALE_N 70)) = true ∧
     goes (.foldStale 70) s (fun t => t == s) = true ∧ goes (.foldStale 71) s (fun t => t == s) = true ∧
     goes .foldFlush s (fun t => t.foldOf 70 == ⟨[], 0, 0, [], false⟩ && t.fold.oldNow == 1 && t.fold.sweepBusy && t.reg K.FLD_CNT_FLUSH_WORDS == 2) = true ∧
     goes .floorRst s (fun t => t.rd (F.FLD_F_FLOOR_FLOOR 70) == 2) = true ∧
     goes .sweepPassEnd (folded aTask 9 (fun u => { u with sweepBusy := true, oldNow := 5, oldNext := 6, sweepFolds := [70], free := 10 }))
       (fun t => t.fold.free == 15 && t.fold.oldNow == 6 && t.fold.sweepBusy) = true ∧
     goes .sweepPassEnd s (fun t => t == s) = true ∧
     goes (.fldInjArm 0x1046#32) s (fun t => t.fold.inject == [(0x46, true)] && t.rd F.FLD_INJ_FOLD == 0x46) = true) := by decide +kernel

/-- A head node whose endpoint link is up, in D0. -/
def headNode (l : List (Fld × Nat)) : State :=
  withF ([(F.HST_CTL_HEAD, 1), (F.HST_PCIE_STAT_LINK_UP, 1), (F.HST_PCIE_STAT_BME, 1), (F.CHIP_BOOT_STAT_STAGE, 5)] ++ l)

def withHost (s : State) (f : HostUnit → HostUnit) : State := { s with host := f s.host }

theorem witness_HostRingsArePolledFetchedAndWritten :
    (let s := withF [(F.HST_CTL_FETCH_EN, 1), (F.HST_DB_BASE_HI_BASE_HI, 16)]
     goes .doorbellPoll s (fun t => t.host.polling && t.reg K.HST_CNT_POLL == 1 && t.host.polled.length + t.net.tags.length == 16) = true ∧
     goes .doorbellPoll (withF []) (fun t => t == withF []) = true ∧
     (let p := fun (st : Nat) => withHost s (fun h => { h with polling := true, polled := (List.range 16).map (fun i => (256 * i, st, leBytes 256 0)) })
      goes .doorbellReadDone (p St.MEM_UE) (fun t => !t.host.polling && t.host.pollBad && t.flt.raised.map (·.code) == [Code.HST_FETCH_ERR]) = true ∧
      goes .doorbellReadDone (p St.OK) (fun t => !t.host.polling && !t.host.pollBad && t.flt.raised == []) = true ∧
      goes .doorbellReadDone s (fun t => t == s) = true)) ∧
    (let f := fun (st : Nat) => (⟨0, 1, 0x1000000000, some (st, aDesc 0x15 0 0 0 0 0)⟩ : FetchRec)
     let s := fun (st : Nat) => (withF [(F.DRV_EN_LO_EN, 3), (F.HST_SH_BASE_HI_BASE_HI, 16)]).setFetches 2 [f st]
     goes (.descFetchDone 2) (s St.OK) (fun t => t.fetchesOf 2 == [] && t.rd (F.HST_CR_CI_CI 2) == 1 && t.reg K.HST_CNT_DESC == 1) = true ∧
     goes (.descFetchDone 2) (s St.MEM_UE) (fun t => t.fetchesOf 2 == [] && t.bit (F.HST_CR_STAT_STOPPED 2) && t.drv == (s 0).drv &&
       t.flt.raised.map (·.code) == [Code.HST_FETCH_ERR]) = true ∧
     goes (.descFetchDone 3) (s 0) (fun t => t == s 0) = true ∧ goes (.descFetchDone 256) (s 0) (fun t => t == s 0) = true) ∧
    (let s0 := withF [(F.HST_CQ_CTL_EN 1, 1), (F.HST_CQ_CTL_SIZE 1, 8), (F.HST_CQ_BASE_HI_BASE_HI 1, 16), (F.HST_CQ_CTL_MSIX_VEC 1, 3)]
     let e : RingEntry := ⟨1, true, none, none, leBytes 16 7, false⟩
     let s := withHost s0 (fun h => { h with queue := [e] })
     goes (.cqSpaceFree 1) s (fun t => t.host.queue == [] && t.writer 1 == some ⟨e, s.entrySteps e⟩ && t.net != s.net) = true ∧
     goes (.cqSpaceFree 1) s0 (fun t => t == s0) = true ∧
     (let s := fun (b : Bool) => withHost (headNode [(F.HST_CQ_CTL_MSIX_VEC 1, 3)]) (fun h => { h with coal := [(1, b)], msixEn := true, msix := [(3, ⟨0x40, 9, false⟩)] })
      goes (.msixCoalExpiry 1) (s false) (fun t => t.host.coal == [] && t.out == []) = true ∧
      goes (.msixCoalExpiry 1) (s true) (fun t => t.host.coal == [(1, false)] && t.out == [.msix 0x40 9]) = true ∧
      goes (.msixCoalExpiry 2) (s true) (fun t => t == s true) = true)) := by decide +kernel

theorem witness_TheBarsAnswerTheHost :
    (let s := headNode []
     goes (.bar0Tlp false 5 0x24 4 []) s (fun t => t.out == [.tlpData 5 (leBytes 4 (resetWord 0x24).toNat)] && framed s t [.out] []) = true ∧
     goes (.bar0Tlp true 5 0x24 4 (leBytes 4 7)) s (fun t => t.reg 0x24 == 7) = true ∧
     goes (.bar0Tlp false 5 0x25 4 []) s (fun t => t.out == [.tlpStatus 5 true] && t.flt.raised.map (·.code) == [Code.ADR_SETUP]) = true ∧
     goes (.bar0Tlp false 5 0x24 4 []) (withHost s (fun h => { h with d3 := true })) (fun t => t.out == [.tlpStatus 5 true]) = true ∧
     goes (.bar0Tlp false 5 0x24 4 []) (withF []) (fun t => t == withF []) = true ∧
     goes (.unsupportedTlp 6) s (fun t => t.out == [.tlpStatus 6 true]) = true ∧
     goes (.bar2Tlp true 5 0 4 [1, 2, 3, 4]) s (fun t => t.reg K.HST_CNT_B2_LOST_BYTES == 4 && t.host == s.host) = true ∧
     goes (.bar2Tlp false 5 0 4 []) s (fun t => t.out == [.tlpStatus 5 true]) = true ∧
     (let s := headNode [(F.HST_PCIE_CTL_B2_EN, 1), (F.HST_B2_BASE_OFFSET_HI, 1)]
      goes (.bar2Tlp false 5 0x40 4 []) s (fun t => t.host.tlps.map (fun x => (x.addr, x.next, x.open_)) == [(0x1000000040, 4, [(0x1000000040, 4)])] && t.net != s.net) = true) ∧
     goes (.bar4Tlp false 7 0 16 []) s (fun t => t.out == [.tlpData 7 (leBytes 12 0 ++ leBytes 4 1)]) = true ∧
     goes (.bar4Tlp true 7 32 16 (leBytes 8 0x1003 ++ leBytes 4 5 ++ leBytes 4 2)) s (fun t => t.msixEntry 2 == ⟨0x1000, 5, false⟩ && framed s t [.host] []) = true) := by
  decide +kernel

theorem witness_HostWindowAndLinkEvents :
    (let u := drove [(F.HST_CTL_HEAD, 1), (F.HST_PCIE_STAT_LINK_UP, 1), (F.CHIP_BOOT_STAT_STAGE, 5)]
       (fun v => { v with exec := some { Exec.start { aTask with op := 0x01, lenm1 := 3 } with phase := .host } })
     let r : HostReq := ⟨9, some 0, 0, 0, 0, 0x100, 4, [], true⟩
     let s := withHost u (fun h => { h with reqs := [r] })
     s.hostReq 9 = some r ∧
     endsWith (.hostWindowCompletion 9 0 [1, 2, 3, 4]) s St.OK 4 [1, 2, 3, 4] (fun t => t.host.reqs == []) = true ∧
     goes (.hostWindowCompletion 9 0 [1]) s (fun t => t == s) = true ∧ goes (.hostCompletionTimeout 8) s (fun t => t == s) = true ∧
     endsWith (.hostWindowCompletion 9 1 []) s St.HOST_ABORT 0 [] (fun t => t.reg K.HST_CNT_HOST_ABORT == 1) = true ∧
     endsWith (.hostCompletionTimeout 9) s St.HOST_ABORT 0 [] (fun t => t.flt.raised.map (·.code) == [Code.HST_HOST_ABORT]) = true) ∧
    (let s := withHost (headNode []) (fun h => { h with msix := [(1, ⟨4, 5, false⟩)], credits := 7, mps := 256 })
     goes (.pcieFlr false) s (fun t => t.host.msix == [] && t.host.credits == 7 && t.host.mps == 128 && t.pcieUp && !t.bit F.HST_PCIE_STAT_BME) = true ∧
     goes (.pcieFlr true) s (fun t => t.host.credits == 0 && !t.pcieUp && (t.agent s.bar2Agent).exc == 1) = true ∧
     goes (.pcieFlowControlUpdate 3) s (fun t => t.host.credits == 10) = true ∧
     goes (.pcieConfigRequest true 5 0x04 0 false ⟨true, false, true, false⟩ 1024 512) s (fun t => !t.bit F.HST_PCIE_STAT_BME && t.host.atomicEn && t.host.funcMask &&
       t.host.mrrs == 1024 && t.host.mps == 512) = true ∧
     goes (.pcieConfigRequest true 5 0x04 0 false ⟨true, false, true, false⟩ 1024 512) (s.wr F.CHIP_BOOT_STAT_STAGE 1) (fun t => t.out == [.crs]) = true ∧
     s.configKnown 0x08 = (0xFFFFFF00#32, 0x06800000#32) ∧
     goes (.pcieConfigRequest false 5 0x10 0 false ⟨true, false, true, false⟩ 1024 512) s (fun t => framed s t [.out, .freeCtr] []) = true ∧
     goes (.pcieConfigRequest true 5 0x10 0xFFFFFFFF#32 false ⟨true, false, true, false⟩ 1024 512) s (fun t =>
       t.host == { s.host with bars := [0xFFFF0004, 0, 0xC, 0, 4, 0] }) = true) ∧
    (let u := withF [(F.HST_CTL_HEAD, 1)]
     let s := { u with boot := { u.boot with pll := true } }
     goes (.pcieLinkUp 4 8) s (fun t => t.pcieUp && t.rd F.HST_PCIE_STAT_SPEED == 4 && t.rd F.HST_PCIE_STAT_WIDTH == 8) = true ∧
     goes (.pcieLinkUp 4 3) s (fun t => t == s) = true) := by decide +kernel

/-- Port 0 enabled, in this condition. -/
def serial (l : List (Fld × Nat)) (f : SerialPort → SerialPort) : State :=
  let s := withF ([(F.SP_CTL_EN 0, 1), (F.SP_FRAME_MAXLEN 0, 200)] ++ l)
  s.setSp 0 (f (s.sp 0))

theorem witness_SerialPortsFrameSendAndPoll :
    (let off := withF []
     goes (.serialRxChar 0 0x41 false false) off (fun t => t == off) = true ∧ goes (.serialTxStart 64) off (fun t => t == off) = true) ∧
    (let raw := serial [(F.SP_CTL_FRAMER 0, 0)]
     let held : HeldPush := ⟨0, [], 0, none⟩
     let holds := fun (s : State) => { s with fold := { s.fold with heldPushes := [held] } }
     goes (.serialRxChar 0 0x41 true false) (raw id) (fun t => (t.sp 0).frame == [0x41] && (t.sp 0).flags == 64 && (t.sp 0).open_) = true ∧
     goes (.serialRxChar 0 0x41 false false) (holds (raw (fun p => { p with frame := List.replicate 256 0 }))) (fun t => (t.sp 0).lost == 1 && t.bit (F.SP_STAT_OVR 0) &&
       t.flt.raised.map (·.code) == [Code.SP_OVERRUN]) = true ∧
     goes (.serialIdleTimeout 0 0) (holds (raw (fun p => { p with frame := [1, 2], open_ := true }))) (fun t => t.fold.heldPushes.length == 2 && !(t.sp 0).open_) = true ∧
     goes (.serialIdleTimeout 0 1) (raw id) (fun t => t == raw id) = true ∧
     goes (.serialIdleTimeout 0 0) (serial [(F.SP_CTL_FRAMER 0, 3), (F.SP_CTL_BAD_DROP 0, 1)] (fun p => { p with frame := [1], open_ := true }))
       (fun t => t.bit (F.SP_STAT_BADFRAME 0) && t.rd (F.SP_STAT_BAD 0) == 1 && (t.sp 0).frame == []) = true ∧
     (let nm := serial [(F.SP_CTL_FRAMER 0, 1)]
      goes (.serialRxChar 0 0x24 false false) (nm id) (fun t => (t.sp 0).frame == [0x24] && (t.sp 0).open_) = true ∧
      goes (.serialRxChar 0 0x41 false false) (nm id) (fun t => (t.sp 0).frame == []) = true ∧
      goes (.serialRxChar 0 0x41 false false) (nm (fun p => { p with frame := [0x24], open_ := true })) (fun t => (t.sp 0).frame == [0x24, 0x41]) = true) ∧
     (let mb := serial [(F.SP_CTL_FRAMER 0, 2)]
      goes (.serialRxChar 0 5 false false) (mb id) (fun t => (t.sp 0).frame == [5]) = true ∧
      goes (.serialRxChar 0 5 false false) (mb (fun p => { p with skipping := true })) (fun t => (t.sp 0).frame == [] && !(t.sp 0).quiet) = true ∧
      goes (.serialRxChar 0 5 false false) (mb (fun p => { p with open_ := true, gapSeen := true })) (fun t => (t.sp 0).flags == 2) = true ∧
      goes (.serialIdleTimeout 0 1) (mb (fun p => { p with open_ := true })) (fun t => (t.sp 0).gapSeen) = true ∧
      goes (.serialIdleTimeout 0 2) (mb (fun p => { p with skipping := true })) (fun t => !(t.sp 0).skipping) = true ∧
      goes (.serialTxStart 0) (mb (fun p => { p with pollReq := some (3, [1, 2, 3]) })) (fun t => (t.sp 0).turn && (t.sp 0).pollReq == none && t.out.length == 1) = true ∧
      goes (.modbusPollPeriod 0) ((mb (fun p => { p with pass := some 3 })).wr (F.SP_POLL_PEN 0) 1) (fun t => t.bit (F.SP_STAT_PSKIP 0)) = true ∧
      goes (.modbusPollPeriod 0) ((mb id).wr (F.SP_POLL_PEN 0) 1) (fun t => (t.sp 0).pass == none && t.flt == (mb id).flt) = true ∧
      (let q := ((mb id).wr (F.SP_POLL_PEN 0) 1).wr (F.SP_POLL_ENTRIES 0) 1
       let q := { q with ddr := { q.ddr with bytes := [(7, 0x80)] } }
       goes (.modbusPollPeriod 0) q (fun t => (t.sp 0).pass == some 0) = true) ∧
      goes (.modbusPollPeriod 0) (mb id) (fun t => t == mb id) = true) ∧
     (let x : SerialTx := ⟨[0x41, 0x42], 0, false, false, [], none⟩
      let h := serial [(F.SP_CTL_FRAMER 0, 0), (F.SP_CTL_WIRE 0, 1), (F.SP_CTL_ECHO 0, 1)]
      goes (.serialRxChar 0 0x41 false false) (h (fun p => { p with tx := some x, de := true })) (fun t => (t.sp 0).tx == some { x with echoed := 1 }) = true ∧
      goes (.serialRxChar 0 0x43 false false) (h (fun p => { p with tx := some x, de := true })) (fun t => (t.sp 0).tx == some { x with echoBad := true } && t.bit (F.SP_STAT_ECHO 0)) = true ∧
      goes (.serialRxChar 0 0x43 false false) (h (fun p => { p with de := true })) (fun t => (t.sp 0).frame == []) = true ∧
      goes (.serialTxStart 0) (h (fun p => { p with pollReq := some (3, [1, 2, 3]) })) (fun t => (t.sp 0).de && t.out == [.serial 0 [1, 2, 3], .de 0 true]) = true ∧
      (let q := h id
       let q := q.wr (F.FLD_HMAP_FOLD 64) 70
       let q := q.setFold 70 ⟨[⟨0x4142, 0x4D, true, 0, none⟩], 1, 1, [], false⟩
       let q2 := q.setFold 70 ⟨[⟨0x4142, 0x48, true, 0, none⟩], 1, 1, [], false⟩
       (q.popPacket 64).isSome = true ∧ goes (.serialTxStart 0) q2 (fun t => (t.sp 0).tx.map (·.bytes) == some [0x42, 0x41] && (t.foldOf 70).words == []) = true ∧
       (let q3 := (q2.wr (F.SP_CTL_FRAMER 0) 2).setFold 70 ⟨[⟨0x4142, 0x40, true, 0, none⟩], 1, 1, [], false⟩
        goes (.serialTxStart 0) q3 (fun t => t.bit (F.SP_STAT_TXBAD 0) && t.flt.raised.map (·.code) == [Code.SP_TX_BAD]) = true)) ∧
      goes (.serialTxDone 0) (h (fun p => { p with tx := some x })) (fun t => (t.sp 0).tx == some { x with sent := true }) = true ∧
      goes (.serialTxDone 0) (h (fun p => { p with tx := some { x with echoed := 2 } })) (fun t => (t.sp 0).tx == none) = true ∧
      goes (.serialTxDone 0) (h id) (fun t => t == h id) = true ∧
      goes (.serialDeLagEnd 0) (h (fun p => { p with de := true })) (fun t => !(t.sp 0).de && t.out == [.de 0 false]) = true ∧
      goes (.serialDeLagEnd 0) (h (fun p => { p with de := true, tx := some x })) (fun t => (t.sp 0).de) = true ∧
      goes (.spEcho 0) (h (fun p => { p with tx := some { x with sent := true } })) (fun t => (t.sp 0).tx == none && t.bit (F.SP_STAT_ECHO 0)) = true ∧
      goes (.spEcho 0) (h id) (fun t => t == h id) = true ∧
      goes (.spNoReply 0) (h (fun p => { p with turn := true })) (fun t => !(t.sp 0).turn && t.bit (F.SP_STAT_NOREPLY 0)) = true ∧
      goes (.spNoReply 0) (h id) (fun t => t == h id) = true ∧
      goes (.serialDisable 0) (h (fun p => { p with de := true, open_ := true, frame := [3] })) (fun t => !t.bit (F.SP_CTL_EN 0) && t.out == [.de 0 false] &&
        t.rd (F.SP_STAT_BAD 0) == 1 && (t.sp 0).frame == []) = true)) := by
  decide +kernel

/-- Controller 0 enabled, in this condition. -/
def canNode (l : List (Fld × Nat)) (f : CanCtl → CanCtl) : State :=
  let s := withF ([(F.CF_CTL_EN 0, 1)] ++ l)
  s.setCf 0 (f (s.cf 0))

theorem witness_CanControllersSendReceiveAndRecover :
    (let s := canNode [] id
     let x : CanTx := ⟨0x123, [1, 2], [], 0⟩
     let y : CanTx := ⟨0x120, [3], [], 0⟩
     let sends := fun (c : CanCtl) => { c with txBuf := [x], sending := true }
     let held : HeldPush := ⟨128, [], 0, none⟩
     goes (.canRxFrame 0 0x10 [7]) (withF []) (fun t => t == withF []) = true ∧
     goes (.canRxFrame 0 0x10 [7]) (canNode [(F.CF_CTL_ACC_ALL 0, 0)] (fun c => { c with rec_ := 5 })) (fun t => (t.cf 0).rec_ == 4 && t.rd (F.CF_ERR_REC 0) == 4) = true ∧
     (let v := canNode [(F.CF_CTL_ACC_ALL 0, 0)] (fun c => { c with rec_ := 200 })
      v.bit (F.CF_CTL_EN 0) = true ∧ v.rd (F.CF_ERR_STATE 0) ≠ 2 ∧ 127 < (v.cf 0).rec_ ∧ v.canFilter 0 0x10 = none) ∧
     (let a := canNode [(F.CF_CTL_ACC_ALL 0, 1)] id
      let holds := fun (k : Nat) => { a with fold := { a.fold with heldPushes := List.replicate k held } }
      goes (.canRxFrame 0 0x10 [7]) (holds 1) (fun t => t.fold.heldPushes.length == 2) = true ∧
      goes (.canRxFrame 0 0x10 [7]) (holds 4) (fun t => t.bit (F.CF_STAT_RX_OVR 0) && t.rd (F.CF_STAT_LOST 0) == 1 && t.fold == (holds 4).fold) = true) ∧
     goes (.canRxError 0 2 1) s (fun t => t.rd (F.CF_ERR_LEC 0) == 2 && (t.cf 0).rec_ == 1) = true ∧
     goes (.canRxError 0 2 130) s (fun t => t.rd (F.CF_ERR_STATE 0) == 1 && t.flt.raised.map (·.code) == [Code.CF_WARN, Code.CF_ERR_PASSIVE]) = true ∧
     goes (.canRxError 0 7 130) s (fun t => t == s) = true ∧
     goes (.canTxStart 0) s (fun t => t == s) = true ∧
     goes (.canTxStart 0) (canNode [] (fun c => { c with txBuf := [x] })) (fun t => t.out == [.can 0 (0x123 + 2 * 2 ^ 36) [1, 2]] && (t.cf 0).sending) = true ∧
     goes (.canTxStart 0) (canNode [(F.CF_CTL_TDC_EN 0, 1)] (fun c => { c with txBuf := [{ x with word := 0xC0000123 }] }))
       (fun t => t.out == [.can 0 (0xC0000123 + 2 * 2 ^ 36) [1, 2]] && t.freeCtr == 1) = true ∧
     goes (.canTxStart 0) (canNode [] (fun c => { c with txBuf := [x, y] })) (fun t => t.out == [.can 0 (0x120 + 2 ^ 36) [3]]) = true ∧
     (let q := (s.wr (F.FLD_HMAP_FOLD 144) 70).setFold 70 ⟨[⟨0x55, 0x38, true, 0, none⟩, ⟨0x4142, 0x48, true, 0, none⟩], 1, 1, [], false⟩
      (q.popPacket 144).isSome = true ∧ goes (.canTxStart 0) q (fun t => t.out == [.can 0 (0x55 + 2 * 2 ^ 36) [0x42, 0x41]]) = true) ∧
     goes (.canTxStart 0) (s.wr (F.CF_CTL_LISTEN 0) 1) (fun t => t == s.wr (F.CF_CTL_LISTEN 0) 1) = true ∧
     goes (.canTxDone 0) (canNode [] (fun c => { sends c with tec := 3 })) (fun t => (t.cf 0) == ⟨[], false, 2, 0, false⟩) = true ∧
     goes (.canTxDone 0) s (fun t => t == s) = true ∧
     goes (.canTxError 0 3 true) (canNode [] sends) (fun t => (t.cf 0).txBuf == [{ x with attempts := 1 }] && (t.cf 0).tec == 8) = true ∧
     goes (.canTxError 0 3 true) (canNode [(F.CF_CTL_RETX_MAX 0, 1)] sends) (fun t => (t.cf 0).txBuf == [] && t.bit (F.CF_STAT_ABANDON 0)) = true ∧
     goes (.canTxError 0 3 true) (canNode [(F.CF_ERR_STATE 0, 1)] (fun c => { sends c with tec := 250 })) (fun t => t.rd (F.CF_ERR_STATE 0) == 2 && t.bit (F.CF_STAT_BUSOFF 0)) = true ∧
     (let b := canNode [(F.CF_ERR_STATE 0, 2)]
      goes (.canRecover 0) (b id) (fun t => (t.cf 0).recovering) = true ∧ goes (.canRecoveryDone 0) (b id) (fun t => t == b id) = true ∧
      goes (.canRecoveryDone 0) (b (fun c => { c with recovering := true, tec := 256 })) (fun t => t.rd (F.CF_ERR_STATE 0) == 0 && (t.cf 0).tec == 0) = true) ∧
     goes (.canRecover 0) s (fun t => t == s) = true ∧
     goes (.canDisable 0) (canNode [] (fun c => { c with txBuf := [x, y], sending := true })) (fun t => (t.cf 0).txBuf == [x] && !t.bit (F.CF_CTL_EN 0)) = true ∧
     goes (.canDisable 0) (canNode [] (fun c => { c with txBuf := [x] })) (fun t => (t.cf 0).txBuf == [] && t.bit (F.CF_STAT_ABANDON 0)) = true) := by
  decide +kernel

theorem witness_ChainFramesCarryTheImageAndTheScan :
    (let chain := fun (l : List (Fld × Nat)) (f : DcChain → DcChain) => let s := withF ([(F.DC_CTL_EN 0, 1)] ++ l)
       s.setDc 0 (f (s.dc 0))
     goes (.dcFrameStart 0) (withF []) (fun t => t == withF []) = true ∧
     goes (.dcFrameStart 0) (chain [(F.DC_CTL_OUT_EN 0, 1)] (fun c => { c with outImg := 9, outPend := [(4, 9)] })) (fun t => t.out == [.chain 0 9 true] &&
       (t.dc 0).outNow == [(4, 9)] && (t.dc 0).inFrame) = true ∧
     (let s := chain [(F.DC_SAFE_SAFE 0 0, 6)] id
      goes (.dcFrameStart 0) { s with flt := { s.flt with safe := true } } (fun t => t.out == [.chain 0 6 true]) = true) ∧
     goes (.dcFrameStart 0) (chain [(F.DC_CTL_SCHED 0, 1)] (fun c => { c with inFrame := true })) (fun t => t.bit (F.DC_STAT_OVERRUN 0) &&
       t.reg (K.DC_CNT_OVERRUN 0) == 1) = true ∧
     (let s := chain [(F.DC_CTL_DEB 0, 0), (F.DC_OUTMASK_OUT 0 0, 0xF)] (fun c => { c with inFrame := true, q := true, carried := 5, latched := some 6, inImg := 2 })
      goes (.dcFrameEnd 0 7) s (fun t => (t.dc 0).inImg == 7 && (t.dc 0).latched == some 5 && (t.dc 0).unequal == 1 && t.bit (F.DC_STAT_MISM 0) &&
        t.flt.raised.map (·.code) == [Code.DC_MISMATCH]) = true ∧
      goes (.dcFrameEnd 1 7) s (fun t => t == s) = true)) := by
  decide +kernel

/-- The marker words 1 and 2 of a lane: side, lane, bond, node, count. -/
def marks (side lane bond node count : Nat) : Nat × Nat :=
  let w := 0xA5 * 2 ^ 56 + side * 2 ^ 54 + lane * 2 ^ 53 + bond * 2 ^ 51 + node * 2 ^ 40 + count
  (w, 2 ^ 64 - 1 - w)

def onLink (s : State) (k : Nat) (f : Link → Link) : State := s.setLink k (f (s.link k))

theorem witness_TrainingBringsLinksUp :
    (let s := withF []
     goes (.linkEnable 0xF0000000) (s.wr F.LNK_CTL_W_EN 0) (fun t => t.rd (F.LNK_LINK_STAT_STATE 0) == 1 && t.bit F.LNK_CTL_W_EN) = true ∧
     goes (.linkEnable 0x80000000) (s.setLane 1 { s.lane 1 with inject := some (true, 4) }) (fun t => t.out == [.codewordError 1 4] && t.lane 1 == s.lane 1) = true ∧
     goes (.linkEnable 0x20000000) (withF [(F.LNK_CTL_W_EN, 1), (F.LNK_CTL_E_EN, 0), (F.LNK_CTL_P_EN, 1), (F.LNK_LINK_STAT_STATE 0, 3)])
       (fun t => t.rd (F.LNK_LINK_STAT_STATE 0) == 0) = true) ∧
    (let s := withF [(F.LNK_CTL_W_EN, 1)]
     let c := s.setLane 1 { s.lane 1 with clock := true }
     goes (.clockRecovered 1) s (fun t => (t.lane 1).clock && framed s t [.net] []) = true ∧ goes (.clockRecovered 7) s (fun t => t == s) = true ∧
     goes (.blockLock 1 true) c (fun t => t.bit (F.LNK_LANE_STAT_BLOCK 1)) = true ∧ goes (.blockLock 0 true) c (fun t => t == c) = true ∧
     goes (.blockLock 1 false) (c.wr (F.LNK_LANE_STAT_BLOCK 1) 1) (fun t => !t.bit (F.LNK_LANE_STAT_BLOCK 1) && t.reg (K.LNK_LANE_CNT_LOCK_LOSS 1) == 1) = true) ∧
    (let s := withF [(F.LNK_LANE_STAT_BLOCK 1, 1), (F.LNK_LINK_STAT_STATE 0, 1)]
     let m := fun (side n : Nat) (s : State) => exec (.laneMarkerRx 1 0x9416C35A0F69E1D2 (marks side 1 0 9 n).1 (marks side 1 0 9 n).2 0x6BE93CA5F0961E2D) s
     let first := s.setLane 1 { s.lane 1 with marker := some 0xFFFFFFFF }
     (match m 1 7 s with | .next t => t.rd (F.LNK_LANE_STAT_RNODE 1) == 9 && (t.lane 1).marker == some 7 && !t.bit (F.LNK_LANE_STAT_CWLOCK 1) | _ => false) = true ∧
     (match m 1 0 first with | .next t => t.bit (F.LNK_LANE_STAT_INBOND 1) && t.rd (F.LNK_LINK_STAT_RXL 0) == 2 && t.out == [] | _ => false) = true ∧
     (let two := (first.wr (F.LNK_LANE_STAT_INBOND 0) 1)
      (match m 1 0 two with | .next t => (t.lane 1).ready && !t.bit (F.LNK_LANE_STAT_INBOND 1) | _ => false) = true ∧
      (match m 1 0 (two.setLane 0 { s.lane 0 with marker := some 0 }) with
       | .next t => t.bit (F.LNK_LANE_STAT_INBOND 1) && t.rd (F.LNK_LINK_STAT_RXL 0) == 3 | _ => false) = true) ∧
     (match m 0 0 first with | .next t => t.bit (F.LNK_LANE_STAT_MISWIRE 1) && !t.bit (F.LNK_LANE_STAT_INBOND 1) && t.flt.raised.map (·.code) == [Code.LNK_MISWIRE] | _ => false) = true ∧
     goes (.laneMarkerRx 1 0 0 0 0) s (fun t => t == s) = true) ∧
    (let s := withF [(F.LNK_LANE_STAT_INBOND 0, 1), (F.LNK_LANE_STAT_INBOND 1, 1), (F.LNK_LINK_STAT_STATE 0, 1)]
     let f := mkFrame 3 0 0 true 0 (leBytes 8 (2 ^ 56 + 2 ^ 46 + 3 * 2 ^ 44))
     goes (.linkInitTx 0) s (fun t => (t.link 0).initSent && t.out.length == 1) = true ∧
     goes (.linkInitTx 0) (onLink s 0 (fun l => { l with initRcvd := true })) (fun t => t.linkUp 0 && t.out.length == 2) = true ∧
     f.good = f.crc ∧ f.formOk = true ∧
     goes (.initRx 0 (onLanes [0, 1] f)) s (fun t => t.rd (F.LNK_LINK_STAT_TXL 0) == 3 && !t.linkUp 0 && (t.link 0).initRcvd) = true ∧
     goes (.initRx 0 (onLanes [0, 1] f).reverse) (onLink s 0 (fun l => { l with initSent := true })) (fun t => t.linkUp 0 &&
       (match t.out with | [.frame 0 g bs] => g == mkFrame 5 0 0 true 0 (leBytes 8 0x4080E0E000000000) && frameOf (restoreBlocks bs) == some g | _ => false)) = true ∧
     goes (.initRx 0 (onLanes [0, 1] (mkFrame 1 0 0 true 0 []))) s (fun t => t == s) = true ∧ goes (.linkInitTx 1) s (fun t => t == s) = true) ∧
    (let s := withF [(F.LNK_CTL_W_EN, 1)]
     goes (.lnkTrainFail 0) s (fun t => t.rd (F.LNK_LINK_STAT_STATE 0) == 3 && t.flt.raised.map (·.code) == [Code.LNK_TRAIN_FAIL]) = true ∧
     goes (.lnkTrainFail 0) (onLink s 0 (fun l => { l with failRaised := true })) (fun t => t.rd (F.LNK_LINK_STAT_STATE 0) == 3 && t.flt == s.flt) = true ∧
     goes (.lnkTrainFail 0) (s.wr (F.LNK_LINK_STAT_STATE 0) 2) (fun t => t == s.wr (F.LNK_LINK_STAT_STATE 0) 2) = true ∧
     goes (.linkRetrain 0) (s.wr (F.LNK_LINK_STAT_STATE 0) 3) (fun t => t.rd (F.LNK_LINK_STAT_STATE 0) == 1) = true ∧
     goes (.linkRetrain 0) (onLink (s.wr (F.LNK_LINK_STAT_STATE 0) 1) 0 (fun l => { l with failRaised := true })) (fun t => (t.link 0).failRaised && t.rd (F.LNK_LINK_STAT_STATE 0) == 1) = true) := by
  decide +kernel

def onWire (s : State) (k : Nat) (f : Link → Link) : State := s.setLink k (f (s.link k))

theorem witness_LinksCheckRetryAndLoseLanes :
    (let s := withF [(F.LNK_LANE_STAT_INBOND 0, 1), (F.LNK_LANE_STAT_INBOND 1, 1), (F.LNK_LANE_STAT_INBOND 4, 1), (F.LNK_LINK_STAT_STATE 0, 2), (F.LNK_LINK_STAT_STATE 2, 2),
       (F.LNK_LANE_STAT_CWLOCK 0, 1), (F.LNK_LINK_STAT_TXL 0, 3)]
     let p : Packet := ⟨mkW0 5 4 7 1 Kind.REQUEST false 0 3 1 7, 0x40, []⟩
     let u := onWire s 0 (fun l => { l with unacked := [(9, p)], nextSeq := 10, ackOwed := true, expect := 4 })
     let ack := mkFrame 1 0 10 true 0x01020304 (leBytes 8 0)
     let dat := mkFrame 0 4 9 true 0 p.bytes
     (ack.formOk && dat.formOk && decide (ack.good = ack.crc)) = true ∧
     (let f0 := onLanes [0, 1]
     goes (.ackRx 0 (f0 ack)) u (fun t => (t.link 0).unacked == [] && (t.link 0).freed == [1, 2, 3, 4]) = true ∧
     goes (.ackRx 0 (f0 dat)) u (fun t => t == u) = true ∧
     goes (.ackRx 1 (f0 ack)) u (fun t => t == u) = true ∧
     goes (.flowRx 0 (f0 <| mkFrame 5 0 9 true 0 (leBytes 8 0x4080E0E000000000))) u (fun t => (t.link 0).limits == [64, 128, 224, 224]) = true ∧
     goes (.dataFrameRx 0 (f0 dat)) u (fun t => (t.link 0).expect == 5 && t.net.rx.map (fun q => q.length) == [1, 0] && t.reg (K.LNK_LINK_CNT_RXOK 0) == 1) = true ∧
     goes (.dataFrameRx 2 (onLanes [0] (mkFrame 0 0 0 true 0 p.bytes))) u (fun t => t.net.taken == [[], [], [], [p]]) = true ∧
     goes (.dataFrameRx 0 (f0 <| mkFrame 0 5 9 true 0 p.bytes)) u (fun t => (t.link 0).expect == 4 && t.net.rx == u.net.rx) = true ∧
     goes (.dataFrameRx 0 (f0 { dat with crc := ~~~ dat.crc })) u (fun t => t.reg (K.LNK_LINK_CNT_STOMP_RX 0) == 1 && (t.link 0).seen == 1) = true ∧
     -- a DATA frame on its way to the far side, cut through to link E
     (let far : Packet := ⟨mkW0 9 4 7 1 Kind.REQUEST false 0 3 1 7, 0x40, []⟩
      let w := onWire (u.wr (F.LNK_LINK_STAT_STATE 1) 2) 1 (fun l => { l with limits := [64, 128, 224, 224] })
      let w := w.setNode 9 { w.node 9 with present := true }
      goes (.dataFrameRx 0 (f0 { mkFrame 0 4 9 true 0 far.bytes with crc := 0 })) w (fun t => t.reg (K.LNK_LINK_CNT_STOMP_TX 1) == 1 &&
        (t.link 0).corrected && t.out.length == 1) = true) ∧
     goes (.dataFrameRx 0 (f0 { ack with crc := 0 })) u (fun t => (t.link 0).corrected) = true ∧
     goes (.dataFrameRx 0 (f0 <| mkFrame 6 0 0 true 0 (leBytes 8 0))) u (fun t => t.flt.raised.map (·.code) == [Code.LNK_FRAME_BAD]) = true ∧
     goes (.laneRx 0 (f0 <| mkFrame 4 0 9 true 0 (leBytes 8 (2 ^ 44)))) u (fun t => t.rd (F.LNK_LINK_STAT_TXL 0) == 1 && t.flt.raised.map (fun x => (x.code, x.src)) == [(Code.LNK_LANE_DOWN, Src.lane 1)]) = true ∧
     (let nak := mkFrame 2 0 9 true 0 (leBytes 8 0)
      goes (.nakRx 0 (f0 nak)) u (fun t => t.out.length == 1 && t.reg (K.LNK_LINK_CNT_REPLAY 0) == 1 && (t.link 0).replay == some 9) = true ∧
      goes (.nakRx 0 (f0 nak)) (onWire u 0 (fun l => { l with replay := some 9 })) (fun t => t.out == [] && t.reg (K.LNK_LINK_CNT_NAK_RX 0) == 1) = true) ∧
     goes (.ackTimer 0) u (fun t => match t.out with | [.frame 0 g bs] => g == mkFrame 1 0 4 true 0 (leBytes 8 0) && frameOf (restoreBlocks bs) == some g | _ => false) = true ∧
     goes (.ackTimer 0) s (fun t => t == s) = true ∧ goes (.ackTimer 1) s (fun t => t == s) = true ∧
     goes (.replayTimeout 0) s (fun t => t == s) = true ∧
     goes (.replayTimeout 0) (onWire u 0 (fun l => { l with advAt := some 0 })) (fun t => t.out == []) = true ∧
     goes (.replayTimeout 0) (u.wr F.LNK_RETRY_RETRY_MAX 4) (fun t => (t.link 0).replays == 1 && t.out.length == 1) = true ∧
     goes (.replayTimeout 0) (u.wr F.LNK_RETRY_RETRY_MAX 0) (fun t => !t.linkUp 0 && t.wrapped 0 && t.flt.raised.map (·.code) == [Code.LNK_RETRY_FAIL, Code.LNK_DOWN, Code.NET_WRAP]) = true ∧
     (let c := onWire u 0 (fun l => { l with corrected := true, firstFail := true })
      let d := onWire c 0 (fun l => { l with discarding := true })
      let e := { ack with crc := 0 }
      goes (.codewordDecoded 0 5 3 [] false) c (fun t => t.reg (K.LNK_LINK_CNT_NAK_TX 0) == 1 && (t.link 0).discarding && t.out.length == 1) = true ∧
      goes (.codewordDecoded 0 5 3 [] false) d (fun t => t.reg (K.LNK_LINK_CNT_NAK_TX 0) == 0 && t.reg (K.LNK_LINK_CNT_CRC 0) == 1) = true ∧
      goes (.codewordDecoded 0 0 0 [(e, false)] false) c (fun t => t.reg (K.LNK_LINK_CNT_CRC 0) == 1 && (t.link 0).expect == 4) = true ∧
      goes (.codewordDecoded 0 0 0 [(e, false)] false) d (fun t => t.reg (K.LNK_LINK_CNT_CRC 0) == 1 && t.out == []) = true ∧
      readableSeq (d.link 0) { dat with crc := 0 } = some 4 ∧
      goes (.codewordDecoded 0 0 0 [({ dat with crc := 0 }, false)] false) d (fun t => t.out.length == 1) = true ∧
      goes (.codewordDecoded 0 0 0 [(mkFrame 5 0 9 true 0 (leBytes 8 0x4080E0E000000000), true)] false) c
        (fun t => t.reg (K.LNK_LINK_CNT_FIXED 0) == 1 && (t.link 0).limits == [64, 128, 224, 224]) = true ∧
      goes (.codewordDecoded 0 0 0 [] true) c (fun t => !(t.link 0).corrected) = true) ∧
     goes (.codewordDecoded 0 5 3 [] false) u (fun t => (t.lane 0).ue == 1 && t.reg (K.LNK_LANE_CNT_CW_UNCORR 0) == 1) = true ∧
     goes (.codewordDecoded 0 5 2 [] false) u (fun t => t.reg (K.LNK_LANE_CNT_SYM_CORR 0) == 7) = true ∧
     (let n := onWire u 0 (fun l => { l with seen := 1 })
      goes (.codewordDecoded 0 0 0 [(dat, true)] false) n (fun t => t.flt.raised.map (·.code) == [Code.LNK_CRC_ESCAPE] && (t.link 0).seen == 0) = true ∧
      goes (.codewordDecoded 0 0 0 [(dat, false)] false) n (fun t => t == u) = true) ∧
     goes (.codewordDecoded 1 3 0 [] false) u (fun t => t == u) = true ∧
     goes (.laneLockLoss 1) (s.setLane 1 { s.lane 1 with lockTimer := true }) (fun t => t.rd (F.LNK_LINK_STAT_RXL 0) == 1 && t.linkUp 0 && t.out.length == 1) = true ∧
     goes (.laneLockLoss 1) s (fun t => t == s) = true ∧
     goes (.laneDegradeCheck 1) (s.setLane 1 { s.lane 1 with ue := 255 }) (fun t => t.rd (F.LNK_LINK_STAT_RXL 0) == 1 && (t.link 0).laneOpen) = true ∧
     goes (.laneDegradeCheck 4) (s.setLane 4 { s.lane 4 with ue := 255 }) (fun t => t == s) = true ∧
     (let w := s.wr F.LNK_CTL_W_EN 1
      s.up .mgmt = true ∧
      goes (.lnkInjArm ⟨0x40000301#32, 5, 9⟩) w (fun t => t.out == [.codewordError 1 3]) = true ∧
      goes (.lnkInjArm ⟨0x40000301#32, 5, 9⟩) s (fun t => t.out == [] && (t.lane 1).inject == some (true, 3)) = true ∧
      goes (.lnkInjArm ⟨0x301#32, 5, 9⟩) w (fun t => (t.lane 1).inject == some (false, 3)) = true ∧
      goes (.lnkInjArm ⟨0x307#32, 5, 9⟩) w (fun t => (t.lane 0).inject == some (false, 3) && t.flt.raised.map (·.code) == [Code.CFG_RANGE]) = true))) := by
  decide +kernel

/-- A packet of node 4 for node `dst`. -/
def toNode (dst src inj cls kind op : Nat) (w1 : Nat) (payload : List Byte) : Packet :=
  ⟨mkW0 dst src 7 cls kind false inj (if kind = 0 then 3 else 0) op 7, BitVec.ofNat 64 w1, payload⟩

def withNet (s : State) (f : NetUnit → NetUnit) : State := { s with net := f s.net }

/-- A node in the loop, ID 1, both links up with credit. -/
def inLoop (l : List (Fld × Nat)) : State :=
  let s := withF ([(F.NET_ID_ID, 1), (F.NET_ID_STATE, 2), (F.LNK_LINK_STAT_STATE 0, 2), (F.LNK_LINK_STAT_STATE 1, 2)] ++ l)
  withNet s (fun n => { n with links := n.links.map (fun x => { x with limits := [64, 128, 224, 224] }) })

theorem witness_PacketsAreDroppedForwardedOrRemoved :
    (let s0 := (inLoop []).setNode 5 ⟨true, true, 2, false⟩
     let one := fun (p : Packet) => withNet s0 (fun n => { n with rx := [[⟨p, p.pool, p.units, false⟩], []] })
     goes (.packetRx 0) (one (toNode 9 1 0 1 Kind.RESPONSE 0 0 [])) (fun t => t.reg K.NET_CNT_STRIP == 1 && t.net.taken == s0.net.taken && t.net.rx == [[], []]) = true ∧
     goes (.packetRx 0) (one (toNode 1 4 0 1 0 0x01 0x40 [])) (fun t => t.net.dropWait.map (·.length) == [1, 0]) = true ∧
     goes (.packetRx 0) (one (toNode 1 4 0 1 0 0x0F 0x40 [])) (fun t => t.flt.raised.map (·.code) == [Code.NET_PKT_BAD]) = true ∧
     goes (.packetRx 0) (one (toNode 8 4 0 1 0 0x01 0x40 [])) (fun t => t.reg K.NET_CNT_STRIP == 1 && t.out == []) = true ∧
     goes (.packetRx 0) (one (toNode 5 4 0 1 0 0x01 0x40 [])) (fun t => t.out.length == 1 && (t.link 1).unacked.length == 1 && (t.link 0).rxFreed == [0, 0, 1, 0]) = true ∧
     (let c := toNode 1 4 0 0 0 0x01 0x40 []
      goes (.packetRx 0) (one c) (fun t => t.net.dropWait.map (·.length) == [1, 0] && t.net.dupFilter == [(4, 7, 0)]) = true ∧
      goes (.packetRx 0) (withNet (one c) (fun n => { n with dupFilter := [(4, 7, 0)] })) (fun t => t.net.dropWait == [[], []] &&
        t.net.dupSeen == [(4, 7)] && t.reg K.NET_CNT_DUP == 1) = true) ∧
     goes (.packetRx 1) s0 (fun t => t == s0) = true ∧ goes (.packetRx 2) s0 (fun t => t == s0) = true ∧
     (let p := toNode 1 4 0 1 0 0x01 0x40 []
      let w := fun (b : Bool) => withNet s0 (fun n => { n with dropWait := [[⟨p, p.pool, p.units, b⟩], []] })
      goes (.dropAdmit 0) (w false) (fun t => t.net.taken == [[p], [], [], []] && t.reg K.NET_CNT_DROP == 1) = true ∧
      goes (.dropAdmit 1) (w false) (fun t => t == w false) = true ∧ goes (.netDropStall 0) (w true) (fun t => t == w true) = true ∧
      goes (.netDropStall 0) (w false) (fun t => t.net == (w true).net && t.flt.raised.map (·.code) == [Code.NET_DROP_STALL]) = true)) ∧
    (let r : TagRec := ⟨5, 0x40, 1, 0x02, 8, .flush, false, false, false, 0, none, 0⟩
     let rsp := toNode 1 5 0 1 Kind.RESPONSE 0 0 []
     let ack := toNode 1 5 0 0 Kind.MESSAGE 0 (2 * 2 ^ 56) []
     let s0 := inLoop [(F.NET_TAG_OPEN, 1)]
     let has := fun (p : Packet) => withNet s0 (fun n => { n with taken := [[p], [], [], []] })
     goes (.responseRx 0) ((has rsp).setTag 7 (some r)) (fun t => t.tagRec 7 == none && t.ord.wcDone == [(0x40, 8, 0, 0)] && t.net.freeTags == [7]) = true ∧
     goes (.responseRx 0) (has rsp) (fun t => t.reg K.NET_CNT_LATE_RSP == 1) = true ∧
     goes (.responseRx 0) (has ack) (fun t => t == has ack) = true ∧
     goes (.intAckRx 0) ((has ack).setTag 7 (some r)) (fun t => t.tagRec 7 == none && t.rd F.NET_TAG_OPEN == 0) = true ∧
     goes (.intAckRx 0) ((has ack).setTag 7 (some { r with answered := true })) (fun t => t.reg K.NET_CNT_LATE_RSP == 1) = true ∧
     goes (.intAckRx 0) (has rsp) (fun t => t == has rsp) = true ∧
     goes (.netTagTo 7) (s0.setTag 7 (some r)) (fun t => t.tagRec 7 == some { r with closed := true, answered := true } && t.flt.raised.map (·.code) == [Code.NET_TAG_TO]) = true ∧
     goes (.netTagTo 7) s0 (fun t => t == s0) = true ∧ goes (.tagQuarantineEnd 7) s0 (fun t => t == s0) = true ∧
     goes (.tagQuarantineEnd 7) (s0.setTag 7 (some { r with closed := true })) (fun t => t.tagRec 7 == none && t.net.freeTags == [7]) = true ∧
     (let f := withNet s0 (fun n => { n with dupFilter := [(5, 7, 1)] })
      goes (.dupEntryExpire 5 7 1) f (fun t => t == s0) = true ∧
      goes (.dupEntryExpire 5 7 1) (f.setTag 7 (some { r with dup := true, answered := true })) (fun t => t.tagRec 7 == none && t.net.dupFilter == []) = true)) ∧
    (let s0 := inLoop []
     let has := fun (q : Nat) (p : Packet) => withNet s0 (fun n => { n with taken := setAt n.taken q [p] })
     let b := toNode bcastNode 1 0 1 0 0x02 (0x3000000024) (leBytes 4 9)
     let b := { b with w0 := mkW0 bcastNode 1 7 1 0 false 0 3 0x02 3 }
     goes (.broadcastRx 2) (((has 2 b).wr F.CHIP_CTL_BCAST_EN 0)) (fun t => t == s0.wr F.CHIP_CTL_BCAST_EN 0) = true ∧
     goes (.broadcastRx 2) ((has 2 b).wr F.CHIP_CTL_BCAST_EN 1) (fun t => t.reg 0x24 == 9) = true ∧
     (let b := { b with w0 := mkW0 bcastNode 6 7 1 0 false 0 3 0x02 3 }
      let s := has 0 b
      goes (.broadcastRx 0) (s.wr F.CHIP_CTL_BCAST_EN 0) (fun t => t.out.length == 1) = true) ∧
     goes (.broadcastRx 1) s0 (fun t => t == s0) = true ∧
     (let m := toNode 1 5 0 0 Kind.MESSAGE 0 (2 ^ 56 + 3 * 2 ^ 48) (leBytes 16 0)
      let e : RingEntry := ⟨3, true, none, none, [], false⟩
      let s := ((has 0 m).wr (F.HST_CQ_CTL_EN 3) 1).setWriter 3 (some ⟨e, []⟩)
      goes (.interruptRx 0) s (fun t => t.host.queue.map (·.key) == [3]) = true ∧
      goes (.interruptRx 0) (has 0 b) (fun t => t == has 0 b) = true) ∧
     (let m := toNode 1 5 0 0 Kind.MESSAGE 0 (3 * 2 ^ 56) (leBytes 4 0x55)
      let s := (has 0 m).wr F.VME_INTR_LEVEL 3
      goes (.vectorRx 0) s (fun t => (t.vin.irqOut && t.rd F.VME_INTR_DEPTH == 1)) = true ∧
      goes (.vectorRx 1) s (fun t => t == s) = true)) := by
  decide +kernel

def netOf (s : State) (f : NetUnit → NetUnit) : State := { s with net := f s.net }

/-- A node in this state of joining, ID 3, both links up with credit. -/
def inRing (l : List (Fld × Nat)) : State :=
  let s := withF ([(F.NET_ID_ID, 3), (F.NET_ID_STATE, 2), (F.LNK_LINK_STAT_STATE 0, 2), (F.LNK_LINK_STAT_STATE 1, 2), (F.NET_CTL_MCAP, 1),
    (F.NET_CTL_JOIN_EN, 1)] ++ l)
  netOf s (fun n => { n with links := n.links.map (fun x => { x with limits := [64, 128, 224, 224] }) })

/-- A MGMT packet. -/
def aMgmt (mtype src id hops side : Nat) (payload : List Byte) : Packet :=
  ⟨mkW0 bcastNode src 0 0 Kind.MGMT false 0 0 0 0, mkMgmtW1 mtype id hops side true, payload⟩

theorem witness_TheLoopJoinsWrapsAndElects :
    (let s := inRing [(F.NET_ID_STATE, 0)]
     let has := fun (s : State) (q : Nat) (p : Packet) => netOf s (fun n => { n with taken := setAt n.taken q [p] })
     let s1 := inRing [(F.NET_ID_STATE, 1)]
     goes .netJoinStart s (fun t => t.rd F.NET_ID_STATE == 1 && t.net.joinOut && t.out.length == 1 && t.reg K.NET_CNT_TX == 1) = true ∧
     goes .netJoinStart s1 (fun t => t == s1) = true ∧
     goes .netJoinStart (s.wr F.NET_ID_ID 0x7FF) (fun t => t.rd F.NET_ID_STATE == 4) = true ∧
     goes (.joinRx 0) (has s1 0 (aMgmt 1 3 3 7 0 (leBytes 8 s1.boot.otpSerial))) (fun t => t.joined && t.rd F.NET_STAT_NODES == 8 && (t.node 3).present) = true ∧
     goes (.joinRx 0) (has s1 0 (aMgmt 1 9 3 7 0 (leBytes 8 5))) (fun t => t.rd F.NET_ID_STATE == 3 && t.flt.raised.map (·.code) == [Code.NET_DUP_ID]) = true ∧
     goes (.joinRx 0) (has (inRing []) 0 (aMgmt 1 9 3 7 0 (leBytes 8 5))) (fun t => t.out.length == 1) = true ∧
     goes (.joinRx 0) (has s 0 (aMgmt 1 9 3 7 0 (leBytes 8 5))) (fun t => t == s) = true ∧
     goes (.joinRx 0) (has s1 0 (aMgmt 1 9 9 7 0 (leBytes 8 5))) (fun t => (t.node 9).hops == 8 && t.out.length == 1) = true ∧
     goes (.joinRx 0) (has s1 0 ((aMgmt 1 9 9 7 0 (leBytes 8 5)).withInj 1)) (fun t => !(t.node 9).present && t.out.length == 1) = true ∧
     goes (.joinRx 0) (has s1 0 ((aMgmt 1 3 3 7 0 (leBytes 8 s1.boot.otpSerial)).withInj 1)) (fun t => !t.joined && t.out.length == 1) = true ∧
     goes (.joinDupRx 0) (has s1 0 ((aMgmt 2 3 9 0 0 (leBytes 8 5)).withInj 1)) (fun t => t.out.length == 1) = true ∧
     goes (.joinRx 1) s1 (fun t => t == s1) = true ∧
     goes .joinTimeout s1 (fun t => t == s1) = true ∧
     goes .joinTimeout (netOf s1 (fun n => { n with joinOut := true })) (fun t => t.out.length == 1) = true ∧
     goes .joinTimeout (((inRing [(F.NET_STAT_REBUILD, 1)]).setNode 9 ⟨true, true, 2, false⟩).setNode 8 ⟨true, true, 3, true⟩)
       (fun t => !(t.node 9).present && (t.node 8).present && !t.bit F.NET_STAT_REBUILD) = true ∧
     goes (.joinDupRx 0) (has s1 0 (aMgmt 2 9 9 0 0 (leBytes 8 s1.boot.otpSerial))) (fun t => t.rd F.NET_ID_STATE == 3 && t.freeCtr == 1) = true ∧
     goes (.joinDupRx 0) (has s1 0 (aMgmt 2 9 9 0 0 (leBytes 8 5))) (fun t => t.out.length == 1) = true ∧
     goes (.joinDupRx 2) (has s1 2 (aMgmt 2 9 9 0 0 (leBytes 8 5))) (fun t => t == s1) = true ∧
     (let w : WrapRec := ⟨[(7, aMgmt 1 9 9 7 0 [])], true, 9, 0, false⟩
      let v := s1.setWrapRec 1 w
      goes (.netWrapLost 1) v (fun t => t.reg K.NET_CNT_WRAP_LOST == 1 && t.flt.raised.map (·.code) == [Code.NET_WRAP_LOST] && !(t.wrapRec 1).waiting) = true ∧
      goes (.netWrapLost 1) (s1.setWrapRec 1 { w with held := [] }) (fun t => t.flt == s1.flt && !(t.wrapRec 1).waiting) = true ∧
      goes (.netWrapLost 0) v (fun t => t == v) = true ∧
      goes (.wrapRx 0) (has v 0 (aMgmt 5 9 9 0 0 (leBytes 8 (8 + 2 ^ 8 + 3 * 2 ^ 16)))) (fun t => t.out.length == 1 && t.wrapRec 1 == ⟨[], false, 9, 0, false⟩) = true ∧
      goes (.wrapRx 0) (has s1 0 (aMgmt 5 3 9 0 0 (leBytes 8 0))) (fun t => t == s1) = true) ∧
     goes (.wrapRx 0) (has s1 0 (aMgmt 5 9 9 0 0 (leBytes 8 0))) (fun t => t.out.length == 1) = true ∧
     goes (.unwrapRx 0) (has s1 0 (aMgmt 6 9 9 0 0 [])) (fun t => t.out.length == 1) = true ∧
     goes (.unwrapRx 2) (has s1 2 (aMgmt 6 9 9 0 0 [])) (fun t => t == s1) = true ∧
     goes (.unwrapRx 0) (has (inRing []) 0 (aMgmt 6 9 9 0 0 [])) (fun t => t.bit F.NET_STAT_REBUILD && t.out.length == 2) = true ∧
     (let e := inRing [(F.NET_STAT_BWID, 0x7FF)]
      goes .electStart e (fun t => t.rd F.NET_STAT_ROLE == 1 && t.net.round == 1 && t.net.electOut && t.out.length == 1) = true ∧
      goes .electStart s1 (fun t => t == s1) = true ∧ goes .electTimeout (netOf e (fun n => { n with electWait := true })) (fun t => t.net.round == 1) = true ∧
      goes .electTimeout e (fun t => t == e) = true ∧
      goes (.joinRx 0) (has e 0 (aMgmt 1 9 9 7 0 (leBytes 8 5))) (fun t => t.rd F.NET_STAT_ROLE == 1 && t.out.length == 2) = true ∧
      goes (.electRx 0) (has e 0 ((aMgmt 3 3 3 0 0 (leBytes 8 6)).withInj 1)) (fun t => t.rd F.NET_STAT_ROLE == e.rd F.NET_STAT_ROLE && t.out.length == 1) = true ∧
      goes (.electedRx 0) (has e 0 ((aMgmt 4 3 3 0 0 []).withInj 1)) (fun t => t.out.length == 1) = true ∧
      goes (.electRx 0) (has e 0 (aMgmt 3 3 3 0 0 (leBytes 8 6))) (fun t => t.rd F.NET_STAT_ROLE == 2 && t.rd F.NET_STAT_BWID == 3 && t.net.round == 6) = true ∧
      goes (.electRx 0) (has e 0 (aMgmt 3 3 2 0 0 (leBytes 8 6))) (fun t => t.rd F.NET_STAT_ROLE == 0 && t.out == []) = true ∧
      goes (.electRx 0) (has e 0 (aMgmt 3 9 2 0 0 (leBytes 8 6))) (fun t => t.out.length == 1 && !t.net.electOut) = true ∧
      goes (.electRx 0) (netOf (has e 0 (aMgmt 3 9 9 0 0 (leBytes 8 6))) (fun n => { n with electOut := true })) (fun t => t.out.length == 1 &&
        (t.link 1).unacked.map (fun x => x.2.subject) == [3]) = true ∧
      goes (.electedRx 0) (has e 0 (aMgmt 4 9 9 0 0 [])) (fun t => t.rd F.NET_STAT_BWID == 9 && t.out.length == 1) = true ∧
      goes (.electedRx 0) (has e 0 (aMgmt 4 3 3 0 0 [])) (fun t => t == e) = true)) := by
  decide +kernel

/-- A node in the loop, ID 3, both links up with credit and both lanes in use. -/
def inEpoch (l : List (Fld × Nat)) (f : NetUnit → NetUnit) : State :=
  let s := withF ([(F.NET_ID_ID, 3), (F.NET_ID_STATE, 2), (F.LNK_LINK_STAT_STATE 0, 2), (F.LNK_LINK_STAT_STATE 1, 2),
    (F.LNK_LINK_STAT_RXL 0, 3), (F.LNK_LINK_STAT_TXL 0, 3)] ++ l)
  { s with net := f { s.net with links := s.net.links.map (fun x => { x with limits := [64, 128, 224, 224] }) } }

/-- An EPOCH packet. -/
def anEpoch (etype src bw hops seq : Nat) (payload : List Byte) : Packet :=
  ⟨mkW0 bcastNode src 0 0 Kind.EPOCH false 0 0 0 0, mkEpochW1 etype bw hops seq, payload⟩

theorem witness_TheEpochIsKeptAndLinkDelaysMeasured :
    (let b := fun (f : NetUnit → NetUnit) => inEpoch [(F.NET_STAT_ROLE, 2), (F.NET_EPOCH_SET_LO_SET_LO, 5)] f
     goes .epochTx (b (fun n => { n with setReq := true })) (fun t => t.net.epoch == 5 && t.net.steps == 1 && !t.net.setReq) = true ∧
     goes .epochTx (b (fun n => { n with everSynced := true })) (fun t => t.out.length == 2 && t.reg K.NET_CNT_TX == 2 && t.net.eseq == 1) = true ∧
     goes .epochTx (inEpoch [] id) (fun t => t == inEpoch [] id) = true ∧
     goes (.netEpochSet 7 0 0) (b id) (fun t => t.reg K.NET_EPOCH_SET_HI == 7 && t.net.setReq && t.flt == (b id).flt) = true) ∧
    (let has := fun (p : Packet) (n : NetUnit) => { n with taken := [[p], [], [], []] }
     let tx := leBytes 8 1000 ++ leBytes 2 4 ++ leBytes 6 0
     let p := anEpoch 1 9 9 4 6 tx
     let far := anEpoch 1 9 9 2046 6 tx
     let v := [(F.NET_DLY_W_VALID, 1), (F.NET_DLY_W_DLY, 100), (F.NET_EPOCH_STEP_STEP_NS, 100), (F.NET_EPOCH_CTL_PERIOD_US, 10)]
     goes (.epochRx 0) (inEpoch [(F.NET_STAT_ROLE, 2)] (has p)) (fun t => t.out.length == 1 && t.net.ringHops == [some (4, 6), none]) = true ∧
     goes (.epochRx 0) (inEpoch [(F.NET_STAT_ROLE, 2)] (has far)) (fun t => t.out == [] && t.net.ringHops == [some (2046, 6), none]) = true ∧
     goes (.epochRx 0) (inEpoch [(F.NET_STAT_ROLE, 2)] (has (anEpoch 1 9 2 4 6 tx))) (fun t => t.rd F.NET_STAT_ROLE == 0 && t.rd F.NET_STAT_BWID == 2) = true ∧
     goes (.epochRx 0) (inEpoch v (fun n => has far { n with epoch := 1000 })) (fun t => t.net.epochRate == 100000 && t.bit F.NET_EPOCH_STAT_VALID && t.rd F.NET_EPOCH_STAT_ERR == 100) = true ∧
     goes (.epochRx 0) (inEpoch v (fun n => has far { n with epoch := 9000 })) (fun t => t.net.epoch == 1100 && t.reg K.NET_CNT_STEP == 1) = true ∧
     goes (.epochRx 0) (inEpoch v (fun n => has far { n with epoch := 1000, stepsSeen := some 3 })) (fun t => t.net.epoch == 1100) = true ∧
     goes (.epochRx 0) (inEpoch [] (has (anEpoch 1 3 3 4 6 tx))) (fun t => t.out == [] && t.net.taken == [[], [], [], []]) = true ∧
     goes (.epochRx 1) (inEpoch [] (has p)) (fun t => t == inEpoch [] (has p)) = true ∧
     goes .netEpochLoss (inEpoch [(F.NET_STAT_ROLE, 2)] id) (fun t => t == inEpoch [(F.NET_STAT_ROLE, 2)] id) = true ∧
     goes .netEpochLoss (inEpoch [(F.NET_CTL_MCAP, 0)] id) (fun t => t.rd F.NET_STAT_ROLE == 3 && t.flt.raised.map (·.code) == [Code.NET_EPOCH_LOSS, Code.NET_NO_BELLWETHER]) = true ∧
     goes .netEpochLoss (inEpoch [(F.NET_CTL_MCAP, 1)] id) (fun t => t.rd F.NET_STAT_ROLE == 1 && t.net.electOut) = true ∧
     goes .netEpochLoss (inEpoch [(F.NET_CTL_MCAP, 1), (F.NET_ID_STATE, 1)] id) (fun t => t.flt.raised.map (·.code) == [Code.NET_EPOCH_LOSS]) = true ∧
     goes (.delayMeasure 0) (inEpoch [] id) (fun t => (t.delayRec 0).open_ == some 0 && t.out.length == 1) = true ∧
     goes (.delayMeasure 1) (inEpoch [] id) (fun t => t.bit F.NET_DLY_E_ASYM && t.flt.raised.map (·.code) == [Code.NET_EPOCH_ASYM]) = true ∧
     goes (.delayMeasure 2) (inEpoch [] id) (fun t => t == inEpoch [] id) = true ∧
     goes (.delayReqRx 0) (inEpoch [] (has (anEpoch 2 9 9 0 6 []))) (fun t => t.out.length == 1) = true ∧
     goes (.delayReqRx 0) (inEpoch [] (has p)) (fun t => t == inEpoch [] (has p)) = true ∧
     (let r := has (anEpoch 3 9 9 0 6 (leBytes 8 50 ++ leBytes 8 70))
      goes (.delayRespRx 0) (inEpoch [] (fun n => r { n with epoch := 140, delays := [⟨6, some 40, []⟩, ⟨0, none, []⟩] })) (fun t => t.rd F.NET_DLY_W_DLY == 40 && t.bit F.NET_DLY_W_VALID) = true ∧
      goes (.delayRespRx 0) (inEpoch [] r) (fun t => t == inEpoch [] id) = true)) := by
  decide +kernel

/-- A fault as its unit raises it. -/
def aFault (code src : Nat) : FaultRec := ⟨code, src, [1, 2, 3, 4], 77, 65537, 9⟩

/-- A state with one fault raised and these entries valid. -/
def faulty (l : List (Fld × Nat)) (code src : Nat) (es : List (Nat × Option ActEntry)) : State :=
  let s := withF l
  { s with flt := { s.flt with raised := [aFault code src, aFault 1 2], active := es } }

/-- Codes of the default severities NOTE and WARN, and one overridden. -/
theorem witness_FaultReachesCollector :
    (let s := faulty [(F.FLT_OVR_A_EN 0, 1), (F.FLT_OVR_A_CODE 0, 0x0504), (F.FLT_OVR_A_SOURCE 0, 0x414)] 0x0504 0x414 []
     s.programmed 0x0504 0x414 = 0 ∧ goes (.faultRaise 1) s (fun t => t.flt.active == [] && t.flt.raised == [aFault 1 2] &&
       (tget noHist t.flt.history 130).length == 1 && framed s t [.regs, .flt] [K.FLT_CNT_RAISED]) = true) ∧
    (let a : ActEntry := ⟨0x0504, 0x414, 2, false, 65535, 0, 0, 0, 0⟩
     let s := faulty [] 0x0504 0x414 [(255, some a)]
     goes (.faultRaise 1) s (fun t => t.actEntry 255 == some a && t.rd F.FLT_FIRST_SOURCE == 0x414 && t.statGet 0x1F4 == 1 &&
       framed s t [.regs, .flt, .stat] [K.FLT_CNT_RAISED, K.FLT_CNT_MERGED, K.FLT_FIRST]) = true) ∧
    (let s := faulty [] 0x0504 0x414 [(0, some ⟨7, 8, 1, false, 1, 0, 0, 0, 0⟩)]
     s.programmed 0x0504 0x414 = 2 ∧ goes (.faultRaise 1) s (fun t =>
       t.actEntry 1 == some ⟨0x0504, 0x414, 2, false, 1, 1, 9, 0, 0⟩ && t.flt.errPulse &&
       bitOf (t.reg 0x8028) 2 && t.rd F.FLT_FIRST_SEV == 2) = true) ∧
    (let s := faulty [(F.FLT_SEV_SEV 0x0504, 1)] 0x0504 0x414 []
     goes (.faultRaise 1) s (fun t => t.actEntry 0 == some ⟨0x0504, 0x414, 1, false, 1, 1, 9, 0, 0⟩ && !t.flt.errPulse &&
       t.statGet 0x1F0 == 1 && framed s t [.regs, .flt, .stat, .recd]
         [K.FLT_CNT_RAISED, K.FLT_FIRST, K.REC_CNT_DROP]) = true) ∧
    goes (.faultRaise 1) (faulty [(F.FLT_SEV_SEV 0x0504, 4)] 0x0504 0x14 []) (fun t => t.flt.fencedLink && !t.flt.safe) = true ∧
    goes (.faultRaise 1) (faulty [(F.FLT_SEV_SEV 0x0504, 4)] 0x0504 0x214 []) (fun t => t.flt.fencedHost && !t.flt.safe) = true ∧
    goes (.faultRaise 1) (faulty [(F.FLT_SEV_SEV 0x0504, 5)] 0x0504 0x214 []) (fun t => t.flt.safe) = true ∧
    goes (.faultRaise 1) (faulty [] 0x0504 0x414 [(3, some ⟨0x0504, 0x416, 2, false, 1, 0, 0, 0, 0⟩)]) (fun t =>
      t.reg K.FLT_CNT_ESCALATED == 1 && (t.actEntry 0).isSome) = true := by decide +kernel

theorem witness_FaultsClearUnderConditions :
    (let a : ActEntry := ⟨Code.PWR_FAIL_WARN, Src.feed 0, 2, false, 1, 0, 0, 0, 0⟩
     let s := { withF [(F.PWR_STAT_WARN, 1)] with flt := { State.reset.flt with active := [(5, some a)] } }
     s.actEntry 5 = some a ∧ s.present a.code a.src = true ∧ goes (.fltActClear 5) s (fun t => t.flt == s.flt &&
       framed s t [.regs] [K.FLT_CNT_CLR_REFUSED]) = true) ∧
    (let a : ActEntry := ⟨0x0504, 0x414, 1, false, 1, 0, 0, 0, 0⟩
     let s := { withF [] with flt := { State.reset.flt with active := [(5, some a)] }, ticks := 100000000 }
     s.present a.code a.src = false ∧ goes (.fltActClear 5) s (fun t => t == s.setEntry 5 none) = true ∧
     s.rd F.FLT_CTL_NOTE_AGE_MS = 1000 ∧ goes (.faultNoteAge 5) s (fun t => t == s.setEntry 5 none) = true ∧
     goes (.faultNoteAge 5) (s.wr F.FLT_CTL_NOTE_AGE_MS 0) (fun t => t == s.wr F.FLT_CTL_NOTE_AGE_MS 0) = true) ∧
    (let s0 := withF []
     let s := { s0 with flt := { s0.flt with safe := true, fencedEdge := true } }
     goes .safeExit s (fun t => !t.flt.safe) = true ∧ goes (.unfence 1) s (fun t => !t.flt.fencedEdge && t.flt.safe) = true) ∧
    (let s0 := withF []
     let s := { s0 with flt := { s0.flt with safe := true, fencedLink := true, active := [(0, some ⟨1, 0, 5, false, 1, 0, 0, 0, 0⟩)] } }
     goes .safeExit s (fun t => t.flt == s.flt && t.reg K.FLT_CNT_CLR_REFUSED == 1) = true ∧
     goes (.unfence 8) s (fun t => t.flt == s.flt && t.reg K.FLT_CNT_CLR_REFUSED == 1) = true ∧
     goes (.unfence 4) s (fun t => t == { s with flt := { s.flt with fencedHost := false } }) = true) ∧
    goes (.fltInjArm 0x46001FFF#32 3 4) (withF []) (fun t => t.bit F.FLT_INJ_PENDING && t.flt.inject == some (6, 0x1FFF, true) &&
      framed (withF []) t [.regs, .flt] [K.FLT_INJ]) = true := by decide +kernel

/-- A recorder at work: fitted, ready, one entry queued. -/
def recording (l : List (Fld × Nat)) (f : RecUnit → RecUnit) : State :=
  let s := withF ([(F.REC_CFG_SIZE, 1), (F.REC_STAT_READY, 1)] ++ l)
  { s with recd := f { s.recd with queue := [⟨0x504, 1, 2, 3, [1#32, 2#32, 3#32, 4#32]⟩], seconds := 99, next := 7 } }

theorem witness_RecorderWritesAndVerifies :
    (let s := recording [] (fun r => { r with ops := [⟨0, 224, [1#8, 2#8]⟩, ⟨0, 226, [3#8]⟩] })
     goes (.recWriteDone true) s (fun t => t == { s with recd := { s.recd with mram := [(224, 1#8), (225, 2#8)], ops := [⟨0, 226, [3#8]⟩] } }) = true) ∧
    (let s := recording [] (fun r => { r with ops := [⟨0, 224, [1#8, 2#8]⟩], now := some ⟨0x504, 1, 2, 3, []⟩ })
     goes (.recWriteDone true) s (fun t => t.recd.next == 8 && t.recd.ops == t.recd.copies && t.recd.queue == s.recd.queue &&
       framed s t [.regs, .stat, .recd] [K.REC_CNT_WRITTEN]) = true) ∧
    (let s := recording [] (fun r => { r with ops := [⟨0, 224, []⟩], failNext := 2 })
     goes (.recWriteDone true) s (fun t => t.recd == { s.recd with again := true, failNext := 1 } &&
       framed s t [.regs, .stat, .recd] [K.REC_CNT_VERIFY]) = true) ∧
    [(0, F.REC_STAT_P_FAIL, Code.REC_P_FAIL), (1, F.REC_STAT_C_FAIL, Code.REC_C_FAIL), (2, F.REC_STAT_CTL_FAIL, Code.REC_BOTH_FAIL)].all (fun x =>
      let s := recording [] (fun r => { r with ops := [⟨x.1, 224, []⟩], failNext := 1, again := true, now := some ⟨0x504, 1, 2, 3, []⟩ })
      goes (.recWriteDone true) s (fun t => t.bit x.2.1 && (t.flt.raised.map (fun f => (f.code, f.src))) == [(x.2.2, Src.recorder)] &&
       framed s t [.regs, .flt, .stat, .recd] [K.REC_STAT, K.REC_CNT_VERIFY, K.REC_CNT_DROP, K.FLT_CHIP_STAT])) = true := by decide +kernel

theorem witness_RecorderKeepsTimeAndClears :
    (let s := recording [] id
     goes .recSecondTick s (fun t => t.recd.seconds == 100 && t.recd.ops == t.recd.copies && framed s t [.recd] []) = true ∧
     goes .recRetest (s.wr F.REC_STAT_P_FAIL 1) (fun t => !t.bit F.REC_STAT_P_FAIL &&
       framed s t [.regs, .recd] [K.REC_STAT]) = true ∧
     goes (.recInjArm 0x40000000#32) s (fun t => t.recd == { s.recd with inject := some true } && t.rd F.REC_INJ_KIND == 1 &&
       framed s t [.regs, .recd] [K.REC_INJ]) = true ∧
     goes (.mfgSeconds 100) { s with boot := { s.boot with held := [2] } } (fun t => t.recd.seconds == 100 && t.tap.ir == 0x41 &&
       framed s { t with boot := s.boot } [.regs, .recd, .tap] [K.REC_STAT]) = true ∧
     goes (.mfgSeconds 100) s (fun t => t == { s with tap := { s.tap with ir := 0x41 } }) = true) ∧
    [0, 1, 2].all (fun m =>
      let s := recording [(F.REC_STAT_CLEARING, 1), (F.REC_CTL_CHECK, m)] (fun r => { r with
        clearing := some aTask, mram := [(33, 7#8), (0x200000, 1#8), (0x200060, 2#8), (0x201004, 9#8)] })
      goes .recClearDone s (fun t => t.recd.mram == [(0x200000, 1#8), (0x201004, 9#8)] && t.recd.next == 7 &&
        t.recd.ops.length == (if m = 0 then 1 else 3) && t.recd.now.isSome && framed s t [.recd] []) &&
      goes .recClearDone { s with recd := { s.recd with ops := [⟨2, 0, []⟩] } } (fun t => t.recd.ops == [⟨2, 0, []⟩] && t.recd.now == none) &&
      goes .recClearDone { s with recd := { s.recd with now := some ⟨1, 0, 0, 0, []⟩ } } (fun t => t.recd.mram == s.recd.mram)) = true ∧
    (let s := recording [(F.REC_STAT_CLEARING, 1)] (fun r => { r with clearing := some aTask, ops := [⟨0, 28, [5#8]⟩], queue := [] })
     let s := { s with drv := { State.reset.drv with results := [] } }
     goes (.recWriteDone true) { s with recd := { s.recd with now := some ⟨RecCode.CLEARED, 1, 2, 3, []⟩, clearStep := .record ⟨RecCode.CLEARED, 1, 2, 3, []⟩ } }
       (fun t => t.recd.next == 1 && t.recd.clears == 1 && t.recd.ops == t.recd.copies && t.recd.clearing.isSome) = true ∧
     goes (.recWriteDone true) { s with recd := { s.recd with clearStep := .copies } } (fun t => t.recd.clearing == none &&
       !t.bit F.REC_STAT_CLEARING && t.drv.results.map (fun p => p.2) == [⟨St.OK, 0, leBytes 8 0⟩]) = true) := by decide +kernel

theorem witness_SlotsFollowModules :
    (let s := withF []
     s.up .edge = true ∧ s.bit (F.PWR_SLOT_STAT_PRESENT 7) = false ∧ goes (.slotPresentChange 7 true) s (fun t =>
       t.bit (F.PWR_SLOT_STAT_PRESENT 7) && framed s t [.regs, .flt] [K.PWR_SLOT_STAT 7]) = true) ∧
    (let s := withF [(F.PWR_SLOT_STAT_PRESENT 0, 1), (F.PWR_SLOT_STAT_STATE 0, 3), (F.PWR_SLOT_STAT_EN_OUT 0, 1), (F.PWR_SLOT_STAT_PG 0, 1)]
     s.slotSt 0 = 3 ∧ goes (.slotPresentChange 0 false) s (fun t => t.slotSt 0 == 1 && !t.bit (F.PWR_SLOT_STAT_EN_OUT 0) &&
       !t.bit (F.PWR_SLOT_STAT_PG 0) && framed s t [.regs, .flt, .pwr] [K.PWR_SLOT_STAT 0]) = true) ∧
    (let s := (withF [(F.PWR_SLOT_STAT_PRESENT 0, 1), (F.PWR_SLOT_STAT_STATE 0, 4)]).setPslot 0 ⟨true, false, false, some 0, some 900, none⟩
     s.slotSt 0 = 4 ∧ goes (.slotPresentChange 0 false) s (fun t => t.slotSt 0 == 4 && (t.pslot 0).retryEnd == some 900 &&
       framed s t [.regs, .flt, .pwr] [K.PWR_SLOT_STAT 0]) = true) ∧
    (let s := withF [(F.PWR_SLOT_STAT_PRESENT 0, 1), (F.PWR_SLOT_STAT_STATE 0, 1)]
     s.slotSt 0 = 1 ∧ goes (.slotInsertSettled 0) s (fun t => (t.pslot 0).ready) = true) ∧
    (let s := withF [(F.PWR_SLOT_STAT_PRESENT 0, 1)]
     s.slotSt 0 ≠ 1 ∧ goes (.slotInsertSettled 0) s (fun t => (t.pslot 0).settled && !(t.pslot 0).ready) = true) ∧
    (let s := (withF [(F.PWR_SLOT_STAT_PRESENT 0, 1), (F.PWR_SLOT_STAT_STATE 0, 1)]).setPslot 0 ⟨true, true, false, none, none, none⟩
     s.mayStart 0 = true ∧ goes (.slotStart 0) s (fun t => t.slotSt 0 == 2 && t.bit (F.PWR_SLOT_STAT_EN_OUT 0) &&
       framed s t [.regs, .pwr] [K.PWR_SLOT_STAT 0]) = true) ∧
    (let s := (withF [(F.PWR_SLOT_STAT_STATE 0, 1), (F.PWR_STAT_WARN, 1), (F.PWR_SLOT_CTL_SHED 0, 1)]).setPslot 0 ⟨true, true, false, none, none, none⟩
     s.mayStart 0 = true ∧ goes (.slotStart 0) s (fun t => (t.pslot 0).shed && !t.bit (F.PWR_SLOT_STAT_EN_OUT 0) &&
       framed s t [.regs, .pwr] [K.PWR_SLOT_STAT 0]) = true) := by decide +kernel

theorem witness_SlotsTripAndRetry :
    (let s := withF [(F.PWR_SLOT_STAT_STATE 7, 2)]
     s.slotLive 7 = true ∧ goes (.slotFaultIn 7 true false) s (fun t => t.bit (F.PWR_SLOT_STAT_FTIMER 7) && t.slotSt 7 == 2 &&
       framed s t [.regs] [K.PWR_SLOT_STAT 7]) = true ∧
     goes (.slotFaultIn 7 false true) s (fun t => t.slotSt 7 == 3 && t.bit (F.PWR_SLOT_STAT_PG 7)) = true) ∧
    (let s := withF [(F.PWR_SLOT_STAT_STATE 0, 3)]
     goes (.slotFaultIn 0 false false) s (fun t => t.bit (F.PWR_SLOT_STAT_FTIMER 0) && t.slotSt 0 == 3) = true) ∧
    (let s := withF [(F.PWR_SLOT_STAT_STATE 0, 3), (F.PWR_SLOT_STAT_FTIMER 0, 1), (F.PWR_SLOT_STAT_FAULT 0, 1)]
     s.slotCond 0 = 1 ∧ goes (.slotTrip 0) s (fun t => t.slotSt 0 == 4 && t.rd (F.PWR_SLOT_STAT_CAUSE 0) == 1 &&
       t.rd (F.PWR_SLOT_STAT_RETRY_LEFT 0) == 100 && (t.pslot 0).retryEnd == some 100000000 && t.statGet 0x260 == 1 &&
       framed s t [.regs, .flt, .stat, .pwr] [K.PWR_SLOT_STAT 0, K.PWR_SLOT_CNT_TRIP 0]) = true) ∧
    (let s := withF [(F.PWR_SLOT_STAT_STATE 0, 3), (F.PWR_SLOT_STAT_FTIMER 0, 1)]
     s.slotCond 0 = 2 ∧ goes (.slotTrip 0) s (fun t => t.rd (F.PWR_SLOT_STAT_CAUSE 0) == 2) = true) ∧
    (let s := withF [(F.PWR_SLOT_STAT_STATE 0, 2)]
     s.slotCond 0 = 0 ∧ goes (.slotStartTimeout 0) s (fun t => t.rd (F.PWR_SLOT_STAT_CAUSE 0) == 3 &&
       t.flt == (s.raise Code.PWR_SLOT_TRIP (Src.slot 0) [0, 3, 0, 100]).flt) = true) ∧
    (let s := (withF [(F.PWR_SLOT_STAT_STATE 0, 4)]).setPslot 0 ⟨true, false, false, some 0, some 9, none⟩
     goes (.slotRetryExpiry 0) s (fun t => t.slotSt 0 == 0 && framed s t [.regs, .pwr] [K.PWR_SLOT_STAT 0]) = true ∧
     goes (.slotEnWrite 0 0x80000000#32) s (fun t => t.slotSt 0 == 4 && framed s t [.regs] [K.PWR_SLOT_CTL 0]) = true) ∧
    (let s := (withF [(F.PWR_SLOT_STAT_STATE 0, 4), (F.PWR_SLOT_CTL_EN 0, 1)]).setPslot 0 ⟨true, false, false, some 0, some 9, none⟩
     goes (.slotRetryExpiry 0) s (fun t => t.slotSt 0 == 1 && (t.pslot 0).retryEnd == none) = true) ∧
    (let s0 := (withF [(F.PWR_SLOT_STAT_STATE 0, 4), (F.PWR_SLOT_CTL_EN 0, 1)]).setPslot 0 ⟨true, false, false, some 0, some 9, none⟩
     let s := { s0 with flt := { s0.flt with active := [(0, some ⟨1, Src.slot 0, 3, false, 1, 0, 0, 0, 0⟩)] } }
     s.slotDegraded 0 = true ∧ goes (.slotRetryExpiry 0) s (fun t => t.slotSt 0 == 5) = true) ∧
    goes (.slotEnWrite 0 0x80000000#32) (withF [(F.PWR_SLOT_STAT_PRESENT 0, 1)]) (fun t => t.slotSt 0 == 1 && !(t.pslot 0).ready) = true ∧
    goes (.slotEnWrite 0 0x40000000#32) (withF [(F.PWR_SLOT_STAT_STATE 0, 3)]) (fun t => t.slotSt 0 == 0 &&
      t.bit (F.PWR_SLOT_CTL_SHED 0)) = true := by decide +kernel

theorem witness_DroopHalvesTheCoreClock :
    (let s := withF [(F.CLK_DROOP_CTL_EN, 1)]
     s.up .mgmt = true ∧ s.bit F.CLK_STAT_HALF = false ∧ goes .droopDetect s (fun t => t.bit F.CLK_STAT_HALF &&
       framed s t [.regs, .flt, .stat] [K.CLK_STAT, K.CLK_CNT_DROOP]) = true) ∧
    goes .droopClean (withF [(F.CLK_STAT_HALF, 1)]) (fun t => !t.bit F.CLK_STAT_HALF) = true := by decide +kernel

theorem witness_PmbusHostSamplesDevices :
    (let s := withF [(F.CHIP_HALTED_HALTED, 0x10), (F.PWR_DEV_EN 9, 1)]
     s.halted 4 = true ∧ (s.pmb (pmbPortOf 9)).ops = [] ∧ goes (.pwrEnable (s.reg K.PWR_CTL) 0 0) s (fun t => t.bit F.PWR_CTL_EN &&
       (t.pmb 1).ops.length == 3 && framed s t [.regs, .pwr, .out, .freeCtr] [K.PWR_CTL]) = true) ∧
    (let s := withF [(F.PWR_CTL_EN, 1), (F.PWR_DEV_EN 0, 1), (F.PWR_DEV_EN 9, 1)]
     s.halting 4 = false ∧ goes .pwrSampleCycle s (fun t => (t.pmb 0).ops == [⟨0, 0x88, .volts, 0⟩, ⟨0, 0x89, .amps, 0⟩] &&
       (t.pmb 1).ops == [⟨9, 0x8B, .volts, 0⟩, ⟨9, 0x8C, .amps, 0⟩] && (t.pdev 9).cycled && framed s t [.pwr, .out] []) = true) ∧
    (let s := ((withF [(F.PWR_CTL_EN, 1)]).setPmb 0 ⟨[⟨2, 0x8C, .amps, 0⟩, ⟨3, 0x8B, .volts, 0⟩], false⟩).setPdev 2
        { PwrDev.idle 0 with volts := some 24000 }
     goes (.pmbusTransactionDone 0 0 2) s (fun t => t.rd (F.PWR_MEAS_I_MA 2) == 2000 && t.rd (F.PWR_MEAS_P_MW 2) == 48000 &&
       t.rd (F.PWR_MEAS_V_MV 2) == 24000 && (t.pdev 2).uj == 48000 && framed s t [.regs, .stat, .pwr, .out]
         [K.PWR_MEAS_V 2, K.PWR_MEAS_I 2, K.PWR_MEAS_P 2, K.PWR_E_LO 2, K.PWR_E_HI 2]) = true ∧
     goes (.pmbusTransactionDone 0 1 2) s (fun t => (t.pmb 0).again && framed s t [.pwr, .out] []) = true ∧
     goes (.pmbAlert 0) s (fun t => (t.pmb 0).ops == [⟨2, 0x8C, .amps, 0⟩, ⟨0, 0, .alertAddr, 0⟩, ⟨3, 0x8B, .volts, 0⟩]) = true) ∧
    (let s := (withF []).setPmb 1 ⟨[⟨6, 0x8C, .amps, 0⟩], true⟩
     goes (.pmbusTransactionDone 1 2 2) s (fun t => (t.pmb 1).ops == [] && (t.pdev 6).cause == 2 && (t.pdev 6).lastCmd == 0x8C) = true) := by
  decide +kernel

theorem witness_FeedsWarnAndRecover :
    (let s := withF []
     s.bit F.PWR_CTL_FAST_EN = true ∧ s.bit (F.feedFit 1) = true ∧ goes (.pwrFeedUv 1 true) s (fun t =>
       t.bit (F.feedLow 1) && !t.bit F.PWR_STAT_WARN && framed s t [.regs, .flt] [K.PWR_STAT]) = true) ∧
    (let s := withF [(F.PWR_STAT_B_LOW, 1)]
     s.ord.wc = [] ∧ goes (.pwrFeedUv 0 true) s (fun t => t.bit F.PWR_STAT_WARN && t.rd F.CHIP_PF_STAT_STATE == 1 &&
       t.ord.pfSince == some 0 && t.flt == ((s.raise Code.PWR_FEED_LOW (Src.feed 0) []).raise Code.PWR_FAIL_WARN (Src.feed 0) []).flt &&
       framed s t [.regs, .flt, .ord] [K.PWR_STAT, K.PWR_FLAGS, K.PWR_CNT_PFW, K.CHIP_PF_STAT]) = true) ∧
    (let s := (withF [(F.PWR_STAT_WARN, 1), (F.PWR_STAT_B_LOW, 1)]).setPslot 7 ⟨true, false, true, none, none, none⟩
     s.feedsLow = false ∧ goes .pwrFailEnd s (fun t => !t.bit F.PWR_STAT_WARN && (t.pslot 7).ready &&
       t.flt == (s.raise Code.PWR_FAIL_END (Src.feed 0) []).flt && framed s t [.regs, .flt, .pwr] [K.PWR_STAT]) = true) := by
  decide +kernel

/-- A running node with contents to lose and to keep. -/
def running (l : List (Fld × Nat)) : State :=
  let s := withF ([(F.CHIP_SCRATCH_DATA 1, 7), (F.DDR_CFG_SIZE, 1), (F.FLT_CHIP_STAT_REC_FAIL, 1), (F.CHIP_BOOT_STAT_STAGE, 6)] ++ l)
  { s with recd := { s.recd with mram := [(5, 5#8)], seconds := 12 }, ddr := { s.ddr with bytes := [(7, 7#8)] }, ticks := 400000000
           flt := { s.flt with safe := true } }

theorem witness_ResetSourcesRestore :
    goes .powerOn (running []) (fun t => t.reg 0x24 == 0#32 && t.recd == { State.reset.recd with mram := [(5, 5#8)] } && t.ddr.bytes == [] &&
      t.rd F.CHIP_RST_CAUSE_LAST == 1 && t.boot.held == [1]) = true ∧
    goes .resetN (running []) (fun t => t.reg 0x24 == 0#32 && t.recd.mram == [(5, 5#8)] && t.recd.seconds == 12 && t.ddr.bytes == [(7, 7#8)] &&
      t.rd F.DDR_CFG_SIZE == 1 && t.bit F.FLT_CHIP_STAT_REC_FAIL && t.stage == 0 && t.flt == State.reset.flt &&
      t.rd F.CHIP_RST_CAUSE_LAST == 2 && t.rd F.CHIP_RST_CAUSE_SEEN == 3 && t.boot.held == [2]) = true ∧
    (let s := running [(F.VME_SYSCTL_SYSRST_OUT, 1)]
     let s := { s with boot := { s.boot with straps := { s.boot.straps with syscon := true } } }
     goes .resetN s (fun t => t.out == [.sysReset true] && t.vme.sysrstHeld) = true ∧ goes .powerOn s (fun t => t.out == [.sysReset true]) = true) ∧
    (let s := running []
     goes .ringCmd { s with boot := { s.boot with resetDue := true } } (fun t => t.rd F.CHIP_RST_CAUSE_LAST == 4 && t.reg 0x24 == 0#32) = true ∧
     goes .ringCmd s (fun t => t == s) = true) ∧
    (let s := running [(F.CHIP_WDOG_EN, 1), (F.CHIP_WDOG_TO_MS, 1000)]
     goes .chipWdog s (fun t => t.rd F.CHIP_RST_CAUSE_LAST == 5 && t.boot.held == [5] && t.reg 0x24 == 0#32) = true ∧
     goes .serviceLoopComplete s (fun t => t == { s with boot := { s.boot with wdogAt := 400000000 } }) = true ∧
     goes .chipWdog { s with boot := { s.boot with wdogAt := 400000000 } } (fun t => t == { s with boot := { s.boot with wdogAt := 400000000 } }) = true) ∧
    goes .perstN (running []) (fun t => t == running []) = true ∧
    (let s := running [(F.CHIP_STRAP_HEAD, 1), (F.HST_PCIE_STAT_LINK_UP, 1)]
     goes .perstN s (fun t => t.rd F.CHIP_RST_CAUSE_LAST == 3 && t.boot.held == [3] && !t.bit F.HST_PCIE_STAT_LINK_UP && t.reg 0x24 == 7#32) = true) := by
  decide +kernel

/-- A minimal image: a header of 64 bytes and three empty sections, of types 1, 2 and 3; 1 GiB-coded DDR4 geometry and MRAM size 1. -/
def anImage (geometry : Nat) : List Byte :=
  let h := leBytes 4 0x5352424D ++ leBytes 2 1 ++ leBytes 2 3 ++ leBytes 4 112 ++ leBytes 2 0x1234 ++ leBytes 2 0 ++ leBytes 2 5 ++
    leBytes 2 geometry ++ leBytes 1 1 ++ leBytes 3 0 ++ leBytes 2 100 ++ leBytes 34 0
  let sec := fun (t : Nat) => leBytes 4 t ++ leBytes 4 0 ++ leBytes 4 (crc32c []).toNat ++ leBytes 4 0
  h ++ leBytes 4 (crc32c h).toNat ++ sec 1 ++ sec 2 ++ sec 3

theorem witness_BringUpGoesByItsStages :
    (let s := withF []
     let h := fun (l : List Nat) => { s with boot := { s.boot with held := l, imageNode := 9 } }
     goes (.resetRelease 2 2053 false true true true true true) (h [3, 2]) (fun t => t.boot.held == [3] && t.nodeId == 5 && t.isHead &&
       t.bit F.SVC_STAT_LOCKED && t.bit F.TWN_CTL_PRIMARY && t.bit F.NET_CTL_MCAP && t.bit F.VME_CTL_SYSCON && t.bit F.HST_CTL_HEAD &&
       t.out.length == 2 && framed (h [3, 2]) { t with boot := (h [3, 2]).boot } [.regs, .out]
        [K.CHIP_STRAP, K.NET_ID, K.NET_CTL, K.VME_CTL, K.HST_CTL, K.TWN_CTL, K.SVC_STAT, K.CHIP_SERIAL_LO, K.CHIP_SERIAL_HI, K.REC_STAT]) = true ∧
     goes (.resetRelease 2 0x7FF false false false false false false) (h [2]) (fun t => t.rd F.NET_ID_STATE == 4 && t.flt.raised.map (·.code) == [Code.NET_ID_BAD]) = true ∧
     goes (.resetRelease 2 5 true false false false false false) { h [2, 4] with vme := { s.vme with sysrstHeld := true } } (fun t => t.out == [.sysReset false] && !t.vme.sysrstHeld) = true ∧
     goes (.resetRelease 2 5 true false false false false false) (h [2]) (fun t => t.nodeId == 9) = true ∧
     goes (.resetRelease 2 5 true false false false false false) (h [2, 4]) (fun t => t == h [4]) = true ∧
     goes (.resetRelease 1 5 true false false false false false) (h [2, 4]) (fun t => t == h [2, 4]) = true) ∧
    goes .pllLock (withF []) (fun t => t.stage == 1 && t.boot.pll && t.bit F.CLK_STAT_SYS_LOCK && t.bit F.CLK_STAT_DDR_LOCK &&
      framed (withF []) { t with boot := State.reset.boot } [.regs] [K.CLK_STAT, K.CHIP_BOOT_STAT]) = true ∧
    (let s := withF [(F.CHIP_BOOT_STAT_STAGE, 1)]
     goes (.bootLoadDone [] [1#8] true []) s (fun t => t.stage == 7 && t.bit F.CHIP_BOOT_STAT_A_BAD && t.bit F.CHIP_BOOT_STAT_B_BAD &&
       framed s t [.regs, .flt] [K.CHIP_BOOT_STAT]) = true) ∧
    [2, 3, 4].all (fun n => goes .bootStageTimeout (withF [(F.CHIP_BOOT_STAT_STAGE, n)]) (fun t => n < t.stage && t.stage ≤ 5 &&
      t.flt.raised.length == 1 && framed (withF [(F.CHIP_BOOT_STAT_STAGE, n)]) t [.regs, .flt] [K.CHIP_BOOT_STAT])) = true ∧
    (let s := withF [(F.CHIP_BOOT_STAT_STAGE, 5)]
     let s := { s with boot := { s.boot with openEntries := [(0x24, 7#32), (0x220, 0x11111111#32)] } }
     goes .bootOpen s (fun t => t.boot.openEntries == [] && t.boot.heldLive == [(0x24, 7#32)] && t.shd 0x220 == 0x11111111#32) = true) := by
  decide +kernel

theorem witness_BringUpLoadsAnImage :
    (let s := withF [(F.CHIP_BOOT_STAT_STAGE, 1)]
     let g := 1 * 2 ^ 14 + 2666
     s.imageCheck (anImage g) = 0 ∧ (imageOf (anImage g)).entries = [] ∧
     goes (.bootLoadDone (anImage g) [] true []) s (fun t => t.stage == 5 && t.rd F.CHIP_BOOT_STAT_IMAGE_VER == 0x1234 && t.rd F.DDR_CFG_SIZE == 1 &&
       t.rd F.REC_CFG_SIZE == 1 && t.bit F.DDR_STAT_READY && (t.drover 63).st == .running) = true ∧
     goes (.bootLoadDone (anImage g) [] false []) s (fun t => t.stage == 7 && t.bit F.DDR_STAT_TRAIN_FAIL) = true) := by decide +kernel

theorem witness_HaltGroupsHaltDrainAndRelease :
    (let s := withF [(F.CHIP_HALT_HALT, 2), (F.CHIP_HALTED_HALTED, 2)]
     s.haltRefused 0x0A = false ∧ goes (.chipHaltWrite 0x4A#32 1 2) s (fun t => t.rd F.CHIP_HALT_HALT == 0x4A && t.rd F.CHIP_HALTED_HALTED == 2 &&
       framed s { t with boot := s.boot } [.regs] [K.CHIP_HALT]) = true ∧
     goes (.chipHaltWrite 0x08#32 1 2) s (fun t => t.rd F.CHIP_HALT_HALT == 8 && t.rd F.CHIP_HALTED_HALTED == 0) = true ∧
     goes (.haltDrained 0) (s.wr F.CHIP_HALT_HALT 3) (fun t => t.rd F.CHIP_HALTED_HALTED == 3 &&
       framed (s.wr F.CHIP_HALT_HALT 3) t [.regs] [K.CHIP_HALTED]) = true ∧
     goes (.haltDrained 0) s (fun t => t == s) = true) ∧
    (let s := withF [(F.CHIP_HALT_HALT, 1), (F.TWN_STAT_STATE, 3)]
     s.haltRefused 0x09 = true ∧ goes (.chipHaltWrite 9#32 1 2) s (fun t => t.rd F.CHIP_HALT_HALT == 1 &&
       t.flt.raised.map (fun f => (f.code, f.params)) == [(Code.CFG_LATE, [0x410#32, 9#32, 0x00010200#32, 3#32])]) = true) := by
  decide +kernel

theorem witness_OldBankRetires :
    (let s0 := (withF [(F.CHIP_COMMIT_STAT_RETIRING, 1)]).setReg 0x220 0x11111111#32
     let s := { s0 with regs := { s0.regs with refused := [(0x300C, 0x01020304#32)] } }
     s.bankInUse true = false ∧ goes .bankRetire s (fun t => t.shd 0x220 == 0x11111111#32 && t.shd 0x300C == 0x01020304#32 &&
       t.regs.refused == [] && !t.bit F.CHIP_COMMIT_STAT_RETIRING && t.reg 0x220 == s.reg 0x220 && t.reg 0x300C == s.reg 0x300C &&
       framed s { t with regs := s.regs } [] []) = true) ∧
    goes .bankRetire (withF []) (fun t => t == withF []) = true := by decide +kernel

theorem witness_DroversEnableAndDoorbellsWake :
    (let s0 := withF [(F.DRV_EN_LO_EN, 1), (F.DRV_EN_HI_EN, 0)]
     let s := { s0 with drv := { s0.drv with drv := [(33, { s0.drover 33 with st := .removed })] } }
     let v := 0x0000000300000005
     (someOrdinary v s.rsv64 && someOrdinary v s.rsvShadow) = true ∧
     goes (.drvEnWrite (2 ^ 32) 1 2) s (fun t => t.en64 == 2 ^ 32 && t.flt.raised == []) = true ∧
     goes (.drvEnWrite v 1 2) s (fun t => t.en64 == v && (t.drover 33).st == .reloading) = true) ∧
    (let s := withF [(F.HST_CTL_FETCH_EN, 1), (F.HST_STAT_INTERVAL, 77)]
     goes .hstWake s (fun t => t.rd F.HST_STAT_INTERVAL == s.rd F.HST_POLL_MIN_10NS && t.rd F.HST_STAT_INTERVAL != 77) = true ∧
     goes .hstWake (withF [(F.HST_STAT_INTERVAL, 77)]) (fun t => t == withF [(F.HST_STAT_INTERVAL, 77)]) = true) := by decide +kernel

/-- The monitor runs this command. -/
def monitor (c : MonCmd) : State := let s := withF [(F.SVC_STAT_BUSY, 1)]; { s with svc := { s.svc with cmd := some c } }

/-- The reply has begun with these lines and the command is over. -/
def told (s t : State) (ls : List (List SvcTok)) : Bool :=
  t.svc.cmd.isNone && t.rd F.SVC_STAT_BUSY == 0 && t.reg K.SVC_CNT_CMD == 1 && t.out.head? == some .svcPrompt &&
    (t.out.drop (1 + t.svcStatus.length)) == (ls.map Out.svcLine).reverse && framed s t [.regs, .svc, .out] [K.SVC_CNT_CMD, K.SVC_STAT]

theorem witness_MonitorShowsState :
    (State.reset.up .mgmt = true ∧ State.reset.halting 6 = false) ∧
    (let by_ : Instr → MonCmd → List (List SvcTok) → Bool := fun i c ls => goes i (monitor c) (fun t => told (monitor c) t ls)
     by_ .svcHelp .help (svcHelpLines.map (fun l => [.text l])) = true ∧ by_ .svcLens (.lens false 3) ((monitor .help).svcRegs 0x40C0 10) = true ∧
     by_ .svcLens (.lens true 3) ((monitor .help).svcRegs 0x50C0 8) = true ∧
     goes .svcFold (monitor (.fold 2)) (fun t => t.svc.cmd.isNone && t.reg K.SVC_CNT_CMD == 1) = true ∧
     goes .svcDrover (monitor (.drover none)) (fun t => told (monitor (.drover none)) t
       [[(monitor .help).svcReg K.DRV_LIVE_LO, (monitor .help).svcReg K.DRV_LIVE_HI]]) = true ∧
     goes .svcDrover (monitor (.drover (some 5))) (fun t => t.svc.cmd.isNone && t.reg K.SVC_CNT_CMD == 1) = true ∧
     goes .svcRing (monitor .ring) (fun t => t.svc.cmd.isNone && t.reg K.SVC_CNT_CMD == 1) = true ∧
     goes .svcCad (monitor .cad) (fun t => told (monitor .cad) t [[(monitor .cad).svcReg K.CAD_STAT, .hex 12 0, .hex 8 0, .hex 16 0]]) = true ∧
     goes .svcFault (monitor .fault) (fun t => told (monitor .fault) t [[(monitor .fault).svcReg K.FLT_CHIP_STAT, (monitor .fault).svcReg K.FLT_FIRST]]) = true ∧
     goes .svcStat (monitor .stat) (fun t => t.svc.cmd.isNone && t.reg K.SVC_CNT_CMD == 1) = true ∧
     goes .svcTwin (monitor .twin) (fun t => t.svc.cmd.isNone && t.reg K.SVC_CNT_CMD == 1) = true ∧
     goes .svcPwr (monitor .pwr) (fun t => t.svc.cmd.isNone && t.reg K.SVC_CNT_CMD == 1) = true ∧
     goes .svcVer (monitor .ver) (fun t => t.svc.cmd.isNone && t.reg K.SVC_CNT_CMD == 1) = true) := by
  decide +kernel

/-- The line taken so far. -/
def typed (f : SvcUnit → SvcUnit) : State := { State.reset with svc := f State.reset.svc }

theorem witness_MonitorTakesCharacters :
    (let full : SvcUnit → SvcUnit := fun m => { m with line := List.replicate 80 0x61#8 }
     goes (.svcRxChar 0x61#8 false) State.reset (fun t => t == State.reset) = true ∧
     goes (.svcRxChar 0x61#8 true) State.reset (fun t => t.svc.line == [0x61#8] && t.out == [.svcEcho 0x61#8]) = true ∧
     goes (.svcRxChar 0x61#8 true) (typed full) (fun t => t.svc.long && t.svc.line.length == 80 && t.out == []) = true ∧
     goes (.svcRxChar 0x0A#8 true) State.reset (fun t => t == State.reset) = true ∧
     goes (.svcRxChar 0x7F#8 true) (typed full) (fun t => t.svc.line.length == 79) = true ∧
     goes (.svcRxChar 0x61#8 true) (typed (fun m => { m with cmd := some .ver })) (fun t => t.svc.held == [0x61#8]) = true ∧
     goes (.svcRxChar 0x61#8 true) (typed (fun m => { m with cmd := some .ver, held := List.replicate 16 0x61#8 }))
       (fun t => t.reg K.SVC_CNT_RX_DROP == 1) = true) := by
  decide +kernel

theorem witness_MonitorTakesLine :
    (let text : List Byte → State := fun l => typed (fun m => { m with line := l })
     let replies : String → State → Bool := fun e t => t.svc.line == [] && t.svc.cmd.isNone && t.out.contains (.svcLine [.text e])
     -- too long; "zz"; "lens o 99"; "poke 0 0" while locked; "ver"
     goes (.svcRxChar 0x0D#8 true) (typed (fun m => { m with long := true })) (replies "ERR LONG") = true ∧
     goes (.svcRxChar 0x0D#8 true) (text [0x7A#8, 0x7A#8]) (replies "ERR SYNTAX") = true ∧
     goes (.svcRxChar 0x0D#8 true) (text [0x6C#8, 0x65#8, 0x6E#8, 0x73#8, 0x20#8, 0x6F#8, 0x20#8, 0x39#8, 0x39#8]) (replies "ERR RANGE") = true ∧
     goes (.svcRxChar 0x0D#8 true) ((text [0x70#8, 0x6F#8, 0x6B#8, 0x65#8, 0x20#8, 0x30#8, 0x20#8, 0x30#8]).wr F.SVC_STAT_LOCKED 1)
       (fun t => replies "ERR LOCKED" t && t.reg K.SVC_CNT_REFUSED == 1) = true ∧
     goes (.svcRxChar 0x0D#8 true) (text [0x76#8, 0x65#8, 0x72#8]) (fun t => t.svc.cmd == some .ver && t.bit F.SVC_STAT_BUSY && t.svc.line == []) = true) := by
  decide +kernel

theorem witness_MonitorActs :
    (let runs : MonCmd → State := fun c => typed (fun m => { m with cmd := some c })
     let replies : List SvcTok → State → Bool := fun l t => t.svc.cmd.isNone && t.reg K.SVC_CNT_CMD == 1 && t.out.contains (.svcLine l)
     goes .svcPeek (runs (.peek 0xC008 1)) (fun t => t.svc.cmd.isNone && t.reg K.SVC_CNT_CMD == 1) = true ∧
     goes .svcPeek (runs (.peek 0xC008 2)) (fun t => t.svc.cmd.isNone && t.reg K.SVC_CNT_CMD == 1) = true ∧
     State.reset.bit F.CHIP_COMMIT_STAT_RETIRING = false ∧
     goes .svcPoke (runs (.poke 0xC000 8)) (replies [.text "OK"]) = true ∧
     goes .svcFaultClr (runs (.faultClr 3)) (replies [.text "OK"]) = true ∧
     goes (.svcLog) (runs (.log 2)) (fun t => t.svc.cmd.isNone && t.reg K.SVC_CNT_CMD == 1) = true ∧
     goes .svcAtbSet (runs (.atbSet 0 8)) (fun t => replies [.text "OK"] t && t.rd F.TST_ATB0_NODE == 8) = true ∧
     goes .svcAtbSet (runs (.atbSet 1 2)) (replies [.text "REFUSED"]) = true ∧
     goes (.svcAtbRead 1234) ((runs (.atbRead 0)).wr F.TST_ATB0_NODE 8) (fun t => t.rd F.TST_ADC_CODE == 1234 && t.svc.cmd.isNone) = true ∧
     goes .svcLock (runs .lock) (fun t => replies [.text "OK"] t && t.bit F.SVC_STAT_LOCKED) = true) := by
  decide +kernel

theorem witness_MonitorSilentWhileHalted :
    (let s := State.reset.wr F.CHIP_HALT_HALT 0x40
     s.halting 6 = true ∧ exec .svcHelp s = .next s ∧ exec (.svcRxChar 0x61#8 true) s = .next s) := by
  and_intros
  · decide +kernel
  · rfl
  · rfl

/-- RESET_N is held low. -/
def inReset : State := { State.reset with boot := { State.reset.boot with held := [2] } }

theorem witness_TestAccessPortSelects :
    goes .tapReset State.reset (fun t => t.tap.ir == 1) = true ∧
    goes .idcode State.reset (fun t => t.out == [.tdo (tdoBits 0x1941656F 32)]) = true ∧
    goes (.samplePreload [true] [false, true]) State.reset (fun t => t.tap == ⟨2, [false, true]⟩ && t.out == [.tdo [true]]) = true ∧
    goes (.extest [true] [false]) inReset (fun t => t.tap == ⟨3, [false]⟩ && t.out.length == 3) = true ∧
    goes .clamp inReset (fun t => t.tap.ir == 4) = true ∧ goes .highz inReset (fun t => t.tap.ir == 5 && t.out.contains .pinsFloat) = true ∧
    goes (.bypass 0xFF) State.reset (fun t => t.tap.ir == 0xFF && t.out == [.tdo [false]]) = true := by
  decide +kernel

theorem witness_TestDriveStopsInService : State.reset.boot.held.contains 2 = false ∧ goes .clamp State.reset (fun _ => true) = false := by
  decide +kernel

theorem witness_OtpKeyProgramsOnce :
    (let key : List Byte := List.replicate 32 0x5A#8
     goes (.otpKey key) inReset (fun t => t.boot.otpKey == key && t.boot.otpKeySet && t.bit F.REC_STAT_KEY_SET) = true ∧
     goes (.otpKey key) State.reset (fun t => t.boot == State.reset.boot && t.tap.ir == 0x42) = true) := by
  decide +kernel

theorem witness_TestBusesConnectAndConvert :
    (goes (.atbSel (8 + 64 * 9)) State.reset (fun t => t.rd F.TST_ATB0_NODE == 8 && t.rd F.TST_ATB1_NODE == 9) = true ∧
     goes (.atbSel (8 + 64 * 8)) State.reset (fun t => t.flt.raised.map (·.code) == [Code.CFG_RANGE] && t.regs == State.reset.regs) = true) ∧
    (goes (.tstAtbWrite 0 8 1 2) State.reset (fun t => t.rd F.TST_ATB0_NODE == 8) = true ∧
     goes (.tstAtbWrite 1 9 1 2) State.reset (fun t => t.rd F.TST_ATB1_NODE == 9) = true ∧
     goes (.tstAtbWrite 0 2 1 2) State.reset (fun t => t.flt.raised.map (·.code) == [Code.CFG_RANGE] && t.rd F.TST_ATB0_NODE == 0) = true) ∧
    (goes (.tstAdcStart true 1 2) State.reset (fun t => t.bit F.TST_ADC_BUSY && t.bit F.TST_ADC_BUS) = true ∧
     goes (.tstAdcDone 5000) (withF [(F.TST_ADC_BUSY, 1), (F.TST_ATB0_NODE, 8)]) (fun t => t.rd F.TST_ADC_CODE == 904 && !t.bit F.TST_ADC_BUSY) = true ∧
     (let s := withF [(F.TST_ADC_BUSY, 1)]
      s.bit F.TST_ADC_BUSY = true ∧ s.adcNode = 0 ∧ goes (.tstAdcDone 5000) s (fun t => t.freeCtr == 1) = true) ∧
     goes (.svcLockNow 1 2) State.reset (fun t => t.bit F.SVC_STAT_LOCKED) = true) := by
  decide +kernel

theorem witness_SetupWriteLandsFieldByField :
    (let s := withF []
     goes (.setupWrite 0x24 (leBytes 4 0xDEADBEEF) 3 4) s (fun t => t.reg 0x24 == 0xDEADBEEF#32 && framed s t [.regs] [0x24]) = true ∧
     -- REFUSED: below its least value, which CFG_RANGE reports
     goes (.setupWrite 0x1810 (leBytes 4 9) 3 4) s (fun t => t.reg 0x1810 == s.reg 0x1810 &&
       t.flt.raised.map (fun f => (f.code, f.src)) == [(Code.CFG_RANGE, Src.setup)] && framed s t [.flt] []) = true ∧
     goes (.setupWrite 0x1810 (leBytes 4 10) 3 4) s (fun t => bitsOf (t.reg 0x1810) 15 0 == 10 && framed s t [.regs] [0x1810]) = true ∧
     -- STAGED: reaches the other bank only
     goes (.setupWrite 0x300C (leBytes 4 0x01020304) 3 4) s (fun t => t.shd 0x300C == 0x01020304#32 && t.reg 0x300C == s.reg 0x300C &&
       framed s t [.regs] [0x300C]) = true ∧
     goes (.setupWrite 0x500 (leBytes 4 7) 3 4) s (fun t => t == s) = true ∧ regAt 0x500 = none ∧
     goes (.setupWrite 0x24 (leBytes 2 7) 3 4) s (fun t => t.flt.raised.map (·.code) == [Code.ADR_SETUP] && t.reg 0x24 == s.reg 0x24) = true ∧
     goes (.setupWrite 0x10000 (leBytes 4 7) 3 4) s (fun t => t == s) = true ∧
     goes (.setupWrite 0x20 (leBytes 8 0x1122334455667788) 3 4) s (fun t => t.reg 0x20 == 0x55667788#32 && t.reg 0x24 == 0x11223344#32) = true) ∧
    -- STATIC: only while its group is halted
    (let s := withF [(F.CHIP_HALTED_HALTED, 1)]
     goes (.setupWrite 0x5808 (leBytes 4 32) 3 4) s (fun t => t.rd F.VME_BUS_TIMER_BTO_US == 32 && framed s t [.regs] [0x5808]) = true) ∧
    goes (.setupWrite 0x400 (leBytes 4 1) 3 4) (withF [(F.CHIP_RST_CAUSE_SEEN, 3)]) (fun t => t.rd F.CHIP_RST_CAUSE_SEEN == 2) = true := by
  decide +kernel

theorem witness_StaticFieldsWaitForTheHalt :
    let s := withF []
    goes (.setupWrite 0x5808 (leBytes 4 32) 3 4) s (fun t => t.rd F.VME_BUS_TIMER_BTO_US == s.rd F.VME_BUS_TIMER_BTO_US &&
      t.flt.raised.map (fun f => (f.code, f.params)) == [(Code.CFG_LATE, [0x5808#32, 32#32, 0x00030400#32, 0#32])]) = true ∧
    goes (.setupWrite 0x5808 (leBytes 4 64) 3 4) s (fun t => t == s) = true ∧
    goes (.setupWrite 0x1800 (leBytes 4 0xC0000000) 3 4) s (fun t => t.rd F.NET_CTL_MCAP == 0 && t.rd F.NET_CTL_JOIN_EN == 1 &&
      t.flt.raised.map (fun f => (f.code, f.params)) == [(Code.CFG_LATE, [0x1800#32, 0xC0000000#32, 0x00030400#32, 2#32])]) = true := by
  decide +kernel

theorem witness_SetupReadClearsAndLatches :
    let s0 := withF [(F.CHIP_SCRATCH_DATA 1, 7)]
    let s := { s0 with cad := { s0.cad with pos := 0x100000002_00000003 } }
    goes (.setupLatchRead 0x24 4) s (fun t => t == s) = true ∧
    goes (.setupLatchRead 0x7024 4) s (fun t => tget zeroWord t.regs.latch 0x7028 == 2#32 && tget zeroWord t.regs.latch 0x702C == 1#32 &&
      framed s { t with regs := { t.regs with latch := s.regs.latch } } [] []) = true ∧
    goes (.setupLatchRead 0x308 4) (s.setReg 0x308 0x905#32) (fun t => t.reg 0x308 == 0x505#32) = true ∧
    goes (.setupLatchRead 0x3808 4) (s.setReg 0x3808 9#32) (fun t => t.rd F.FLD_POOL_PEAK_PEAK == 110592 - s.fold.free) = true ∧
    goes (.setupLatchRead 0x3844 4) (s.wr (F.FLD_F_PEAK_PEAK 0) 9) (fun t => t.rd (F.FLD_F_PEAK_PEAK 0) == 0) = true ∧
    goes (.setupLatchRead 0x500 4) s (fun t => t == s) = true ∧ goes (.setupLatchRead 0x24 2) s (fun t => t.flt.raised.map (·.code) == [Code.ADR_SETUP] && t.reg 0x24 == s.reg 0x24) = true := by decide +kernel

theorem witness_DataTimeoutStaysAboveBusTimeout :
    let s := withF [(F.CHIP_HALTED_HALTED, 1)]
    s.rd F.VME_BUS_TIMER_BTO_US < s.rd F.VME_TIMEOUT_DATA_TO_US ∧
    goes (.setupWrite 0x5804 (leBytes 4 64) 3 4) s (fun t => t.rd F.VME_TIMEOUT_DATA_TO_US == 256 && t.flt.raised.map (·.code) == [Code.CFG_RANGE]) = true ∧
    goes (.setupWrite 0x5808 (leBytes 4 256) 3 4) s (fun t => t.rd F.VME_BUS_TIMER_BTO_US == 64 && t.flt.raised.map (·.code) == [Code.CFG_RANGE]) = true ∧
    goes (.setupWrite 0x5808 (leBytes 4 255) 3 4) s (fun t => t.rd F.VME_BUS_TIMER_BTO_US == 255 && t.flt.raised == []) = true := by decide +kernel

def cadOf (s : State) (f : CadUnit → CadUnit) : State := { s with cad := f s.cad }

theorem witness_TheCadenceFollowsItsSource :
    (let off := { State.reset with boot := { State.reset.boot with held := [1] } }
     goes .cadTick off (fun t => t == { off with ticks := off.ticks + 1 }) = true ∧
     (let s := { withF [(F.CHIP_BOOT_STAT_STAGE, 1)] with ticks := 7 }
      goes .cadTick s (fun t => t.ticks == 8 && t.cyc == s.cyc + 8 && t.net.epoch == s.net.epoch + 160 && t.cad == s.cad) = true) ∧
     (let s := { withF [(F.CHIP_BOOT_STAT_STAGE, 1), (F.LNK_CTL_W_EN, 1)] with ticks := 20971 }
      goes .cadTick s (fun t => (t.link 0).txMarker == 1 && t.out.length == 2) = true) ∧
     (let s := cadOf { withF [(F.CHIP_BOOT_STAT_STAGE, 6), (F.CAD_STAT_ACTIVE, 0)] with ticks := 7 } (fun c => { c with num := 7, den := 2, acc := 1, pos := 100 })
      goes .cadTick s (fun t => t.cad.pos == 104 && t.cad.acc == 0 && t.ticks == 8) = true)) ∧
    (let s := { withF [(F.CAD_STAT_ACTIVE, 0), (F.CAD_STAT_STATE, 1)] with ticks := 5000000 }
     let m := { withF [(F.CAD_STAT_ACTIVE, 2), (F.CAD_STAT_STATE, 1), (F.CAD_COAST_COAST_MS, 4)] with ticks := 5000000 }
     let z := fun (s : State) (n : Nat) => cadOf s (fun c => { c with zcLast := some n })
     goes .cadZcEdge s (fun t => t.cad.zcLast == some 5000000 && t.reg K.CAD_CNT_ZC_BAD == 1 && t.flt.raised.map (·.code) == [Code.CAD_ZC_BAD]) = true ∧
     goes .cadZcEdge (z s 4000000) (fun t => t.cad == (z s 4000000).cad && t.bit F.CAD_FLAGS_ZC_BAD) = true ∧
     goes .cadZcEdge (z s 1000000) (fun t => t.cad.zcLast == some 5000000 && t.bit F.CAD_FLAGS_ZC_BAD) = true ∧
     goes .cadZcEdge (z s 3000000) (fun t => t.cad.zcPeriods == [2000000] && t.flt == s.flt) = true ∧
     (let q := z m 3000000
      let u := cadOf q (fun c => { c with zcPeriods := [2000000] })
      goes .cadZcEdge (cadOf q (fun c => { c with pos := u.zcPhase })) (fun t => t.cad.num == 2 ^ 32 && t.cad.den == 2000000) = true) ∧
     goes .cadMainsLoss s (fun t => t == s) = true ∧
     goes .cadMainsLoss (z m 5000000) (fun t => t == z m 5000000) = true ∧
     goes .cadMainsLoss (m.wr F.CAD_STAT_STATE 0) (fun t => t == m.wr F.CAD_STAT_STATE 0) = true ∧
     goes .cadMainsLoss m (fun t => t.cadState == 2 && t.reg K.CAD_CNT_LOSS == 1 && t.flt.raised.map (·.code) == [Code.CAD_LOSS]) = true ∧
     goes .cadMainsLoss (m.wr F.CAD_COAST_COAST_MS 0) (fun t => t.cadState == 3 && t.flt.raised.map (·.code) == [Code.CAD_LOSS, Code.CAD_FALLBACK]) = true ∧
     goes .cadFallback (m.wr F.CAD_STAT_STATE 2) (fun t => t.cadState == 3 && t.cad.den == 100000) = true ∧
     goes .cadFallback m (fun t => t == m) = true) ∧
    (let s := withF [(F.CAD_ENC_CPR, 1000), (F.CAD_ENC_CNT_COUNT, 999), (F.CAD_ENC_IDX_EN, 1), (F.CAD_ENC_TOL_IDX_TOL, 2), (F.CAD_STAT_ACTIVE, 0)]
     let e := (s.wr F.CAD_STAT_ACTIVE 3).wr F.CAD_STAT_STATE 1
     goes (.cadEncCount true false) s (fun t => t.rd F.CAD_ENC_CNT_COUNT == 0 && t.cad.encA) = true ∧
     goes (.cadEncCount false true) s (fun t => t.rd F.CAD_ENC_CNT_COUNT == 998 && t.cad.encB) = true ∧
     goes (.cadEncCount false false) s (fun t => t == s) = true ∧
     goes (.cadEncCount true true) s (fun t => t.reg K.CAD_CNT_QERR == 1 && t.bit F.CAD_FLAGS_QERR) = true ∧
     goes (.cadEncCount true true) (cadOf (e.wr F.CAD_COAST_COAST_MS 4) (fun c => { c with encBad := 7 })) (fun t => t.cadState == 2) = true ∧
     goes .cadEncIndex s (fun t => t.rd F.CAD_ENC_CNT_COUNT == 0 && t.reg K.CAD_CNT_IDX_SLIP == 1) = true ∧
     goes .cadEncIndex (s.wr F.CAD_ENC_CNT_COUNT 500) (fun t => t == s.wr F.CAD_ENC_CNT_COUNT 500) = true ∧
     goes .cadEncIndex (s.wr F.CAD_ENC_CNT_COUNT 0) (fun t => t == s.wr F.CAD_ENC_CNT_COUNT 0) = true ∧
     goes .cadEncIndex (e.wr F.CAD_ENC_CNT_COUNT 500) (fun t => 2 ≤ t.cadState && t.reg K.CAD_CNT_LOSS == 1) = true) := by
  decide +kernel

theorem witness_PeriodsAreSnappedAndSchedulesCopied :
    (let s := cadOf { withF [(F.CHIP_BOOT_STAT_STAGE, 6)] with ticks := 500 } (fun c => { c with p := 4 })
     goes .cadMaxMs s (fun t => t.cad.p == 5 && t.bit F.CAD_SNAP_VALID && t.cad.lastBoundary == 500 && t.rd F.CAD_SNAP_BANK == 0) = true ∧
     goes .cadMaxMs (s.wr F.CHIP_BOOT_STAT_STAGE 1) (fun t => t == s.wr F.CHIP_BOOT_STAT_STAGE 1) = true ∧
     goes .cadMaxMs ((cadOf s (fun c => { c with lastBoundary := 500 })).wr F.CAD_SNAP_VALID 1)
       (fun t => t == (cadOf s (fun c => { c with lastBoundary := 500 })).wr F.CAD_SNAP_VALID 1) = true ∧
     (let c := ({ s with stat := { s.stat with copying := [1] } }).setDrover 5
        { s.drover 5 with st := .running, exec := some { Exec.start (maintTask 0 1) with phase := .ready } }
      c.maintRun = some (5, 1) ∧
      goes .statSnapshotCopy c (fun t => t.stat.copying == [] && t.host.stLost == 1 && t.reg K.HST_CNT_ST_LOST == 1 && t.maintRun.isNone) = true ∧
      goes .statSnapshotCopy { c with stat := { c.stat with copying := [0] } } (fun t => t.stat.copying == [0] && t.host.stLost == 0 && t.maintRun.isNone) = true ∧
      goes .statSnapshotCopy s (fun t => t == s) = true ∧
      (let e : RingEntry := ⟨257, false, none, none, [], false⟩
       let c := ((c.wr F.HST_STR_CTL_EN 1).wr F.HST_STR_CTL_SIZE 4).setWriter 257 (some ⟨e, []⟩)
       goes .statSnapshotCopy c (fun t => t.host.queue.map (fun e => (e.key, e.bytes.length)) == [(257, 32 + 0xC50)]) = true)) ∧
     (let w := s.setSch 5 { SchEntry.idle 5 with copying := true }
      goes (.cadSchCopyDone 5) w (fun t => t.freeCtr == 64 && t.bit (F.CAD_SCH_STAT_COPIED 5) && !(t.schEntry 5).copying) = true ∧
      goes (.cadSchCopyDone 4) w (fun t => t == w) = true ∧
      (let r := { (w.wr F.DDR_STAT_READY 1).wr F.DDR_CFG_SIZE 1 with ddr := { w.ddr with bytes := [(3, 9)] } }
       r.ddrHas (r.schAt 0) 64 = true ∧
       goes (.cadSchCopyDone 5) (r.setSch 5 { SchEntry.idle 5 with copying := true }) (fun t => t.freeCtr == 0 && (t.schEntry 5).shadow.isSome) = true) ∧
      goes (.cadSchReload 0 0) w (fun t => (List.range 256).all (fun k => (t.schEntry k).copying)) = true ∧
      goes (.cadSchReload 0 0) (w.wr F.CHIP_COMMIT_STAT_RETIRING 1) (fun t => t.cad == w.cad && t.regs.heldWrites == [⟨K.CAD_SCH_RELOAD, 1#32, none⟩]) = true)) := by
  decide +kernel

/-- A node of a twin with this condition. -/
def twin (l : List (Fld × Nat)) (f : TwinUnit → TwinUnit) : State :=
  let s := { withF ([(F.NET_ID_ID, 1), (F.TWN_CTL_EN, 1), (F.TWN_CTL_PEER, 2), (F.TWN_LEASE_LEASE_MS, 10), (F.TWN_LEASE_GUARD_MS, 4)] ++ l) with ticks := 9000000 }
  { s with twin := f s.twin }

/-- A LEASE packet of the peer. -/
def aLease (ltype st : Nat) (sync : Bool) (gen bseq l g : Nat) : Packet :=
  ⟨mkW0 1 2 0 0 Kind.LEASE false 0 0 0 0, BitVec.ofNat 64 (ltype * 2 ^ 56 + st * 2 ^ 53 + b2n sync * 2 ^ 52 + gen * 2 ^ 32 + bseq),
    leBytes 4 0 ++ leBytes 2 l ++ leBytes 2 g⟩

theorem witness_TheCrookIsLeasedClaimedAndHandedOver :
    (let has := fun (s : State) (p : Packet) => { s with net := { s.net with taken := [[], [], [], [p]] } }
     let holder := twin [(F.TWN_STAT_CROOK, 1), (F.TWN_STAT_STATE, 3), (F.TWN_STAT_GEN, 5)]
     let stand := twin [(F.TWN_STAT_STATE, 1), (F.TWN_STAT_SYNC, 1)]
     let one : List Nat → State → Bool := fun cs t => t.flt.raised.map (·.code) == cs
     (goes .twnBeacon (holder id) (fun t => t.twin.bseq == 1 && t.twin.beacons == [(0, 9000000)] && t.out == []) = true ∧
      (let s := (holder id).wr (F.LNK_LINK_STAT_STATE 2) 2
       let s := s.setLink 2 { s.link 2 with limits := [64, 128, 224, 224] }
       goes .twnBeacon s (fun t => t.out.length == 1 && t.twin.bseq == 1) = true) ∧
      goes .twnBeacon (withF []) (fun t => t == withF []) = true) ∧
     (goes (.beaconRx 3) (has (holder id) (aLease 1 1 true 3 0 10 4)) (fun t => t.bit F.TWN_STAT_SYNC && one [] t && t.twin.heardLane == some 9000000) = true ∧
      goes (.beaconRx 3) (has (holder id) (aLease 1 1 true 3 0 11 4)) (fun t => one [Code.TWN_CFG_MISMATCH] t && t.twin.mismatch == some ((11, 4), (10, 4))) = true ∧
      goes (.beaconRx 3) (has (holder id) (aLease 1 3 true 3 0 10 4)) (fun t => t.crook && one [Code.TWN_CONFLICT] t) = true ∧
      goes (.beaconRx 3) (has (holder id) (aLease 1 3 true 7 0 10 4)) (fun t => t.twin.fencing && one [Code.TWN_CONFLICT, Code.TWN_FENCE] t) = true ∧
      goes (.beaconRx 3) (has (stand id) (aLease 1 3 true 7 0 10 4)) (fun t => t.twin.heardActive == some 2 && t.twin.tHeard == 9000000) = true ∧
      goes (.beaconRx 3) (has ((stand id).wr F.TWN_STAT_STATE 2) (aLease 1 3 true 7 0 10 4)) (fun t => t.twnState == 1) = true ∧
      goes (.beaconRx 3) (has ((stand id).wr F.TWN_STAT_STATE 5) (aLease 1 1 true 7 0 10 4)) (fun t => t.twnState == 1 && !t.bit F.TWN_STAT_SYNC) = true ∧
      goes (.beaconRx 2) (stand id) (fun t => t == stand id) = true ∧
      goes (.leaseAckRx 3) (has (holder (fun u => { u with beacons := [(4, 70)] })) (aLease 2 1 true 7 4 10 4)) (fun t => t.twin.tRenew == 70 && t.bit F.TWN_STAT_SYNC) = true ∧
      goes (.leaseAckRx 3) (has (stand id) (aLease 2 1 true 7 4 10 4)) (fun t => t.regs == (stand id).regs) = true ∧
      goes (.takeRx 3) (has ((stand id).wr F.TWN_STAT_STATE 2) (aLease 3 1 true 7 4 10 4)) (fun t => t.twin.sawTake) = true ∧
      goes (.handoverRx 3) (has (stand id) (aLease 4 1 true 7 4 10 4)) (fun t => t.twnState == 2 && t.twin.handover && t.twin.holdOut) = true ∧
      goes (.handoverRx 3) (has (holder id) (aLease 4 1 true 7 4 10 4)) (fun t => t.twnState == 3) = true ∧
      goes (.takeRx 3) (has (withF []) (aLease 3 1 true 7 4 10 4)) (fun t => t == withF []) = true) ∧
     (goes .twnLeaseLapse (holder id) (fun t => t.twin.fencing && one [Code.TWN_FENCE] t && t.reg K.TWN_CNT_FENCE == 1) = true ∧
      goes .twnLeaseLapse ((holder id).wr F.TWN_CTL_HOLD_EN 1) (fun t => t.bit F.TWN_STAT_ALONE && one [Code.TWN_PEER_LOST] t) = true ∧
      goes .twnLeaseLapse (stand id) (fun t => t == stand id) = true) ∧
     (let s := twin [(F.TWN_STAT_STATE, 1), (F.TWN_CTL_TAKE_EN, 1), (F.TWN_CTL_PRIMARY, 1)]
      goes .twnWaitEnd (s id) (fun t => t.twnState == 2 && t.twin.holdOut) = true ∧
      goes .twnWaitEnd ((s (fun u => { u with enteredStandby := 9000000 })).wr F.TWN_CTL_PRIMARY 0) (fun t => t.twnState == 1) = true ∧
      goes .twnWaitEnd (((s id).wr F.TWN_CTL_HOLD_EN 1).wr F.TWN_STAT_HOLD_IN 2) (fun t => t.twnState == 1 && one [Code.TWN_HOLD_STUCK] t) = true ∧
      goes .twnClaimEnd ((s id).wr F.TWN_STAT_STATE 2) (fun t => t.crook && t.twnState == 3 && t.rd F.TWN_EPOCH_EPOCH == 2 && one [Code.TWN_TAKEOVER] t) = true ∧
      goes .twnClaimEnd (((s (fun u => { u with sawTake := true })).wr F.TWN_STAT_STATE 2).wr F.TWN_CTL_PEER 0) (fun t => t.twnState == 1 && !t.twin.holdOut) = true ∧
      goes .twnClaimEnd (s id) (fun t => t == s id) = true) ∧
     (goes .twnFenceDone (holder (fun u => { u with fencing := true })) (fun t => !t.crook && t.twnState == 5 && !t.twin.fencing) = true ∧
      goes .twnFenceDone (holder id) (fun t => t == holder id) = true ∧
      (let f := twin [(F.TWN_STAT_STATE, 5), (F.TWN_CTL_HOLD_EN, 1)] id
       goes .twnFenceRearm f (fun t => t.twnState == 1) = true ∧ goes .twnRearm f (fun t => t.twnState == 1 && t.twin.tHeard == 9000000 - f.twnW) = true) ∧
      goes .twnFenceRearm (holder id) (fun t => t == holder id) = true ∧ goes .twnRearm (holder id) (fun t => t == holder id) = true ∧
      goes .twnResume ((holder id).wr F.TWN_STAT_SAFE 1) (fun t => !t.bit F.TWN_STAT_SAFE) = true ∧
      goes .twnYield (holder id) (fun t => one [Code.TWN_YIELD_REFUSED] t && t.twnState == 3) = true ∧
      goes .twnYield ((holder id).wr F.TWN_STAT_SYNC 1) (fun t => t.twnState == 4) = true ∧ goes .twnYield (stand id) (fun t => t == stand id) = true ∧
      goes .twnYieldRefused ((holder (fun u => { u with yieldEpoch := some 3 })).wr F.TWN_STAT_STATE 4) (fun t => t.twnState == 3 && one [Code.TWN_YIELD_REFUSED] t) = true ∧
      goes .twnYieldRefused (holder id) (fun t => t == holder id) = true ∧
      goes .twnHoldToggle (stand id) (fun t => t.twin.holdOut != (stand id).twin.holdOut) = true ∧ goes .twnHoldToggle (holder id) (fun t => t == holder id) = true ∧
      goes (.twnHoldInClassify true false) (stand id) (fun t => t.rd F.TWN_STAT_HOLD_IN == 2 && t.twin.holdIn) = true)) := by
  decide +kernel

/-- A node of a twin with this condition, a packet of its peer at hand. -/
def mirrored (l : List (Fld × Nat)) (f : TwinUnit → TwinUnit) (ps : List Packet) : State :=
  let s := withF ([(F.NET_ID_ID, 1), (F.TWN_CTL_EN, 1), (F.TWN_CTL_PEER, 2), (F.TWN_STG_SIZE_STG_MIB, 1), (F.TWN_CTL_RING_MIRROR, 0)] ++ l)
  { s with twin := f s.twin, net := { s.net with taken := [[], [], [], ps] } }

/-- A MIRROR packet of the peer. -/
def aMirror (m rtype seq epoch : Nat) (pl : List Byte) : Packet :=
  ⟨mkW0 1 2 0 0 Kind.MIRROR false 0 0 0 0, mirrorW1 m rtype seq epoch, pl⟩

/-- A CLOSE payload. -/
def aClose (count crc flags mark : Nat) : List Byte :=
  leBytes 4 count ++ leBytes 4 crc ++ leBytes 8 0 ++ leBytes 1 flags ++ leBytes 7 0 ++ leBytes 8 mark

/-- A standby at epoch 6. -/
def standing (f : TwinUnit → TwinUnit) (ps : List Packet) : State :=
  mirrored [(F.TWN_STAT_STATE, 1), (F.TWN_STAT_SYNC, 1), (F.TWN_EPOCH_EPOCH, 6)] f ps

/-- A holder in epoch 6. -/
def holding (f : TwinUnit → TwinUnit) (ps : List Packet) : State :=
  mirrored [(F.TWN_STAT_STATE, 3), (F.TWN_STAT_CROOK, 1), (F.TWN_EPOCH_EPOCH, 6)] f ps

theorem witness_EpochsAreMirroredAndCommitted :
    (let b : StageBank := ⟨7, [], 0, none, false⟩
     let one : List Nat → State → Bool := fun cs t => t.flt.raised.map (·.code) == cs
     let banks : List StageBank → State → Bool := fun bs t => t.twin.banks == bs
     let bank : List StageBank → TwinUnit → TwinUnit := fun bs u => { u with banks := bs }
     (goes (.mirrorRecordRx 3) (standing (bank [b]) [aMirror 1 3 0 7 [1, 2]]) (banks [⟨7, [(0, ⟨3, [1, 2]⟩)], 10, none, false⟩]) = true ∧
      goes (.mirrorRecordRx 3) (standing id [aMirror 1 3 0 7 [1, 2]]) (banks [⟨7, [(0, ⟨3, [1, 2]⟩)], 10, none, false⟩]) = true ∧
      goes (.mirrorRecordRx 3) ((standing id [aMirror 1 8 0 9 []]).wr F.TWN_STAT_SYNC 0) (banks [⟨9, [(0, ⟨8, []⟩)], 8, none, false⟩]) = true ∧
      goes (.mirrorRecordRx 3) ((standing id [aMirror 1 3 0 7 [1]]).wr F.TWN_STAT_SYNC 0) (banks []) = true ∧
      goes (.mirrorRecordRx 3) ((standing (bank [b]) [aMirror 1 3 0 7 [1]]).wr F.TWN_STG_SIZE_STG_MIB 0)
        (fun t => banks [] t && !t.bit F.TWN_STAT_SYNC && one [Code.TWN_STAGE_FULL, Code.TWN_EPOCH_BAD] t) = true ∧
      goes (.mirrorRecordRx 3) (holding id [aMirror 1 3 0 7 [1]]) (fun t => t == holding id []) = true ∧
      goes (.mirrorRecordRx 3) (standing id []) (fun t => t == standing id []) = true) ∧
     (goes (.mirrorCloseRx 3) (standing (bank [b]) [aMirror 2 0 0 7 (aClose 1 0 0 0)])
        (fun t => t.twin.banks.map (·.close) == [some (1, 0, 0, 0)] && t.twin.committing.isNone) = true ∧
      goes (.mirrorCloseRx 3) (standing (bank [b]) [aMirror 2 0 0 7 (aClose 0 0 0 0)])
        (fun t => t.twin.banks == [] && t.twin.committing.map (·.epoch) == some 7) = true ∧
      goes (.mirrorCloseRx 3) (standing (bank [b]) [aMirror 2 0 0 7 (aClose 0 5 0 0)])
        (fun t => t.twin.banks == [] && t.twin.committing.isNone && one [Code.TWN_EPOCH_BAD] t) = true) ∧
     (goes (.resyncRx 3) (holding id [aMirror 4 0 0 6 []]) (fun t => t.twin.fullReq) = true ∧
      goes (.resyncRx 3) (standing id [aMirror 4 0 0 6 []]) (fun t => t == standing id []) = true ∧
      goes (.committedRx 3) (holding id [aMirror 3 0 0 6 []]) (fun t => t == holding id []) = true ∧
      goes (.committedRx 3) (holding (fun u => { u with markWait := [(6, aTask)] }) [aMirror 3 0 0 6 []])
        (fun t => t.twin.markWait == [] && t.drv.results == [(aTask, ⟨St.OK, 0, leBytes 8 6⟩)]) = true ∧
      goes (.committedRx 3) (holding (fun u => { u with markWait := [(4, aTask)] }) [aMirror 3 0 0 6 []])
        (fun t => t.drv.results == [(aTask, ⟨St.TWIN_OFF, 0, leBytes 8 0⟩)]) = true ∧
      (let y := ((holding (fun u => { u with yieldEpoch := some 6 }) [aMirror 3 0 0 6 []]).wr F.TWN_STAT_STATE 4).wr (F.DC_CTL_EN 2) 1
       goes (.committedRx 3) y (fun t => t.twnState == 1 && !t.crook && t.bit F.TWN_STAT_SYNC && t.rd F.TWN_EPOCH_EPOCH == 6 &&
         t.out.contains (.chainHigh 2)) = true ∧
       goes (.committedRx 3) { y with vme := { y.vme with owner := some .ih } } (fun t => t.crook && t.net.taken == y.net.taken) = true)) ∧
     (let c : StageBank := ⟨7, [], 0, some (1, 0, 0, 0), false⟩
      goes (.mirrorRecordWaitEnd 7) (standing (bank [c]) []) (fun t => banks [] t && one [Code.TWN_EPOCH_BAD] t && t.reg K.TWN_CNT_EP_DISCARD == 1) = true ∧
      goes (.mirrorRecordWaitEnd 7) (standing (bank [b]) []) (fun t => t == standing (bank [b]) []) = true ∧
      goes (.mirrorRecordWaitEnd 8) (standing (bank [c]) []) (fun t => t == standing (bank [c]) []) = true) ∧
     (let com : StageBank → TwinUnit → TwinUnit := fun b u => { u with committing := some b }
      goes .mirrorCommitDone (standing id []) (fun t => t == standing id []) = true ∧
      goes .mirrorCommitDone (standing (com ⟨7, [], 0, some (0, 0, 2, 2 ^ 32 + 5), false⟩) []) (fun t => t.rd F.TWN_EPOCH_EPOCH == 7 &&
        t.rd F.TWN_MARK_LO_MARK == 5 && t.rd F.TWN_MARK_HI_MARK == 1 && t.twin.committing.isNone && t.reg K.TWN_CNT_EP_COMMIT == 1) = true ∧
      goes .mirrorCommitDone (standing (com ⟨7, [(0, ⟨3, leBytes 8 2 ++ leBytes 16 77⟩)], 0, none, false⟩) [])
        (fun t => (t.dc 2).outImg == 77 && t.rd F.TWN_EPOCH_EPOCH == 7) = true ∧
      (let s := (standing (com ⟨7, [(0, ⟨4, leBytes 8 (2 ^ 16) ++ leBytes 8 5 ++ leBytes 8 0x80⟩)], 0, none, false⟩) []).wr (F.FLD_F_QUOTA_QUOTA 0) 0
       goes .mirrorCommitDone s (fun t => t == s) = true)) ∧
     (let r : MirrorRec := ⟨3, [1, 2]⟩
      goes .mirrorQueueSpace (holding id []) (fun t => t == holding id []) = true ∧
      (let s := (holding (fun u => { u with mq := [(6, 0, r)] }) []).wr F.TWN_MQ_DEPTH 1
       goes .mirrorQueueSpace s (fun t => t == s) = true ∧
       (let s := s.wr (F.LNK_LINK_STAT_STATE 2) 2
        let s := s.setLink 2 { s.link 2 with limits := [64, 128, 224, 224] }
        goes .mirrorQueueSpace s (fun t => t.twin.mq == [] && t.rd F.TWN_MQ_DEPTH == 0 && t.out.length == 1) = true)) ∧
      goes .mirrorQueueSpace (holding (fun u => { u with mwait := [r] }) []) (fun t => t.twin.mq == [(6, 0, r)] && t.twin.mwait == [] &&
        t.rd F.TWN_MQ_DEPTH == 1 && t.rd F.TWN_MQ_PEAK == 1) = true)) := by
  decide +kernel

end Sys2Proof.Tests
end

section
/-! SUPPORT. VME_TIMEOUT and VME_BUS_TIMER under a set-up write (R83). Nothing that a write brings about writes either of the two: they
change only as the register written, and there R9 judges the one against the other. -/

namespace Sys2Proof.Machine

/-! ### The two registers -/

/-- VME_TIMEOUT and VME_BUS_TIMER as an effective bank holds them. -/
def timers (eff : Table Word) : Word × Word := (tget resetWord eff K.VME_TIMEOUT, tget resetWord eff K.VME_BUS_TIMER)

/-- The key is that of another register. -/
def offTimers (k : Nat) : Bool := k != K.VME_TIMEOUT && k != K.VME_BUS_TIMER

theorem eq_of_not_offTimers {k : Nat} (h : offTimers k = false) : k = K.VME_TIMEOUT ∨ k = K.VME_BUS_TIMER := by
  simpa only [offTimers, Bool.and_eq_false_iff, bne_eq_false_iff_eq] using h

theorem offTimers_of_ge (k : Nat) (h : 0x5809 ≤ k) : offTimers k = true := by
  simp only [offTimers, K.VME_TIMEOUT, K.VME_BUS_TIMER, Bool.and_eq_true, bne_iff_ne]
  omega

theorem offTimers_above (base n : Nat) (h : 0x5809 ≤ base) : offTimers (base + n) = true :=
  offTimers_of_ge _ (Nat.le_add_right_of_le h)

/-- The two lie 4 and 8 above a multiple of 64. -/
theorem offTimers_of_mod (k : Nat) (h : k % 64 ≠ 4 ∧ k % 64 ≠ 8) : offTimers k = true := by
  simp only [offTimers, K.VME_TIMEOUT, K.VME_BUS_TIMER, Bool.and_eq_true, bne_iff_ne]
  omega

/-- A window register is neither. -/
theorem offTimers_winKey (off e : Nat) : offTimers (winKey off e) = true :=
  offTimers_of_ge _ (by unfold winKey; omega)

/-! ### The registers that operations write -/

@[simp] theorem offTimers_chip :
    offTimers F.CHIP_BOOT_STAT_STAGE.key ∧ offTimers F.CHIP_CLM_STAT_INUSE.key ∧ offTimers F.CHIP_CLM_STAT_PEAK.key ∧
    offTimers F.CHIP_HALTED_HALTED.key ∧ offTimers F.CHIP_HALT_HALT.key ∧ offTimers F.CHIP_LC_CTL_EN.key ∧
    offTimers F.CHIP_PF_STAT_STATE.key ∧ offTimers F.CHIP_WC_CTL_EN.key ∧ offTimers F.CHIP_WC_STAT_DEPTH.key ∧
    offTimers F.CHIP_WC_STAT_PEAK.key ∧ offTimers F.DDR_INJ_DOUBLE.key ∧ offTimers K.CHIP_CNT_CLM_LOST ∧
    offTimers K.CHIP_CNT_CLM_OK ∧ offTimers K.CHIP_CNT_LC_HIT ∧ offTimers K.CHIP_CNT_LC_INV_ALL ∧ offTimers K.CHIP_CNT_LC_MISS ∧
    offTimers K.CHIP_CNT_LC_TTL ∧ offTimers K.CHIP_CNT_WC_FLUSH ∧ offTimers K.CHIP_CNT_WC_LOST_BYTES := by
  and_intros <;> rfl

@[simp] theorem offTimers_links :
    offTimers F.NET_ID_STATE.key ∧ offTimers F.NET_STAT_BWID.key ∧ offTimers F.NET_STAT_REBUILD.key ∧
    offTimers F.NET_STAT_ROLE.key ∧ offTimers F.NET_STAT_WRAP_E.key ∧ offTimers F.NET_STAT_WRAP_W.key ∧
    offTimers F.NET_TAG_OPEN.key ∧ offTimers K.LNK_CTL ∧ offTimers K.NET_CNT_NO_NODE ∧ offTimers K.NET_CNT_TX ∧
    offTimers K.NET_CNT_WRAP ∧ offTimers K.NET_CNT_WRAP_LOST := by
  and_intros <;> rfl

@[simp] theorem offTimers_host : offTimers F.HST_STAT_INTERVAL.key := by decide

@[simp] theorem offTimers_drovers :
    offTimers F.DRV_EN_HI_EN.key ∧ offTimers F.DRV_EN_LO_EN.key ∧ offTimers F.DRV_STILE_STAT_INUSE.key ∧
    offTimers F.DRV_STILE_STAT_PEAK.key ∧ offTimers F.FLD_INJ_FOLD.key ∧ offTimers F.FLD_INJ_TAIL.key ∧
    offTimers F.FLD_POOL_PEAK_PEAK.key ∧ offTimers K.DRV_CNT_RERUN ∧ offTimers K.DRV_CNT_STILE_WAIT ∧
    offTimers K.DRV_CNT_UNSAFE ∧ offTimers K.FLD_CNT_FLUSH_WORDS ∧ offTimers K.FLD_CNT_LOST_WORDS ∧ offTimers K.FLD_CNT_RESET := by
  and_intros <;> rfl

@[simp] theorem offTimers_vme :
    offTimers F.VME_INTR_DEPTH.key ∧ offTimers F.VME_IPWQ_DEPTH.key ∧ offTimers F.VME_IPWQ_PEAK.key ∧
    offTimers F.VME_PWQ_DEPTH.key ∧ offTimers F.VME_PWQ_PEAK.key ∧ offTimers K.VME_CNT_DEGRADE := by
  and_intros <;> rfl

@[simp] theorem offTimers_cadence :
    offTimers F.CAD_FLAGS_HOLD_FULL.key ∧ offTimers F.CAD_STAT_HELD.key ∧ offTimers K.CAD_CNT_HOLD_WAIT ∧
    offTimers K.CAD_CNT_REL_LATE ∧ offTimers K.CAD_CNT_REL_OK := by
  and_intros <;> rfl

@[simp] theorem offTimers_twin :
    offTimers F.TWN_CTL_EN.key ∧ offTimers F.TWN_MQ_DEPTH.key ∧ offTimers F.TWN_MQ_PEAK.key ∧ offTimers F.TWN_STAT_ALONE.key ∧
    offTimers F.TWN_STAT_CROOK.key ∧ offTimers F.TWN_STAT_SAFE.key ∧ offTimers F.TWN_STAT_STATE.key ∧
    offTimers F.TWN_STAT_SYNC.key ∧ offTimers K.TWN_CNT_EP_DISCARD ∧ offTimers K.TWN_CNT_MQ_WAIT ∧ offTimers K.TWN_CNT_PEER_DOWN := by
  and_intros <;> rfl

@[simp] theorem offTimers_faults :
    offTimers F.FLT_INJ_AREA.key ∧ offTimers F.FLT_INJ_DOUBLE.key ∧ offTimers F.FLT_INJ_INDEX.key ∧
    offTimers F.FLT_INJ_PENDING.key ∧ offTimers F.REC_INJ_KIND.key ∧ offTimers F.REC_STAT_CLEARING.key ∧
    offTimers F.REC_STAT_CTL_FAIL.key ∧ offTimers F.REC_STAT_C_FAIL.key ∧ offTimers F.REC_STAT_P_FAIL.key ∧
    offTimers F.REC_STAT_QDEPTH.key ∧ offTimers K.FLT_CNT_CLR_REFUSED ∧ offTimers K.REC_CNT_DROP := by
  and_intros <;> rfl

@[simp] theorem offTimers_power :
    offTimers F.PWR_CTL_EN.key ∧ offTimers F.PWR_FLAGS_PFW_SEEN.key ∧ offTimers F.PWR_STAT_WARN.key ∧
    offTimers F.SVC_STAT_LOCKED.key ∧ offTimers F.TST_ADC_BUSY.key ∧ offTimers K.PWR_CNT_PFW := by
  and_intros <;> rfl

/-! Those that stand once for each port, link, slot or fold. -/

@[simp] theorem offTimers_linkStat (n : Nat) :
    offTimers (F.LNK_LINK_STAT_OUT n).key ∧ offTimers (F.LNK_LINK_STAT_RXL n).key ∧ offTimers (F.LNK_LINK_STAT_STATE n).key ∧
    offTimers (F.LNK_LINK_STAT_TXL n).key :=
  have h := offTimers_of_mod (K.LNK_LINK_STAT n) (by unfold K.LNK_LINK_STAT; omega)
  ⟨h, h, h, h⟩

@[simp] theorem offTimers_linkDown (n : Nat) : offTimers (K.LNK_LINK_CNT_DOWN n) :=
  offTimers_of_mod _ (by unfold K.LNK_LINK_CNT_DOWN; omega)

@[simp] theorem offTimers_laneStat (n : Nat) :
    offTimers (F.LNK_LANE_STAT_BLOCK n).key ∧ offTimers (F.LNK_LANE_STAT_CWLOCK n).key ∧ offTimers (F.LNK_LANE_STAT_INBOND n).key :=
  have h := offTimers_of_mod (K.LNK_LANE_STAT n) (by unfold K.LNK_LANE_STAT; omega)
  ⟨h, h, h⟩

@[simp] theorem offTimers_foldStat (n : Nat) :
    offTimers (F.FLD_F_STAT_HIGH_N n).key ∧ offTimers (F.FLD_F_STAT_LOW_N n).key ∧ offTimers (F.FLD_F_STAT_RESETS n).key :=
  have h := offTimers_winKey 0x3840 n
  ⟨h, h, h⟩

@[simp] theorem offTimers_foldPeak (n : Nat) : offTimers (F.FLD_F_PEAK_PEAK n).key :=
  offTimers_winKey _ n

@[simp] theorem offTimers_foldFloor (n : Nat) : offTimers (F.FLD_F_FLOOR_FLOOR n).key :=
  offTimers_winKey _ n

@[simp] theorem offTimers_serialCtl (n : Nat) : offTimers (F.SP_CTL_EN n).key :=
  offTimers_above 0x6000 _ (by decide)

@[simp] theorem offTimers_serialStat (n : Nat) :
    offTimers (F.SP_STAT_BAD n).key ∧ offTimers (F.SP_STAT_NOREPLY n).key ∧ offTimers (F.SP_STAT_POLLERR n).key ∧
    offTimers (F.SP_STAT_TURN n).key :=
  have h := offTimers_above 0x601C (0x20 * n) (by decide)
  ⟨h, h, h, h⟩

@[simp] theorem offTimers_canCtl (n : Nat) : offTimers (F.CF_CTL_EN n).key :=
  offTimers_above 0x6800 _ (by decide)

@[simp] theorem offTimers_canStat (n : Nat) :
    offTimers (F.CF_STAT_ABANDON n).key ∧ offTimers (F.CF_STAT_LOST n).key :=
  have h := offTimers_above 0x6814 (0x40 * n) (by decide)
  ⟨h, h⟩

@[simp] theorem offTimers_chainCtl (n : Nat) : offTimers (F.DC_CTL_EN n).key :=
  offTimers_above 0x6C00 _ (by decide)

@[simp] theorem offTimers_schedule (n : Nat) :
    offTimers (F.CAD_SCH_STAT_ARMED n).key ∧ offTimers (F.CAD_SCH_STAT_COPIED n).key :=
  have h := offTimers_winKey 0x7060 n
  ⟨h, h⟩

@[simp] theorem offTimers_capStat (n : Nat) :
    offTimers (F.FLT_CAP_STAT_VALID n).key ∧ offTimers (F.FLT_CAP_STAT_CODE n).key ∧ offTimers (F.FLT_CAP_STAT_OVF n).key :=
  have h := offTimers_above 0x8400 (0x20 * n) (by decide)
  ⟨h, h, h⟩

@[simp] theorem offTimers_capAddrLo (n : Nat) : offTimers (K.FLT_CAP_ADDR_LO n) :=
  offTimers_above 0x8404 _ (by decide)

@[simp] theorem offTimers_capAddrHi (n : Nat) : offTimers (K.FLT_CAP_ADDR_HI n) :=
  offTimers_above 0x8408 _ (by decide)

@[simp] theorem offTimers_capMaster (n : Nat) :
    offTimers (F.FLT_CAP_MASTER_NODE n).key ∧ offTimers (F.FLT_CAP_MASTER_AGENT n).key :=
  have h := offTimers_above 0x840C (0x20 * n) (by decide)
  ⟨h, h⟩

@[simp] theorem offTimers_capAccess (n : Nat) :
    offTimers (F.FLT_CAP_ACCESS_OP n).key ∧ offTimers (F.FLT_CAP_ACCESS_LENM1 n).key ∧ offTimers (F.FLT_CAP_ACCESS_CLASS n).key ∧
    offTimers (F.FLT_CAP_ACCESS_AM n).key :=
  have h := offTimers_above 0x8410 (0x20 * n) (by decide)
  ⟨h, h, h, h⟩

@[simp] theorem offTimers_capCyc (n : Nat) : offTimers (K.FLT_CAP_CYC n) :=
  offTimers_above 0x8414 _ (by decide)

@[simp] theorem offTimers_capFrm (n : Nat) :
    offTimers (F.FLT_CAP_FRM_FRAMELO n).key ∧ offTimers (F.FLT_CAP_FRM_CYC_HI n).key :=
  have h := offTimers_above 0x8418 (0x20 * n) (by decide)
  ⟨h, h⟩

@[simp] theorem offTimers_capPhase (n : Nat) : offTimers (K.FLT_CAP_PHASE n) :=
  offTimers_above 0x841C _ (by decide)

@[simp] theorem offTimers_slotCtl (n : Nat) :
    offTimers (F.PWR_SLOT_CTL_EN n).key ∧ offTimers (F.PWR_SLOT_CTL_SHED n).key :=
  have h := offTimers_above 0x9900 (0x20 * n) (by decide)
  ⟨h, h⟩

@[simp] theorem offTimers_slotStat (n : Nat) :
    offTimers (F.PWR_SLOT_STAT_EN_OUT n).key ∧ offTimers (F.PWR_SLOT_STAT_FTIMER n).key ∧ offTimers (F.PWR_SLOT_STAT_PG n).key ∧
    offTimers (F.PWR_SLOT_STAT_STATE n).key :=
  have h := offTimers_above 0x9910 (0x20 * n) (by decide)
  ⟨h, h, h, h⟩

@[simp] theorem offTimers_feedLow (n : Nat) : offTimers (F.feedLow n).key = true := by
  unfold F.feedLow
  split <;> rfl

/-! ### Register writes -/

@[simp] theorem timers_tput (eff : Table Word) (k : Nat) (v : Word) (h : offTimers k = true) :
    timers (tput resetWord eff k v) = timers eff := by
  simp only [offTimers, Bool.and_eq_true, bne_iff_ne] at h
  simp [timers, h.1.symm, h.2.symm]

@[simp] theorem State.setReg_timers (s : State) (k : Nat) (v : Word) (h : offTimers k = true) :
    timers (s.setReg k v).regs.eff = timers s.regs.eff := timers_tput _ _ _ h

@[simp] theorem State.wr_timers (s : State) (f : Fld) (v : Nat) (h : offTimers f.key = true) :
    timers (s.wr f v).regs.eff = timers s.regs.eff := timers_tput _ _ _ h

@[simp] theorem State.wrB_timers (s : State) (f : Fld) (b : Bool) (h : offTimers f.key = true) :
    timers (s.wrB f b).regs.eff = timers s.regs.eff := timers_tput _ _ _ h

@[simp] theorem State.bumpN_timers (s : State) (k n : Nat) (h : offTimers k = true) :
    timers (s.bumpN k n).regs.eff = timers s.regs.eff := by
  simp only [State.bumpN]
  split <;> simp [h]

@[simp] theorem State.bump_timers (s : State) (k : Nat) (h : offTimers k = true) :
    timers (s.bump k).regs.eff = timers s.regs.eff := s.bumpN_timers k 1 h

@[simp] theorem State.bumpF_timers (s : State) (f : Fld) (n : Nat) (h : offTimers f.key = true) :
    timers (s.bumpF f n).regs.eff = timers s.regs.eff := timers_tput _ _ _ h

@[simp] theorem State.peak_timers (s : State) (f : Fld) (v : Nat) (h : offTimers f.key = true) :
    timers (s.peak f v).regs.eff = timers s.regs.eff := by
  unfold State.peak
  split <;> simp [h]

/-- A fold of steps none of which writes the two registers. -/
@[simp] theorem foldl_timers {α : Type} (f : State → α → State) (hf : ∀ s a, timers (f s a).regs.eff = timers s.regs.eff)
    (l : List α) (s : State) : timers (l.foldl f s).regs.eff = timers s.regs.eff := by
  induction l generalizing s with
  | nil => rfl
  | cons a l ih => rw [List.foldl_cons, ih, hf]

theorem foldl_timers_snd {α β : Type} (f : β × State → α → β × State)
    (hf : ∀ p a, timers (f p a).2.regs.eff = timers p.2.regs.eff) (l : List α) (p : β × State) :
    timers (l.foldl f p).2.regs.eff = timers p.2.regs.eff := by
  induction l generalizing p with
  | nil => rfl
  | cons a l ih => rw [List.foldl_cons, ih, hf]

@[simp] theorem timers_ite (c : Prop) [Decidable c] (a b : State) :
    timers (if c then a else b).regs.eff = if c then timers a.regs.eff else timers b.regs.eff := by split <;> rfl

/-! ### Operations that write no register -/

@[simp] theorem State.sramFault_regs (s : State) (area index : Nat) (dbl : Bool) : (s.sramFault area index dbl).regs = s.regs :=
  (State.sramFault_keep (.refl _) (.refl _ s)).regs rfl

@[simp] theorem State.sendSeq_regs (s : State) (k seq : Nat) (p : Packet) : (s.sendSeq k seq p).regs = s.regs :=
  (State.sendSeq_keep (.refl _) (.refl _ s)).regs rfl

@[simp] theorem State.freeUnits_regs (s : State) (k pool units : Nat) : (s.freeUnits k pool units).regs = s.regs :=
  (State.freeUnits_keep (.refl _) (.refl _ s)).regs rfl

@[simp] theorem State.noteTag_regs (s : State) (o : TagOwner) (t : Nat) : (s.noteTag o t).regs = s.regs :=
  (State.noteTag_keep (.refl _) (.refl _ s)).regs rfl

@[simp] theorem State.dropExec_regs (s : State) (d : Nat) : (s.dropExec d).regs = s.regs :=
  (State.dropExec_keep (.refl _) (.refl _ s)).regs rfl

@[simp] theorem State.endTask_regs (s : State) (d status bytesDone : Nat) (payload : List Byte) :
    (s.endTask d status bytesDone payload).regs = s.regs :=
  (State.endTask_keep (.refl _) (.refl _ s)).regs rfl

@[simp] theorem State.awaitStore_regs (s : State) (who : Nat) : (s.awaitStore who).regs = s.regs :=
  (State.awaitStore_keep (.refl _) (.refl _ s)).regs rfl

@[simp] theorem State.confirmAll_regs (s : State) (ok : Bool) (whos : List Nat) : (s.confirmAll ok whos).regs = s.regs :=
  (State.confirmAll_keep (.refl _) (.refl _ s)).regs rfl

@[simp] theorem State.storeFailed_regs (s : State) (node agent : Nat) : (s.storeFailed node agent).regs = s.regs :=
  (State.storeFailed_keep (.refl _) (.refl _ s)).regs rfl

@[simp] theorem State.placeCheck_regs (s : State) : s.placeCheck.regs = s.regs :=
  (State.placeCheck_keep (.refl _) (.refl _ s)).regs rfl

@[simp] theorem State.deFull_regs (s : State) (n : Nat) : (s.deFull n).regs = s.regs :=
  (State.deFull_keep (.refl _) (.refl _ s)).regs rfl

@[simp] theorem State.desFull_regs (s : State) : s.desFull.regs = s.regs :=
  (State.desFull_keep (.refl _) (.refl _ s)).regs rfl

@[simp] theorem State.failSends_regs (s : State) (h : Nat) : (s.failSends h).regs = s.regs :=
  (State.failSends_keep (.refl _) (.refl _ s)).regs rfl

@[simp] theorem State.dcFail_regs (s : State) (n : Nat) : (s.dcFail n).regs = s.regs :=
  (State.dcFail_keep (.refl _) (.refl _ s)).regs rfl

@[simp] theorem State.exception_regs (s : State) (k : Nat) : (s.exception k).regs = s.regs :=
  (State.exception_keep (.refl _) (.refl _ s)).regs rfl

@[simp] theorem State.lcDrop_regs (s : State) (space lo len : Nat) : (s.lcDrop space lo len).2.regs = s.regs :=
  (State.lcDrop_keep (.refl _) (.refl _ s)).regs rfl

@[simp] theorem State.setOwnerJob_regs (s : State) (o : VOwner) (j : VJob) : (s.setOwnerJob o j).regs = s.regs :=
  (State.setOwnerJob_keep (.refl _) (.refl _ s)).regs rfl

@[simp] theorem State.joinWait_regs (s : State) (o : VOwner) : (s.joinWait o).regs = s.regs :=
  (State.joinWait_keep (.refl _) (.refl _ s)).regs rfl

@[simp] theorem State.askBus_regs (s : State) : s.askBus.regs = s.regs :=
  (State.askBus_keep (.refl _) (.refl _ s)).regs rfl

@[simp] theorem State.addressPhase_regs (s : State) (j : VJob) (x : Xfer) : (s.addressPhase j x).regs = s.regs :=
  (State.addressPhase_keep (.refl _) (.refl _ s)).regs rfl

@[simp] theorem State.dropBus_regs (s : State) : s.dropBus.regs = s.regs :=
  (State.dropBus_keep (.refl _) (.refl _ s)).regs rfl

@[simp] theorem State.unwait_regs (s : State) (o : VOwner) : (s.unwait o).regs = s.regs :=
  (State.unwait_keep (.refl _) (.refl _ s)).regs rfl

@[simp] theorem State.storeUnsent_regs (s : State) (k : Nat) : (s.storeUnsent k).regs = s.regs :=
  (State.storeUnsent_keep (.refl _) (.refl _ s)).regs rfl

@[simp] theorem State.noteNode_regs (s : State) (node k : Nat) : (s.noteNode node k).regs = s.regs :=
  (State.noteNode_keep (.refl _) (.refl _ s)).regs rfl

@[simp] theorem State.setExec_regs (s : State) (d : Nat) (x : Exec) : (s.setExec d x).regs = s.regs :=
  (State.setExec_keep (.refl _) (.refl _ s)).regs rfl

@[simp] theorem State.finishTask_regs (s : State) (d status bytesDone : Nat) (payload : List Byte) :
    (s.finishTask d status bytesDone payload).regs = s.regs :=
  (State.finishTask_keep (.refl _) (.refl _ s)).regs rfl

@[simp] theorem State.unlist_regs (s : State) (d : Nat) : (s.unlist d).regs = s.regs :=
  (State.unlist_keep (.refl _) (.refl _ s)).regs rfl

@[simp] theorem State.orphan_regs (s : State) (d : Nat) : (s.orphan d).regs = s.regs :=
  (State.orphan_keep (.refl _) (.refl _ s)).regs rfl

@[simp] theorem State.detachResult_regs (s : State) (t : Task) (r : TaskResult) : (s.detachResult t r).regs = s.regs :=
  (State.detachResult_keep (.refl _) (.refl _ s)).regs rfl

@[simp] theorem State.sysrstPulse_regs (s : State) : s.sysrstPulse.regs = s.regs :=
  (State.sysrstPulse_keep (.refl _) (.refl _ s)).regs rfl

@[simp] theorem State.letGo_regs (s : State) (c : InCycle) : (s.letGo c).regs = s.regs :=
  (State.letGo_keep (.refl _) (.refl _ s)).regs rfl

@[simp] theorem State.queueRead_regs (s : State) : s.queueRead.regs = s.regs :=
  (State.queueRead_keep (.refl _) (.refl _ s)).regs rfl

@[simp] theorem State.recStart_regs (s : State) (e : RecEntry) (slot : Nat) : (s.recStart e slot).regs = s.regs :=
  (State.recStart_keep (.refl _) (.refl _ s)).regs rfl

@[simp] theorem State.clearCounted_regs (s : State) (n : Nat) : (s.clearCounted n).regs = s.regs :=
  (State.clearCounted_keep (.refl _) (.refl _ s)).regs rfl

@[simp] theorem State.pmbLimits_regs (s : State) (mode : Bool) : (s.pmbLimits mode).regs = s.regs :=
  (State.pmbLimits_keep (.refl _) (.refl _ s)).regs rfl

@[simp] theorem canRecover_regs (n : Nat) (s : State) : (canRecover n s).regs = s.regs :=
  (canRecover_keep (.refl _) (.refl _ s)).regs rfl

@[simp] theorem State.serialsCut_regs (s : State) : s.serialsCut.regs = s.regs :=
  (State.serialsCut_keep (.refl _) (.refl _ s)).regs rfl

@[simp] theorem State.cansCut_regs (s : State) : s.cansCut.regs = s.regs :=
  (State.cansCut_keep (.refl _) (.refl _ s)).regs rfl

@[simp] theorem State.chainsOff_regs (s : State) : s.chainsOff.regs = s.regs :=
  (State.chainsOff_keep (.refl _) (.refl _ s)).regs rfl

@[simp] theorem State.turnLost_regs (s : State) (d : Nat) : (s.turnLost d).regs = s.regs :=
  (State.turnLost_keep (.refl _) (.refl _ s)).regs rfl

@[simp] theorem State.setupReport_regs (s : State) (off : Nat) (v : Word) (node agent : Nat) (late range : Bool) (group : Nat) :
    (s.setupReport off v node agent late range group).regs = s.regs :=
  (State.setupReport_keep (.refl _) (.refl _ s)).regs rfl

/-! ### Operations that write registers

Each leaves the two alone. The equation of an operation follows from those of the operations it calls and of the fields it writes, which
`simp` cites; one that calls itself takes an induction on its fuel. With `-implicitDefEqProofs` every step is a rewrite, where
the kernel would otherwise unfold two states to compare them. -/

/-! #### Registers and faults -/

@[simp] theorem State.stageStep_timers (s : State) :
    timers s.stageStep.regs.eff = timers s.regs.eff := by simp [State.stageStep]

@[simp] theorem State.capture_timers (s : State) (code : Nat) (c : CapInfo) :
    timers (s.capture code c).regs.eff = timers s.regs.eff := by simp [State.capture]

@[simp] theorem State.raiseCap_timers (s : State) (code src : Nat) (ps : List Nat) (c : CapInfo) :
    timers (s.raiseCap code src ps c).regs.eff = timers s.regs.eff := by simp [State.raiseCap]

@[simp] theorem State.injTake_timers (s : State) (areas : List Nat) (named : Nat → Bool) :
    timers (s.injTake areas named).2.regs.eff = timers s.regs.eff := by
  simp only [State.injTake]
  (repeat' split) <;> simp

/-! #### Links -/

@[simp] theorem State.sendData_timers (s : State) (k : Nat) (p : Packet) :
    timers (s.sendData k p).regs.eff = timers s.regs.eff := by simp [State.sendData]

@[simp] theorem State.pump_timers (n k : Nat) (s : State) :
    timers (State.pump n k s).regs.eff = timers s.regs.eff := by
  induction n generalizing s with
  | zero => rfl
  | succ n ih =>
    simp only [State.pump]
    split
    · split
      · rfl
      · rw [ih]
        split <;> simp
    · rfl

@[simp] theorem State.pumpLink_timers (s : State) (k : Nat) :
    timers (s.pumpLink k).regs.eff = timers s.regs.eff := by simp [State.pumpLink]

@[simp] theorem State.enqueueFrom_timers (s : State) (k : Nat) (p : Packet) (pass : Bool) (from_ : Option Nat) :
    timers (s.enqueueFrom k p pass from_).regs.eff = timers s.regs.eff := by simp [State.enqueueFrom]

@[simp] theorem State.enqueue_timers (s : State) (k : Nat) (p : Packet) (pass : Bool) :
    timers (s.enqueue k p pass).regs.eff = timers s.regs.eff := by simp [State.enqueue]

/-! #### The ring network -/

@[simp] theorem State.sendRingFrom_timers (s : State) (ring : Nat) (p : Packet) (pass : Bool) (from_ : Option Nat) :
    timers (s.sendRingFrom ring p pass from_).regs.eff = timers s.regs.eff := by simp [State.sendRingFrom]

@[simp] theorem State.sendRing_timers (s : State) (ring : Nat) (p : Packet) (pass : Bool) :
    timers (s.sendRing ring p pass).regs.eff = timers s.regs.eff := by simp [State.sendRing]

@[simp] theorem State.injectAs_timers (s : State) (p : Packet) (both : Bool) :
    timers (s.injectAs p both).regs.eff = timers s.regs.eff := by simp [State.injectAs]

@[simp] theorem State.inject_timers (s : State) (p : Packet) :
    timers (s.inject p).regs.eff = timers s.regs.eff := by simp [State.inject]

@[simp] theorem State.injectAnswer_timers (s : State) (src tag : Nat) (p : Packet) :
    timers (s.injectAnswer src tag p).regs.eff = timers s.regs.eff := by simp [State.injectAnswer]

@[simp] theorem State.injectOn_timers (s : State) (ring : Nat) (p : Packet) :
    timers (s.injectOn ring p).regs.eff = timers s.regs.eff := by simp [State.injectOn]

theorem State.sendTagged_timers (s : State) (p : Packet) (r : TagRec) (q : Nat × State) (e : s.sendTagged p r = some q) :
    timers q.2.regs.eff = timers s.regs.eff := by
  unfold State.sendTagged at e
  split at e
  · cases e
  · simp only [Option.some.injEq] at e
    rw [← e]
    split
    · rw [State.takenPush_regs, State.injectOn_timers, State.wr_timers _ _ _ (by simp)]
      simp
    · split
      · rw [State.takenPush_regs, State.wr_timers _ _ _ (by simp)]
        simp
      · rw [State.inject_timers, State.wr_timers _ _ _ (by simp)]
        simp

@[simp] theorem State.issueRec_timers (s : State) (p : Packet) (r : TagRec) :
    timers (s.issueRec p r).st.regs.eff = timers s.regs.eff := by
  simp only [State.issueRec]
  split
  · rfl
  · split
    · simp
    · split
      · rfl
      · split
        · next h => exact State.sendTagged_timers _ _ _ _ h
        · rfl

@[simp] theorem State.pumpTags_timers (n : Nat) (s : State) :
    timers (State.pumpTags n s).regs.eff = timers s.regs.eff := by
  induction n generalizing s with
  | zero => rfl
  | succ n ih =>
    simp only [State.pumpTags]
    split
    · rfl
    · split
      · rfl
      · split
        · next h => rw [ih, State.sendTagged_timers _ _ _ _ h]
        · rfl

@[simp] theorem State.sendMgmt_timers (s : State) (mtype id hops side : Nat) (mcap : Bool) (payload : List Byte) :
    timers (s.sendMgmt mtype id hops side mcap payload).regs.eff = timers s.regs.eff := by simp [State.sendMgmt]

@[simp] theorem State.sendJoin_timers (s : State) :
    timers s.sendJoin.regs.eff = timers s.regs.eff := by simp [State.sendJoin]

@[simp] theorem State.startRebuild_timers (s : State) :
    timers s.startRebuild.regs.eff = timers s.regs.eff := by
  simp -implicitDefEqProofs [State.startRebuild]

@[simp] theorem State.heldLost_timers (s : State) (side : Nat) :
    timers (s.heldLost side).regs.eff = timers s.regs.eff := by simp [State.heldLost]

@[simp] theorem State.wrapSide_timers (s : State) (side : Nat) (held : List (Nat × Packet)) (nextSeq : Nat) :
    timers (s.wrapSide side held nextSeq).regs.eff = timers s.regs.eff := by simp [State.wrapSide]

/-! #### The mirror -/

@[simp] theorem State.sendMirror_timers (s : State) (p : Packet) :
    timers (s.sendMirror p).regs.eff = timers s.regs.eff := by simp [State.sendMirror]

@[simp] theorem State.drainMirror_timers (n : Nat) (s : State) :
    timers (State.drainMirror n s).regs.eff = timers s.regs.eff := by
  induction n generalizing s with
  | zero => rfl
  | succ n ih =>
    simp only [State.drainMirror]
    split
    · rfl
    · split
      all_goals
        split
        · simp [ih]
        · rfl

@[simp] theorem State.queueRec_timers (s : State) (r : MirrorRec) :
    timers (s.queueRec r).regs.eff = timers s.regs.eff := by simp [State.queueRec]

@[simp] theorem State.mirror_timers (s : State) (rtype : Nat) (payload : List Byte) :
    timers (s.mirror rtype payload).regs.eff = timers s.regs.eff := by simp [State.mirror]

@[simp] theorem State.mirrorReg_timers (s : State) (cat off : Nat) (v : Word) :
    timers (s.mirrorReg cat off v).regs.eff = timers s.regs.eff := by simp [State.mirrorReg]

/-! #### Folds, tasks and stiles -/

@[simp] theorem State.takeCells_timers (s : State) (f n : Nat) :
    timers (s.takeCells f n).regs.eff = timers s.regs.eff := by
  simp only [State.takeCells]
  split <;> simp

@[simp] theorem State.level_timers (s : State) (f old new : Nat) (popped : Bool) :
    timers (s.level f old new popped).1.regs.eff = timers s.regs.eff := by simp [State.level]

@[simp] theorem State.emptyFold_timers (s : State) (f : Nat) (flush : Bool) :
    timers (s.emptyFold f flush).1.regs.eff = timers s.regs.eff := by simp [State.emptyFold]

@[simp] theorem State.pointerCheck_timers (s : State) (f : Nat) :
    timers (s.pointerCheck f).2.1.regs.eff = timers s.regs.eff := by
  unfold State.pointerCheck
  split <;> simp

@[simp] theorem State.putTask_timers (s : State) (d : Nat) (t : Task) :
    timers (s.putTask d t).1.regs.eff = timers s.regs.eff := by simp [State.putTask]

@[simp] theorem State.landTask_timers (s : State) (d : Nat) (t : Task) (why : Nat) :
    timers (s.landTask d t why).1.regs.eff = timers s.regs.eff := by
  unfold State.landTask
  split <;> simp

theorem State.place_timers (s : State) (t : Task) (p : State × List FieldEvent) (e : s.place t = some p) :
    timers p.1.regs.eff = timers s.regs.eff := by
  unfold State.place at e
  dsimp only at e
  split at e
  · split at e
    · cases e
      simp
    · cases e
  · split at e
    · cases e
    · cases e
      simp

theorem State.enterStile_timers (s : State) (t : Task) (wish : StileWish) (p : State × Task) (e : s.enterStile t wish = some p) :
    timers p.1.regs.eff = timers s.regs.eff := by
  unfold State.enterStile at e
  dsimp only at e
  split at e
  · cases e
  · split at e
    · cases e
    · cases e
      simp

theorem State.entered_timers (s : State) (t : Task) (c : Bool) (wish : StileWish) (p : State × Task)
    (e : (if c then s.enterStile t wish else some (s, t)) = some p) : timers p.1.regs.eff = timers s.regs.eff := by
  split at e
  · exact s.enterStile_timers t wish p e
  · cases e
    rfl

@[simp] theorem State.waitTask_timers (s : State) (t : Task) (stile : Bool) :
    timers (s.waitTask t stile).regs.eff = timers s.regs.eff := by simp [State.waitTask]

@[simp] theorem State.createStep_timers (s : State) (t : Task) :
    timers (s.createStep t).1.regs.eff = timers s.regs.eff := by
  simp only [State.createStep]
  split
  · simp
  · split
    · simp
    · next he =>
      rw [← State.entered_timers _ _ _ _ _ he]
      split
      · next hp => exact State.place_timers _ _ _ hp
      · simp

@[simp] theorem State.placeAgain_timers (s : State) (t : Task) :
    timers (s.placeAgain t).1.regs.eff = timers s.regs.eff := by
  unfold State.placeAgain
  split
  · next hp => exact State.place_timers _ _ _ hp
  · simp

@[simp] theorem State.eventStep_timers (s : State) (e : FieldEvent) :
    timers (s.eventStep e).1.regs.eff = timers s.regs.eff := by
  simp only [State.eventStep]
  split <;> simp

@[simp] theorem State.fire_timers (n : Nat) (es : List FieldEvent) (s : State) :
    timers (State.fire n es s).regs.eff = timers s.regs.eff := by
  induction n generalizing es s with
  | zero => rfl
  | succ n ih => cases es <;> simp [State.fire, ih]

@[simp] theorem State.events_timers (r : State × List FieldEvent) :
    timers (State.events r).regs.eff = timers r.1.regs.eff := by simp [State.events]

@[simp] theorem State.create_timers (s : State) (t : Task) :
    timers (s.create t).regs.eff = timers s.regs.eff := by simp [State.create]

/-! #### DDR4 -/

@[simp] theorem State.ddrInj_timers (s : State) (v : Word) :
    timers (s.ddrInj v).regs.eff = timers s.regs.eff := by simp [State.ddrInj]

/-! #### Field ports -/

@[simp] theorem State.pollFail_timers (s : State) (n d : Nat) :
    timers (s.pollFail n d).regs.eff = timers s.regs.eff := by simp [State.pollFail]

/-! #### Set-up writes of the folds -/

@[simp] theorem State.flushFold_timers (s : State) (f : Nat) :
    timers (s.flushFold f).regs.eff = timers s.regs.eff := by simp [State.flushFold]

@[simp] theorem State.floorRst_timers (s : State) (f : Nat) :
    timers (s.floorRst f).regs.eff = timers s.regs.eff := by simp [State.floorRst]

@[simp] theorem State.fldInj_timers (s : State) (v : Word) :
    timers (s.fldInj v).regs.eff = timers s.regs.eff := by simp [State.fldInj]

/-! #### Chains -/

@[simp] theorem State.dcStop_timers (s : State) (n : Nat) :
    timers (s.dcStop n).regs.eff = timers s.regs.eff := by simp [State.dcStop]

/-! #### Ordering -/

@[simp] theorem State.setClaims_timers (s : State) (cs : List Claim) :
    timers (s.setClaims cs).regs.eff = timers s.regs.eff := by simp [State.setClaims]

@[simp] theorem State.storeSeen_timers (s : State) (node agent space lo len : Nat) :
    timers (s.storeSeen node agent space lo len).regs.eff = timers s.regs.eff := by simp [State.storeSeen]

@[simp] theorem State.takeClaim_timers (s : State) (c : Claim) :
    timers (s.takeClaim c).regs.eff = timers s.regs.eff := by simp [State.takeClaim]

@[simp] theorem State.dropClaim_timers (s : State) (node agent : Nat) :
    timers (s.dropClaim node agent).regs.eff = timers s.regs.eff := by simp [State.dropClaim]

@[simp] theorem State.commitEnd_timers (s : State) (node agent : Nat) (ok : Bool) :
    timers (s.commitEnd node agent ok).regs.eff = timers s.regs.eff := by
  unfold State.commitEnd
  split <;> simp

@[simp] theorem State.lcLook_timers (s : State) (space line ttl : Nat) (counted : Bool) :
    timers (s.lcLook space line ttl counted).2.regs.eff = timers s.regs.eff := by
  simp only [State.lcLook]
  (repeat' split) <;> simp

@[simp] theorem State.lcInstall_timers (s : State) (space line : Nat) (bytes : List Byte) :
    timers (s.lcInstall space line bytes).regs.eff = timers s.regs.eff := by simp [State.lcInstall]

@[simp] theorem State.lcDropAll_timers (s : State) :
    timers s.lcDropAll.regs.eff = timers s.regs.eff := by simp [State.lcDropAll]

/-! #### The VME bus -/

@[simp] theorem State.firstCycle_timers (s : State) (j : VJob) :
    timers (s.firstCycle j).regs.eff = timers s.regs.eff := by simp [State.firstCycle]

@[simp] theorem State.liveCover_timers (s : State) (o : VOwner) (j : VJob) :
    timers (s.liveCover o j).regs.eff = timers s.regs.eff := by simp [State.liveCover]

@[simp] theorem State.beginCycle_timers (s : State) (o : VOwner) :
    timers (s.beginCycle o).regs.eff = timers s.regs.eff := by
  simp only [State.beginCycle]
  (repeat' split) <;> simp

@[simp] theorem State.tenureNext_timers (s : State) :
    timers s.tenureNext.regs.eff = timers s.regs.eff := by
  simp only [State.tenureNext]
  (repeat' split) <;> simp

@[simp] theorem State.requestTenure_timers (s : State) (o : VOwner) :
    timers (s.requestTenure o).regs.eff = timers s.regs.eff := by simp [State.requestTenure]

@[simp] theorem State.idleBus_timers (s : State) :
    timers s.idleBus.regs.eff = timers s.regs.eff := by simp [State.idleBus]

@[simp] theorem State.taskBoundary_timers (s : State) (o : VOwner) :
    timers (s.taskBoundary o).regs.eff = timers s.regs.eff := by simp [State.taskBoundary]

@[simp] theorem State.setPwq_timers (s : State) (q : List PwqEntry) :
    timers (s.setPwq q).regs.eff = timers s.regs.eff := by simp [State.setPwq]

@[simp] theorem State.startQueue_timers (s : State) :
    timers s.startQueue.regs.eff = timers s.regs.eff := by simp [State.startQueue]

@[simp] theorem State.enterQueue_timers (s : State) (j : VJob) :
    timers (s.enterQueue j).regs.eff = timers s.regs.eff := by simp [State.enterQueue]

/-! #### Requests and combined writes -/

@[simp] theorem State.setWc_timers (s : State) (w : List WcLine) :
    timers (s.setWc w).regs.eff = timers s.regs.eff := by simp [State.setWc]

@[simp] theorem State.flushEnded_timers (s : State) (addr len status bytesDone : Nat) :
    timers (s.flushEnded addr len status bytesDone).regs.eff = timers s.regs.eff := by
  simp only [State.flushEnded]
  split
  · rfl
  · rw [State.setWc_timers]
    split
    · rfl
    · rw [foldl_timers _ (fun s k => by simp)]
      simp

@[simp] theorem State.flushLine_timers (s : State) (l : WcLine) :
    timers (s.flushLine l).regs.eff = timers s.regs.eff := by
  simp only [State.flushLine]
  split
  · rfl
  · rw [foldl_timers _ (fun s r => ?_)]
    · simp
    · split <;> simp

@[simp] theorem State.flushWhere_timers (s : State) (want : WcLine → Bool) :
    timers (s.flushWhere want).regs.eff = timers s.regs.eff := by simp [State.flushWhere]

/-! #### Pieces of a request -/

@[simp] theorem State.vmeEnd_timers (s : State) (d status bytesDone : Nat) (payload : List Byte) :
    timers (s.vmeEnd d status bytesDone payload).regs.eff = timers s.regs.eff := by
  simp only [State.vmeEnd]
  (repeat' split) <;> simp

@[simp] theorem State.countDegraded_timers (s : State) (deg : Bool) :
    timers (s.countDegraded deg).regs.eff = timers s.regs.eff := by simp [State.countDegraded]

@[simp] theorem State.startJob_timers (s : State) (d : Nat) (j : VJob) :
    timers (s.startJob d j).regs.eff = timers s.regs.eff := by
  unfold State.startJob
  split <;> simp

@[simp] theorem State.passTenure_timers (s : State) (d : Nat) :
    timers (s.passTenure d).regs.eff = timers s.regs.eff := by simp [State.passTenure]

@[simp] theorem State.waitQueue_timers (s : State) (d : Nat) :
    timers (s.waitQueue d).regs.eff = timers s.regs.eff := by
  unfold State.waitQueue
  split <;> simp

@[simp] theorem State.gatherLines_timers (space ttl va len n : Nat) (counted : Bool) (part : List Byte) (s : State) :
    timers (State.gatherLines space ttl va len n counted part s).2.2.regs.eff = timers s.regs.eff := by
  induction n generalizing counted part s with
  | zero => rfl
  | succ n ih =>
    simp only [State.gatherLines]
    split
    · rfl
    · have hl := s.lcLook_timers space (va + part.length - (va + part.length) % 64) ttl counted
      split
      · next h => rw [ih, ← hl, h]
      · next h => rw [← hl, h]

@[simp] theorem State.nextPiece_timers (n d : Nat) (s : State) :
    timers (State.nextPiece n d s).regs.eff = timers s.regs.eff := by
  induction n generalizing s with
  | zero => rfl
  | succ n ih =>
    simp only [State.nextPiece]
    (repeat' split) <;> simp [ih]

@[simp] theorem State.goPieces_timers (s : State) (d : Nat) :
    timers (s.goPieces d).regs.eff = timers s.regs.eff := by simp [State.goPieces]

@[simp] theorem State.pieceEnded_timers (s : State) (d status : Nat) :
    timers (s.pieceEnded d status).regs.eff = timers s.regs.eff := by
  simp only [State.pieceEnded]
  (repeat' split) <;> simp

/-! #### Levels and revoked tasks -/

@[simp] theorem State.ihCheck_timers (s : State) :
    timers s.ihCheck.regs.eff = timers s.regs.eff := by
  unfold State.ihCheck
  split <;> simp

@[simp] theorem State.revokeTask_timers (s : State) (d : Nat) :
    timers (s.revokeTask d).regs.eff = timers s.regs.eff := by
  unfold State.revokeTask
  split <;> simp

/-! #### The interrupter -/

@[simp] theorem State.ackMessage_timers (s : State) (p : Packet) :
    timers (s.ackMessage p).regs.eff = timers s.regs.eff := by simp [State.ackMessage]

@[simp] theorem State.completeVector_timers (s : State) (v : IntrVector) (status : Nat) :
    timers (s.completeVector v status).regs.eff = timers s.regs.eff := by
  simp only [State.completeVector]
  (repeat' split) <;> simp

@[simp] theorem State.setVectors_timers (s : State) (vs : List IntrVector) :
    timers (s.setVectors vs).regs.eff = timers s.regs.eff := by simp [State.setVectors]

/-! #### Inbound posts -/

@[simp] theorem State.setIpwq_timers (s : State) (q : List IpwqEntry) :
    timers (s.setIpwq q).regs.eff = timers s.regs.eff := by simp [State.setIpwq]

@[simp] theorem State.postEntry_timers (s : State) (lensNo vaddr faddr : Nat) (data : List Byte) :
    timers (s.postEntry lensNo vaddr faddr data).regs.eff = timers s.regs.eff := by simp [State.postEntry]

@[simp] theorem State.flushGather_timers (s : State) (c : InCycle) :
    timers (s.flushGather c).regs.eff = timers s.regs.eff := by simp [State.flushGather]

/-! #### The recorder -/

@[simp] theorem State.recDepth_timers (s : State) :
    timers s.recDepth.regs.eff = timers s.regs.eff := by simp [State.recDepth]

@[simp] theorem State.recDrop_timers (s : State) :
    timers s.recDrop.regs.eff = timers s.regs.eff := by simp [State.recDrop]

@[simp] theorem State.clearEnd_timers (s : State) (t : Task) :
    timers (s.clearEnd t).regs.eff = timers s.regs.eff := by simp [State.clearEnd]

@[simp] theorem State.recGo_timers (n : Nat) (s : State) :
    timers (State.recGo n s).regs.eff = timers s.regs.eff := by
  induction n generalizing s with
  | zero => rfl
  | succ n ih =>
    simp only [State.recGo]
    (repeat' split) <;> simp [ih]

@[simp] theorem State.recPump_timers (s : State) :
    timers s.recPump.regs.eff = timers s.regs.eff := by simp [State.recPump]

@[simp] theorem State.recRetest_timers (s : State) :
    timers s.recRetest.regs.eff = timers s.regs.eff := by simp [State.recRetest]

@[simp] theorem State.recInj_timers (s : State) (v : Word) :
    timers (s.recInj v).regs.eff = timers s.regs.eff := by simp [State.recInj]

/-! #### Held tasks -/

@[simp] theorem State.setHold_timers (s : State) (hs : List HoldEntry) :
    timers (s.setHold hs).regs.eff = timers s.regs.eff := by simp [State.setHold]

@[simp] theorem State.cadRelease_timers (s : State) (t : Task) :
    timers (s.cadRelease t).regs.eff = timers s.regs.eff := by simp [State.cadRelease]

theorem State.judgeHold_timers (s : State) (e : HoldEntry) :
    timers (s.judgeHold e).2.regs.eff = timers s.regs.eff := by
  simp only [State.judgeHold]
  (repeat' split) <;> simp

theorem State.judgeHold_timers_of_eq {s t : State} {e : HoldEntry} {o : Option HoldEntry} (h : s.judgeHold e = (o, t)) :
    timers t.regs.eff = timers s.regs.eff := by
  rw [← s.judgeHold_timers e, h]

@[simp] theorem State.enterHold_timers (s : State) (t : Task) (gate : Option (Nat × Nat)) :
    timers (s.enterHold t gate).regs.eff = timers s.regs.eff := by
  simp only [State.enterHold]
  split
  · next hj => simp [← State.judgeHold_timers_of_eq hj]
  · next hj => exact State.judgeHold_timers_of_eq hj

@[simp] theorem State.cadHold_timers (s : State) (t : Task) (gate : Option (Nat × Nat)) :
    timers (s.cadHold t gate).regs.eff = timers s.regs.eff := by simp [State.cadHold]

@[simp] theorem State.fillHold_timers (n : Nat) (s : State) :
    timers (State.fillHold n s).regs.eff = timers s.regs.eff := by
  induction n generalizing s with
  | zero => rfl
  | succ n ih =>
    simp only [State.fillHold]
    split
    · rfl
    · split
      · simp [ih]
      · rfl

@[simp] theorem State.judgeAll_timers (s : State) :
    timers s.judgeAll.regs.eff = timers s.regs.eff := by
  simp only [State.judgeAll, State.fillHold_timers, State.setHold_timers]
  refine foldl_timers_snd _ (fun r e => ?_) _ _
  split
  · next hj => exact State.judgeHold_timers_of_eq hj
  · next hj => exact State.judgeHold_timers_of_eq hj

@[simp] theorem State.admitTask_timers (s : State) (again : Bool) (t : Task) :
    timers (s.admitTask again t).regs.eff = timers s.regs.eff := by
  simp only [State.admitTask]
  split
  · simp
  · split
    · simp
    · next he =>
      rw [← State.entered_timers _ _ _ _ _ he]
      split
      all_goals
        split
        · simp
        · split
          · next hp => simp [State.place_timers _ _ _ hp]
          · simp

@[simp] theorem State.retryWaiting_timers (s : State) :
    timers s.retryWaiting.regs.eff = timers s.regs.eff := by simp [State.retryWaiting]

/-! #### Schedules -/

@[simp] theorem State.setSch_timers (s : State) (k : Nat) (e : SchEntry) :
    timers (s.setSch k e).regs.eff = timers s.regs.eff := by simp [State.setSch]

@[simp] theorem State.schCopy_timers (s : State) (k : Nat) :
    timers (s.schCopy k).regs.eff = timers s.regs.eff := by simp [State.schCopy]

/-! #### Caches off and the power-fail drain -/

@[simp] theorem State.wcOff_timers (s : State) :
    timers s.wcOff.regs.eff = timers s.regs.eff := by simp [State.wcOff]

@[simp] theorem State.lcOff_timers (s : State) :
    timers s.lcOff.regs.eff = timers s.regs.eff := by simp [State.lcOff]

@[simp] theorem State.pfWarn_timers (s : State) :
    timers s.pfWarn.regs.eff = timers s.regs.eff := by simp [State.pfWarn]

/-! #### Feeds and slots -/

@[simp] theorem State.slotLow_timers (s : State) (n : Nat) :
    timers (s.slotLow n).regs.eff = timers s.regs.eff := by simp [State.slotLow]

@[simp] theorem State.slotTo_timers (s : State) (n st : Nat) :
    timers (s.slotTo n st).regs.eff = timers s.regs.eff := by simp [State.slotTo]

@[simp] theorem State.slotJudge_timers (s : State) (n : Nat) :
    timers (s.slotJudge n).regs.eff = timers s.regs.eff := by simp [State.slotJudge]

@[simp] theorem State.slotGo_timers (s : State) (n : Nat) :
    timers (s.slotGo n).regs.eff = timers s.regs.eff := by simp [State.slotGo]

@[simp] theorem State.slotReady_timers (s : State) (n : Nat) :
    timers (s.slotReady n).regs.eff = timers s.regs.eff := by simp [State.slotReady]

@[simp] theorem State.slotFree_timers (s : State) (n : Nat) :
    timers (s.slotFree n).regs.eff = timers s.regs.eff := by simp [State.slotFree]

@[simp] theorem State.slotUnhold_timers (s : State) (n : Nat) :
    timers (s.slotUnhold n).regs.eff = timers s.regs.eff := by simp [State.slotUnhold]

@[simp] theorem State.slotCtl_timers (s : State) (n : Nat) (v : Word) :
    timers (s.slotCtl n v).regs.eff = timers s.regs.eff := by simp [State.slotCtl]

@[simp] theorem State.warnStart_timers (s : State) :
    timers s.warnStart.regs.eff = timers s.regs.eff := by simp [State.warnStart]

@[simp] theorem State.feedJudge_timers (s : State) (x : Nat) :
    timers (s.feedJudge x).regs.eff = timers s.regs.eff := by simp [State.feedJudge]

@[simp] theorem State.feedsJudge_timers (s : State) :
    timers s.feedsJudge.regs.eff = timers s.regs.eff := by simp [State.feedsJudge]

@[simp] theorem State.pwrEnable_timers (s : State) :
    timers s.pwrEnable.regs.eff = timers s.regs.eff := by simp [State.pwrEnable]

/-! #### Links down -/

@[simp] theorem State.laneReset_timers (s : State) (l : Nat) :
    timers (s.laneReset l).regs.eff = timers s.regs.eff := by simp [State.laneReset]

@[simp] theorem State.linkRetrain_timers (s : State) (k : Nat) :
    timers (s.linkRetrain k).regs.eff = timers s.regs.eff := by simp [State.linkRetrain]

@[simp] theorem State.peerHanded_timers (s : State) (held : List (Nat × Packet)) :
    timers (s.peerHanded held).regs.eff = timers s.regs.eff := by simp [State.peerHanded]

@[simp] theorem State.layerDown_timers (s : State) (k : Nat) (held : List (Nat × Packet)) (nextSeq : Nat) :
    timers (s.layerDown k held nextSeq).regs.eff = timers s.regs.eff := by simp [State.layerDown]

@[simp] theorem State.linkDown_timers (s : State) (k st : Nat) :
    timers (s.linkDown k st).regs.eff = timers s.regs.eff := by simp [State.linkDown]

@[simp] theorem State.fireCodeword_timers (s : State) (l : Nat) :
    timers (s.fireCodeword l).regs.eff = timers s.regs.eff := by
  unfold State.fireCodeword
  split <;> simp

@[simp] theorem linkEnable_timers (value : Word) (s : State) :
    timers (linkEnable value s).regs.eff = timers s.regs.eff := by simp [linkEnable]

@[simp] theorem State.lnkInj_timers (s : State) :
    timers s.lnkInj.regs.eff = timers s.regs.eff := by simp [State.lnkInj]

/-! #### CAN -/

@[simp] theorem State.canLost_timers (s : State) (n : Nat) :
    timers (s.canLost n).regs.eff = timers s.regs.eff := by simp [State.canLost]

@[simp] theorem State.canAbandon_timers (s : State) (n : Nat) (t : CanTx) :
    timers (s.canAbandon n t).regs.eff = timers s.regs.eff := by simp [State.canAbandon]

@[simp] theorem State.canStop_timers (s : State) (n : Nat) :
    timers (s.canStop n).regs.eff = timers s.regs.eff := by simp [State.canStop]

/-! #### Serial ports -/

@[simp] theorem State.noReply_timers (s : State) (n : Nat) :
    timers (s.noReply n).regs.eff = timers s.regs.eff := by
  simp only [State.noReply]
  (repeat' split) <;> simp

@[simp] theorem State.serialStop_timers (s : State) (n : Nat) :
    timers (s.serialStop n).regs.eff = timers s.regs.eff := by
  simp only [State.serialStop]
  (repeat' split) <;> simp

/-! #### Twin operation -/

@[simp] theorem State.intrDrop_timers (s : State) :
    timers s.intrDrop.regs.eff = timers s.regs.eff := by
  simp -implicitDefEqProofs [State.intrDrop]

@[simp] theorem State.pieceOff_timers (s : State) (d : Nat) :
    timers (s.pieceOff d).regs.eff = timers s.regs.eff := by
  simp only [State.pieceOff]
  (repeat' split) <;> simp

@[simp] theorem State.vmeCut_timers (s : State) :
    timers s.vmeCut.regs.eff = timers s.regs.eff := by
  simp only [State.vmeCut]
  (repeat' split) <;> simp

@[simp] theorem State.outputsOff_timers (s : State) :
    timers s.outputsOff.regs.eff = timers s.regs.eff := by simp [State.outputsOff]

@[simp] theorem State.toStandby_timers (s : State) (sync : Bool) :
    timers (s.toStandby sync).regs.eff = timers s.regs.eff := by simp [State.toStandby]

@[simp] theorem State.mirrorStop_timers (s : State) :
    timers s.mirrorStop.regs.eff = timers s.regs.eff := by simp [State.mirrorStop]

@[simp] theorem State.twnEnable_timers (s : State) (on : Bool) :
    timers (s.twnEnable on).regs.eff = timers s.regs.eff := by simp [State.twnEnable]

@[simp] theorem State.twnRearm_timers (s : State) :
    timers s.twnRearm.regs.eff = timers s.regs.eff := by simp [State.twnRearm]

@[simp] theorem State.twnResume_timers (s : State) :
    timers s.twnResume.regs.eff = timers s.regs.eff := by simp [State.twnResume]

@[simp] theorem State.twnYield_timers (s : State) :
    timers s.twnYield.regs.eff = timers s.regs.eff := by simp [State.twnYield]

/-! #### The fault collector -/

@[simp] theorem State.entryGone_timers (s : State) (a : ActEntry) :
    timers (s.entryGone a).regs.eff = timers s.regs.eff := by simp [State.entryGone]

@[simp] theorem State.dropEntry_timers (s : State) (e : Nat) :
    timers (s.dropEntry e).regs.eff = timers s.regs.eff := by
  unfold State.dropEntry
  split <;> simp

@[simp] theorem State.regionClear_timers (s : State) (area v : Nat) :
    timers (s.regionClear area v).regs.eff = timers s.regs.eff := by
  refine foldl_timers _ (fun s b => ?_) _ _
  split
  · exact State.setReg_timers _ _ _ (offTimers_of_ge _ (by unfold regionKey K.FLT_REG_LINK; omega))
  · rfl

@[simp] theorem State.droverRemove_timers (s : State) (d : Nat) :
    timers (s.droverRemove d).regs.eff = timers s.regs.eff := by
  unfold State.droverRemove
  split <;> simp

@[simp] theorem State.clearEntry_timers (s : State) (e : Nat) :
    timers (s.clearEntry e).regs.eff = timers s.regs.eff := by
  unfold State.clearEntry
  split <;> simp

@[simp] theorem State.outputsResume_timers (s : State) :
    timers s.outputsResume.regs.eff = timers s.regs.eff := by simp [State.outputsResume]

@[simp] theorem State.safeExit_timers (s : State) :
    timers s.safeExit.regs.eff = timers s.regs.eff := by simp [State.safeExit]

@[simp] theorem State.unfence_timers (s : State) (mask : Nat) :
    timers (s.unfence mask).regs.eff = timers s.regs.eff := by simp [State.unfence]

/-! #### Revocation -/

@[simp] theorem State.claimsLost_timers (s : State) (d : Nat) :
    timers (s.claimsLost d).regs.eff = timers s.regs.eff := by simp [State.claimsLost]

@[simp] theorem State.cutJob_timers (s : State) (d : Nat) :
    timers (s.cutJob d).regs.eff = timers s.regs.eff := by
  unfold State.cutJob
  split <;> simp

@[simp] theorem State.revoke_timers (s : State) (d code : Nat) :
    timers (s.revoke d code).regs.eff = timers s.regs.eff := by simp [State.revoke]

@[simp] theorem State.droverWord_timers (s : State) (d : Nat) (dbl : Bool) :
    timers (s.droverWord d dbl).regs.eff = timers s.regs.eff := by simp [State.droverWord]

@[simp] theorem State.injArm_timers (s : State) (area index : Nat) (dbl : Bool) :
    timers (s.injArm area index dbl).regs.eff = timers s.regs.eff := by simp [State.injArm]

/-! #### What a set-up write brings about -/

@[simp] theorem State.release_timers (s : State) (g : Nat) :
    timers (s.release g).regs.eff = timers s.regs.eff := by simp [State.release]

@[simp] theorem State.haltWrite_timers (s : State) (v : Nat) :
    timers (s.haltWrite v).regs.eff = timers s.regs.eff := by simp [State.haltWrite]

@[simp] theorem State.drvEnWrite_timers (s : State) (base old new : Nat) (half : Bool) :
    timers (s.drvEnWrite base old new half).regs.eff = timers s.regs.eff := by simp [State.drvEnWrite]

@[simp] theorem State.hstWake_timers (s : State) :
    timers s.hstWake.regs.eff = timers s.regs.eff := by simp [State.hstWake]

@[simp] theorem State.joinOff_timers (s : State) :
    timers s.joinOff.regs.eff = timers s.regs.eff := by
  simp only [State.joinOff]
  (repeat' split) <;> simp

@[simp] theorem State.afterLow_timers (s : State) (off : Nat) (old new v : Word) :
    timers (s.afterLow off old new v).regs.eff = timers s.regs.eff := by
  have hhalt : offTimers 0x410 = true := rfl
  have hlink : offTimers 0x1000 = true := rfl
  by_cases h410 : off = 0x410
  · simp [State.afterLow, h410, hhalt]
  · by_cases h1000 : off = 0x1000
    · simp [State.afterLow, h1000, hlink]
    · simp [State.afterLow, h410, h1000]

@[simp] theorem State.afterCore_timers (s : State) (off k : Nat) (old new v : Word) (half : Bool) :
    timers (s.afterCore off k old new v half).regs.eff = timers s.regs.eff := by simp [State.afterCore]

@[simp] theorem State.afterEdge_timers (s : State) (off : Nat) (old new v : Word) :
    timers (s.afterEdge off old new v).regs.eff = timers s.regs.eff := by simp [State.afterEdge]

@[simp] theorem State.afterHigh_timers (s : State) (off : Nat) (old new v : Word) :
    timers (s.afterHigh off old new v).regs.eff = timers s.regs.eff := by simp [State.afterHigh]

theorem State.clearWrite_timers (s : State) (off k : Nat) (v : Word) (p : State) (e : s.clearWrite off k v = some p) :
    timers p.regs.eff = timers s.regs.eff := by
  unfold State.clearWrite at e
  split at e
  · cases e
    simp
  · split at e
    · cases e
      split <;> simp
    · split at e
      · cases e
        split
        · exact foldl_timers _ (fun s i => s.setReg_timers _ _ (offTimers_of_ge _ (by omega))) _ _
        · rfl
      · cases e

@[simp] theorem State.stagedAfter_timers (s : State) (off k : Nat) (v : Word) :
    timers (s.stagedAfter off k v).regs.eff = timers s.regs.eff := by simp [State.stagedAfter]

@[simp] theorem State.setupSizeBad_timers (s : State) (op off len node agent : Nat) :
    timers (s.setupSizeBad op off len node agent).regs.eff = timers s.regs.eff := by simp [State.setupSizeBad]

/-! ### Fields that R9 refuses -/

theorem fieldsOk_cons {g : FieldRow} {fs : List FieldRow} (h : fieldsOk (g :: fs) = true) :
    (g.lo ≤ g.hi ∧ g.hi < 32) ∧ (∀ f ∈ fs, g.apart f = true) ∧ fieldsOk fs = true := by
  simp only [fieldsOk, Bool.and_eq_true, List.all_cons, List.pairwise_cons, decide_eq_true_eq] at h ⊢
  exact ⟨h.1.1, h.2.1, h.1.2, h.2.2⟩

theorem fieldsOk_bounds {f : FieldRow} {fs : List FieldRow} (h : fieldsOk fs = true) (hm : f ∈ fs) : f.lo ≤ f.hi ∧ f.hi < 32 := by
  simp only [fieldsOk, Bool.and_eq_true, List.all_eq_true, decide_eq_true_eq] at h
  exact h.1 f hm

theorem Landing.field_range_of_range (halted staged : Bool) (v : Word) (l : Landing) (f : FieldRow) (h : l.range = true) :
    (Landing.field halted staged v l f).range = true := by
  simp only [Landing.field]
  (repeat' split) <;> simp [h]

theorem Landing.foldl_range_of_range (halted staged : Bool) (v : Word) (fs : List FieldRow) (l : Landing) (h : l.range = true) :
    (fs.foldl (Landing.field halted staged v) l).range = true := by
  induction fs generalizing l with
  | nil => exact h
  | cons f fs ih => exact ih _ (Landing.field_range_of_range _ _ _ _ _ h)

/-- A new value outside its bounds is reported and leaves the field, unless the field is STAGED. -/
theorem Landing.field_refused (halted staged : Bool) (v : Word) (l : Landing) (f : FieldRow) (ha : f.acc = .rw)
    (hc : f.cls ≠ .staged) (hn : bitsOf v f.hi f.lo ≠ bitsOf l.eff f.hi f.lo)
    (hv : ¬ (f.min ≤ bitsOf v f.hi f.lo ∧ bitsOf v f.hi f.lo ≤ f.max)) :
    Landing.field halted staged v l f = { l with range := true } := by
  simp only [Landing.field, ha]
  split
  · exact absurd ‹_› hc
  · simp [hn, hv]
  · simp [hn, hv]
  · simp_all
  · simp_all

/-- The same of a field among those of a register. -/
theorem Landing.foldl_refused (halted staged : Bool) (v : Word) (f : FieldRow) (fs : List FieldRow) (l : Landing)
    (hok : fieldsOk fs = true) (hm : f ∈ fs) (ha : f.acc = .rw) (hc : f.cls ≠ .staged)
    (hn : bitsOf v f.hi f.lo ≠ bitsOf l.eff f.hi f.lo)
    (hv : ¬ (f.min ≤ bitsOf v f.hi f.lo ∧ bitsOf v f.hi f.lo ≤ f.max)) :
    (fs.foldl (Landing.field halted staged v) l).range = true ∧
      bitsOf (fs.foldl (Landing.field halted staged v) l).eff f.hi f.lo = bitsOf l.eff f.hi f.lo := by
  constructor
  · induction fs generalizing l with
    | nil => simp at hm
    | cons g fs ih =>
      obtain ⟨hg, hap, hok'⟩ := fieldsOk_cons hok
      by_cases hfg : f = g
      · subst hfg
        rw [List.foldl_cons, Landing.field_refused _ _ _ _ _ ha hc hn hv]
        exact Landing.foldl_range_of_range _ _ _ _ _ rfl
      · have hm' := (List.mem_cons.mp hm).resolve_left hfg
        refine ih _ hok' hm' ?_
        rwa [Landing.field_other _ _ _ _ _ _ hg (fieldsOk_bounds hok' hm').1 (hap f hm')]
  · obtain ⟨l', hb, hf⟩ := Landing.foldl_field halted staged v f fs l hok hm
    rw [hf, Landing.field_refused _ _ _ _ _ ha hc (hb ▸ hn) hv, ← hb]

/-! ### Bits that a rule over several fields gives back -/

theorem testBit_pick (e o b : Word) (i : Nat) :
    ((e &&& ~~~b) ||| (o &&& b)).toNat.testBit i = if b.toNat.testBit i then o.toNat.testBit i else e.toNat.testBit i := by
  rw [BitVec.toNat_or, Nat.testBit_or, testBit_and_not, BitVec.toNat_and, Nat.testBit_and]
  cases b.toNat.testBit i <;> simp

/-- A field that reads alike in both words reads so in their mixture. -/
theorem bitsOf_pick_same (e o b : Word) (hi lo : Nat) (h : bitsOf e hi lo = bitsOf o hi lo) :
    bitsOf ((e &&& ~~~b) ||| (o &&& b)) hi lo = bitsOf o hi lo := by
  apply Nat.eq_of_testBit_eq
  intro i
  have hi' := congrArg (fun n => n.testBit i) h
  simp only [testBit_bitsOf, testBit_pick] at hi' ⊢
  split
  · rfl
  · exact hi'

/-- The low half is given back or kept. -/
theorem bitsOf_pick_low (e o : Word) (c : Prop) [Decidable c] :
    bitsOf ((e &&& ~~~(if c then 0x0000FFFF#32 else 0)) ||| (o &&& (if c then 0x0000FFFF#32 else 0))) 15 0 =
      if c then bitsOf o 15 0 else bitsOf e 15 0 := by
  apply Nat.eq_of_testBit_eq
  intro i
  have hm : (0x0000FFFF#32).toNat = 2 ^ 16 - 1 := rfl
  by_cases hc : c
  · simp only [hc, if_true, testBit_bitsOf, testBit_pick, hm, Nat.testBit_two_pow_sub_one]
    by_cases hi : i < 16 <;> simp [hi]
  · simp only [hc, if_false, testBit_bitsOf, testBit_pick]
    simp

/-- A field of the low half that takes a new value, or does not for its bounds, reads as before and is reported, where a rule over
several fields refuses what it would take. -/
theorem State.landWith_refused (s ctx : State) (off k : Nat) (v : Word) (halted staged : Bool) (f : FieldRow) (fs : List FieldRow)
    (hok : fieldsOk fs = true) (hm : f ∈ fs) (hhi : f.hi = 15) (hlo : f.lo = 0) (ha : f.acc = .rw)
    (hc : f.cls = .live ∨ f.cls = .static ∧ halted = true) (hn : bitsOf v 15 0 ≠ bitsOf (s.reg k) 15 0)
    (hx : ∀ e sh, bitsOf e 15 0 = bitsOf v 15 0 → ctx.crossBad off k e sh = 0x0000FFFF#32) :
    (s.landWith ctx fs off k v halted staged).range = true ∧
      bitsOf (s.landWith ctx fs off k v halted staged).eff 15 0 = bitsOf (s.reg k) 15 0 := by
  have hcs : f.cls ≠ .staged := by rcases hc with h | ⟨h, -⟩ <;> simp [h]
  simp only [State.landWith]
  by_cases hv : f.min ≤ bitsOf v f.hi f.lo ∧ bitsOf v f.hi f.lo ≤ f.max
  · have he : bitsOf (s.fieldsTake fs k v halted staged).eff f.hi f.lo = bitsOf v f.hi f.lo := by
      rcases hc with h | ⟨h, rfl⟩
      · exact Landing.foldl_live _ _ _ _ _ _ hok hm ha h hv
      · exact Landing.foldl_static _ _ _ _ _ hok hm ha h hv
    rw [hhi, hlo] at he
    have hk := bitsOf_pick_low (s.fieldsTake fs k v halted staged).eff (s.reg k) True
    simp only [if_true] at hk
    simp only [hx _ _ he]
    refine ⟨?_, hk⟩
    simp only [Bool.or_eq_true, bne_iff_ne]
    refine Or.inl (Or.inr (fun h => hn ?_))
    rw [← he, ← h, hk]
  · obtain ⟨hr, hb⟩ := Landing.foldl_refused halted staged v f fs ⟨s.reg k, s.shd k, false, false⟩ hok hm ha hcs
      (by rw [hhi, hlo]; exact hn) hv
    rw [hhi, hlo] at hb
    refine ⟨?_, bitsOf_pick_same _ _ _ _ _ hb⟩
    simp only [Bool.or_eq_true]
    exact Or.inl (Or.inl hr)

/-! ### The two registers -/

theorem regAt_timeout : regAt K.VME_TIMEOUT = some (reg1 0x5804 .plain 0x640100
    [fldR 31 16 .rw .live 1 65535, fldR 15 0 .rw .live 1 65535]) := rfl

theorem regAt_busTimer : regAt K.VME_BUS_TIMER = some (reg1 0x5808 .plain 0x40 [fldR 15 0 .rw .static 4 4096]) := rfl

/-- What a write of VME_TIMEOUT leaves in DATA_TO_US (R83). -/
theorem State.landWith_dataTo (s ctx : State) (fs : List FieldRow) (v : Word) (halted staged : Bool) :
    bitsOf (s.landWith ctx fs K.VME_TIMEOUT K.VME_TIMEOUT v halted staged).eff 15 0 =
      if bitsOf (s.fieldsTake fs K.VME_TIMEOUT v halted staged).eff 15 0 ≤ ctx.rd F.VME_BUS_TIMER_BTO_US
      then s.rd F.VME_TIMEOUT_DATA_TO_US else bitsOf (s.fieldsTake fs K.VME_TIMEOUT v halted staged).eff 15 0 :=
  bitsOf_pick_low _ _ _

/-- What a write of VME_BUS_TIMER leaves in BTO_US (R83, R95). -/
theorem State.landWith_bto (s ctx : State) (fs : List FieldRow) (v : Word) (halted staged : Bool) :
    bitsOf (s.landWith ctx fs K.VME_BUS_TIMER K.VME_BUS_TIMER v halted staged).eff 15 0 =
      if ctx.btoBad (bitsOf (s.fieldsTake fs K.VME_BUS_TIMER v halted staged).eff 15 0) = true
      then s.rd F.VME_BUS_TIMER_BTO_US else bitsOf (s.fieldsTake fs K.VME_BUS_TIMER v halted staged).eff 15 0 :=
  bitsOf_pick_low _ _ _

theorem State.btoBad_of_le (s : State) (bto : Nat) (h : s.rd F.VME_TIMEOUT_DATA_TO_US ≤ bto) : s.btoBad bto = true := by
  simp [State.btoBad, h]

theorem State.lt_of_not_btoBad (s : State) (bto : Nat) (h : ¬ s.btoBad bto = true) : bto < s.rd F.VME_TIMEOUT_DATA_TO_US :=
  Nat.lt_of_not_le (fun hle => h (s.btoBad_of_le bto hle))

/-- A write of one of the two registers brings nothing about beside what it reports. -/
theorem State.writeReg_timer (s ctx : State) (other : Option (Nat × Word)) (off : Nat) (v : Word) (node agent : Nat) (r : RegRow)
    (ht : offTimers off = false) (hr : regAt off = some r) :
    (s.writeReg ctx other off off v node agent).st =
      let l := s.landWith ctx r.fields off off v (s.halted 0) true
      ((s.setReg off l.eff).setShd off l.shd).setupReport off v node agent l.late l.range 0 := by
  have hoff := eq_of_not_offTimers ht
  have hb : ¬ off < 0x3000 ∧ ¬ off < 0x5000 ∧ off < 0x7800 := by rcases hoff with rfl | rfl <;> decide
  have hg : haltGroup off = 0 := by rcases hoff with rfl | rfl <;> rfl
  have hh : (off == 0x410) = false := by rcases hoff with rfl | rfl <;> rfl
  have hc : s.clearWrite off off v = none := by rcases hoff with rfl | rfl <;> rfl
  have hs : r.hasStaged = false := by
    rcases hoff with rfl | rfl
    · cases regAt_timeout.symm.trans hr
      rfl
    · cases regAt_busTimer.symm.trans hr
      rfl
  have he : ∀ (t : State) (old new : Word), t.afterEdge off old new v = t := by
    rcases hoff with rfl | rfl <;> exact fun _ _ _ => rfl
  have ha : ∀ t : State, t.stagedAfter off off v = t := by rcases hoff with rfl | rfl <;> exact fun _ => rfl
  simp only [State.writeReg, hr, hc, hs, hh, hg, hb, he, ha, Bool.false_and, Bool.not_false, Bool.or_false, if_false, if_true,
    Bool.false_eq_true]

/-! ### DATA_TO_US above BTO_US -/

/-- VME_TIMEOUT.DATA_TO_US is above VME_BUS_TIMER.BTO_US (R83). -/
def State.dataAboveBus (s : State) : Prop := s.rd F.VME_BUS_TIMER_BTO_US < s.rd F.VME_TIMEOUT_DATA_TO_US

theorem State.rd_dataTo_of_timers {s t : State} (h : timers t.regs.eff = timers s.regs.eff) :
    t.rd F.VME_TIMEOUT_DATA_TO_US = s.rd F.VME_TIMEOUT_DATA_TO_US := congrArg (fun p : Word × Word => bitsOf p.1 15 0) h

theorem State.rd_bto_of_timers {s t : State} (h : timers t.regs.eff = timers s.regs.eff) :
    t.rd F.VME_BUS_TIMER_BTO_US = s.rd F.VME_BUS_TIMER_BTO_US := congrArg (fun p : Word × Word => bitsOf p.2 15 0) h

theorem State.dataAboveBus_of_timers {s t : State} (h : timers t.regs.eff = timers s.regs.eff) (hs : s.dataAboveBus) :
    t.dataAboveBus := by
  unfold State.dataAboveBus
  rw [State.rd_dataTo_of_timers h, State.rd_bto_of_timers h]
  exact hs

theorem State.beside_timers (s : State) (k : Nat) (v : Word) (staged : Bool) (hk : offTimers k = true) :
    timers (s.beside k v staged).regs.eff = timers s.regs.eff := by
  unfold State.beside
  split
  · rfl
  · simp [hk]

/-- A write of another register brings about nothing in the two. -/
theorem State.writeReg_timers (s ctx : State) (other : Option (Nat × Word)) (off k : Nat) (v : Word) (node agent : Nat)
    (hk : offTimers k = true) : timers (s.writeReg ctx other off k v node agent).st.regs.eff = timers s.regs.eff := by
  unfold State.writeReg
  split
  · rfl
  · split
    · next h => exact State.clearWrite_timers _ _ _ _ _ h
    · simp [hk]

/-! ### A write of the two registers -/

theorem setReg_setShd_rd (s : State) (k : Nat) (e x : Word) (f : Fld) :
    ((s.setReg k e).setShd k x).rd f = if f.key = k then bitsOf e f.hi f.lo else s.rd f := by
  simp only [State.rd, setReg_setShd_regs]
  split <;> rfl

theorem State.setupReport_rd (s : State) (off : Nat) (v : Word) (node agent : Nat) (late range : Bool) (group : Nat) (f : Fld) :
    (s.setupReport off v node agent late range group).rd f = s.rd f :=
  State.rd_of_regs (s.setupReport_regs off v node agent late range group) f

theorem State.raise_mem (s : State) (code src : Nat) (ps : List Nat) :
    ∃ x ∈ (s.raise code src ps).flt.raised, x.code = code ∧ x.src = src :=
  ⟨_, List.mem_append_right _ (List.mem_singleton_self _), rfl, rfl⟩

/-- A value that R9 refuses is reported. -/
theorem State.setupReport_range (s : State) (off : Nat) (v : Word) (node agent : Nat) (late : Bool) (group : Nat) :
    ∃ x ∈ (s.setupReport off v node agent late true group).flt.raised, x.code = Code.CFG_RANGE ∧ x.src = Src.setup :=
  State.raise_mem _ _ _ _

theorem State.lt_landWith_dataTo (s ctx : State) (fs : List FieldRow) (v : Word) (halted staged : Bool)
    (hctx : timers ctx.regs.eff = timers s.regs.eff) (h : s.dataAboveBus) :
    s.rd F.VME_BUS_TIMER_BTO_US < bitsOf (s.landWith ctx fs K.VME_TIMEOUT K.VME_TIMEOUT v halted staged).eff 15 0 := by
  rw [State.landWith_dataTo, State.rd_bto_of_timers hctx]
  split
  · exact h
  · next hgt => exact Nat.lt_of_not_le hgt

theorem State.landWith_bto_lt (s ctx : State) (fs : List FieldRow) (v : Word) (halted staged : Bool)
    (hctx : timers ctx.regs.eff = timers s.regs.eff) (h : s.dataAboveBus) :
    bitsOf (s.landWith ctx fs K.VME_BUS_TIMER K.VME_BUS_TIMER v halted staged).eff 15 0 < s.rd F.VME_TIMEOUT_DATA_TO_US := by
  rw [State.landWith_bto]
  split
  · exact h
  · next hgt => exact State.rd_dataTo_of_timers hctx ▸ ctx.lt_of_not_btoBad _ hgt

/-- Judged beside the other register as it stands, no write of one of the two puts DATA_TO_US at or below BTO_US. -/
theorem State.writeReg_timer_dataAboveBus (s ctx : State) (other : Option (Nat × Word)) (off : Nat) (v : Word) (node agent : Nat)
    (ht : offTimers off = false) (hctx : timers ctx.regs.eff = timers s.regs.eff) (h : s.dataAboveBus) :
    (s.writeReg ctx other off off v node agent).st.dataAboveBus := by
  rcases eq_of_not_offTimers ht with rfl | rfl
  · rw [State.writeReg_timer _ _ _ _ _ _ _ _ ht regAt_timeout]
    simp only [State.dataAboveBus, State.setupReport_rd, setReg_setShd_rd]
    exact s.lt_landWith_dataTo ctx _ v _ _ hctx h
  · rw [State.writeReg_timer _ _ _ _ _ _ _ _ ht regAt_busTimer]
    simp only [State.dataAboveBus, State.setupReport_rd, setReg_setShd_rd]
    exact s.landWith_bto_lt ctx _ v _ _ hctx h

/-- A write of one of the two registers whose low half a rule over several fields refuses, its group halted where it is STATIC:
nothing changes in the low half and the refusal is reported. -/
theorem State.writeReg_timer_refused (s : State) (off : Nat) (v : Word) (node agent : Nat) (r : RegRow) (f : FieldRow)
    (ht : offTimers off = false) (hr : regAt off = some r) (hok : fieldsOk r.fields = true) (hm : f ∈ r.fields) (hhi : f.hi = 15)
    (hlo : f.lo = 0) (ha : f.acc = .rw) (hc : f.cls = .live ∨ f.cls = .static ∧ s.halted 0 = true)
    (hn : bitsOf v 15 0 ≠ bitsOf (s.reg off) 15 0)
    (hx : ∀ e sh, bitsOf e 15 0 = bitsOf v 15 0 → s.crossBad off off e sh = 0x0000FFFF#32) :
    let t := (s.writeReg s none off off v node agent).st
    t.rd F.VME_TIMEOUT_DATA_TO_US = s.rd F.VME_TIMEOUT_DATA_TO_US ∧ t.rd F.VME_BUS_TIMER_BTO_US = s.rd F.VME_BUS_TIMER_BTO_US ∧
      ∃ x ∈ t.flt.raised, x.code = Code.CFG_RANGE ∧ x.src = Src.setup := by
  obtain ⟨hrange, hbits⟩ := s.landWith_refused s off off v (s.halted 0) true f r.fields hok hm hhi hlo ha hc hn hx
  have low : ∀ k, ((s.writeReg s none off off v node agent).st).rd ⟨k, 15, 0⟩ = s.rd ⟨k, 15, 0⟩ := by
    intro k
    simp only [s.writeReg_timer s none off v node agent r ht hr, State.setupReport_rd, setReg_setShd_rd]
    split
    · next hk => rw [hbits, State.rd, hk]
    · rfl
  refine ⟨low _, low _, ?_⟩
  simp only [s.writeReg_timer s none off v node agent r ht hr, hrange]
  exact State.setupReport_range _ _ _ _ _ _ _

/-! ### An access -/

/-- The key of the register that an offset shows (R461). -/
def State.keyShown (s : State) (off : Nat) : Nat :=
  match regAt off with
  | some r => s.keyAt r off
  | none => off

theorem State.keyShown_offTimers (s : State) (off : Nat) (h : offTimers off = true) : offTimers (s.keyShown off) = true := by
  unfold State.keyShown State.keyAt
  split
  · split
    · exact h
    · exact offTimers_winKey _ _
  · exact h

theorem State.keyShown_timer (s : State) (off : Nat) (h : offTimers off = false) : s.keyShown off = off := by
  rcases eq_of_not_offTimers h with rfl | rfl <;> rfl

theorem State.setupWrite_of_ne_eight (s : State) (off : Nat) (bs : List Byte) (node agent : Nat) (h : bs.length ≠ 8) :
    s.setupWrite off bs node agent = s.writeReg s none off (s.keyShown off) (BitVec.ofNat 32 (leNum (bs.take 4))) node agent :=
  if_neg h

/-- An access of eight bytes writes two registers, each judged beside the other (R460). -/
theorem State.setupWrite_of_eight (s : State) (off : Nat) (bs : List Byte) (node agent : Nat) (h : bs.length = 8) :
    (s.setupWrite off bs node agent).st =
      let k := s.keyShown off
      let j := s.keyShown (off + 4)
      let v := BitVec.ofNat 32 (leNum (bs.take 4))
      let w := BitVec.ofNat 32 (leNum (bs.drop 4))
      let staged := !s.bit F.CHIP_COMMIT_STAT_RETIRING
      ((s.writeReg (s.beside j w staged) (some (j, w)) off k v node agent).st.writeReg (s.beside k v staged) (some (k, v)) (off + 4) j
        w node agent).st := by
  simp only [State.setupWrite, h, if_true]
  rfl

theorem State.writeReg_dataAboveBus (s u ctx : State) (other : Option (Nat × Word)) (off : Nat) (v : Word) (node agent : Nat)
    (hctx : offTimers off = false → timers ctx.regs.eff = timers s.regs.eff) (h : s.dataAboveBus) :
    (s.writeReg ctx other off (u.keyShown off) v node agent).st.dataAboveBus := by
  cases ht : offTimers off with
  | true => exact State.dataAboveBus_of_timers (s.writeReg_timers _ _ _ _ _ _ _ (u.keyShown_offTimers off ht)) h
  | false =>
    rw [u.keyShown_timer off ht]
    exact s.writeReg_timer_dataAboveBus ctx other off v node agent ht (hctx ht) h

/-- The two registers do not lie in one access of eight bytes. -/
theorem offTimers_pair (off : Nat) (h : off % 8 = 0) : offTimers off = true ∨ offTimers (off + 4) = true := by
  cases ht : offTimers off with
  | true => exact .inl rfl
  | false =>
    rcases eq_of_not_offTimers ht with rfl | rfl
    · exact absurd h (by decide)
    · exact .inr rfl

theorem State.setupWrite_dataAboveBus (s : State) (off : Nat) (bs : List Byte) (node agent : Nat)
    (hok : setupSizeOk off bs.length = true) (h : s.dataAboveBus) : (s.setupWrite off bs node agent).st.dataAboveBus := by
  by_cases h8 : bs.length = 8
  · have hmod : off % 8 = 0 := by
      simpa [setupSizeOk, h8] using hok
    have hp := offTimers_pair off hmod
    rw [s.setupWrite_of_eight off bs node agent h8]
    dsimp only
    refine State.writeReg_dataAboveBus _ s _ _ _ _ _ _ (fun ht => ?_) (s.writeReg_dataAboveBus s _ _ _ _ _ _ (fun ht => ?_) h)
    · have hk := s.keyShown_offTimers off (hp.resolve_right (by simp [ht]))
      rw [State.beside_timers _ _ _ _ hk, State.writeReg_timers _ _ _ _ _ _ _ _ hk]
    · exact State.beside_timers _ _ _ _ (s.keyShown_offTimers (off + 4) (hp.resolve_left (by simp [ht])))
  · rw [s.setupWrite_of_ne_eight off bs node agent h8]
    exact s.writeReg_dataAboveBus s s _ _ _ _ _ (fun _ => rfl) h

/-- No access to the set-up unit, whatever its register, size and value, puts DATA_TO_US at or below BTO_US. -/
theorem setupWriteCmd_dataAboveBus (off : Nat) (bs : List Byte) (node agent : Nat) (s : State) (h : s.dataAboveBus) :
    (setupWriteCmd off bs node agent s).dataAboveBus := by
  unfold setupWriteCmd
  split
  · exact h
  · split
    · next hok => exact s.setupWrite_dataAboveBus off bs node agent hok h
    · exact State.dataAboveBus_of_timers (s.setupSizeBad_timers _ _ _ _ _) h

/-- SETUP_WRITE while the management unit works. -/
theorem exec_setupWrite_up (s : State) (off : Nat) (bs : List Byte) (node agent : Nat) (h : s.up .mgmt = true) :
    exec (.setupWrite off bs node agent) s = .next (setupWriteCmd off bs node agent s) := by
  have hexec : exec (.setupWrite off bs node agent) s = .next (whenUp .mgmt (setupWriteCmd off bs node agent) s) := rfl
  rw [hexec, whenUp, if_pos h]

/-- A write of four bytes to one of the two registers. -/
theorem setupWriteCmd_timer (s : State) (off : Nat) (v : Word) (node agent : Nat) (ht : offTimers off = false) :
    setupWriteCmd off (leBytes 4 v.toNat) node agent s = (s.writeReg s none off off v node agent).st := by
  have hlen := length_leBytes 4 v.toNat
  have hin : ¬ 0x10000 ≤ off ∧ setupSizeOk off 4 = true := by rcases eq_of_not_offTimers ht with rfl | rfl <;> decide
  rw [setupWriteCmd, if_neg hin.1, hlen, if_pos hin.2, s.setupWrite_of_ne_eight _ _ _ _ (by rw [hlen]; decide), s.keyShown_timer off ht,
    List.take_of_length_le (Nat.le_of_eq hlen), leNum_leBytes]

end Sys2Proof.Machine
end

section
open Sys2Proof Sys2Proof.Machine

/-- Settles O56: a write of either register is judged against the other (R83), and no other write reaches the two. -/
theorem dataTimeoutStaysAboveBusTimeout : Obligations.DataTimeoutStaysAboveBusTimeout := by
  unfold Obligations.DataTimeoutStaysAboveBusTimeout
  intro s v node agent hup h
  refine ⟨fun hle => ⟨_, exec_setupWrite_up s _ _ node agent hup, ?_⟩,
    fun hle hhalt => ⟨_, exec_setupWrite_up s _ _ node agent hup, ?_⟩, fun off bs t hexec => ?_⟩
  · rw [setupWriteCmd_timer s K.VME_TIMEOUT v node agent rfl]
    exact s.writeReg_timer_refused _ v node agent _ (fldR 15 0 .rw .live 1 65535) rfl regAt_timeout rfl (by simp [reg1]) rfl rfl rfl
      (.inl rfl) (Nat.ne_of_lt (Nat.lt_of_le_of_lt hle h)) (fun e _ he => if_pos (show bitsOf e 15 0 ≤ _ from he ▸ hle))
  · rw [setupWriteCmd_timer s K.VME_BUS_TIMER v node agent rfl]
    obtain ⟨hdata, hbto, hraised⟩ := s.writeReg_timer_refused _ v node agent _ (fldR 15 0 .rw .static 4 4096) rfl regAt_busTimer rfl
      (by simp [reg1]) rfl rfl rfl (.inr ⟨rfl, hhalt⟩) (Nat.ne_of_gt (Nat.lt_of_lt_of_le h hle))
      (fun e _ he => if_pos (s.btoBad_of_le _ (show _ ≤ bitsOf e 15 0 from he ▸ hle)))
    exact ⟨hbto, hdata, hraised⟩
  · rw [exec_setupWrite_up s off bs node agent hup] at hexec
    cases hexec
    exact setupWriteCmd_dataAboveBus off bs node agent s h

end

section
/-! SUPPORT. The registers with STATIC fields whose write other units act on (R437): no unit writes a field of theirs that the set-up
space can write. Three are written at all, CHIP_WC_CTL.EN, TWN_CTL.EN and PWR_CTL.EN, each where its own write turns the unit on or off,
with the value it has already. -/

namespace Sys2Proof.Machine

/-! ### The registers -/

/-- The registers, each with the bits that hold settings: all of them, but those of DEPTH in VME_INTR. -/
def settingRegs : List (Nat × Word) :=
  [(K.CHIP_WC_CTL, 0xFFFFFFFF#32), (K.NET_CTL, 0xFFFFFFFF#32), (K.VME_CTL, 0xFFFFFFFF#32), (K.VME_IH_CTL, 0xFFFFFFFF#32),
    (K.VME_INTR, 0xFFE0FFFF#32), (K.VME_INTR_RORA, 0xFFFFFFFF#32), (K.TWN_CTL, 0xFFFFFFFF#32), (K.PWR_CTL, 0xFFFFFFFF#32),
    (K.PWR_PFW, 0xFFFFFFFF#32)]

/-- What they hold in an effective bank. -/
def settings (eff : Table Word) : List Word := settingRegs.map (fun r => tget resetWord eff r.1 &&& r.2)

/-- The key is that of another register. -/
def offSettings (k : Nat) : Bool := settingRegs.all (fun r => k != r.1)

theorem offSettings_iff (k : Nat) : offSettings k = true ↔
    k ≠ 0x304 ∧ k ≠ 0x1800 ∧ k ≠ 0x5800 ∧ k ≠ 0x5850 ∧ k ≠ 0x5860 ∧ k ≠ 0x5864 ∧ k ≠ 0x7800 ∧ k ≠ 0x9800 ∧ k ≠ 0x9808 := by
  simp [offSettings, settingRegs, K.CHIP_WC_CTL, K.NET_CTL, K.VME_CTL, K.VME_IH_CTL, K.VME_INTR, K.VME_INTR_RORA, K.TWN_CTL, K.PWR_CTL,
    K.PWR_PFW]

theorem offSettings_of_ge (k : Nat) (h : 0x9809 ≤ k) : offSettings k = true := by
  rw [offSettings_iff]
  omega

/-- A window register is none of them. -/
theorem offSettings_winKey (off e : Nat) : offSettings (winKey off e) = true :=
  offSettings_of_ge _ (by unfold winKey; omega)

/-- A field of one of them lies in bits that hold settings, and reads alike in two banks that agree on these. -/
theorem bitsOf_of_settings {s t : State} (h : settings t.regs.eff = settings s.regs.eff) {k : Nat} {m : Word}
    (hk : (k, m) ∈ settingRegs) (hi lo : Nat) (hl : lo ≤ hi) (hm : ∀ i, lo ≤ i → i ≤ hi → m.toNat.testBit i = true) :
    bitsOf (t.reg k) hi lo = bitsOf (s.reg k) hi lo := by
  have hand : t.reg k &&& m = s.reg k &&& m := List.map_inj_left.mp h _ hk
  apply Nat.eq_of_testBit_eq
  intro i
  simp only [testBit_bitsOf]
  by_cases hi' : i < hi - lo + 1
  · have hbit := congrArg (fun w : Word => w.toNat.testBit (lo + i)) hand
    have hset := hm (lo + i) (by omega) (by omega)
    simp only [BitVec.toNat_and, Nat.testBit_and, hset, Bool.and_true] at hbit
    rw [hbit]
  · simp [hi']

/-! ### Register writes -/

/-- A write that changes no setting. -/
theorem settings_tput (eff : Table Word) (k : Nat) (v : Word)
    (h : ∀ r ∈ settingRegs, r.1 = k → v &&& r.2 = tget resetWord eff r.1 &&& r.2) :
    settings (tput resetWord eff k v) = settings eff := by
  apply List.map_congr_left
  intro r hr
  rw [tget_tput]
  split
  · next hk => exact h r hr hk
  · rfl

@[simp] theorem settings_tput_off (eff : Table Word) (k : Nat) (v : Word) (h : offSettings k = true) :
    settings (tput resetWord eff k v) = settings eff := by
  refine settings_tput _ _ _ (fun r hr hk => ?_)
  have := List.all_eq_true.mp h r hr
  simp [hk] at this

@[simp] theorem State.setReg_settings (s : State) (k : Nat) (v : Word) (h : offSettings k = true) :
    settings (s.setReg k v).regs.eff = settings s.regs.eff := settings_tput_off _ _ _ h

@[simp] theorem State.wr_settings (s : State) (f : Fld) (v : Nat) (h : offSettings f.key = true) :
    settings (s.wr f v).regs.eff = settings s.regs.eff := s.setReg_settings _ _ h

@[simp] theorem State.wrB_settings (s : State) (f : Fld) (b : Bool) (h : offSettings f.key = true) :
    settings (s.wrB f b).regs.eff = settings s.regs.eff := s.setReg_settings _ _ h

@[simp] theorem State.bumpN_settings (s : State) (k n : Nat) (h : offSettings k = true) :
    settings (s.bumpN k n).regs.eff = settings s.regs.eff := by
  simp only [State.bumpN]
  split <;> simp [h]

@[simp] theorem State.bump_settings (s : State) (k : Nat) (h : offSettings k = true) :
    settings (s.bump k).regs.eff = settings s.regs.eff := s.bumpN_settings k 1 h

@[simp] theorem State.bumpF_settings (s : State) (f : Fld) (n : Nat) (h : offSettings f.key = true) :
    settings (s.bumpF f n).regs.eff = settings s.regs.eff := s.setReg_settings _ _ h

@[simp] theorem State.peak_settings (s : State) (f : Fld) (v : Nat) (h : offSettings f.key = true) :
    settings (s.peak f v).regs.eff = settings s.regs.eff := by
  unfold State.peak
  split <;> simp [h]

/-- DEPTH of VME_INTR is no setting. -/
@[simp] theorem State.wr_depth_settings (s : State) (v : Nat) :
    settings (s.wr F.VME_INTR_DEPTH v).regs.eff = settings s.regs.eff := by
  refine settings_tput _ _ _ (fun r hr hk => ?_)
  have hmask : r.2 = 0xFFE0FFFF#32 := by
    have hall : settingRegs.all (fun r => r.1 != F.VME_INTR_DEPTH.key || r.2 == 0xFFE0FFFF#32) = true := by decide
    simpa [hk] using List.all_eq_true.mp hall r hr
  rw [hk, hmask]
  apply BitVec.eq_of_toNat_eq
  apply Nat.eq_of_testBit_eq
  intro i
  rw [BitVec.toNat_and, BitVec.toNat_and, Nat.testBit_and, Nat.testBit_and]
  by_cases hi : i < 16 ∨ 20 < i
  · exact congrArg (· && _) (testBit_setBits _ 20 16 v i (by decide) (by decide) hi)
  · have hm : (0xFFE0FFFF#32 : Word).toNat.testBit i = false := by
      have : i = 16 ∨ i = 17 ∨ i = 18 ∨ i = 19 ∨ i = 20 := by omega
      rcases this with rfl | rfl | rfl | rfl | rfl <;> decide
    rw [hm, Bool.and_false, Bool.and_false]

/-- Writing what a field holds changes nothing. -/
theorem setBits_bitsOf (w : Word) (hi lo : Nat) (hl : lo ≤ hi) (hh : hi < 32) : setBits w hi lo (bitsOf w hi lo) = w := by
  apply BitVec.eq_of_toNat_eq
  apply Nat.eq_of_testBit_eq
  intro i
  by_cases hi' : i < lo ∨ hi < i
  · exact testBit_setBits w hi lo _ i hl hh hi'
  · have hself := congrArg (fun n => n.testBit (i - lo)) (bitsOf_setBits w hi lo (bitsOf w hi lo) hl hh)
    have hin : i - lo < hi - lo + 1 := by omega
    have hadd : lo + (i - lo) = i := by omega
    simpa [testBit_bitsOf, Nat.testBit_mod_two_pow, hin, hadd] using hself

/-- A field written with the value it has. -/
theorem State.wr_same_settings (s : State) (f : Fld) (v : Nat) (hl : f.lo ≤ f.hi) (hh : f.hi < 32) (h : s.rd f = v) :
    settings (s.wr f v).regs.eff = settings s.regs.eff := by
  refine settings_tput _ _ _ (fun r _ hk => ?_)
  rw [← h, State.rd, setBits_bitsOf _ _ _ hl hh, hk]
  rfl

/-- Only registers other than these have changed. -/
theorem settings_of_regsBut {s t : State} {ks : List Nat} (h : s.RegsBut t ks) (hk : ks.all offSettings = true) :
    settings t.regs.eff = settings s.regs.eff := by
  apply List.map_congr_left
  intro r hr
  have hoff : r.1 ∉ ks := fun hm => by
    have := List.all_eq_true.mp (List.all_eq_true.mp hk _ hm) r hr
    simp at this
  exact congrArg (· &&& r.2) (h.reg r.1 hoff)

/-- A fold of steps none of which writes a setting. -/
@[simp] theorem foldl_settings {α : Type} (f : State → α → State) (hf : ∀ s a, settings (f s a).regs.eff = settings s.regs.eff)
    (l : List α) (s : State) : settings (l.foldl f s).regs.eff = settings s.regs.eff := by
  induction l generalizing s with
  | nil => rfl
  | cons a l ih => rw [List.foldl_cons, ih, hf]

@[simp] theorem settings_ite (c : Prop) [Decidable c] (a b : State) :
    settings (if c then a else b).regs.eff = if c then settings a.regs.eff else settings b.regs.eff := by split <;> rfl

/-! ### The registers that operations write -/

@[simp] theorem offSettings_chip :
    offSettings F.CHIP_BOOT_STAT_STAGE.key ∧ offSettings F.CHIP_CLM_STAT_INUSE.key ∧ offSettings F.CHIP_CLM_STAT_PEAK.key ∧
    offSettings F.CHIP_PF_STAT_STATE.key ∧ offSettings F.CHIP_WC_STAT_DEPTH.key ∧ offSettings F.CHIP_WC_STAT_PEAK.key ∧
    offSettings K.CHIP_CNT_LC_HIT ∧ offSettings K.CHIP_CNT_LC_MISS ∧ offSettings K.CHIP_CNT_WC_FLUSH ∧
    offSettings K.CHIP_CNT_WC_LOST_BYTES := by
  and_intros <;> rfl

@[simp] theorem offSettings_net :
    offSettings F.NET_ID_STATE.key ∧ offSettings F.NET_STAT_BWID.key ∧ offSettings F.NET_STAT_ROLE.key ∧
    offSettings F.NET_TAG_OPEN.key ∧ offSettings K.NET_CNT_NO_NODE ∧ offSettings K.NET_CNT_TX := by
  and_intros <;> rfl

@[simp] theorem offSettings_drovers :
    offSettings F.DRV_STILE_STAT_INUSE.key ∧ offSettings F.DRV_STILE_STAT_PEAK.key ∧ offSettings F.FLD_POOL_PEAK_PEAK.key ∧
    offSettings K.DRV_CNT_STILE_WAIT ∧ offSettings K.FLD_CNT_LOST_WORDS ∧ offSettings K.FLD_CNT_RESET := by
  and_intros <;> rfl

@[simp] theorem offSettings_vme :
    offSettings F.VME_IPWQ_DEPTH.key ∧ offSettings F.VME_IPWQ_PEAK.key ∧ offSettings K.VME_CNT_DEGRADE := by
  and_intros <;> rfl

@[simp] theorem offSettings_twin :
    offSettings F.TWN_MQ_DEPTH.key ∧ offSettings F.TWN_MQ_PEAK.key ∧ offSettings F.TWN_STAT_ALONE.key ∧
    offSettings F.TWN_STAT_CROOK.key ∧ offSettings F.TWN_STAT_SAFE.key ∧ offSettings F.TWN_STAT_STATE.key ∧
    offSettings F.TWN_STAT_SYNC.key ∧ offSettings K.TWN_CNT_MQ_WAIT := by
  and_intros <;> rfl

@[simp] theorem offSettings_power :
    offSettings F.PWR_FLAGS_PFW_SEEN.key ∧ offSettings F.PWR_STAT_WARN.key ∧ offSettings K.PWR_CNT_PFW ∧
    offSettings F.SVC_STAT_LOCKED.key := by
  and_intros <;> rfl

/-- The three links. -/
theorem offSettings_linkOut (k : Nat) (h : k < 3) : offSettings (F.LNK_LINK_STAT_OUT k).key = true := by
  simp only [offSettings_iff, F.LNK_LINK_STAT_OUT, K.LNK_LINK_STAT]
  omega

@[simp] theorem offSettings_foldStat (n : Nat) :
    offSettings (F.FLD_F_STAT_HIGH_N n).key ∧ offSettings (F.FLD_F_STAT_LOW_N n).key ∧ offSettings (F.FLD_F_STAT_RESETS n).key ∧
    offSettings (F.FLD_F_PEAK_PEAK n).key ∧ offSettings (F.FLD_F_FLOOR_FLOOR n).key :=
  ⟨offSettings_winKey 0x3840 n, offSettings_winKey 0x3840 n, offSettings_winKey 0x3840 n, offSettings_winKey _ n, offSettings_winKey _ n⟩

@[simp] theorem offSettings_slotStat (n : Nat) :
    offSettings (F.PWR_SLOT_STAT_EN_OUT n).key ∧ offSettings (F.PWR_SLOT_STAT_FTIMER n).key ∧ offSettings (F.PWR_SLOT_STAT_PG n).key :=
  have h := offSettings_of_ge (K.PWR_SLOT_STAT n) (by unfold K.PWR_SLOT_STAT; omega)
  ⟨h, h, h⟩

@[simp] theorem offSettings_feedLow (n : Nat) : offSettings (F.feedLow n).key = true := by
  unfold F.feedLow
  split <;> rfl

/-! ### Links and the ring network -/

@[simp] theorem State.sendData_settings (s : State) (k : Nat) (p : Packet) (h : k < 3) :
    settings (s.sendData k p).regs.eff = settings s.regs.eff := by simp [State.sendData, offSettings_linkOut k h]

@[simp] theorem State.pump_settings (n k : Nat) (s : State) (h : k < 3) :
    settings (State.pump n k s).regs.eff = settings s.regs.eff := by
  induction n generalizing s with
  | zero => rfl
  | succ n ih =>
    simp only [State.pump]
    split
    · split
      · rfl
      · rw [ih]
        split <;> simp [h]
    · rfl

@[simp] theorem State.enqueueFrom_settings (s : State) (k : Nat) (p : Packet) (pass : Bool) (from_ : Option Nat) (h : k < 3) :
    settings (s.enqueueFrom k p pass from_).regs.eff = settings s.regs.eff := by simp [State.enqueueFrom, State.pumpLink, h]

@[simp] theorem State.sendRing_settings (s : State) (ring : Nat) (p : Packet) (pass : Bool) :
    settings (s.sendRing ring p pass).regs.eff = settings s.regs.eff := by
  have hside : outSide ring < 3 ∧ 1 - outSide ring < 3 := by
    unfold outSide
    split <;> decide
  simp [State.sendRing, State.sendRingFrom, hside]

@[simp] theorem State.injectAs_settings (s : State) (p : Packet) (both : Bool) :
    settings (s.injectAs p both).regs.eff = settings s.regs.eff := by simp [State.injectAs]

@[simp] theorem State.injectOn_settings (s : State) (ring : Nat) (p : Packet) :
    settings (s.injectOn ring p).regs.eff = settings s.regs.eff := by simp [State.injectOn]

theorem State.sendTagged_settings (s : State) (p : Packet) (r : TagRec) (q : Nat × State) (e : s.sendTagged p r = some q) :
    settings q.2.regs.eff = settings s.regs.eff := by
  unfold State.sendTagged at e
  split at e
  · cases e
  · simp only [Option.some.injEq] at e
    rw [← e]
    split
    · rw [State.takenPush_regs, State.injectOn_settings, State.wr_settings _ _ _ (by simp)]
      simp
    · split
      · rw [State.takenPush_regs, State.wr_settings _ _ _ (by simp)]
        simp
      · rw [State.inject, State.injectAs_settings, State.wr_settings _ _ _ (by simp)]
        simp

@[simp] theorem State.issueRec_settings (s : State) (p : Packet) (r : TagRec) :
    settings (s.issueRec p r).st.regs.eff = settings s.regs.eff := by
  simp only [State.issueRec]
  split
  · rfl
  · split
    · simp
    · split
      · rfl
      · split
        · next h => exact State.sendTagged_settings _ _ _ _ h
        · rfl

/-! ### The mirror -/

@[simp] theorem State.sendMirror_settings (s : State) (p : Packet) :
    settings (s.sendMirror p).regs.eff = settings s.regs.eff := by simp [State.sendMirror, State.enqueue]

@[simp] theorem State.drainMirror_settings (n : Nat) (s : State) :
    settings (State.drainMirror n s).regs.eff = settings s.regs.eff := by
  induction n generalizing s with
  | zero => rfl
  | succ n ih =>
    simp only [State.drainMirror]
    split
    · rfl
    · split
      all_goals
        split
        · simp [ih]
        · rfl

@[simp] theorem State.queueRec_settings (s : State) (r : MirrorRec) :
    settings (s.queueRec r).regs.eff = settings s.regs.eff := by simp [State.queueRec]

@[simp] theorem State.mirror_settings (s : State) (rtype : Nat) (payload : List Byte) :
    settings (s.mirror rtype payload).regs.eff = settings s.regs.eff := by simp [State.mirror]

@[simp] theorem State.mirrorReg_settings (s : State) (cat off : Nat) (v : Word) :
    settings (s.mirrorReg cat off v).regs.eff = settings s.regs.eff := by simp [State.mirrorReg]

/-! ### The interrupter -/

@[simp] theorem State.completeVector_settings (s : State) (v : IntrVector) (status : Nat) :
    settings (s.completeVector v status).regs.eff = settings s.regs.eff := by
  simp only [State.completeVector, State.ackMessage, State.injectAnswer]
  (repeat' split) <;> simp

@[simp] theorem State.setVectors_settings (s : State) (vs : List IntrVector) :
    settings (s.setVectors vs).regs.eff = settings s.regs.eff := by simp [State.setVectors]

@[simp] theorem State.intrDrop_settings (s : State) :
    settings s.intrDrop.regs.eff = settings s.regs.eff := by
  simp -implicitDefEqProofs [State.intrDrop]

/-! ### The VME bus -/

@[simp] theorem State.setClaims_settings (s : State) (cs : List Claim) :
    settings (s.setClaims cs).regs.eff = settings s.regs.eff := by simp [State.setClaims]

@[simp] theorem State.firstCycle_settings (s : State) (j : VJob) :
    settings (s.firstCycle j).regs.eff = settings s.regs.eff := by simp [State.firstCycle, State.storeSeen]

@[simp] theorem State.liveCover_settings (s : State) (o : VOwner) (j : VJob) :
    settings (s.liveCover o j).regs.eff = settings s.regs.eff := by simp [State.liveCover]

@[simp] theorem State.beginCycle_settings (s : State) (o : VOwner) :
    settings (s.beginCycle o).regs.eff = settings s.regs.eff := by
  simp only [State.beginCycle]
  (repeat' split) <;> simp

@[simp] theorem State.tenureNext_settings (s : State) :
    settings s.tenureNext.regs.eff = settings s.regs.eff := by
  simp only [State.tenureNext]
  (repeat' split) <;> simp

@[simp] theorem State.idleBus_settings (s : State) :
    settings s.idleBus.regs.eff = settings s.regs.eff := by simp [State.idleBus]

@[simp] theorem State.ihCheck_settings (s : State) :
    settings s.ihCheck.regs.eff = settings s.regs.eff := by
  unfold State.ihCheck
  split <;> simp [State.requestTenure]

/-! ### The combining buffer, the power-fail drain and the feeds -/

@[simp] theorem State.setWc_settings (s : State) (w : List WcLine) :
    settings (s.setWc w).regs.eff = settings s.regs.eff := by simp [State.setWc]

@[simp] theorem State.flushEnded_settings (s : State) (addr len status bytesDone : Nat) :
    settings (s.flushEnded addr len status bytesDone).regs.eff = settings s.regs.eff := by
  simp only [State.flushEnded]
  split
  · rfl
  · rw [State.setWc_settings]
    split
    · rfl
    · rw [foldl_settings _ (fun s k => by simp)]
      simp

@[simp] theorem State.flushLine_settings (s : State) (l : WcLine) :
    settings (s.flushLine l).regs.eff = settings s.regs.eff := by
  simp only [State.flushLine]
  split
  · rfl
  · rw [foldl_settings _ (fun s r => ?_)]
    · simp
    · split <;> simp

@[simp] theorem State.flushWhere_settings (s : State) (want : WcLine → Bool) :
    settings (s.flushWhere want).regs.eff = settings s.regs.eff := by simp [State.flushWhere]

/-- CHIP_WC_CTL.EN has been written with 0. -/
theorem State.wcOff_settings (s : State) (h : s.rd F.CHIP_WC_CTL_EN = 0) :
    settings s.wcOff.regs.eff = settings s.regs.eff := by
  simpa [State.wcOff] using s.wr_same_settings F.CHIP_WC_CTL_EN 0 (by decide) (by decide) h

@[simp] theorem State.pfWarn_settings (s : State) :
    settings s.pfWarn.regs.eff = settings s.regs.eff := by simp [State.pfWarn]

@[simp] theorem State.warnStart_settings (s : State) :
    settings s.warnStart.regs.eff = settings s.regs.eff := by simp [State.warnStart, State.slotLow]

@[simp] theorem State.feedsJudge_settings (s : State) :
    settings s.feedsJudge.regs.eff = settings s.regs.eff := by simp [State.feedsJudge, State.feedJudge]

/-- PWR_CTL.EN has been written with 1. -/
theorem State.pwrEnable_settings (s : State) (h : s.rd F.PWR_CTL_EN = 1) :
    settings s.pwrEnable.regs.eff = settings s.regs.eff := by
  simpa [State.pwrEnable] using s.wr_same_settings F.PWR_CTL_EN 1 (by decide) (by decide) h

/-! ### JOIN_EN -/

@[simp] theorem State.stageStep_settings (s : State) :
    settings s.stageStep.regs.eff = settings s.regs.eff := by simp [State.stageStep]

@[simp] theorem State.joinOff_settings (s : State) :
    settings s.joinOff.regs.eff = settings s.regs.eff := by
  simp only [State.joinOff]
  (repeat' split) <;> simp

/-! ### Tasks and folds -/

@[simp] theorem State.takeCells_settings (s : State) (f n : Nat) :
    settings (s.takeCells f n).regs.eff = settings s.regs.eff := by
  simp only [State.takeCells]
  split <;> simp

@[simp] theorem State.level_settings (s : State) (f old new : Nat) (popped : Bool) :
    settings (s.level f old new popped).1.regs.eff = settings s.regs.eff := by simp [State.level]

@[simp] theorem State.emptyFold_settings (s : State) (f : Nat) (flush : Bool) :
    settings (s.emptyFold f flush).1.regs.eff = settings s.regs.eff := by simp [State.emptyFold]

@[simp] theorem State.pointerCheck_settings (s : State) (f : Nat) :
    settings (s.pointerCheck f).2.1.regs.eff = settings s.regs.eff := by
  unfold State.pointerCheck
  split <;> simp

@[simp] theorem State.landTask_settings (s : State) (d : Nat) (t : Task) (why : Nat) :
    settings (s.landTask d t why).1.regs.eff = settings s.regs.eff := by
  unfold State.landTask State.putTask
  split <;> simp

theorem State.place_settings (s : State) (t : Task) (p : State × List FieldEvent) (e : s.place t = some p) :
    settings p.1.regs.eff = settings s.regs.eff := by
  unfold State.place at e
  dsimp only at e
  split at e
  · split at e
    · cases e
      simp
    · cases e
  · split at e
    · cases e
    · cases e
      simp

theorem State.enterStile_settings (s : State) (t : Task) (wish : StileWish) (p : State × Task) (e : s.enterStile t wish = some p) :
    settings p.1.regs.eff = settings s.regs.eff := by
  unfold State.enterStile at e
  dsimp only at e
  split at e
  · cases e
  · split at e
    · cases e
    · cases e
      simp

@[simp] theorem State.waitTask_settings (s : State) (t : Task) (stile : Bool) :
    settings (s.waitTask t stile).regs.eff = settings s.regs.eff := by simp [State.waitTask]

@[simp] theorem State.createStep_settings (s : State) (t : Task) :
    settings (s.createStep t).1.regs.eff = settings s.regs.eff := by
  simp only [State.createStep]
  split
  · simp
  · split
    · simp
    · next he =>
      rw [show settings s.regs.eff = _ from (by
        split at he
        · exact (State.enterStile_settings _ _ _ _ he).symm
        · cases he
          rfl)]
      split
      · next hp => exact State.place_settings _ _ _ hp
      · simp

@[simp] theorem State.fire_settings (n : Nat) (es : List FieldEvent) (s : State) :
    settings (State.fire n es s).regs.eff = settings s.regs.eff := by
  induction n generalizing es s with
  | zero => rfl
  | succ n ih =>
    cases es with
    | nil => rfl
    | cons e es =>
      simp only [State.fire, ih, State.eventStep]
      split <;> simp

@[simp] theorem State.flushGather_settings (s : State) (c : InCycle) :
    settings (s.flushGather c).regs.eff = settings s.regs.eff := by
  simp [State.flushGather, State.postEntry, State.setIpwq, State.create, State.events]

/-! ### Twin operation -/

/-- The captures of the VME interface are those of unit 5. -/
@[simp] theorem State.capture_settings (s : State) (code : Nat) (j : VJob) :
    settings (s.capture code j.cap).regs.eff = settings s.regs.eff :=
  settings_of_regsBut (State.RegsBut.capture (.refl s (capRegs 5)) code j.cap (fun _ hk => hk)) (by decide)

@[simp] theorem State.vmeEnd_settings (s : State) (d status bytesDone : Nat) (payload : List Byte) :
    settings (s.vmeEnd d status bytesDone payload).regs.eff = settings s.regs.eff := by
  simp only [State.vmeEnd, State.taskBoundary]
  (repeat' split) <;> simp

/-- A piece that ends in error ends its request; no piece follows it. -/
theorem State.pieceEnded_settings (s : State) (d status : Nat) (h : status ≠ St.OK) :
    settings (s.pieceEnded d status).regs.eff = settings s.regs.eff := by
  simp only [State.pieceEnded, if_pos h]
  split
  · simp
  · rfl

@[simp] theorem State.pieceOff_settings (s : State) (d : Nat) :
    settings (s.pieceOff d).regs.eff = settings s.regs.eff := by
  simp only [State.pieceOff, State.pieceEnded_settings _ d St.VME_ARB_TIMEOUT (by decide), State.raiseCap]
  (repeat' split) <;> simp

@[simp] theorem State.vmeCut_settings (s : State) :
    settings s.vmeCut.regs.eff = settings s.regs.eff := by
  have hcut : ∀ (s : State) (d : Nat), settings (s.pieceEnded d St.RETRY_UNSAFE).regs.eff = settings s.regs.eff :=
    fun s d => s.pieceEnded_settings d _ (by decide)
  simp only [State.vmeCut]
  (repeat' split) <;> simp -implicitDefEqProofs [hcut]

@[simp] theorem State.toStandby_settings (s : State) (sync : Bool) :
    settings (s.toStandby sync).regs.eff = settings s.regs.eff := by simp [State.toStandby]

@[simp] theorem State.mirrorStop_settings (s : State) :
    settings s.mirrorStop.regs.eff = settings s.regs.eff := by simp [State.mirrorStop]

/-- TWN_CTL.EN has been written. -/
theorem State.twnEnable_settings (s : State) (on : Bool) (h : s.rd F.TWN_CTL_EN = b2n on) :
    settings (s.twnEnable on).regs.eff = settings s.regs.eff := by
  cases on with
  | false => simpa [State.twnEnable] using s.wr_same_settings F.TWN_CTL_EN 0 (by decide) (by decide) h
  | true => simpa [State.twnEnable, State.outputsOff] using s.wr_same_settings F.TWN_CTL_EN 1 (by decide) (by decide) h

@[simp] theorem State.twnRearm_settings (s : State) :
    settings s.twnRearm.regs.eff = settings s.regs.eff := by simp [State.twnRearm]

@[simp] theorem State.twnResume_settings (s : State) :
    settings s.twnResume.regs.eff = settings s.regs.eff := by simp [State.twnResume]

@[simp] theorem State.twnYield_settings (s : State) :
    settings s.twnYield.regs.eff = settings s.regs.eff := by simp [State.twnYield]

end Sys2Proof.Machine
end

section
/-! SUPPORT. A write of a register with STATIC fields (R437): which registers these are, what the write leaves in their fields, and
that what it brings about neither changes these fields again nor takes back the report of a late write. -/

namespace Sys2Proof.Machine

/-! ### The registers with STATIC fields -/

/-- Those whose write brings about nothing. -/
def quietOffs : List Nat :=
  [0x300, 0x40C, 0x5808, 0x5810, 0x5840, 0x5844, 0x7000, 0x7804, 0x7820, 0x7824, 0x9820, 0x9824, 0x9828, 0x982C, 0x9830, 0x9834,
    0x9838, 0x983C, 0x9840, 0x9844]

/-- The offsets of all: those whose settings other units read back, two whose write acts elsewhere only, and the quiet ones. -/
def staticOffs : List Nat := settingRegs.map (·.1) ++ [K.VME_SYSCTL, K.SVC_CTL] ++ quietOffs

/-- A row with a STATIC field stands for such offsets alone. -/
def RegRow.staticListed (r : RegRow) : Bool :=
  !r.fields.any (fun f => f.cls == .static) ||
    (r.count2 == 1 && (List.range r.count).all (fun i => staticOffs.contains (r.base + r.stride * i)))

theorem all_staticListed_ite {c : Prop} [Decidable c] {a b : List RegRow} (ha : a.all RegRow.staticListed = true)
    (hb : b.all RegRow.staticListed = true) : (if c then a else b).all RegRow.staticListed = true := by
  split
  · exact ha
  · exact hb

theorem regRows_staticListed (off : Nat) : (regRows off).all RegRow.staticListed = true := by
  unfold regRows
  repeat' apply all_staticListed_ite
  all_goals decide +kernel

/-- The offsets of a row of one dimension. -/
theorem RegRow_at_offset (r : RegRow) (off : Nat) (h : RegRow_at r off = true) (h2 : r.count2 = 1) :
    ∃ i < r.count, off = r.base + r.stride * i := by
  simp only [RegRow_at, h2, if_true, Bool.and_eq_true, decide_eq_true_eq] at h
  obtain ⟨hb, hrest⟩ := h
  split at hrest
  · next h1 =>
    have hd : off - r.base = 0 := by simpa using hrest
    exact ⟨0, by omega, by omega⟩
  · simp only [Bool.and_eq_true, decide_eq_true_eq, beq_iff_eq] at hrest
    have hdiv := Nat.div_add_mod (off - r.base) r.stride
    exact ⟨(off - r.base) / r.stride, hrest.1, by omega⟩

theorem mem_staticOffs {off : Nat} {r : RegRow} {f : FieldRow} (hr : regAt off = some r) (hm : f ∈ r.fields) (hc : f.cls = .static) :
    off ∈ staticOffs := by
  have hlisted := List.all_eq_true.mp (regRows_staticListed off) r (List.mem_of_find?_eq_some hr)
  have hany : r.fields.any (fun f => f.cls == .static) = true := List.any_eq_true.mpr ⟨f, hm, by simp [hc]⟩
  simp only [RegRow.staticListed, hany, Bool.not_true, Bool.false_or, Bool.and_eq_true, beq_iff_eq] at hlisted
  obtain ⟨i, hi, rfl⟩ := RegRow_at_offset r off (List.find?_some (p := fun r => RegRow_at r off) hr) hlisted.1
  simpa using List.all_eq_true.mp hlisted.2 i (List.mem_range.mpr hi)

/-- What holds of each of these registers, looked up one by one. -/
theorem of_staticOffs {off : Nat} {r : RegRow} (h : off ∈ staticOffs) (hr : regAt off = some r) (p : Nat → RegRow → Bool)
    (hp : staticOffs.all (fun o => (regAt o).all (p o)) = true) : p off r = true := by
  have hoff := List.all_eq_true.mp hp off h
  rwa [hr] at hoff

theorem static_fieldsOk {off : Nat} {r : RegRow} (h : off ∈ staticOffs) (hr : regAt off = some r) : fieldsOk r.fields = true :=
  of_staticOffs h hr (fun _ r => fieldsOk r.fields) (by decide)

/-- CAD_CTL alone has STAGED fields too. -/
theorem static_staged {off : Nat} {r : RegRow} (h : off ∈ staticOffs) (hr : regAt off = some r) (hs : r.hasStaged = true) :
    off = K.CAD_CTL := by
  simpa [hs] using of_staticOffs h hr (fun o r => !r.hasStaged || o == K.CAD_CTL) (by decide)

/-! ### What lands -/

theorem Landing.field_late_of_late (halted staged : Bool) (v : Word) (l : Landing) (f : FieldRow) (h : l.late = true) :
    (Landing.field halted staged v l f).late = true := by
  simp only [Landing.field]
  (repeat' split) <;> simp [h]

theorem Landing.foldl_late_of_late (halted staged : Bool) (v : Word) (fs : List FieldRow) (l : Landing) (h : l.late = true) :
    (fs.foldl (Landing.field halted staged v) l).late = true := by
  induction fs generalizing l with
  | nil => exact h
  | cons f fs ih => exact ih _ (Landing.field_late_of_late _ _ _ _ _ h)

/-- A field with a new value is late where it is STATIC and its group not halted, unless R9 refuses the value. -/
theorem Landing.foldl_static_late (staged : Bool) (v : Word) (f : FieldRow) (fs : List FieldRow) (l : Landing)
    (hok : fieldsOk fs = true) (hm : f ∈ fs) (ha : f.acc = .rw) (hc : f.cls = .static)
    (hn : bitsOf v f.hi f.lo ≠ bitsOf l.eff f.hi f.lo) (hr : (fs.foldl (Landing.field false staged v) l).range = false) :
    (fs.foldl (Landing.field false staged v) l).late = true := by
  induction fs generalizing l with
  | nil => simp at hm
  | cons g fs ih =>
    obtain ⟨hg, hap, hok'⟩ := fieldsOk_cons hok
    by_cases hfg : f = g
    · subst hfg
      rw [List.foldl_cons]
      refine Landing.foldl_late_of_late _ _ _ _ _ ?_
      by_cases hv : f.min ≤ bitsOf v f.hi f.lo ∧ bitsOf v f.hi f.lo ≤ f.max
      · simp [Landing.field, ha, hc, hn, hv]
      · rw [List.foldl_cons, Landing.field_refused _ _ _ _ _ ha (by simp [hc]) hn hv,
          Landing.foldl_range_of_range _ _ _ _ _ rfl] at hr
        exact absurd hr (by decide)
    · have hm' := (List.mem_cons.mp hm).resolve_left hfg
      refine ih _ hok' hm' ?_ hr
      rwa [Landing.field_other _ _ _ _ _ _ hg (fieldsOk_bounds hok' hm').1 (hap f hm')]

/-- It keeps its value. -/
theorem Landing.foldl_static_keep (staged : Bool) (v : Word) (f : FieldRow) (fs : List FieldRow) (l : Landing)
    (hok : fieldsOk fs = true) (hm : f ∈ fs) (ha : f.acc = .rw) (hc : f.cls = .static) :
    bitsOf (fs.foldl (Landing.field false staged v) l).eff f.hi f.lo = bitsOf l.eff f.hi f.lo := by
  obtain ⟨l', hbits, hfold⟩ := Landing.foldl_field false staged v f fs l hok hm
  rw [hfold, ← hbits]
  simp only [Landing.field, ha, hc]
  (repeat' split) <;> simp_all

theorem Landing.field_shd_other (halted staged : Bool) (v : Word) (l : Landing) (f g : FieldRow) (hf : f.lo ≤ f.hi ∧ f.hi < 32)
    (hg : g.lo ≤ g.hi) (ha : f.apart g = true) :
    bitsOf (Landing.field halted staged v l f).shd g.hi g.lo = bitsOf l.shd g.hi g.lo := by
  have ho : g.hi < f.lo ∨ f.hi < g.lo := by
    simp only [FieldRow.apart, decide_eq_true_eq] at ha
    omega
  have hput := fun x => bitsOf_setBits_other l.shd f.hi f.lo x g.hi g.lo hf.1 hf.2 ho hg
  simp only [Landing.field]
  (repeat' split) <;> simp [hput]

/-- A STAGED field whose value R9 accepts takes it in the shadow. -/
theorem Landing.foldl_staged (halted : Bool) (v : Word) (f : FieldRow) (fs : List FieldRow) (l : Landing)
    (hok : fieldsOk fs = true) (hm : f ∈ fs) (ha : f.acc = .rw) (hc : f.cls = .staged)
    (hr : (fs.foldl (Landing.field halted true v) l).range = false) :
    bitsOf (fs.foldl (Landing.field halted true v) l).shd f.hi f.lo = bitsOf v f.hi f.lo := by
  induction fs generalizing l with
  | nil => simp at hm
  | cons g fs ih =>
    obtain ⟨hg, hap, hok'⟩ := fieldsOk_cons hok
    by_cases hfg : f = g
    · subst hfg
      have hrest : ∀ (gs : List FieldRow) (l : Landing), fieldsOk gs = true → (∀ g ∈ gs, f.apart g = true) →
          bitsOf (gs.foldl (Landing.field halted true v) l).shd f.hi f.lo = bitsOf l.shd f.hi f.lo := by
        intro gs
        induction gs with
        | nil => exact fun _ _ _ => rfl
        | cons g gs ih =>
          intro l hgs hapart
          obtain ⟨hg', -, hgs'⟩ := fieldsOk_cons hgs
          rw [List.foldl_cons, ih _ hgs' (fun x hx => hapart x (List.mem_cons_of_mem _ hx))]
          exact Landing.field_shd_other _ _ _ _ _ _ hg' hg.1 (FieldRow.apart_symm _ _ (hapart g (by simp)))
      rw [List.foldl_cons, hrest fs _ hok' hap]
      have hone : (Landing.field halted true v l f).range = false := by
        refine Bool.eq_false_iff.mpr (fun hx => ?_)
        rw [List.foldl_cons, Landing.foldl_range_of_range _ _ _ _ _ hx] at hr
        exact absurd hr (by decide)
      simp only [Landing.field, ha, hc] at hone ⊢
      split
      · simp_all
      · split
        · exact (bitsOf_setBits _ _ _ _ hg.1 hg.2).trans (Nat.mod_eq_of_lt (bitsOf_lt _ _ _))
        · simp_all
    · exact ih _ hok' ((List.mem_cons.mp hm).resolve_left hfg) hr

/-- Whether STAGED fields land now makes no difference to the effective word and to what is late. -/
theorem Landing.foldl_staged_eff (halted : Bool) (v : Word) (fs : List FieldRow) (l l' : Landing) (he : l.eff = l'.eff)
    (hl : l.late = l'.late) :
    (fs.foldl (Landing.field halted false v) l).eff = (fs.foldl (Landing.field halted true v) l').eff ∧
      (fs.foldl (Landing.field halted false v) l).late = (fs.foldl (Landing.field halted true v) l').late := by
  induction fs generalizing l l' with
  | nil => exact ⟨he, hl⟩
  | cons f fs ih =>
    refine ih _ _ ?_ ?_
    all_goals
      simp only [Landing.field, he]
      (repeat' split) <;> simp_all

/-- A write in which nothing is out of range: the rules over several fields refuse nothing either. -/
theorem State.landWith_of_range {s ctx : State} {fs : List FieldRow} {off k : Nat} {v : Word} {halted staged : Bool}
    (h : (s.landWith ctx fs off k v halted staged).range = false) :
    s.landWith ctx fs off k v halted staged = s.fieldsTake fs k v halted staged ∧ (s.fieldsTake fs k v halted staged).range = false := by
  simp only [State.landWith, Bool.or_eq_false_iff, bne_eq_false_iff_eq] at h ⊢
  obtain ⟨⟨hr, he⟩, hsh⟩ := h
  exact ⟨by simp only [he, hsh, hr, bne_self_eq_false, Bool.or_self]; rw [← hr], hr⟩

/-- A field that takes what is written, R9 accepting it, or has the value already. -/
theorem State.fieldsTake_eff (s : State) (fs : List FieldRow) (k : Nat) (v : Word) (halted staged : Bool) (f : FieldRow)
    (hok : fieldsOk fs = true) (hm : f ∈ fs) (ha : f.acc = .rw) (hr : (s.fieldsTake fs k v halted staged).range = false)
    (hc : f.cls = .live ∨ (f.cls = .static ∧ halted = true) ∨ bitsOf v f.hi f.lo = bitsOf (s.reg k) f.hi f.lo) :
    bitsOf (s.fieldsTake fs k v halted staged).eff f.hi f.lo = bitsOf v f.hi f.lo := by
  by_cases hn : bitsOf v f.hi f.lo = bitsOf (s.reg k) f.hi f.lo
  · exact (Landing.foldl_keep _ _ _ _ _ _ hok hm (.inr (.inr (.inr ⟨ha, .inr hn⟩)))).trans hn.symm
  · have hv : f.cls ≠ .staged → f.min ≤ bitsOf v f.hi f.lo ∧ bitsOf v f.hi f.lo ≤ f.max := by
      refine fun hcs => Decidable.byContradiction (fun hv => ?_)
      have hrange := (Landing.foldl_refused halted staged v f fs ⟨s.reg k, s.shd k, false, false⟩ hok hm ha hcs hn hv).1
      exact absurd (hr.symm.trans hrange) (by decide)
    rcases hc with hc | ⟨hc, rfl⟩ | hc
    · exact Landing.foldl_live _ _ _ _ _ _ hok hm ha hc (hv (by simp [hc]))
    · exact Landing.foldl_static _ _ _ _ _ hok hm ha hc (hv (by simp [hc]))
    · exact absurd hc hn

/-- In CAD_CTL no rule over several fields looks at STAGED ones: held or not, the write leaves the same in the effective word. -/
theorem State.landing_held (s : State) (r : RegRow) (v : Word) :
    (s.landing r K.CAD_CTL K.CAD_CTL v false).eff = (s.landing r K.CAD_CTL K.CAD_CTL v true).eff ∧
      (s.landing r K.CAD_CTL K.CAD_CTL v false).late = (s.landing r K.CAD_CTL K.CAD_CTL v true).late := by
  obtain ⟨he, hl⟩ := Landing.foldl_staged_eff (s.halted (haltGroup K.CAD_CTL)) v r.fields
    ⟨s.reg K.CAD_CTL, s.shd K.CAD_CTL, false, false⟩ _ rfl rfl
  have hx : ∀ e sh sh', s.crossBad K.CAD_CTL K.CAD_CTL e sh = s.crossBad K.CAD_CTL K.CAD_CTL e sh' := by
    intro e sh sh'
    simp [State.crossBad, State.crossMid, K.CAD_CTL]
  refine ⟨?_, hl⟩
  simp only [State.landing, State.landWith, State.fieldsTake]
  rw [he, hx _ _ (List.foldl (Landing.field (s.halted (haltGroup K.CAD_CTL)) true v)
    ⟨s.reg K.CAD_CTL, s.shd K.CAD_CTL, false, false⟩ r.fields).shd]

end Sys2Proof.Machine
end

section
/-! SUPPORT. What the write of a register with STATIC fields brings about (R437): it neither changes the register's fields again nor
takes back the report of a late write. -/

namespace Sys2Proof.Machine

/-! ### Faults raised stay raised -/

/-- Every fault raised in `s` is still raised in `t`. -/
def Told (s t : State) : Prop := s.flt.raised ⊆ t.flt.raised

section
variable {s t u : State}

theorem Told.refl (s : State) : Told s s := List.Subset.refl _

theorem Told.trans (h : Told s t) (k : Told t u) : Told s u := List.Subset.trans h k

theorem Told.of_flt (h : Told s t) (e : u.flt = t.flt) : Told s u := by
  unfold Told
  rw [e]
  exact h

theorem Told.keep {m : Nat} (h : Told s t) (k : Keep m t u) (hm : m.testBit 1 = false := by decide) : Told s u := h.of_flt (k.flt hm)

theorem Told.raise (h : Told s t) (code src : Nat) (ps : List Nat) : Told s (t.raise code src ps) :=
  h.trans (List.subset_append_left _ _)

theorem Told.ite {c : Prop} [Decidable c] (h : Told s t) (k : Told s u) : Told s (if c then t else u) := by
  split
  · exact h
  · exact k

theorem Told.foldl {α : Type} {f : State → α → State} (h : Told s t) (hf : ∀ x a, Told s x → Told s (f x a)) (l : List α) :
    Told s (l.foldl f t) := by
  induction l generalizing t with
  | nil => exact h
  | cons a l ih => exact ih (hf t a h)

theorem Told.ihCheck (h : Told s t) : Told s t.ihCheck := by
  have hwait : Told s (if t.vme.waiting.contains VOwner.ih then t.unwait .ih else t) :=
    .ite (h.keep (State.unwait_keep (.refl _) (.refl _ t))) h
  unfold State.ihCheck
  split
  · exact hwait
  · refine .ite (.ite hwait ((hwait.of_flt rfl).raise _ _ _)) (.ite h (.ite h ?_))
    refine Told.keep ?_ (State.requestTenure_keep (.refl _) (.refl _ _))
    exact h.of_flt rfl

theorem Told.issueRec (h : Told s t) (p : Packet) (r : TagRec) : Told s (t.issueRec p r).st := by
  unfold State.issueRec
  split
  · exact h
  · split
    · dsimp only
      exact (h.raise _ _ _).keep (State.bump_keep (.refl _) (.refl _ _))
    · split
      · exact h.of_flt rfl
      · split
        · next e => exact h.keep (State.sendTagged_keep e (.refl _) (.refl _ t))
        · exact h.of_flt rfl

theorem Told.flushEnded (h : Told s t) (addr len status bytesDone : Nat) : Told s (t.flushEnded addr len status bytesDone) := by
  unfold State.flushEnded
  split
  · exact h
  · refine Told.keep (.ite h (.foldl (.foldl ?_ (fun x k hx => ?_) _) (fun x k hx => ?_) _)) (State.setWc_keep (.refl _) (.refl _ _))
    · exact (h.keep (State.bumpN_keep (.refl _) (.refl _ t))).raise _ _ _
    · exact hx.keep (State.storeUnsent_keep (.refl _) (.refl _ x))
    · exact hx.keep (State.setAgent_keep (.refl _) (.refl _ x))

theorem Told.flushLine (h : Told s t) (l : WcLine) : Told s (t.flushLine l) := by
  unfold State.flushLine
  refine .ite h (.foldl ?_ (fun x r hx => ?_) _)
  · exact (h.keep (State.setWc_keep (.refl _) (.refl _ t))).keep (State.bump_keep (.refl _) (.refl _ _))
  · dsimp only
    split
    · exact ((hx.issueRec _ _).keep (State.storeUnsent_keep (.refl _) (.refl _ _))).flushEnded _ _ _ _
    · exact (hx.issueRec _ _).foldl (fun y k hy => hy.keep (State.noteNode_keep (.refl _) (.refl _ y))) _

theorem Told.flushWhere (h : Told s t) (want : WcLine → Bool) : Told s (t.flushWhere want) :=
  h.foldl (fun _ l hx => hx.flushLine l) _

theorem Told.pfWarn (h : Told s t) : Told s t.pfWarn := by
  have hst : Told s (t.wr F.CHIP_PF_STAT_STATE 1) := h.keep (State.wr_keep (.refl _) (.refl _ t))
  unfold State.pfWarn
  refine .ite (Told.flushWhere ?_ _) (h.of_flt rfl)
  exact hst.of_flt rfl

theorem Told.warnStart (h : Told s t) : Told s t.warnStart := by
  unfold State.warnStart
  refine .foldl (Told.pfWarn (Told.raise (Told.keep ?_ (State.bump_keep (.refl _) (.refl _ _))) _ _ _)) (fun x n hx => ?_) _
  · exact (h.keep (State.wr_keep (.refl _) (.refl _ t))).keep (State.wr_keep (.refl _) (.refl _ _))
  · exact .ite ((hx.keep (State.slotLow_keep (.refl _) (.refl _ x))).keep (State.setPslot_keep (.refl _) (.refl _ _))) hx

theorem Told.feedJudge (h : Told s t) (x : Nat) : Told s (t.feedJudge x) := by
  have hok : Told s (t.wr (F.feedLow x) 0) := h.keep (State.wr_keep (.refl _) (.refl _ t))
  have hlow : Told s ((t.wr (F.feedLow x) 1).raise Code.PWR_FEED_LOW (Src.feed x) []) :=
    (h.keep (State.wr_keep (.refl _) (.refl _ t))).raise _ _ _
  unfold State.feedJudge
  exact .ite (.ite hok h) (.ite (.ite hlow.warnStart hlow) h)

theorem Told.feedsJudge (h : Told s t) : Told s t.feedsJudge := (h.feedJudge 0).feedJudge 1

theorem Told.twnYield (h : Told s t) : Told s t.twnYield := by
  unfold State.twnYield
  exact .ite (.ite (h.keep (State.wr_keep (.refl _) (.refl _ t))) (h.raise _ _ _)) h

end

/-! ### What a write brings about -/

theorem State.wroteAfter_quiet (t : State) (off : Nat) (old new v : Word) (h : off ∈ quietOffs) :
    t.wroteAfter off off old new v = t := by
  simp only [quietOffs, List.mem_cons, List.not_mem_nil, or_false] at h
  rcases h with rfl | rfl | rfl | rfl | rfl | rfl | rfl | rfl | rfl | rfl | rfl | rfl | rfl | rfl | rfl | rfl | rfl | rfl | rfl | rfl
  all_goals rfl

theorem State.wroteAfter_wcCtl (t : State) (old new v : Word) : t.wroteAfter K.CHIP_WC_CTL K.CHIP_WC_CTL old new v =
    if bitOf old 31 && !bitOf new 31 then t.wcOff else t := by
  simp [State.wroteAfter, State.afterLow, K.CHIP_WC_CTL]

theorem State.wroteAfter_netCtl (t : State) (old new v : Word) : t.wroteAfter K.NET_CTL K.NET_CTL old new v =
    if bitOf old 31 && !bitOf new 31 then t.joinOff else t.stageStep := by
  simp [State.wroteAfter, State.afterLow, K.NET_CTL]

theorem State.wroteAfter_vmeCtl (t : State) (old new v : Word) : t.wroteAfter K.VME_CTL K.VME_CTL old new v =
    let t := if !bitOf old 31 && bitOf new 31 then { t with vin := { t.vin with masterOffRaised := false } } else t
    (if t.vme.bbsy && t.vme.owner.isNone then t.idleBus else t).ihCheck := by
  simp [State.wroteAfter, State.afterEdge, K.VME_CTL]

theorem State.wroteAfter_sysctl (t : State) (old new v : Word) : t.wroteAfter K.VME_SYSCTL K.VME_SYSCTL old new v =
    if bitOf v 24 then t.sysrstPulse else t := by
  simp [State.wroteAfter, State.afterEdge, K.VME_SYSCTL]

theorem State.wroteAfter_ihCtl (t : State) (old new v : Word) : t.wroteAfter K.VME_IH_CTL K.VME_IH_CTL old new v = t.ihCheck := by
  simp [State.wroteAfter, State.afterEdge, K.VME_IH_CTL]

theorem State.wroteAfter_intr (t : State) (old new v : Word) : t.wroteAfter K.VME_INTR K.VME_INTR old new v =
    let t := if old != new then t.mirrorReg 3 K.VME_INTR new else t
    if bitsOf old 30 28 ≠ 0 ∧ bitsOf new 30 28 = 0 then t.intrDrop else t := by
  simp [State.wroteAfter, State.afterEdge, K.VME_INTR]

theorem State.wroteAfter_rora (t : State) (old new v : Word) : t.wroteAfter K.VME_INTR_RORA K.VME_INTR_RORA old new v =
    if old != new then t.mirrorReg 3 K.VME_INTR_RORA new else t := by
  simp [State.wroteAfter, State.afterEdge, K.VME_INTR_RORA]

theorem State.wroteAfter_twnCtl (t : State) (old new v : Word) : t.wroteAfter K.TWN_CTL K.TWN_CTL old new v =
    let t := if bitOf old 31 != bitOf new 31 then t.twnEnable (bitOf new 31) else t
    let t := if bitOf v 24 then t.twnYield else t
    let t := if bitOf v 23 then t.twnResume else t
    if bitOf v 22 then t.twnRearm else t := by
  simp [State.wroteAfter, State.afterHigh, K.TWN_CTL]

theorem State.wroteAfter_pwrCtl (t : State) (old new v : Word) : t.wroteAfter K.PWR_CTL K.PWR_CTL old new v =
    if !bitOf old 31 && bitOf new 31 then t.pwrEnable.feedsJudge else t.feedsJudge := by
  simp [State.wroteAfter, State.afterHigh, K.PWR_CTL]

theorem State.wroteAfter_pfw (t : State) (old new v : Word) : t.wroteAfter K.PWR_PFW K.PWR_PFW old new v = t.feedsJudge := by
  simp [State.wroteAfter, State.afterHigh, K.PWR_PFW]

theorem State.wroteAfter_svcCtl (t : State) (old new v : Word) : t.wroteAfter K.SVC_CTL K.SVC_CTL old new v =
    if bitOf v 31 then t.wr F.SVC_STAT_LOCKED 1 else t := by
  simp [State.wroteAfter, State.afterHigh, K.SVC_CTL]

/-- The top bit of a register that holds `w`. -/
theorem State.rd_top {s : State} {k : Nat} {w : Word} (h : s.reg k = w) : s.rd ⟨k, 31, 31⟩ = b2n (bitOf w 31) := by
  rw [State.rd, h]
  exact (Nat.toNat_testBit w.toNat 31).symm.trans (by rw [b2n, bitOf]; cases w.toNat.testBit 31 <;> rfl)

/-- The settings that a write leaves are not changed by what it brings about. -/
theorem State.wroteAfter_settings (t : State) (off : Nat) (old new v : Word) (h : off ∈ settingRegs.map (·.1)) (hn : t.reg off = new) :
    settings (t.wroteAfter off off old new v).regs.eff = settings t.regs.eff := by
  have htop := State.rd_top hn
  simp only [settingRegs, List.map_cons, List.map_nil, List.mem_cons, List.not_mem_nil, or_false] at h
  rcases h with rfl | rfl | rfl | rfl | rfl | rfl | rfl | rfl | rfl
  · rw [State.wroteAfter_wcCtl]
    split
    · next hfell =>
      have hnew : bitOf new 31 = false := by simp_all
      exact t.wcOff_settings (by rw [hnew] at htop; exact htop)
    · rfl
  · rw [State.wroteAfter_netCtl]
    split <;> simp
  · rw [State.wroteAfter_vmeCtl]
    simp
  · rw [State.wroteAfter_ihCtl]
    simp
  · rw [State.wroteAfter_intr]
    simp
  · rw [State.wroteAfter_rora]
    simp
  · rw [State.wroteAfter_twnCtl]
    simp [t.twnEnable_settings _ htop]
  · rw [State.wroteAfter_pwrCtl]
    split
    · next hrose =>
      have hnew : bitOf new 31 = true := by simp_all
      rw [State.feedsJudge_settings]
      exact t.pwrEnable_settings (by rw [hnew] at htop; exact htop)
    · simp
  · rw [State.wroteAfter_pfw]
    simp

/-- A field that the set-up space can write lies in bits that hold settings. -/
theorem static_mask {off : Nat} {r : RegRow} {f : FieldRow} (h : off ∈ staticOffs) (hr : regAt off = some r) (hm : f ∈ r.fields)
    (ha : f.acc = .rw) {m : Word} (hk : (off, m) ∈ settingRegs) : ∀ i, f.lo ≤ i → i ≤ f.hi → m.toNat.testBit i = true := by
  intro i hlo hhi
  have hi := (fieldsOk_bounds (static_fieldsOk h hr) hm).2
  have hall := of_staticOffs h hr (fun o r => settingRegs.all (fun q => q.1 != o || r.fields.all (fun f => f.acc != .rw ||
    (List.range 32).all (fun i => decide (i < f.lo) || decide (f.hi < i) || q.2.toNat.testBit i)))) (by decide +kernel)
  have hfield := List.all_eq_true.mp hall _ hk
  simp only [bne_self_eq_false, Bool.false_or] at hfield
  have hbits := List.all_eq_true.mp hfield f hm
  simp only [ha, bne_self_eq_false, Bool.false_or] at hbits
  have hbit := List.all_eq_true.mp hbits i (List.mem_range.mpr (by omega))
  simpa [Nat.not_lt.mpr hlo, Nat.not_lt.mpr hhi] using hbit

/-- The fields of the register written keep what the write has left in them. -/
theorem State.wroteAfter_field (t : State) (off : Nat) (old new v : Word) (r : RegRow) (f : FieldRow) (h : off ∈ staticOffs)
    (hr : regAt off = some r) (hm : f ∈ r.fields) (ha : f.acc = .rw) (hn : t.reg off = new) :
    bitsOf ((t.wroteAfter off off old new v).reg off) f.hi f.lo = bitsOf new f.hi f.lo := by
  have hoff := h
  simp only [staticOffs, List.mem_append] at hoff
  rcases hoff with (hset | hother) | hquiet
  · obtain ⟨⟨k, m⟩, hkm, rfl⟩ := List.mem_map.mp hset
    rw [bitsOf_of_settings (t.wroteAfter_settings _ old new v hset hn) hkm f.hi f.lo
      (fieldsOk_bounds (static_fieldsOk h hr) hm).1 (static_mask h hr hm ha hkm), hn]
  · have hreg : (t.wroteAfter off off old new v).reg off = t.reg off := by
      simp only [List.mem_cons, List.not_mem_nil, or_false] at hother
      rcases hother with rfl | rfl
      · rw [State.wroteAfter_sysctl]
        split
        · exact State.reg_of_regs t.sysrstPulse_regs _
        · rfl
      · rw [State.wroteAfter_svcCtl]
        split
        · exact reg_wr_other _ _ _ _ (by decide)
        · rfl
    rw [hreg, hn]
  · rw [t.wroteAfter_quiet off old new v hquiet, hn]

/-- What has been raised stays raised, where the write does not turn twin operation on or off. -/
theorem State.wroteAfter_told (t : State) (off : Nat) (old new v : Word) (h : off ∈ staticOffs)
    (htwn : off = K.TWN_CTL → bitOf old 31 = bitOf new 31) : Told t (t.wroteAfter off off old new v) := by
  have ht := Told.refl t
  simp only [staticOffs, settingRegs, List.map_cons, List.map_nil, List.mem_append, List.mem_cons, List.not_mem_nil, or_false] at h
  rcases h with ((rfl | rfl | rfl | rfl | rfl | rfl | rfl | rfl | rfl) | rfl | rfl) | hquiet
  · rw [State.wroteAfter_wcCtl]
    exact .ite (Told.flushWhere (ht.keep (State.wr_keep (.refl _) (.refl _ t))) _) ht
  · rw [State.wroteAfter_netCtl]
    exact .ite (ht.keep (State.joinOff_keep (.refl _) (.refl _ t))) (ht.keep (State.stageStep_keep (.refl _) (.refl _ t)))
  · rw [State.wroteAfter_vmeCtl]
    have hoff : Told t (if (!bitOf old 31 && bitOf new 31) = true then { t with vin := { t.vin with masterOffRaised := false } } else t) :=
      .ite (ht.of_flt rfl) ht
    exact Told.ihCheck (.ite (hoff.keep (State.idleBus_keep (.refl _) (.refl _ _))) hoff)
  · exact ht.ihCheck
  · rw [State.wroteAfter_intr]
    have hmirror : Told t (if (old != new) = true then t.mirrorReg 3 K.VME_INTR new else t) :=
      .ite (ht.keep (State.mirrorReg_keep (.refl _) (.refl _ t))) ht
    exact .ite (hmirror.keep (State.intrDrop_keep (.refl _) (.refl _ _))) hmirror
  · rw [State.wroteAfter_rora]
    exact .ite (ht.keep (State.mirrorReg_keep (.refl _) (.refl _ t))) ht
  · rw [State.wroteAfter_twnCtl, htwn rfl, bne_self_eq_false]
    have hyield : Told t (if bitOf v 24 = true then t.twnYield else t) := .ite ht.twnYield ht
    have hresume : Told t (if bitOf v 23 = true then (if bitOf v 24 = true then t.twnYield else t).twnResume
        else if bitOf v 24 = true then t.twnYield else t) :=
      .ite (hyield.keep (State.twnResume_keep (.refl _) (.refl _ _))) hyield
    exact .ite (hresume.keep (State.twnRearm_keep (.refl _) (.refl _ _))) hresume
  · rw [State.wroteAfter_pwrCtl]
    exact .ite (Told.feedsJudge (ht.keep (State.pwrEnable_keep (.refl _) (.refl _ t)))) ht.feedsJudge
  · exact ht.feedsJudge
  · rw [State.wroteAfter_sysctl]
    exact .ite (ht.keep (State.sysrstPulse_keep (.refl _) (.refl _ t))) ht
  · rw [State.wroteAfter_svcCtl]
    exact .ite (ht.keep (State.wr_keep (.refl _) (.refl _ t))) ht
  · rw [t.wroteAfter_quiet off old new v hquiet]
    exact ht

end Sys2Proof.Machine
end

section
/-! SUPPORT. A write of four bytes to a register with STATIC fields, as a whole (R437). -/

namespace Sys2Proof.Machine

/-- What the write takes: STAGED fields wait while the old bank retires (R441). -/
def State.takes (s : State) (r : RegRow) (off : Nat) (v : Word) : Landing :=
  s.landing r off off v (!(r.hasStaged && s.bit F.CHIP_COMMIT_STAT_RETIRING))

/-- The state with the register written and what was ignored and refused reported. -/
def State.reported (s : State) (r : RegRow) (off : Nat) (v : Word) (node agent : Nat) : State :=
  ((s.setReg off (s.takes r off v).eff).setShd off (s.takes r off v).shd).setupReport off v node agent (s.takes r off v).late
    (s.takes r off v).range (haltGroup off)

theorem State.reported_reg (s : State) (r : RegRow) (off : Nat) (v : Word) (node agent : Nat) :
    (s.reported r off v node agent).reg off = (s.takes r off v).eff := by
  rw [State.reported, State.reg_of_regs (State.setupReport_regs _ _ _ _ _ _ _ _), setReg_setShd_regs, if_pos rfl]

/-- A late write is reported with the parameters of R437. -/
theorem State.reported_late (s : State) (r : RegRow) (off : Nat) (v : Word) (node agent : Nat) (h : (s.takes r off v).late = true) :
    ∃ x ∈ (s.reported r off v node agent).flt.raised, x.code = Code.CFG_LATE ∧ x.src = Src.setup ∧
      x.params = [BitVec.ofNat 32 off, v, BitVec.ofNat 32 (node % 2048 * 65536 + agent % 256 * 256), BitVec.ofNat 32 (haltGroup off)] := by
  have hraise : ∀ u : State, ∃ x ∈ (u.raise Code.CFG_LATE Src.setup [off, v.toNat, node % 2048 * 65536 + agent % 256 * 256,
      haltGroup off]).flt.raised, x.code = Code.CFG_LATE ∧ x.src = Src.setup ∧ x.params = [BitVec.ofNat 32 off, v,
      BitVec.ofNat 32 (node % 2048 * 65536 + agent % 256 * 256), BitVec.ofNat 32 (haltGroup off)] := by
    intro u
    refine ⟨_, List.mem_append_right _ (List.mem_singleton_self _), rfl, rfl, ?_⟩
    have hv : BitVec.ofNat 32 v.toNat = v := by simp
    simp [fourParams, List.range_succ, getAt, hv]
  rw [State.reported, State.setupReport, if_pos h]
  obtain ⟨x, hx, hxp⟩ := hraise ((s.setReg off (s.takes r off v).eff).setShd off (s.takes r off v).shd)
  exact ⟨x, Told.ite ((Told.refl _).raise _ _ _) (Told.refl _) hx, hxp⟩

/-- Held or not, the write leaves the same in the effective word. -/
theorem State.takes_eff (s : State) (r : RegRow) (off : Nat) (v : Word) (h : off ∈ staticOffs) (hr : regAt off = some r) :
    (s.takes r off v).eff = (s.landing r off off v true).eff ∧ (s.takes r off v).late = (s.landing r off off v true).late := by
  unfold State.takes
  cases hh : r.hasStaged && s.bit F.CHIP_COMMIT_STAT_RETIRING with
  | false => exact ⟨rfl, rfl⟩
  | true =>
    obtain rfl := static_staged h hr (Bool.and_eq_true_iff.mp hh).1
    exact s.landing_held r v

/-- None of these registers clears under conditions of its own, and none is CHIP_HALT or part of a schedule. -/
theorem static_apart {off : Nat} (h : off ∈ staticOffs) :
    (¬ (0x8020 ≤ off ∧ off ≤ 0x8030) ∧ off ≠ 0x8064 ∧ ¬ (0x8400 ≤ off ∧ off < 0x84C0 ∧ off % 32 = 0)) ∧ off ≠ 0x410 ∧
      ¬ (0x7054 ≤ off ∧ off ≤ 0x705C) ∧ off ≠ 0x704C := by
  have hall : staticOffs.all (fun off => decide ((¬ (0x8020 ≤ off ∧ off ≤ 0x8030) ∧ off ≠ 0x8064 ∧
      ¬ (0x8400 ≤ off ∧ off < 0x84C0 ∧ off % 32 = 0)) ∧ off ≠ 0x410 ∧ ¬ (0x7054 ≤ off ∧ off ≤ 0x705C) ∧ off ≠ 0x704C)) = true := by
    decide
  exact of_decide_eq_true (List.all_eq_true.mp hall off h)

/-- The write of such a register lands, is reported, and brings about what the register calls for; where STAGED fields wait, a note of it
is kept beside. -/
theorem State.writeReg_static (s : State) (off : Nat) (v : Word) (node agent : Nat) (r : RegRow) (h : off ∈ staticOffs)
    (hr : regAt off = some r) :
    let t := (s.writeReg s none off off v node agent).st
    let u := (s.reported r off v node agent).wroteAfter off off (s.reg off) (s.takes r off v).eff v
    t.reg off = u.reg off ∧ t.shd off = u.shd off ∧ t.flt = u.flt := by
  obtain ⟨⟨hregion, hentry, hcap⟩, hhalt, hsch, hreload⟩ := static_apart h
  have hclear : s.clearWrite off off v = none := by
    rw [State.clearWrite, if_neg hregion, if_neg hentry, if_neg hcap]
  have htwn : (off == 0x410 && s.haltRefused (bitsOf v 6 0)) = false := by
    rw [beq_eq_false_iff_ne.mpr hhalt, Bool.false_and]
  unfold State.writeReg
  simp only [hr, hclear, htwn, Bool.or_false, Bool.false_eq_true, if_false, State.stagedAfter, hsch, hreload, false_and]
  split
  · exact ⟨rfl, rfl, rfl⟩
  · exact ⟨rfl, rfl, rfl⟩

/-- A write of four bytes to a register that stands once. -/
theorem setupWriteCmd_four (s : State) (off : Nat) (v : Word) (node agent : Nat) (r : RegRow) (hlt : off < 0x10000)
    (h4 : off % 4 = 0) (hr : regAt off = some r) (hw : r.win.selector = none) :
    setupWriteCmd off (leBytes 4 v.toNat) node agent s = (s.writeReg s none off off v node agent).st := by
  have hlen := length_leBytes 4 v.toNat
  have hsize : setupSizeOk off 4 = true := by simp [setupSizeOk, h4]
  rw [setupWriteCmd, if_neg (Nat.not_le.mpr hlt), hlen, if_pos hsize, s.setupWrite_four off _ node agent r hr hw hlen, leNum_leBytes]

section
variable {s : State} {off : Nat} {v : Word} {r : RegRow} (node agent : Nat)

/-- What a field reads after the write: what has landed in it. -/
theorem State.writeReg_static_field (h : off ∈ staticOffs) (hr : regAt off = some r) {f : FieldRow} (hm : f ∈ r.fields)
    (ha : f.acc = .rw) :
    bitsOf ((s.writeReg s none off off v node agent).st.reg off) f.hi f.lo = bitsOf (s.landing r off off v true).eff f.hi f.lo := by
  rw [(s.writeReg_static off v node agent r h hr).1, State.wroteAfter_field _ off _ _ v r f h hr hm ha (State.reported_reg _ _ _ _ _ _),
    (s.takes_eff r off v h hr).1]

/-- A field that takes what is written reads so after the write, nothing being out of range. -/
theorem State.writeReg_static_takes (h : off ∈ staticOffs) (hr : regAt off = some r)
    (hrange : (s.landing r off off v true).range = false) {f : FieldRow} (hm : f ∈ r.fields) (ha : f.acc = .rw)
    (hc : f.cls = .live ∨ (f.cls = .static ∧ s.halted (haltGroup off) = true) ∨ bitsOf v f.hi f.lo = bitsOf (s.reg off) f.hi f.lo) :
    bitsOf ((s.writeReg s none off off v node agent).st.reg off) f.hi f.lo = bitsOf v f.hi f.lo := by
  obtain ⟨heq, htakes⟩ := State.landWith_of_range hrange
  rw [State.writeReg_static_field node agent h hr hm ha, State.landing, heq]
  exact s.fieldsTake_eff _ _ _ _ _ f (static_fieldsOk h hr) hm ha htakes hc

/-- Outside a halt no STATIC field takes anything. -/
theorem State.landing_static_keep (h : off ∈ staticOffs) (hr : regAt off = some r)
    (hrange : (s.landing r off off v true).range = false) (hh : s.halted (haltGroup off) = false) {f : FieldRow} (hm : f ∈ r.fields)
    (ha : f.acc = .rw) (hc : f.cls = .static) :
    bitsOf (s.landing r off off v true).eff f.hi f.lo = bitsOf (s.reg off) f.hi f.lo := by
  rw [State.landing, (State.landWith_of_range hrange).1, hh]
  exact Landing.foldl_static_keep _ _ _ _ _ (static_fieldsOk h hr) hm ha hc

/-- Such a write is late where it would change a STATIC field. -/
theorem State.landing_static_late (h : off ∈ staticOffs) (hr : regAt off = some r)
    (hrange : (s.landing r off off v true).range = false) (hh : s.halted (haltGroup off) = false) {f : FieldRow} (hm : f ∈ r.fields)
    (ha : f.acc = .rw) (hc : f.cls = .static) (hn : bitsOf v f.hi f.lo ≠ bitsOf (s.reg off) f.hi f.lo) :
    (s.landing r off off v true).late = true := by
  obtain ⟨heq, htakes⟩ := State.landWith_of_range hrange
  rw [State.landing, heq]
  rw [hh] at htakes ⊢
  exact Landing.foldl_static_late _ _ _ _ _ (static_fieldsOk h hr) hm ha hc hn htakes

/-- The enable of twin operation is STATIC. -/
theorem twnCtl_en (h : off ∈ staticOffs) (hr : regAt off = some r) (ht : off = K.TWN_CTL) : fld 31 31 .rw .static ∈ r.fields := by
  have hany := of_staticOffs h hr (fun o r => o != K.TWN_CTL || r.fields.contains (fld 31 31 .rw .static)) (by decide)
  simpa [ht] using hany

/-- The report of a late write stands after all that the write brings about. -/
theorem State.writeReg_static_reports (h : off ∈ staticOffs) (hr : regAt off = some r)
    (hrange : (s.landing r off off v true).range = false) (hh : s.halted (haltGroup off) = false) {f : FieldRow} (hm : f ∈ r.fields)
    (ha : f.acc = .rw) (hc : f.cls = .static) (hn : bitsOf v f.hi f.lo ≠ bitsOf (s.reg off) f.hi f.lo) :
    ∃ x ∈ (s.writeReg s none off off v node agent).st.flt.raised, x.code = Code.CFG_LATE ∧ x.src = Src.setup ∧
      x.params = [BitVec.ofNat 32 off, v, BitVec.ofNat 32 (node % 2048 * 65536 + agent % 256 * 256), BitVec.ofNat 32 (haltGroup off)] := by
  obtain ⟨heff, hlate⟩ := s.takes_eff r off v h hr
  have htwn : off = K.TWN_CTL → bitOf (s.reg off) 31 = bitOf (s.takes r off v).eff 31 := fun ht => by
    rw [heff]
    exact (bitOf_of_bitsOf _ _ 31 (State.landing_static_keep h hr hrange hh (twnCtl_en h hr ht) rfl rfl)).symm
  obtain ⟨x, hx, hxp⟩ := s.reported_late r off v node agent (hlate.trans (State.landing_static_late h hr hrange hh hm ha hc hn))
  rw [(s.writeReg_static off v node agent r h hr).2.2]
  exact ⟨x, State.wroteAfter_told _ off _ _ v h htwn hx, hxp⟩

/-- The shadow bank keeps every STAGED field of a register. -/
theorem static_stagedMask (h : off ∈ staticOffs) (hr : regAt off = some r) {g : FieldRow} (hm : g ∈ r.fields) (hc : g.cls = .staged)
    (w : Word) : bitsOf (w &&& stagedMask off) g.hi g.lo = bitsOf w g.hi g.lo := by
  have hall := of_staticOffs h hr (fun o r => r.fields.all (fun g => g.cls != .staged || (List.range 32).all (fun i =>
    decide (i < g.lo) || decide (g.hi < i) || (stagedMask o).toNat.testBit i))) (by decide +kernel)
  have hbits := List.all_eq_true.mp hall g hm
  simp only [hc, bne_self_eq_false, Bool.false_or] at hbits
  obtain ⟨hle, hlt⟩ := fieldsOk_bounds (static_fieldsOk h hr) hm
  apply Nat.eq_of_testBit_eq
  intro i
  simp only [testBit_bitsOf, BitVec.toNat_and, Nat.testBit_and]
  by_cases hi : i < g.hi - g.lo + 1
  · have hbit := List.all_eq_true.mp hbits (g.lo + i) (List.mem_range.mpr (by omega))
    have hin : ¬ g.lo + i < g.lo ∧ ¬ g.hi < g.lo + i := by omega
    simp only [hin, decide_false, Bool.false_or] at hbit
    rw [hbit, Bool.and_true]
  · simp [hi]

/-- The shadow of a register holds what was put there, cut to its STAGED fields. -/
theorem State.setShd_shd_self (t : State) (k : Nat) (w : Word) : (t.setShd k w).shd k = w &&& stagedMask k := by
  simp [State.shd]

/-- A STAGED field beside them takes the value in the shadow, the old bank not retiring. -/
theorem State.writeReg_static_shadow (h : off ∈ staticOffs) (hr : regAt off = some r)
    (hrange : (s.landing r off off v true).range = false) (hret : s.bit F.CHIP_COMMIT_STAT_RETIRING = false) {g : FieldRow}
    (hm : g ∈ r.fields) (ha : g.acc = .rw) (hc : g.cls = .staged) :
    bitsOf ((s.writeReg s none off off v node agent).st.shd off) g.hi g.lo = bitsOf v g.hi g.lo := by
  have hstaged : r.hasStaged = true := List.any_eq_true.mpr ⟨g, hm, by simp [hc]⟩
  have hquiet : off ∈ quietOffs := by
    rw [static_staged h hr hstaged]
    decide
  have htakes : s.takes r off v = s.landing r off off v true := by rw [State.takes, hret, Bool.and_false, Bool.not_false]
  obtain ⟨heq, hfields⟩ := State.landWith_of_range hrange
  rw [(s.writeReg_static off v node agent r h hr).2.1, State.wroteAfter_quiet _ off _ _ v hquiet, State.reported,
    State.shd_of_regs (State.setupReport_regs _ _ _ _ _ _ _ _), State.setShd_shd_self, static_stagedMask h hr hm hc, htakes,
    State.landing, heq]
  exact Landing.foldl_staged _ _ _ _ _ (static_fieldsOk h hr) hm ha hc hfields

end

end Sys2Proof.Machine
end

section
open Sys2Proof Sys2Proof.Machine

/-- Settles O54: a STATIC field takes what is written under its halt alone, CFG_LATE tells of every other change, and nothing that the
write brings about reaches the field again or takes the report back (R437). -/
theorem staticFieldsWaitForTheHalt : Obligations.StaticFieldsWaitForTheHalt := by
  unfold Obligations.StaticFieldsWaitForTheHalt
  intro s off node agent r v hup hlt h4 hr hw hrange f hm ha hc
  have h := mem_staticOffs hr hm hc
  refine ⟨_, exec_setupWrite_up s off _ node agent hup, ?_⟩
  rw [setupWriteCmd_four s off v node agent r hlt h4 hr hw]
  refine ⟨fun hh => ?_, fun hsame => ?_, fun hh hn => ⟨?_, ?_, fun g hg hga hgc => ?_, fun g hg hga hgc hret => ?_⟩⟩
  · exact State.writeReg_static_takes node agent h hr hrange hm ha (.inr (.inl ⟨hc, hh⟩))
  · exact State.writeReg_static_takes node agent h hr hrange hm ha (.inr (.inr hsame))
  · exact (State.writeReg_static_field node agent h hr hm ha).trans (State.landing_static_keep h hr hrange hh hm ha hc)
  · exact State.writeReg_static_reports node agent h hr hrange hh hm ha hc hn
  · exact State.writeReg_static_takes node agent h hr hrange hg hga (.inl hgc)
  · exact State.writeReg_static_shadow node agent h hr hrange hret hg hga hgc

end
